-- ==== Sys2Proof/Word.lean ====
section
/-! DEFINITION. The word types and their plainest arithmetic. -/
namespace Sys2Proof

/-- One byte of memory. -/
abbrev Byte := BitVec 8

/-- The bit pattern of an FP32 value (R67). -/
abbrev F32 := BitVec 32

/-- A flag word of R94: bit 0 INVALID to bit 7 LONG_CHAIN. -/
abbrev Flags := BitVec 8

/-- A map from natural keys, listed in rising order of key; an unlisted key holds a default. -/
abbrev Sparse (α : Type) := List (Nat × α)

/-- ceil(a ÷ b). -/
abbrev ceilDiv (a b : Nat) : Nat := (a + b - 1) / b

end Sys2Proof
end

