-- ==== Sys2Proof/Syntax.lean ====
section
/-! DEFINITION. The commands of the block: one constructor per row of the spec's table of operations
and events. A command carries what comes from outside the module: the unit the event happens on, times
measured by clocks the model does not hold, and what other modules, the host, the tray and the outside
standards deliver. -/
namespace Sys2Proof

/-- The commands. Each constructor's comment names its rule and its operands. -/
inductive Instr where
  /-- STITCH_EDGE: R29. One edge on every cell and control core. -/
  | stitchEdge
  /-- STITCH_IN_EDGE: R31. Microseconds since the edge before. -/
  | stitchInEdge (us : Nat)
  /-- STITCH_IN_TIMEOUT: R31. 20 ms have passed since the edge was due. -/
  | stitchInTimeout
  /-- STITCH_MARKER: R34. Plane, module the marker comes from, edge, and arrival in ns relative to its nominal time. -/
  | stitchMarker (plane : Nat) (sender : Nat) (n : Nat) (t : Int)
  /-- ROOT_HEARTBEAT_SEND: R32. The 100 µs timer of the root. -/
  | rootHeartbeatSend
  /-- ROOT_HEARTBEAT: R32. The module it comes from. -/
  | rootHeartbeat (sender : Nat)
  /-- STANDBY_TAKEOVER: R32. Microseconds since a marker or heartbeat of the root was heard. -/
  | standbyTakeover (us : Nat)
  /-- STITCH_LOST: R35. 20 ms of holdover without a valid marker. -/
  | stitchLost
  /-- STITCH_LOST_JOB_END: R556. 2 s in STITCH_LOST. -/
  | stitchLostJobEnd
  /-- HARNESS_FRAME: R54. Port, precedence class, hop sequence number, outcome of the CRC check, and the 128 bits. -/
  | harnessFrame (port : Nat) (cls : Nat) (seq : Nat) (crcOk : Bool) (payload : Nat)
  /-- PIECE_START: R40. The free cell and the Harness offset in the stitch. -/
  | pieceStart (cell : Nat) (x : Nat)
  /-- DESCRIPTOR_HAND_OUT: R159. The cell whose next descriptor reaches the head of its list. -/
  | descriptorHandOut (cell : Nat)
  /-- GRID_DESCRIPTOR: R138. The cell whose grid piece has started. -/
  | gridDescriptor (cell : Nat)
  /-- MATRIX: R124. The cell whose unit runs its next descriptor. -/
  | matrix (cell : Nat)
  /-- WGRAD: R224. The cell whose unit runs its next descriptor. -/
  | wgrad (cell : Nat)
  /-- CONV: R198. The cell whose unit runs its next descriptor. -/
  | conv (cell : Nat)
  /-- POOL_MAX: R208. The cell whose unit runs its next descriptor. -/
  | poolMax (cell : Nat)
  /-- POOL_AVG_FULL: R209. The cell whose unit runs its next descriptor. -/
  | poolAvgFull (cell : Nat)
  /-- POOL_AVG_VALID: R209. The cell whose unit runs its next descriptor. -/
  | poolAvgValid (cell : Nat)
  /-- CONV_DX: R225. The cell whose unit runs its next descriptor. -/
  | convDx (cell : Nat)
  /-- CONV_WGRAD: R226. The cell whose unit runs its next descriptor. -/
  | convWgrad (cell : Nat)
  /-- STEM_PACK: R211. The cell whose unit runs its next descriptor. -/
  | stemPack (cell : Nat)
  /-- STEM_UNPACK: R212. The cell whose unit runs its next descriptor. -/
  | stemUnpack (cell : Nat)
  /-- PRELOAD: R112. The cell whose unit runs its next descriptor. -/
  | preload (cell : Nat)
  /-- TILE_DRAIN: R114. The cell whose unit runs its next descriptor. -/
  | tileDrain (cell : Nat)
  /-- DESCRIPTOR_RETIRE: R117. The cell, the first list slot of the descriptor, and what the cell reports: pairs of a kind and a value (log 120). -/
  | descriptorRetire (cell : Nat) (slot : Nat) (stalls : List (Nat × Nat))
  /-- VECTOR_COPY: R168. The cell whose vector engine runs its next descriptor. -/
  | vectorCopy (cell : Nat)
  /-- VECTOR_ADD: R168. The cell whose vector engine runs its next descriptor. -/
  | vectorAdd (cell : Nat)
  /-- VECTOR_SUB: R168. The cell whose vector engine runs its next descriptor. -/
  | vectorSub (cell : Nat)
  /-- VECTOR_MUL: R168. The cell whose vector engine runs its next descriptor. -/
  | vectorMul (cell : Nat)
  /-- VECTOR_DIV: R168. The cell whose vector engine runs its next descriptor. -/
  | vectorDiv (cell : Nat)
  /-- VECTOR_MAX: R168. The cell whose vector engine runs its next descriptor. -/
  | vectorMax (cell : Nat)
  /-- VECTOR_MIN: R168. The cell whose vector engine runs its next descriptor. -/
  | vectorMin (cell : Nat)
  /-- VECTOR_FMA: R168. The cell whose vector engine runs its next descriptor. -/
  | vectorFma (cell : Nat)
  /-- VECTOR_ABS: R168. The cell whose vector engine runs its next descriptor. -/
  | vectorAbs (cell : Nat)
  /-- VECTOR_NEG: R168. The cell whose vector engine runs its next descriptor. -/
  | vectorNeg (cell : Nat)
  /-- VECTOR_CLAMP: R168. The cell whose vector engine runs its next descriptor. -/
  | vectorClamp (cell : Nat)
  /-- VECTOR_SIGN: R168. The cell whose vector engine runs its next descriptor. -/
  | vectorSign (cell : Nat)
  /-- VECTOR_SQRT: R168. The cell whose vector engine runs its next descriptor. -/
  | vectorSqrt (cell : Nat)
  /-- VECTOR_RSQRT: R168. The cell whose vector engine runs its next descriptor. -/
  | vectorRsqrt (cell : Nat)
  /-- VECTOR_RECIP: R168. The cell whose vector engine runs its next descriptor. -/
  | vectorRecip (cell : Nat)
  /-- VECTOR_EXP: R168. The cell whose vector engine runs its next descriptor. -/
  | vectorExp (cell : Nat)
  /-- VECTOR_LOG: R168. The cell whose vector engine runs its next descriptor. -/
  | vectorLog (cell : Nat)
  /-- VECTOR_TANH: R168. The cell whose vector engine runs its next descriptor. -/
  | vectorTanh (cell : Nat)
  /-- VECTOR_SIGMOID: R168. The cell whose vector engine runs its next descriptor. -/
  | vectorSigmoid (cell : Nat)
  /-- VECTOR_SILU: R168. The cell whose vector engine runs its next descriptor. -/
  | vectorSilu (cell : Nat)
  /-- VECTOR_GELU_TANH: R168. The cell whose vector engine runs its next descriptor. -/
  | vectorGeluTanh (cell : Nat)
  /-- VECTOR_RELU: R168. The cell whose vector engine runs its next descriptor. -/
  | vectorRelu (cell : Nat)
  /-- VECTOR_SELECT: R168. The cell whose vector engine runs its next descriptor. -/
  | vectorSelect (cell : Nat)
  /-- VECTOR_CMP_GT: R168. The cell whose vector engine runs its next descriptor. -/
  | vectorCmpGt (cell : Nat)
  /-- REDUCTION_SUM: R170. The cell whose vector engine runs its next descriptor. -/
  | reductionSum (cell : Nat)
  /-- REDUCTION_SUMSQ: R170. The cell whose vector engine runs its next descriptor. -/
  | reductionSumsq (cell : Nat)
  /-- REDUCTION_SUMABS: R170. The cell whose vector engine runs its next descriptor. -/
  | reductionSumabs (cell : Nat)
  /-- REDUCTION_MAX: R170. The cell whose vector engine runs its next descriptor. -/
  | reductionMax (cell : Nat)
  /-- REDUCTION_MIN: R170. The cell whose vector engine runs its next descriptor. -/
  | reductionMin (cell : Nat)
  /-- REDUCTION_ABSMAX: R170. The cell whose vector engine runs its next descriptor. -/
  | reductionAbsmax (cell : Nat)
  /-- REDUCTION_DOT: R170. The cell whose vector engine runs its next descriptor. -/
  | reductionDot (cell : Nat)
  /-- UPDATE_SGD_MOMENTUM: R174. The cell whose vector engine runs its next descriptor. -/
  | updateSgdMomentum (cell : Nat)
  /-- UPDATE_ADAMW: R174. The cell whose vector engine runs its next descriptor. -/
  | updateAdamw (cell : Nat)
  /-- UPDATE_LION: R174. The cell whose vector engine runs its next descriptor. -/
  | updateLion (cell : Nat)
  /-- NORM_FWD: R185. The cell whose Skiver runs its next descriptor. -/
  | normFwd (cell : Nat)
  /-- NORM_BWD: R186. The cell whose Skiver runs its next descriptor. -/
  | normBwd (cell : Nat)
  /-- SOFTMAX_FWD: R187. The cell whose Skiver runs its next descriptor. -/
  | softmaxFwd (cell : Nat)
  /-- SOFTMAX_BWD: R188. The cell whose Skiver runs its next descriptor. -/
  | softmaxBwd (cell : Nat)
  /-- STAT_SAVE: R190. The cell whose Skiver runs its next descriptor. -/
  | statSave (cell : Nat)
  /-- STAT_LOAD: R190. The cell whose Skiver runs its next descriptor. -/
  | statLoad (cell : Nat)
  /-- MOVE_COPY: R282. The cell and the stream queue whose next descriptor begins. -/
  | moveCopy (cell : Nat) (queue : Nat)
  /-- MOVE_ENCODE: R283. The cell and the stream queue whose next descriptor begins. -/
  | moveEncode (cell : Nat) (queue : Nat)
  /-- MOVE_DECODE: R283. The cell and the stream queue whose next descriptor begins. -/
  | moveDecode (cell : Nat) (queue : Nat)
  /-- MOVE_REGROUP: R284. The cell and the stream queue whose next descriptor begins. -/
  | moveRegroup (cell : Nat) (queue : Nat)
  /-- QUEUE_CTL: R287. The cell whose list hands the descriptor out. -/
  | queueCtl (cell : Nat)
  /-- REARM: R288. The cell and the stream queue. -/
  | rearm (cell : Nat) (queue : Nat)
  /-- TRANSFER_ISSUE: R276. The cell whose stream engine issues. -/
  | transferIssue (cell : Nat)
  /-- HOME_SLICE_ACCESS: R310. Store or load, address, bytes (a load carries its length in bytes as so many bytes), and the symbol errors the words of its line have taken (place, 36 to a sector of the line, and difference). -/
  | homeSliceAccess (store : Bool) (addr : Nat) (data : List Byte) (errs : List (Nat × Nat))
  /-- TRANSFER_LAND: R290. The cell, the transfer, the generation the reply carries, and what the cell reports, as for DESCRIPTOR_RETIRE. -/
  | transferLand (cell : Nat) (id : Nat) (gen : Nat) (stalls : List (Nat × Nat))
  /-- HARNESS_OP_READ: R57. The cell whose Harness port runs its next descriptor. -/
  | harnessOpRead (cell : Nat)
  /-- HARNESS_OP_ADD: R57. The cell whose Harness port runs its next descriptor. -/
  | harnessOpAdd (cell : Nat)
  /-- HARNESS_OP_SET: R57. The cell whose Harness port runs its next descriptor. -/
  | harnessOpSet (cell : Nat)
  /-- HARNESS_OP_WAIT_GE: R57. The cell whose Harness port runs its next descriptor. -/
  | harnessOpWaitGe (cell : Nat)
  /-- HARNESS_OP_EVENT_SET: R57. The cell whose Harness port runs its next descriptor. -/
  | harnessOpEventSet (cell : Nat)
  /-- HARNESS_OP_EVENT_CLEAR: R57. The cell whose Harness port runs its next descriptor. -/
  | harnessOpEventClear (cell : Nat)
  /-- HARNESS_OP_EVENT_WAIT: R57. The cell whose Harness port runs its next descriptor. -/
  | harnessOpEventWait (cell : Nat)
  /-- HARNESS_OP_ARRIVE: R57. The cell whose Harness port runs its next descriptor. -/
  | harnessOpArrive (cell : Nat)
  /-- HARNESS_OP_BARRIER_WAIT: R57. The cell whose Harness port runs its next descriptor. -/
  | harnessOpBarrierWait (cell : Nat)
  /-- HARNESS_OP_ARRIVE_WAIT: R57. The cell whose Harness port runs its next descriptor. -/
  | harnessOpArriveWait (cell : Nat)
  /-- HARNESS_OP_POST: R57. The cell whose Harness port runs its next descriptor. -/
  | harnessOpPost (cell : Nat)
  /-- HARNESS_OP_TAKE: R57. The cell whose Harness port runs its next descriptor. -/
  | harnessOpTake (cell : Nat)
  /-- HARNESS_OP_TRY_TAKE: R57. The cell whose Harness port runs its next descriptor. -/
  | harnessOpTryTake (cell : Nat)
  /-- SYNC_WAIT_RELEASE: R59. The waiting cell, its waiting unit (stream queue 0 to 15, Harness port 16) and the cycles it waited. -/
  | syncWaitRelease (cell : Nat) (unit : Nat) (cycles : Nat)
  /-- FAR_UPDATE: R62. Far index and the combined amount of the other modules since the last update (an EVENT: 1 when set). -/
  | farUpdate (far : Nat) (amount : Nat)
  /-- PIECE_COMMIT: R44. The cell whose piece commits. -/
  | pieceCommit (cell : Nat)
  /-- TILE_CLAIM: R139. The cell a grid piece is taken for, and the tile counter. -/
  | tileClaim (cell : Nat) (obj : Nat)
  /-- TILE_COMMIT: R141. The cell whose COMMIT reaches the home node. -/
  | tileCommit (cell : Nat)
  /-- TILE_COMMIT_REPLY: R141. The cell the answer reaches. -/
  | tileCommitReply (cell : Nat)
  /-- TILE_DONE: R139. Tile counter, index and generation. -/
  | tileDone (obj : Nat) (idx : Nat) (gen : Nat)
  /-- TILE_REVERT: R145. Tile counter, index and generation. -/
  | tileRevert (obj : Nat) (idx : Nat) (gen : Nat)
  /-- TILE_RELEASE: R139. Tile counter, index and generation. -/
  | tileRelease (obj : Nat) (idx : Nat) (gen : Nat)
  /-- LEASE_TIMEOUT: R142. Tile counter and index of the aged lease. -/
  | leaseTimeout (obj : Nat) (idx : Nat)
  /-- CELL_FAULT: R16. The failed cell. -/
  | cellFault (cell : Nat)
  /-- SLM_ADD: R239. The cell whose oldest SLM add lands. -/
  | slmAdd (cell : Nat)
  /-- GATHER: R242. The context whose step gathers. -/
  | gather (ctx : Nat)
  /-- STEP_OPEN: R248. The command, the shards of the other members (member, entry, first element, elements, bytes of an element of the compute copy, its address), and the planes up on every member for 1 s. -/
  | stepOpen (cmd : Nat) (others : List (List Nat)) (planes : Nat)
  /-- EXCHANGE: R354. The context. -/
  | exchange (ctx : Nat)
  /-- UPDATE_PLACEMENT: R257. The context, the shard whose reduced gradient has landed, and the elements of each piece the scheduler core makes of it. -/
  | updatePlacement (ctx : Nat) (shard : Nat) (lens : List Nat)
  /-- VOTE_CAST: R259. The context. -/
  | voteCast (ctx : Nat)
  /-- VOTE_RECEIVE: R262. Context, voting module, STEP and COMMIT_STITCH it carries, vote, reason, faulty module, flag word and norm sums. -/
  | voteReceive (ctx : Nat) (sender : Nat) (step : Nat) (tc : Nat) (yes : Bool) (reason : Nat) (faulty : Option Nat) (flags : Nat) (norms : List (List Nat))
  /-- VOTE_DEADLINE: R260. The context. -/
  | voteDeadline (ctx : Nat)
  /-- OUTCOME_RECEIVE: R261. Context, COMMIT_STITCH (R262), outcome, and of the other modules the flags, the failing voters with reasons, and the norm sums. -/
  | outcomeReceive (ctx : Nat) (step : Nat) (commit : Bool) (flags : Nat) (fails : List (Nat × Nat)) (norms : List (List Nat))
  /-- STEP_OUTCOME_APPLY: R263. The context. -/
  | stepOutcomeApply (ctx : Nat)
  /-- STEP_GATHER: R265. The context whose all-gather lands. -/
  | stepGather (ctx : Nat)
  /-- MIRROR: R267. Context and shard. -/
  | mirror (ctx : Nat) (shard : Nat)
  /-- MIRROR_ACK: R267. Context and shard. -/
  | mirrorAck (ctx : Nat) (shard : Nat)
  /-- SNAPSHOT: R269. The command, and Bus Master Enable of the configuration space. -/
  | snapshot (cmd : Nat) (busMaster : Bool)
  /-- SNAPSHOT_SEND: R352. The command. -/
  | snapshotSend (cmd : Nat)
  /-- REDUCE_SCATTER: R347. The command. -/
  | reduceScatter (cmd : Nat)
  /-- ALL_REDUCE: R347. The command. -/
  | allReduce (cmd : Nat)
  /-- ALL_GATHER: R347. The command. -/
  | allGather (cmd : Nat)
  /-- BROADCAST: R347. The command. -/
  | broadcast (cmd : Nat)
  /-- PUT: R347. The command. -/
  | put (cmd : Nat)
  /-- FABRIC_OP_START: R349. The operation. -/
  | fabricOpStart (op : Nat)
  /-- FABRIC_START_NOTICE: R349. Context, group digest and sequence number that match the operation, the member, its operation number, destination, kind, count and format. -/
  | fabricStartNotice (ctx : Nat) (group : Nat) (seq : Nat) (sender : Nat) (op : Nat) (dst : Nat) (kind : Nat) (count : Nat) (fmt : Nat)
  /-- FABRIC_OP_COMPLETE: R351. The operation, and the module another member has marked faulty. -/
  | fabricOpComplete (op : Nat) (faulty : Option Nat)
  /-- FABRIC_TIMEOUT: R351. The operation. -/
  | fabricTimeout (op : Nat)
  /-- FLIT_DATA: R338. Port, header, payload, a poison bit for each 32 bytes of it, and the code words corrected and uncorrectable in it. -/
  | flitData (port : Nat) (header : Nat) (payload : List Byte) (poison : Nat) (fec : Nat) (unc : Nat)
  /-- FLIT_REDUCE: R358. Port, header, payload, whether the adder of the module reports a mismatch, and the code words corrected and uncorrectable. -/
  | flitReduce (port : Nat) (header : Nat) (payload : List Byte) (adderFault : Bool) (fec : Nat) (unc : Nat)
  /-- RESIDUE_RESEND_REQUEST: R360. The operation of this module, plane and number of the flit, and the member that asks. -/
  | residueResendRequest (op : Nat) (plane : Nat) (idx : Nat) (member : Nat)
  /-- FLIT_RETRY: R339. Port, header, payload, and the code words corrected and uncorrectable in it. -/
  | flitRetry (port : Nat) (header : Nat) (payload : List Byte) (fec : Nat) (unc : Nat)
  /-- FLIT_NULL: R338. Port, header, payload, and the code words corrected and uncorrectable in it. -/
  | flitNull (port : Nat) (header : Nat) (payload : List Byte) (fec : Nat) (unc : Nat)
  /-- LASER_LIGHT_LOSS: R330. The receptacle, and whether only the Harness wavelength falls. -/
  | laserLightLoss (receptacle : Nat) (harnessOnly : Bool)
  /-- PORT_TRAINING: R333. The port, the plane number received and the hop delay found. -/
  | portTraining (port : Nat) (plane : Nat) (delay : Nat)
  /-- PORT_TRAINING_TIMEOUT: R333. The port and the step of R333. -/
  | portTrainingTimeout (port : Nat) (step : Nat)
  /-- PORT_LOCK_LOSS: R335. The port, the member whose port it is, and whether replays are the cause. -/
  | portLockLoss (port : Nat) (member : Nat) (replays : Bool)
  /-- HARNESS_LOCK_LOSS: R335. The port. -/
  | harnessLockLoss (port : Nat)
  /-- PORT_RETRAIN: R335. The port. -/
  | portRetrain (port : Nat)
  /-- CALIBRATION_DONE: R66. A port, or a cluster. -/
  | calibrationDone (cluster : Bool) (unit : Nat)
  /-- STREAM_OPEN: R364. The command. -/
  | streamOpen (cmd : Nat)
  /-- STREAM_CLOSE: R392. The command. -/
  | streamClose (cmd : Nat)
  /-- BATCH_ASSEMBLE: R382. The stream. -/
  | batchAssemble (stream : Nat)
  /-- SAMPLE_START: R384. The stream whose next sample an engine takes. -/
  | sampleStart (stream : Nat)
  /-- SAMPLE_DECODED: R386. Stream, decode, its time in microseconds, the reason of R368 the decoder reports (0: none), whether the read over PCI Express failed, the dimensions it reports, and of a sample that lies on the host its bytes. Reason and dimensions have no effect: the model decodes the file (log 62). -/
  | sampleDecoded (stream : Nat) (id : Nat) (us : Nat) (reason : Nat) (pcieFail : Bool) (dims : List Nat) (data : List (List Nat))
  /-- SAMPLE_OVER_BUDGET: R387. Stream, decode, and its time so far in microseconds. -/
  | sampleOverBudget (stream : Nat) (id : Nat) (us : Nat)
  /-- BATCH_SEAL: R388. The stream, and the time the seal waited for samples. -/
  | batchSeal (stream : Nat) (waitUs : Nat)
  /-- JOB_OPEN: R397. The command; of the other members the root's stitch period, their scale mode, the root's digests of far objects, member table and pattern, and the planes lost on them. -/
  | jobOpen (cmd : Nat) (period : Nat) (mode : Nat) (far : Nat) (members : Nat) (pattern : Nat) (planes : Nat)
  /-- JOB_CLOSE: R398. The command. -/
  | jobClose (cmd : Nat)
  /-- SCRUB_COMPLETE: R399. Failures that a requested test found (kind, unit, bank, row, bit), and the addresses of sectors that could not be written. -/
  | scrubComplete (fails : List (List Nat)) (bad : List Nat)
  /-- CONTEXT_CREATE: R403. The command, and the digest of the Stitch root. -/
  | contextCreate (cmd : Nat) (rootDigest : Nat)
  /-- CONTEXT_DESTROY: R404. The command. -/
  | contextDestroy (cmd : Nat)
  /-- PATTERN_LOAD: R414. The command, and the digest of the Stitch root. -/
  | patternLoad (cmd : Nat) (rootDigest : Nat)
  /-- PATTERN_TAKE_EFFECT: R414. -/
  | patternTakeEffect
  /-- SWAP_COMPLETE: R412. The context. -/
  | swapComplete (ctx : Nat)
  /-- CLASS2_REFUSE: R424. The command. -/
  | class2Refuse (cmd : Nat)
  /-- RUN: R444. The command. -/
  | run (cmd : Nat)
  /-- GRID: R148. The command. -/
  | grid (cmd : Nat)
  /-- SYNC_OP_READ: R444. The command. -/
  | syncOpRead (cmd : Nat)
  /-- SYNC_OP_ADD: R444. The command. -/
  | syncOpAdd (cmd : Nat)
  /-- SYNC_OP_SET: R444. The command. -/
  | syncOpSet (cmd : Nat)
  /-- SYNC_OP_EVENT_SET: R444. The command. -/
  | syncOpEventSet (cmd : Nat)
  /-- SYNC_OP_EVENT_CLEAR: R444. The command. -/
  | syncOpEventClear (cmd : Nat)
  /-- SYNC_OP_POST: R444. The command. -/
  | syncOpPost (cmd : Nat)
  /-- SYNC_OP_ARRIVE: R444. The command. -/
  | syncOpArrive (cmd : Nat)
  /-- HOST_COPY_TO_DEVICE: R444. The command, and Bus Master Enable of the configuration space. -/
  | hostCopyToDevice (cmd : Nat) (busMaster : Bool)
  /-- HOST_COPY_TO_HOST: R444. The command, and Bus Master Enable of the configuration space. -/
  | hostCopyToHost (cmd : Nat) (busMaster : Bool)
  /-- PCIE_READ_COMPLETION: R429. The request, place of the data in it, the data (of a failed read as many bytes as it covers), and whether the read failed. -/
  | pcieReadCompletion (id : Nat) (offset : Nat) (data : List Byte) (fail : Bool)
  /-- RING_ENTRY_TAKE: R440. -/
  | ringEntryTake
  /-- SQ_TAIL: R438. Ring pair and value written. -/
  | sqTail (ring : Nat) (value : Nat)
  /-- CQ_HEAD: R439. Ring pair and value written. -/
  | cqHead (ring : Nat) (value : Nat)
  /-- RING_ENABLE: R437. Ring pair, value of ENABLE, and the bases and sizes written before it. -/
  | ringEnable (ring : Nat) (enable : Bool) (sqBase : Nat) (cqBase : Nat) (sqLog : Nat) (cqLog : Nat)
  /-- BAR2_WINDOW_BASE: R433. Value written, and log2 of the size that the Resizable BAR capability holds. -/
  | bar2WindowBase (value : Nat) (sizeLog : Nat)
  /-- BAR2_READ: R434. BAR2 offset and bytes. -/
  | bar2Read (offset : Nat) (n : Nat)
  /-- BAR2_WRITE: R434. BAR2 offset, bytes, and the EP bit. -/
  | bar2Write (offset : Nat) (data : List Byte) (ep : Bool)
  /-- PERST_N_ASSERT: R430. How long the level is held, in ns. -/
  | perstNAssert (ns : Nat)
  /-- PERST_N_DEASSERT: R575. -/
  | perstNDeassert
  /-- OD_READ: R490. -/
  | odRead
  /-- OD_WRITE: R483. -/
  | odWrite
  /-- OD_SEG_READ: R487. -/
  | odSegRead
  /-- OD_SEG_WRITE: R487. -/
  | odSegWrite
  /-- OD_SEG_ABORT: R487. -/
  | odSegAbort
  /-- SEG_TRANSFER_TIMEOUT: R487. Place of the transfer among the open ones. -/
  | segTransferTimeout (n : Nat)
  /-- FW_STAGE_DATA: R467. -/
  | fwStageData
  /-- FW_ACTIVATE: R468. -/
  | fwActivate
  /-- SVN_COMMIT: R470. -/
  | svnCommit
  /-- ATTEST_NONCE: R473. -/
  | attestNonce
  /-- ATTEST_REPORT: R474. -/
  | attestReport
  /-- DEBUG_TOKEN: R477. -/
  | debugToken
  /-- DEBUG_LOCK: R477. -/
  | debugLock
  /-- DEBUG_UNLOCK_EXPIRY: R477. -/
  | debugUnlockExpiry
  /-- BIST_REQUEST: R533. -/
  | bistRequest
  /-- BIST_FORCE: R533. -/
  | bistForce
  /-- CAL_REQUEST: R535. -/
  | calRequest
  /-- TEST_MODE: R546. -/
  | testMode
  /-- STACK_PPR: R546. -/
  | stackPpr
  /-- BIST_UNIT: R546. The failures that the test of the unit finds (kind, unit, bank, row, bit). -/
  | bistUnit (fails : List (List Nat))
  /-- JAOLPEN_OPEN: R499. The frame received. -/
  | jaolpenOpen (frame : List Byte)
  /-- JAOLPEN_CLOSE: R501. The frame received. -/
  | jaolpenClose (frame : List Byte)
  /-- SESSION_IDLE_TIMEOUT: R501. The session. -/
  | sessionIdleTimeout (id : Nat)
  /-- NEIGHBOR_SOLICITATION: R497. -/
  | neighborSolicitation
  /-- ECHO_REQUEST: R497. Its data. -/
  | echoRequest (data : List Byte)
  /-- PLCA_BEACON_TIMEOUT: R496. -/
  | plcaBeaconTimeout
  /-- FENCE: R550. A cell or a block of R548, its number, and the cause of R560. -/
  | fence (isCell : Bool) (unit : Nat) (cause : Nat)
  /-- FENCE_NOTICE: R551. The fenced cell or block, and the target: a block. -/
  | fenceNotice (isCell : Bool) (unit : Nat) (target : Nat)
  /-- FENCE_ACK: R550. The fenced cell or block, and the target: a block. -/
  | fenceAck (isCell : Bool) (unit : Nat) (target : Nat)
  /-- UNFENCE: R555. The block that reports ready. -/
  | unfence (block : Nat)
  /-- MEMBER_EXCLUDE: R557. The member. -/
  | memberExclude (member : Nat)
  /-- CONTROL_CORE_WATCHDOG: R462. The cluster. -/
  | controlCoreWatchdog (cluster : Nat)
  /-- SCHEDULER_WATCHDOG: R463. -/
  | schedulerWatchdog
  /-- SCHEDULER_RESUME: R463. -/
  | schedulerResume
  /-- SCHEDULER_LOST: R463. -/
  | schedulerLost
  /-- POWER_WATCHDOG: R464. -/
  | powerWatchdog
  /-- POWER_CORE_RESUME: R464. -/
  | powerCoreResume
  /-- SECURITY_WATCHDOG: R465. -/
  | securityWatchdog
  /-- RESET_N_ASSERT: R578. How long the level is held, in ns. -/
  | resetNAssert (ns : Nat)
  /-- BOOT: R458. The straps ID5 to ID0, the failures that self-test finds (kind, unit, bank, row, bit), and the addresses of sectors that the scrub could not write. -/
  | boot (straps : Nat) (fails : List (List Nat)) (bad : List Nat)
  /-- PROCESSOR_READY: R458. -/
  | processorReady
  /-- BOOT_READY_TIMEOUT: R460. -/
  | bootReadyTimeout
  /-- PWR_EN_ASSERT: R575. How long the level is held, in ns. -/
  | pwrEnAssert (ns : Nat)
  /-- PWR_EN_DEASSERT: R576. How long the level is held, in ns. -/
  | pwrEnDeassert (ns : Nat)
  /-- PWR_EN_HOLDOFF_EXPIRY: R576. -/
  | pwrEnHoldoffExpiry
  /-- INPUT_VOLTAGE_VALID: R577. -/
  | inputVoltageValid
  /-- INPUT_VOLTAGE_TRIP: R520. Has the input been removed altogether? -/
  | inputVoltageTrip (removed : Bool)
  /-- SAFE_TRIP: R520. The conditions that hold: temperature, power. -/
  | safeTrip (temp : Bool) (power : Bool)
  /-- SAFE_EXIT: R521. The time spent in SAFE, in ms. -/
  | safeExit (ms : Nat)
  /-- THERMAL_SHUTDOWN: R520. -/
  | thermalShutdown
  /-- POWER_LOOP_TICK: R516. Input voltage, current and power over the last 1 ms, and the highest die temperature. -/
  | powerLoopTick (mv : Nat) (ma : Nat) (watts : Nat) (tj : Int)
  /-- DROOP_STRETCH: R512. The cluster, and the cycles stretched. -/
  | droopStretch (cluster : Nat) (cycles : Nat)
  /-- STACK_TEMP_REPORT: R325. The stack, its temperature and its own limit. -/
  | stackTempReport (stack : Nat) (temp : Int) (limit : Int)
  /-- PATROL_SCRUB: R323. The stack, the address of the sector read (of a line that lies in no region 2^43 + channel × 2^29 + its channel-local address), the symbol errors its word has taken (place, difference), and whether the patrol interval ends. -/
  | patrolScrub (stack : Nat) (addr : Nat) (errs : List (Nat × Nat)) (wrap : Bool)
  /-- BIST_SLICE_START: R536. Cluster, physical cell, and Harness cycles before the next edge. -/
  | bistSliceStart (cluster : Nat) (cell : Nat) (remain : Nat)
  /-- BIST_SLICE_END: R539. Cluster, physical cell, the signatures that the logic slices gave, and the failures that memory slices found (kind, unit, bank, row, bit). -/
  | bistSliceEnd (cluster : Nat) (cell : Nat) (sigs : List Nat) (fails : List (List Nat))
  /-- MB_DOORBELL: R495. The tag written, and what was written before it to MB_REQUEST (its 256 bits) and to MB_DATA. -/
  | mbDoorbell (tag : Nat) (request : Nat) (data : List Byte)
  /-- JAOLPEN_REQUEST: R501. The frame received. -/
  | jaolpenRequest (frame : List Byte)
  /-- PLCA_BEACON_RECEIVED: R496. -/
  | plcaBeaconReceived
  /-- HARNESS_LOCK_REGAINED: R332. The port. -/
  | harnessLockRegained (port : Nat)
  deriving DecidableEq, Repr

end Sys2Proof
end

