-- ==== Sys2Proof/Decode.lean ====
section
/-! DEFINITION. Commands from table words: the spec's table gives no row any bits, so no word spells a
command. -/
namespace Sys2Proof

/-- The command a word of the table's bits spells: no row of the table has bits. -/
def decodeTableWord (_nbits _w : Nat) : Option Instr := none

end Sys2Proof
end

