-- ==== Sys2Proof/Machine/Bits.lean ====
section
/-! DEFINITION. Bit fields, byte order, and the canonical sparse maps the state is held in. -/
namespace Sys2Proof.Machine

/-- Field [hi:lo] of a word held as a natural number (R5: bit 0 least significant). -/
def fld (w hi lo : Nat) : Nat := (w >>> lo) % 2 ^ (hi + 1 - lo)

/-- Bit i of a word. -/
def bit (w i : Nat) : Bool := w.testBit i

/-- A field read as a two's-complement number. -/
def sfld (w hi lo : Nat) : Int :=
  let v := fld w hi lo
  if bit w hi then (v : Int) - 2 ^ (hi + 1 - lo) else v

/-- Replace field [hi:lo] of w by the low bits of v. -/
def setFld (w hi lo v : Nat) : Nat :=
  let n := hi + 1 - lo
  w - (fld w hi lo) * 2 ^ lo + (v % 2 ^ n) * 2 ^ lo

/-- R7: every reserved field [hi:lo] of the list reads zero. -/
def rsvClear (w : Nat) (rs : List (Nat × Nat)) : Bool := rs.all fun r => fld w r.1 r.2 == 0

/-- Little-endian value of bytes. -/
def leNat : List Byte → Nat
  | [] => 0
  | b :: bs => b.toNat + 256 * leNat bs

/-- The n low bytes of v, little-endian. -/
def leBytes : Nat → Nat → List Byte
  | 0, _ => []
  | n + 1, v => BitVec.ofNat 8 v :: leBytes n (v / 256)

/-- Bytes cut or zero-filled to a length of n. -/
def fitBytes (bs : List Byte) (n : Nat) : List Byte := (bs ++ List.replicate (n - bs.length) 0).take n

/-- Round a up to a multiple of b. -/
def roundUp (a b : Nat) : Nat := ceilDiv a b * b

/-- Two byte ranges given by base and length share a byte. -/
def rangesMeet (a n b m : Nat) : Bool := decide (0 < n ∧ 0 < m ∧ a < b + m ∧ b < a + n)

/-- Do no two ranges of the list share a byte? -/
def disjointRanges : List (Nat × Nat) → Bool
  | [] => true
  | (a, n) :: rs => rs.all (fun r => !rangesMeet a n r.1 r.2) && disjointRanges rs

/-- Count of the leading bits: the position of the highest 1 bit (0 for 0). -/
def log2 (n : Nat) : Nat := Nat.log2 n

/-- ceil(log2 n), 0 for n of 0 or 1. -/
def ceilLog2 (n : Nat) : Nat := if n ≤ 1 then 0 else Nat.log2 (n - 1) + 1

namespace Sp

/-- The value of a key: its listed value, or the default. -/
def get {α : Type} (d : α) : Sparse α → Nat → α
  | [], _ => d
  | (k, v) :: r, i => if i = k then v else get d r i

/-- Remove every entry of a key. -/
def del {α : Type} : Sparse α → Nat → Sparse α
  | [], _ => []
  | (k, v) :: r, i => if i = k then del r i else (k, v) :: del r i

/-- Insert or replace a key, keeping the keys rising. -/
def ins {α : Type} : Sparse α → Nat → α → Sparse α
  | [], i, v => [(i, v)]
  | (k, w) :: r, i, v =>
    if i < k then (i, v) :: (k, w) :: r else if i = k then (i, v) :: r else (k, w) :: ins r i v

/-- Set a key: the default value is not listed. -/
def set {α : Type} [DecidableEq α] (d : α) (m : Sparse α) (i : Nat) (v : α) : Sparse α :=
  if v = d then del m i else ins m i v

/-- Look a key up, with none where it is not listed. -/
def find {α : Type} : Sparse α → Nat → Option α
  | [], _ => none
  | (k, v) :: r, i => if i = k then some v else find r i

/-- Change every listed value; values that become the default leave the list. -/
def mapVals {α : Type} [DecidableEq α] (d : α) (f : Nat → α → α) (m : Sparse α) : Sparse α :=
  (m.map fun e => (e.1, f e.1 e.2)).filter fun e => !decide (e.2 = d)

/-- Keys strictly rising. -/
def rising {α : Type} : Sparse α → Bool
  | [] => true
  | [_] => true
  | a :: b :: r => decide (a.1 < b.1) && rising (b :: r)

/-- The canonical form: keys strictly rising and no entry equal to the default. -/
def wf {α : Type} [DecidableEq α] (d : α) (m : Sparse α) : Bool :=
  rising m && m.all fun e => !decide (e.2 = d)

end Sp

/-- Replace element i of a list. -/
def setAt {α : Type} : List α → Nat → α → List α
  | [], _, _ => []
  | _ :: r, 0, v => v :: r
  | a :: r, i + 1, v => a :: setAt r i v

/-- Replace the first element that satisfies p by its image. -/
def updFirst {α : Type} (p : α → Bool) (f : α → α) : List α → List α
  | [] => []
  | a :: r => if p a then f a :: r else a :: updFirst p f r

/-- Insert a number into a rising list without repeats. -/
def insSorted (n : Nat) : List Nat → List Nat
  | [] => [n]
  | m :: r => if n < m then n :: m :: r else if n = m then m :: r else m :: insSorted n r

/-- Put an element before the first one it may stand before. -/
def putBefore {α : Type} (le : α → α → Bool) (a : α) : List α → List α
  | [] => [a]
  | b :: r => if le a b then a :: b :: r else b :: putBefore le a r

/-- Sort by an order; elements that tie keep their places. -/
def sortBy {α : Type} (l : List α) (le : α → α → Bool) : List α := l.foldr (putBefore le) []

end Sys2Proof.Machine
end

