-- ==== Sys2Proof/Machine/Ecc.lean ====
section
/-! DEFINITION. The RS(36,32) code of every memory and the poison form (R317 to R320). -/
namespace Sys2Proof.Machine.Ecc

/-- Multiplication by α = 2 in GF(2^8) with x^8 + x^4 + x^3 + x^2 + 1 (R317). -/
def xtime (a : Nat) : Nat := if a < 128 then 2 * a else (2 * a - 256) ^^^ 0x1D

/-- Multiplication in the field, over the n low bits of b. -/
def mulLoop : Nat → Nat → Nat → Nat → Nat
  | 0, _, _, acc => acc
  | n + 1, a, b, acc => mulLoop n (xtime a) (b / 2) (if b % 2 = 1 then acc ^^^ a else acc)

/-- Multiplication in GF(2^8). -/
def mul (a b : Nat) : Nat := mulLoop 8 a b 0

/-- α^n. -/
def pow : Nat → Nat
  | 0 => 1
  | n + 1 => xtime (pow n)

/-- Square a times k: a^(2^k). -/
def sqN : Nat → Nat → Nat
  | 0, a => a
  | n + 1, a => sqN n (mul a a)

/-- The inverse a^254 of a non-zero element. -/
def inv (a : Nat) : Nat :=
  (List.range 7).foldl (fun acc k => mul acc (sqN (k + 1) a)) 1

/-- Coefficients x^3 to x^0 of the generator (x − 1)(x − α)(x − α^2)(x − α^3). -/
def gen : List Nat :=
  ((List.range 4).foldl (fun (g : List Nat) k =>
    ((g ++ [0]).zip (0 :: g)).map fun (p : Nat × Nat) => p.1 ^^^ mul (pow k) p.2) [1]).drop 1

/-- The four check symbols of 32 data symbols; symbol 0 is the highest coefficient. -/
def checks (d : List Nat) : List Nat :=
  d.foldl (fun r x =>
    let fb := x ^^^ r.getD 0 0
    ((r.drop 1 ++ [0]).zip gen).map fun (p : Nat × Nat) => p.1 ^^^ mul fb p.2) [0, 0, 0, 0]

/-- The 36 stored symbols of a sector: its code word, or the poison form of R320. -/
def stored (poisoned : Bool) (d : List Nat) : List Nat :=
  if poisoned then List.replicate 32 0 ++ [0xA5, 0x5A, 0xC3, 0x3C] else d ++ checks d

/-- Apply symbol errors (position, difference). -/
def flip (w : List Nat) (es : List (Nat × Nat)) : List Nat :=
  es.foldl (fun w e => setAt w e.1 (w.getD e.1 0 ^^^ e.2 % 256)) w

/-- In how many symbols do two words differ? -/
def distance (a b : List Nat) : Nat := ((a.zip b).filter fun p => p.1 != p.2).length

/-- Is this word a code word? -/
def isCode (w : List Nat) : Bool := checks (w.take 32) == w.drop 32

/-- Syndrome k of a word. -/
def syndrome (w : List Nat) (k : Nat) : Nat := w.foldl (fun a x => mul a (pow k) ^^^ x) 0

/-- α^35 to α^0: where the symbols of a word stand. -/
def places : List (Nat × Nat) := (List.range 36).map fun p => (p, pow (35 - p))

/-- The one error (place, difference) that gives these syndromes. -/
def find1 (s0 s1 s2 s3 : Nat) : Option (List (Nat × Nat)) :=
  (places.find? fun p => mul s0 p.2 == s1 && mul s1 p.2 == s2 && mul s2 p.2 == s3).map fun p => [(p.1, s0)]

/-- Of two errors e at a and f at b, with s0 = e + f and s1 = e a + f b, the differences. -/
def pairAt (s0 s1 : Nat) (p q : Nat × Nat) : List (Nat × Nat) :=
  let f := mul (s1 ^^^ mul p.2 s0) (inv (p.2 ^^^ q.2))
  [(p.1, s0 ^^^ f), (q.1, f)]

/-- The two errors that give these syndromes: their places are the roots of x^2 + t1 x + t2, where
s2 = t1 s1 + t2 s0 and s3 = t1 s2 + t2 s1. -/
def find2 (s0 s1 s2 s3 : Nat) : Option (List (Nat × Nat)) :=
  let d := mul s1 s1 ^^^ mul s0 s2
  if d = 0 then none
  else
    let i := inv d
    let t1 := mul i (mul s1 s2 ^^^ mul s0 s3)
    let t2 := mul i (mul s2 s2 ^^^ mul s1 s3)
    match places.filter fun p => mul (p.2 ^^^ t1) p.2 == t2 with
    | [p, q] => some (pairAt s0 s1 p q)
    | _ => none

/-- R317: the errors in one or two symbols that turn a code word into this word. -/
def errorsOf (w : List Nat) : Option (List (Nat × Nat)) :=
  let s0 := syndrome w 0
  let s1 := syndrome w 1
  let s2 := syndrome w 2
  let s3 := syndrome w 3
  (find1 s0 s1 s2 s3).or (find2 s0 s1 s2 s3)

/-- What a read of a sector delivers (R320). -/
inductive Read where
  /-- The word is a code word: its data. -/
  | clean (data : List Nat)
  /-- Within 2 symbols of a code word: the corrected data, written back. -/
  | corrected (data : List Nat)
  /-- Within 1 symbol of the poison form: poison with zero data, not counted. -/
  | poisonForm
  /-- Any other word: delivered poisoned with its data as read, stored as poison. -/
  | uncorrectable (data : List Nat)
  deriving DecidableEq, Repr

/-- R320: the decision of each read, the first case that applies. -/
def read (w : List Nat) : Read :=
  if distance w (stored true []) ≤ 1 then .poisonForm
  else if isCode w then .clean (w.take 32)
  else
    match errorsOf w with
    | some es => .corrected ((flip w es).take 32)
    | none => .uncorrectable (w.take 32)

end Sys2Proof.Machine.Ecc
end

