-- ==== Sys2Proof/Config.lean ====
section
/-! DEFINITION. The values the spec leaves open, as constants nothing can evaluate, and the outside
standards (media decoders, filters) the spec names and does not define. -/
namespace Sys2Proof.Config

/-- Offset, in units in the last place, of a result the spec bounds by 2 ulp (R157, R168, R121).
The first argument names the function, the second is the argument's bits (of a difference those of both
its terms). -/
opaque ulpOffset : Nat → Nat → Int

/-- Bytes of a cell's scratchpad that the spec leaves undefined at a piece start (R406): the counter
of the piece start, and the address. -/
opaque freeByte : Nat → Nat → Byte

/-- The data a load returns beside its poison when its target is fenced or unmapped (R297 gives the
poison and no value): draw number and address. -/
opaque lostByte : Nat → Nat → Byte

/-- Random 32-byte values the module draws: nonces and challenges (R476, R499), by draw number. -/
opaque randomWord : Nat → Nat

/-- The randomness of an ML-DSA-65 signature of the module, 32 bytes by the digest signed: FIPS 204 leaves it to the signer. -/
opaque signRandom : List Byte → List Byte

/-- The fused 256-bit device secret (R471), 32 bytes. -/
opaque deviceSecret : List Byte

/-- Ouvmund's debug public key, whose digest is fused (R476). -/
opaque debugKey : List Byte

/-- The random 32 bytes of an ML-KEM-768 encapsulation (FIPS 203), by draw number. -/
opaque kemRandom : Nat → Nat

/-- R472: the digest of Ouvmund's identity-issuing key, and the signature of that key over a 64-byte digest. -/
opaque issuerKeyId : Nat
opaque issuerSign : Nat → List Byte

/-- The TAG of an ERROR frame that answers an OPEN (R498 asks for one, and there is no session key), by draw number. -/
opaque errorTag : Nat → List Byte

/-- Is a bundle's signature valid and does every image match its digest (R459)? The layout of a
bundle's manifest is not given (R456). -/
opaque bundleAuthentic : List Byte → Bool

/-- The version a bundle's manifest gives (R456). -/
opaque bundleVersion : List Byte → Nat

/-- The security version a bundle's manifest gives (R456). -/
opaque bundleSvn : List Byte → Nat

/-- The 64-byte digest of a bundle's manifest (R474). -/
opaque bundleDigest : List Byte → Nat

/-- Where, within the error of its FP32 roundings, a value of media preparation lies (R369, R371, R373 say 'in FP32' and not the
order of the roundings): which computation, and the words it is computed from. Only values from -2^24 to 2^24 count. -/
opaque mediaOffset : Nat → List Nat → Int

/-- How far, by one at most, a sample of a JPEG block lies from the inverse transform rounded (ISO/IEC 10918-1 leaves a decoder that
much): the block's coefficients, and the place. -/
opaque idctOffset : List Int → Nat → Int

/-- The decode of an AV1 or an Opus file (R367 names the standards and does not print them): medium and bytes give the reason of
R368 or 0; of a video width, height, components, depth, kind and subsampling and its frames, of a sound rate, bits and channels. -/
opaque decoded : Nat → List Byte → Nat × List Nat × List (List Nat)

/-- Coefficients of the resampling filter (R373 step 3 gives 32 taps a phase and the passband, and no coefficients): rate in,
rate out, phase, tap. -/
opaque sincTap : Nat → Nat → Nat → Nat → F32

/-- A chroma component between its samples (R369 step 2 gives the siting and no filter): the plane's samples, its width and
height, and the place asked for, in quarters of a sample from the centre of the first. -/
opaque chromaAt : List Nat → Nat → Nat → Int → Int → F32

/-- Samples a sound of n samples has after resampling from one rate to another (R373 step 3 gives no formula). -/
opaque resampledLength : Nat → Nat → Nat → Nat

/-- The cell supply voltage that the power-management core sets for a cluster, from the clock, the
process monitor and the temperature (R511 gives no function). -/
opaque clusterVdd : Nat → Nat → Int → Nat

/-- The algorithm a FABRIC-mode plane runs for an operation, as the firmware chooses it (R353): kind, context and number of the
operation, plane; a code that Sys2Proof.Machine.algParent reads as one of the algorithms the rule names. -/
opaque fabricAlg : Nat → Nat → Nat → Nat → Nat

/-- The cause that a fence by PERST_N records: the table of R560 lists none for it. -/
opaque perstCause : Nat

/-- R524: does a glitch filter accept a level held for 50 to 150 ns? By draw number. -/
opaque glitchAccepted : Nat → Bool

/-- What a monitor reads (R510, R538), by draw number and dictionary key. -/
opaque sensor : Nat → Nat → Nat

/-- R472, R497: the serial number and the MAC address written at manufacture. -/
opaque serial : Nat
opaque macAddress : Nat

/-- The SESSION_ID that ACCEPT assigns (R498), by draw number. -/
opaque sessionId : Nat → Nat

/-- Bank and row of a memory address (R541, R545): the spec gives no map. -/
opaque bankOf : Nat → Nat
opaque rowOf : Nat → Nat

/-- The signature that a bundle gives for a logic test slice (R529). -/
opaque sliceSignature : List Byte → Nat → Nat

end Sys2Proof.Config
end

