-- ==== Sys2Proof/Machine/OdTable.lean ====
section
/-! DEFINITION. The object dictionary's keys and defaults (R484, R486). -/
namespace Sys2Proof.Machine.Od

/-- The key of entry index:sub. -/
def key (index sub : Nat) : Nat := index * 256 + sub

/-- The defaults that are not zero. -/
def defaults : List (Nat × Nat) :=
  [(key 0x5002 0, 250), (key 0x5003 0, 5), (key 0x5004 0, 1), (key 0x5008 0, 8), (key 0x5011 0, 64),
   (key 0x5012 0, 4096), (key 0x5015 0, 2), (key 0x3010 0, 4),
   (key 0x4001 0, 0x3FFFF), (key 0x4030 1, 4), (key 0x4030 2, 4), (key 0x4030 3, 1), (key 0x4050 0, 100),
   (key 0x5009 0, 0xFFFFFFFF),
   (key 0x6001 0, 40), (key 0x6002 0, 5000)] ++
  [(key 0x2104 2, 9000), (key 0x2110 0, 95), (key 0x2200 1, 1800), (key 0x2201 0, 1800), (key 0x2300 0, 1),
   (key 0x3022 0, 95), (key 0x3040 0, 8), (key 0x100A 0, 60)] ++
  [(key 0x1001 0, 0x1F4B), (key 0x1001 1, 0x4400), (key 0x3041 0, 4), (key 0x7002 0, 40), (key 0x7004 0, 1)] ++
  ((List.range 48).flatMap fun p => [(key 0x4011 (p + 1), 1), (key 0x4012 (p + 1), 0xFF)])

/-- The default of an entry. -/
def dflt (k : Nat) : Nat := Sp.get 0 defaults k

end Sys2Proof.Machine.Od
end

