-- ==== Sys2Proof/Machine/Flags.lean ====
section
/-! DEFINITION. The arithmetic flag word of R94 and the numeric control of R71. -/
namespace Sys2Proof.Machine

namespace Flag
/-- R94 bit 0. -/
def invalid : Flags := 0x01
/-- R94 bit 1. -/
def divZero : Flags := 0x02
/-- R94 bit 2. -/
def overflow : Flags := 0x04
/-- R94 bit 3. -/
def underflow : Flags := 0x08
/-- R94 bit 4. -/
def inexact : Flags := 0x10
/-- R94 bit 5. -/
def saturation : Flags := 0x20
/-- R94 bit 6. -/
def poisonSeen : Flags := 0x40
/-- R94 bit 7. -/
def longChain : Flags := 0x80
end Flag

/-- The flag when the condition holds, else no flag. -/
def Flags.when (c : Bool) (f : Flags) : Flags := if c then f else 0

/-- R71 ROUND. -/
inductive Round where
  | rne
  | rtz
  | sr
  deriving DecidableEq, Repr

/-- R71 ACC. -/
inductive Acc where
  | plain
  | lined
  | int32
  deriving DecidableEq, Repr

/-- The NUMCTL field of R71, decoded. -/
structure Numctl where
  ftz : Bool
  sat : Bool
  round : Round
  acc : Acc
  deriving DecidableEq, Repr

/-- R71 and R72: NUMCTL with a reserved ROUND, ACC or RSV field does not decode. -/
def Numctl.ofNat (w : Nat) : Option Numctl :=
  if fld w 7 6 ≠ 0 then none
  else
    let mk (r : Round) (a : Acc) : Numctl := { ftz := bit w 5, sat := bit w 4, round := r, acc := a }
    let withRound (r : Round) : Option Numctl :=
      match fld w 1 0 with
      | 0 => some (mk r .plain)
      | 1 => some (mk r .lined)
      | 2 => some (mk r .int32)
      | _ => none
    match fld w 3 2 with
    | 0 => withRound .rne
    | 1 => withRound .rtz
    | 2 => withRound .sr
    | _ => none

/-- Round to nearest even with every option off: the default control. -/
def Numctl.plainRne : Numctl := { ftz := false, sat := false, round := .rne, acc := .plain }

/-- R74: the 16-bit random draw of an element. -/
def srBits (seed idx : Nat) : Nat :=
  let m := 2 ^ 64
  let z := (idx + seed * 0x9E3779B97F4A7C15) % m
  let z := ((z ^^^ (z >>> 30)) * 0xBF58476D1CE4E5B9) % m
  let z := ((z ^^^ (z >>> 27)) * 0x94D049BB133111EB) % m
  let z := z ^^^ (z >>> 31)
  z % 2 ^ 16

end Sys2Proof.Machine
end

