-- ==== Sys2Proof/Machine/Float.lean ====
section
/-! DEFINITION. The eight number formats, their exact values, rounding and conversion (R67 to R78). -/
namespace Sys2Proof.Machine

/-- The formats of R67, in the order of their codes. -/
inductive Fmt where
  | fp32
  | bf16
  | fp16
  | e4m3
  | e5m2
  | mxfp6
  | mxfp4
  | int8
  deriving DecidableEq, Repr

namespace Fmt

/-- R67: codes 0x8 to 0xF are reserved. -/
def ofCode : Nat → Option Fmt
  | 0 => some fp32
  | 1 => some bf16
  | 2 => some fp16
  | 3 => some e4m3
  | 4 => some e5m2
  | 5 => some mxfp6
  | 6 => some mxfp4
  | 7 => some int8
  | _ => none

/-- R68: the two block formats. -/
def isMx : Fmt → Bool
  | mxfp6 | mxfp4 => true
  | _ => false

/-- Element size in bytes; 1 stands for the block formats, whose addresses count bytes of blocks. -/
def bytes : Fmt → Nat
  | fp32 => 4
  | bf16 | fp16 => 2
  | _ => 1

/-- Bytes of one 32-element block (R68). -/
def blockBytes : Fmt → Nat
  | mxfp6 => 24
  | mxfp4 => 16
  | f => 32 * f.bytes

/-- Bits of one element. -/
def bits : Fmt → Nat
  | fp32 => 32
  | bf16 | fp16 => 16
  | mxfp6 => 6
  | mxfp4 => 4
  | _ => 8

/-- R67: exponent bits. -/
def expBits : Fmt → Nat
  | fp32 | bf16 => 8
  | fp16 | e5m2 => 5
  | e4m3 => 4
  | mxfp6 => 3
  | mxfp4 => 2
  | int8 => 0

/-- R67: fraction bits. -/
def fracBits : Fmt → Nat
  | fp32 => 23
  | bf16 => 7
  | fp16 => 10
  | e4m3 => 3
  | e5m2 | mxfp6 => 2
  | mxfp4 => 1
  | int8 => 0

/-- R67: exponent bias. -/
def bias : Fmt → Nat
  | fp32 | bf16 => 127
  | fp16 | e5m2 => 15
  | e4m3 => 7
  | mxfp6 => 3
  | mxfp4 => 1
  | int8 => 0

/-- Exponent of the smallest normal. -/
def emin (f : Fmt) : Int := 1 - (f.bias : Int)

/-- R67: the largest finite value as fraction integer and exponent, m × 2^e. -/
def maxFinite : Fmt → Nat × Int
  | fp32 => (2 ^ 24 - 1, 104)
  | bf16 => (2 ^ 8 - 1, 120)
  | fp16 => (2 ^ 11 - 1, 5)
  | e4m3 => (14, 5)
  | e5m2 => (7, 13)
  | mxfp6 => (7, 2)
  | mxfp4 => (3, 1)
  | int8 => (127, 0)

/-- The bits of the largest finite magnitude. -/
def maxFiniteBits : Fmt → Nat
  | fp32 => 0x7F7FFFFF
  | bf16 => 0x7F7F
  | fp16 => 0x7BFF
  | e4m3 => 0x7E
  | e5m2 => 0x7B
  | mxfp6 => 0x1F
  | mxfp4 => 0x7
  | int8 => 127

/-- The bits of positive infinity, for the formats that have it. -/
def infBits : Fmt → Nat
  | fp32 => 0x7F800000
  | bf16 => 0x7F80
  | fp16 => 0x7C00
  | e5m2 => 0x7C
  | _ => 0

/-- R69: the canonical quiet NaN. -/
def nanBits : Fmt → Nat
  | fp32 => 0x7FC00000
  | bf16 => 0x7FC0
  | fp16 => 0x7E00
  | e4m3 => 0x7F
  | e5m2 => 0x7E
  | _ => 0

/-- Does the format hold an infinity (R67)? -/
def hasInf : Fmt → Bool
  | fp32 | bf16 | fp16 | e5m2 => true
  | _ => false

end Fmt

/-- An exact value: a NaN with its sign, an infinity, or (−1)^neg × m × 2^e. -/
inductive Val where
  | nan (neg : Bool)
  | inf (neg : Bool)
  | fin (neg : Bool) (m : Nat) (e : Int)
  deriving DecidableEq, Repr

namespace Val

/-- Positive zero. -/
def zero : Val := .fin false 0 0

/-- The value of an integer. -/
def ofInt (n : Int) : Val := .fin (decide (n < 0)) n.natAbs 0

/-- Is this a NaN? -/
def isNan : Val → Bool
  | nan _ => true
  | _ => false

/-- Is this an infinity? -/
def isInf : Val → Bool
  | inf _ => true
  | _ => false

/-- Is this a zero of either sign? -/
def isZero : Val → Bool
  | fin _ 0 _ => true
  | _ => false

/-- The sign bit. -/
def neg : Val → Bool
  | nan s | inf s | fin s _ _ => s

/-- The value with its sign inverted. -/
def negate : Val → Val
  | nan s => nan !s
  | inf s => inf !s
  | fin s m e => fin (!s) m e

/-- The magnitude. -/
def abs : Val → Val
  | nan _ => nan false
  | inf _ => inf false
  | fin _ m e => fin false m e

/-- The signed integer of a finite value counted in units of 2^e0, for e0 at most its exponent. -/
def scaled (e0 : Int) : Val → Int
  | fin s m e => let n : Int := (m : Int) * 2 ^ (e - e0).toNat; if s then -n else n
  | _ => 0

/-- The exponent of a finite value's lowest bit. -/
def lsb : Val → Int
  | fin _ _ e => e
  | _ => 0

/-- Exact comparison of two values that are not NaN. -/
def lt (a b : Val) : Bool :=
  match a, b with
  | inf s, inf t => s && !t
  | inf s, _ => s
  | _, inf t => !t
  | _, _ => let e0 := min a.lsb b.lsb; decide (a.scaled e0 < b.scaled e0)

/-- Exact equality of value (the zeros are equal; a NaN equals nothing). -/
def eq (a b : Val) : Bool := !a.isNan && !b.isNan && !lt a b && !lt b a

/-- Exact sum with the flag of a NaN made from infinities (R81, R169). -/
def add (a b : Val) : Val × Flags :=
  match a, b with
  | nan _, _ | _, nan _ => (.nan false, 0)
  | inf s, inf t => if s = t then (.inf s, 0) else (.nan false, Flag.invalid)
  | inf s, _ => (.inf s, 0)
  | _, inf t => (.inf t, 0)
  | fin s m e, fin t n f =>
    if m = 0 ∧ n = 0 then (.fin (s && t) 0 0, 0)
    else
      let e0 := min e f
      let z := (fin s m e).scaled e0 + (fin t n f).scaled e0
      (.fin (decide (z < 0)) z.natAbs e0, 0)

/-- Exact product; zero times infinity is NaN and raises INVALID (R81). -/
def mul (a b : Val) : Val × Flags :=
  match a, b with
  | nan _, _ | _, nan _ => (.nan false, 0)
  | inf s, _ => if b.isZero then (.nan false, Flag.invalid) else (.inf (s != b.neg), 0)
  | _, inf t => if a.isZero then (.nan false, Flag.invalid) else (.inf (a.neg != t), 0)
  | fin s m e, fin t n f => (.fin (s != t) (m * n) (e + f), 0)

end Val

/-- The exact value of a format's bits (R67); the block formats give their element's value. -/
def decodeFmt (f : Fmt) (w : Nat) : Val :=
  match f with
  | .int8 => Val.ofInt (sfld w 7 0)
  | _ =>
    let s := bit w (f.bits - 1)
    let eb := f.expBits
    let fb := f.fracBits
    let x := fld w (f.bits - 2) fb
    let m := w % 2 ^ fb
    let top := 2 ^ eb - 1
    if f.hasInf && x == top then (if m = 0 then .inf s else .nan s)
    else if f = .e4m3 && w % 128 == 0x7F then .nan s
    else if x = 0 then .fin s m (f.emin - fb)
    else .fin s (m + 2 ^ fb) ((x : Int) - f.bias - fb)

/-- R70: is the value of these bits a subnormal that flush-to-zero reads as zero? -/
def isSubnormalBits (f : Fmt) (w : Nat) : Bool :=
  match f with
  | .mxfp6 | .mxfp4 | .int8 => false
  | _ => fld w (f.bits - 2) f.fracBits == 0 && w % 2 ^ f.fracBits != 0

/-- R70: an operand as it is read under flush-to-zero, and the flag of a flush. -/
def readFmt (ftz : Bool) (f : Fmt) (w : Nat) : Val × Flags :=
  if ftz && isSubnormalBits f w then (.fin (bit w (f.bits - 1)) 0 0, Flag.underflow)
  else (decodeFmt f w, 0)

/-- Round m × 2^e to a multiple of 2^q (R73, R74): the multiple and whether it is inexact. -/
def roundTo (mode : Round) (draw : Nat) (m : Nat) (e q : Int) : Nat × Bool :=
  if q ≤ e then (m * 2 ^ (e - q).toNat, false)
  else
    let sh := (q - e).toNat
    let k := m >>> sh
    let rem := m % 2 ^ sh
    if rem = 0 then (k, false)
    else
      let up : Bool :=
        match mode with
        | .rtz => false
        | .rne => decide (2 ^ sh < 2 * rem) || (decide (2 * rem = 2 ^ sh) && k % 2 == 1)
        | .sr =>
          let d := if 16 ≤ sh then rem >>> (sh - 16) else rem * 2 ^ (16 - sh)
          decide (2 ^ 16 ≤ d + draw)
      (if up then k + 1 else k, true)

/-- Is m × 2^e below n × 2^f? -/
def magLt (m : Nat) (e : Int) (n : Nat) (f : Int) : Bool :=
  let e0 := min e f
  decide (m * 2 ^ (e - e0).toNat < n * 2 ^ (f - e0).toNat)

/-- The bits of a rounded magnitude k × 2^q within the format's range. -/
def packMag (f : Fmt) (k : Nat) (q : Int) : Nat :=
  if k = 0 then 0
  else
    let fb := f.fracBits
    -- bring k to fb + 1 significant bits, or leave it subnormal at the lowest exponent
    let e := (Nat.log2 k : Int) + q
    if e < f.emin then k * 2 ^ (q - (f.emin - fb)).toNat
    else
      let k' := if q ≤ e - fb then k >>> ((e - fb) - q).toNat else k * 2 ^ (q - (e - fb)).toNat
      ((e + f.bias).toNat) * 2 ^ fb + (k' - 2 ^ fb)

/-- R75 to R77 for one element of a floating format: the bits and the flags. The block formats use
this for their elements, with saturation and no flag of its own (R77 step 4). -/
def roundFloat (f : Fmt) (c : Numctl) (draw : Nat) (neg : Bool) (m : Nat) (e : Int) : Nat × Flags :=
  let sign := if neg then 2 ^ (f.bits - 1) else 0
  if m = 0 then (sign, 0)
  else
    let fb := f.fracBits
    let top := (Nat.log2 m : Int) + e
    let q := max (top - fb) (f.emin - fb)
    let (k, inex) := roundTo c.round draw m e q
    let (mx, me) := f.maxFinite
    if magLt mx me k q then
      -- R76: finite overflow
      if c.sat then (sign + f.maxFiniteBits, Flag.overflow ||| Flag.saturation ||| Flag.inexact)
      else if f = .e4m3 then (sign + f.nanBits, Flag.overflow ||| Flag.invalid)
      else if c.round = .rtz then (sign + f.maxFiniteBits, Flag.overflow ||| Flag.inexact)
      else (sign + f.infBits, Flag.overflow ||| Flag.inexact)
    else
      let sub := magLt k q 1 f.emin
      let tiny := magLt m e 1 f.emin
      if c.ftz && sub then (sign, Flag.underflow ||| Flag.inexact)
      else
        (sign + packMag f k q,
          Flags.when inex Flag.inexact ||| Flags.when (inex && tiny) Flag.underflow)

/-- R76: conversion to INT8. -/
def convInt8 (c : Numctl) (draw : Nat) : Val → Nat × Flags
  | .nan _ => (0, Flag.invalid)
  | .inf s => (if s then 0x80 else 0x7F, Flag.invalid ||| Flag.saturation)
  | .fin s m e =>
    let (k, inex) := roundTo c.round draw m e 0
    if s then
      if 128 < k then (0x80, Flag.saturation ||| Flag.inexact)
      else ((256 - k) % 256, Flags.when inex Flag.inexact)
    else if 127 < k then (0x7F, Flag.saturation ||| Flag.inexact)
    else (k, Flags.when inex Flag.inexact)

/-- R75, R76: conversion of a value to a format that is not a block format. DESIGN CHOICE (log 112): SR of NUMCTL acts on
every conversion whose result is inexact (R73 does not define narrowing). -/
def convert (f : Fmt) (c : Numctl) (draw : Nat) (v : Val) : Nat × Flags :=
  match f with
  | .int8 => convInt8 c draw v
  | _ =>
    let sign (s : Bool) := if s then 2 ^ (f.bits - 1) else 0
    match v with
    | .nan s => (sign s + f.nanBits, 0)
    | .inf s =>
      if f = .e4m3 then
        if c.sat then (sign s + f.maxFiniteBits, Flag.saturation) else (sign s + f.nanBits, Flag.invalid)
      else (sign s + f.infBits, 0)
    | .fin s m e => roundFloat f c draw s m e

/-- Round to FP32, ties to even (rn32 of R83), with the flags of R76. -/
def rn32 (v : Val) : F32 × Flags :=
  let r := convert .fp32 Numctl.plainRne 0 v
  (BitVec.ofNat 32 r.1, r.2)

/-- The exact value of FP32 bits. -/
def val32 (x : F32) : Val := decodeFmt .fp32 x.toNat

/-- One block of R68 read as exact values: element bits and scale byte. -/
def mxElem (f : Fmt) (bits scale : Nat) : Val :=
  if scale = 0xFF then .nan false
  else
    match decodeFmt f bits with
    | .fin s m e => .fin s m (e + (scale : Int) - 127)
    | v => v

/-- The exponent of the highest bit of a finite non-zero value. -/
def Val.top : Val → Int
  | .fin _ m e => (Nat.log2 m : Int) + e
  | _ => 0

/-- The larger of two magnitudes, both finite. -/
def maxMag (a b : Val) : Val := if Val.lt a.abs b.abs then b.abs else a.abs

/-- R77: one block of 32 values, each with its stochastic draw: scale byte, element bits and flags. -/
def mxBlock (f : Fmt) (c : Numctl) (vs : List (Val × Nat)) : Nat × List Nat × Flags :=
  if vs.any fun v => v.1.isNan || v.1.isInf then
    (0xFF, vs.map fun _ => 0, Flags.when (vs.any fun v => v.1.isInf) Flag.invalid)
  else
    let amax := vs.foldl (fun a v => maxMag a v.1) Val.zero
    if amax.isZero then (0, vs.map fun _ => 0, 0)
    else
      let emax : Int := if f = .mxfp6 then 4 else 2
      let x0 := amax.top - emax
      let x := max (-127) (min 127 x0)
      let elems := vs.map fun v =>
        match v.1 with
        | .fin s m e =>
          let r := roundFloat f { c with sat := true, ftz := false } v.2 s m (e - x)
          -- R77 step 4: the clamp adds no flag of its own
          (r.1, r.2 &&& (Flag.inexact ||| Flag.underflow))
        | _ => (0, 0)
      ((x + 127).toNat, elems.map (·.1),
        elems.foldl (fun a e => a ||| e.2) (Flags.when (decide (127 < x0)) Flag.saturation))

end Sys2Proof.Machine
end

