-- ==== Sys2Proof/Machine/Arith.lean ====
section
/-! DEFINITION. FP32 operations: correctly rounded arithmetic, and the functions the spec bounds by two
units in the last place (R156, R157, R168, R169). -/
namespace Sys2Proof.Machine

/-- The quiet NaN of FP32 (R69). -/
def qnan : F32 := 0x7FC00000

/-- Is this FP32 value a NaN? -/
def isNan32 (x : F32) : Bool := (val32 x).isNan

/-- Round a sum, product or other exact value, joining its flags. -/
def rnWith (v : Val × Flags) : F32 × Flags := let r := rn32 v.1; (r.1, v.2 ||| r.2)

/-- a + b in FP32. -/
def fadd (a b : F32) : F32 × Flags := rnWith (Val.add (val32 a) (val32 b))

/-- a − b in FP32. -/
def fsub (a b : F32) : F32 × Flags := rnWith (Val.add (val32 a) (val32 b).negate)

/-- a × b in FP32. -/
def fmul (a b : F32) : F32 × Flags := rnWith (Val.mul (val32 a) (val32 b))

/-- a × b + c with one rounding; a NaN among the three gives NaN and no flag (R69, R169). -/
def ffma (a b c : F32) : F32 × Flags :=
  if isNan32 a || isNan32 b || isNan32 c then (qnan, 0) else
  let p := Val.mul (val32 a) (val32 b)
  let s := Val.add p.1 (val32 c)
  rnWith (s.1, p.2 ||| s.2)

/-- The quotient of two finite magnitudes with 64 bits beyond any format, the remainder folded into
the lowest bit. -/
def quotMag (m : Nat) (e : Int) (n : Nat) (f : Int) : Nat × Int :=
  let k := 128 + Nat.log2 n
  let q := (m * 2 ^ k) / n
  let r := (m * 2 ^ k) % n
  (2 * q + (if r = 0 then 0 else 1), e - f - k - 1)

/-- The exact quotient (folded as above), with the special values and flags of R169. -/
def Val.div (a b : Val) : Val × Flags :=
  match a, b with
  | .nan _, _ | _, .nan _ => (.nan false, 0)
  | .inf _, .inf _ => (.nan false, Flag.invalid)
  | .inf s, .fin t n _ => (.inf (s != t), if n = 0 then Flag.divZero else 0)
  | _, .inf t => (.fin (a.neg != t) 0 0, 0)
  | .fin s m e, .fin t n f =>
    if n = 0 then (if m = 0 then (.nan false, Flag.invalid) else (.inf (s != t), Flag.divZero))
    else if m = 0 then (.fin (s != t) 0 0, 0)
    else let q := quotMag m e n f; (.fin (s != t) q.1 q.2, 0)

/-- a ÷ b in FP32. -/
def fdiv (a b : F32) : F32 × Flags := rnWith (Val.div (val32 a) (val32 b))

/-- Integer square root, bit by bit from bit i downward. -/
def isqrtLoop (n : Nat) : Nat → Nat → Nat
  | 0, r => r
  | i + 1, r => let r' := r + 2 ^ i; isqrtLoop n i (if r' * r' ≤ n then r' else r)

/-- Integer square root of n. -/
def isqrt (n : Nat) : Nat := isqrtLoop n (Nat.log2 n / 2 + 1) 0

/-- The square root of a magnitude, the remainder folded into the lowest bit. -/
def sqrtMag (m : Nat) (e : Int) : Nat × Int :=
  let k : Nat := if (e % 2) = 0 then 256 else 257
  let n := m * 2 ^ k
  let s := isqrt n
  (2 * s + (if s * s = n then 0 else 1), (e - k) / 2 - 1)

/-- The square root in FP32 (R169). -/
def fsqrt (a : F32) : F32 × Flags :=
  match val32 a with
  | .nan _ => (qnan, 0)
  | .inf false => (0x7F800000, 0)
  | .inf true => (qnan, Flag.invalid)
  | .fin s m e =>
    if m = 0 then (a, 0)
    else if s then (qnan, Flag.invalid)
    else let r := sqrtMag m e; rn32 (.fin false r.1 r.2)

/-- The larger value, NaN if either is NaN (R156, R168); of two zeros the positive one. -/
def fmax (a b : F32) : F32 :=
  if isNan32 a || isNan32 b then qnan
  else if Val.lt (val32 a) (val32 b) then b
  else if Val.lt (val32 b) (val32 a) then a
  else if (val32 a).neg then b else a

/-- The smaller value, NaN if either is NaN; of two zeros the negative one. -/
def fmin (a b : F32) : F32 :=
  if isNan32 a || isNan32 b then qnan
  else if Val.lt (val32 a) (val32 b) then a
  else if Val.lt (val32 b) (val32 a) then b
  else if (val32 a).neg then a else b

/-- |a| (R168 ABS). -/
def fabs32 (a : F32) : F32 := if isNan32 a then qnan else a &&& 0x7FFFFFFF

/-- −a (R168 NEG). -/
def fneg (a : F32) : F32 := if isNan32 a then qnan else a ^^^ 0x80000000

/-- max(a, +0), −0 giving +0 (R156, R168 RELU). -/
def frelu (a : F32) : F32 :=
  if isNan32 a then qnan else if (val32 a).neg then 0 else a

/-- −1, −0, +0 or +1 by the sign of a; NaN stays NaN (R168 SIGN). -/
def fsign (a : F32) : F32 :=
  if isNan32 a then qnan
  else if (val32 a).isZero then a
  else if (val32 a).neg then 0xBF800000 else 0x3F800000

/-- R174's sign: 0 for either zero. -/
def fsign0 (a : F32) : F32 := if (val32 a).isZero then 0 else fsign a

/-! The functions bounded by two units in the last place. Values are held in fixed point with
`fixP` fractional bits while the exact function is approached. -/

/-- Fractional bits of the fixed-point approximations. -/
def fixP : Nat := 256

/-- ln 2 × 2^256, rounded down. -/
def ln2Fix : Int := 0xB17217F7D1CF79ABC9E3B39803F2F6AF40F343267298B62D8A0D175B8BAAFA2B

/-- A finite value in fixed point, rounded toward minus infinity, its magnitude capped at 400. -/
def toFix (v : Val) : Int :=
  match v with
  | .fin s m e =>
    let cap : Nat := 400 * 2 ^ fixP
    let k : Int := e + fixP
    let big := decide ((Nat.log2 m : Int) + e > 9)
    let n : Nat := if big then cap else if 0 ≤ k then m * 2 ^ k.toNat else m >>> (-k).toNat
    let n := min n cap
    if s then -(n : Int) else n
  | _ => 0

/-- The Taylor sum of exp r in fixed point: `n` terms more, the current term, and its index. -/
def expTaylor (r : Int) : Nat → Nat → Int → Int → Int
  | 0, _, _, acc => acc
  | n + 1, i, t, acc =>
    let t' := (t * r) / ((2 : Int) ^ fixP * (i : Int))
    expTaylor r n (i + 1) t' (acc + t')

/-- exp of a fixed-point number: mantissa m and exponent e with value m × 2^e. -/
def expFix (x : Int) : Nat × Int :=
  let k := x / ln2Fix
  let r := x - k * ln2Fix
  let one : Int := 2 ^ fixP
  ((expTaylor r 60 1 one one).toNat, k - fixP)

/-- The series 2·(z + z³/3 + z⁵/5 + …) in fixed point. -/
def atanhSum (z2 : Int) : Nat → Nat → Int → Int → Int
  | 0, _, _, acc => acc
  | n + 1, i, t, acc =>
    let t' := (t * z2) / (2 : Int) ^ fixP
    atanhSum z2 n (i + 2) t' (acc + t' / (i : Int))

/-- ln of a positive finite value, in fixed point. -/
def lnFix (m : Nat) (e : Int) : Int :=
  let t := Nat.log2 m
  let one : Int := 2 ^ fixP
  let mant : Int := (m : Int) * 2 ^ (fixP - min t fixP)
  let z := ((mant - one) * one) / (mant + one)
  let s := 2 * atanhSum ((z * z) / one) 90 3 z z
  ((t : Int) + e) * ln2Fix + s

/-- A fixed-point number as a value. -/
def ofFix (n : Int) : Val := .fin (decide (n < 0)) n.natAbs (-(fixP : Int))

/-- 1 ÷ (1 + exp(−x)) of a fixed-point number, as a positive value (R168 SIGMOID). -/
def sigmoidVal (x : Int) : Val :=
  let t := expFix (-(x.natAbs : Int))
  let tv : Val := .fin false t.1 t.2
  let d := (Val.add (Val.ofInt 1) tv).1
  (Val.div (if 0 ≤ x then Val.ofInt 1 else tv) d).1

/-- The functions of R156 and R168 that are accurate to two units in the last place. -/
inductive Fn2 where
  | exp
  | log
  | tanh
  | sigmoid
  | silu
  | geluTanh
  | rsqrt
  deriving DecidableEq, Repr

/-- The number under which a function's free choice is drawn. -/
def Fn2.code : Fn2 → Nat
  | .exp => 0
  | .log => 1
  | .tanh => 2
  | .sigmoid => 3
  | .silu => 4
  | .geluTanh => 5
  | .rsqrt => 6

/-- 2 × 0.797885 × (x + 0.044715·x³) in fixed point (R156 GELU_TANH), capped. -/
def geluArg (v : Val) : Int :=
  let x := toFix v
  let one : Int := 2 ^ fixP
  let x3 := (((x * x) / one) * x) / one
  let y := x + (x3 * 44715) / 1000000
  let u := (2 * y * 797885) / 1000000
  max (-(400 * one)) (min (400 * one) u)

/-- The exact function at a finite non-zero argument, to far more bits than FP32 holds. -/
def fn2Approx (f : Fn2) (v : Val) : Val :=
  match v with
  | .fin s m e =>
    match f with
    | .exp => let r := expFix (toFix v); .fin false r.1 r.2
    | .log => ofFix (lnFix m e)
    | .tanh =>
      -- below 2^-40 the argument itself is within 2^-80 of the result
      if v.top < -40 then v
      else
        let t := expFix (-(2 * (toFix v.abs)))
        let tv : Val := .fin true t.1 t.2
        let num := (Val.add (Val.ofInt 1) tv).1
        let den := (Val.add (Val.ofInt 1) tv.negate).1
        let q := (Val.div num den).1
        if s then q.negate else q
    | .sigmoid => sigmoidVal (toFix v)
    | .silu => (Val.mul v (sigmoidVal (toFix v))).1
    | .geluTanh => (Val.mul v (sigmoidVal (geluArg v))).1
    | .rsqrt =>
      let r := sqrtMag m e
      (Val.div (Val.ofInt 1) (.fin false r.1 r.2)).1
  | _ => v

/-- One unit in the last place of FP32 at a value: the exponent of the spacing. -/
def ulpExp (v : Val) : Int := max (v.top - 23) (-149)

/-- Step an FP32 value by k places, away from zero for positive k. -/
def stepUlp (x : F32) (k : Int) : F32 :=
  let n := ((x.toNat % 2 ^ 31 : Nat) : Int) + k
  let n' := (max 0 (min n 0x7F800000)).toNat
  BitVec.ofNat 32 ((if bit x.toNat 31 then 2 ^ 31 else 0) + n')

/-- The free result of a function bounded by two units in the last place: the configured choice where
it keeps the bound, else the correctly rounded value. DESIGN CHOICE (log 18): it raises INEXACT also where
the exact result is an FP32 value. -/
def within2 (fn key : Nat) (approx : Val) : F32 × Flags :=
  let r := rn32 approx
  let c := stepUlp r.1 (max (-2) (min 2 (Config.ulpOffset fn key)))
  let u := ulpExp approx
  let ok :=
    match val32 c with
    | .fin s m e =>
      let d := (Val.add (.fin s m e) approx.negate).1.abs
      !Val.lt (.fin false 2 u) d
    | _ => false
  (if ok then c else r.1, r.2 ||| Flag.inexact)

/-- exp(x − m) of the exact difference (R119, R121, R187), 0 for −∞; DESIGN CHOICE (log 18): exactly 1 where the
difference is zero, so that a record merges into an absent one unchanged (R119). -/
def expDiff (x m : F32) : F32 × Flags :=
  let d := Val.add (val32 x) (val32 m).negate
  match d.1 with
  | .nan _ => (qnan, d.2)
  | .inf s => (if s then 0 else 0x7F800000, 0)
  | .fin s n e =>
    if n = 0 then (0x3F800000, 0) else within2 7 (x.toNat * 2 ^ 32 + m.toNat) (fn2Approx .exp (.fin s n e))

/-- R70: an FP32 word as flush-to-zero reads or writes it: a subnormal becomes a zero of its sign. -/
def flush32 (ftz : Bool) (x : F32) (f : Flags) : F32 × Flags :=
  if ftz && isSubnormalBits .fp32 x.toNat then (x &&& 0x80000000, f) else (x, 0)

/-- R157, R168, R169: a function of one argument in FP32. -/
def fn2 (f : Fn2) (x : F32) : F32 × Flags :=
  match val32 x with
  | .nan _ => (qnan, 0)
  | .inf s =>
    match f, s with
    | .exp, true | .sigmoid, true => (0, 0)
    | .exp, false | .silu, false | .geluTanh, false | .log, false => (0x7F800000, 0)
    | .sigmoid, false | .tanh, false => (0x3F800000, 0)
    | .tanh, true => (0xBF800000, 0)
    | .silu, true | .geluTanh, true => (0x80000000, 0)
    | .log, true | .rsqrt, true => (qnan, Flag.invalid)
    | .rsqrt, false => (0, 0)
  | .fin s m e =>
    match f with
    | .log =>
      if m = 0 then (0xFF800000, Flag.divZero)
      else if s then (qnan, Flag.invalid)
      else if Val.eq (.fin s m e) (Val.ofInt 1) then (0, 0)
      else within2 f.code x.toNat (fn2Approx f (.fin s m e))
    | .rsqrt =>
      if m = 0 then (if s then 0xFF800000 else 0x7F800000, Flag.divZero)
      else if s then (qnan, Flag.invalid)
      else within2 f.code x.toNat (fn2Approx f (.fin s m e))
    | .tanh | .silu | .geluTanh =>
      if m = 0 then (x, 0) else within2 f.code x.toNat (fn2Approx f (.fin s m e))
    | .exp | .sigmoid => within2 f.code x.toNat (fn2Approx f (.fin s m e))

end Sys2Proof.Machine
end

