-- ==== Sys2Proof/Machine/Lined.lean ====
section
/-! DEFINITION. Products, column sums, the accumulators and the splits of R79 to R92. -/
namespace Sys2Proof.Machine

/-- A lined FP32 pair: value word and Lining (R83, R84). -/
structure Lined where
  v : F32
  l : F32
  deriving DecidableEq, Repr

/-- The pair of +0 and a zero Lining. -/
def Lined.zero : Lined := { v := 0, l := 0 }

/-- R84: the value v + l of a pair; a special value word stands alone. -/
def Lined.val (p : Lined) : Val :=
  match val32 p.v with
  | .fin s m e => (Val.add (.fin s m e) (val32 p.l)).1
  | w => w

/-- R79, R81: one product as a multiple of 2^-149, an infinity or a NaN. -/
def product (a b : Val) : Val × Flags :=
  match Val.mul a b with
  | (.fin s m e, f) =>
    if magLt m e 1 128 then
      if -149 ≤ e then (.fin s m e, f)
      else
        let r := roundTo .rne 0 m e (-149)
        (.fin s r.1 (-149), f ||| Flags.when r.2 (Flag.underflow ||| Flag.inexact))
    else (.inf s, f ||| Flag.overflow)
  | r => r

/-- R79 to R81: the sum of the products of one column, exact where every product is finite. -/
def columnSum (ps : List (Val × Flags)) : Val × Flags :=
  let fl := ps.foldl (fun a p => a ||| p.2) 0
  let pinf := ps.any fun p => decide (p.1 = .inf false)
  let ninf := ps.any fun p => decide (p.1 = .inf true)
  if pinf && ninf then (.nan false, fl ||| Flag.invalid)
  else if ps.any fun p => p.1.isNan then (.nan false, fl)
  else if pinf then (.inf false, fl)
  else if ninf then (.inf true, fl)
  else
    let z := ps.foldl (fun (a : Int) p => a + p.1.scaled (min p.1.lsb (-149))) 0
    (.fin (decide (z < 0)) z.natAbs (-149), fl)

/-- The flags a rounding keeps inside an accumulator step (R87): the error is lost. -/
def lostRound : Flags := Flag.inexact ||| Flag.overflow ||| Flag.invalid

/-- R83: one column sum, or any exact value, enters a lined pair. -/
def linedAdd (p : Lined) (s : Val) : Lined × Flags :=
  let hi := rn32 s
  let a := Val.add (val32 p.v) (val32 hi.1)
  let a' := rn32 a.1
  let fHi := (hi.2 ||| a.2 ||| a'.2) &&& (Flag.overflow ||| Flag.invalid)
  match val32 hi.1, val32 a'.1, a.1 with
  | .fin hs hm he, .fin as am ae, .fin xs xm xe =>
    let lo := rn32 (Val.add s (Val.fin hs hm he).negate).1
    let t := (Val.add (.fin xs xm xe) (Val.fin as am ae).negate).1
    let i := rn32 (Val.add t (val32 lo.1)).1
    let l := fadd p.l i.1
    ({ v := a'.1, l := l.1 }, fHi ||| ((lo.2 ||| i.2 ||| l.2) &&& lostRound))
  | _, _, _ => ({ v := a'.1, l := 0 }, fHi)

/-- R85: one column sum enters a plain FP32 word, rounded once; the error is lost (R87, R94). -/
def plainAdd (v : F32) (s : Val) : F32 × Flags :=
  let a := Val.add (val32 v) s
  let r := rn32 a.1
  (r.1, (a.2 ||| r.2) &&& lostRound)

/-- R85: an exact integer column sum enters an INT32 word, saturating. -/
def int32Add (v s : Int) : Int × Flags :=
  let r := v + s
  if 2 ^ 31 - 1 < r then (2 ^ 31 - 1, Flag.saturation)
  else if r < -(2 ^ 31) then (-(2 ^ 31), Flag.saturation)
  else (r, 0)

/-- R90: v := rn32(v + l), l := 0, with LONG_CHAIN. -/
def foldPair (p : Lined) : Lined × Flags :=
  let r := rn32 p.val
  ({ v := r.1, l := 0 }, (r.2 &&& lostRound) ||| Flag.longChain)

/-- R90: does a pass on an entry whose chain count is n fold the entry first? -/
def foldsAt (n : Nat) : Bool := decide (0 < n ∧ n % 2 ^ 24 = 0)

/-- Round to BF16, ties to even; with sat a result beyond the largest finite takes that value. -/
def rnBf16 (sat : Bool) (v : Val) : Val :=
  decodeFmt .bf16 (convert .bf16 { Numctl.plainRne with sat := sat } 0 v).1

/-- R91, R92: the three parts of an FP32 operand, and the flags of rounding the third. -/
def split3 (x : Val) : Val × Val × Val × Flags :=
  match x with
  | .fin s m e =>
    let x := Val.fin s m e
    let x1 := rnBf16 true x
    let r1 := (Val.add x x1.negate).1
    let x2 := rnBf16 false r1
    let r2 := (Val.add r1 x2.negate).1
    let x3 := rnBf16 false r2
    (x1, x2, x3, Flags.when (!Val.eq x3 r2) (Flag.underflow ||| Flag.inexact))
  | w => (w, Val.zero, Val.zero, 0)

/-- The parts of one operand by number 0, 1, 2. -/
def Split.part (p : Val × Val × Val × Flags) : Nat → Val
  | 0 => p.1
  | 1 => p.2.1
  | _ => p.2.2.1

/-- R91, R101: the passes of a step, as pairs of part numbers of A and B; 3 stands for an unsplit
operand. -/
def splitPasses (a b : Fmt) : List (Nat × Nat) :=
  if a = .fp32 ∧ b = .fp32 then [(0, 0), (0, 1), (1, 0), (0, 2), (1, 1), (2, 0)]
  else if a = .fp32 then [(0, 3), (1, 3), (2, 3)]
  else if b = .fp32 then [(3, 0), (3, 1), (3, 2)]
  else [(3, 3)]

/-- The value of one operand in one pass. -/
def partOf (x : Val) (k : Nat) : Val :=
  if k = 3 then x else Split.part (split3 x) k

/-- R81, R91: the product of one pair of operands in pass number i (i = 0 the first). A product with
an infinite or NaN operand is formed whole in the first pass and is +0 in the others. -/
def passProduct (i : Nat) (ks : Nat × Nat) (a b : Val) : Val × Flags :=
  let special := a.isNan || a.isInf || b.isNan || b.isInf
  if special && ks != (3, 3) then (if i = 0 then product a b else (Val.zero, 0))
  else product (partOf a ks.1) (partOf b ks.2)

/-- R121, R172: lined addition of a list of values to a pair. -/
def linedSum (p : Lined) (vs : List Val) : Lined × Flags :=
  vs.foldl (fun a v => let r := linedAdd a.1 v; (r.1, a.2 ||| r.2)) (p, 0)

/-- R84: a pair as 8 bytes. -/
def Lined.toBytes (p : Lined) : List Byte := leBytes 4 p.v.toNat ++ leBytes 4 p.l.toNat

/-- R84: a pair read from 8 bytes. -/
def Lined.ofBytes (b : List Byte) : Lined :=
  { v := BitVec.ofNat 32 (leNat (b.take 4)), l := BitVec.ofNat 32 (leNat ((b.drop 4).take 4)) }

end Sys2Proof.Machine
end

