-- ==== Sys2Proof/Machine/State.lean ====
section
/-! DEFINITION. The state of the module, as plain data, and its value after reset. -/
namespace Sys2Proof.Machine

/-- Why the machine stops: a command names a unit the module does not have. Raised by the check each
command makes of its unit number, before anything changes. Safe: no claim about a next state is made. -/
inductive Fault where
  /-- Raised by commands that name a logical cell above 8,191 (R2). Safe: the machine stops. -/
  | noSuchCell (n : Nat)
  /-- Raised by commands that name a cluster above 127 (R2). Safe: the machine stops. -/
  | noSuchCluster (n : Nat)
  /-- Raised by commands that name a port above 47 (R2). Safe: the machine stops. -/
  | noSuchPort (n : Nat)
  /-- Raised by commands that name a receptacle above 3 (R10). Safe: the machine stops. -/
  | noSuchReceptacle (n : Nat)
  /-- Raised by commands that name a stack above 11 (R2). Safe: the machine stops. -/
  | noSuchStack (n : Nat)
  /-- Raised by commands that name a Tannery stream above 63 (R363). Safe: the machine stops. -/
  | noSuchStream (n : Nat)
  /-- Raised by commands that name a sync object above 131,071 (R55). Safe: the machine stops. -/
  | noSuchObject (n : Nat)
  /-- Raised by commands that name a context above 1,023 (R400). Safe: the machine stops. -/
  | noSuchContext (n : Nat)
  deriving DecidableEq, Repr

/-- Why a command has no meaning. -/
inductive Refusal where
  /-- Raised by a dispatch arm whose command has no meaning yet. Safe: the machine stops. -/
  | notModelled (mnemonic : String)
  deriving DecidableEq, Repr

/-! ## The cell -/

/-- How far a handed-out descriptor has come. -/
inductive Stage where
  /-- In its unit's queue. -/
  | queued
  /-- A matrix descriptor whose preload has been written (R112). -/
  | preloaded
  /-- A stream descriptor that issues transfers. -/
  | running
  /-- Waits on a sync object. -/
  | waiting
  /-- A matrix descriptor whose tile is in the drain queue (R113). -/
  | draining
  /-- All its work is finished; it has not retired yet. -/
  | done
  /-- A persistent stream that has retired and stays armed (R288). -/
  | armed
  deriving DecidableEq, Repr

/-- A handed-out descriptor (R159). -/
structure Item where
  /-- First list slot. -/
  slot : Nat
  /-- The descriptor's bits after patching (R137); of a REARM, the MOVE it makes (R289). -/
  word : Nat
  rearm : Bool
  stage : Stage
  /-- Stream descriptors: transfers issued so far (R276). -/
  issued : Nat
  /-- Stream descriptors: transfers landed so far. -/
  landed : Nat
  /-- The home node's answer to a wait: the state word at release (R57). -/
  reply : Option Nat
  deriving DecidableEq, Repr

/-- R549: what a request of a cell carries: its cluster, the cluster's generation, the cell's. -/
structure ReqGen where
  block : Nat
  gen : Nat
  cellGen : Nat
  deriving DecidableEq, Repr

/-- An outstanding transfer of a stream engine (R276). -/
structure Xfer where
  id : Nat
  /-- The piece that issued it (R291). -/
  piece : Nat
  queue : Nat
  /-- First list slot of its descriptor. -/
  slot : Nat
  /-- Does it end in another place than the issuing cell's scratchpad? -/
  store : Bool
  /-- What it writes: first address of each run, bytes, poison. -/
  writes : List (Nat × List Byte × Bool)
  /-- The runs that it reads (R310), and whether one missed in a cache partition (R312). -/
  loads : List (Nat × Nat)
  miss : Bool
  /-- What serves its load, where that may be fenced: another cell, or 8192 + b for the Harness node of cluster b (R301). -/
  server : Option Nat
  /-- The other cell whose scratchpad it stores to. -/
  target : Option Nat
  /-- The generation, at issue, of the block that answers it (R549). -/
  gen : Nat
  /-- The generations its cell sent it under (R549). -/
  own : ReqGen
  /-- Completed by a fence of its server; its reply is still to come (R550). -/
  dropped : Bool
  deriving DecidableEq, Repr

/-- One accumulator entry (R83, R85): words and poison bit. -/
structure AccEntry where
  p : Lined
  poison : Bool
  deriving DecidableEq, Repr

/-- R106: a span that is not FREE. -/
inductive Span where
  | opened
  | draining
  deriving DecidableEq, Repr

/-- R228: where a gradient tile is held for (R233). -/
inductive Home where
  | output
  | welt
  | slm
  deriving DecidableEq, Repr

/-- A tile in the accumulator file (R105). Entries of the in-bounds positions, row-major. -/
structure Tile where
  group : Nat
  groups : Nat
  m : Nat
  n : Nat
  acc : Acc
  /-- R88: the chain count. -/
  chain : Nat
  span : Span
  /-- The descriptor that drains it (first list slot), and its bits. -/
  slot : Nat
  word : Nat
  /-- Its context. -/
  ctx : Nat
  /-- The piece it belongs to; 0 once that piece has committed (R239). -/
  piece : Nat
  home : Home
  /-- Address of the gradient home of element (0, 0), and pairs between rows (R224); SLM homes. -/
  target : Nat
  pitch : Nat
  entries : List AccEntry
  /-- Sectors of its span stored in the poison form (R319). -/
  bad : List Nat
  deriving DecidableEq, Repr

/-- A staged addition to the Welt (R233): list slot of its descriptor, pair index and value. -/
structure WeltAdd where
  slot : Nat
  idx : Nat
  val : Lined
  poison : Bool
  deriving DecidableEq, Repr

/-- Four lined sums of a layer tag (R252): of weights, gradients and updates, and a poison mark. -/
structure NormAdd where
  tag : Nat
  w2 : Lined
  g2 : Lined
  u2 : Lined
  poison : Bool
  deriving DecidableEq, Repr

/-- A staged Harness change (R43, R57): object, operation code and operand. -/
structure SyncChange where
  obj : Nat
  op : Nat
  operand : Nat
  deriving DecidableEq, Repr

/-- What a piece stages until its commit (R43). -/
structure Staged where
  welt : List WeltAdd
  norms : List NormAdd
  flags : Flags
  ops : List SyncChange
  deriving DecidableEq, Repr

/-- Nothing staged. -/
def Staged.empty : Staged := { welt := [], norms := [], flags := 0, ops := [] }

/-- Where a grid piece stands with its lease (R141). -/
inductive CommitPhase where
  | running
  /-- COMMIT sent, not answered. -/
  | sent
  /-- The home node's answer is on its way. -/
  | answered (accept : Bool)
  /-- The answer accept has arrived. -/
  | accepted
  deriving DecidableEq, Repr

/-- The lease a grid piece holds: tile counter, index, generation (R139). -/
structure LeaseRef where
  obj : Nat
  idx : Nat
  gen : Nat
  deriving DecidableEq, Repr

/-- The piece a cell holds. -/
structure Piece where
  /-- Serial number of the start, at least 1; names the piece to its transfers (R291). -/
  seq : Nat
  /-- The command it belongs to, by command number. -/
  cmd : Nat
  /-- Its place in the command's table. -/
  no : Nat
  /-- The piece descriptor (R123). -/
  desc : Nat
  lease : Option LeaseRef
  /-- The slots of the list fetched so far (R123), as they are in memory and patched (R137), with the slots read from
  poison. -/
  raw : List Nat
  slots : List Nat
  badSlots : List Nat
  /-- Has the GRID descriptor been applied (R138)? -/
  gridDone : Bool
  /-- Next slot to hand out (R159). -/
  next : Nat
  items : List Item
  /-- Last queue served by the stream engine (R276). -/
  lastQueue : Nat
  /-- Outstanding limits of the 16 queues (R277). -/
  limits : List Nat
  staged : Staged
  /-- Pairs staged for WELT homes by the descriptors handed out so far (R234). -/
  pairs : Nat
  /-- Semaphore objects a unit of which the piece took (R57). -/
  units : List Nat
  /-- Edges it has run on past (R45). -/
  runOn : Nat
  phase : CommitPhase
  /-- Met a fenced or unmapped target (R297, R451). -/
  targetReset : Bool
  /-- A stream transfer read a poisoned sector (R451). -/
  readPoison : Bool
  /-- R257: an update piece: shard, first element and elements. -/
  upd : Option (Nat × Nat × Nat)
  deriving DecidableEq, Repr

/-- Bytes of a scratchpad that hold undefined values (R406): all but a window, and but what has been
written since. -/
structure Undef where
  seq : Nat
  lo : Nat
  hi : Nat
  written : List (Nat × Nat)
  deriving DecidableEq, Repr

/-- Which physical cell serves a logical cell (R12, R13, R17). -/
inductive Served where
  | identity
  | phys (p : Nat)
  | unmapped
  deriving DecidableEq, Repr

/-- An SLM add on its way to its slice (R239): address of the pair, value, poison. -/
structure SlmAdd where
  addr : Nat
  val : Lined
  poison : Bool
  ctx : Nat
  /-- The generations its cell sent it under (R549). -/
  own : ReqGen
  /-- The span it comes from, and whether it is that span's last pair. -/
  group : Nat
  last : Bool
  deriving DecidableEq, Repr

/-- A grid tile claimed for the next piece of a cell (R140). -/
structure Claim where
  cmd : Nat
  desc : Nat
  lease : LeaseRef
  deriving DecidableEq, Repr

/-- A fence under way (R550): its cause (R560), the targets told and those that have acknowledged, requests
cancelled so far, and semaphore objects of which its cells hold units (R57). -/
structure Fencing where
  cause : Nat
  units : List Nat
  told : List Nat
  acked : List Nat
  cancelled : Nat
  deriving DecidableEq, Repr

/-- One logical cell. -/
structure Cell where
  served : Served
  fenced : Bool
  /-- R550: the cell's generation. -/
  gen : Nat
  piece : Option Piece
  claim : Option Claim
  /-- R151: grids skipped in the take under way, by command. -/
  skips : List Nat
  tiles : List Tile
  /-- R113: queued drains, by group, and the SLM-homed spans (R239) that wait for a place in the queue. -/
  drainQ : List Nat
  drainWait : List Nat
  /-- R145: leases of aborted pieces whose COMMIT has been sent: unanswered, or its answer on its way. -/
  recalls : List (LeaseRef × CommitPhase)
  xfers : List Xfer
  slmAdds : List SlmAdd
  undef : Option Undef
  /-- Slack declared by the last committed piece, not yet used (R536). -/
  slack : Nat
  /-- The cell's own fence, until every target has acknowledged it. -/
  fencing : Option Fencing
  deriving DecidableEq, Repr

/-- A cell at reset: mapped to its own physical cell, free. -/
def Cell.init : Cell :=
  { served := .identity, fenced := false, gen := 0, piece := none, claim := none, skips := [], tiles := [], drainQ := [],
    drainWait := [], recalls := [], xfers := [], slmAdds := [], undef := none, slack := 0, fencing := none }

/-- A pair of the Welt with its poison (R230). -/
structure WeltPair where
  p : Lined
  poison : Bool
  deriving DecidableEq, Repr

/-- The zero pair. -/
def WeltPair.zero : WeltPair := { p := Lined.zero, poison := false }

/-- A record of the Skiver's side memory with the bits beside it (R179, R180). -/
structure SideRec where
  a : F32
  b : F32
  valid : Bool
  ctx : Nat
  tag : Nat
  poison : Bool
  /-- Does its parity check fail (R182)? -/
  badParity : Bool
  /-- The running piece that wrote it; 0 once settled (R181). -/
  writer : Nat
  deriving DecidableEq, Repr

/-- A cleared record. -/
def SideRec.zero : SideRec :=
  { a := 0, b := 0, valid := false, ctx := 0, tag := 0, poison := false, badParity := false, writer := 0 }

/-! ## Sync objects -/

/-- R55 KIND. -/
inductive Kind where
  | free
  | counter
  | event
  | barrier
  | semaphore
  | tileCounter
  deriving DecidableEq, Repr

/-- What a waiter waits for (R57). -/
inductive Wait where
  | ge (v : Nat)
  | event
  | phase (p : Bool)
  | take
  deriving DecidableEq, Repr

/-- A waiter at a home node: cell, unit (queue 0 to 15, or 16 for the Harness port), piece. -/
structure Waiter where
  cell : Nat
  unit : Nat
  piece : Nat
  wait : Wait
  deriving DecidableEq, Repr

/-- A lease (R139). -/
structure Lease where
  idx : Nat
  gen : Nat
  holder : Nat
  final : Bool
  /-- Stitches of its context since it was claimed (R142). -/
  age : Nat
  /-- The runs of its piece, by cell and serial number (R144). -/
  runs : List (Nat × Nat)
  deriving DecidableEq, Repr

/-- A released index that waits for the stores of its old holder (R144): index, next generation, and the runs of the
holder, by cell and serial number. -/
structure HeldIdx where
  idx : Nat
  gen : Nat
  runs : List (Nat × Nat)
  deriving DecidableEq, Repr

/-- A sync object (R55). -/
structure SyncObj where
  kind : Kind
  cls : Nat
  far : Bool
  farIndex : Nat
  ctx : Nat
  sat : Bool
  param : Nat
  /-- Counter value, event bit, arrival count, semaphore count or next index (R584). -/
  value : Nat
  phase : Bool
  doneCount : Nat
  failed : Nat
  waiters : List Waiter
  /-- Context and PIECE_ID of the ARRIVE_WAITs of this phase (R57). -/
  arrived : List (Nat × Nat)
  leases : List Lease
  reissue : List (Nat × Nat)
  held : List HeldIdx
  deriving DecidableEq, Repr

/-- R58: FREE with zero state. -/
def SyncObj.free : SyncObj :=
  { kind := .free, cls := 0, far := false, farIndex := 0, ctx := 0, sat := false, param := 0, value := 0,
    phase := false, doneCount := 0, failed := 0, waiters := [], arrived := [], leases := [], reissue := [], held := [] }

/-! ## Rings and commands -/

/-- R436 RING_STATE. -/
inductive RingState where
  | disabled
  | running
  | held
  | fault
  deriving DecidableEq, Repr

/-- A ring block (R436) with its held records. -/
structure Ring where
  cqDropped : Nat
  cause : Nat
  state : RingState
  cqHead : Nat
  cqPhase : Bool
  cqTail : Nat
  sqHead : Nat
  sqTail : Nat
  enable : Bool
  cqLog : Nat
  sqLog : Nat
  cqBase : Nat
  sqBase : Nat
  /-- Counts the times it was put in service. -/
  serial : Nat
  /-- Records not yet written (R439), oldest first, without PHASE and STITCH. -/
  held : List Nat
  deriving DecidableEq, Repr

/-- R436: the reset values of a ring block. -/
def Ring.init : Ring :=
  { cqDropped := 0, cause := 0, state := .disabled, cqHead := 0, cqPhase := true, cqTail := 0, sqHead := 0,
    sqTail := 0, enable := false, cqLog := 4, sqLog := 4, cqBase := 0, sqBase := 0, serial := 0, held := [] }

/-- How far a taken command has come. -/
inductive CmdStage where
  /-- Taken from the ring; its work has not begun. -/
  | taken
  /-- Its work has begun. -/
  | active
  deriving DecidableEq, Repr

/-- A taken command (R440) until its completion record is written. -/
structure Cmd where
  id : Nat
  ring : Nat
  /-- The 512 bits of its entry (R442). -/
  entry : Nat
  stage : CmdStage
  /-- R423: the deferral count, and whether its context was evicted while it was runnable. -/
  k : Nat
  evicted : Bool
  /-- Has a piece of it started? -/
  started : Bool
  /-- Does the completion go to a ring opened since (R439)? The ring's enable serial at taking. -/
  serial : Nat
  /-- Pieces that have not ended. -/
  left : Nat
  /-- Pieces ended OK, OVERRUN aborts, run-ons, stale ends, PIECE_ID of the first piece not OK. -/
  okCount : Nat
  overruns : Nat
  runOns : Nat
  stale : Nat
  firstBad : Option Nat
  /-- Highest final status of its pieces (R451), and whether a tile FAILED (R148). -/
  worst : Nat
  tileFailed : Bool
  /-- Bytes moved or landed. -/
  bytes : Nat
  deriving DecidableEq, Repr

/-! ## Contexts and the pattern -/

/-- An entry of a dispatch queue (R150, R151): a piece or a grid of a command. -/
inductive QEntry where
  /-- Command, place in its table, piece descriptor, lease of a grid piece, and whether it stands in the
  queue again after an abort or a hold (R151). -/
  | piece (cmd no desc : Nat) (lease : Option LeaseRef) (again : Bool)
  /-- Command, piece descriptor, tile counter. -/
  | grid (cmd desc obj : Nat)
  /-- R257: a piece of a shard's update: command, shard, first element of the shard, elements, budget, and
  whether it stands in the queue again. -/
  | update (cmd shard first count budget : Nat) (again : Bool)
  deriving DecidableEq, Repr

/-- A vote (R259). -/
structure Vote where
  yes : Bool
  reason : Nat
  deriving DecidableEq, Repr

/-- A vote at the tally (R262): voter, vote, STEP and COMMIT_STITCH it carries, the module it says is
faulty (R361), the voter's flag word and norm sums, tag by tag: tag, Σ g_local², Σ g², Σ w'², Σ u² as stored
pairs, elements, poison. -/
structure Tally where
  member : Nat
  vote : Vote
  step : Nat
  tc : Nat
  faulty : Option Nat
  flags : Nat
  norms : List (List Nat)
  deriving DecidableEq, Repr

/-- What a module knows of a step's outcome (R261). -/
inductive Outcome3 where
  | unknown
  | committed
  | aborted
  deriving DecidableEq, Repr

/-- An open step of a context (R247). -/
structure Step where
  cmd : Nat
  /-- The STEP_OPEN entry (R446). -/
  entry : Nat
  /-- The gradient map, shard table and optimizer records read at the open (R227, R254, R255), by entry. -/
  gmap : List Nat
  shards : List Nat
  opts : List Nat
  /-- The shards of the other members: member, entry, first element, elements, bytes of an element of the
  compute copy (0: none), its address. -/
  others : List (List Nat)
  lastTaken : Bool
  /-- Commands taken with IN_STEP that have not completed. -/
  cmdsLeft : List Nat
  /-- R242: the edge at which its gather starts has come; the gather is made; the exchange is over. -/
  due : Bool
  gathered : Bool
  exchanged : Bool
  /-- Shards whose update pieces are placed, elements of each still to be updated, shards mirrored, shards
  acknowledged by the buddy. -/
  placed : List Nat
  undone : List (Nat × Nat)
  mirrored : List Nat
  acked : List Nat
  /-- An update piece ended with another status than OK. -/
  updateBad : Bool
  /-- Poison in a received shard, an update output or a norm contribution. -/
  poison : Bool
  /-- R259, R361: the module the residue rules marked faulty that travels with the vote, and whether an adder here has been. -/
  faulty : Option Nat
  ownFault : Bool
  /-- This module's vote, and what it has sent. -/
  voted : Option Vote
  deadline : Bool
  outcome : Outcome3
  /-- R264: the stitch in which a late outcome came. -/
  late : Option Nat
  /-- The outcome's system-wide flags, votes counted, failing voters, and system-wide norm sums by tag: tag, LOCAL_G, G,
  W, U pairs as 64-bit words, elements, poison. -/
  sysFlags : Nat
  fails : List (Nat × Nat)
  norms : List (List Nat)
  deriving DecidableEq, Repr

/-- A context (R400, R405). -/
structure Ctx where
  /-- The 512 bits of its record (R401). -/
  record : Nat
  resident : Bool
  /-- The edge at which a load or save under way ends (R412). -/
  swapEnd : Option Nat
  /-- Is the swap under way a load? -/
  loading : Bool
  queue : List QEntry
  /-- R410: last stitch in which it ran. -/
  lastRan : Option Nat
  /-- R411: stitches in which it held cells since it was loaded. -/
  held : Nat
  /-- Does it hold cells in this stitch; has a piece of it retired in this stitch? -/
  holding : Bool
  retired : Bool
  /-- R410: at the edge that ended the last stitch in which it held cells, was each of its pieces
  stalled on a sync object or a Tannery queue, none having retired in that stitch? -/
  stalled : Bool
  /-- The CONTEXT_CREATE that waits for a pinned context's load (R409). -/
  createCmd : Option Nat
  /-- Its sync objects. -/
  objs : List Nat
  /-- R232: cells whose Welt window is dirty. -/
  dirty : List Nat
  step : Option Step
  /-- The step number the next STEP_OPEN must carry, the active bank, unlanded all-gather (R247, R258, R265). -/
  stepNo : Nat
  bank : Nat
  gathering : List (Nat × Step)
  /-- R243: a dirty window was lost before its gather. -/
  weltLost : Bool
  /-- R262: votes held at the root. -/
  tally : List Tally
  /-- R50: run-ons and aborts of its pieces. -/
  runOns : Nat
  aborts : Nat
  deriving DecidableEq, Repr

namespace Ctx

/-- R401 CLASS. -/
def cls (x : Ctx) : Nat := fld x.record 17 16
/-- R401 PIN, R409: pinned by class or by record. -/
def pinned (x : Ctx) : Bool := bit x.record 18 || fld x.record 17 16 == 0
/-- R401 CELLSET. -/
def cellset (x : Ctx) : Nat := fld x.record 33 24
/-- R401: layer tags. -/
def tags (x : Ctx) : Nat := fld x.record 47 36 + 1
/-- R401 OBJ_COUNT. -/
def objCount (x : Ctx) : Nat := fld x.record 113 96
/-- R401 WELT_OFF. -/
def weltOff (x : Ctx) : Nat := fld x.record 159 128
/-- R401 WELT_SIZE. -/
def weltSize (x : Ctx) : Nat := fld x.record 191 160
/-- R401 SP_OFF. -/
def spOff (x : Ctx) : Nat := fld x.record 223 192
/-- R401 SP_SIZE. -/
def spSize (x : Ctx) : Nat := fld x.record 255 224
/-- R401 HOT_OFF. -/
def hotOff (x : Ctx) : Nat := fld x.record 287 256
/-- R401 HOT_SIZE. -/
def hotSize (x : Ctx) : Nat := fld x.record 319 288
/-- R401 FIX_OFF. -/
def fixOff (x : Ctx) : Nat := fld x.record 351 320
/-- R401 FIX_SIZE. -/
def fixSize (x : Ctx) : Nat := fld x.record 383 352
/-- R401 BACK_ADDR. -/
def back (x : Ctx) : Nat := fld x.record 425 384
/-- R401 OBJ_ADDR. -/
def objAddr (x : Ctx) : Nat := fld x.record 489 448

end Ctx

/-- A stitch pattern (R414): entries with their assignment lists. -/
structure Pattern where
  start : Nat
  entries : List (Nat × List Nat)
  deriving DecidableEq, Repr

/-- A pattern load that waits for its edge. -/
structure Pending where
  pat : Pattern
  cmd : Nat
  deriving DecidableEq, Repr

/-- Cells given to a context in the stitch under way (R417, R418): a set of cells as a bit mask. -/
structure Given where
  ctx : Nat
  mask : Nat
  reserved : Bool
  deriving DecidableEq, Repr

/-! ## Latigo: ports and fabric operations -/

/-- R332: the state of a port. -/
inductive PortState where
  | disabled
  | dark
  | training
  | up
  | upNoHarness
  /-- In a calibration slot: of the Harness wavelength or of the data lanes; and had it lost its Harness
  wavelength before? -/
  | calibrating (harness noHarness : Bool)
  | failed
  deriving DecidableEq, Repr

/-- A sequenced flit before the hop's fields are filled in (R337): kind 1 DATA or 2 REDUCE; one poison
bit for each 32 bytes of payload travels beside it. -/
structure Flit where
  kind : Nat
  vl : Nat
  dst : Nat
  op : Nat
  idx : Nat
  addr : Nat
  payload : List Byte
  poison : Nat
  deriving DecidableEq, Repr

/-- A port (R329 to R341). -/
structure Port where
  state : PortState
  /-- R333: hop delay in ns, found in step 5. -/
  delay : Nat
  /-- Last SEQ accepted in order, and next SEQ to send. -/
  rxSeq : Nat
  txSeq : Nat
  /-- Flits sent and not acknowledged, oldest first, with their SEQ. -/
  unacked : List (Nat × Flit)
  /-- Replays of each of them (R335). -/
  replays : List Nat
  /-- Flits that wait for a credit. -/
  txq : List Flit
  /-- Credits in use on the three lanes. -/
  used : List Nat
  /-- R340: the lane served last and its turns left. -/
  lane : Nat
  turns : Nat
  /-- R66: a calibration slot ended in this stitch: of the Harness wavelength, or of the data lanes. -/
  idle : Option Bool
  /-- R535: the slot is a requested one, of the data and the Harness wavelengths. -/
  both : Bool
  deriving DecidableEq, Repr

/-- A port before its first training. -/
def Port.init : Port :=
  { state := .dark, delay := 0, rxSeq := 4095, txSeq := 0, unacked := [], replays := [], txq := [], used := [0, 0, 0],
    lane := 2, turns := 0, idle := none, both := false }

/-- R347: the fabric operations. -/
inductive FabKind where
  | exchange
  | stepGather
  | mirror
  | reduceScatter
  | allReduce
  | allGather
  | broadcast
  | put
  deriving DecidableEq, Repr

/-- A run of elements of one owner: rank of the module the elements end at (reductions) or come from
(the others), source address here, destination offset, and bytes of an element at the source, in a DATA
payload and at the destination. -/
structure Seg where
  owner : Nat
  count : Nat
  src : Nat
  dst : Nat
  sSize : Nat
  pSize : Nat
  dSize : Nat
  deriving DecidableEq, Repr

/-- A stripe (R352): the plane that carries it, first element and count; a stripe moved to other planes
(R355) only keeps its place in its plane's numbering of flits. -/
structure Stripe where
  plane : Nat
  first : Nat
  count : Nat
  moved : Bool
  deriving DecidableEq, Repr

/-- A partial sum: plane, flit number, contributions received, values with residues (R358). -/
structure Part where
  plane : Nat
  idx : Nat
  got : List Nat
  vals : List (F32 × Nat)
  deriving DecidableEq, Repr

/-- A REDUCE flit that this module sent, as it staged it (R360). -/
structure Sent where
  plane : Nat
  idx : Nat
  dest : Nat
  vals : List (F32 × Nat)
  deriving DecidableEq, Repr

/-- A member's start notice (R349): context, group digest and sequence number that match it to an
operation here (R348), its module ID, its operation number, its destination, and what it asks for. -/
structure Notice where
  ctx : Nat
  group : Nat
  seq : Nat
  sender : Nat
  op : Nat
  dst : Nat
  kind : Nat
  count : Nat
  fmt : Nat
  deriving DecidableEq, Repr

/-- A fabric operation (R347 to R361). -/
structure FabOp where
  id : Nat
  cmd : Option Nat
  ctx : Nat
  kind : FabKind
  /-- R348: group digest and sequence number. -/
  group : Nat
  seq : Nat
  count : Nat
  fmt : Nat
  /-- Module IDs by rank in the group, and this module's rank. -/
  ranks : List Nat
  me : Nat
  lined : Bool
  wait : Option (Nat × Nat)
  done : Option Nat
  /-- PUT and MIRROR: does this module send, and to whom? -/
  peer : Nat
  sender : Bool
  dst : Nat
  segs : List Seg
  landing : List (Nat × Nat)
  sending : List (Nat × Nat)
  started : Bool
  /-- Members that have started: module ID, their operation number, their destination. -/
  starts : List (Nat × Nat × Nat)
  stripes : List Stripe
  parts : List Part
  /-- Flits whose part here is over: plane and number. -/
  past : List (Nat × Nat)
  sent : List Sent
  /-- Flits that wait for their receiver to start: plane, receiver, flit. -/
  held : List (Nat × Nat × Flit)
  /-- First mismatches (R360): plane and number. -/
  suspects : List (Nat × Nat)
  /-- R360: the module marked faulty that goes on to the others, and whether an adder here has been. -/
  faulty : Option Nat
  ownFault : Bool
  flags : Flags
  /-- Bytes that have arrived for this module, those of them that a fenced or unmapped cell lost (R17), and whether such a
cell was met. -/
  landed : Nat
  lost : Nat
  reset : Bool
  poisoned : Bool
  deriving DecidableEq, Repr

/-- A snapshot in flight (R269 to R272): its command, identifier, step, the runs of its payload (source,
bytes, place in the payload), payload bytes, staging range, whether its step has landed, the 64 KiB blocks
copied to the staging range, whether its step was aborted. -/
structure Snap where
  cmd : Nat
  id : Nat
  ctx : Nat
  step : Nat
  tc : Nat
  gmap : List Nat
  entries : List Nat
  runs : List (Nat × Nat × Nat)
  bytes : Nat
  /-- Bytes of a chunk (R271). -/
  chunk : Nat
  stage : Nat
  armed : Bool
  copied : List Nat
  /-- R352: its container is with its port: port, bytes, chunks, status when the last flit is acknowledged. -/
  sent : Option (Nat × Nat × Nat × Nat)
  deriving DecidableEq, Repr

/-! ## The Tannery -/

/-- A sample that an engine decodes or has decoded (R384 to R388): its batch and slot, table index, position,
main position it stands for, epoch of its position, whether it is a reserve draw, its table entry and whether that
was read from poison, and the last batch it may be placed in when it is parked; when decoded, what the decoder
gave: sizes and components (R369, R373). -/
structure Decode where
  id : Nat
  batch : Nat
  slot : Nat
  index : Nat
  pos : Nat
  forPos : Nat
  epoch : Nat
  reserve : Bool
  entry : Nat
  entryPoison : Bool
  /-- R429, R430: its read of host memory could not be made, or was lost. -/
  lost : Bool
  deadline : Nat
  done : Bool
  dims : List Nat
  data : List (List Nat)
  deriving DecidableEq, Repr

/-- A slot of a batch (R386, R387). -/
inductive SlotState where
  /-- It needs the sample at a position: position, whether that is a reserve draw, draws failed, last reason. -/
  | need (pos : Nat) (reserve : Bool) (failed reason : Nat)
  /-- An engine decodes for it: draws failed, last reason. -/
  | busy (id failed reason : Nat)
  /-- It holds a sample: record kind of R390, reason. -/
  | full (d : Decode) (kind reason : Nat)
  | empty (reason : Nat)
  deriving DecidableEq, Repr

/-- A batch being assembled (R382). -/
structure Batch where
  k : Nat
  slots : List SlotState
  /-- Event records (R390), in order. -/
  events : List Nat
  deriving DecidableEq, Repr

/-- A Tannery stream (R362, R363, R391). -/
structure Stream where
  /-- 0x6010: 0 CLOSED, 1 RUNNING, 2 DONE, 3 FAILED. -/
  state : Nat
  cmd : Nat
  record : Nat
  param : Nat
  /-- TEXT: the merge table (R375). -/
  merges : List (Nat × Nat)
  /-- Next batch to seal. -/
  next : Nat
  batches : List Batch
  running : List Decode
  parked : List Decode
  /-- Reserve of the epochs in use: epoch, next position, returned positions (R380, R388). -/
  reserves : List (Nat × Nat × List Nat)
  /-- R387: mean decode times by medium, in 2^-20 µs. -/
  means : List Nat
  low : Bool
  deriving DecidableEq, Repr

/-- A stream that has not been opened. -/
def Stream.init : Stream :=
  { state := 0, cmd := 0, record := 0, param := 0, merges := [], next := 0, batches := [], running := [], parked := [],
    reserves := [], means := List.replicate 7 0, low := false }

/-! ## The job -/

/-- JOB_STATE (R393). -/
inductive JobState where
  | idle
  | opening
  | owned
  | closing
  | scrubbing
  deriving DecidableEq, Repr

/-- The job (R395, R397). -/
structure Job where
  state : JobState
  id : Nat
  /-- Member table: module IDs by rank (R343), with the excluded ones removed (R557). -/
  members : List Nat
  regions : List Nat
  /-- Cell sets as bit masks (R396). -/
  cellsets : List Nat
  /-- The scale mode adopted (R24), and the period and budget clock in force (R36). -/
  mode : Nat
  budgetMHz : Nat
  /-- The JOB_OPEN that has been taken and has not completed. -/
  openCmd : Option Nat
  /-- It has passed its checks: the counter is set to 0 and the module is owned at the next edge (R29, R397). -/
  zeroAtEdge : Bool
  pattern : Option Pattern
  pending : Option Pending
  given : List Given
  /-- R425: bytes saved and loaded by swaps. -/
  swapBytes : Nat
  deriving DecidableEq, Repr

/-- No job. -/
def Job.none : Job :=
  { state := .idle, id := 0, members := [], regions := [], cellsets := [], mode := 0, budgetMHz := 0,
    openCmd := Option.none, zeroAtEdge := false, pattern := Option.none, pending := Option.none, given := [], swapBytes := 0 }

/-! ## The Stitch -/

/-- The Stitch source and its watches (R29 to R35). -/
structure Stitch where
  /-- 0x5006 STITCH_COUNT. -/
  count : Nat
  /-- 0x5005:02 and :03: root and standby in force. -/
  root : Nat
  standby : Nat
  /-- Edges until the new standby acts (R33). -/
  standbyIn : Nat
  /-- R35 STITCH_LOST. -/
  lost : Bool
  /-- No valid marker was received for the last edge (R35). -/
  holdover : Bool
  /-- Markers received for edges to come: edge number and hop-corrected time in ns, relative to the nominal
  time (R34). -/
  markers : List (Nat × Int)
  /-- R32: edges since a marker or heartbeat of the root was heard. -/
  quiet : Nat
  deriving DecidableEq, Repr

/-- What the module sends or tells outside itself, oldest first. -/
inductive Msg where
  /-- R32: a marker of an edge, on the ports whose Harness wavelength is in service (R65). -/
  | marker (ports : List Nat) (n : Nat)
  /-- R32: a root heartbeat, on the same ports. -/
  | heartbeat (ports : List Nat)
  /-- R344: the planes lost for data on this module: all of them at job open, one that joins them. -/
  | planesLost (mask : Nat)
  /-- R310: a home slice's answer to a load: data, poison. -/
  | sliceReply (data : List Byte) (poison : Bool)
  /-- R333: step 4 of a port's training: its number and the module's ID, on the Harness wavelength. -/
  | ident (port member : Nat)
  /-- R361: a host reduction has marked a module faulty: context, group and number of the operation, module. -/
  | faultyMark (ctx group seq member : Nat)
  /-- R54: a Harness frame delivered to the module's nodes: port, class, payload. -/
  | frame (port cls payload : Nat)
  /-- R54: a retry asked of the sender of a hop. -/
  | frameRetry (port cls seq : Nat)
  /-- R62: an update of a far object sent up the tree. -/
  | far (index op amount : Nat)
  /-- R141, R549: COMMIT of a lease, from a cell, under its generations. -/
  | tileCommit (cell : Nat) (own : ReqGen) (l : LeaseRef)
  /-- R139: DONE of a lease, carried by a piece commit. -/
  | tileDone (l : LeaseRef)
  /-- R145: REVERT of a lease. -/
  | tileRevert (l : LeaseRef)
  /-- R337: a flit sent on a port: header, payload, poison bits. -/
  | flit (port header : Nat) (payload : List Byte) (poison : Nat)
  /-- R349: this module has started an operation: its number and what matches it. -/
  | started (n : Notice)
  /-- R360: the sender of a flit is asked to send it again: its operation number, plane, flit. -/
  | resend (member op plane idx : Nat)
  /-- R61, R343, R397: a digest given to the other scheduler cores. -/
  | digest (v : Nat)
  /-- R259: a vote: context, STEP, COMMIT_STITCH, yes, reason, faulty module. -/
  | vote (ctx : Nat) (v : Tally)
  /-- R261, R262: the outcome sent to every module whose step names a COMMIT_STITCH: system-wide flags, failing voters and their
  reasons, norm sums. -/
  | outcome (ctx tc : Nat) (commit : Bool) (flags : Nat) (fails : List (Nat × Nat)) (norms : List (List Nat))
  /-- R264: the outcome asked of the root's tree. -/
  | askOutcome (ctx tc : Nat)
  /-- R256: this module's shards of a step, as the others' STEP_OPEN reads them: context, STEP, and for each its entry, first
  element, elements, bytes of an element of the compute copy, its address. -/
  | shards (ctx step : Nat) (rows : List (List Nat))
  /-- R267: a mirrored shard acknowledged to its owner. -/
  | mirrorAck (member ctx shard : Nat)
  /-- R429: a write to host memory: bus address, bytes, and whether it carries EP. -/
  | hostWrite (addr : Nat) (bytes : List Byte) (ep : Bool)
  /-- R429: a read of host memory: request number, bus address, length. -/
  | hostRead (id addr n : Nat)
  /-- R434: the completion of a BAR2 read: data, EP. -/
  | bar2Data (bytes : List Byte) (ep : Bool)
  /-- R497: a Jaolpen frame sent. -/
  | datagram (bytes : List Byte)
  /-- R497: the answer to a Neighbor Solicitation, and to an Echo Request with its data. -/
  | neighborAdvert (address mac : Nat)
  | echoReply (data : List Byte)
  /-- R557: a member is excluded: told to the member. -/
  | excluded (member : Nat)
  deriving DecidableEq, Repr

/-- Is this a message of a tile lease, between parts of the module? -/
def Msg.ofLease : Msg → Bool
  | .tileCommit .. | .tileDone _ | .tileRevert _ => true
  | _ => false

/-- A block that is fenced and reset on its own (R548). -/
structure Block where
  gen : Nat
  fenced : Bool
  fencing : Option Fencing
  /-- R555: it has reported ready, and rejoins at the next edge. -/
  ready : Bool
  /-- Expiries of a control core's watchdog in this job; after the third the cluster stays fenced (R462). -/
  expiries : Nat
  deriving DecidableEq, Repr

/-- A block at boot. -/
def Block.init : Block := { gen := 0, fenced := false, fencing := none, ready := false, expiries := 0 }

/-! ## Memory: cache and stacks -/

/-- The channel's own word of a sector beneath a cached copy that differs from it: sector of the line, data bytes, poison. -/
structure Under where
  sector : Nat
  data : List Nat
  poison : Bool
  deriving DecidableEq, Repr

/-- A line of a cache partition (R312): stack line number, a valid and a dirty bit per sector. The data and poison that
every agent meets at the home slice (R310) are those of the memory; under holds the channel's own words of the sectors in which
they differ (R319, R323). -/
structure CacheLine where
  line : Nat
  valid : Nat
  dirty : Nat
  under : List Under
  deriving DecidableEq, Repr

/-- A stack's throttle level (R325), and whether its refresh rate is doubled (R326). -/
structure StackSt where
  level : Nat
  hot : Bool
  deriving DecidableEq, Repr

/-- A stack at reset. -/
def StackSt.init : StackSt := { level := 0, hot := false }

/-! ## Host memory requests -/

/-- A read of host memory for a HOST_COPY (R429): request number, command, local address, bytes, bytes
still to come. -/
structure HostRead where
  id : Nat
  cmd : Nat
  addr : Nat
  bytes : Nat
  left : Nat
  deriving DecidableEq, Repr

/-! ## The object-dictionary server and the field network -/

/-- A requester of the object dictionary (R487). -/
inductive Who where
  | ring
  | mailbox
  | session (id : Nat)
  deriving DecidableEq, Repr

/-- An access that waits for the server (R485): requester, ring command or mailbox tag or session SEQ, the
request block (R494), write data, and a result decided before any access is made. -/
structure OdReq where
  who : Who
  tag : Nat
  block : Nat
  data : List Byte
  refused : Option Nat
  deriving DecidableEq, Repr

/-- An open segmented transfer (R487): bytes moved, and the copy read or the data received. -/
structure Transfer where
  who : Who
  write : Bool
  index : Nat
  sub : Nat
  total : Nat
  moved : Nat
  data : List Byte
  deriving DecidableEq, Repr

/-- The state of the PCI Express function that its configuration space holds beside the size of BAR2 (R428 to R430): Bus
Master Enable, and the power state D3hot. No row of the table writes it: Bus Master Enable follows the operand of
HOST_COPY and SNAPSHOT (log 131). -/
structure Pcie where
  bme : Bool
  d3hot : Bool
  deriving DecidableEq, Repr

/-- The configuration space after a reset of the interface. -/
def Pcie.init : Pcie := { bme := false, d3hot := false }

/-- The BAR0 mailbox (R493, R494). -/
structure Mailbox where
  request : Nat
  data : List Byte
  busy : Bool
  tag : Nat
  result : Nat
  length : Nat
  deriving DecidableEq, Repr

/-- A Jaolpen session (R499 to R501): its keys, the last SEQ accepted, the last response. -/
structure Session where
  id : Nat
  full : Bool
  kmd : List Byte
  kdm : List Byte
  lastSeq : Nat
  last : List Byte
  deriving DecidableEq, Repr

/-! ## Firmware and security -/

/-- A selector copy (R457): sequence number, preferred slot (true: B), TRIAL. -/
structure Selector where
  seq : Nat
  slot : Bool
  trial : Bool
  deriving DecidableEq, Repr

/-- The flash of the module (R455) and its fuses, which power-off does not touch. -/
structure Flash where
  /-- The two selector copies; none where the CRC is wrong. -/
  selA : Option Selector
  selB : Option Selector
  slotA : List Byte
  slotB : List Byte
  /-- R484: 0x7003:00 BOOT_BIST_LEVEL. -/
  bootLevel : Nat
  /-- R545: failure records, and listed repairs not yet applied (R542). -/
  records : List Nat
  pendingRepairs : List Nat
  /-- Spare rows used by stack and channel (stack × 128 + channel), PPR rows used (that × 16 + bank), and rows and
  columns used in on-chip banks (R540, R541), by kind, unit and bank. -/
  spareRows : Sparse Nat
  ppr : List Nat
  /-- R541: the rows that they repair, each with its bank. -/
  pprRows : List (Nat × Nat)
  bankRows : Sparse Nat
  bankCols : Sparse Nat
  /-- Units that failed and stay failed: kind × 65,536 + UNIT; all kinds of a cell under kind 1 (R526). -/
  failed : List Nat
  /-- R470. -/
  fusedSvn : Nat
  deriving DecidableEq, Repr

/-- Flash and fuses as the model starts from them. -/
def Flash.init : Flash :=
  { selA := none, selB := none, slotA := [], slotB := [], bootLevel := 1, records := [], pendingRepairs := [],
    spareRows := [], ppr := [], pprRows := [], bankRows := [], bankCols := [], failed := [], fusedSvn := 0 }

/-- The security core (R458 to R478). -/
structure Secure where
  /-- 0x9000: BOOT_STATE 0 ROM, 1 LOADING, 2 RUNNING, 3 RECOVERY; active slot (true: B), FALLBACK, TRIAL. -/
  boot : Nat
  active : Bool
  fallback : Bool
  trial : Bool
  /-- R460: a processor was not ready in time; the ROM restarts at step 2 with the active slot. -/
  retry : Bool
  /-- 0x9003:00 FW_STAGE_STATUS. -/
  stage : Nat
  /-- The challenge: number of its draw (R476). -/
  challenge : Nat
  scope : Nat
  refusals : Nat
  /-- R473: nonces by requester. -/
  nonces : List (Who × Nat)
  deriving DecidableEq, Repr

/-- The security core at reset. -/
def Secure.init : Secure :=
  { boot := 0, active := false, fallback := false, trial := false, retry := false, stage := 0, challenge := 0, scope := 0,
    refusals := 0, nonces := [] }

/-! ## Power, pins and self-test -/

/-- Why the rails are off although PWR_EN is asserted (R520). -/
inductive Shutdown where
  | no
  | thermal
  | voltage
  deriving DecidableEq, Repr

/-- Pins and power sequencing (R507, R520, R575 to R578). -/
structure Power where
  /-- PWR_EN as the tray holds it, and as the module acts on it during the 100 ms hold-off (R576). -/
  pwrEn : Bool
  holdoff : Bool
  /-- The input has been within 40 to 60 V for 1 ms (R577). -/
  inputOk : Bool
  rails : Bool
  /-- PG and THERM_TRIP_N: released high, and asserted. -/
  pg : Bool
  thermTrip : Bool
  /-- PERST_N is low. -/
  perst : Bool
  /-- RESET_N: does the module hold it low? -/
  resetLow : Bool
  shutdown : Shutdown
  /-- R516: an episode of power above the cap with the clock at its floor is under way. -/
  overCap : Bool
  /-- R522: milliseconds of the SAFE episode in force already counted. -/
  safeMs : Nat
  /-- Milliseconds since boot, as the ticks of R516 count them (R538, log 144). -/
  millis : Nat
  deriving DecidableEq, Repr

/-- Power good, PERST_N high. -/
def Power.init : Power :=
  { pwrEn := true, holdoff := false, inputOk := true, rails := true, pg := true, thermTrip := false, perst := false,
    resetLow := false, shutdown := .no, overCap := false, safeMs := 0, millis := 0 }

/-- A physical cell (R12, R528, R536 to R539): next slice of its cycle, stitch of the last passing slice of each unit kind,
the millisecond of its last finished cycle, the slice running, a failed slice to be run again, the failure records of its
first run (ACTION and CONFIRMED still zero), and whether the rerun failed too. -/
structure Phys where
  next : Nat
  lastPass : List (Nat × Nat)
  cycleAt : Nat
  test : Option Nat
  rerun : Option Nat
  found : List Nat
  confirmed : Bool
  /-- R529: failures found beyond the 16 that a slice reports. -/
  more : Nat
  deriving DecidableEq, Repr

/-- A physical cell at boot. -/
def Phys.init : Phys :=
  { next := 0, lastPass := [], cycleAt := 0, test := none, rerun := none, found := [], confirmed := false, more := 0 }

/-- The state of the module. -/
structure State where
  /-- Commands waiting, first in, first out (the model's own). -/
  pending : List Instr
  /-- Draws of the model's free values so far (the model's own). -/
  free : Nat
  /-- Serial number of the next piece start, transfer and command (the model's own names). -/
  serial : Nat
  /-- The Harness offset in the stitch at the last piece start tried (R40). -/
  offset : Nat
  /-- Stack memory, SLM and scratchpads by local address (R9); an unlisted byte reads zero. -/
  mem : List Host.Cell
  /-- Sectors marked poisoned (R296): addresses divided by 32, rising. -/
  poison : List Nat
  /-- Object-dictionary values (R486) by index × 256 + subindex; an unlisted key holds its default. -/
  od : Sparse Nat
  stitch : Stitch
  job : Job
  cells : Sparse Cell
  /-- The blocks of R548 by number. -/
  blocks : Sparse Block
  /-- Counters of each cell, by cell × 32 + number. -/
  cellCtr : Sparse Nat
  cellFlags : Sparse Flags
  clusterFlags : Sparse Flags
  moduleFlags : Flags
  /-- R96: the stitch at whose edge the flag words were last collected for votes, and the module's step flag word of then. -/
  stepWord : Option (Nat × Flags)
  /-- The Welts (R230): cell × 32,768 + pair. -/
  welt : Sparse WeltPair
  /-- Skiver side memories (R179): cell × 4,096 + record. -/
  side : Sparse SideRec
  sync : Sparse SyncObj
  ctxs : Sparse Ctx
  rings : Sparse Ring
  cmds : List Cmd
  /-- R440: last ring served in this round. -/
  lastRing : Nat
  /-- Harness frames: next sequence number expected, by port × 8 + class (R54). -/
  frameSeq : Sparse Nat
  ports : Sparse Port
  fab : List FabOp
  /-- Start notices that wait for their operation. -/
  notices : List Notice
  /-- R348: commands so far, by context and group digest. -/
  fabSeqs : List (Nat × Nat × Nat)
  snaps : List Snap
  /-- Clusters whose PLL is in a calibration slot (R64), and those whose slot ended in this stitch (R66). -/
  pllCal : List Nat
  pllIdle : List Nat
  streams : Sparse Stream
  /-- R463: the scheduler core is down. -/
  schedDown : Bool
  /-- R511: the arithmetic clock in MHz. -/
  clock : Nat
  /-- R520, R464: the clock is held at 1.0 GHz after a trip, and while the power-management core is down. -/
  safeTrip : Bool
  powerDown : Bool
  /-- R466, R560: watchdog expiries since boot, by processor number. -/
  watchdogs : Sparse Nat
  /-- R557: consecutive deadlines at which each member was MISSING. -/
  missing : Sparse Nat
  /-- Cache partitions: the lines of a set, most recently used first, by slice × 40,960 + set (R312). -/
  cache : Sparse (List CacheLine)
  stackSts : Sparse StackSt
  /-- R542: corrections of a row in this patrol interval, by the row's number. -/
  rowCorrections : Sparse Nat
  /-- R433: BAR2_WINDOW_BASE, and log2 of the BAR2 size. -/
  bar2Base : Nat
  bar2Log : Nat
  /-- R428 to R430. -/
  pcie : Pcie
  hostReads : List HostRead
  odQueue : List OdReq
  transfers : List Transfer
  mailbox : Mailbox
  sessions : List Session
  flash : Flash
  secure : Secure
  power : Power
  /-- Physical cells by cluster × 66 + index. -/
  phys : Sparse Phys
  /-- R533: the level of a requested test that the scrub under way follows. -/
  testLevel : Option Nat
  outbox : List Msg
  deriving DecidableEq, Repr

/-- The module right after power-up and release of reset, before BOOT. -/
def State.reset : State :=
  { pending := [], free := 0, serial := 0, offset := 0, mem := [], poison := [], od := [],
    stitch := { count := 0, root := 0, standby := 0, standbyIn := 0, lost := false, holdover := false, markers := [], quiet := 0 },
    job := Job.none, cells := [], blocks := [], cellCtr := [], cellFlags := [], clusterFlags := [], moduleFlags := 0, stepWord := none,
    welt := [], side := [], sync := [], ctxs := [], rings := [], cmds := [], lastRing := 0, frameSeq := [],
    ports := [], fab := [], notices := [], fabSeqs := [], snaps := [], pllCal := [], pllIdle := [], streams := [],
    schedDown := false, clock := 1800, safeTrip := false, powerDown := false, watchdogs := [], missing := [],
    cache := [], stackSts := [], rowCorrections := [], bar2Base := 0, bar2Log := 40, pcie := Pcie.init, hostReads := [], odQueue := [], transfers := [],
    mailbox := { request := 0, data := [], busy := false, tag := 0, result := 0, length := 0 }, sessions := [],
    flash := Flash.init, secure := Secure.init, power := Power.init, phys := [], testLevel := none, outbox := [] }

end Sys2Proof.Machine
end

