-- ==== Sys2Proof/Machine/Ops.lean ====
section
/-! DEFINITION. The named operations on the state: memory, poison, dictionary values, cells, flags,
counters, contexts, commands. -/
namespace Sys2Proof.Machine

/-! ## Addresses (R8, R9) -/

/-- First address of the SLM. -/
def slmBase : Nat := 0x10000000000
/-- Bytes of one slice (R311). -/
def sliceBytes : Nat := 0xA000000
/-- First address of the scratchpads. -/
def spBase : Nat := 0x20000000000
/-- Bytes of one scratchpad (R9). -/
def spBytes : Nat := 1572864
/-- Bytes of stack memory. -/
def stackBytes : Nat := 0xC000000000
/-- Number of logical cells (R2). -/
def cellCount : Nat := 8192

/-- Base of a cell's scratchpad (R8). -/
def spOf (cell : Nat) : Nat := spBase + cell * spBytes

/-- Do n bytes from a lie in the cell's scratchpad? -/
def inOwnSp (cell a n : Nat) : Bool := decide (spOf cell ≤ a ∧ a + n ≤ spOf cell + spBytes)

/-- Do n bytes from a lie in stack memory? -/
def inStack (a n : Nat) : Bool := decide (a + n ≤ stackBytes)

/-- Do n bytes from a lie in SLM? -/
def inSlm (a n : Nat) : Bool := decide (slmBase ≤ a ∧ a + n ≤ slmBase + 128 * sliceBytes)

/-- Do n bytes from a lie in the scratchpads? -/
def inSp (a n : Nat) : Bool := decide (spBase ≤ a ∧ a + n ≤ spBase + cellCount * spBytes)

/-- The cell whose scratchpad holds an address. -/
def cellOfAddr (a : Nat) : Option Nat :=
  if inSp a 1 then some ((a - spBase) / spBytes) else none

/-- The cluster of a cell. -/
def clusterOf (cell : Nat) : Nat := cell / 64

/-- The cluster of a unit that serves requests: a cell, or 8192 + b for the Harness node of cluster b (R301, R549). -/
def serverBlock (k : Nat) : Nat := if k < 8192 then clusterOf k else k - 8192

/-! ## Dictionary values -/

/-- The canonical form of a memory: addresses strictly rising, no byte listed that an unlisted address reads as. -/
def Memory.wf (m : List Host.Cell) : Bool := Sp.wf (0 : Byte) m

namespace State

/-- A dictionary value. -/
def odGet (s : State) (index sub : Nat) : Nat := Sp.get (Od.dflt (Od.key index sub)) s.od (Od.key index sub)

/-- Set a dictionary value. -/
def odSet (s : State) (index sub v : Nat) : State :=
  { s with od := Sp.set (Od.dflt (Od.key index sub)) s.od (Od.key index sub) v }

/-- Add to a 64-bit counter of the dictionary. -/
def odAdd (s : State) (index sub n : Nat) : State :=
  s.odSet index sub (min (2 ^ 64 - 1) (s.odGet index sub + n))

/-- Stitch period in µs (R27). -/
def periodUs (s : State) : Nat := s.odGet 0x5002 0

/-- H, the Harness cycles of a stitch (R36). -/
def harnessCycles (s : State) : Nat := s.periodUs * 1800

/-- Gs, the Harness cycle at which the guard band starts (R39). -/
def guardStart (s : State) : Nat := s.harnessCycles * (100 - s.odGet 0x5003 0) / 100

/-- The largest budget a piece that starts at offset x may declare: floor((H − x) × k) (R36, R40). -/
def budgetAt (s : State) (x : Nat) : Nat := (s.harnessCycles - x) * s.job.budgetMHz / 1800

/-! ## Cells -/

/-- A logical cell. -/
def cell (s : State) (c : Nat) : Cell := Sp.get Cell.init s.cells c

/-- Replace a logical cell. -/
def setCell (s : State) (c : Nat) (v : Cell) : State := { s with cells := Sp.set Cell.init s.cells c v }

/-- Change a logical cell. -/
def updCell (s : State) (c : Nat) (f : Cell → Cell) : State := s.setCell c (f (s.cell c))

/-- Change the piece a cell holds. -/
def updPiece (s : State) (c : Nat) (f : Piece → Piece) : State :=
  s.updCell c fun e => { e with piece := e.piece.map f }

/-- A block of R548. -/
def block (s : State) (b : Nat) : Block := Sp.get Block.init s.blocks b

/-- R17, R550: is the cell unmapped, or it or its cluster fenced? -/
def cellDown (s : State) (c : Nat) : Bool :=
  (s.cell c).fenced || decide ((s.cell c).served = .unmapped) || (s.block (c / 64)).fenced

/-- R430: can the PCI Express interface carry requests: PERST_N high, its block not fenced? -/
def pcieUp (s : State) : Bool := !s.power.perst && !(s.block 0x80).fenced

/-- R429: Bus Master Enable as a command finds it; a reset interface has none. -/
def setBme (s : State) (on : Bool) : State := { s with pcie := { s.pcie with bme := on && !s.power.perst } }

/-- R549: what a request that a cell sends now carries. -/
def reqGen (s : State) (c : Nat) : ReqGen := { block := c / 64, gen := (s.block (c / 64)).gen, cellGen := (s.cell c).gen }

/-- R550, R551: the generations of a cell that a target holds current: those before a fence that it has not been told of. -/
def knownGen (s : State) (c target : Nat) : ReqGen :=
  let untold (f : Option Fencing) : Nat := if f.any fun f => !f.told.contains target then 1 else 0
  let b := s.block (c / 64)
  let e := s.cell c
  { block := c / 64, gen := (b.gen + 65536 - untold b.fencing) % 65536
    cellGen := (e.gen + 512 - untold b.fencing - untold e.fencing) % 256 }

/-- R549: does a target serve a request of a cell? Only while the generations it carries are current there. -/
def reqServed (s : State) (c : Nat) (own : ReqGen) (target : Option Nat) : Bool := target.all fun k => own == s.knownGen c k

/-- The physical index that serves a logical cell, none where it is unmapped (R12, R13, R17). -/
def physIndex (s : State) (c : Nat) : Option Nat :=
  match (s.cell c).served with
  | .identity => some (c % 64)
  | .phys p => some p
  | .unmapped => none

/-- A physical cell of a cluster. -/
def physCell (s : State) (cluster p : Nat) : Phys := Sp.get Phys.init s.phys (cluster * 66 + p)

/-- Change a physical cell. -/
def updPhys (s : State) (cluster p : Nat) (f : Phys → Phys) : State :=
  { s with phys := Sp.set Phys.init s.phys (cluster * 66 + p) (f (s.physCell cluster p)) }

/-- The physical cell that serves a logical cell. -/
def physAt (s : State) (c : Nat) : Phys := ((s.physIndex c).map (s.physCell (c / 64))).getD Phys.init

/-- Replace a block. -/
def setBlock (s : State) (b : Nat) (v : Block) : State := { s with blocks := Sp.set Block.init s.blocks b v }

/-- The piece that runs on a cell: none while the cell is down (R550). -/
def pieceOf (s : State) (c : Nat) : Option Piece := if s.cellDown c then none else (s.cell c).piece

/-- Add to a counter of a cell, stopping at 2^48 − 1 (R132, R294). -/
def cellAdd (s : State) (c k n : Nat) : State :=
  let key := c * 32 + k
  { s with cellCtr := Sp.set 0 s.cellCtr key (min (2 ^ 48 - 1) (Sp.get 0 s.cellCtr key + n)) }

/-- Read a counter of a cell. -/
def cellGet (s : State) (c k : Nat) : Nat := Sp.get 0 s.cellCtr (c * 32 + k)

/-- Numbers of the cell counters: 0 to 7 the stall causes of R292, then those below. -/
def ctrSteps : Nat := 8
/-- R132 ARRAY_MAC_SLOTS. -/
def ctrSlots : Nat := 9
/-- R132 ARRAY_MAC_MASKED. -/
def ctrMasked : Nat := 10
/-- R193 SKIVER_STAT_SIDE_COUNT. -/
def ctrSide : Nat := 11
/-- R193 SKIVER_STAT_MEMORY_COUNT. -/
def ctrMem : Nat := 12
/-- R182 SKIVER_SIDE_PARITY_COUNT. -/
def ctrParity : Nat := 13
/-- R207: taps of pooling and convolution work. -/
def ctrTaps : Nat := 14
/-- R50: run-ons of the cell. -/
def ctrRunOn : Nat := 15
/-- R50: aborts of the cell. -/
def ctrAbort : Nat := 16

/-! ## Memory -/

/-- The bit of a cell in a cell-set mask. -/
def inMask (mask c : Nat) : Bool := bit mask c

/-- R405: does an address lie in the scratchpad window of a resident context, on a cell of its set? -/
def keptAt (s : State) (c a : Nat) : Bool :=
  s.ctxs.any fun e =>
    e.2.resident && inMask (s.job.cellsets.getD e.2.cellset 0) c &&
      decide (spOf c + e.2.spOff ≤ a ∧ a < spOf c + e.2.spOff + e.2.spSize)

/-- R406: does a byte hold an undefined value? The counter of the piece start, when it does. While no
piece runs on the cell, the windows of resident contexts hold what their pieces left (R405). -/
def undefAt (s : State) (a : Nat) : Option Nat :=
  match cellOfAddr a with
  | none => none
  | some c =>
    match (s.cell c).undef with
    | none => none
    | some u =>
      if u.lo ≤ a ∧ a < u.hi then none
      else if (s.cell c).piece = none ∧ s.keptAt c a then none
      else if u.written.any fun r => decide (r.1 ≤ a ∧ a < r.1 + r.2) then none
      else some u.seq

/-- Is the sector of an address marked poisoned? -/
def poisonAt (s : State) (a : Nat) : Bool := s.poison.contains (a / 32)

/-- One byte of memory; a poisoned sector holds 32 zero bytes (R320). -/
def byte (s : State) (a : Nat) : Byte :=
  if s.poisonAt a then 0
  else
    match s.undefAt a with
    | some k => Config.freeByte k a
    | none => Sp.get (0 : Byte) s.mem a

/-- n bytes of memory. -/
def bytes (s : State) (a n : Nat) : List Byte := (List.range n).map fun i => s.byte (a + i)

/-- n bytes of memory as a little-endian number. -/
def rd (s : State) (a n : Nat) : Nat := leNat (s.bytes a n)

/-- Is any sector of n bytes marked poisoned? -/
def poisonIn (s : State) (a n : Nat) : Bool :=
  decide (0 < n) && s.poison.any fun k => decide (a / 32 ≤ k ∧ k ≤ (a + n - 1) / 32)

/-- Mark the sector of an address poisoned. -/
def addPoison (s : State) (a : Nat) : State := { s with poison := insSorted (a / 32) s.poison }

/-- Write one byte. -/
def wrByte (s : State) (a : Nat) (b : Byte) : State := { s with mem := Sp.set (0 : Byte) s.mem a b }

/-- Note a range of a scratchpad as written since the last piece start (R406); it may end in the next
cell's. -/
def noteWritten (s : State) (a n : Nat) : State :=
  ((cellOfAddr a).toList ++ (cellOfAddr (a + n - 1)).toList).eraseDups.foldl (fun s c =>
    match (s.cell c).undef with
    | none => s
    | some u => s.updCell c fun e => { e with undef := some { u with written := (a, n) :: u.written } }) s

/-- Write consecutive bytes. -/
def wrBytes (s : State) (a : Nat) : List Byte → State
  | [] => s
  | b :: bs => (s.wrByte a b).wrBytes (a + 1) bs

/-- Poison marks after a write of n bytes at a, of which the listed addresses are poisoned: sectors the
write covers whole are cleared, sectors that receive a poisoned byte are marked (R295, R296). -/
def markPoison (s : State) (a n : Nat) (bad : List Nat) : State :=
  let kept := s.poison.filter fun k => !decide (a ≤ 32 * k ∧ 32 * k + 32 ≤ a + n)
  { s with poison := bad.foldl (fun p x => insSorted (x / 32) p) kept }

/-- Where the bytes of a poisoned sector land when n bytes from src are copied to dst: the first and the last. -/
def copiedPoison (src dst n k : Nat) : List Nat :=
  let lo := max (32 * k) src
  let hi := min (32 * k + 32) (src + n)
  if lo < hi then [lo - src + dst, hi - 1 - src + dst] else []

/-- Copy raw bytes with their poison. -/
def copyRange (s : State) (src dst n : Nat) : State :=
  let kept := s.mem.filter fun e => !decide (dst ≤ e.1 ∧ e.1 < dst + n)
  let moved := s.mem.filter fun e => decide (src ≤ e.1 ∧ e.1 < src + n)
  let t := { s with mem := moved.foldl (fun m (e : Nat × Byte) => Sp.set (0 : Byte) m (e.1 - src + dst) e.2) kept }
  t.markPoison dst n (s.poison.flatMap fun k => copiedPoison src dst n k)

/-- R17, R550: a byte and its poison as any agent but its own cell reads it. -/
def reachByte (s : State) (a : Nat) : Byte × Bool :=
  if (cellOfAddr a).any fun c => s.cellDown c then (Config.lostByte s.free a, true) else (s.byte a, s.poisonAt a)

/-- n of them. -/
def reachBytes (s : State) (a n : Nat) : List (Byte × Bool) := (List.range n).map fun i => s.reachByte (a + i)

/-- Does a range reach into the scratchpad of a fenced or unmapped cell? -/
def downIn (s : State) (a n : Nat) : Bool :=
  (List.range n).any fun i => (cellOfAddr (a + i)).any fun c => s.cellDown c

/-- Bytes cleared by the scrub (R399): all of memory and its poison. -/
def clearMem (s : State) : State := { s with mem := [], poison := [] }

/-! ## Flags -/

/-- Stage arithmetic flags with the piece a cell runs (R95). -/
def stageFlags (s : State) (c : Nat) (f : Flags) : State :=
  s.updPiece c fun p => { p with staged := { p.staged with flags := p.staged.flags ||| f } }

/-- OR flags into a cell's word. -/
def orCellFlags (s : State) (c : Nat) (f : Flags) : State :=
  { s with cellFlags := Sp.set 0 s.cellFlags c (Sp.get 0 s.cellFlags c ||| f) }

/-- OR flags into a cluster's word. -/
def orClusterFlags (s : State) (k : Nat) (f : Flags) : State :=
  { s with clusterFlags := Sp.set 0 s.clusterFlags k (Sp.get 0 s.clusterFlags k ||| f) }

/-! ## Sync objects, contexts, rings, commands -/

/-- A sync object. -/
def obj (s : State) (i : Nat) : SyncObj := Sp.get SyncObj.free s.sync i

/-- Replace a sync object. -/
def setObj (s : State) (i : Nat) (o : SyncObj) : State := { s with sync := Sp.set SyncObj.free s.sync i o }

/-- A context that exists. -/
def ctx? (s : State) (c : Nat) : Option Ctx := Sp.find s.ctxs c

/-- Replace or add a context. -/
def setCtx (s : State) (c : Nat) (v : Ctx) : State := { s with ctxs := Sp.ins s.ctxs c v }

/-- Change a context that exists. -/
def updCtx (s : State) (c : Nat) (f : Ctx → Ctx) : State :=
  match s.ctx? c with
  | some v => s.setCtx c (f v)
  | none => s

/-- A ring pair. -/
def ring (s : State) (n : Nat) : Ring := Sp.get Ring.init s.rings n

/-- Replace a ring pair. -/
def setRing (s : State) (n : Nat) (r : Ring) : State := { s with rings := Sp.set Ring.init s.rings n r }

/-- A taken command. -/
def cmd? (s : State) (id : Nat) : Option Cmd := s.cmds.find? fun c => c.id == id

/-- Change a taken command. -/
def updCmd (s : State) (id : Nat) (f : Cmd → Cmd) : State :=
  { s with cmds := updFirst (fun c => c.id == id) f s.cmds }

/-- A port. -/
def port (s : State) (p : Nat) : Port := Sp.get Port.init s.ports p

/-- Replace a port. -/
def setPort (s : State) (p : Nat) (v : Port) : State := { s with ports := Sp.set Port.init s.ports p v }

/-- Change a port. -/
def updPort (s : State) (p : Nat) (f : Port → Port) : State := s.setPort p (f (s.port p))

/-- A fabric operation in progress. -/
def fabOp? (s : State) (id : Nat) : Option FabOp := s.fab.find? fun o => o.id == id

/-- Change a fabric operation. -/
def updFab (s : State) (id : Nat) (f : FabOp → FabOp) : State :=
  { s with fab := updFirst (fun o => o.id == id) f s.fab }

/-- A Tannery stream. -/
def stream (s : State) (n : Nat) : Stream := Sp.get Stream.init s.streams n

/-- Change a Tannery stream. -/
def updStream (s : State) (n : Nat) (f : Stream → Stream) : State :=
  { s with streams := Sp.set Stream.init s.streams n (f (s.stream n)) }

/-- R342: the module's own ID. -/
def moduleId (s : State) : Nat := s.odGet 0x4001 0

/-- R53, R55: the precedence of the traffic of a class. -/
def classRank (cls : Nat) : Nat := if cls = 0 then 1 else if cls = 1 then 3 else 4

/-- R53: the precedence of a message that goes over the Harness: markers, class 0, votes and norms, class 1, class 2; none for
one that goes another way. DESIGN CHOICE (log 122): messages of the scheduler cores for which the spec names no precedence
have that of class 0. -/
def harnessRank (s : State) : Msg → Option Nat
  | .marker _ _ | .heartbeat _ => some 0
  | .vote .. | .outcome .. | .askOutcome .. | .resend .. => some 2
  | .far i _ _ => some (((s.sync.find? fun e => e.2.far && e.2.farIndex == i).map fun e => classRank e.2.cls).getD 1)
  | .tileCommit _ _ l | .tileDone l | .tileRevert l => some (classRank (s.obj l.obj).cls)
  | .digest _ | .started _ | .mirrorAck .. | .excluded _ | .planesLost _ | .shards .. | .ident .. | .faultyMark .. => some 1
  | _ => none

/-- R53: does a waiting message give way to one of a precedence? -/
def givesWayTo (s : State) (k : Nat) (m : Msg) : Bool := (s.harnessRank m).any fun j => decide (k < j)

/-- Send a message: over the Harness ahead of the waiting ones of lower precedence (R53). -/
def send (s : State) (m : Msg) : State :=
  match s.harnessRank m with
  | none => { s with outbox := s.outbox ++ [m] }
  | some k =>
    { s with outbox := (s.outbox.takeWhile fun x => !s.givesWayTo k x) ++ m :: s.outbox.dropWhile fun x => !s.givesWayTo k x }

/-- Take a message out of the outbox: none where it was not sent. -/
def takeMsg (s : State) (m : Msg) : Option State :=
  if s.outbox.contains m then some { s with outbox := s.outbox.erase m } else none

/-- A fresh serial number. -/
def fresh (s : State) : State := { s with serial := s.serial + 1 }

/-- Advance the counter of free draws. -/
def draw (s : State) : State := { s with free := s.free + 1 }

end State

/-- The outcome type of every meaning. -/
abbrev Out := Host.Outcome State Fault Refusal

/-- A command's meaning on a cell: a fault where the cell does not exist. -/
def onCell (c : Nat) (s : State) (f : State → State) : Out :=
  if c < cellCount then .next (f s) else .fault (.noSuchCell c)

/-- R507: a unit acts only while the rails are up. -/
def whenPowered (s : State) (f : State → State) : State := if s.power.rails then f s else s

/-- A command's meaning on a port. -/
def onPort (p : Nat) (s : State) (f : State → State) : Out :=
  if p < 48 then .next (f s) else .fault (.noSuchPort p)

/-- A command's meaning on a sync object. -/
def onObj (i : Nat) (s : State) (f : State → State) : Out :=
  if i < 131072 then .next (f s) else .fault (.noSuchObject i)

/-- A command's meaning on a context. -/
def onCtx (c : Nat) (s : State) (f : State → State) : Out :=
  if c < 1024 then .next (f s) else .fault (.noSuchContext c)

/-- A command's meaning on a stack. -/
def onStack (k : Nat) (s : State) (f : State → State) : Out :=
  if k < 12 then .next (f s) else .fault (.noSuchStack k)

/-- A command's meaning on a ring pair. Past the last ring block BAR0 has no registers, and a write is ignored (R431). -/
def onRing (n : Nat) (s : State) (f : State → State) : Out := .next (if n < 1026 then f s else s)

/-- A command's meaning on a Tannery stream. -/
def onStream (n : Nat) (s : State) (f : State → State) : Out :=
  if n < 64 then .next (f s) else .fault (.noSuchStream n)

/-- A command's meaning on a cluster. -/
def onCluster (k : Nat) (s : State) (f : State → State) : Out :=
  if k < 128 then .next (f s) else .fault (.noSuchCluster k)

end Sys2Proof.Machine
end

