-- ==== Sys2Proof/Machine/Events.lean ====
section
/-! DEFINITION. The event log (R504, R559, R560). -/
namespace Sys2Proof.Machine

/-- R560: what a record is about. -/
inductive EventCode where
  | boot
  | fence
  | unfence
  | watchdog
  | uncorrectable
  | selfTestFail
  | cellUnmapped
  | stitchLost
  | stitchRegained
  | portFailed
  | residueFault
  | stepAborted
  | memberExcluded
  | stackLevel3
  | safeTrip
  | powerOverCap
  | streamFailed
  | scrubWriteFail
  | jobEndFault
  | debugUnlock
  deriving DecidableEq, Repr

namespace EventCode

/-- R560: the code. -/
def code : EventCode → Nat
  | boot => 0x0001
  | fence => 0x0010
  | unfence => 0x0011
  | watchdog => 0x0020
  | uncorrectable => 0x0030
  | selfTestFail => 0x0031
  | cellUnmapped => 0x0032
  | stitchLost => 0x0040
  | stitchRegained => 0x0041
  | portFailed => 0x0050
  | residueFault => 0x0060
  | stepAborted => 0x0061
  | memberExcluded => 0x0062
  | stackLevel3 => 0x0070
  | safeTrip => 0x0071
  | powerOverCap => 0x0072
  | streamFailed => 0x0080
  | scrubWriteFail => 0x0090
  | jobEndFault => 0x00A0
  | debugUnlock => 0x00B0

/-- R559 SEVERITY. The table of R560 gives none; DEDUCED (log 61) from the names of the five. -/
def severity : EventCode → Nat
  | boot | unfence | stitchRegained | debugUnlock | powerOverCap => 0
  | jobEndFault => 3
  | _ => 2

end EventCode

/-- R559 SOURCE_KIND: a module. -/
def srcModule : Nat := 0
/-- A cell. -/
def srcCell : Nat := 1
/-- A block. -/
def srcBlock : Nat := 2
/-- A stack channel. -/
def srcChannel : Nat := 3
/-- A port. -/
def srcPort : Nat := 4
/-- A processor. -/
def srcProcessor : Nat := 5
/-- A Tannery stream. -/
def srcStream : Nat := 6
/-- A physical cell. -/
def srcPhys : Nat := 7

/-- R545, R559: the stitch of an event; 0 outside a job, which has ended when the scrub runs (R393). -/
def State.eventStitch (s : State) : Nat :=
  if s.job.state = .idle ∨ s.job.state = .scrubbing then 0 else s.stitch.count % 2 ^ 64

/-- R559: the record with number n. -/
def eventRecord (s : State) (n : Nat) (e : EventCode) (kind source d0 d1 : Nat) : Nat :=
  n % 2 ^ 16 + e.code * 2 ^ 16 + e.severity * 2 ^ 32 + kind * 2 ^ 40 + source % 2 ^ 16 * 2 ^ 48 +
    d0 % 2 ^ 64 * 2 ^ 64 + d1 % 2 ^ 64 * 2 ^ 128 + s.eventStitch * 2 ^ 192

/-- R504: write the next record of the log. -/
def logEvent (s : State) (e : EventCode) (kind source d0 d1 : Nat) : State :=
  let n := s.odGet 0x8090 0
  let r := eventRecord s n e kind source d0 d1
  let s := if 4096 ≤ n ∧ s.odGet 0x8090 1 ≤ n - 4096 then s.odAdd 0x8090 2 1 else s
  (s.odSet (0xA000 + n % 4096) 0 r).odAdd 0x8090 0 1

end Sys2Proof.Machine
end

