-- ==== Sys2Proof/Machine/Desc.lean ====
section
/-! DEFINITION. The fields of the cell descriptors (R123, R124, R134, R135, R155, R165, R173, R184,
R204, R213, R223, R281, R287, R288), each bit range as the spec's field maps give it. -/
namespace Sys2Proof.Machine

/-- Reserved bit ranges of each descriptor (R7). -/
def rsvOf (op : Nat) : List (Nat × Nat) :=
  match op with
  | 0x01 => [(511, 256), (255, 224), (191, 178), (127, 106), (31, 30)]
  | 0x10 => [(1023, 992), (703, 682), (639, 618), (575, 554), (511, 490), (447, 426), (383, 362),
      (319, 298), (255, 234), (191, 170), (95, 82), (63, 53)]
  | 0x11 | 0x12 | 0x16 => [(1023, 890), (159, 146), (79, 78)]
  | 0x13 | 0x14 => [(1023, 512), (383, 362), (319, 298), (191, 185), (95, 82), (31, 27)]
  | 0x15 => [(1023, 992), (991, 960), (863, 832), (703, 682), (681, 640), (639, 618), (617, 576),
      (575, 554), (553, 512), (511, 490), (447, 426), (383, 362), (319, 298), (297, 270), (255, 234),
      (191, 170), (95, 82), (63, 53), (52, 49), (41, 38), (19, 16)]
  | 0x17 => [(1023, 890), (563, 536), (159, 146), (79, 78)]
  | 0x20 | 0x21 => [(831, 810), (767, 746), (703, 682), (639, 618), (383, 362), (319, 298), (255, 51), (41, 40)]
  | 0x22 => [(1023, 1002), (959, 938), (895, 874), (831, 810), (767, 746), (703, 682), (639, 618),
      (575, 554), (159, 128), (95, 40)]
  | 0x30 | 0x31 | 0x32 | 0x33 | 0x34 | 0x35 => [(1023, 914), (895, 874), (831, 810), (767, 746),
      (703, 682), (639, 618), (575, 448), (95, 80), (63, 54)]
  | 0x40 => [(1023, 737), (671, 650), (607, 586), (543, 528), (511, 497), (479, 465), (255, 234),
      (191, 170), (27, 26)]
  | 0x41 => [(511, 31)]
  | 0x42 => [(511, 288), (255, 234), (191, 170), (127, 106), (63, 16)]
  | 0x50 => [(511, 160), (63, 50), (31, 28), (15, 10)]
  | 0x51 => [(511, 192), (127, 74), (31, 31)]
  | _ => []

/-- R122: how many slots a descriptor takes; none for an opcode not assigned. -/
def slotsOf (op : Nat) : Option Nat :=
  match op with
  | 0x01 => some 1
  | 0x10 | 0x11 | 0x12 | 0x13 | 0x14 | 0x15 | 0x16 | 0x17 => some 2
  | 0x20 | 0x21 | 0x22 => some 2
  | 0x30 | 0x31 | 0x32 | 0x33 | 0x34 | 0x35 => some 2
  | 0x40 => some 2
  | 0x41 | 0x42 | 0x51 => some 1
  | 0x50 => some 4
  | _ => none

/-- The units of a cell that run descriptors (R159); each stream queue is one (R275). -/
inductive CellUnit where
  | array
  | vector
  | skiver
  | stream (q : Nat)
  | stem
  | harness
  | none
  deriving DecidableEq, Repr

/-- The unit a descriptor goes to (R159). -/
def unitOf (w : Nat) : CellUnit :=
  match fld w 7 0 with
  | 0x10 | 0x11 | 0x12 | 0x15 | 0x16 | 0x17 => .array
  | 0x13 | 0x14 => .stem
  | 0x20 | 0x21 | 0x22 => .vector
  | 0x30 | 0x31 | 0x32 | 0x33 | 0x34 | 0x35 => .skiver
  | 0x40 | 0x42 => .stream (fld w 11 8)
  | 0x51 => .harness
  | _ => .none

/-! ## The piece descriptor (R123) -/

/-- SLACK. -/
def pdSlack (d : Nat) : Nat := fld d 223 192
/-- TILE_CTR_EN. -/
def pdTileEn (d : Nat) : Bool := bit d 177
/-- TILE_CTR. -/
def pdTileCtr (d : Nat) : Nat := fld d 176 160
/-- PIECE_ID. -/
def pdId (d : Nat) : Nat := fld d 159 128
/-- LIST_ADDR. -/
def pdList (d : Nat) : Nat := fld d 105 64
/-- BUDGET. -/
def pdBudget (d : Nat) : Nat := fld d 63 32
/-- LIST_LEN. -/
def pdLen (d : Nat) : Nat := fld d 29 18
/-- CONTEXT. -/
def pdCtx (d : Nat) : Nat := fld d 17 8

/-! ## Array descriptors -/

/-- The geometry of the convolution forms (R204). -/
structure ConvGeo where
  nImg : Nat
  ow : Nat
  oh : Nat
  cOut : Nat
  cIn : Nat
  w : Nat
  h : Nat
  padR : Nat
  padL : Nat
  padB : Nat
  padT : Nat
  idw : Nat
  idh : Nat
  dw : Nat
  dh : Nat
  sw : Nat
  sh : Nat
  kw : Nat
  kh : Nat
  nhwc : Bool
  d2s : Nat
  poolOp : Nat
  group : Nat
  kc : Nat
  kc0 : Nat
  p0 : Nat
  co0 : Nat
  ldw : Nat
  deriving DecidableEq, Repr

/-- The fields of an array descriptor, common names for R124, R204 and R223. -/
structure TileD where
  op : Nat
  fmtA : Nat
  fmtB : Nat
  fmtC : Nat
  fmtP : Nat
  numctl : Nat
  transA : Bool
  transB : Bool
  preKind : Nat
  chainIn : Bool
  drain : Bool
  image : Bool
  rowstat : Nat
  rowMerge : Bool
  group : Nat
  chainLen : Nat
  m : Nat
  n : Nat
  k : Nat
  outScale : F32
  seed : Nat
  idxBase : Nat
  idxRow : Nat
  aAddr : Nat
  bAddr : Nat
  cAddr : Nat
  preAddr : Nat
  aScale : Nat
  bScale : Nat
  cScale : Nat
  statAddr : Nat
  chainAddr : Nat
  lda : Nat
  ldb : Nat
  ldc : Nat
  ldp : Nat
  /-- Gradient forms (R223, R226). -/
  gmap : Nat
  elemOff : Nat
  ldg : Nat
  geo : ConvGeo
  deriving DecidableEq, Repr

/-- The geometry fields of R204. -/
def ConvGeo.ofWord (w : Nat) : ConvGeo :=
  { nImg := fld w 271 256, ow := fld w 255 240, oh := fld w 239 224, cOut := fld w 223 208, cIn := fld w 207 192,
    w := fld w 191 176, h := fld w 175 160, padR := fld w 145 138, padL := fld w 137 130, padB := fld w 129 122,
    padT := fld w 121 114, idw := fld w 113 110 + 1, idh := fld w 109 106 + 1, dw := fld w 105 102 + 1,
    dh := fld w 101 98 + 1, sw := fld w 97 94 + 1, sh := fld w 93 90 + 1, kw := fld w 89 85 + 1,
    kh := fld w 84 80 + 1, nhwc := bit w 77, d2s := fld w 76 75, poolOp := fld w 55 54, group := fld w 53 51,
    kc := fld w 383 352, kc0 := fld w 351 320, p0 := fld w 319 288, co0 := fld w 287 272, ldw := fld w 889 858 }

/-- The fields of MATRIX (R124) and WGRAD (R223). -/
def TileD.ofMatrix (w : Nat) : TileD :=
  let grad := fld w 7 0 == 0x15
  { op := fld w 7 0, fmtA := fld w 11 8, fmtB := fld w 15 12, fmtC := fld w 19 16, fmtP := fld w 23 20,
    numctl := fld w 31 24, transA := bit w 32, transB := bit w 33, preKind := fld w 35 34, chainIn := bit w 36,
    drain := bit w 37, image := !grad && bit w 38, rowstat := if grad then 0 else fld w 40 39,
    rowMerge := bit w 41, group := fld w 48 42, chainLen := if grad then 0 else fld w 52 49, m := fld w 72 64,
    n := fld w 81 73, k := fld w 127 96, outScale := BitVec.ofNat 32 (fld w 895 864), seed := fld w 863 832,
    idxBase := fld w 959 896, idxRow := fld w 991 960, aAddr := fld w 169 128, bAddr := fld w 233 192,
    cAddr := fld w 297 256, preAddr := fld w 361 320, aScale := fld w 425 384, bScale := fld w 489 448,
    cScale := fld w 553 512, statAddr := fld w 617 576, chainAddr := fld w 681 640, lda := fld w 735 704,
    ldb := fld w 767 736, ldc := fld w 799 768, ldp := fld w 831 800, gmap := fld w 269 256,
    elemOff := fld w 959 896, ldg := fld w 799 768, geo := ConvGeo.ofWord 0 }

/-- The fields of the convolution forms (R204, R225, R226). -/
def TileD.ofConv (w : Nat) : TileD :=
  { op := fld w 7 0, fmtA := fld w 11 8, fmtB := fld w 15 12, fmtC := fld w 19 16, fmtP := fld w 23 20,
    numctl := fld w 31 24, transA := false, transB := bit w 32, preKind := fld w 34 33, chainIn := bit w 35,
    drain := bit w 36, image := bit w 74, rowstat := fld w 38 37, rowMerge := bit w 39, group := fld w 46 40,
    chainLen := fld w 50 47, m := fld w 64 56, n := fld w 73 65, k := 32 * fld w 383 352,
    outScale := BitVec.ofNat 32 (fld w 415 384), seed := fld w 447 416, idxBase := fld w 479 448, idxRow := 0,
    aAddr := fld w 521 480, bAddr := fld w 563 522, cAddr := fld w 605 564, preAddr := fld w 647 606,
    aScale := fld w 773 732, bScale := fld w 815 774, cScale := fld w 857 816, statAddr := fld w 731 690,
    chainAddr := fld w 689 648, lda := 0, ldb := fld w 889 858, ldc := 0, ldp := 0, gmap := fld w 535 522,
    elemOff := 0, ldg := 0, geo := ConvGeo.ofWord w }

/-- The fields of any array descriptor. -/
def TileD.ofWord (w : Nat) : TileD :=
  match fld w 7 0 with
  | 0x10 | 0x15 => TileD.ofMatrix w
  | _ => TileD.ofConv w

namespace TileD

/-- Is this one of the convolution forms? -/
def isConv (d : TileD) : Bool := decide (d.op ≠ 0x10 ∧ d.op ≠ 0x15)

/-- Is this a weight-gradient form (R222)? -/
def isGrad (d : TileD) : Bool := decide (d.op = 0x15 ∨ d.op = 0x17)

/-- The accumulator format, plain where NUMCTL does not decode. -/
def acc (d : TileD) : Acc := (Numctl.ofNat d.numctl).elim .plain (·.acc)

/-- The numeric control. -/
def ctl (d : TileD) : Numctl := (Numctl.ofNat d.numctl).getD Numctl.plainRne

/-- N_pad (R98). -/
def nPad (d : TileD) : Nat := roundUp d.n 32

/-- M_pad (R98). -/
def mPad (d : TileD) : Nat := roundUp d.m 8

/-- R105: groups of the span. -/
def groups (d : TileD) : Nat := d.mPad * d.nPad * (if d.acc = .lined then 2 else 1) / 256

end TileD

/-! ## Other descriptors -/

/-- One source of the vector engine (R163, R165). -/
structure VecSrc where
  fmt : Nat
  addr : Nat
  ld : Nat
  cb : Bool
  imm : Option F32
  deriving DecidableEq, Repr

/-- The fields of a map or reduction (R165). -/
structure VecD where
  op : Nat
  code : Nat
  numctl : Nat
  fmtD : Nat
  s0 : VecSrc
  s1 : VecSrc
  s2 : VecSrc
  s0Scale : Nat
  dScale : Nat
  dAddr : Nat
  ldd : Nat
  rows : Nat
  cols : Nat
  seed : Nat
  idxBase : Nat
  idxRow : Nat
  accum : Bool
  axis : Nat
  outLined : Bool
  deriving DecidableEq, Repr

/-- R165. -/
def VecD.ofWord (w : Nat) : VecD :=
  { op := fld w 7 0, code := fld w 39 32, numctl := fld w 15 8, fmtD := fld w 31 28,
    s0 := { fmt := fld w 19 16, addr := fld w 617 576, ld := fld w 863 832, cb := bit w 42, imm := none },
    s1 := { fmt := fld w 23 20, addr := fld w 681 640, ld := fld w 895 864, cb := bit w 43,
            imm := if bit w 45 then some (BitVec.ofNat 32 (fld w 991 960)) else none },
    s2 := { fmt := fld w 27 24, addr := fld w 745 704, ld := fld w 927 896, cb := bit w 44,
            imm := if bit w 46 then some (BitVec.ofNat 32 (fld w 1023 992)) else none },
    s0Scale := fld w 297 256, dScale := fld w 361 320, dAddr := fld w 809 768, ldd := fld w 959 928,
    rows := fld w 415 384, cols := fld w 447 416, seed := fld w 479 448, idxBase := fld w 575 512,
    idxRow := fld w 511 480, accum := bit w 50, axis := fld w 49 48, outLined := bit w 47 }

/-- The fields of an optimizer update (R173). -/
structure UpdD where
  algo : Nat
  numctl : Nat
  fmtMV : Nat
  fmtC : Nat
  cEn : Bool
  normEn : Bool
  tag : Nat
  len : Nat
  seed : Nat
  lr : F32
  beta1 : F32
  beta2 : F32
  eps : F32
  wd : F32
  gscale : F32
  c1 : F32
  c2 : F32
  idxBase : Nat
  g : Nat
  w : Nat
  m : Nat
  v : Nat
  wOut : Nat
  mOut : Nat
  vOut : Nat
  c : Nat
  deriving DecidableEq, Repr

/-- R173. -/
def UpdD.ofWord (x : Nat) : UpdD :=
  let f32 (hi lo : Nat) : F32 := BitVec.ofNat 32 (fld x hi lo)
  { algo := fld x 17 16, numctl := fld x 15 8, fmtMV := fld x 21 18, fmtC := fld x 25 22, cEn := bit x 26,
    normEn := bit x 27, tag := fld x 39 28, len := fld x 127 96, seed := fld x 191 160, lr := f32 223 192,
    beta1 := f32 255 224, beta2 := f32 287 256, eps := f32 319 288, wd := f32 351 320, gscale := f32 383 352,
    c1 := f32 415 384, c2 := f32 447 416, idxBase := fld x 511 448, g := fld x 553 512, w := fld x 617 576,
    m := fld x 681 640, v := fld x 745 704, wOut := fld x 809 768, mOut := fld x 873 832, vOut := fld x 937 896,
    c := fld x 1001 960 }

/-- The fields of a Skiver descriptor (R184). -/
structure SkD where
  op : Nat
  numctl : Nat
  fmtX : Nat
  fmtOut : Nat
  fmtG : Nat
  fmtP : Nat
  mode : Nat
  statSrc : Nat
  statSave : Bool
  sideWrite : Bool
  ySrc : Bool
  weltEn : Bool
  affine : Nat
  sideRow : Nat
  tag : Nat
  param : F32
  rows : Nat
  cols : Nat
  causal : Int
  seed : Nat
  idxBase : Nat
  idxRow : Nat
  ldx : Nat
  ldg : Nat
  ldo : Nat
  x : Nat
  g : Nat
  out : Nat
  p : Nat
  stat : Nat
  weltOff : Nat
  deriving DecidableEq, Repr

/-- R184. -/
def SkD.ofWord (w : Nat) : SkD :=
  { op := fld w 7 0, numctl := fld w 15 8, fmtX := fld w 19 16, fmtOut := fld w 23 20, fmtG := fld w 27 24,
    fmtP := fld w 31 28, mode := fld w 33 32, statSrc := fld w 35 34, statSave := bit w 36, sideWrite := bit w 37,
    ySrc := bit w 38, weltEn := bit w 39, affine := fld w 41 40, sideRow := fld w 53 42, tag := fld w 79 64,
    param := BitVec.ofNat 32 (fld w 127 96), rows := fld w 159 128, cols := fld w 191 160, causal := sfld w 223 192,
    seed := fld w 255 224, idxBase := fld w 319 256, idxRow := fld w 351 320, ldx := fld w 383 352,
    ldg := fld w 415 384, ldo := fld w 447 416, x := fld w 617 576, g := fld w 681 640, out := fld w 745 704,
    p := fld w 809 768, stat := fld w 873 832, weltOff := fld w 913 896 }

/-- The fields of a stem descriptor (R213). -/
structure StemD where
  op : Nat
  fmtS : Nat
  fmtD : Nat
  numctl : Nat
  cs : Nat
  kh : Nat
  kw : Nat
  sh : Nat
  sw : Nat
  pt : Nat
  pb : Nat
  pl : Nat
  pr : Nat
  h : Nat
  w : Nat
  oh : Nat
  ow : Nat
  nImg : Nat
  m : Nat
  p0 : Nat
  seed : Nat
  src : Nat
  dst : Nat
  ldRow : Nat
  ldImg : Nat
  idxBase : Nat
  deriving DecidableEq, Repr

/-- R213. -/
def StemD.ofWord (w : Nat) : StemD :=
  { op := fld w 7 0, fmtS := fld w 11 8, fmtD := fld w 15 12, numctl := fld w 23 16, cs := fld w 26 24 + 1,
    kh := fld w 36 32 + 1, kw := fld w 41 37 + 1, sh := fld w 45 42 + 1, sw := fld w 49 46 + 1, pt := fld w 57 50,
    pb := fld w 65 58, pl := fld w 73 66, pr := fld w 81 74, h := fld w 111 96, w := fld w 127 112,
    oh := fld w 143 128, ow := fld w 159 144, nImg := fld w 175 160, m := fld w 184 176, p0 := fld w 223 192,
    seed := fld w 255 224, src := fld w 297 256, dst := fld w 361 320, ldRow := fld w 415 384,
    ldImg := fld w 447 416, idxBase := fld w 511 448 }

/-- The fields of MOVE (R281). -/
structure MoveD where
  queue : Nat
  esize : Nat
  xform : Nat
  form : Nat
  bs : Nat
  persist : Bool
  waitEn : Bool
  tannery : Bool
  sigEn : Bool
  fmtS : Nat
  rows : Nat
  cols : Nat
  planes : Nat
  src : Nat
  dst : Nat
  srcLd : Nat
  dstLd : Nat
  srcPd : Nat
  dstPd : Nat
  scale : F32
  waitValue : Nat
  waitObj : Nat
  sigObj : Nat
  sigAdd : Nat
  srcScale : Nat
  dstScale : Nat
  rgC : Nat
  rgH : Nat
  rgW : Nat
  rgN : Nat
  rgInter : Bool
  deriving DecidableEq, Repr

/-- R281. -/
def MoveD.ofWord (w : Nat) : MoveD :=
  { queue := fld w 11 8, esize := 2 ^ fld w 13 12, xform := fld w 16 14, form := fld w 19 17, bs := fld w 21 20,
    persist := bit w 22, waitEn := bit w 23, tannery := bit w 24, sigEn := bit w 25, fmtS := fld w 31 28,
    rows := fld w 63 32, cols := fld w 95 64, planes := fld w 127 96, src := fld w 169 128, dst := fld w 233 192,
    srcLd := fld w 287 256, dstLd := fld w 319 288, srcPd := fld w 351 320, dstPd := fld w 383 352,
    scale := BitVec.ofNat 32 (fld w 415 384), waitValue := fld w 447 416, waitObj := fld w 464 448,
    sigObj := fld w 496 480, sigAdd := fld w 527 512, srcScale := fld w 585 544, dstScale := fld w 649 608,
    rgC := fld w 687 672, rgH := fld w 703 688, rgW := fld w 719 704, rgN := fld w 735 720, rgInter := bit w 736 }

/-- R289: the MOVE that a REARM makes of an armed stream's word. -/
def rearmWord (move r : Nat) : Nat :=
  let m := if bit r 12 then setFld move 169 128 (fld r 105 64) else move
  let m := if bit r 13 then setFld m 233 192 (fld r 169 128) else m
  let m := if bit r 14 then
      (match fld m 16 14 with
       | 2 => setFld m 585 544 (fld r 233 192)
       | 1 => setFld m 649 608 (fld r 233 192)
       | _ => m)
    else m
  if bit r 15 then setFld m 447 416 (fld r 287 256) else m

/-! ## GRID (R134, R135) -/

/-- A patch entry. -/
structure Patch where
  kind : Nat
  slot : Nat
  bitPos : Nat
  width : Nat
  cm : Int
  cn : Int
  cb : Int
  rsv : Nat
  deriving DecidableEq, Repr

/-- R135. -/
def Patch.ofWord (w : Nat) : Patch :=
  { kind := fld w 1 0, slot := fld w 15 8, bitPos := fld w 25 16, width := fld w 31 26 + 1, cm := sfld w 63 32,
    cn := sfld w 95 64, cb := sfld w 127 96, rsv := fld w 7 2 }

/-- The GRID descriptor. -/
structure GridD where
  order : Nat
  panel : Nat
  tileM : Nat
  tileN : Nat
  mTotal : Nat
  nTotal : Nat
  gb : Nat
  patches : List Patch
  deriving DecidableEq, Repr

/-- R134: four slots as one number. -/
def GridD.ofWord (w : Nat) : GridD :=
  { order := fld w 9 8, panel := fld w 23 16, tileM := fld w 40 32, tileN := fld w 49 41, mTotal := fld w 95 64,
    nTotal := fld w 127 96, gb := fld w 159 128,
    patches := (List.range (min 12 (fld w 27 24))).map fun p => Patch.ofWord (fld w (512 + 128 * p + 127) (512 + 128 * p)) }

namespace GridD

/-- Tile rows. -/
def gm (g : GridD) : Nat := ceilDiv g.mTotal g.tileM
/-- Tile columns. -/
def gn (g : GridD) : Nat := ceilDiv g.nTotal g.tileN
/-- Tile indices in all. -/
def total (g : GridD) : Nat := g.gm * g.gn * g.gb

/-- R136: the coordinates (tm, tn, tb) of an index. -/
def coords (g : GridD) (i : Nat) : Nat × Nat × Nat :=
  let tb := i / (g.gm * g.gn)
  let r := i % (g.gm * g.gn)
  match g.order with
  | 0 => (r / g.gn, r % g.gn, tb)
  | 1 => (r % g.gm, r / g.gm, tb)
  | _ =>
    let p := r / (g.panel * g.gn)
    let q := r % (g.panel * g.gn)
    let h := min g.panel (g.gm - p * g.panel)
    (p * g.panel + q % h, q / h, tb)

end GridD

/-- R137: one patch on the whole list, held as one number with slot 0 lowest. -/
def Patch.apply (g : GridD) (t : Nat × Nat × Nat) (list : Nat) (p : Patch) : Nat :=
  let lo := 512 * p.slot + p.bitPos
  let hi := lo + p.width - 1
  match p.kind with
  | 0 =>
    let v : Int := (fld list hi lo : Int) + t.1 * p.cm + t.2.1 * p.cn + t.2.2 * p.cb
    setFld list hi lo (v % (2 ^ p.width)).toNat
  | 1 => setFld list hi lo (min g.tileM (g.mTotal - t.1 * g.tileM))
  | 2 => setFld list hi lo (min g.tileN (g.nTotal - t.2.1 * g.tileN))
  | _ => list

/-- A list of slots as one number. -/
def joinSlots : List Nat → Nat
  | [] => 0
  | w :: ws => w + 2 ^ 512 * joinSlots ws

/-- One number as n slots. -/
def splitSlots : Nat → Nat → List Nat
  | 0, _ => []
  | n + 1, v => v % 2 ^ 512 :: splitSlots n (v / 2 ^ 512)

/-! ## Chain entries (R155) -/

/-- One element-wise chain operation. -/
structure ChainOp where
  op : Nat
  src : Nat
  fmt : Nat
  addr : Nat
  ld : Nat
  imm : F32
  rsv : Nat
  deriving DecidableEq, Repr

/-- R155. -/
def ChainOp.ofWord (w : Nat) : ChainOp :=
  { op := fld w 7 0, src := fld w 17 15, fmt := fld w 21 18, addr := fld w 63 22, ld := fld w 95 64,
    imm := BitVec.ofNat 32 (fld w 127 96), rsv := fld w 14 8 }

end Sys2Proof.Machine
end

