-- ==== Sys2Proof/Machine/Memory.lean ====
section
/-! DEFINITION. The address map: regions, placement, home slices, the SLM partition, the journal (R9,
R301 to R311, R463). -/
namespace Sys2Proof.Machine

/-- A region descriptor (R304). -/
structure Region where
  baseGib : Nat
  sizeGib : Nat
  chMib : Nat
  channel : Nat
  stack : Nat
  die : Nat
  interleave : Nat
  cache : Nat
  deriving DecidableEq, Repr

/-- R304. -/
def Region.ofWord (w : Nat) : Region :=
  { baseGib := fld w 63 54, sizeGib := fld w 53 44, chMib := fld w 43 34, channel := fld w 33 27,
    stack := fld w 26 23, die := fld w 22 21, interleave := fld w 18 16, cache := fld w 15 14 }

namespace Region

/-- R303: the one implicit region of a job with no region table. -/
def implicit : Region :=
  { baseGib := 0, sizeGib := 768, chMib := 0, channel := 0, stack := 0, die := 0, interleave := 0, cache := 0 }

/-- First address. -/
def base (r : Region) : Nat := r.baseGib * 2 ^ 30

/-- Bytes of the backed part (R308). -/
def backed (r : Region) : Nat := if r.interleave = 3 then r.chMib * 2 ^ 20 else r.sizeGib * 2 ^ 30

/-- Channels the region spreads over (R306). -/
def channels (r : Region) : Nat :=
  match r.interleave with
  | 0 => 1536
  | 1 => 384
  | 2 => 128
  | _ => 1

/-- Lines it takes on each of its channels (R306). -/
def lines (r : Region) : Nat :=
  if r.interleave = 3 then r.chMib * 4096 else ceilDiv (r.sizeGib * 4194304) r.channels

/-- Does it use a channel? -/
def uses (r : Region) (st ch : Nat) : Bool :=
  match r.interleave with
  | 0 => true
  | 1 => decide (st / 3 = r.die)
  | 2 => decide (st = r.stack)
  | _ => decide (st = r.stack ∧ ch = r.channel)

/-- R305: one descriptor obeys its codes and ranges. -/
def wordOk (w : Nat) : Bool :=
  let r := ofWord w
  rsvClear w [(127, 64), (20, 19), (13, 0)] && decide (r.interleave ≤ 3 ∧ r.cache ≤ 2) && decide (1 ≤ r.sizeGib) &&
    decide (r.baseGib + r.sizeGib ≤ 768) && (decide (r.interleave < 2) || decide (r.stack ≤ 11)) &&
    (r.interleave != 3 || decide (r.sizeGib = 1 ∧ 1 ≤ r.chMib ∧ r.chMib ≤ 512))

end Region

namespace State

/-- The regions in force, in ascending base (R303, R306). -/
def regions (s : State) : List Region :=
  match s.job.regions with
  | [] => [Region.implicit]
  | ws => sortBy (ws.map Region.ofWord) fun a b => decide (a.baseGib ≤ b.baseGib)

/-- R306: first line of a region on a channel: the lines of the regions placed before it. -/
def cbase (rs : List Region) (r : Region) (st ch : Nat) : Nat :=
  ((rs.filter fun x => decide (x.baseGib < r.baseGib) && x.uses st ch).map Region.lines).sum

/-- R305, R306: does the placement overflow a channel? -/
def placementOk (rs : List Region) : Bool :=
  (List.range 12).all fun st => (List.range 128).all fun ch =>
    decide (((rs.filter fun x => x.uses st ch).map Region.lines).sum ≤ 2097152)

/-- The region whose backed part holds a stack address. -/
def regionAt (s : State) (a : Nat) : Option Region :=
  s.regions.find? fun r => decide (r.base ≤ a ∧ a < r.base + r.backed)

/-- R307: stack, channel and channel-local address of a stack address. -/
def place (s : State) (a : Nat) : Option (Nat × Nat × Nat) :=
  (s.regionAt a).map fun r =>
    let o := a - r.base
    let q := o / 256
    let p : Nat × Nat × Nat :=
      match r.interleave with
      | 0 => (q % 12, q / 12 % 128, q / 1536)
      | 1 => (3 * r.die + q % 3, q / 3 % 128, q / 384)
      | 2 => (r.stack, q % 128, q / 128)
      | _ => (r.stack, r.channel, q)
    (p.1, p.2.1, 256 * (cbase s.regions r p.1 p.2.1 + p.2.2) + o % 256)

/-- R309: the home slice of a stack address. -/
def homeSlice (s : State) (a : Nat) : Option Nat :=
  (s.place a).map fun p => 32 * (p.1 / 3) + ((p.1 % 3) * 128 + p.2.1) % 32

/-- Take backed runs off a range until it is covered (R308). -/
def coverFrom (s : State) : Nat → Nat → Nat → Bool
  | 0, a, e => decide (e ≤ a)
  | n + 1, a, e =>
    if e ≤ a then true
    else
      match s.regionAt a with
      | none => false
      | some r => coverFrom s n (r.base + r.backed) e

/-- R308: is every byte of a stack range backed? -/
def backed (s : State) (a n : Nat) : Bool := inStack a n && coverFrom s (s.regions.length + 1) a (a + n)

/-- Bytes of the scratchpad area of each slice (R311). -/
def slmArea (s : State) : Nat := (16 - s.odGet 0x3010 0) * 0xA00000

/-- R311: does an SLM range stay in scratchpad areas? -/
def inAreas (s : State) (a n : Nat) : Bool :=
  inSlm a n &&
    (n == 0 ||
      let k0 := (a - slmBase) / sliceBytes
      let k1 := (a + n - 1 - slmBase) / sliceBytes
      decide (s.slmArea = sliceBytes) ||
        (k0 == k1 && decide ((a - slmBase) % sliceBytes + n ≤ s.slmArea)))

/-- R463: the journal's place, from job open until the scrub ends. -/
def journal (s : State) : Nat × Nat :=
  if s.job.state = .idle ∨ s.slmArea < 2 ^ 20 then (0, 0)
  else (slmBase + 127 * sliceBytes + s.slmArea - 2 ^ 20, 2 ^ 20)

/-- Does a range reach into the journal? -/
def meetsJournal (s : State) (a n : Nat) : Bool := rangesMeet a n s.journal.1 s.journal.2

/-- R9, R308, R311, R463: a range of stack memory, SLM or scratchpads that a descriptor may name. -/
def rangeOk (s : State) (a n : Nat) : Bool :=
  s.backed a n || (s.inAreas a n && !s.meetsJournal a n) || inSp a n

end State

/-- R309, R311: the cluster whose home slice, slice or scratchpad holds an address. -/
def homeOf (s : State) (a : Nat) : Option Nat :=
  if a < slmBase then s.homeSlice a
  else if a < spBase then some ((a - slmBase) / sliceBytes)
  else (cellOfAddr a).map clusterOf

/-- R301: the read-only windows a stream may load from. -/
def inWindows (a n : Nat) : Bool :=
  decide (0x30100000000 ≤ a ∧ a + n ≤ 0x30100800000) || decide (0x30200000000 ≤ a ∧ a + n ≤ 0x30200080000) ||
    decide (0x30300000000 ≤ a ∧ a + n ≤ 0x30400000000)

end Sys2Proof.Machine
end

