-- ==== Sys2Proof/Machine/Repair.lean ====
section
/-! DEFINITION. Units, failure records and repair (R526, R540 to R545). -/
namespace Sys2Proof.Machine

/-! ## Units (R526, R545) -/

/-- R545: the UNIT of a physical cell of a logical cluster. -/
def cellUnit (cluster p : Nat) : Nat := cluster / 32 * 2 ^ 14 + cluster % 32 * 2 ^ 9 + p * 2 ^ 2

/-- R545: the UNIT of a stack channel. -/
def channelUnit (stack channel : Nat) : Nat := stack * 2 ^ 12 + channel * 2 ^ 5

/-- Is a unit kind one of a cell's? -/
def cellKind (k : Nat) : Bool := decide (1 ≤ k ∧ k ≤ 5)

/-- The key of a failed unit. -/
def failKey (kind unit : Nat) : Nat := (if cellKind kind then 1 else kind) * 65536 + unit

/-- Has a unit failed for good? -/
def unitFailed (s : State) (kind unit : Nat) : Bool := s.flash.failed.contains (failKey kind unit)

/-- Is a physical cell marked unusable? -/
def physBad (s : State) (cluster p : Nat) : Bool := unitFailed s 1 (cellUnit cluster p)

/-- A failure as a test finds it: kind, unit, bank or slice, row, bit (0xFFFF: a whole row, or logic). -/
structure Fail where
  kind : Nat
  unit : Nat
  bank : Nat
  row : Nat
  bit : Nat
  deriving DecidableEq, Repr

/-- A failure from a command's operand. -/
def Fail.ofList (l : List Nat) : Fail :=
  { kind := l.getD 0 0, unit := l.getD 1 0, bank := l.getD 2 0, row := l.getD 3 0, bit := l.getD 4 0 }

/-! ## Records (R545) -/

/-- R545: a failure record. -/
def failRecord (s : State) (f : Fail) (test action lastPass : Nat) (confirmed : Bool) : Nat :=
  (if confirmed then 1 else 0) + action * 2 ^ 8 + test * 2 ^ 16 + f.kind % 256 * 2 ^ 24 + f.unit % 65536 * 2 ^ 32 +
    lastPass % 2 ^ 64 * 2 ^ 64 + f.bank % 65536 * 2 ^ 128 + f.bit % 65536 * 2 ^ 144 + f.row % 2 ^ 32 * 2 ^ 160 +
    s.eventStitch * 2 ^ 192

/-- R560: the source kind and source of a failure's event. -/
def failSource (f : Fail) : Nat × Nat :=
  if cellKind f.kind then (srcPhys, f.unit) else if f.kind = 0x0A then (srcChannel, f.unit) else (srcBlock, f.unit)

/-- R545: keep a failure record, show it, and log it. -/
def keepRecord (s : State) (f : Fail) (word : Nat) : State :=
  let n := s.odGet 0x7023 0
  let s := (s.odSet 0x7024 (n % 64 + 1) word).odAdd 0x7023 0 1
  let s := { s with flash := { s.flash with records := s.flash.records ++ [word] } }
  logEvent s .selfTestFail (failSource f).1 (failSource f).2 (fld word 63 0) (fld word 191 128)

/-- R534: did an earlier test find this failure? Records of the patrol and of traffic are none of a test. -/
def knownFail (s : State) (f : Fail) : Bool :=
  s.flash.records.any fun r =>
    decide (fld r 23 16 ≤ 1 ∧ fld r 31 24 = f.kind % 256 ∧ fld r 47 32 = f.unit % 65536 ∧ fld r 143 128 = f.bank % 65536 ∧
      fld r 159 144 = f.bit % 65536 ∧ fld r 191 160 = f.row % 2 ^ 32)

/-! ## Repair (R540 to R543) -/

/-- R540: spare rows and columns of a bank. -/
def bankSpares (kind : Nat) : Nat × Nat :=
  match kind with
  | 2 => (8, 2)
  | 3 => (8, 2)
  | 4 => (4, 1)
  | 5 => (4, 1)
  | 8 => (16, 4)
  | _ => (0, 0)

/-- R540, R541: banks of a memory, 0 for a unit whose banks the spec does not number. -/
def memBanks (kind : Nat) : Nat :=
  match kind with
  | 2 => 6
  | 3 => 1
  | 4 => 4
  | 5 => 1
  | 8 => 160
  | 0x0A => 16
  | _ => 0

/-- Is a finding one of a unit kind there is, in a bank that its memory has? -/
def Fail.real (f : Fail) : Bool := decide (1 ≤ f.kind ∧ f.kind ≤ 0x0D ∧ (memBanks f.kind = 0 ∨ f.bank < memBanks f.kind))

/-- The bank that holds an offset of a memory: the only one, or as the spec leaves open (Config). -/
def bankAt (kind off : Nat) : Nat :=
  match kind with
  | 3 | 5 => 0
  | 4 => off / 32768
  | _ => Config.bankOf off % memBanks kind

/-- The key of an on-chip bank. -/
def bankKey (f : Fail) : Nat := (f.kind * 65536 + f.unit) * 65536 + f.bank

/-- The channel of a STACK_CHANNEL unit. -/
def channelKey (unit : Nat) : Nat := fld unit 15 12 * 128 + fld unit 11 5

/-- R542: does MBIST find the bit of this failure in 3 or more rows of its bank? A stack channel has no spare columns. -/
def columnFails (all : List Fail) (f : Fail) : Bool :=
  decide (f.bit ≠ 0xFFFF ∧ f.kind ≠ 0x0A ∧ 3 ≤ ((all.filter fun g => decide (g.kind = f.kind ∧ g.unit = f.unit ∧ g.bank = f.bank ∧ g.bit = f.bit)).map
    (·.row)).eraseDups.length)

/-- R526: mark a unit failed. -/
def failUnit (s : State) (kind unit : Nat) : State :=
  if unitFailed s kind unit then s
  else { s with flash := { s.flash with failed := s.flash.failed ++ [failKey kind unit] } }

/-- Use a spare row of an on-chip bank. -/
def useRow (s : State) (k : Nat) : State :=
  { s with flash := { s.flash with bankRows := Sp.set 0 s.flash.bankRows k (Sp.get 0 s.flash.bankRows k + 1) } }

/-- Use a spare column of an on-chip bank. -/
def useCol (s : State) (k : Nat) : State :=
  { s with flash := { s.flash with bankCols := Sp.set 0 s.flash.bankCols k (Sp.get 0 s.flash.bankCols k + 1) } }

/-- Use a spare row of a stack channel. -/
def useSpareRow (s : State) (k : Nat) : State :=
  { s with flash := { s.flash with spareRows := Sp.set 0 s.flash.spareRows k (Sp.get 0 s.flash.spareRows k + 1) } }

/-- R541: make a post-package repair: the PPR row of a bank takes the place of a row. -/
def usePpr (s : State) (bank row : Nat) : State :=
  { s with flash := { s.flash with ppr := insSorted bank s.flash.ppr, pprRows := s.flash.pprRows ++ [(bank, row)] } }

/-- The bank of a STACK_CHANNEL failure, as STACK_PPR numbers it (R546). -/
def pprBank (f : Fail) : Nat := channelKey f.unit * 16 + f.bank % 16

/-- R541: repair a row of a stack channel: with a spare row, else with the PPR row of its bank, which is made in test mode
only; else the channel fails (R526). A row that its bank's PPR row has replaced needs no other repair. -/
def repairRow (s : State) (f : Fail) : State × Nat :=
  if s.flash.pprRows.contains (pprBank f, f.row) then (s, 4)
  else if Sp.get 0 s.flash.spareRows (channelKey f.unit) < 64 then (useSpareRow s (channelKey f.unit), 3)
  else if s.odGet 0x7040 0 = 1 ∧ !s.flash.ppr.contains (pprBank f) then (usePpr s (pprBank f) f.row, 4)
  else (failUnit s f.kind f.unit, 5)

/-- R526, R541, R543: repair a failure or fail its unit: the state and the ACTION of its record. -/
def repair (s : State) (all : List Fail) (f : Fail) : State × Nat :=
  let k := bankKey f
  let rows := Sp.get 0 s.flash.bankRows k < (bankSpares f.kind).1
  let cols := Sp.get 0 s.flash.bankCols k < (bankSpares f.kind).2
  if f.kind = 0x0A then repairRow s f
  else if columnFails all f && cols then (useCol s k, 2)
  else if rows then (useRow s k, 1)
  else if cols then (useCol s k, 2)
  else (failUnit s f.kind f.unit, 5)

/-- The ACTION of an earlier failure of the same list that mends this one too: of its row, or of its column. -/
def mended (done : List (Fail × Nat)) (f : Fail) : Option Nat :=
  (done.find? fun d =>
    decide (d.1.kind = f.kind ∧ d.1.unit = f.unit ∧ d.1.bank = f.bank) &&
      ((d.1.row == f.row && (d.2 == 1 || d.2 == 3 || d.2 == 4)) || (d.1.bit == f.bit && f.bit != 0xFFFF && d.2 == 2))).map (·.2)

/-- R541, R543: repair a failure of a list after those before it: what a repair of them mends needs none of its own. -/
def repairNext (all : List Fail) (a : State × List (Fail × Nat)) (f : Fail) : State × List (Fail × Nat) :=
  match mended a.2 f with
  | some k => (a.1, a.2 ++ [(f, k)])
  | none =>
    let r := repair a.1 all f
    (r.1, a.2 ++ [(f, r.2)])

/-- R526, R545 TEST: LBIST finds the failures of logic, MBIST those of memories. -/
def testOf (f : Fail) : Nat :=
  if f.kind = 1 ∨ f.kind = 7 ∨ f.kind = 9 ∨ f.kind = 0x0B ∨ ((f.kind = 6 ∨ f.kind = 0x0D) ∧ f.bit = 0xFFFF) then 0 else 1

/-- R532, R533: what a test of a level covers: stack channels at level FULL only; link training finds the failures of the
optical engines (R526). -/
def levelFinds (full : Bool) (f : Fail) : Bool := decide (f.kind ≠ 0x0C) && (full || decide (f.kind ≠ 0x0A))

/-- Failures found outside service (R543): each is recorded; the repair is applied at the map rebuild that
follows. -/
def applyFails (s : State) (fs : List Fail) : State :=
  let fs := fs.filter Fail.real
  (fs.foldl (fun (a : State × List (Fail × Nat)) f =>
    let r := repairNext fs a f
    (keepRecord r.1 f (failRecord r.1 f (testOf f) ((r.2.getLast?.map (·.2)).getD 0) 0 true), r.2)) (s, [])).1

/-- R542: list a repair for later. -/
def listRepair (s : State) (f : Fail) (test : Nat) (confirmed : Bool) : State :=
  let word := failRecord s f test 6 0 confirmed
  let s := keepRecord s f word
  { s with flash := { s.flash with pendingRepairs := s.flash.pendingRepairs ++ [word] } }

/-- The number a row is counted under. -/
def rowKey (f : Fail) : Nat := ((f.kind * 65536 + f.unit) * 65536 + f.bank % 65536) * 2 ^ 32 + f.row % 2 ^ 32

/-- R542: is the row of a failure listed already? -/
def rowListed (s : State) (f : Fail) : Bool :=
  s.flash.pendingRepairs.any fun r =>
    decide (fld r 31 24 = f.kind % 256 ∧ fld r 47 32 = f.unit % 65536 ∧ fld r 143 128 = f.bank % 65536 ∧ fld r 191 160 = f.row % 2 ^ 32)

/-- A failure from its record. -/
def Fail.ofRecord (r : Nat) : Fail :=
  { kind := fld r 31 24, unit := fld r 47 32, bank := fld r 143 128, row := fld r 191 160, bit := fld r 159 144 }

/-- R542, R545: keep the records of a failed slice once its outcome is known; the rows of confirmed memory failures are listed
for repair. -/
def settleRecords (s : State) (words : List Nat) (confirmed : Bool) : State :=
  let s := words.foldl (fun s w => keepRecord s (Fail.ofRecord w) (w + (if confirmed then 5 * 2 ^ 8 + 1 else 7 * 2 ^ 8))) s
  let rows := if confirmed then words.filter fun w => (Fail.ofRecord w).kind != 1 else []
  { s with flash := { s.flash with pendingRepairs := s.flash.pendingRepairs ++ rows } }

/-- R543: apply the repairs listed; corrections of a row that is repaired are counted anew. -/
def applyPending (s : State) : State :=
  let fs := s.flash.pendingRepairs.map Fail.ofRecord
  let s := (fs.foldl (repairNext fs) (s, [])).1
  { s with
    flash := { s.flash with pendingRepairs := [] }
    rowCorrections := s.rowCorrections.filter fun e => !(fs.map rowKey).contains e.1 }

end Sys2Proof.Machine
end

