-- ==== Sys2Proof/Machine/Cache.lean ====
section
/-! DEFINITION. The cache partitions of the home slices, and how loads and stores of stack memory pass them (R310, R312, R313,
R320, R321, R325). -/
namespace Sys2Proof.Machine

/-- The cache policy of a stack address: 0 UNCACHED, 1 WRITE_BACK, 2 WRITE_THROUGH. -/
def cachePolicy (s : State) (a : Nat) : Nat :=
  if s.odGet 0x3010 0 = 0 then 0 else ((s.regionAt a).map (·.cache)).getD 0

/-- The set of a stack address in its home slice. -/
def cacheKey (s : State) (a : Nat) : Nat := ((s.homeSlice a).getD 0) * 40960 + a / 256 % 40960

/-- The lines of a set. -/
def cacheSet (s : State) (a : Nat) : List CacheLine := Sp.get [] s.cache (cacheKey s a)

/-- The line of an address, where it is present. -/
def cacheLine (s : State) (a : Nat) : Option CacheLine := (cacheSet s a).find? fun l => l.line == a / 256

/-- Replace the line of an address in its set, its place kept. -/
def putLine (s : State) (a : Nat) (l : CacheLine) : State :=
  { s with cache := Sp.set [] s.cache (cacheKey s a) ((cacheSet s a).map fun x => if x.line = l.line then l else x) }

/-- A sector's data bytes. -/
def sectorData (s : State) (a : Nat) : List Nat := (s.bytes (a / 32 * 32) 32).map (·.toNat)

/-- Write a sector back: data and poison. -/
def putSector (s : State) (a : Nat) (d : List Nat) (poison : Bool) : State :=
  let a := a / 32 * 32
  let s := s.wrBytes a (d.map (BitVec.ofNat 8))
  if poison then s.addPoison a else { s with poison := s.poison.filter (· != a / 32) }

/-- The channel's own word of a sector of a line: what lies beneath the cache's copy, where the two differ. -/
def CacheLine.beneath (l : CacheLine) (k : Nat) : Option Under := l.under.find? fun u => u.sector == k

/-- A line whose channel holds a word of its own in a sector. -/
def CacheLine.setUnder (l : CacheLine) (u : Under) : CacheLine :=
  { l with under := u :: l.under.filter fun x => x.sector != u.sector }

/-- A line whose channel goes on holding what the cache's copy of a sector has held till now: noted where it is not yet. -/
def CacheLine.keepUnder (l : CacheLine) (s : State) (k : Nat) : CacheLine :=
  if (l.beneath k).isSome then l
  else l.setUnder { sector := k, data := sectorData s (l.line * 256 + 32 * k), poison := s.poisonAt (l.line * 256 + 32 * k) }

/-- What becomes of the sectors of an evicted line: a dirty one is written to the channel, in the poison form where it is
poisoned; from then on the others are what the channel holds (R312, R320, R321). -/
def evictLine (s : State) (l : CacheLine) : State :=
  l.under.foldl (fun s u => if bit l.dirty u.sector then s else putSector s (l.line * 256 + 32 * u.sector) u.data u.poison) s

/-- Put a line first in its set: the least recently used line of a full set is evicted. -/
def touchLine (s : State) (a : Nat) (l : CacheLine) : State :=
  let rest := (cacheSet s a).filter fun x => x.line != l.line
  let ways := s.odGet 0x3010 0 - 1
  let s := { s with cache := Sp.set [] s.cache (cacheKey s a) (l :: rest.take ways) }
  (rest.drop ways).foldl evictLine s

/-- The sectors of a line that n bytes from an address reach into, and those they cover, as bit masks. -/
def sectorMask (a n : Nat) (whole : Bool) : Nat :=
  (List.range 8).foldl (fun m k =>
    let lo := a / 256 * 256 + 32 * k
    if (if whole then decide (a ≤ lo ∧ lo + 32 ≤ a + n) else rangesMeet a n lo 32) then m + 2 ^ k else m) 0

/-- Is every sector of a mask set in another? -/
def maskHolds (m k : Nat) : Bool := m &&& k == k

/-- The sectors of a mask that are not in another. -/
def maskLess (m k : Nat) : Nat := m - (m &&& k)

/-- The sectors of the line of an address that the cache partition serves. -/
def cachedMask (s : State) (a : Nat) : Nat := if cachePolicy s a = 0 then 0 else ((cacheLine s a).map (·.valid)).getD 0

/-- Is the whole of a load of one line served from the cache partition? -/
def cacheHit (s : State) (a n : Nat) : Bool :=
  cachePolicy s a != 0 && (cacheLine s a).any fun l => maskHolds l.valid (sectorMask a n false)

/-- R312: the sectors that a load of n bytes of one line reads: a load that misses fetches the whole line, except what the
partition holds of it. -/
def loadMask (s : State) (a n : Nat) : Nat :=
  if cachePolicy s a = 0 ∨ cacheHit s a n then sectorMask a n false
  else sectorMask a n false ||| maskLess 255 (cachedMask s a)

/-- R312, R322: what a load of one line does to the partition: a hit or a miss is counted, and the line is present. -/
def loadLine (s : State) (a n : Nat) : State :=
  if cachePolicy s a = 0 then s
  else
    let l := (cacheLine s a).getD { line := a / 256, valid := 0, dirty := 0, under := [] }
    if cacheHit s a n then touchLine (s.odAdd 0x8053 1 1) a l
    else touchLine (s.odAdd 0x8053 2 1) a { l with valid := 255 }

/-- R313: the sectors of a line that a store of n bytes covers in part, and that are read and merged: of a WRITE_BACK line
those that are not valid in the cache. -/
def mergedSectors (s : State) (a n : Nat) : Nat :=
  let part := maskLess (sectorMask a n false) (sectorMask a n true)
  if cachePolicy s a = 1 then maskLess part (((cacheLine s a).map (·.valid)).getD 0) else part

/-- A sector's bytes with a store's merged in. -/
def mergeBytes (base : Nat) (old : List Nat) (a n : Nat) (val : Nat → Byte) : List Nat :=
  (old.zipIdx).map fun (x, i) => if a ≤ base + i ∧ base + i < a + n then (val (base + i)).toNat else x

/-- R312: the channel's own words under a WRITE_THROUGH line after a store: a sector covered whole is as in the cache, one
covered in part is merged, and stays poisoned where it was (R321). -/
def throughUnder (l : CacheLine) (a n : Nat) (val : Nat → Byte) : List Under :=
  l.under.filterMap fun u =>
    if bit (sectorMask a n true) u.sector then none
    else if bit (sectorMask a n false) u.sector && !u.poison then
      some { u with data := mergeBytes (l.line * 256 + 32 * u.sector) u.data a n val }
    else some u

/-- R312: what a store of n bytes in one line, by their addresses, does to the partition, the memory's own bytes apart. A
WRITE_BACK store leaves the channel as it was. -/
def storeLine (s : State) (a n : Nat) (val : Nat → Byte) : State :=
  let m := sectorMask a n false
  match cachePolicy s a, cacheLine s a with
  | 1, ol =>
    let l := ol.getD { line := a / 256, valid := 0, dirty := 0, under := [] }
    let l := (List.range 8).foldl (fun l k => if bit m k then l.keepUnder s k else l) l
    touchLine s a { l with valid := l.valid ||| m, dirty := l.dirty ||| m }
  | 2, some l => touchLine s a { l with under := throughUnder l a n val }
  | _, _ => s

/-! ## Traffic of the agents (R310) -/

/-- The parts of a run that lie in one line each, of stack memory. -/
def lineParts (r : Nat × Nat) : List (Nat × Nat) :=
  if r.2 = 0 ∨ !inStack r.1 r.2 then []
  else (List.range ((r.1 + r.2 - 1) / 256 - r.1 / 256 + 1)).map fun k =>
    let lo := max r.1 ((r.1 / 256 + k) * 256)
    (lo, min (r.1 + r.2) ((r.1 / 256 + k + 1) * 256) - lo)

/-- Loads of runs pass through their home slices. -/
def sliceLoads (s : State) (rs : List (Nat × Nat)) : State :=
  (rs.flatMap lineParts).foldl (fun s r => loadLine s r.1 r.2) s

/-- A store of n bytes, by their addresses, passes through its home slices. -/
def sliceStore (s : State) (a n : Nat) (val : Nat → Byte) : State :=
  (lineParts (a, n)).foldl (fun s r => storeLine s r.1 r.2 val) s

/-- The bytes of a run by their addresses. -/
def valAt (a : Nat) (bs : List Byte) (x : Nat) : Byte := bs.getD (x - a) 0

/-- Stores of runs pass through their home slices. -/
def sliceStores (s : State) (ws : List (Nat × List Byte)) : State :=
  ws.foldl (fun s w => sliceStore s w.1 w.2.length (valAt w.1 w.2)) s

/-- Does a load of some line of the runs miss in a cache partition (R312)? -/
def anyMiss (s : State) (rs : List (Nat × Nat)) : Bool :=
  (rs.flatMap lineParts).any fun r => cachePolicy s r.1 != 0 && !cacheHit s r.1 r.2

/-- The level of the stack that carries an address (R325). -/
def levelOf (s : State) (a : Nat) : Nat :=
  ((s.place a).map fun p => (Sp.get StackSt.init s.stackSts p.1).level).getD 0

end Sys2Proof.Machine
end

