-- ==== Sys2Proof/Machine/Store.lean ====
section
/-! DEFINITION. Stores to memory: the copies of a snapshot's protected blocks, the bytes and the poison marks (R17, R270, R296,
R297, R310, R406). -/
namespace Sys2Proof.Machine

/-- The byte of a container at which its first unsent flit begins, of a snapshot that goes to a port (R352). -/
def unsentFrom (s : State) (p : Snap) : Nat :=
  match p.sent with
  | none => 0
  | some (port, n, _, _) =>
    (((s.port port).txq.find? fun f => f.vl == 2 && f.op == p.id).map fun f => 480 * f.idx).getD n

/-- R270, R271: has a 64 KiB block of a snapshot's payload been sent: does its last byte lie, in its chunk frame, before the
first flit that waits? -/
def blockSent (s : State) (p : Snap) (b : Nat) : Bool :=
  let last := min p.bytes ((b + 1) * 65536) - 1
  p.sent.isSome && decide (last + 64 * (last / p.chunk + 1) < unsentFrom s p)

/-- R270: the protected 64 KiB blocks of a snapshot that a write of n bytes at a reaches into. -/
def snapBlocks (s : State) (p : Snap) (a n : Nat) : List Nat :=
  (p.runs.flatMap fun r =>
    if rangesMeet r.1 r.2.1 a n then
      let lo := max r.1 a - r.1 + r.2.2
      let hi := min (r.1 + r.2.1) (a + n) - 1 - r.1 + r.2.2
      (List.range (hi / 65536 + 1 - lo / 65536)).map fun k => lo / 65536 + k
    else []).eraseDups.filter fun b => !p.copied.contains b && !blockSent s p b

/-- The runs of a snapshot's source that lie in one of its blocks: source, bytes, place in the payload. -/
def snapRuns (p : Snap) (b : Nat) : List (Nat × Nat × Nat) :=
  p.runs.filterMap fun r =>
    let lo := max r.2.2 (b * 65536)
    let hi := min (r.2.2 + r.2.1) ((b + 1) * 65536)
    if lo < hi then some (r.1 + (lo - r.2.2), hi - lo, lo) else none

/-- The copies that a write asks for: source, destination, bytes. -/
def cowRuns (s : State) (a n : Nat) : List (Nat × Nat × Nat) :=
  s.snaps.flatMap fun p =>
    if p.armed then (snapBlocks s p a n).flatMap fun b => (snapRuns p b).map fun r => (r.1, p.stage + r.2.2, r.2.1) else []

namespace State

/-- Copy bytes with their poison, through the home slices of stack memory (R310). -/
def moveRange (s : State) (src dst n : Nat) : State :=
  (sliceStore (sliceLoads s [(src, n)]) dst n fun x => s.byte (x - dst + src)).copyRange src dst n

/-- R270: copy the protected blocks that a write reaches into to their staging ranges, and count them. -/
def copyOnWrite (s : State) (a n : Nat) : State :=
  s.snaps.foldl (fun s p =>
    if !p.armed then s
    else
      let bs := snapBlocks s p a n
      if bs = [] then s
      else
        let s := bs.foldl (fun s b => (snapRuns p b).foldl (fun s r => s.moveRange r.1 (p.stage + r.2.2) r.2.1) s) s
        let s := s.odAdd 0x8040 0 bs.length
        { s with snaps := s.snaps.map fun q => if q.cmd = p.cmd then { q with copied := q.copied ++ bs } else q }) s

/-- Store a run of bytes, of which the listed addresses are poisoned. -/
def store (s : State) (a : Nat) (bs : List Byte) (bad : List Nat) : State :=
  (((s.copyOnWrite a bs.length).noteWritten a bs.length).wrBytes a bs).markPoison a bs.length bad

/-- Store a run of bytes, all poisoned or none. -/
def storeP (s : State) (a : Nat) (bs : List Byte) (p : Bool) : State :=
  s.store a bs (if p then (List.range bs.length).map (a + ·) else [])

/-- Store a number little-endian. -/
def wr (s : State) (a n v : Nat) (p : Bool) : State := s.storeP a (leBytes n v) p

/-- A store by the module's processors and controllers: through the home slices of stack memory (R310); one that reaches into
the scratchpad of a fenced or unmapped cell is discarded (R17). -/
def reachStore (s : State) (a : Nat) (bs : List Byte) (p : Bool) : State :=
  if s.downIn a bs.length then s else (sliceStores s [(a, bs)]).storeP a bs p

/-- R17: memory as reads of some runs find it: what lies in the scratchpad of a fenced or unmapped cell is poisoned. -/
def reachView (s : State) (rs : List (Nat × Nat)) : State :=
  rs.foldl (fun v r =>
    if s.downIn r.1 r.2 then
      let bs := s.reachBytes r.1 r.2
      (v.wrBytes r.1 (bs.map (·.1))).markPoison r.1 r.2 (((List.range r.2).filter fun i => (bs[i]?).any (·.2)).map (r.1 + ·))
    else v) s

/-- Copy a range that is swapped: a store like any other (R270, R310, R412). -/
def swapRange (s : State) (src dst n : Nat) : State := (s.copyOnWrite dst n).moveRange src dst n

end State

end Sys2Proof.Machine
end

