-- ==== Sys2Proof/Machine/EccRead.lean ====
section
/-! DEFINITION. The home slice: cache partition, error correction and poison of a read (R296, R309, R310, R312, R313, R317 to
R322, R542). -/
namespace Sys2Proof.Machine

/-! ## Error correction (R318 to R322, R542) -/

/-- Where errors of a sector are counted and logged: stack and channel, another memory by its code (R560), the cache partition
of a slice, or a memory of a cell that is not on the address map: its code, and the number of the bank it has (R540). -/
inductive EccPlace where
  | stack (k channel cla : Nat)
  | onChip (code : Nat)
  | cached (slice : Nat)
  | inCell (code cell bank : Nat)
  deriving DecidableEq, Repr

/-- First address of the channel-local addresses of lines that lie in no region (DESIGN CHOICE, log 117): stack × 2^36 +
channel × 2^29 + channel-local address. -/
def channelBase : Nat := 2 ^ 43

/-- The memory that holds a local address. -/
def eccPlace (s : State) (a : Nat) : Option EccPlace :=
  if a < slmBase then (s.place a).map fun p => .stack p.1 p.2.1 p.2.2
  else if a < spBase then some (.onChip 1)
  else if channelBase ≤ a then
    some (.stack ((a - channelBase) / 2 ^ 36) ((a - channelBase) / 2 ^ 29 % 128) ((a - channelBase) % 2 ^ 29))
  else (cellOfAddr a).map fun _ => .onChip 2

/-- R322: count a corrected or an uncorrectable sector, and log the second. -/
def eccCount (s : State) (a : Nat) (bad : Bool) : EccPlace → State
  | .stack k ch cla =>
      let s := s.odAdd (if bad then 0x8051 else 0x8050) (k + 1) 1
      if bad then logEvent s .uncorrectable srcChannel (k * 2 ^ 12 + ch * 2 ^ 5) cla 0 else s
  | .cached _ =>
      let s := s.odAdd 0x8052 (if bad then 2 else 1) 1
      if bad then logEvent s .uncorrectable srcModule 0 a 1 else s
  | .onChip code | .inCell code _ _ =>
      let s := s.odAdd 0x8052 (if bad then 2 else 1) 1
      if bad then logEvent s .uncorrectable srcModule 0 a code else s

/-- R526, R545: the failure that a row of an address stands for: the spec gives no map of addresses to banks and rows. -/
def rowFail (s : State) (a : Nat) : EccPlace → Fail
  | .stack k ch cla => { kind := 0x0A, unit := channelUnit k ch, bank := bankAt 0x0A cla, row := Config.rowOf cla, bit := 0xFFFF }
  | .cached slice => { kind := 8, unit := slice, bank := bankAt 8 a, row := Config.rowOf a, bit := 0xFFFF }
  | .onChip 1 =>
      let off := (a - slmBase) % sliceBytes
      { kind := 8, unit := (a - slmBase) / sliceBytes, bank := bankAt 8 off, row := Config.rowOf off, bit := 0xFFFF }
  | .onChip _ =>
      let c := (a - spBase) / spBytes
      let off := (a - spBase) % spBytes
      { kind := 2, unit := cellUnit (clusterOf c) ((s.physIndex c).getD 0), bank := bankAt 2 off, row := Config.rowOf off, bit := 0xFFFF }
  | .inCell code c bank =>
      { kind := code, unit := cellUnit (clusterOf c) ((s.physIndex c).getD 0), bank := bank, row := Config.rowOf (a % (if code = 3 then 2 ^ 18 else 2 ^ 17)), bit := 0xFFFF }

/-- R542: a corrected or uncorrectable sector: its row is listed for repair on its n-th correction within a patrol
interval, or at once; a row listed already is not listed again. -/
def noteRow (s : State) (a test : Nat) (bad : Bool) (p : EccPlace) : State :=
  let f := rowFail s a p
  if rowListed s f then s
  else if bad then listRepair s f test true
  else
    let n := Sp.get 0 s.rowCorrections (rowKey f) + 1
    let s := { s with rowCorrections := Sp.set 0 s.rowCorrections (rowKey f) n }
    if s.odGet 0x3041 0 ≤ n then listRepair s f test true else s

/-- Count a corrected or uncorrectable sector and see to its row. -/
def noteSector (s : State) (a test : Nat) (bad : Bool) (p : EccPlace) : State := noteRow (eccCount s a bad p) a test bad p

/-- What a read of a sector delivers: the state after, the data bytes, poison. -/
structure SectorRead where
  s : State
  data : List Nat
  poison : Bool
  deriving DecidableEq, Repr

/-- What a read of a sector of a memory delivers. -/
def sectorReadAt (s : State) (a test : Nat) (errs : List (Nat × Nat)) (p : EccPlace) : SectorRead :=
  match Ecc.read (Ecc.flip (Ecc.stored (s.poisonAt a) (sectorData s a)) errs) with
  | .clean d => { s := putSector s a d false, data := d, poison := false }
  | .corrected d => { s := noteSector (putSector s a d false) a test false p, data := d, poison := false }
  | .poisonForm => { s := putSector s a (List.replicate 32 0) true, data := List.replicate 32 0, poison := true }
  | .uncorrectable d => { s := noteSector (putSector s a (List.replicate 32 0) true) a test true p, data := d, poison := true }

/-- The line of a cache partition that serves the sector of an address. -/
def cachedSector (s : State) (a : Nat) : Option CacheLine :=
  if slmBase ≤ a ∨ cachePolicy s a = 0 then none else (cacheLine s a).filter fun l => bit l.valid (a / 32 % 8)

/-- R318 to R320: a read of a sector whose stored word has taken the symbol errors of a list, from the cache partition where it
is there (DESIGN CHOICE, log 139: logged under its stack address); a word with none is delivered as it is stored. -/
def eccRead (s : State) (a test : Nat) (errs : List (Nat × Nat)) : SectorRead :=
  match eccPlace s a, errs, cachedSector s a with
  | none, _, _ | _, [], _ => { s := s, data := sectorData s a, poison := s.poisonAt a }
  | some _, _, some l =>
    sectorReadAt (putLine s a (l.keepUnder s (a / 32 % 8))) a test errs (.cached ((s.homeSlice a).getD 0))
  | some p, _, none => sectorReadAt s a test errs p

/-- A line after its channel's own word of a sector has been read with symbol errors (R318, R319). -/
def underAfter (l : CacheLine) (u : Under) : Ecc.Read → CacheLine
  | .clean d | .corrected d => l.setUnder { u with data := d, poison := false }
  | .poisonForm | .uncorrectable _ => l.setUnder { u with data := List.replicate 32 0, poison := true }

/-- R318 to R320, R323: a read, with symbol errors, of the channel's word of a sector of stack memory, which may lie beneath a
copy in a cache partition. -/
def channelRead (s : State) (a test : Nat) (errs : List (Nat × Nat)) : State :=
  match eccPlace s a, errs, cachedSector s a with
  | none, _, _ | _, [], _ => s
  | some p, _, none => (sectorReadAt s a test errs p).s
  | some p, _, some l =>
    let k := a / 32 % 8
    let l := l.keepUnder s k
    match l.beneath k with
    | none => s
    | some u =>
      let r := Ecc.read (Ecc.flip (Ecc.stored u.poison u.data) errs)
      let s := putLine s a (underAfter l u r)
      match r with
      | .clean _ | .poisonForm => s
      | .corrected _ => noteSector s a test false p
      | .uncorrectable _ => noteSector s a test true p

/-- The symbol errors of one sector of a line among those of the line: places are numbered 36 to a sector. -/
def sectorErrs (errs : List (Nat × Nat)) (k : Nat) : List (Nat × Nat) :=
  errs.filterMap fun e => if e.1 / 36 = k then some (e.1 % 36, e.2) else none

/-- Read the channel's words of the sectors of a line that a bit mask names. -/
def channelSectors (s : State) (line mask test : Nat) (errs : List (Nat × Nat)) : State :=
  (List.range 8).foldl (fun s k =>
    if bit mask k then channelRead s (line * 256 + 32 * k) test (sectorErrs errs k) else s) s

/-- Read the sectors of a line that a bit mask names: the state, and what each of the 8 delivered. -/
def eccLine (s : State) (line mask test : Nat) (errs : List (Nat × Nat)) : State × List (List Nat × Bool) :=
  (List.range 8).foldl (fun (t : State × List (List Nat × Bool)) k =>
    if bit mask k then
      let r := eccRead t.1 (line * 256 + 32 * k) test (sectorErrs errs k)
      (r.s, t.2 ++ [(r.data, r.poison)])
    else (t.1, t.2 ++ [(sectorData t.1 (line * 256 + 32 * k), t.1.poisonAt (line * 256 + 32 * k))])) (s, [])

/-- R310, R312: a load of n bytes of one line of stack memory, and what the sectors of the line delivered. -/
def cacheLoad (s : State) (a n test : Nat) (errs : List (Nat × Nat)) : State × List (List Nat × Bool) :=
  let r := eccLine s (a / 256) (loadMask s a n) test errs
  (loadLine r.1 a n, r.2)

/-- A store of bytes of one line of stack memory at its home slice, the memory's own bytes apart: the sectors it merges are read
from the channel first (R313). -/
def sliceStoreLine (s : State) (a : Nat) (bs : List Byte) (test : Nat) (errs : List (Nat × Nat)) : State :=
  storeLine (channelSectors s (a / 256) (mergedSectors s a bs.length) test errs) a bs.length (valAt a bs)

/-! ## Accesses that wait (R325, R531) -/

/-- R528: slices of a cell's cycle, of which the first 16 are logic slices. -/
def cycleSlices : Nat := 77

/-- R528: the places of the cycle that one slice covers: as many as its budget has times 40 µs, to the cycle's end. -/
def slicePlaces (s : State) (n : Nat) : List Nat :=
  ((List.range (s.odGet 0x7002 0 / 40)).map (n + ·)).filter fun k => decide (k < cycleSlices)

/-- The logical cell that a physical cell serves. -/
def cellServed (s : State) (k p : Nat) : Option Nat :=
  ((List.range 64).map (64 * k + ·)).find? fun c => s.physIndex c == some p

/-- R528, R531: the places of its cycle that a slice has under test on the physical cell of a logical cell. -/
def testedPlaces (s : State) (c : Nat) : List Nat := ((s.physAt c).test.map (slicePlaces s)).getD []

/-- R528, R531: the scratchpad segments under test, 32 KiB each. -/
def testedSegs (s : State) : List (Nat × Nat) :=
  s.phys.flatMap fun e =>
    match e.2.test, cellServed s (e.1 / 66) (e.1 % 66) with
    | some n, some c =>
      ((slicePlaces s n).filter fun k => decide (16 ≤ k ∧ k < 64)).map fun k => (spOf c + 32768 * (k - 16), 32768)
    | _, _ => []

/-- R531: do runs meet a segment under test, so that the access waits until the slice ends? -/
def segHeld (s : State) (rs : List (Nat × Nat)) : Bool :=
  (testedSegs s).any fun g => rs.any fun r => rangesMeet r.1 r.2 g.1 g.2

/-- R531: is a part of a cell's Welt under test, of n bytes from a byte of it? -/
def weltHeld (s : State) (c off n : Nat) : Bool :=
  (testedPlaces s c).any fun k => decide (64 ≤ k ∧ k < 72) && rangesMeet off n (32768 * (k - 64)) 32768

/-- R531: is a part of a cell's accumulator file under test, of the sectors of some groups? -/
def accHeld (s : State) (c group groups : Nat) : Bool :=
  (testedPlaces s c).any fun k => decide (72 ≤ k ∧ k < 76) && rangesMeet group groups (32 * (k - 72)) 32

/-- R325, R531: is a load of runs held: does some line of it have to come from a stack at level 3, or is a segment of it under
test? -/
def loadHeld (s : State) (rs : List (Nat × Nat)) : Bool :=
  ((rs.flatMap lineParts).any fun r => decide (levelOf s r.1 = 3) && !cacheHit s r.1 r.2) || segHeld s rs

/-- R325, R531: is a store of runs held, the copies that it asks for apart: must some line of it be written to, or merged from, a
stack at level 3, or is a segment of it under test? -/
def plainStoreHeld (s : State) (rs : List (Nat × Nat)) : Bool :=
  ((rs.flatMap lineParts).any fun r =>
    decide (levelOf s r.1 = 3) && (cachePolicy s r.1 != 1 || mergedSectors s r.1 r.2 != 0)) || segHeld s rs

/-- R270, R325: is a store of runs held, by itself or by the copies of protected blocks that it waits for? -/
def storeHeld (s : State) (rs : List (Nat × Nat)) : Bool :=
  plainStoreHeld s rs ||
    (rs.flatMap fun r => cowRuns s r.1 r.2).any fun q => loadHeld s [(q.1, q.2.2)] || plainStoreHeld s [(q.2.1, q.2.2)]

end Sys2Proof.Machine
end

