-- ==== Sys2Proof/Machine/Operands.lean ====
section
/-! DEFINITION. Reading and writing operands: elements, MX blocks, C32 pixel vectors, tensors and the
lanes of the array (R68, R103, R128 to R130, R194, R195, R198 to R200, R206, R225, R226). -/
namespace Sys2Proof.Machine

/-- One value as a unit reads it: exact value, flags of reading it, poison. -/
structure Opd where
  v : Val
  f : Flags
  poison : Bool
  deriving DecidableEq, Repr

/-- One product position of the array: gated, a structural zero (R199, R206), or read. -/
inductive Lane where
  | masked
  | pad
  | real (o : Opd)
  deriving DecidableEq, Repr

/-- A format code that R67 does not define reads as FP32; the checks refuse it first. -/
def fmtOf (code : Nat) : Fmt := (Fmt.ofCode code).getD .fp32

namespace State

/-- An element of a format that is not a block format. -/
def elem (s : State) (ftz : Bool) (f : Fmt) (a : Nat) : Opd :=
  let r := readFmt ftz f (s.rd a f.bytes)
  { v := r.1, f := r.2, poison := s.poisonIn a f.bytes }

/-- Element c of a block format in the row that starts at row, whose scales start at scales (R68). -/
def mxElemAt (s : State) (f : Fmt) (row scales c : Nat) : Opd :=
  let blk := row + c / 32 * f.blockBytes
  let lo := (c % 32) * f.bits
  let w := s.rd blk f.blockBytes
  let sa := scales + c / 32
  { v := mxElem f (fld w (lo + f.bits - 1) lo) (s.rd sa 1), f := 0,
    poison := s.poisonIn (blk + lo / 8) ((lo + f.bits - 1) / 8 - lo / 8 + 1) || s.poisonAt sa }

/-- Element (r, c) of a stored operand (R103). -/
def stored (s : State) (ftz : Bool) (f : Fmt) (addr scale ld r c : Nat) : Opd :=
  if f.isMx then s.mxElemAt f (addr + r * ld) (scale + r * (ld / f.blockBytes)) c
  else s.elem ftz f (addr + r * ld + c * f.bytes)

/-- Element of lane c in pixel vector number k of a C32 tensor (R194, R195). -/
def c32 (s : State) (ftz : Bool) (f : Fmt) (addr scale k c : Nat) : Opd :=
  if f.isMx then s.mxElemAt f (addr + k * f.blockBytes) (scale + k) c
  else s.elem ftz f (addr + (k * 32 + c) * f.bytes)

end State

namespace ConvGeo

/-- Input channel blocks. -/
def cbIn (g : ConvGeo) : Nat := ceilDiv g.cIn 32
/-- Output channel blocks. -/
def cbOut (g : ConvGeo) : Nat := ceilDiv g.cOut 32
/-- Group size, 0 for the dense form (R204). -/
def gsize (g : ConvGeo) : Nat := if g.group = 0 then 0 else 2 ^ (g.group - 1)

/-- R197: the output extent of one dimension, none where the formula gives less than 1. -/
def outExtent (n idil p0 p1 dil k stride : Nat) : Option Nat :=
  let span : Int := ((n - 1) * idil + 1 + p0 + p1 : Nat) - ((dil * (k - 1) + 1 : Nat) : Int)
  if span < 0 then none else some (span.toNat / stride + 1)

/-- R197 for both dimensions. -/
def shapeOk (g : ConvGeo) : Bool :=
  outExtent g.h g.idh g.padT g.padB g.dh g.kh g.sh == some g.oh &&
  outExtent g.w g.idw g.padL g.padR g.dw g.kw g.sw == some g.ow

/-- R198: the source pixel (n, y, x) of output pixel p at tap (r, s). -/
def tapSource (g : ConvGeo) (p r s : Nat) : Option (Nat × Nat × Nat) :=
  let n := p / (g.oh * g.ow)
  let ohi := p / g.ow % g.oh
  let owi := p % g.ow
  let yv : Int := (ohi * g.sh + r * g.dh : Nat) - (g.padT : Int)
  let xv : Int := (owi * g.sw + s * g.dw : Nat) - (g.padL : Int)
  if yv < 0 ∨ xv < 0 ∨ yv % g.idh ≠ 0 ∨ xv % g.idw ≠ 0 then none
  else
    let y := (yv / g.idh).toNat
    let x := (xv / g.idw).toNat
    if g.h ≤ y ∨ g.w ≤ x then none else some (n, y, x)

/-- R225: the dY pixel (n, oh, ow) that tap (r, s) of input pixel p meets. -/
def dySource (g : ConvGeo) (p r s : Nat) : Option (Nat × Nat × Nat) :=
  let n := p / (g.h * g.w)
  let hi := p / g.w % g.h
  let wi := p % g.w
  let yn : Int := (hi + g.padT : Nat) - ((r * g.dh : Nat) : Int)
  let xn : Int := (wi + g.padL : Nat) - ((s * g.dw : Nat) : Int)
  if yn < 0 ∨ xn < 0 ∨ yn % g.sh ≠ 0 ∨ xn % g.sw ≠ 0 then none
  else
    let y := (yn / g.sh).toNat
    let x := (xn / g.sw).toNat
    if g.oh ≤ y ∨ g.ow ≤ x then none else some (n, y, x)

/-- Number of the pixel vector (n, cb, y, x) of a tensor of cbs blocks and h × w pixels (R194). -/
def pixel (cbs h w n cb y x : Nat) : Nat := ((n * cbs + cb) * h + y) * w + x

/-- R209: the real taps of output pixel p. -/
def realTaps (g : ConvGeo) (p : Nat) : Nat :=
  ((List.range (g.kh * g.kw)).filter fun t => (g.tapSource p (t / g.kw) (t % g.kw)).isSome).length

/-- R198, R206, R208, R225, R226: chunks of the reduction of a form. -/
def chunks (g : ConvGeo) (op : Nat) : Nat :=
  if op = 0x17 then ceilDiv (g.nImg * g.oh * g.ow) 32
  else if op = 0x12 ∨ g.group ≠ 0 then g.kh * g.kw
  else if op = 0x16 then g.kh * g.kw * g.cbOut
  else g.kh * g.kw * g.cbIn

end ConvGeo

/-- R200: the stored element (row, output channel) of the filters, at its forward position. -/
def filterAt (s : State) (d : TileD) (row co : Nat) : Opd :=
  if d.transB then s.stored d.ctl.ftz (fmtOf d.fmtB) d.bAddr d.bScale d.geo.ldw co row
  else s.stored d.ctl.ftz (fmtOf d.fmtB) d.bAddr d.bScale d.geo.ldw row co

/-- R206: the grouped weight for output channel co, tap t and in-group input q. -/
def groupedAt (s : State) (d : TileD) (t co q : Nat) : Opd :=
  s.elem d.ctl.ftz (fmtOf d.fmtB) (d.bAddr + t * d.geo.ldw + (co * d.geo.gsize + q) * (fmtOf d.fmtB).bytes)

/-- The fed operand: row i, chunk kc of the descriptor, block nb of N, position ci. -/
def laneA (s : State) (d : TileD) (i kc nb ci : Nat) : Lane :=
  let ftz := d.ctl.ftz
  let f := fmtOf d.fmtA
  let g := d.geo
  let at32 (cbs h w : Nat) (cb c limit : Nat) (src : Option (Nat × Nat × Nat)) : Lane :=
    if limit ≤ cb * 32 + c then .masked
    else
      match src with
      | none => .pad
      | some (n, y, x) => .real (s.c32 ftz f d.aAddr d.aScale (ConvGeo.pixel cbs h w n cb y x) c)
  match d.op with
  | 0x10 | 0x15 =>
    let k := kc * 32 + ci
    if d.k ≤ k then .masked
    else if d.transA then .real (s.stored ftz f d.aAddr d.aScale d.lda k i)
    else .real (s.stored ftz f d.aAddr d.aScale d.lda i k)
  | 0x17 =>
    let p := (g.kc0 + kc) * 32 + ci
    let k := g.p0 + i
    let tap := k / (g.cbIn * 32)
    let c := k % (g.cbIn * 32)
    if g.nImg * g.oh * g.ow ≤ p then .masked
    else at32 g.cbIn g.h g.w (c / 32) (c % 32) g.cIn (g.tapSource p (tap / g.kw) (tap % g.kw))
  | 0x16 =>
    let k := g.kc0 + kc
    if g.group ≠ 0 then
      at32 g.cbOut g.oh g.ow (g.co0 / 32 + nb) ci g.cOut (g.dySource (g.p0 + i) (k / g.kw) (k % g.kw))
    else
      let tap := k / g.cbOut
      at32 g.cbOut g.oh g.ow (k % g.cbOut) ci g.cOut (g.dySource (g.p0 + i) (tap / g.kw) (tap % g.kw))
  | op =>
    let k := g.kc0 + kc
    if op = 0x12 ∨ g.group ≠ 0 then
      at32 g.cbIn g.h g.w (g.co0 / 32 + nb) ci g.cIn (g.tapSource (g.p0 + i) (k / g.kw) (k % g.kw))
    else
      let tap := k / g.cbIn
      at32 g.cbIn g.h g.w (k % g.cbIn) ci g.cIn (g.tapSource (g.p0 + i) (tap / g.kw) (tap % g.kw))

/-- The stationary operand: chunk kc, block nb of N, position ci, column j of the tile. -/
def laneB (s : State) (d : TileD) (kc nb ci j : Nat) : Lane :=
  let ftz := d.ctl.ftz
  let f := fmtOf d.fmtB
  let g := d.geo
  match d.op with
  | 0x10 | 0x15 =>
    let k := kc * 32 + ci
    if d.k ≤ k then .masked
    else if d.transB then .real (s.stored ftz f d.bAddr d.bScale d.ldb j k)
    else .real (s.stored ftz f d.bAddr d.bScale d.ldb k j)
  | 0x17 =>
    let p := (g.kc0 + kc) * 32 + ci
    let co := g.co0 + j
    if g.nImg * g.oh * g.ow ≤ p then .masked
    else
      .real (s.c32 ftz f d.cAddr d.bScale
        (ConvGeo.pixel g.cbOut g.oh g.ow (p / (g.oh * g.ow)) (co / 32) (p / g.ow % g.oh) (p % g.ow)) (co % 32))
  | 0x16 =>
    let k := g.kc0 + kc
    let cin := g.co0 + j
    if g.group ≠ 0 then
      let co := (g.co0 / 32 + nb) * 32 + ci
      if g.cOut ≤ co then .masked
      else if co / g.gsize = cin / g.gsize then .real (groupedAt s d k co (cin % g.gsize)) else .pad
    else
      let co := k % g.cbOut * 32 + ci
      if g.cOut ≤ co then .masked else .real (filterAt s d (k / g.cbOut * (g.cbIn * 32) + cin) co)
  | 0x12 => if ci = j % 32 then .real { v := .fin false 1 0, f := 0, poison := false } else .pad
  | _ =>
    let k := g.kc0 + kc
    let co := g.co0 + j
    if g.group ≠ 0 then
      let c := (g.co0 / 32 + nb) * 32 + ci
      if g.cIn ≤ c then .masked
      else if c / g.gsize = co / g.gsize then .real (groupedAt s d k co (c % g.gsize)) else .pad
    else if g.cIn ≤ k % g.cbIn * 32 + ci then .masked
    else .real (filterAt s d (k * 32 + ci) co)

end Sys2Proof.Machine
end

