-- ==== Sys2Proof/Machine/Status.lean ====
section
/-! DEFINITION. The status codes of R452. -/
namespace Sys2Proof.Machine.St

/-- Completed as requested. -/
def ok : Nat := 0x00
/-- A queue, the hot set or the snapshot limit was full. -/
def refusedCapacity : Nat := 0x02
/-- The class has no share. -/
def refusedClass : Nat := 0x03
/-- Some output or sent data is poisoned. -/
def poisoned : Nat := 0x10
/-- A host reduction marked a module faulty. -/
def residueFault : Nat := 0x11
/-- The step's outcome was ABORTED. -/
def stepAborted : Nat := 0x12
/-- A target was fenced, reset or unreachable. -/
def targetReset : Nat := 0x13
/-- Piece status: its lease was reclaimed. -/
def staleLease : Nat := 0x14
/-- Piece status: aborted at a stitch edge. -/
def overrun : Nat := 0x15
/-- The module or a resource is owned. -/
def busy : Nat := 0x20
/-- Not permitted. -/
def denied : Nat := 0x21
/-- A descriptor, entry or table broke a rule. -/
def badDescriptor : Nat := 0x22
/-- A gradient map named one weight range twice. -/
def tiedWeight : Nat := 0x23
/-- The ranges belong to a context that is not resident. -/
def notResident : Nat := 0x24

end Sys2Proof.Machine.St
end

