-- ==== Sys2Proof/Machine/Sync.lean ====
section
/-! DEFINITION. Sync objects and their operations (R52 to R62, R583, R584). -/
namespace Sys2Proof.Machine

namespace Kind

/-- R55: the KIND code. -/
def code : Kind → Nat
  | free => 0
  | counter => 1
  | event => 2
  | barrier => 3
  | semaphore => 4
  | tileCounter => 5

/-- R55: codes above 5 are reserved. -/
def ofCode : Nat → Option Kind
  | 0 => some free
  | 1 => some counter
  | 2 => some event
  | 3 => some barrier
  | 4 => some semaphore
  | 5 => some tileCounter
  | _ => none

end Kind

/-- The operations of R57, by code. -/
inductive SyncOp where
  | read
  | add
  | set
  | waitGe
  | eventSet
  | eventClear
  | eventWait
  | arrive
  | barrierWait
  | arriveWait
  | post
  | take
  | tryTake
  deriving DecidableEq, Repr

namespace SyncOp

/-- R57: the OP codes; 0x0D to 0x1F are reserved. -/
def ofCode : Nat → Option SyncOp
  | 0 => some read
  | 1 => some add
  | 2 => some set
  | 3 => some waitGe
  | 4 => some eventSet
  | 5 => some eventClear
  | 6 => some eventWait
  | 7 => some arrive
  | 8 => some barrierWait
  | 9 => some arriveWait
  | 10 => some post
  | 11 => some take
  | 12 => some tryTake
  | _ => none

/-- The OP code. -/
def code : SyncOp → Nat
  | read => 0
  | add => 1
  | set => 2
  | waitGe => 3
  | eventSet => 4
  | eventClear => 5
  | eventWait => 6
  | arrive => 7
  | barrierWait => 8
  | arriveWait => 9
  | post => 10
  | take => 11
  | tryTake => 12

/-- R57: does it take effect at the piece commit? -/
def staged : SyncOp → Bool
  | add | set | eventSet | eventClear | arrive | post => true
  | _ => false

/-- R57: is the operation one of a HARNESS_OP on the kind? -/
def fits : SyncOp → Kind → Bool
  | read, .free => false
  | read, _ => true
  | add, .counter | set, .counter | waitGe, .counter => true
  | eventSet, .event | eventClear, .event | eventWait, .event => true
  | arrive, .barrier | barrierWait, .barrier | arriveWait, .barrier => true
  | post, .semaphore | take, .semaphore | tryTake, .semaphore => true
  | _, _ => false

end SyncOp

/-- R56, R444: is the operation one that R56's table lists for the kind? The table lists no READ of a BARRIER or a SEMAPHORE, which
R57 gives a HARNESS_OP. -/
def SyncOp.listed (op : SyncOp) (k : Kind) : Bool := op.fits k && !(op == .read && (k == .barrier || k == .semaphore))

/-- An operand's low 32 bits as a signed number. -/
def signed32 (w : Nat) : Int := sfld w 31 0

namespace SyncObj

/-- R584: the state word, bytes 8 to 15 of the window. -/
def stateWord (o : SyncObj) : Nat :=
  match o.kind with
  | .free => 0
  | .counter => o.value
  | .event => o.value % 2
  | .barrier => o.value % 2 ^ 32 + (if o.phase then 2 ^ 32 else 0)
  | .semaphore => o.value
  | .tileCounter => o.value % 2 ^ 32 + o.doneCount * 2 ^ 32

/-- R55: the configuration word. -/
def configWord (o : SyncObj) : Nat :=
  if o.kind = .free then 0
  else
    o.kind.code * 2 ^ 60 + o.cls * 2 ^ 58 + (if o.far then 2 ^ 57 else 0) + o.farIndex * 2 ^ 44 +
      o.ctx * 2 ^ 34 + (if o.sat then 2 ^ 33 else 0) + o.param

/-- R584: the 64 bytes of the read-only window as a little-endian number. -/
def window (o : SyncObj) : Nat :=
  o.configWord + o.stateWord * 2 ^ 64 +
    (if o.kind = .tileCounter then
      o.failed * 2 ^ 128 + o.leases.length * 2 ^ 192 + o.reissue.length * 2 ^ 256 else 0)

/-- R56, R60: may the operation be made on the object for a context? The status that refuses it. -/
def refuses (o : SyncObj) (ctx : Nat) (op : SyncOp) (operand : Nat) : Option Nat :=
  if o.kind = .free ∨ o.ctx ≠ ctx then some St.denied
  else if !op.fits o.kind then some St.badDescriptor
  else if op = .post ∧ fld operand 15 0 = 0 then some St.badDescriptor
  else if o.far ∧ (op = .set ∨ op = .eventClear ∨ (op = .add ∧ signed32 operand < 0)) then some St.badDescriptor
  else none

/-- The change an operation makes to an object, without its waiters (R56). -/
def apply (o : SyncObj) (op : SyncOp) (operand : Nat) : SyncObj :=
  match op with
  | .add =>
    let v := (o.value : Int) + signed32 operand
    let top : Int := 2 ^ 48 - 1
    { o with value := (max 0 (min top v)).toNat, sat := o.sat || decide (v < 0 ∨ top < v) }
  | .set => { o with value := fld operand 47 0 }
  | .eventSet => { o with value := 1 }
  | .eventClear => { o with value := 0 }
  | .arrive | .arriveWait =>
    if o.param ≤ o.value + 1 then { o with value := 0, phase := !o.phase, arrived := [] }
    else { o with value := o.value + 1 }
  | .post =>
    let v := o.value + fld operand 15 0
    { o with value := min o.param v, sat := o.sat || decide (o.param < v) }
  | .take | .tryTake => { o with value := o.value - 1 }
  | _ => o

/-- Is what a waiter waits for true now? -/
def holds (o : SyncObj) : Wait → Bool
  | .ge v => decide (v ≤ o.value)
  | .event => decide (o.value ≠ 0)
  | .phase p => decide (o.phase ≠ p)
  | .take => decide (0 < o.value)

/-- Release what can be released, in order: the object and the released waiters, each with the state
word at its release. A TAKE takes its unit as it is released (R56). -/
def settle (o : SyncObj) : List Waiter → List Waiter → List (Waiter × Nat) → SyncObj × List (Waiter × Nat)
  | [], kept, out => ({ o with waiters := kept.reverse }, out.reverse)
  | w :: ws, kept, out =>
    if o.holds w.wait then
      let o' := if w.wait = .take then { o with value := o.value - 1 } else o
      settle o' ws kept ((w, o'.stateWord) :: out)
    else settle o ws (w :: kept) out

end SyncObj

/-- The reply to a waiter reaches the cell's descriptor: it waits for SYNC_WAIT_RELEASE (R59). -/
def giveReply (s : State) (w : Waiter) (word objIdx : Nat) : State :=
  s.updPiece w.cell fun p =>
    if p.seq ≠ w.piece then p
    else
      let isIt (i : Item) : Bool :=
        decide (i.stage = .waiting) &&
          (if w.unit = 16 then fld i.word 7 0 == 0x51 else fld i.word 7 0 != 0x51 && fld i.word 11 8 == w.unit)
      { p with
        items := updFirst isIt (fun i => { i with reply := some word }) p.items
        units := if w.wait = .take then objIdx :: p.units else p.units }

/-- Write an object back and release its waiters. -/
def settleObj (s : State) (i : Nat) (o : SyncObj) : State :=
  let r := o.settle o.waiters [] []
  r.2.foldl (fun s w => giveReply s w.1 w.2 i) (s.setObj i r.1)

/-- R62: tell the tree of a local update of a far object. -/
def tellFar (s : State) (o : SyncObj) (op : SyncOp) (operand : Nat) : State :=
  if o.far then s.send (.far o.farIndex op.code (if op = .add then fld operand 31 0 else 1)) else s

/-- R363: fields of a stream record that sync operations meet. -/
def Stream.readyCtr (t : Stream) : Nat := fld t.record 80 64
/-- CONSUMED_CTR. -/
def Stream.consumedCtr (t : Stream) : Nat := fld t.record 97 81
/-- LOW_EVENT. -/
def Stream.lowEvent (t : Stream) : Nat := fld t.record 114 98
/-- LOW_WATER. -/
def Stream.lowWater (t : Stream) : Nat := fld t.record 40 35

/-- R383: an addition to CONSUMED_CTR took the ready count of a stream below LOW_WATER. -/
def lowWaterAt (s : State) (n before after : Nat) : State :=
  let t := s.stream n
  let ready := (s.obj t.readyCtr).value
  if t.state = 1 ∧ t.lowWater ≠ 0 ∧ t.lowWater ≤ ready - before ∧ (ready : Int) - after < t.lowWater then
    let s := (s.updStream n fun t => { t with low := true }).odAdd 0x8060 (n + 1) 1
    let e := s.obj t.lowEvent
    tellFar (settleObj s t.lowEvent (e.apply .eventSet 0)) e .eventSet 0
  else s

/-- R383: look after the low-water marks once a counter has changed. -/
def lowWater (s : State) (i before : Nat) : State :=
  ((s.streams.filter fun e => e.2.consumedCtr == i).map (·.1)).foldl (fun s n => lowWaterAt s n before (s.obj i).value) s

/-- Carry out an operation that changes an object (R52: at once and whole). -/
def syncChange (s : State) (i : Nat) (op : SyncOp) (operand : Nat) : State :=
  let o := s.obj i
  if o.kind = .free then s
  else
    let s := tellFar (settleObj s i (o.apply op operand)) o op operand
    if op = .add then lowWater s i o.value else s

/-- R57: return the units a piece took, with POST(1) each. -/
def returnUnits (s : State) (units : List Nat) : State :=
  units.foldl (fun s i => syncChange s i .post 1) s

/-- Take the waiters of a cell's piece off every object. -/
def dropWaiters (s : State) (cell : Nat) : State :=
  { s with sync := s.sync.map fun e =>
      (e.1, { e.2 with waiters := e.2.waiters.filter fun w => w.cell != cell }) }

end Sys2Proof.Machine
end

