-- ==== Sys2Proof/Machine/Array.lean ====
section
/-! DEFINITION. The matrix array, the preload and the drain on one tile (R79 to R121, R128, R129, R155
to R158, R201, R202, R208, R209, R216). -/
namespace Sys2Proof.Machine

/-- The value of a lane: gated lanes give none, structural zeros +0 (R129, R199). -/
def Lane.value : Lane → Option Opd
  | .masked => none
  | .pad => some { v := Val.zero, f := 0, poison := false }
  | .real o => some o

/-- Is a lane poisoned? -/
def Lane.bad : Lane → Bool
  | .real o => o.poison
  | _ => false

/-- R226: is row i of a CONV_WGRAD one of a channel at or above C_IN, which is masked whole? -/
def TileD.rowMasked (d : TileD) (i : Nat) : Bool :=
  d.op == 0x17 && decide (d.geo.cIn ≤ (d.geo.p0 + i) % (d.geo.cbIn * 32))

/-- R82: is an operand of the pass of row i against block nb poisoned? A masked row takes no pass (R129). -/
def passPoison (s : State) (d : TileD) (i kc nb : Nat) : Bool :=
  !d.rowMasked i && ((List.range 32).any (fun ci => (laneA s d i kc nb ci).bad) ||
  (List.range 32).any fun jj =>
    decide (nb * 32 + jj < d.n) && (List.range 32).any fun ci => (laneB s d kc nb ci (nb * 32 + jj)).bad)

/-- The operand pairs of entry (i, j) in chunk kc, gated positions left out. -/
def pairsOf (s : State) (d : TileD) (i kc j : Nat) : List (Opd × Opd) :=
  (List.range 32).filterMap fun ci =>
    match (laneA s d i kc (j / 32) ci).value, (laneB s d kc (j / 32) ci j).value with
    | some a, some b => some (a, b)
    | _, _ => none

/-- R91, R92: the flags of splitting the FP32 operands of a chunk. -/
def splitFlags (d : TileD) (ps : List (Opd × Opd)) : Flags :=
  let of (code : Nat) (o : Opd) : Flags := if fmtOf code = .fp32 then (split3 o.v).2.2.2 else 0
  ps.foldl (fun f p => f ||| of d.fmtA p.1 ||| of d.fmtB p.2) 0

/-- One pass of one entry whose chain count is n: the fold of R90, then the column sum enters (R83, R85). -/
def passEntry (acc : Acc) (n : Nat) (e : AccEntry) (sum : Val × Flags) : AccEntry × Flags :=
  match acc with
  | .lined =>
    let fl := if foldsAt n then foldPair e.p else (e.p, 0)
    let r := linedAdd fl.1 sum.1
    ({ e with p := r.1 }, fl.2 ||| r.2 ||| sum.2)
  | .plain =>
    let r := plainAdd e.p.v sum.1
    ({ e with p := { v := r.1, l := 0 } }, r.2 ||| sum.2)
  | .int32 =>
    let r := int32Add (sfld e.p.v.toNat 31 0) (sum.1.scaled (-149) / 2 ^ 149)
    ({ e with p := { v := BitVec.ofInt 32 r.1, l := 0 } }, r.2 ||| sum.2)

/-- The passes of one chunk on one entry. -/
def chunkEntry (s : State) (d : TileD) (n0 : Nat) (i j kc : Nat) (e : AccEntry) : AccEntry × Flags :=
  let ps := pairsOf s d i kc j
  let passes := splitPasses (fmtOf d.fmtA) (if d.op = 0x12 then .bf16 else fmtOf d.fmtB)
  let bad := passPoison s d i kc (j / 32)
  let f0 := ps.foldl (fun f p => f ||| p.1.f ||| p.2.f) (splitFlags d ps)
  let start : AccEntry × Flags :=
    ({ e with poison := e.poison || bad }, f0 ||| Flags.when bad Flag.poisonSeen)
  (passes.zipIdx).foldl (fun a pk =>
    let n := n0 + 32 * (kc * passes.length + pk.2)
    let sum := columnSum (ps.map fun p => passProduct pk.2 pk.1 p.1.v p.2.v)
    let r := passEntry d.acc n a.1 sum
    (r.1, a.2 ||| r.2)) start

/-- Passes per chunk (R101). -/
def TileD.passesPer (d : TileD) : Nat :=
  (splitPasses (fmtOf d.fmtA) (if d.op = 0x12 then .bf16 else fmtOf d.fmtB)).length

/-- R208: one tap of a pooling entry; in an average a padding tap is a pass that adds 0 (R88). DESIGN CHOICE (log 148): the latch
of an FP32 average holds the identity in BF16 (three passes a tap), and an average forms the products of the diagonal alone: an
infinity or NaN of another channel of the block meets no zero. -/
def poolTap (s : State) (d : TileD) (n0 i j kc : Nat) (e : AccEntry) : AccEntry × Flags :=
  let bad := passPoison s d i kc (j / 32)
  let e := { e with poison := e.poison || bad }
  let fp := Flags.when bad Flag.poisonSeen
  match laneA s d i kc (j / 32) (j % 32) with
  | .real o =>
    if d.geo.poolOp = 1 then
      match d.acc with
      | .int32 =>
        let v := max (sfld e.p.v.toNat 31 0) (o.v.scaled 0)
        ({ e with p := { v := BitVec.ofInt 32 v, l := 0 } }, fp ||| o.f)
      | _ =>
        let x := rn32 o.v
        ({ e with p := { v := fmax e.p.v x.1, l := 0 } }, fp ||| o.f ||| x.2)
    else
      let passes := splitPasses (fmtOf d.fmtA) .bf16
      let one : Val := .fin false 1 0
      let f0 := if fmtOf d.fmtA = .fp32 then (split3 o.v).2.2.2 else 0
      (passes.zipIdx).foldl (fun (a : AccEntry × Flags) pk =>
        let sum := columnSum [passProduct pk.2 pk.1 o.v one]
        let r := passEntry d.acc (n0 + 32 * (kc * passes.length + pk.2)) a.1 sum
        (r.1, a.2 ||| r.2)) (e, fp ||| o.f ||| f0)
  | .pad =>
    if d.geo.poolOp = 1 then (e, fp)
    else (List.range d.passesPer).foldl (fun (a : AccEntry × Flags) k =>
      let r := passEntry d.acc (n0 + 32 * (kc * d.passesPer + k)) a.1 (Val.zero, 0)
      (r.1, a.2 ||| r.2)) (e, fp)
  | .masked => (e, fp)

/-- Chunks that a descriptor runs. -/
def TileD.chunkCount (d : TileD) : Nat := if d.isConv then d.geo.kc else ceilDiv d.k 32

/-- R98: the array's work of a whole descriptor on the entries of its tile (row-major, in bounds). -/
def runEntries (s : State) (d : TileD) (n0 : Nat) (es : List AccEntry) : List AccEntry × Flags :=
  let step := if d.op = 0x12 then poolTap s d n0 else chunkEntry s d n0
  let rs := (es.zipIdx).map fun (e, x) =>
    (List.range d.chunkCount).foldl (fun (a : AccEntry × Flags) kc =>
      let r := step (x / d.n) (x % d.n) kc a.1
      (r.1, a.2 ||| r.2)) (e, 0)
  (rs.map (·.1), rs.foldl (fun f r => f ||| r.2) 0)

/-! ## Preload (R86, R110, R111, R202) -/

/-- R110, R202: where the preload element of entry (i, j) lies, and its bytes. DESIGN CHOICE (log 148): a TENSOR preload reads a
tensor of the geometry before the regrouping of R216, where D2S is not 0. -/
def preAddrOf (d : TileD) (i j : Nat) : Nat × Nat :=
  let e := (fmtOf d.fmtP).bytes
  let w := if d.acc = .lined then 8 else 4
  let g := d.geo
  let p := g.p0 + i
  match d.preKind with
  | 1 =>
    if !d.isConv then (d.preAddr + i * d.ldp + j * e, e)
    else
      -- R202: geometry and layout of the output
      let ch := g.co0 + j
      let cs := if d.op = 0x16 then g.cIn else g.cOut
      let h := if d.op = 0x16 then g.h else g.oh
      let w := if d.op = 0x16 then g.w else g.ow
      if g.nhwc then (d.preAddr + (p * cs + ch) * e, e)
      else
        (d.preAddr + (ConvGeo.pixel (ceilDiv cs 32) h w (p / (h * w)) (ch / 32) (p / w % h) (p % w) * 32 + ch % 32) * e, e)
  | 2 => (d.preAddr + (if d.isConv then g.co0 + j else j) * e, e)
  | _ => if d.isConv then (d.preAddr + (i * d.n + j) * w, w) else (d.preAddr + i * d.ldp + j * w, w)

/-- R110: the starting value of entry (i, j). -/
def preEntry (s : State) (d : TileD) (i j : Nat) : AccEntry × Flags :=
  let a := preAddrOf d i j
  match d.preKind with
  | 0 =>
    let v : F32 :=
      if d.op = 0x12 ∧ d.geo.poolOp = 1 then (if d.acc = .int32 then BitVec.ofInt 32 (-128) else 0xFF800000) else 0
    ({ p := { v := v, l := 0 }, poison := false }, 0)
  | 3 =>
    let w := s.rd a.1 a.2
    ({ p := { v := BitVec.ofNat 32 w, l := if d.acc = .lined then BitVec.ofNat 32 (w / 2 ^ 32) else 0 },
       poison := s.poisonIn a.1 a.2 }, 0)
  | _ =>
    let o := s.elem d.ctl.ftz (fmtOf d.fmtP) a.1
    if d.acc = .int32 then
      ({ p := { v := BitVec.ofInt 32 (o.v.scaled 0), l := 0 }, poison := o.poison }, Flags.when o.poison Flag.poisonSeen)
    else
      let r := rn32 o.v
      ({ p := { v := r.1, l := 0 }, poison := o.poison }, o.f ||| r.2 ||| Flags.when o.poison Flag.poisonSeen)

/-- All starting entries of a tile. -/
def preEntries (s : State) (d : TileD) : List AccEntry × Flags :=
  let rs := (List.range (d.m * d.n)).map fun x => preEntry s d (x / d.n) (x % d.n)
  (rs.map (·.1), rs.foldl (fun f r => f ||| r.2) 0)

/-! ## The drain (R114 to R121) -/

/-- One element on its way through the drain: FP32 value and poison. -/
structure DrainEl where
  x : F32
  poison : Bool
  deriving DecidableEq, Repr

/-- The exact accumulator value of an entry (R114 stage 2). -/
def AccEntry.exact (acc : Acc) (e : AccEntry) : Val :=
  match acc with
  | .lined => e.p.val
  | .plain => val32 e.p.v
  | .int32 => Val.ofInt (sfld e.p.v.toNat 31 0)

/-- R114 stage 2, R209: scale. DESIGN CHOICE (log 25): flush-to-zero does not act on OUT_SCALE. -/
def drainScale (d : TileD) (i : Nat) (e : AccEntry) : F32 × Flags :=
  let p := Val.mul (e.exact d.acc) (val32 d.outScale)
  let q := if d.op = 0x12 ∧ d.geo.poolOp = 3 then Val.div p.1 (Val.ofInt (d.geo.realTaps (d.geo.p0 + i))) else (p.1, 0)
  let r := rn32 q.1
  (r.1, p.2 ||| q.2 ||| r.2)

/-- Entry number o of the chain (R155). -/
def chainOp (s : State) (d : TileD) (o : Nat) : ChainOp := ChainOp.ofWord (s.rd (d.chainAddr + 16 * o) 16)

/-- R155: where the operand of a chain operation for element (i, j) lies. -/
def ChainOp.operandAddr (c : ChainOp) (i j : Nat) : Nat :=
  let e := (fmtOf c.fmt).bytes
  match c.src with
  | 2 => c.addr + j * e
  | 3 => c.addr + i * e
  | _ => c.addr + i * c.ld + j * e

/-- The operand of a chain operation in FP32 (R158). DESIGN CHOICE (log 25): flush-to-zero acts on the operands read
from memory and not on the immediate, nor on the intermediate results of the chain. -/
def ChainOp.operand (s : State) (d : TileD) (c : ChainOp) (i j : Nat) : F32 × Flags × Bool :=
  match c.src with
  | 0 => (0, 0, false)
  | 1 => (c.imm, 0, false)
  | _ =>
    let o := s.elem d.ctl.ftz (fmtOf c.fmt) (c.operandAddr i j)
    ((rn32 o.v).1, o.f, o.poison)

/-- R156: one chain operation on x with operand y. -/
def chainFn (op : Nat) (x y : F32) : F32 × Flags :=
  match op with
  | 0x01 => fadd x y
  | 0x02 => fsub x y
  | 0x03 => fsub y x
  | 0x04 => fmul x y
  | 0x05 => (fmax x y, 0)
  | 0x06 => (fmin x y, 0)
  | 0x07 => (frelu x, 0)
  | 0x08 => if !isNan32 x && !Val.lt (val32 x) Val.zero then (x, 0) else fmul x y
  | 0x09 => fn2 .sigmoid x
  | 0x0A => fn2 .tanh x
  | 0x0B => fn2 .silu x
  | 0x0C => fn2 .geluTanh x
  | 0x0D => fn2 .exp x
  | 0x0E => fdiv 0x3F800000 x
  | _ => fmul x x

/-- R114 stage 3: the chain on one element. -/
def drainChain (s : State) (d : TileD) (i j : Nat) (x : DrainEl) : DrainEl × Flags :=
  (List.range d.chainLen).foldl (fun (a : DrainEl × Flags) o =>
    let c := chainOp s d o
    let y := c.operand s d i j
    let r := chainFn c.op a.1.x y.1
    ({ x := r.1, poison := a.1.poison || y.2.2 }, a.2 ||| y.2.1 ||| r.2 ||| Flags.when y.2.2 Flag.poisonSeen)) (x, 0)

/-- Stages 2 and 3 of one entry; a pooling window without a real tap gives +0 (R209). -/
def drainEl (s : State) (d : TileD) (i j : Nat) (e : AccEntry) : DrainEl × Flags :=
  if d.op = 0x12 ∧ d.geo.realTaps (d.geo.p0 + i) = 0 then ({ x := 0, poison := e.poison }, 0)
  else
    let r := drainScale d i e
    let c := drainChain s d i j { x := r.1, poison := e.poison }
    (c.1, r.2 ||| c.2)

/-- R118: maximum of a row in FP32, −∞ for an empty row. -/
def rowMax (xs : List F32) : F32 := xs.foldl fmax 0xFF800000

/-- R118 to R121: the record (m, s) of a row of values and its flags. A value of −∞ in MAX_SUMEXP
contributes 0; the sum is lined and rounded once. -/
def rowRecord (mode : Nat) (xs : List F32) : F32 × F32 × Flags :=
  let m := rowMax xs
  let sumOf (vs : List Val) : F32 × Flags :=
    let r := linedSum Lined.zero vs
    let q := rn32 r.1.val
    (q.1, r.2 ||| q.2)
  let hasInf := xs.any fun x => x == 0x7F800000
  if xs.any isNan32 then (qnan, qnan, 0)
  else if mode = 1 then (m, 0, Flags.when hasInf Flag.invalid)
  else if hasInf then (m, qnan, Flag.invalid)
  else if m = 0xFF800000 then (m, 0, 0)
  else if mode = 2 then
    let r := sumOf (xs.map val32)
    (m, r.1, r.2)
  else
    let es := xs.map fun x => if x = 0xFF800000 then ((0 : F32), (0 : Flags)) else expDiff x m
    let r := sumOf (es.map fun e => val32 e.1)
    (m, r.1, es.foldl (fun f e => f ||| e.2) r.2)

/-- A term of the merge of R119, exact: sum × exp(max − m'), none where the sum is 0. -/
def mergeTerm (sum mx m' : F32) : Option (Val × Flags) :=
  if (val32 sum).isZero then none
  else
    let e := expDiff mx m'
    let p := Val.mul (val32 sum) (val32 e.1)
    some (p.1, e.2 ||| p.2)

/-- The exact sum of two terms, of which either may be absent. -/
def addTerms : Option (Val × Flags) → Option (Val × Flags) → Val × Flags
  | none, none => (Val.zero, 0)
  | some a, none => a
  | none, some b => b
  | some a, some b => let r := Val.add a.1 b.1; (r.1, a.2 ||| b.2 ||| r.2)

/-- R119: merge a record into a stored one; one rounding. A NaN sum stays NaN without a flag (R69). -/
def mergeRecord (mode : Nat) (m s mt st : F32) : F32 × F32 × Flags :=
  match mode with
  | 1 => (fmax m mt, s, 0)
  | 2 =>
    let r := fadd s st
    (m, r.1, r.2)
  | _ =>
    let m' := fmax m mt
    if isNan32 m' || isNan32 s || isNan32 st then (m', qnan, 0)
    else
      let r := rnWith (addTerms (mergeTerm s m m') (mergeTerm st mt m'))
      (m', r.1, r.2)

/-- Stage 4 of row i: write its record, an FP32 operand and result that flush-to-zero acts on (R70). -/
def writeRowStat (s : State) (d : TileD) (i : Nat) (els : List DrainEl) : State × Flags :=
  if d.rowstat = 0 then (s, 0)
  else
    let a := d.statAddr + 8 * i
    let r := rowRecord d.rowstat (els.map (·.x))
    let old := s.rd a 8
    let m := flush32 d.ctl.ftz (BitVec.ofNat 32 old) Flag.underflow
    let t := flush32 d.ctl.ftz (BitVec.ofNat 32 (old / 2 ^ 32)) Flag.underflow
    let oldBad := d.rowMerge && s.poisonIn a 8
    let q := if d.rowMerge then mergeRecord d.rowstat m.1 t.1 r.1 r.2.1 else (r.1, r.2.1, 0)
    let fr := if !d.rowMerge then 0 else if d.rowstat = 1 then m.2 else if d.rowstat = 2 then t.2 else m.2 ||| t.2
    let bad := els.any (·.poison) || oldBad
    let x := flush32 d.ctl.ftz q.1 (Flag.underflow ||| Flag.inexact)
    let y := flush32 d.ctl.ftz q.2.1 (Flag.underflow ||| Flag.inexact)
    let s := if d.rowstat = 2 then s else s.wr a 4 x.1.toNat bad
    let s := if d.rowstat = 1 then s else s.wr (a + 4) 4 y.1.toNat bad
    (s, r.2.2 ||| q.2.2 ||| fr ||| (if d.rowstat = 2 then 0 else x.2) ||| (if d.rowstat = 1 then 0 else y.2) |||
      Flags.when bad Flag.poisonSeen)

/-- R201, R216: where output element (i, j) of a convolution form is written. -/
def convOutAddr (d : TileD) (i j : Nat) : Nat :=
  let g := d.geo
  let e := (fmtOf d.fmtC).bytes
  let p := g.p0 + i
  let co := g.co0 + j
  if d.op = 0x16 then
    if g.nhwc then d.cAddr + (p * g.cIn + co) * e
    else d.cAddr + (ConvGeo.pixel g.cbIn g.h g.w (p / (g.h * g.w)) (co / 32) (p / g.w % g.h) (p % g.w) * 32 + co % 32) * e
  else
    let n := p / (g.oh * g.ow)
    let y := p / g.ow % g.oh
    let x := p % g.ow
    if g.d2s = 0 then
      if g.nhwc then d.cAddr + (p * g.cOut + co) * e
      else d.cAddr + (ConvGeo.pixel g.cbOut g.oh g.ow n (co / 32) y x * 32 + co % 32) * e
    else
      let bs := 2 ^ g.d2s
      let c' := g.cOut / (bs * bs)
      let c := co % c'
      let y' := y * bs + co / (c' * bs)
      let x' := x * bs + co / c' % bs
      if g.nhwc then d.cAddr + (((n * (g.oh * bs) + y') * (g.ow * bs) + x') * c' + c) * e
      else d.cAddr + (ConvGeo.pixel (ceilDiv c' 32) (g.oh * bs) (g.ow * bs) n (c / 32) y' x' * 32 + c % 32) * e

/-- Where output element (i, j) that is not in a block format is written (R116, R201). -/
def outAddr (d : TileD) (i j : Nat) : Nat :=
  if d.isConv then convOutAddr d i j else d.cAddr + i * d.ldc + j * (fmtOf d.fmtC).bytes

/-- Where block b of output row i, and its scale, are written (R116, R195). -/
def outBlock (d : TileD) (i b : Nat) : Nat × Nat :=
  let f := fmtOf d.fmtC
  if d.isConv then
    let g := d.geo
    let p := g.p0 + i
    let k :=
      if d.op = 0x16 then ConvGeo.pixel g.cbIn g.h g.w (p / (g.h * g.w)) (g.co0 / 32 + b) (p / g.w % g.h) (p % g.w)
      else ConvGeo.pixel g.cbOut g.oh g.ow (p / (g.oh * g.ow)) (g.co0 / 32 + b) (p / g.ow % g.oh) (p % g.ow)
    (d.cAddr + k * f.blockBytes, d.cScale + k)
  else (d.cAddr + i * d.ldc + b * f.blockBytes, d.cScale + i * (d.ldc / f.blockBytes) + b)

/-- R74, R116, R203: the stochastic-rounding index of output element (i, j). -/
def srIndex (d : TileD) (i j : Nat) : Nat :=
  if d.isConv then
    (d.idxBase + (d.geo.p0 + i) * (if d.op = 0x16 then d.geo.cIn else d.geo.cOut) + d.geo.co0 + j) % 2 ^ 64
  else (d.idxBase + i * d.idxRow + j) % 2 ^ 64

/-- Consecutive stores of single elements, joined into runs of neighbouring addresses: the bytes of a
row written together (R296). -/
def joinRuns : List (Nat × List Byte × Bool) → List (Nat × List (Byte × Bool))
  | [] => []
  | (a, bs, p) :: r =>
    let here := bs.map fun b => (b, p)
    match joinRuns r with
    | [] => [(a, here)]
    | (b, more) :: rest => if a + bs.length = b then (a, here ++ more) :: rest else (a, here) :: (b, more) :: rest

/-- Store runs of bytes with their poison. -/
def storeRuns (s : State) (rs : List (Nat × List (Byte × Bool))) : State :=
  rs.foldl (fun s r =>
    s.store r.1 (r.2.map (·.1)) ((r.2.zipIdx.filter fun x => x.1.2).map fun x => r.1 + x.2)) s

/-- Store the elements of one output row. -/
def storeEls (s : State) (els : List (Nat × List Byte × Bool)) : State := storeRuns s (joinRuns els)

/-- The runs that stores of single elements make, and their bytes. -/
def runBytes (els : List (Nat × List Byte × Bool)) : List (Nat × List Byte) := (joinRuns els).map fun r => (r.1, r.2.map (·.1))

/-- Store elements that may lie in stack memory, through its home slices (R310). -/
def reachEls (s : State) (els : List (Nat × List Byte × Bool)) : State := storeEls (sliceStores s (runBytes els)) els

/-- Store elements, but for those that reach into the scratchpad of a fenced or unmapped cell (R17). -/
def upEls (s : State) (els : List (Nat × List Byte × Bool)) : State := reachEls s (els.filter fun e => !s.downIn e.1 e.2.1.length)

/-- A block of a block format as bytes: element bits packed from the lowest (R68). -/
def packBlock (f : Fmt) (els : List Nat) : List Byte :=
  leBytes f.blockBytes (els.foldr (fun e a => e + 2 ^ f.bits * a) 0)

/-- Stages 5 and 6 for a row of exact values with their indices and poison (R75 to R77, R116). -/
def writeRow (s : State) (f : Fmt) (ctl : Numctl) (seed : Nat) (addr : Nat → Nat) (blk : Nat → Nat × Nat)
    (vals : List (Val × Nat × Bool)) : State × Flags :=
  let bad := vals.any fun v => v.2.2
  let fp := Flags.when bad Flag.poisonSeen
  if f.isMx then
    let n := vals.length
    let bs := (List.range (ceilDiv n 32)).map fun b =>
      let part := (vals.drop (32 * b)).take 32
      let r := mxBlock f ctl (part.map fun v => (v.1, srBits seed v.2.1))
      let els := r.2.1 ++ List.replicate (32 - part.length) 0
      let p := part.any fun v => v.2.2
      (((blk b).1, packBlock f els, p), ((blk b).2, leBytes 1 r.1, p), r.2.2)
    (storeEls (storeEls s (bs.map (·.1))) (bs.map fun b => b.2.1), bs.foldl (fun a b => a ||| b.2.2) fp)
  else
    let rs := (vals.zipIdx).map fun (v, j) =>
      let r := convert f ctl (srBits seed v.2.1) v.1
      ((addr j, leBytes f.bytes r.1, v.2.2), r.2)
    (storeEls s (rs.map (·.1)), rs.foldl (fun a r => a ||| r.2) fp)

/-- R115: the raw words of row i. -/
def writeImageRow (s : State) (d : TileD) (i : Nat) (es : List AccEntry) : State :=
  let w := if d.acc = .lined then 8 else 4
  let base := if d.isConv then d.cAddr + i * d.n * w else d.cAddr + i * d.ldc
  storeEls s ((es.zipIdx).map fun (e, j) =>
    (base + j * w, if d.acc = .lined then e.p.toBytes else leBytes 4 e.p.v.toNat, e.poison))

/-- The whole drain of row i. -/
def drainRow (d : TileD) (a : State × Flags) (i : Nat) (es : List AccEntry) : State × Flags :=
  if d.image then (writeImageRow a.1 d i es, a.2)
  else
    let rs := (es.zipIdx).map fun (e, j) => drainEl a.1 d i j e
    let st := writeRowStat a.1 d i (rs.map (·.1))
    let vals := (rs.zipIdx).map fun (r, j) => (val32 r.1.x, srIndex d i j, r.1.poison)
    let w := writeRow st.1 (fmtOf d.fmtC) d.ctl d.seed (outAddr d i) (outBlock d i) vals
    (w.1, rs.foldl (fun f r => f ||| r.2) (a.2 ||| st.2 ||| w.2))

/-- R114, R115: the drain of a tile: memory written, and the flags raised. -/
def drainTile (s : State) (d : TileD) (es : List AccEntry) : State × Flags :=
  (List.range d.m).foldl (fun a i => drainRow d a i ((es.drop (i * d.n)).take d.n)) (s, 0)

end Sys2Proof.Machine
end

