-- ==== Sys2Proof/Machine/Ranges.lean ====
section
/-! DEFINITION. The memory ranges that descriptors read and write (R160), and the wait rules over them
(R117, R153, R160). -/
namespace Sys2Proof.Machine

/-- A run of bytes: first address and length. -/
abbrev Run := Nat × Nat

/-- Rows of an operand: base, stride, count, bytes per row. -/
def rowRuns (base ld n bytes : Nat) : List Run := (List.range n).map fun i => (base + i * ld, bytes)

/-- Bytes of a row of n elements of a format. -/
def rowBytes (f : Fmt) (n : Nat) : Nat := if f.isMx then ceilDiv n 32 * f.blockBytes else n * f.bytes

/-- The rows of a stored operand and of its scales (R103). -/
def storedRuns (f : Fmt) (addr scale ld rows cols : Nat) : List Run :=
  rowRuns addr ld rows (rowBytes f cols) ++
    (if f.isMx then rowRuns scale (ld / f.blockBytes) rows (ceilDiv cols 32) else [])

/-- One pixel vector's bytes, its in-bounds lanes only, and its scale. -/
def pixelRuns (f : Fmt) (addr scale k lanes : Nat) : List Run :=
  if f.isMx then [(addr + k * f.blockBytes, f.blockBytes), (scale + k, 1)]
  else [(addr + k * 32 * f.bytes, lanes * f.bytes)]

/-- Bytes of the operand that the array's chain operations read (R155). -/
def chainRuns (s : State) (d : TileD) : List Run :=
  if d.chainLen = 0 then []
  else
    (d.chainAddr, 16 * d.chainLen) ::
      (List.range d.chainLen).flatMap fun o =>
        let c := chainOp s d o
        let e := (fmtOf c.fmt).bytes
        match c.src with
        | 2 => [(c.addr, d.n * e)]
        | 3 => [(c.addr, d.m * e)]
        | 4 => rowRuns c.addr c.ld d.m (d.n * e)
        | _ => []

/-- What the preload of a tile reads (R110, R202). -/
def preRuns (d : TileD) : List Run :=
  match d.preKind with
  | 0 => []
  | 2 => if d.n = 0 then [] else [((preAddrOf d 0 0).1, d.n * (fmtOf d.fmtP).bytes)]
  | _ =>
    (List.range d.m).flatMap fun i => (List.range d.n).map fun j =>
      let a := preAddrOf d i j
      (a.1, a.2)

/-- What the array's operands of a convolution form cover, chunk by chunk. -/
def convRuns (d : TileD) : List Run :=
  let g := d.geo
  let fa := fmtOf d.fmtA
  let fb := fmtOf d.fmtB
  let lanesOf (limit cb : Nat) : Nat := min 32 (limit - cb * 32)
  let pix (cbs h w limit cb : Nat) (src : Option (Nat × Nat × Nat)) : List Run :=
    match src with
    | none => []
    | some (n, y, x) => pixelRuns fa d.aAddr d.aScale (ConvGeo.pixel cbs h w n cb y x) (lanesOf limit cb)
  let blocks := (List.range (ceilDiv d.n 32)).map (g.co0 / 32 + ·)
  let chunks := (List.range g.kc).map (g.kc0 + ·)
  match d.op with
  | 0x17 =>
    let ps := chunks.flatMap fun c => (List.range 32).filterMap fun ci =>
      if c * 32 + ci < g.nImg * g.oh * g.ow then some (c * 32 + ci) else none
    (ps.flatMap fun p => (List.range d.m).flatMap fun i =>
      let k := g.p0 + i
      let tap := k / (g.cbIn * 32)
      let c := k % (g.cbIn * 32)
      if g.cIn ≤ c then [] else pix g.cbIn g.h g.w g.cIn (c / 32) (g.tapSource p (tap / g.kw) (tap % g.kw))) ++
    (ps.flatMap fun p => blocks.flatMap fun cb =>
      pixelRuns fb d.cAddr d.bScale
        (ConvGeo.pixel g.cbOut g.oh g.ow (p / (g.oh * g.ow)) cb (p / g.ow % g.oh) (p % g.ow)) (lanesOf g.cOut cb))
  | 0x16 =>
    let grouped := g.group ≠ 0
    ((List.range d.m).flatMap fun i => chunks.flatMap fun k =>
      if grouped then blocks.flatMap fun cb => pix g.cbOut g.oh g.ow g.cOut cb (g.dySource (g.p0 + i) (k / g.kw) (k % g.kw))
      else pix g.cbOut g.oh g.ow g.cOut (k % g.cbOut) (g.dySource (g.p0 + i) (k / g.cbOut / g.kw) (k / g.cbOut % g.kw))) ++
    (chunks.flatMap fun k => (List.range d.n).flatMap fun j =>
      let cin := g.co0 + j
      if grouped then
        (List.range g.gsize).map fun q =>
          (d.bAddr + k * g.ldw + ((cin / g.gsize * g.gsize + q) * g.gsize + cin % g.gsize) * fb.bytes, fb.bytes)
      else
        let row := k / g.cbOut * (g.cbIn * 32) + cin
        let co0 := k % g.cbOut * 32
        let lanes := lanesOf g.cOut (k % g.cbOut)
        if d.transB then storedRuns fb (d.bAddr + co0 * g.ldw) (d.bScale + co0 * (g.ldw / fb.blockBytes)) g.ldw lanes (row + 1)
        else storedRuns fb (d.bAddr + row * g.ldw) (d.bScale + row * (g.ldw / fb.blockBytes)) g.ldw 1 (co0 + lanes))
  | op =>
    let grouped := op = 0x12 ∨ g.group ≠ 0
    ((List.range d.m).flatMap fun i => chunks.flatMap fun k =>
      if grouped then blocks.flatMap fun cb => pix g.cbIn g.h g.w g.cIn cb (g.tapSource (g.p0 + i) (k / g.kw) (k % g.kw))
      else pix g.cbIn g.h g.w g.cIn (k % g.cbIn) (g.tapSource (g.p0 + i) (k / g.cbIn / g.kw) (k / g.cbIn % g.kw))) ++
    (if op = 0x12 then []
     else chunks.flatMap fun k =>
      if grouped then [(d.bAddr + k * g.ldw + g.co0 * g.gsize * fb.bytes, d.n * g.gsize * fb.bytes)]
      else
        let k0 := k * 32
        let lanes := lanesOf g.cIn (k % g.cbIn)
        if d.transB then
          (List.range d.n).flatMap fun j =>
            let co := g.co0 + j
            if fb.isMx then storedRuns fb (d.bAddr + co * g.ldw + k0 / 32 * fb.blockBytes)
              (d.bScale + co * (g.ldw / fb.blockBytes) + k0 / 32) g.ldw 1 32
            else [(d.bAddr + co * g.ldw + k0 * fb.bytes, lanes * fb.bytes)]
        else
          (List.range lanes).flatMap fun l =>
            if fb.isMx then storedRuns fb (d.bAddr + (k0 + l) * g.ldw + g.co0 / 32 * fb.blockBytes)
              (d.bScale + (k0 + l) * (g.ldw / fb.blockBytes) + g.co0 / 32) g.ldw 1 d.n
            else [(d.bAddr + (k0 + l) * g.ldw + g.co0 * fb.bytes, d.n * fb.bytes)])

/-- What the array of a descriptor reads: operands, and the preload (R117). -/
def arrayReads (d : TileD) : List Run :=
  (if d.isConv then convRuns d
   else
    let a := if d.transA then storedRuns (fmtOf d.fmtA) d.aAddr d.aScale d.lda d.k d.m
      else storedRuns (fmtOf d.fmtA) d.aAddr d.aScale d.lda d.m d.k
    let b := if d.transB then storedRuns (fmtOf d.fmtB) d.bAddr d.bScale d.ldb d.n d.k
      else storedRuns (fmtOf d.fmtB) d.bAddr d.bScale d.ldb d.k d.n
    a ++ b) ++ (if d.chainIn then [] else preRuns d)

/-- What the drain of a descriptor reads: chain operands and merged records. -/
def drainReads (s : State) (d : TileD) : List Run :=
  if d.drain && !d.isGrad then
    chainRuns s d ++ (if d.rowstat ≠ 0 && d.rowMerge then [(d.statAddr, 8 * d.m)] else [])
  else []

/-- What the drain of a descriptor writes (R115, R116, R201). -/
def drainWrites (d : TileD) : List Run :=
  if d.drain && !d.isGrad then
    let f := fmtOf d.fmtC
    let w := if d.acc = .lined then 8 else 4
    (if d.image then
      (if d.isConv then [(d.cAddr, d.m * d.n * w)] else rowRuns d.cAddr d.ldc d.m (d.n * w))
     else if f.isMx then
      (List.range d.m).flatMap fun i => (List.range (ceilDiv d.n 32)).flatMap fun b =>
        let o := outBlock d i b
        [(o.1, f.blockBytes), (o.2, 1)]
     else if d.isConv then
      (List.range d.m).flatMap fun i => (List.range d.n).map fun j => (convOutAddr d i j, f.bytes)
     else rowRuns d.cAddr d.ldc d.m (d.n * f.bytes)) ++
    (if d.rowstat ≠ 0 then [(d.statAddr, 8 * d.m)] else [])
  else []

/-- How many sources a map or reduction reads (R167, R170). -/
def vecArity (op code : Nat) : Nat :=
  if op = 0x21 then (if code = 6 then 2 else 1)
  else
    match code with
    | 0x01 | 0x02 | 0x03 | 0x04 | 0x05 | 0x06 | 0x17 => 2
    | 0x07 | 0x0A | 0x16 => 3
    | _ => 1

/-- The rows of one source of the vector engine (R163). -/
def VecSrc.runs (v : VecSrc) (scale rows cols : Nat) : List Run :=
  if v.imm.isSome then []
  else
    let f := fmtOf v.fmt
    if v.cb then rowRuns v.addr v.ld (if v.ld = 0 then min rows 1 else rows) f.bytes
    else storedRuns f v.addr scale v.ld (if v.ld = 0 then min rows 1 else rows) cols

/-- The sources a map or reduction reads. -/
def VecD.sources (d : VecD) : List (VecSrc × Nat) :=
  ([({ d.s0 with imm := none }, d.s0Scale), (d.s1, 0), (d.s2, 0)] : List (VecSrc × Nat)).take (vecArity d.op d.code)

/-- The number of results of a reduction. -/
def VecD.results (d : VecD) : Nat := if d.axis = 0 then d.rows else d.cols

/-- What a map or reduction writes (R164, R170). -/
def VecD.writes (d : VecD) : List Run :=
  let f := fmtOf d.fmtD
  if d.op = 0x20 then storedRuns f d.dAddr d.dScale d.ldd d.rows d.cols
  else
    let e := if d.outLined then 8 else f.bytes
    if d.axis = 0 then rowRuns d.dAddr d.ldd d.rows e else [(d.dAddr, d.cols * e)]

/-- What a map or reduction reads; a merging reduction reads its destination too (R172). -/
def VecD.reads (d : VecD) : List Run :=
  (d.sources.flatMap fun x => x.1.runs x.2 d.rows d.cols) ++ (if d.op = 0x21 && d.accum then d.writes else [])

/-- What an optimizer update reads (R173). -/
def UpdD.reads (d : UpdD) : List Run :=
  let e := (fmtOf d.fmtMV).bytes
  [(d.w, 4 * d.len), (d.g, 4 * d.len), (d.m, e * d.len)] ++ (if d.algo = 1 then [(d.v, e * d.len)] else [])

/-- What an optimizer update writes (R173). -/
def UpdD.writes (d : UpdD) : List Run :=
  let e := (fmtOf d.fmtMV).bytes
  [(d.wOut, 4 * d.len), (d.mOut, e * d.len)] ++ (if d.algo = 1 then [(d.vOut, e * d.len)] else []) ++
    (if d.cEn then [(d.c, (fmtOf d.fmtC).bytes * d.len)] else [])

/-- Is this a backward Skiver operation? -/
def SkD.bwd (d : SkD) : Bool := decide (d.op = 0x31 ∨ d.op = 0x33)

/-- Does it read memory records (R183)? A SOFTMAX_BWD that is given y reads none (R188). -/
def SkD.memStat (d : SkD) : Bool :=
  decide (d.op = 0x35 ∨ (d.op ≤ 0x33 ∧ (d.statSrc = 2 ∨ d.statSrc = 3))) && !(d.op == 0x33 && d.ySrc)

/-- The parameters it reads: γ, and β in NORM_FWD with AFFINE 2 (R185, R186). -/
def SkD.paramRuns (d : SkD) : List Run :=
  if d.op ≤ 0x31 && d.affine ≠ 0 then [(d.p, d.cols * (if d.op = 0x31 then 1 else d.affine) * (fmtOf d.fmtP).bytes)] else []

/-- What a Skiver descriptor reads (R184). -/
def SkD.reads (d : SkD) : List Run :=
  (if d.op ≤ 0x33 then rowRuns d.x d.ldx d.rows (d.cols * (fmtOf d.fmtX).bytes) else []) ++
  (if d.bwd then rowRuns d.g d.ldg d.rows (d.cols * (fmtOf d.fmtG).bytes) else []) ++
  d.paramRuns ++ (if d.memStat then [(d.stat, 8 * d.rows)] else [])

/-- Does it write memory records (R184, R190)? -/
def SkD.saves (d : SkD) : Bool := decide (d.op = 0x34) || (d.statSave && decide (d.op = 0x30 ∨ d.op = 0x32))

/-- What a Skiver descriptor writes (R184). -/
def SkD.writes (d : SkD) : List Run :=
  (if d.op ≤ 0x33 then rowRuns d.out d.ldo d.rows (d.cols * (fmtOf d.fmtOut).bytes) else []) ++
  (if d.saves then [(d.stat, 8 * d.rows)] else [])

/-- R211: the interleaved address of value q of tile row i, none in the padding. -/
def StemD.image (d : StemD) (base e i q : Nat) : Option Nat :=
  let p := d.p0 + i
  let n := p / (d.oh * d.ow)
  let c := q % d.cs
  let tap := q / d.cs
  let y : Int := (p / d.ow % d.oh * d.sh + tap / d.kw : Nat) - (d.pt : Int)
  let x : Int := (p % d.ow * d.sw + tap % d.kw : Nat) - (d.pl : Int)
  if y < 0 ∨ x < 0 ∨ (d.h : Int) ≤ y ∨ (d.w : Int) ≤ x then none
  else some (base + n * d.ldImg + y.toNat * d.ldRow + (x.toNat * d.cs + c) * e)

/-- Values of a receptive field. -/
def StemD.q (d : StemD) : Nat := d.kh * d.kw * d.cs

/-- Bytes of a packed row (R211). -/
def StemD.packed (d : StemD) (e : Nat) : Nat := ceilDiv d.q 32 * 32 * e

/-- What a stem descriptor reads (R213). -/
def StemD.reads (d : StemD) : List Run :=
  let e := (fmtOf d.fmtS).bytes
  if d.op = 0x13 then
    (List.range d.m).flatMap fun i => (List.range d.q).filterMap fun q => (d.image d.src e i q).map fun a => (a, e)
  else rowRuns d.src (d.packed e) d.m (d.q * e)

/-- What a stem descriptor writes (R213). -/
def StemD.writes (d : StemD) : List Run :=
  let e := (fmtOf d.fmtD).bytes
  if d.op = 0x13 then [(d.dst, d.m * d.packed e)]
  else (List.range d.m).flatMap fun i => (List.range d.q).filterMap fun q => (d.image d.dst e i q).map fun a => (a, e)

/-! ## MOVE -/

/-- Bytes of one encoded block, and elements it holds (R249, R283): scalar forms count as blocks of 1. -/
def formBlock (form : Nat) : Nat × Nat :=
  match form with
  | 1 => (1, 1)
  | 2 => (24, 32)
  | 3 => (32, 32)
  | 4 => (16, 32)
  | _ => (2, 1)

/-- Does the MOVE act as COPY (R283)? -/
def MoveD.isCopy (d : MoveD) : Bool := decide (d.xform = 0 ∨ ((d.xform = 1 ∨ d.xform = 2) ∧ d.form = 0))

/-- Row number x of a MOVE as plane and row. -/
def MoveD.planeRow (d : MoveD) (x : Nat) : Nat × Nat := (x / d.rows, x % d.rows)

/-- Rows that a MOVE is cut into (R276): planes × rows, or the source rows of a REGROUP. -/
def MoveD.rowCount (d : MoveD) : Nat :=
  if d.xform = 3 then (if d.rgInter then d.rgN * d.rgH else d.rgN * ceilDiv d.rgC 32 * d.rgH) else d.planes * d.rows

/-- Source run of row x (R282 to R284). -/
def MoveD.srcRow (d : MoveD) (x : Nat) : Run :=
  if d.xform = 3 then
    let len := d.rgW * (if d.rgInter then d.rgC else 32) * d.esize
    (d.src + x * len, len)
  else
    let pr := d.planeRow x
    let base := d.src + pr.1 * d.srcPd + pr.2 * d.srcLd
    if d.xform = 2 && !d.isCopy then
      let b := formBlock d.form
      (base, ceilDiv d.cols b.2 * b.1)
    else (base, d.cols * d.esize)

/-- Destination run of row x; a REGROUP's destinations are given element by element. -/
def MoveD.dstRow (d : MoveD) (x : Nat) : Run :=
  let pr := d.planeRow x
  let base := d.dst + pr.1 * d.dstPd + pr.2 * d.dstLd
  if d.isCopy then (base, d.cols * d.esize)
  else if d.xform = 1 then
    let b := formBlock d.form
    (base, ceilDiv d.cols b.2 * b.1)
  else (base, d.cols * 2)

/-- Where a REGROUP writes element (n, c, h, w) (R215). -/
def MoveD.regroupDst (d : MoveD) (n c h w : Nat) : Nat :=
  let bs := 2 ^ d.bs
  let ch := (h % bs * bs + w % bs) * d.rgC + c
  let hh := ceilDiv d.rgH bs
  let ww := ceilDiv d.rgW bs
  d.dst + (ConvGeo.pixel (ceilDiv (d.rgC * bs * bs) 32) hh ww n (ch / 32) (h / bs) (w / bs) * 32 + ch % 32) * d.esize

/-- Scale runs of the encoded side under form MXFP6 (R283). -/
def MoveD.scaleRuns (d : MoveD) : List Run :=
  if d.form = 2 ∧ (d.xform = 1 ∨ d.xform = 2) then
    (List.range d.rowCount).map fun x =>
      let pr := d.planeRow x
      if d.xform = 1 then (d.dstScale + (pr.1 * d.dstPd + pr.2 * d.dstLd) / 24, ceilDiv d.cols 32)
      else (d.srcScale + (pr.1 * d.srcPd + pr.2 * d.srcLd) / 24, ceilDiv d.cols 32)
  else []

/-- What a MOVE reads. -/
def MoveD.reads (d : MoveD) : List Run :=
  (List.range d.rowCount).map d.srcRow ++ (if d.xform = 2 then d.scaleRuns else [])

/-- What a MOVE writes; all positions of a REGROUP, the missing ones too (R215). -/
def MoveD.writes (d : MoveD) : List Run :=
  if d.xform = 3 then
    let bs := 2 ^ d.bs
    (List.range d.rgN).flatMap fun n => (List.range d.rgC).flatMap fun c =>
      (List.range (roundUp d.rgH bs)).flatMap fun h =>
        (List.range (roundUp d.rgW bs)).map fun w => (d.regroupDst n c h w, d.esize)
  else (List.range d.rowCount).map d.dstRow ++ (if d.xform = 1 then d.scaleRuns else [])

/-! ## Waiting (R117, R153, R160) -/

/-- What a handed-out descriptor reads. -/
def itemReads (s : State) (w : Nat) : List Run :=
  match fld w 7 0 with
  | 0x10 | 0x11 | 0x12 | 0x15 | 0x16 | 0x17 => let d := TileD.ofWord w; arrayReads d ++ drainReads s d
  | 0x13 | 0x14 => (StemD.ofWord w).reads
  | 0x20 | 0x21 => (VecD.ofWord w).reads
  | 0x22 => (UpdD.ofWord w).reads
  | 0x30 | 0x31 | 0x32 | 0x33 | 0x34 | 0x35 => (SkD.ofWord w).reads
  | 0x40 => (MoveD.ofWord w).reads
  | _ => []

/-- What a handed-out descriptor writes. -/
def itemWrites (w : Nat) : List Run :=
  match fld w 7 0 with
  | 0x10 | 0x11 | 0x12 | 0x15 | 0x16 | 0x17 => drainWrites (TileD.ofWord w)
  | 0x13 | 0x14 => (StemD.ofWord w).writes
  | 0x20 | 0x21 => (VecD.ofWord w).writes
  | 0x22 => (UpdD.ofWord w).writes
  | 0x30 | 0x31 | 0x32 | 0x33 | 0x34 | 0x35 => (SkD.ofWord w).writes
  | 0x40 => (MoveD.ofWord w).writes
  | 0x51 => if bit w 30 then [(fld w 73 32, 8)] else []
  | _ => []

/-- Do two lists of runs share a byte of a scratchpad? -/
def runsMeet (a b : List Run) : Bool :=
  a.any fun x => b.any fun y => rangesMeet x.1 x.2 y.1 y.2 && (cellOfAddr (max x.1 y.1)).isSome

/-- R160: the earlier descriptors of the piece that have not retired, before a slot. -/
def earlier (p : Piece) (slot : Nat) : List Item :=
  p.items.filter fun i => decide (i.slot < slot ∧ i.stage ≠ .armed)

/-- R350: does a range meet a landing range of a fabric operation of the context in progress; or, for
writes, its sending ranges? -/
def linkMeets (s : State) (ctx : Nat) (write : Bool) (rs : List Run) : Bool :=
  s.fab.any fun o => decide (o.ctx = ctx) &&
    rs.any fun x => (o.landing ++ if write then o.sending else []).any fun y => rangesMeet x.1 x.2 y.1 y.2

/-- R160, R350: may reads begin: does no earlier descriptor that has not retired write what is read, and
is it no landing range? -/
def readsFree (s : State) (p : Piece) (slot : Nat) (reads : List Run) : Bool :=
  ((earlier p slot).all fun i => !runsMeet reads (itemWrites i.word)) && !linkMeets s (pdCtx p.desc) false reads

/-- R160, R350: may writes begin: does no earlier descriptor that has not retired read or write what is
written, and is it no landing or sending range? -/
def writesFree (s : State) (p : Piece) (slot : Nat) (writes : List Run) : Bool :=
  ((earlier p slot).all fun i => !runsMeet writes (itemReads s i.word ++ itemWrites i.word)) &&
    !linkMeets s (pdCtx p.desc) true writes

end Sys2Proof.Machine
end

