-- ==== Sys2Proof/Machine/Check.lean ====
section
/-! DEFINITION. The checks made when a descriptor is handed out (R7, R67, R72, R100, R105, R107, R111,
R115, R118, R124, R125, R158, R162, R164, R166, R167, R171, R173, R176, R191, R203, R205, R206, R208,
R213, R222 to R226, R234, R238, R275, R281, R285, R286, R287, R289, R308, R311). -/
namespace Sys2Proof.Machine

/-- All runs with bytes in them lie in the cell's own scratchpad. -/
def ownRuns (c : Nat) (rs : List Run) : Bool := rs.all fun r => r.2 == 0 || inOwnSp c r.1 r.2

/-- Is a value a multiple of n? -/
def mult (n v : Nat) : Bool := decide (v % n = 0)

/-- R124: the alignment of an operand's address and stride. -/
def matAlign (f : Fmt) (addr ld : Nat) : Bool :=
  let u := if f.isMx then f.blockBytes else 8
  mult u addr && mult u ld

/-- R100: the pairs of formats that may be multiplied. -/
def pairOk (a b : Fmt) : Bool :=
  let half (f : Fmt) : Bool := decide (f ≠ .fp32 ∧ f ≠ .int8)
  (half a && half b) || decide (a = .int8 ∧ b = .int8) || decide (a = .fp32 ∧ (b = .fp32 ∨ b = .bf16)) ||
    decide (a = .bf16 ∧ b = .fp32)

/-- R72: NUMCTL against the operand formats. -/
def numctlOk (w : Nat) (a b : Fmt) : Bool :=
  match Numctl.ofNat w with
  | none => false
  | some c => if c.acc = .int32 then decide (a = .int8 ∧ b = .int8) else decide (a ≠ .int8 ∧ b ≠ .int8)

/-- NUMCTL with ACC 0 (R165, R173, R184, R213). -/
def numctlPlain (w : Nat) : Bool :=
  match Numctl.ofNat w with
  | none => false
  | some c => decide (c.acc = .plain)

/-- A format code that R67 defines and that is not a block format. -/
def scalarFmt (code : Nat) : Bool :=
  match Fmt.ofCode code with
  | none => false
  | some f => !f.isMx

/-- A format code that R67 defines. -/
def anyFmt (code : Nat) : Bool := (Fmt.ofCode code).isSome

/-! ## The chain (R155, R156, R158) -/

/-- One chain entry obeys R155, R156 and R158. -/
def chainEntryOk (c : ChainOp) : Bool :=
  let unary := decide (c.op ∈ [0x07, 0x09, 0x0A, 0x0B, 0x0C, 0x0D, 0x0E, 0x0F])
  let mem := decide (2 ≤ c.src)
  decide (1 ≤ c.op ∧ c.op ≤ 0x0F) && c.rsv == 0 && decide (c.src ≤ 4) && (unary == decide (c.src = 0)) &&
    (c.src == 1 || c.imm == 0) && (c.src == 4 || c.ld == 0) &&
    (if mem then scalarFmt c.fmt && mult (fmtOf c.fmt).bytes c.addr && (c.src != 4 || mult 8 c.ld)
     else c.addr == 0 && c.fmt == 0)

/-- R158: the whole chain of a descriptor. -/
def chainOk (s : State) (c : Nat) (d : TileD) : Bool :=
  d.chainLen == 0 ||
    (mult 16 d.chainAddr && inOwnSp c d.chainAddr (16 * d.chainLen) && !s.poisonIn d.chainAddr (16 * d.chainLen) &&
      let cs := (List.range d.chainLen).map (chainOp s d)
      let tens := cs.filter fun x => x.src == 4
      cs.all chainEntryOk && decide ((cs.filter fun x => x.src == 2 || x.src == 3).length ≤ 4) &&
        decide (tens.length ≤ 2) && decide ((tens.map fun x => (fmtOf x.fmt).bytes).sum ≤ 4))

/-! ## The accumulator file as the list leaves it (R107) -/

/-- A span as hand-out sees it: group, groups, M, N, accumulator format. -/
structure OpenSpan where
  group : Nat
  groups : Nat
  m : Nat
  n : Nat
  acc : Acc
  deriving DecidableEq, Repr

/-- The span of a descriptor. -/
def TileD.openSpan (d : TileD) : OpenSpan := { group := d.group, groups := d.groups, m := d.m, n := d.n, acc := d.acc }

/-- Do two spans share a group? -/
def OpenSpan.meets (a b : OpenSpan) : Bool := rangesMeet a.group a.groups b.group b.groups

/-- The OPEN spans once every array descriptor handed out so far has run. -/
def openAfter (s : State) (c : Nat) (p : Piece) : List OpenSpan :=
  let now := (s.cell c).tiles.filterMap fun t =>
    if t.span = .opened ∧ t.piece = p.seq then
      some { group := t.group, groups := t.groups, m := t.m, n := t.n, acc := t.acc } else none
  let todo := p.items.filter fun i =>
    decide (unitOf i.word = .array ∧ (i.stage = .queued ∨ i.stage = .preloaded))
  todo.foldl (fun spans i =>
    let d := TileD.ofWord i.word
    let o := d.openSpan
    if d.chainIn then (if d.drain then spans.filter (· != o) else spans)
    else if d.drain then spans.filter (· != o) else o :: spans) now

/-- R105, R107: the span of a new descriptor. -/
def spanOk (s : State) (c : Nat) (p : Piece) (d : TileD) : Bool :=
  let spans := openAfter s c p
  decide (d.group + d.groups ≤ 128) &&
    (if d.chainIn then d.preKind == 0 && spans.contains d.openSpan
     else spans.all fun o => !o.meets d.openSpan)

/-! ## Gradient forms (R223 to R226, R228, R234) -/

/-- The gradient map of the running context's open step. -/
def gmapOf (s : State) (ctx : Nat) : List Nat := ((s.ctx? ctx).bind (·.step)).elim [] (·.gmap)

/-- R227 KIND of a map entry. -/
def gmKind (e : Nat) : Nat := fld e 145 144
/-- R227 LOC. -/
def gmLoc (e : Nat) : Nat := fld e 105 64
/-- R227 ROWS. -/
def gmRows (e : Nat) : Nat := fld e 223 192
/-- R227 COLS. -/
def gmCols (e : Nat) : Nat := fld e 191 160

/-- Pairs that a descriptor stages for WELT homes (R234). -/
def pairsOf1 (s : State) (ctx w : Nat) : Nat :=
  match fld w 7 0 with
  | 0x15 | 0x17 =>
    let d := TileD.ofWord w
    if d.drain ∧ ((gmapOf s ctx)[d.gmap]?).map gmKind = some 0 then d.m * d.n else 0
  | 0x31 => let k := SkD.ofWord w; if k.weltEn then k.cols * k.affine else 0
  | _ => 0

/-- R224, R226: the destination of a gradient tile. -/
def gradOk (s : State) (ctx : Nat) (d : TileD) : Bool :=
  match (gmapOf s ctx)[d.gmap]? with
  | none => false
  | some e =>
    decide (gmKind e ≤ 1) && decide (d.acc = .lined) && d.preKind == 0 && d.outScale == 0x3F800000 &&
      (if d.op = 0x15 then
        decide (d.n ≤ d.ldg) && decide (d.elemOff + (d.m - 1) * d.ldg + (d.n - 1) < gmRows e * gmCols e)
       else
        decide (gmRows e = d.geo.kh * d.geo.kw * d.geo.cbIn * 32 ∧ gmCols e = d.geo.cOut))

/-! ## Array descriptors -/

/-- R205, R206, R208, R225, R226: the geometry of a convolution form. -/
def convOk (d : TileD) : Bool :=
  let g := d.geo
  let outs := g.nImg * g.oh * g.ow
  let dims := decide (0 < g.nImg ∧ 0 < g.cOut ∧ 0 < g.cIn ∧ 0 < g.w ∧ 0 < g.h ∧ 0 < g.kc)
  let grouped := decide (g.cIn = g.cOut) && mult (max 1 g.gsize) g.cIn
  let vec := fun (f : Fmt) (a : Nat) => mult (if f.isMx then f.blockBytes else 32 * f.bytes) a
  let filters := d.op == 0x11 || d.op == 0x16
  dims && g.shapeOk && mult 32 g.co0 && decide (g.kc0 + g.kc ≤ g.chunks d.op) && vec (fmtOf d.fmtA) d.aAddr &&
  decide (g.group ≤ 5) &&
  (!filters || (vec (fmtOf d.fmtB) d.bAddr && matAlign (fmtOf d.fmtB) 0 g.ldw)) &&
  (d.op != 0x17 || vec (fmtOf d.fmtB) d.cAddr) &&
  (d.preKind == 0 || mult 8 d.preAddr) && (d.preKind != 1 || vec (fmtOf d.fmtP) d.preAddr) &&
  (match d.op with
   | 0x11 =>
     g.poolOp == 0 && decide (g.p0 + d.m ≤ outs ∧ g.co0 + d.n ≤ g.cOut) &&
       (g.group == 0 || (grouped && !(fmtOf d.fmtB).isMx && !d.transB))
   | 0x12 =>
     g.poolOp != 0 && decide (g.p0 + d.m ≤ outs ∧ g.co0 + d.n ≤ g.cOut) && decide (g.cIn = g.cOut) &&
       d.preKind == 0 &&
       (if g.poolOp = 1 then decide (d.acc = .plain ∨ d.acc = .int32) else decide (d.acc ≠ .int32))
   | 0x16 =>
     g.idh == 1 && g.idw == 1 && g.poolOp == 0 && g.d2s == 0 &&
       decide (g.p0 + d.m ≤ g.nImg * g.h * g.w ∧ g.co0 + d.n ≤ g.cIn) &&
       (g.group == 0 || (grouped && !(fmtOf d.fmtB).isMx && !d.transB))
   | _ =>
     g.group == 0 && g.idh == 1 && g.idw == 1 && g.poolOp == 0 && d.preKind == 0 && !d.image && d.rowstat == 0 &&
       d.chainLen == 0 && g.d2s == 0 && !g.nhwc && decide (g.co0 + d.n ≤ g.cOut) &&
       decide (g.p0 + d.m ≤ g.kh * g.kw * g.cbIn * 32)) &&
  (g.d2s == 0 || (!d.image && d.rowstat == 0 && !(fmtOf d.fmtC).isMx && mult (4 ^ g.d2s) g.cOut)) &&
  (!g.nhwc || (!d.image && !(fmtOf d.fmtC).isMx)) &&
  (d.isGrad || !d.drain || vec (fmtOf d.fmtC) d.cAddr)

/-- R124: the alignment of a MATRIX or WGRAD. DESIGN CHOICE (log 114): an address or stride that the descriptor does not
use (of the output without DRAIN, of a preload of kind 0 or ROW's stride) is not checked. -/
def matrixAlignOk (d : TileD) : Bool :=
  matAlign (fmtOf d.fmtA) d.aAddr d.lda && matAlign (fmtOf d.fmtB) d.bAddr d.ldb &&
    (d.isGrad || !d.drain || matAlign (if d.image then .fp32 else fmtOf d.fmtC) d.cAddr d.ldc) &&
    (match d.preKind with
     | 0 => true
     | 2 => mult 8 d.preAddr
     | _ => mult 8 d.preAddr && mult 8 d.ldp)

/-- R125 and the rules it names, for every array descriptor. -/
def arrayOk (s : State) (c : Nat) (p : Piece) (d : TileD) : Bool :=
  let ctx := pdCtx p.desc
  let fa := fmtOf d.fmtA
  let fb := if d.op = 0x12 then fa else fmtOf d.fmtB
  let formats := anyFmt d.fmtA && (d.op == 0x12 || anyFmt d.fmtB) && (d.isGrad || anyFmt d.fmtC) &&
    (d.preKind == 0 || d.preKind == 3 || scalarFmt d.fmtP) &&
    (if d.op = 0x12 then decide (d.acc = .int32 ↔ fa = .int8) && (Numctl.ofNat d.numctl).isSome
     else numctlOk d.numctl fa fb && pairOk fa fb)
  formats && decide (1 ≤ d.m ∧ d.m ≤ 256 ∧ 1 ≤ d.n ∧ d.n ≤ 256 ∧ 0 < d.k) && decide (d.chainLen ≤ 8) &&
    (d.acc != .int32 || d.preKind == 0 || d.preKind == 3 || d.fmtP == 7) &&
    (!d.image || (d.rowstat == 0 && d.chainLen == 0)) && (d.rowstat == 0 || (d.drain && !d.image)) &&
    (if d.isConv then convOk d else matrixAlignOk d) && spanOk s c p d &&
    (!d.isGrad || gradOk s ctx d) &&
    (d.isGrad || (chainOk s c d && (d.rowstat == 0 || mult 8 d.statAddr))) &&
    ownRuns c (arrayReads d ++ drainReads s d ++ drainWrites d)

/-! ## Vector descriptors -/

/-- Does a destination coincide exactly with a source (R164)? -/
def coincides (d : VecD) (x : VecSrc) : Bool :=
  decide (x.addr = d.dAddr ∧ x.ld = d.ldd ∧ (fmtOf x.fmt).bits = (fmtOf d.fmtD).bits) && !x.cb

/-- R162: the alignment of a vector operand. -/
def vecAlign (f : Fmt) (addr ld : Nat) : Bool :=
  if f.isMx then mult f.blockBytes ld else mult f.bytes addr && mult f.bytes ld

/-- R162 to R171: maps and reductions. DESIGN CHOICE (log 145): the ranges of MX block scales count in the overlap test, where a
source that coincides with D in address, stride and element size passes whatever its scales do; LD_D is checked for alignment
in a COL reduction too, which does not use it. -/
def vecOk (c : Nat) (d : VecD) : Bool :=
  let srcs := d.sources.map (·.1)
  let map := d.op == 0x20
  let mem := srcs.filter fun x => x.imm.isNone
  let fd := fmtOf d.fmtD
  numctlPlain d.numctl && anyFmt d.fmtD && decide (0 < d.rows ∧ 0 < d.cols) && mem.all (fun x => anyFmt x.fmt) &&
    (if map then decide (d.code ≤ 0x17) else decide (d.code ≤ 6 ∧ d.axis ≤ 1)) &&
    (map || d.axis == 0 || decide (d.cols ≤ 4096)) && (map || !fd.isMx) && (map || !d.outLined || d.fmtD == 0) &&
    (srcs.drop 1).all (fun x => x.imm.isSome || !(fmtOf x.fmt).isMx) &&
    (!(fmtOf d.s0.fmt).isMx || !d.s0.cb) &&
    mem.all (fun x => vecAlign (fmtOf x.fmt) x.addr x.ld) &&
    (if !map && d.outLined then mult 8 d.dAddr && mult 8 d.ldd else vecAlign fd d.dAddr d.ldd) &&
    (d.sources.filter fun x => x.1.imm.isNone).all (fun x =>
      !(d.writes.any fun a => (x.1.runs x.2 d.rows d.cols).any fun b => rangesMeet a.1 a.2 b.1 b.2) ||
        (map && coincides d x.1)) &&
    ownRuns c (d.reads ++ d.writes)

/-- R162, R173, R176: the optimizer update. -/
def updOk (c : Nat) (d : UpdD) : Bool :=
  let e := (fmtOf d.fmtMV).bytes
  numctlPlain d.numctl && decide (d.algo ≤ 2 ∧ d.fmtMV ≤ 1 ∧ 0 < d.len) && (!d.cEn || scalarFmt d.fmtC) &&
    [d.w, d.g, d.wOut].all (mult 4) && [d.m, d.mOut].all (mult e) && (d.algo != 1 || [d.v, d.vOut].all (mult e)) &&
    (!d.cEn || mult (fmtOf d.fmtC).bytes d.c) && disjointRanges d.writes &&
    d.writes.all (fun a => d.reads.all fun b => !rangesMeet a.1 a.2 b.1 b.2) && ownRuns c (d.reads ++ d.writes)

/-! ## Skiver descriptors -/

/-- Positive and finite (R191). -/
def posFinite (x : F32) : Bool :=
  match val32 x with
  | .fin false m _ => decide (0 < m)
  | _ => false

/-- Finite. -/
def finite32 (x : F32) : Bool :=
  match val32 x with
  | .fin _ _ _ => true
  | _ => false

/-- R183 to R188: is STAT_SRC allowed for the opcode? -/
def statSrcOk (d : SkD) : Bool :=
  match d.op with
  | 0x30 => d.statSrc == 0
  | 0x31 => d.statSrc != 0
  | 0x32 => d.statSrc == 0 || d.statSrc == 2
  | 0x33 => d.ySrc || d.statSrc != 0
  | _ => true

/-- Does a Skiver descriptor use side memory? -/
def SkD.usesSide (d : SkD) : Bool :=
  decide (0x34 ≤ d.op) || ((d.op == 0x30 || d.op == 0x32) && d.sideWrite) ||
    ((d.op == 0x31 || (d.op == 0x33 && !d.ySrc)) && (d.statSrc == 1 || d.statSrc == 3))

/-- R191: an output range overlaps an input range only by exact coincidence. -/
def skOverlapOk (d : SkD) : Bool :=
  let meet (a b : List Run) : Bool := a.any fun x => b.any fun y => rangesMeet x.1 x.2 y.1 y.2
  let outs := if d.op ≤ 0x33 then rowRuns d.out d.ldo d.rows (d.cols * (fmtOf d.fmtOut).bytes) else []
  let same (a ld fmt : Nat) : Bool :=
    decide (a = d.out ∧ ld = d.ldo ∧ (fmtOf fmt).bytes = (fmtOf d.fmtOut).bytes)
  let xs := if d.op ≤ 0x33 then rowRuns d.x d.ldx d.rows (d.cols * (fmtOf d.fmtX).bytes) else []
  let gs := if d.bwd then rowRuns d.g d.ldg d.rows (d.cols * (fmtOf d.fmtG).bytes) else []
  let st := if d.saves then [(d.stat, 8 * d.rows)] else []
  (!meet outs xs || same d.x d.ldx d.fmtX) && (!meet outs gs || same d.g d.ldg d.fmtG) && !meet outs d.paramRuns &&
    !meet outs (if d.memStat then [(d.stat, 8 * d.rows)] else []) && !meet st (xs ++ gs ++ d.paramRuns)

/-- R238: the column sums lie within one WELT slot of the running context's map. -/
def weltSlotOk (s : State) (ctx : Nat) (d : SkD) : Bool :=
  (gmapOf s ctx).any fun e =>
    decide (gmKind e = 0 ∧ gmLoc e ≤ d.weltOff ∧
      d.weltOff + 8 * d.cols * d.affine ≤ gmLoc e + 8 * gmRows e * gmCols e)

/-- R162, R191, R234, R238: a Skiver descriptor. -/
def skOk (s : State) (c ctx : Nat) (d : SkD) : Bool :=
  let work := decide (d.op ≤ 0x33)
  let norm := decide (d.op ≤ 0x31)
  let e (f : Nat) : Nat := (fmtOf f).bytes
  decide (1 ≤ d.rows ∧ d.rows ≤ 4096) && (!d.usesSide || decide (d.sideRow + d.rows ≤ 4096)) &&
    (!work || (numctlPlain d.numctl && decide (1 ≤ d.cols ∧ d.cols ≤ 65536 ∧ d.mode ≤ 1) && statSrcOk d &&
      scalarFmt d.fmtX && scalarFmt d.fmtOut && (!d.bwd || scalarFmt d.fmtG) &&
      (!norm || (decide (d.affine ≤ 2) && (d.affine == 0 || scalarFmt d.fmtP))) &&
      (if norm then d.op != 0x30 || posFinite d.param else finite32 d.param) &&
      mult (e d.fmtX) d.x && mult (e d.fmtX) d.ldx && mult (e d.fmtOut) d.out && mult (e d.fmtOut) d.ldo &&
      (!d.bwd || (mult (e d.fmtG) d.g && mult (e d.fmtG) d.ldg)) &&
      (!norm || d.affine == 0 || mult (e d.fmtP) d.p) && skOverlapOk d)) &&
    (!(d.memStat || d.saves) || mult 8 d.stat) &&
    (!(d.op == 0x31 && d.weltEn) ||
      (d.affine != 0 && decide (d.weltOff + 8 * d.cols * d.affine ≤ 262144) && mult 8 d.weltOff &&
        weltSlotOk s ctx d)) &&
    ownRuns c (d.reads ++ d.writes)

/-! ## Stem descriptors (R213) -/

/-- R308, R311, R463: n bytes of backed stack memory, or of a scratchpad area of the SLM. -/
def farOk (s : State) (a n : Nat) : Bool := s.backed a n || (s.inAreas a n && !s.meetsJournal a n)

/-- R213, R308, R311. -/
def stemOk (s : State) (c : Nat) (d : StemD) : Bool :=
  let pack := d.op == 0x13
  numctlPlain d.numctl && scalarFmt d.fmtS && scalarFmt d.fmtD && decide (d.q ≤ 1024) &&
    decide (1 ≤ d.m ∧ d.m ≤ 256 ∧ 0 < d.nImg ∧ 0 < d.h ∧ 0 < d.w) &&
    ConvGeo.outExtent d.h 1 d.pt d.pb 1 d.kh d.sh == some d.oh &&
    ConvGeo.outExtent d.w 1 d.pl d.pr 1 d.kw d.sw == some d.ow &&
    (if pack then inSlm d.src 1 && farOk s d.src 1 && d.reads.all (fun r => inSlm r.1 r.2 && farOk s r.1 r.2) &&
       ownRuns c d.writes
     else decide (d.kh ≤ d.sh ∧ d.kw ≤ d.sw) && ownRuns c d.reads && farOk s d.dst 1 &&
       d.writes.all (fun r => farOk s r.1 r.2))

/-! ## Stream descriptors (R250, R275, R281, R285 to R289) -/

/-- R250: an FP32 power of two from 2^-64 to 2^64. -/
def scaleOk (x : F32) : Bool :=
  let e := fld x.toNat 30 23
  decide (fld x.toNat 31 31 = 0 ∧ fld x.toNat 22 0 = 0 ∧ 63 ≤ e ∧ e ≤ 191)

/-- R275, R286: a MOVE, apart from its sync objects. -/
def moveOk (s : State) (c : Nat) (d : MoveD) : Bool :=
  let copy := d.isCopy
  let regroup := d.xform == 3
  let enc := d.xform == 1 && !copy
  let dec := d.xform == 2 && !copy
  let u := (formBlock d.form).1
  let e := d.esize
  let overlap := d.writes.any fun a => d.reads.any fun b => rangesMeet a.1 a.2 b.1 b.2
  let far (a n : Nat) : Bool := farOk s a n
  decide (d.xform ≤ 3 ∧ d.form ≤ 4) && (!regroup || d.bs != 0) &&
    (regroup || decide (0 < d.rows ∧ 0 < d.cols ∧ 0 < d.planes)) &&
    (!regroup || (decide (0 < d.rgN ∧ 0 < d.rgC ∧ 0 < d.rgH ∧ 0 < d.rgW) && (!d.rgInter || decide (d.rgC ≤ 32)))) &&
    (if regroup then mult e d.src && mult e d.dst
     else
      [d.src, d.srcLd, d.srcPd].all (mult (if dec then u else e)) &&
        [d.dst, d.dstLd, d.dstPd].all (mult (if enc then u else e))) &&
    (!enc || (decide (d.fmtS ≤ 1) && (d.form < 3 || d.fmtS == 1) && decide (e = (fmtOf d.fmtS).bytes) &&
      (List.range d.rowCount).all (fun x => inOwnSp c (d.srcRow x).1 (d.srcRow x).2) &&
      (List.range d.rowCount).all (fun x => far (d.dstRow x).1 (d.dstRow x).2) &&
      d.scaleRuns.all (fun r => far r.1 r.2))) &&
    (!dec || (decide (e = 2) && (List.range d.rowCount).all (fun x => inOwnSp c (d.dstRow x).1 (d.dstRow x).2) &&
      (List.range d.rowCount).all (fun x => far (d.srcRow x).1 (d.srcRow x).2) &&
      d.scaleRuns.all (fun r => far r.1 r.2))) &&
    (!(enc || dec) || d.form != 1 || scaleOk d.scale) && (!regroup || ownRuns c d.writes) &&
    !overlap && (!d.sigEn || d.sigAdd != 0) &&
    d.writes.all (fun r => s.rangeOk r.1 r.2) &&
    d.reads.all (fun r => s.rangeOk r.1 r.2 || (d.xform == 0 && inWindows r.1 r.2))

/-- R285: the sync objects of a MOVE, WAIT_GE on the one and ADD on the other. -/
def moveSync (s : State) (ctx : Nat) (d : MoveD) : Option Nat :=
  let w := if d.waitEn then (s.obj d.waitObj).refuses ctx .waitGe d.waitValue else none
  let g := if d.sigEn then (s.obj d.sigObj).refuses ctx .add d.sigAdd else none
  w.or g

/-- R57: a HARNESS_OP at hand-out: the status that ends the piece. DESIGN CHOICE (log 135): where it breaks a rule of its result
and its object refuses it too, BAD_DESCRIPTOR stands before DENIED. -/
def harnessCheck (s : State) (c ctx w : Nat) : Option Nat :=
  match SyncOp.ofCode (fld w 29 25) with
  | none => some St.badDescriptor
  | some op =>
    let en := bit w 30
    let a := fld w 73 32
    if en ∧ (op.staged ∨ !inOwnSp c a 8 ∨ a % 8 ≠ 0) then some St.badDescriptor
    else (s.obj (fld w 24 8)).refuses ctx op (fld w 191 128)

/-- The status that a check gives. -/
def badUnless (b : Bool) : Option Nat := if b then none else some St.badDescriptor

/-- The last descriptor handed out to a stream queue, where it is persistent (R289). -/
def armedWord (p : Piece) (q : Nat) : Option Nat :=
  let mine := p.items.filter fun i => decide (unitOf i.word = .stream q)
  match mine.reverse with
  | i :: _ => if (MoveD.ofWord i.word).persist then some i.word else none
  | [] => none

/-- The word a handed-out descriptor runs with: of a REARM, the MOVE it makes. -/
def resultWord (p : Piece) (w : Nat) : Option Nat :=
  if fld w 7 0 = 0x42 then (armedWord p (fld w 11 8)).map fun m => rearmWord m w else some w

/-- R125: every check of a descriptor when it is handed out; none where it passes. -/
def checkDesc (s : State) (c : Nat) (p : Piece) (w : Nat) : Option Nat :=
  let op := fld w 7 0
  let ctx := pdCtx p.desc
  if !rsvClear w (rsvOf op) then some St.badDescriptor
  else if 16384 < p.pairs + pairsOf1 s ctx w then some St.badDescriptor
  else
    match op with
    | 0x10 | 0x11 | 0x12 | 0x15 | 0x16 | 0x17 => badUnless (arrayOk s c p (TileD.ofWord w))
    | 0x13 | 0x14 =>
      -- R526: a disabled stem engine
      if s.flash.failed.contains (9 * 65536 + clusterOf c) then some St.targetReset else badUnless (stemOk s c (StemD.ofWord w))
    | 0x20 | 0x21 => badUnless (vecOk c (VecD.ofWord w))
    | 0x22 => badUnless (updOk c (UpdD.ofWord w))
    | 0x30 | 0x31 | 0x32 | 0x33 | 0x34 | 0x35 => badUnless (skOk s c ctx (SkD.ofWord w))
    | 0x40 =>
      let d := MoveD.ofWord w
      if moveOk s c d then moveSync s ctx d else some St.badDescriptor
    | 0x41 => badUnless (decide (1 ≤ fld w 30 24 ∧ fld w 30 24 ≤ 64))
    | 0x42 =>
      match resultWord p w with
      | none => some St.badDescriptor
      | some m =>
        let d := MoveD.ofWord m
        if moveOk s c d then moveSync s ctx d else some St.badDescriptor
    | 0x51 => harnessCheck s c ctx w
    | _ => some St.badDescriptor

end Sys2Proof.Machine
end

