-- ==== Sys2Proof/Machine/Complete.lean ====
section
/-! DEFINITION. Completion records and the end of commands (R423, R439, R449 to R451). -/
namespace Sys2Proof.Machine

/-- Detail words of a completion record. -/
structure Details where
  d0 : Nat
  d1 : Nat
  d2 : Nat
  d3 : Nat
  deriving DecidableEq, Repr

/-- No details. -/
def Details.zero : Details := { d0 := 0, d1 := 0, d2 := 0, d3 := 0 }

namespace Cmd

/-- R442 OPCODE of a command. -/
def opcode (c : Cmd) : Nat := fld c.entry 7 0

/-- R442 CONTEXT of a command. -/
def ctx (c : Cmd) : Nat := fld c.entry 17 8

/-- R442 CMD_TAG of a command. -/
def tag (c : Cmd) : Nat := fld c.entry 63 32

/-- R442 IN_STEP. -/
def inStep (c : Cmd) : Bool := bit c.entry 18

/-- R442 STEP_LAST. -/
def stepLast (c : Cmd) : Bool := bit c.entry 19

/-- R435, R444: is this a command of a context ring? -/
def onContext (c : Cmd) : Bool := decide (c.ring < 1024)

/-- R423: the disposition code with a status. A refused command has its disposition as its status. -/
def disposition (c : Cmd) (status : Nat) : Nat :=
  if status = St.refusedCapacity ∨ status = St.refusedClass then status
  else if c.evicted then 4
  else if c.k ≠ 0 then 1
  else 0

end Cmd

/-- R449: a completion record without STITCH and PHASE, which are those of its writing. -/
def recordOf (entry k disp status : Nat) (d : Details) : Nat :=
  status + disp * 2 ^ 8 + fld entry 7 0 * 2 ^ 16 + k * 2 ^ 32 + fld entry 63 32 * 2 ^ 64 +
    fld entry 17 8 * 2 ^ 128 + (d.d0 % 2 ^ 64) * 2 ^ 256 + (d.d1 % 2 ^ 64) * 2 ^ 320 +
    (d.d2 % 2 ^ 64) * 2 ^ 384 + (d.d3 % 2 ^ 64) * 2 ^ 448

/-- R439: write the held records of a ring that have a slot, oldest first. -/
def flushHeld (s : State) (n : Nat) : Nat → State
  | 0 => s
  | fuel + 1 =>
    let r := s.ring n
    match r.held with
    | [] => s
    | rec :: rest =>
      let size := 2 ^ r.cqLog
      let tail' := (r.cqTail + 1) % size
      if r.state = .fault ∨ r.state = .disabled ∨ tail' = r.cqHead then s
      else
        let word := rec + s.stitch.count * 2 ^ 192 + (if r.cqPhase then 2 ^ 24 else 0)
        let s := s.wr (r.cqBase + 64 * r.cqTail) 64 word false
        flushHeld (s.setRing n { r with
          held := rest, cqTail := tail', cqPhase := if tail' = 0 then !r.cqPhase else r.cqPhase }) n fuel

/-- Write a ring's held records as far as they go. -/
def flushRing (s : State) (n : Nat) : State := flushHeld s n (s.ring n).held.length

/-- Hand a record to a ring: discarded and counted where the ring was taken out of service since the
command was taken (R439). -/
def postRecord (s : State) (n serial word : Nat) : State :=
  let r := s.ring n
  if r.enable ∧ r.serial = serial then flushRing (s.setRing n { r with held := r.held ++ [word] }) n
  else s.setRing n { r with cqDropped := (r.cqDropped + 1) % 2 ^ 32 }

/-- R425: count a refused command. -/
def countRefused (s : State) (status : Nat) : State :=
  if status = St.refusedCapacity ∨ status = St.refusedClass then s.odAdd 0x8074 0 1 else s

/-- End a command: its completion record, and its place in queue, step and list. -/
def complete (s : State) (id status : Nat) (d : Details) : State :=
  match s.cmd? id with
  | none => s
  | some c =>
    let s := postRecord s c.ring c.serial (recordOf c.entry c.k (c.disposition status) status d)
    let s := countRefused s status
    let s := { s with cmds := s.cmds.filter fun e => e.id != id }
    s.updCtx c.ctx fun x =>
      { x with
        queue := x.queue.filter fun q =>
          match q with
          | .piece cmd _ _ _ _ => cmd != id
          | .grid cmd _ _ => cmd != id
          | .update cmd _ _ _ _ _ => cmd != id
        step := x.step.map fun t => { t with cmdsLeft := t.cmdsLeft.filter (· != id) } }

/-- R422, R423: does the command of a record hold a place until the record is written? One that met a full queue took none. -/
def recordHolds (w : Nat) : Bool := !(fld w 7 0 == St.refusedCapacity && fld w 63 32 == 0)

/-- R422: commands of a context that hold a place in its dispatch queue: taken, and their completion record not yet written. -/
def placesTaken (s : State) (ctx : Nat) : Nat :=
  (s.cmds.filter fun c => c.ring == ctx).length + ((s.ring ctx).held.filter recordHolds).length

/-- R450: the details of a command none of which has run. -/
def refusedDetails (e : Nat) : Details :=
  match fld e 7 0 with
  | 0x10 => { Details.zero with d1 := 0xFFFFFFFF * 2 ^ 32 }
  | 0x12 => { Details.zero with d0 := fld e 127 64 }
  | _ => Details.zero

/-- R450: the details of a RUN. -/
def runDetails (c : Cmd) : Details :=
  { d0 := c.okCount + c.overruns * 2 ^ 32, d1 := c.runOns + (c.firstBad.getD 0xFFFFFFFF) * 2 ^ 32, d2 := 0, d3 := 0 }

/-- R450: the details of a GRID. -/
def gridDetails (c : Cmd) (o : SyncObj) : Details :=
  { d0 := o.doneCount + o.failed * 2 ^ 32, d1 := c.stale + c.overruns * 2 ^ 32, d2 := 0, d3 := 0 }

/-- R451: one piece of a command has ended with its final status. -/
def countEnd (c : Cmd) (pieceId status : Nat) : Cmd :=
  { c with
    left := c.left - 1
    okCount := if status = St.ok then c.okCount + 1 else c.okCount
    worst := max c.worst status
    firstBad := if status = St.ok then c.firstBad else c.firstBad.or (some pieceId) }

/-- R451: a piece of a RUN has ended; the RUN completes with its last piece. -/
def runPieceEnded (s : State) (id pieceId status : Nat) : State :=
  let s := s.updCmd id fun c => countEnd c pieceId status
  match s.cmd? id with
  | some c => if c.left = 0 then complete s id c.worst (runDetails c) else s
  | none => s

/-- R148: complete a grid whose done count has reached PARAM. -/
def gridCheck (s : State) (id objIdx : Nat) : State :=
  match s.cmd? id with
  | none => s
  | some c =>
    let o := s.obj objIdx
    if c.stage = .active ∧ o.doneCount = o.param then
      complete s id (if c.tileFailed then St.badDescriptor else c.worst) (gridDetails c o)
    else s

/-- The commands of the grids in progress on a tile counter. -/
def gridsOf (s : State) (i : Nat) : List Nat :=
  s.ctxs.flatMap fun e => e.2.queue.filterMap fun
    | .grid cmd _ j => if j = i then some cmd else none
    | _ => none

/-- R148: a lease of a tile counter is done: every grid in progress on the counter is looked at, with a change to what it
has counted. -/
def gridsCheck (s : State) (i : Nat) (f : Cmd → Cmd) : State :=
  (gridsOf s i).foldl (fun s cmd => gridCheck (s.updCmd cmd f) cmd i) s

end Sys2Proof.Machine
end

