-- ==== Sys2Proof/Machine/Pieces.lean ====
section
/-! DEFINITION. Pieces: start, hand-out, grid patches, retirement, commit, and the ways a piece ends
without one (R38 to R48, R123, R133 to R147, R159, R234 to R239, R451). -/
namespace Sys2Proof.Machine

/-! ## Ends of a piece -/

/-- Settle the side-memory records a piece wrote: valid for the context at its commit (R180), invalid
otherwise. -/
def sideSettle (s : State) (c seq : Nat) (commit : Option Nat) : State :=
  { s with side := Sp.mapVals SideRec.zero (fun k r =>
      if k / 4096 = c ∧ r.writer = seq then
        (match commit with
         | some ctx => { r with writer := 0, valid := true, ctx := ctx }
         | none => { r with writer := 0 })
      else r) s.side }

/-- R113: spans that wait for a place in the drain queue of 4 take the places that are free. -/
def refillDrains (e : Cell) : Cell :=
  let n := 4 - e.drainQ.length
  { e with drainQ := e.drainQ ++ e.drainWait.take n, drainWait := e.drainWait.drop n }

/-- Take a piece off its cell, with the spans that are still its own (R108, R236). -/
def leaveCell (s : State) (c : Nat) (p : Piece) : State :=
  (dropWaiters s c).updCell c fun e =>
    let tiles := e.tiles.filter fun t => t.piece != p.seq
    refillDrains { e with
      piece := none
      tiles := tiles
      drainQ := e.drainQ.filter fun g => tiles.any fun t => t.group == g
      skips := [] }

/-- End a piece without a commit: everything staged is discarded, units taken go back (R47, R57). -/
def abandon (s : State) (c : Nat) (p : Piece) : State :=
  returnUnits (sideSettle (leaveCell s c p) c p.seq none) p.units

/-- Change the leases of a tile counter. -/
def updLease (o : SyncObj) (l : LeaseRef) (f : Lease → Lease) : SyncObj :=
  { o with leases := updFirst (fun x => decide (x.idx = l.idx ∧ x.gen = l.gen)) f o.leases }

/-- Remove a lease. -/
def dropLease (o : SyncObj) (l : LeaseRef) : SyncObj :=
  { o with leases := o.leases.filter fun x => !decide (x.idx = l.idx ∧ x.gen = l.gen) }

/-- The live lease a reference names. -/
def findLease (o : SyncObj) (l : LeaseRef) : Option Lease :=
  o.leases.find? fun x => decide (x.idx = l.idx ∧ x.gen = l.gen)

/-- The tile of a piece that ended with a status, without a commit and not to be issued again: FAILED where it is
BAD_DESCRIPTOR (R147). DEDUCED (log 39): it is done with any other status, which counts among the final ones (R148). -/
def failTile (s : State) (cmd : Nat) (l : LeaseRef) (status : Nat) : State :=
  let bad := decide (status = St.badDescriptor)
  let o := s.obj l.obj
  let o := { dropLease o l with doneCount := o.doneCount + 1, failed := if bad then o.failed + 1 else o.failed }
  let s := (s.setObj l.obj o).updCmd cmd fun k => { k with tileFailed := k.tileFailed || bad, worst := max k.worst status }
  gridsCheck s l.obj id

/-- A piece of a command ends with a status and without a commit, and is not issued again (R125, R147). -/
def endWith (s : State) (cmd desc : Nat) (lease : Option LeaseRef) (status : Nat) : State :=
  match lease with
  | none => runPieceEnded s cmd (pdId desc) status
  | some l => failTile s cmd l status

/-- R125: the piece of a cell ends at once with a status. -/
def failPiece (s : State) (c : Nat) (p : Piece) (status : Nat) : State :=
  endWith (abandon s c p) p.cmd p.desc p.lease status

/-- R144, R149: a piece ends STALE_LEASE and is not issued again. -/
def stalePiece (s : State) (c : Nat) (p : Piece) : State :=
  let s := (abandon s c p).odAdd 0x8031 0 1
  s.updCmd p.cmd fun k => { k with stale := k.stale + 1 }

/-- Put a piece back in its context's queue, behind those already there again (R47, R151). -/
def requeue (s : State) (ctx : Nat) (q : QEntry) : State :=
  let isAgain : QEntry → Bool
    | .piece _ _ _ _ a => a
    | .grid _ _ _ => false
    | .update _ _ _ _ _ a => a
  s.updCtx ctx fun x => { x with queue := x.queue.takeWhile isAgain ++ q :: x.queue.dropWhile isAgain }

/-- R145: an abort with a COMMIT on its way: the cell sees to the answer when it comes. -/
def recallCommit (s : State) (c : Nat) (p : Piece) : State :=
  match p.lease, p.phase with
  | some l, .sent => s.updCell c fun e => { e with recalls := e.recalls ++ [(l, .sent)] }
  | some l, .answered ok => s.updCell c fun e => { e with recalls := e.recalls ++ [(l, .answered ok)] }
  | _, _ => s

/-- R45, R47, R50: abort the piece of a cell with status OVERRUN and issue it again. -/
def overrunPiece (s : State) (c : Nat) (p : Piece) : State :=
  if p.phase = .answered false then stalePiece s c p
  else
    let s := (abandon (recallCommit s c p) c p).odAdd 0x8011 0 1
    let s := (s.cellAdd c State.ctrAbort 1).updCtx (pdCtx p.desc) fun x => { x with aborts := x.aborts + 1 }
    let s := s.updCmd p.cmd fun k => { k with overruns := k.overruns + 1 }
    match p.upd with
    | some u => requeue s (pdCtx p.desc) (.update p.cmd u.1 u.2.1 u.2.2 (pdBudget p.desc) true)
    | none => requeue s (pdCtx p.desc) (.piece p.cmd p.no p.desc p.lease true)

/-! ## Start -/

/-- The context a cell is given to in the stitch under way (R417, R418). -/
def givenTo (s : State) (c : Nat) : Option Nat := (s.job.given.find? fun g => bit g.mask c).map (·.ctx)

/-- The next entry of a queue for a cell: the first that the take under way has not skipped (R151). -/
def headFor (e : Cell) (x : Ctx) : Option QEntry :=
  x.queue.find? fun
    | .grid cmd _ _ => !e.skips.contains cmd
    | _ => true

/-- R40, R65, R66, R150: may the cell take a piece for its context at all? -/
def cellMayTake (s : State) (c : Nat) : Bool :=
  let e := s.cell c
  decide (s.job.state = .owned) && !s.stitch.lost && !s.schedDown && e.piece.isNone && !s.cellDown c && !(s.block (clusterOf c)).ready &&
    (s.physAt c).test.isNone && !(s.pllCal ++ s.pllIdle).contains (clusterOf c)

/-- R40: may a piece of budget b start at offset x? -/
def mayStart (s : State) (x b : Nat) : Bool := decide (x < s.guardStart ∧ b ≤ s.budgetAt x)

/-- R38, R123, R444: a piece descriptor that can run for a context: the list it names. -/
def pieceOk (s : State) (ctx d : Nat) (tile : Bool) : Bool :=
  let a := pdList d
  decide (fld d 7 0 = 1) && rsvClear d (rsvOf 1) && decide (pdBudget d ≠ 0) && decide (pdCtx d = ctx) &&
    pdTileEn d == tile && decide (1 ≤ pdLen d) && decide (a % 64 = 0) && s.inAreas a (64 * pdLen d) &&
    !s.meetsJournal a (64 * pdLen d)

/-- R137: the slots fetched so far, as the GRID descriptor of a piece patches them. -/
def patchSlots (p : Piece) : List Nat :=
  if !p.gridDone then p.raw
  else
    let g := GridD.ofWord (joinSlots (p.raw.take 4))
    let t := g.coords (p.lease.elim 0 (·.idx))
    splitSlots p.raw.length (g.patches.foldl (Patch.apply g t) (joinSlots p.raw))

/-- First slot of the oldest descriptor of a piece not yet retired (R123): that of the next one to be handed out, where all
before it have retired. -/
def oldestSlot (p : Piece) : Nat :=
  (p.items.filter fun i => i.stage != .armed).foldl (fun m i => min m i.slot) p.next

/-- R123, R582: fetch the slots of the list up to the 32nd beyond the oldest descriptor not yet retired. DESIGN CHOICE
(log 36): each slot is fetched as early as the rule lets it. -/
def fetchSlots (s : State) (p : Piece) : Piece :=
  let n := min (pdLen p.desc) (oldestSlot p + 33)
  let new := (List.range n).drop p.raw.length
  let p := { p with
    raw := p.raw ++ new.map fun i => s.rd (pdList p.desc + 64 * i) 64
    badSlots := p.badSlots ++ new.filter fun i => s.poisonIn (pdList p.desc + 64 * i) 64 }
  { p with slots := patchSlots p }

/-- The cell fetches on; an update piece has no list (R257). -/
def fetchMore (s : State) (c : Nat) : State :=
  s.updPiece c fun p => if p.upd.isSome then p else fetchSlots s p

/-- The scratchpad window of a context on a cell (R405). -/
def spWindow (x : Ctx) (c : Nat) : Nat × Nat := (spOf c + x.spOff, spOf c + x.spOff + x.spSize)

/-- Put a piece on a cell: bytes outside its context's window become undefined (R406). -/
def place (s : State) (c cmd no d : Nat) (lease : Option LeaseRef) (x : Ctx) : State :=
  let s := s.fresh
  let w := spWindow x c
  let p := fetchSlots s
    { seq := s.serial, cmd := cmd, no := no, desc := d, lease := lease, raw := [], slots := [], badSlots := [],
      gridDone := false, next := 0, items := [], lastQueue := 15, limits := List.replicate 16 16,
      staged := Staged.empty, pairs := 0, units := [], runOn := 0, phase := .running, targetReset := false,
      readPoison := false, upd := none }
  let s := s.updCell c fun e =>
    { e with piece := some p, claim := none, skips := [], slack := 0,
             undef := some { seq := s.serial, lo := w.1, hi := w.2, written := [] } }
  let s := match lease with
    | some l => s.setObj l.obj (updLease (s.obj l.obj) l fun x => { x with runs := x.runs ++ [(c, p.seq)] })
    | none => s
  s.updCmd cmd fun k => { k with started := true, stage := .active }

/-- Start a piece on a cell, or end it unrun where its descriptor breaks a rule. -/
def startOrFail (s : State) (c cmd no d : Nat) (lease : Option LeaseRef) (ctx : Nat) (x : Ctx) : State :=
  if pieceOk s ctx d lease.isSome then place s c cmd no d lease x
  else
    let s := s.updCell c fun e => { e with claim := none, skips := [] }
    endWith s cmd d lease St.badDescriptor

/-! ## Update pieces (R257) -/

/-- Where a context's gathered gradient lies inside the module: lined pairs, 8 bytes an element. The spec
names no place for it; these addresses lie above the local address map. -/
def stageImage (ctx e : Nat) : Nat := 2 ^ 44 + ctx * 2 ^ 60 + 8 * e

/-- Where a context's received gradient lies inside the module: FP32, 4 bytes an element. -/
def stageGrad (ctx e : Nat) : Nat := 2 ^ 44 + ctx * 2 ^ 60 + 2 ^ 59 + 4 * e

/-- R227 FOLD of a map entry. -/
def gmFold (e : Nat) : Bool := bit e 241

/-- Does an entry of the gradient map take part in the exchange (R227, R245)? -/
def gmTrained (e : Nat) : Bool := decide (gmKind e ≤ 1) && !gmFold e

/-- Number of the first element of an entry among the elements the exchange counts: entries in order, each
rounded up to a multiple of 32. -/
def gmFirst (gmap : List Nat) (i : Nat) : Nat :=
  ((gmap.take i).map fun e => if gmTrained e then roundUp (gmRows e * gmCols e) 32 else 0).sum

/-- R254: fields of a shard-table entry. -/
def shEntry (w : Nat) : Nat := fld w 13 0
/-- ELEM_COUNT. -/
def shCount (w : Nat) : Nat := fld w 127 96
/-- ELEM_FIRST. -/
def shFirst (w : Nat) : Nat := fld w 191 128
/-- BANK_STRIDE. -/
def shStride (w : Nat) : Nat := fld w 255 192

/-- The optimizer record of a shard. -/
def optOf (t : Step) (sh : Nat) : Nat := t.opts.getD (fld sh 71 64) 0

/-- R257: the update descriptor of elements first to first + n − 1 of a shard: it reads the active bank and
writes the other. -/
def updateWord (t : Step) (bank sh first n : Nat) : Nat :=
  let o := optOf t sh
  let e := if fld o 21 18 = 0 then 4 else 2
  let ec := (fmtOf (fld o 25 22)).bytes
  let elem := shFirst sh + first
  let b := bank * shStride sh
  let b' := (1 - bank) * shStride sh
  let gm := t.gmap.getD (shEntry sh) 0
  let o := setFld (setFld (setFld (setFld o 127 96 n) 39 28 (fld gm 235 224)) 27 27 1) 511 448 elem
  o +
    (fld sh 297 256 + b + 4 * first) * 2 ^ 576 + (fld sh 361 320 + b + e * first) * 2 ^ 640 +
    (fld sh 425 384 + b + e * first) * 2 ^ 704 + (fld sh 297 256 + b' + 4 * first) * 2 ^ 768 +
    (fld sh 361 320 + b' + e * first) * 2 ^ 832 + (fld sh 425 384 + b' + e * first) * 2 ^ 896 +
    (if bit o 26 then (fld sh 489 448 + ec * elem + shStride sh) * 2 ^ 960 else 0)

/-- R178: the cycles of an update of n elements. -/
def updateCycles (o n : Nat) : Nat :=
  let e := if fld o 21 18 = 0 then 4 else 2
  let st := if fld o 17 16 = 1 then 2 * e else e
  let r := 8 + st
  let w := 4 + st + (if bit o 26 then (fmtOf (fld o 25 22)).bytes else 0)
  24 + ceilDiv n 64 * max 2 (max (ceilDiv (64 * r) 256) (ceilDiv (64 * w) 128)) + 16

/-- The descriptor of an update piece: opcode, context, budget, shard as its PIECE_ID. -/
def updateDesc (ctx shard budget : Nat) : Nat := 1 + ctx * 2 ^ 8 + budget * 2 ^ 32 + shard * 2 ^ 128

/-- Start an update piece on a cell. -/
def placeUpdate (s : State) (c cmd shard first n budget ctx : Nat) (x : Ctx) : State :=
  match x.step with
  | none => s
  | some t =>
    let s := s.fresh
    let w := spWindow x c
    let i : Item := { slot := 0, word := updateWord t x.bank (t.shards.getD shard 0) first n, rearm := false,
                      stage := .queued, issued := 0, landed := 0, reply := none }
    let p : Piece :=
      { seq := s.serial, cmd := cmd, no := shard, desc := updateDesc ctx shard budget, lease := none, raw := [], slots := [],
        badSlots := [], gridDone := false, next := 0, items := [i], lastQueue := 15, limits := List.replicate 16 16,
        staged := Staged.empty, pairs := 0, units := [], runOn := 0, phase := .running, targetReset := false,
        readPoison := false, upd := some (shard, first, n) }
    s.updCell c fun e =>
      { e with piece := some p, claim := none, skips := [], slack := 0,
               undef := some { seq := s.serial, lo := w.1, hi := w.2, written := [] } }

/-- R257, R259: an update piece has ended with a final status. -/
def updateEnded (s : State) (ctx : Nat) (u : Nat × Nat × Nat) (status : Nat) : State :=
  s.updCtx ctx fun x => { x with step := x.step.map fun t =>
    { t with
      undone := (t.undone.map fun e => if e.1 = u.1 then (e.1, e.2 - u.2.2) else e)
      poison := t.poison || decide (status = St.poisoned)
      updateBad := t.updateBad || decide (status ≠ St.ok ∧ status ≠ St.poisoned) } }

/-- Is the lease of an aborted piece still to be LEASED again (R145): is its COMMIT, the answer or a REVERT on its way? -/
def revertPending (s : State) (lease : Option LeaseRef) : Bool :=
  match lease with
  | none => false
  | some l => s.outbox.contains (.tileRevert l) || s.cells.any fun e => e.2.recalls.any fun r => r.1 == l

/-- R41, R150: is it the cell's turn to take an entry of its context's queue: is there no cell of a lower logical index that
is free, given to the context and meets the same entry? -/
def firstFree (s : State) (ctx : Nat) (x : Ctx) (c : Nat) (q : QEntry) : Bool :=
  (List.range c).all fun k =>
    !(givenTo s k == some ctx && cellMayTake s k && (s.cell k).claim.isNone && headFor (s.cell k) x == some q)

/-- R40, R41, R140, R150, R151: the cell takes its context's next piece at offset x. -/
def takePiece (s : State) (c x : Nat) : State :=
  if !cellMayTake s c then s
  else
    match givenTo s c with
    | none => s
    | some ctx =>
      match s.ctx? ctx with
      | none => s
      | some k =>
        if !k.resident then s
        else
          match (s.cell c).claim with
          | some m => if mayStart s x (pdBudget m.desc) then startOrFail s c m.cmd m.lease.idx m.desc (some m.lease) ctx k else s
          | none =>
            match headFor (s.cell c) k with
            | some (.piece cmd no d lease again) =>
              if mayStart s x (pdBudget d) && !revertPending s lease && firstFree s ctx k c (.piece cmd no d lease again) then
                startOrFail (s.setCtx ctx { k with queue := k.queue.erase (.piece cmd no d lease again) })
                  c cmd no d lease ctx { k with queue := [] }
              else s
            | some (.update cmd sh first n b again) =>
              if mayStart s x b && firstFree s ctx k c (.update cmd sh first n b again) then
                placeUpdate (s.setCtx ctx { k with queue := k.queue.erase (.update cmd sh first n b again) })
                  c cmd sh first n b ctx k
              else s
            | _ => s

/-- R40: a piece start is tried at an offset in the stitch. -/
def pieceStart (s : State) (c x : Nat) : State := takePiece { s with offset := x } c x

/-- R40. -/
def execPieceStart (cell x : Nat) (s : State) : Out := onCell cell s fun s => whenPowered s fun s => pieceStart s cell x

/-! ## Tile counters (R139 to R146) -/

/-- R139: records in use at the home node of an object: live leases and reissue entries of its cluster. DESIGN CHOICE
(log 118): a released index that waits for the stores of its old holder (R144) is no record. -/
def recordsUsed (s : State) (i : Nat) : Nat :=
  ((s.sync.filter fun e => e.1 / 1024 == i / 1024).map fun e => e.2.leases.length + e.2.reissue.length).sum

/-- The answer of CLAIM. -/
inductive ClaimReply where
  | tile (idx gen : Nat)
  | none
  | busy
  deriving DecidableEq, Repr

/-- R139 claim. -/
def claimTile (s : State) (i holder : Nat) : SyncObj × ClaimReply :=
  let o := s.obj i
  let add (o : SyncObj) (idx gen : Nat) : SyncObj × ClaimReply :=
    ({ o with leases := o.leases ++ [{ idx := idx, gen := gen, holder := holder, final := false, age := 0, runs := [] }] },
     .tile idx gen)
  match o.reissue with
  | (idx, g) :: rest => add { o with reissue := rest } idx g
  | [] =>
    if o.value < o.param then
      if 8192 ≤ recordsUsed s i then (o, .busy) else add { o with value := o.value + 1 } o.value 0
    else (o, .none)

/-- R140: the control core takes a grid for a free cell, where a start is allowed at the offset last told (R40, R150), and
claims a tile. -/
def tileClaim (s : State) (c i : Nat) : State :=
  if !cellMayTake s c || (s.cell c).claim.isSome then s
  else
    match (givenTo s c).bind s.ctx? with
    | none => s
    | some k =>
      let s := if (headFor (s.cell c) k).isNone then s.updCell c fun e => { e with skips := [] } else s
      match headFor (s.cell c) k with
      | some (.grid cmd d j) =>
        if j ≠ i ∨ !k.resident ∨ !mayStart s s.offset (pdBudget d) ∨
            !((givenTo s c).any fun ctx => firstFree s ctx k c (.grid cmd d j)) then s
        else
          let r := claimTile s i c
          match r.2 with
          | .tile idx g =>
            (s.setObj i r.1).updCell c fun e =>
              { e with claim := some { cmd := cmd, desc := d, lease := { obj := i, idx := idx, gen := g } } }
          | _ => s.updCell c fun e => { e with skips := cmd :: e.skips }
      | _ => s

/-- R139, R140. -/
def execTileClaim (cell obj : Nat) (s : State) : Out :=
  if cell < cellCount then onObj obj s fun s => tileClaim s cell obj else .fault (.noSuchCell cell)

/-- R51, R139: the cluster that is home to a sync object. -/
def homeNode (i : Nat) : Nat := i / 1024

/-- The COMMIT sent by a cell that is the first to reach its home node: the generations it carries, and its lease. -/
def commitOf (s : State) (c : Nat) : Option (ReqGen × LeaseRef) :=
  s.outbox.findSome? fun
    | .tileCommit k g l => if k = c then some (g, l) else none
    | _ => none

/-- Change the first recall of a cell that a test picks. -/
def updRecall (s : State) (c : Nat) (is : LeaseRef × CommitPhase → Bool)
    (f : LeaseRef × CommitPhase → LeaseRef × CommitPhase) : State :=
  s.updCell c fun e => { e with recalls := updFirst is f e.recalls }

/-- R139 commit: a COMMIT that a cell sent reaches the home node, which answers stale where the generations it carries are not
current (R549, R553); the answer goes to the piece that waits for it, or to the
cell that has aborted it (R145). -/
def tileCommit (s : State) (c : Nat) : State :=
  match commitOf s c with
  | none => s
  | some (g, l) =>
    match s.takeMsg (.tileCommit c g l) with
    | none => s
    | some s =>
      let o := s.obj l.obj
      let ok := s.reqServed c g (some (homeNode l.obj)) && (findLease o l).any fun x => !x.final
      let s := if ok then s.setObj l.obj (updLease o l fun x => { x with final := true }) else s
      match s.pieceOf c with
      | some p =>
        if p.lease = some l ∧ p.phase = .sent then s.updPiece c fun p => { p with phase := .answered ok }
        else updRecall s c (fun r => r == (l, .sent)) fun r => (r.1, .answered ok)
      | none => updRecall s c (fun r => r == (l, .sent)) fun r => (r.1, .answered ok)

/-- R141. -/
def execTileCommit (cell : Nat) (s : State) : Out := onCell cell s fun s => tileCommit s cell

/-- R145: the answer to the COMMIT of an aborted piece reaches the cell: REVERT follows an accept. -/
def recallReply (s : State) (c : Nat) : State :=
  match (s.cell c).recalls.find? fun r => r.2 != .sent with
  | none => s
  | some r =>
    let s := s.updCell c fun e => { e with recalls := e.recalls.erase r }
    if r.2 = .answered true then s.send (.tileRevert r.1) else s

/-- R141: the answer of the home node reaches the cell. -/
def tileCommitReply (s : State) (c : Nat) : State :=
  match s.pieceOf c with
  | none => recallReply s c
  | some p =>
    match p.phase with
    | .answered true => s.updPiece c fun p => { p with phase := .accepted }
    | .answered false => stalePiece s c p
    | _ => recallReply s c

/-- R141. -/
def execTileCommitReply (cell : Nat) (s : State) : Out := onCell cell s fun s => tileCommitReply s cell

/-- R139 done: the lease is removed and done grows. -/
def tileDone (s : State) (l : LeaseRef) : State :=
  match s.takeMsg (.tileDone l) with
  | none => s
  | some s =>
    let o := s.obj l.obj
    let s := s.setObj l.obj { dropLease o l with doneCount := o.doneCount + 1 }
    gridsCheck s l.obj id

/-- R139. -/
def execTileDone (obj idx gen : Nat) (s : State) : Out :=
  onObj obj s fun s => tileDone s { obj := obj, idx := idx, gen := gen }

/-- R139 revert: a FINAL lease is LEASED again. -/
def tileRevert (s : State) (l : LeaseRef) : State :=
  match s.takeMsg (.tileRevert l) with
  | none => s
  | some s => s.setObj l.obj (updLease (s.obj l.obj) l fun x => { x with final := false })

/-- R145. -/
def execTileRevert (obj idx gen : Nat) (s : State) : Out :=
  onObj obj s fun s => tileRevert s { obj := obj, idx := idx, gen := gen }

/-- The cells whose piece or claim holds a lease. -/
def holdersOf (s : State) (l : LeaseRef) : List Nat :=
  (s.cells.filter fun e => (e.2.piece.any fun p => p.lease == some l) || (e.2.claim.any fun m => m.lease == l)).map (·.1)

/-- R146: a RELEASE came before the COMMITs of a lease that are on their way: those are answered stale. -/
def staleCommits (s : State) (l : LeaseRef) : State :=
  let isIt (m : Msg) : Bool :=
    match m with
    | .tileCommit _ _ k => k == l
    | _ => false
  let cs := (s.cells.filter fun e => e.2.recalls.any fun r => r.1 == l).map (·.1)
  cs.foldl (fun s c => s.updCell c fun e =>
    { e with recalls := e.recalls.map fun r => if r.1 = l then (l, .answered false) else r })
    { s with outbox := s.outbox.filter fun m => !isIt m }

/-- R144: every piece holding a lease that has not retired ends STALE_LEASE. DESIGN CHOICE (log 119): a tile claimed for a
piece that has not been dispatched is given up and counted nowhere. -/
def endHolders (s : State) (l : LeaseRef) : State :=
  let s := staleCommits s l
  let s := (holdersOf s l).foldl (fun s c =>
    let s := s.updCell c fun e => { e with claim := if e.claim.any fun m => m.lease == l then none else e.claim }
    match (s.cell c).piece with
    | some p => if p.lease = some l then stalePiece s c p else s
    | none => s) s
  let waiting (q : QEntry) : Bool :=
    match q with
    | .piece _ _ _ (some m) _ => m == l
    | _ => false
  s.ctxs.foldl (fun s e =>
    let gone := e.2.queue.filter waiting
    if gone = [] then s
    else
      let s := s.updCtx e.1 fun x => { x with queue := x.queue.filter fun q => !waiting q }
      gone.foldl (fun s q =>
        match q with
        | .piece cmd _ _ _ _ => (s.odAdd 0x8031 0 1).updCmd cmd fun k => { k with stale := k.stale + 1 }
        | _ => s) s) s

/-- Has a run of a piece stores on their way: neither landed nor cancelled (R551)? -/
def storesOut (s : State) (r : Nat × Nat) : Bool :=
  (s.cell r.1).xfers.any fun t => t.store && t.piece == r.2 && !t.dropped

/-- R144: released indices whose old holder's stores have all landed or been cancelled enter the reissue list. -/
def settleHeld (s : State) : State :=
  { s with sync := Sp.mapVals SyncObj.free (fun _ o =>
      let free := o.held.filter fun h => !h.runs.any (storesOut s)
      { o with
        held := o.held.filter fun h => h.runs.any (storesOut s)
        reissue := o.reissue ++ free.map fun h => (h.idx, h.gen) }) s.sync }

/-- R139 release, R144, R149. -/
def releaseLease (s : State) (l : LeaseRef) : State :=
  let o := s.obj l.obj
  match findLease o l with
  | none => s
  | some x =>
    if x.final then s
    else
      let s := (endHolders (s.setObj l.obj (dropLease o l)) l).odAdd 0x8030 0 1
      let o := s.obj l.obj
      if l.gen = 0xFFFF then
        let s := s.setObj l.obj { o with failed := o.failed + 1, doneCount := o.doneCount + 1 }
        gridsCheck s l.obj fun k => { k with worst := max k.worst St.poisoned }
      else
        if x.runs.any (storesOut s) then
          s.setObj l.obj { o with held := o.held ++ [{ idx := l.idx, gen := l.gen + 1, runs := x.runs }] }
        else s.setObj l.obj { o with reissue := o.reissue ++ [(l.idx, l.gen + 1)] }

/-- R139. -/
def execTileRelease (obj idx gen : Nat) (s : State) : Out :=
  onObj obj s fun s => releaseLease s { obj := obj, idx := idx, gen := gen }

/-- R142, R143: a lease that has aged past LEASE_TIMEOUT stitches of its context is released. -/
def leaseTimeout (s : State) (i idx : Nat) : State :=
  match (s.obj i).leases.find? fun x => x.idx == idx with
  | some x => if s.odGet 0x5008 0 < x.age then releaseLease s { obj := i, idx := idx, gen := x.gen } else s
  | none => s

/-- R142. -/
def execLeaseTimeout (obj idx : Nat) (s : State) : Out := onObj obj s fun s => leaseTimeout s obj idx

/-! ## GRID (R133 to R138) -/

/-- R7, R134, R135, R138: the GRID descriptor against its list and its tile counter. -/
def gridOk (s : State) (p : Piece) (w : Nat) : Bool :=
  let g := GridD.ofWord w
  let n := fld w 27 24
  let t := g.coords (p.lease.elim 0 (·.idx))
  let used (q : Patch) : Bool :=
    let lo := 512 * q.slot + q.bitPos
    decide (q.kind ≠ 3) && q.rsv == 0 && decide (4 * 512 ≤ lo ∧ lo + q.width ≤ 512 * pdLen p.desc) &&
      (q.kind != 1 || decide (min g.tileM (g.mTotal - t.1 * g.tileM) < 2 ^ q.width)) &&
      (q.kind != 2 || decide (min g.tileN (g.nTotal - t.2.1 * g.tileN) < 2 ^ q.width))
  rsvClear w [(511, 160), (63, 50), (31, 28), (15, 10)] && decide (n ≤ 12) && decide (w / 2 ^ (512 + 128 * n) = 0) && decide (g.order ≠ 3) &&
    (g.order != 2 || g.panel != 0) && decide (1 ≤ g.tileM ∧ g.tileM ≤ 256 ∧ 1 ≤ g.tileN ∧ g.tileN ≤ 256) &&
    decide (0 < g.mTotal ∧ 0 < g.nTotal ∧ 0 < g.gb) && decide (g.total < 2 ^ 32) &&
    (p.lease.any fun l => decide ((s.obj l.obj).param = g.total)) && g.patches.all used

/-- R133, R137, R138: apply the GRID descriptor of a piece that has started. -/
def gridDescriptor (s : State) (c : Nat) : State :=
  match s.pieceOf c with
  | none => s
  | some p =>
    if !pdTileEn p.desc || p.gridDone || p.phase != .running then s
    else
      let w := joinSlots (p.slots.take 4)
      if fld w 7 0 ≠ 0x50 ∨ pdLen p.desc < 4 ∨ (p.badSlots.any fun i => decide (i < 4)) ∨ !gridOk s p w then
        failPiece s c p St.badDescriptor
      else
        fetchMore (s.updPiece c fun p => { p with gridDone := true, next := 4 }) c

/-- R138. -/
def execGridDescriptor (cell : Nat) (s : State) : Out := onCell cell s fun s => gridDescriptor s cell

/-! ## Hand-out (R159) -/

/-- The descriptors of the piece that have been handed out and have not retired. -/
def Piece.live (p : Piece) : List Item := p.items.filter fun i => i.stage != .armed

/-- R123: has the slot been fetched, within 32 of the first slot of the oldest descriptor not yet retired? -/
def inWindow (p : Piece) (last : Nat) : Bool := p.live.all fun i => decide (last ≤ i.slot + 32)

/-- Does the list of the piece have a descriptor to hand out? A grid piece's first is its GRID. -/
def mayHandOut (p : Piece) : Bool :=
  p.phase == .running && (p.gridDone || !pdTileEn p.desc) && decide (p.next < pdLen p.desc)

/-- The word of the descriptor at the head of the list. -/
def headWord (p : Piece) : Nat := joinSlots ((p.slots.drop p.next).take ((slotsOf (fld (p.slots.getD p.next 0) 7 0)).getD 1))

/-- R123, R125, R582: the status that ends the piece when its next descriptor is handed out. -/
def headStatus (s : State) (c : Nat) (p : Piece) : Option Nat :=
  match slotsOf (fld (p.slots.getD p.next 0) 7 0) with
  | none => some St.badDescriptor
  | some n =>
    if pdLen p.desc < p.next + n ∨ (p.badSlots.any fun i => decide (p.next ≤ i ∧ i < p.next + n)) then
      some St.badDescriptor
    else checkDesc s c p (headWord p)

/-- Slots of the descriptor at the head of the list. -/
def headSlots (p : Piece) : Nat := (slotsOf (fld (p.slots.getD p.next 0) 7 0)).getD 1

/-- The piece once its next descriptor has been handed out. -/
def handedOut (s : State) (p : Piece) : Piece :=
  let w := headWord p
  let i : Item :=
    { slot := p.next, word := (resultWord p w).getD w, rearm := fld w 7 0 == 0x42, stage := .queued, issued := 0,
      landed := 0, reply := none }
  { p with items := p.items ++ [i], next := p.next + headSlots p, pairs := p.pairs + pairsOf1 s (pdCtx p.desc) w }

/-- R159: hand out the next descriptor; QUEUE_CTL is its own command. -/
def handOut (s : State) (c : Nat) : State :=
  match s.pieceOf c with
  | none => s
  | some p =>
    if !mayHandOut p || !inWindow p (p.next + headSlots p - 1) then s
    else
      match headStatus s c p with
      | some st => failPiece s c p st
      | none => if fld (headWord p) 7 0 = 0x41 then s else s.updPiece c fun _ => handedOut s p

/-- R159. -/
def execDescriptorHandOut (cell : Nat) (s : State) : Out := onCell cell s fun s => handOut s cell

/-! ## Retirement -/

/-- Have all descriptors of the list been handed out and retired? -/
def Piece.finished (p : Piece) : Bool :=
  (p.gridDone || !pdTileEn p.desc) && decide (pdLen p.desc ≤ p.next) && p.live == []

/-- The last descriptor has retired: an OPEN span ends the piece (R108), a grid piece sends COMMIT (R141). -/
def finishCheck (s : State) (c : Nat) : State :=
  match s.pieceOf c with
  | none => s
  | some p =>
    if !p.finished || p.phase != .running then s
    else if (s.cell c).tiles.any fun t => decide (t.piece = p.seq ∧ t.span = .opened) then
      failPiece s c p St.badDescriptor
    else
      match p.lease with
      | none => s
      | some l => (s.send (.tileCommit c (s.reqGen c) l)).updPiece c fun p => { p with phase := .sent }

/-- R276, R290: has a descriptor finished all its work? -/
def Item.finished (i : Item) : Bool := i.stage == .done

/-- The signal a retiring stream descriptor stages (R43, R285). -/
def signalOf (i : Item) : List SyncChange :=
  if fld i.word 7 0 = 0x40 ∧ (MoveD.ofWord i.word).sigEn then
    [{ obj := (MoveD.ofWord i.word).sigObj, op := 1, operand := (MoveD.ofWord i.word).sigAdd }]
  else []

/-! ## The commit (R43, R44, R95, R175, R180, R235, R239) -/

/-- R235: add a value into a Welt pair; a poisoned source poisons the sector's four pairs. -/
def weltAdd (s : State) (c : Nat) (a : WeltAdd) : State × Flags :=
  let k := c * 32768 + a.idx
  let w := Sp.get WeltPair.zero s.welt k
  let r := linedAdd w.p a.val.val
  let s := { s with welt := Sp.set WeltPair.zero s.welt k { w with p := r.1 } }
  if a.poison then
    ({ s with welt := (List.range 4).foldl (fun m i =>
        let j := k / 4 * 4 + i
        Sp.set WeltPair.zero m j { Sp.get WeltPair.zero m j with poison := true }) s.welt }, r.2)
  else (s, r.2)

/-- The staged additions of a held WELT tile, row by row (R224, R226, R235). -/
def tileAdds (t : Tile) : List WeltAdd :=
  (t.entries.zipIdx).map fun (e, x) =>
    { slot := t.slot, idx := t.target + x / t.n * t.pitch + x % t.n, val := e.p, poison := e.poison }

/-- All Welt additions a piece stages, in list order. -/
def weltStage (e : Cell) (p : Piece) : List WeltAdd :=
  let tiles := (e.tiles.filter fun t => decide (t.piece = p.seq ∧ t.home = .welt ∧ t.span = .draining)).flatMap tileAdds
  sortBy (p.staged.welt ++ tiles) fun a b => decide (a.slot ≤ b.slot)

/-- R252: where a cluster's partial norm sums of a tag lie. -/
def normAddr (x : Ctx) (cluster tag : Nat) : Nat :=
  slmBase + cluster * sliceBytes + x.fixOff + 64 * x.weltSize + 32 * tag

/-- Add a lined value into a stored pair by the step of R83; poison marks its sector. -/
def addStored (s : State) (a : Nat) (v : Lined) (bad : Bool) : State × Flags :=
  let old := Lined.ofBytes (s.bytes a 8)
  let r := linedAdd old v.val
  (s.store a r.1.toBytes (if bad then [a] else []), r.2)

/-- R175, R252: the staged norm sums of a tag enter its cluster's table: Σ w'², Σ g², Σ u² in places 1 to 3. -/
def addNorm (s : State) (x : Ctx) (cluster : Nat) (n : NormAdd) : State × Flags :=
  let a := normAddr x cluster n.tag
  let r1 := addStored s (a + 8) n.w2 n.poison
  let r2 := addStored r1.1 (a + 16) n.g2 n.poison
  let r3 := addStored r2.1 (a + 24) n.u2 n.poison
  (r3.1, r1.2 ||| r2.2 ||| r3.2)

/-- R451: the final status of a piece that commits. -/
def finalStatus (p : Piece) : Nat :=
  if p.targetReset then St.targetReset
  else if (p.staged.flags &&& Flag.poisonSeen) ≠ 0 ∨ p.readPoison then St.poisoned
  else St.ok

/-- Everything a piece has staged, released together (R43, R44). -/
def release (s : State) (c : Nat) (p : Piece) : State :=
  let ctx := pdCtx p.desc
  let adds := weltStage (s.cell c) p
  let r := adds.foldl (fun (a : State × Flags) w => let q := weltAdd a.1 c w; (q.1, a.2 ||| q.2)) (s, 0)
  let s := if adds = [] then r.1 else r.1.updCtx ctx fun x => { x with dirty := insSorted c x.dirty }
  let n := match s.ctx? ctx with
    | some x => p.staged.norms.foldl (fun (a : State × Flags) m =>
        let q := addNorm a.1 x (clusterOf c) m; (q.1, a.2 ||| q.2)) (s, 0)
    | none => (s, 0)
  let s := n.1.orCellFlags c (p.staged.flags ||| r.2 ||| n.2)
  let s := sideSettle s c p.seq (some ctx)
  p.staged.ops.foldl (fun s o =>
    match SyncOp.ofCode o.op with
    | some op => syncChange s o.obj op o.operand
    | none => s) s

/-- R239: SLM-homed spans join the drain queue in list order; every other span of the piece is freed. -/
def freeSpans (s : State) (c seq : Nat) : State :=
  s.updCell c fun e =>
    let slm := sortBy (e.tiles.filter fun t => decide (t.piece = seq ∧ t.home = .slm ∧ t.span = .draining))
      fun a b => decide (a.slot ≤ b.slot)
    refillDrains { e with
      tiles := (e.tiles.filter fun t => t.piece != seq) ++ slm.map fun t => { t with piece := 0 }
      drainWait := e.drainWait ++ slm.map (·.group) }

/-- R44: commit the piece of a cell. -/
def commitPiece (s : State) (c : Nat) (p : Piece) : State :=
  let s := freeSpans (release s c p) c p.seq
  let s := (dropWaiters s c).updCell c fun e => { e with piece := none, skips := [], slack := pdSlack p.desc }
  let s := s.updCtx (pdCtx p.desc) fun x => { x with retired := true }
  match p.lease with
  | none =>
    match p.upd with
    | some u => updateEnded s (pdCtx p.desc) u (finalStatus p)
    | none => runPieceEnded s p.cmd (pdId p.desc) (finalStatus p)
  | some l => (s.updCmd p.cmd fun k => countEnd k (pdId p.desc) (finalStatus p)).send (.tileDone l)

/-- Has the commit of a piece started: its last descriptor has retired, and a grid piece's COMMIT has
been accepted (R44, R141)? -/
def Piece.committing (p : Piece) : Bool :=
  p.finished && (if p.lease.isSome then p.phase == .accepted else p.phase == .running)

/-- R44. -/
def execPieceCommit (cell : Nat) (s : State) : Out :=
  onCell cell s fun s =>
    match s.pieceOf cell with
    | some p => if p.committing then commitPiece s cell p else s
    | none => s

/-! ## Units -/

/-- The next descriptor of a unit: the first it has not run (R159). -/
def unitNext (p : Piece) (u : CellUnit) : Option Item :=
  p.items.find? fun i => decide (unitOf i.word = u) && decide (i.stage = .queued ∨ i.stage = .preloaded)

/-- Change the item of a slot. -/
def updItem (s : State) (c slot : Nat) (f : Item → Item) : State :=
  s.updPiece c fun p => { p with items := updFirst (fun i => i.slot == slot && i.stage != .armed) f p.items }

/-- A descriptor has done all its work. -/
def itemDone (s : State) (c slot : Nat) : State := updItem s c slot fun i => { i with stage := .done }

/-- Run the next descriptor of a unit, where it has the opcode and code asked for and need not wait
(R160): its work, its flags, and its end. -/
def runUnit (s : State) (c : Nat) (u : CellUnit) (is : Nat → Bool)
    (work : State → Piece → Item → State × Flags) : State :=
  match s.pieceOf c with
  | none => s
  | some p =>
    match unitNext p u with
    | none => s
    | some i =>
      if is i.word && readsFree s p i.slot (itemReads s i.word) && writesFree s p i.slot (itemWrites i.word) then
        let r := work s p i
        itemDone (r.1.stageFlags c r.2) c i.slot
      else s

end Sys2Proof.Machine
end

