-- ==== Sys2Proof/Machine/ArrayOps.lean ====
section
/-! DEFINITION. The matrix array's commands: the array forms, the preload, the drain, SLM adds (R98,
R105 to R117, R126, R132, R198 to R210, R222 to R226, R233, R239). -/
namespace Sys2Proof.Machine

/-! ## Counters (R126, R132, R207, R210) -/

/-- R126: cycles to load a latch of B. -/
def TileD.latch (d : TileD) : Nat := if d.op = 0x12 then 0 else 8 * max 1 (fmtOf d.fmtB).bytes

/-- R99: twice the cycles spent on one output row in one step. -/
def TileD.rowCycles2 (d : TileD) : Nat :=
  let a := fmtOf d.fmtA
  let b := if d.op = 0x12 then (if a = .fp32 then .bf16 else a) else fmtOf d.fmtB
  if a = .fp32 ∧ b = .fp32 then 24
  else if a = .fp32 ∨ b = .fp32 then 12
  else if a.bytes = 2 ∨ b.bytes = 2 then 4
  else if a = .mxfp4 ∧ b = .mxfp4 ∧ d.acc = .plain then 1
  else 2

/-- R126, R210: steps of a descriptor. -/
def TileD.steps (d : TileD) : Nat := d.chunkCount * (d.nPad / 32)

/-- Cycles in which the array runs steps (R126, R132). -/
def TileD.stepCycles (d : TileD) : Nat := d.steps * ((max (d.mPad * d.rowCycles2) (2 * d.latch) + 1) / 2)

/-- R132: product positions offered. -/
def TileD.slots (d : TileD) : Nat := d.steps * d.passesPer * d.mPad * 1024

/-- Is a lane gated? -/
def Lane.gated : Lane → Bool
  | .masked => true
  | _ => false

/-- Is a lane a structural zero? -/
def Lane.zero : Lane → Bool
  | .pad => true
  | _ => false

/-- R132, R207: product positions of one pass that are not gated, and those of them whose operand is a
structural zero. -/
def TileD.positions (s : State) (d : TileD) : Nat × Nat :=
  if d.isConv then
    ((List.range d.m).flatMap fun i => (List.range d.geo.kc).map fun kc => (i, kc)).foldl (fun t ik =>
      (List.range d.n).foldl (fun t j =>
        (List.range 32).foldl (fun (t : Nat × Nat) ci =>
          let a := laneA s d ik.1 ik.2 (j / 32) ci
          let b := laneB s d ik.2 (j / 32) ci j
          if a.gated || b.gated then t else (t.1 + 1, if a.zero || b.zero then t.2 + 1 else t.2)) t) t) (0, 0)
  else (d.m * d.n * d.k, 0)

/-- Count a descriptor's array work. -/
def countWork (s : State) (c : Nat) (d : TileD) : State :=
  let p := d.positions s
  (((s.cellAdd c State.ctrSteps d.stepCycles).cellAdd c State.ctrSlots d.slots).cellAdd c State.ctrMasked
    (d.slots - d.passesPer * p.1)).cellAdd c State.ctrTaps (d.passesPer * p.2)

/-! ## Tiles -/

/-- The home of a gradient tile and the place of its element (0, 0) (R224, R226, R228): a pair index of
the Welt, or an address. -/
def gradHome (s : State) (ctx : Nat) (d : TileD) : Home × Nat × Nat :=
  match (gmapOf s ctx)[d.gmap]? with
  | none => (.output, 0, 0)
  | some e =>
    let off := if d.op = 0x15 then d.elemOff else d.geo.p0 * d.geo.cOut + d.geo.co0
    let pitch := if d.op = 0x15 then d.ldg else d.geo.cOut
    if gmKind e = 0 then (.welt, gmLoc e / 8 + off, pitch) else (.slm, gmLoc e + 8 * off, pitch)

/-- A tile a descriptor opens, with its starting entries. -/
def newTile (p : Piece) (i : Item) (d : TileD) (es : List AccEntry) : Tile :=
  { group := d.group, groups := d.groups, m := d.m, n := d.n, acc := d.acc, chain := 0, span := .opened,
    slot := i.slot, word := i.word, piece := p.seq, ctx := pdCtx p.desc, home := .output, target := 0, pitch := 0, entries := es, bad := [] }

/-- R107: the OPEN tile that a CHAIN_IN descriptor continues. -/
def openTile (e : Cell) (p : Piece) (d : TileD) : Option Tile :=
  e.tiles.find? fun t => decide (t.piece = p.seq ∧ t.span = .opened ∧ t.group = d.group ∧ t.m = d.m ∧ t.n = d.n ∧
    t.acc = d.acc)

/-- R107, R112: no DRAINING span meets the new one. -/
def spanFree (e : Cell) (d : TileD) : Bool :=
  e.tiles.all fun t => !rangesMeet t.group t.groups d.group d.groups

/-- Replace the tile at a group, or add it. -/
def putTile (s : State) (c : Nat) (t : Tile) : State :=
  s.updCell c fun e => { e with tiles := (e.tiles.filter fun x => x.group != t.group) ++ [t] }

/-- The tile a descriptor works on: the one it continues, the preloaded one, or a new one at its start
(R106, R107, R110); none while it must wait. -/
def startTile (s : State) (c : Nat) (p : Piece) (i : Item) (d : TileD) : Option (Tile × Flags) :=
  let e := s.cell c
  if d.chainIn || i.stage == .preloaded then (openTile e p d).map fun t => (t, 0)
  else if d.preKind ≠ 0 ∨ !spanFree e d then none
  else let r := preEntries s d; some (newTile p i d r.1, r.2)

/-- R113, R117: may the array run a descriptor now? -/
def arrayReady (s : State) (c : Nat) (p : Piece) (i : Item) (d : TileD) : Bool :=
  readsFree s p i.slot (arrayReads d) && decide ((s.cell c).drainQ.length < 4)

/-- The array's work on a descriptor (R98, R105, R113, R233): its passes, then the end of its tile. -/
def runArray (s : State) (c : Nat) (p : Piece) (i : Item) (d : TileD) (t : Tile × Flags) : State :=
  let r := runEntries s d t.1.chain t.1.entries
  let chain := t.1.chain + 32 * d.chunkCount * d.passesPer
  let tile := { t.1 with entries := r.1, chain := chain, slot := i.slot, word := i.word, bad := [] }
  let s := (countWork s c d).stageFlags c (t.2 ||| r.2)
  if !d.drain then itemDone (putTile s c tile) c i.slot
  else if d.isGrad then
    let h := gradHome s (pdCtx p.desc) d
    itemDone (putTile s c { tile with span := .draining, home := h.1, target := h.2.1, pitch := h.2.2 }) c i.slot
  else
    let s := putTile s c { tile with span := .draining }
    let s := s.updCell c fun e => { e with drainQ := e.drainQ ++ [d.group] }
    updItem s c i.slot fun i => { i with stage := .draining }

/-- Run the array's next descriptor where it is of the form asked for and need not wait. -/
def arrayCmd (s : State) (c : Nat) (is : TileD → Bool) : State :=
  match s.pieceOf c with
  | none => s
  | some p =>
    match unitNext p .array with
    | none => s
    | some i =>
      let d := TileD.ofWord i.word
      if !is d || !arrayReady s c p i d then s
      else
        match startTile s c p i d with
        | some t => runArray s c p i d t
        | none => s

/-- R124. -/
def execMatrix (cell : Nat) (s : State) : Out := onCell cell s fun s => arrayCmd s cell fun d => d.op == 0x10

/-- R223, R224. -/
def execWgrad (cell : Nat) (s : State) : Out := onCell cell s fun s => arrayCmd s cell fun d => d.op == 0x15

/-- R198, R204. -/
def execConv (cell : Nat) (s : State) : Out := onCell cell s fun s => arrayCmd s cell fun d => d.op == 0x11

/-- R208: POOL_OP 1. -/
def execPoolMax (cell : Nat) (s : State) : Out :=
  onCell cell s fun s => arrayCmd s cell fun d => d.op == 0x12 && d.geo.poolOp == 1

/-- R209: POOL_OP 2. -/
def execPoolAvgFull (cell : Nat) (s : State) : Out :=
  onCell cell s fun s => arrayCmd s cell fun d => d.op == 0x12 && d.geo.poolOp == 2

/-- R209: POOL_OP 3. -/
def execPoolAvgValid (cell : Nat) (s : State) : Out :=
  onCell cell s fun s => arrayCmd s cell fun d => d.op == 0x12 && d.geo.poolOp == 3

/-- R225. -/
def execConvDx (cell : Nat) (s : State) : Out := onCell cell s fun s => arrayCmd s cell fun d => d.op == 0x16

/-- R226. -/
def execConvWgrad (cell : Nat) (s : State) : Out := onCell cell s fun s => arrayCmd s cell fun d => d.op == 0x17

/-- R106, R112: the preload, once the drains of the descriptors before it have left the port they share, of the array's next descriptor opens its tile. -/
def preload (s : State) (c : Nat) : State :=
  match s.pieceOf c with
  | none => s
  | some p =>
    match unitNext p .array with
    | none => s
    | some i =>
      let d := TileD.ofWord i.word
      if i.stage != .queued || d.chainIn || d.preKind == 0 || !spanFree (s.cell c) d || (s.cell c).drainQ != [] ||
          !readsFree s p i.slot (preRuns d) then s
      else
        let r := preEntries s d
        updItem ((putTile s c (newTile p i d r.1)).stageFlags c r.2) c i.slot fun i => { i with stage := .preloaded }

/-- R112. -/
def execPreload (cell : Nat) (s : State) : Out := onCell cell s fun s => preload s cell

/-- R239: the pairs of a committed SLM-homed tile, in order, on their way to their slices. -/
def slmAddsOf (t : Tile) (ctx : Nat) (own : ReqGen) : List SlmAdd :=
  let n := t.entries.length
  (t.entries.zipIdx).map fun (e, x) =>
    { addr := t.target + 8 * (x / t.n * t.pitch + x % t.n), val := e.p, poison := e.poison, ctx := ctx,
      own := own, group := t.group, last := x + 1 == n }

/-- R114, R117, R239: the drain at the head of a cell's drain queue runs, once no test of its part of the accumulator file
holds it (R531). -/
def tileDrain (s : State) (c : Nat) : State :=
  let e := s.cell c
  match e.drainQ with
  | [] => s
  | g :: rest =>
    match e.tiles.find? fun t => t.group == g with
    | none => s
    | some t =>
      if s.cellDown c || accHeld s c t.group t.groups then s
      else if t.piece = 0 then
        s.updCell c fun e => refillDrains { e with drainQ := rest, slmAdds := e.slmAdds ++ slmAddsOf t t.ctx (s.reqGen c) }
      else
        match s.pieceOf c with
        | none => s
        | some p =>
          let d := TileD.ofWord t.word
          if readsFree s p t.slot (drainReads s d) && writesFree s p t.slot (drainWrites d) then
            let r := drainTile s d t.entries
            let s := (r.1.stageFlags c r.2).updCell c fun e =>
              refillDrains { e with drainQ := rest, tiles := e.tiles.filter fun x => x.group != g }
            itemDone s c t.slot
          else s

/-- R114. -/
def execTileDrain (cell : Nat) (s : State) : Out := onCell cell s fun s => tileDrain s cell

/-- R239, R240: the oldest SLM add of a cell lands at its slice, which serves it while the generations it carries are current
there (R549); the last one frees its span. -/
def slmAdd (s : State) (c : Nat) : State :=
  match (s.cell c).slmAdds with
  | [] => s
  | a :: rest =>
    if !s.reqServed c a.own (homeOf s a.addr) then s
    else
      let r := addStored s a.addr a.val a.poison
      (r.1.orCellFlags c r.2).updCell c fun e =>
        { e with
          slmAdds := rest
          tiles := if a.last then e.tiles.filter fun t => !decide (t.group = a.group ∧ t.piece = 0) else e.tiles }

/-- R239. -/
def execSlmAdd (cell : Nat) (s : State) : Out := onCell cell s fun s => slmAdd s cell

end Sys2Proof.Machine
end

