-- ==== Sys2Proof/Machine/Keccak.lean ====
section
/-! DEFINITION. SHAKE256 of FIPS 202 and KMAC256 of SP 800-185, the digest and the MAC the spec names, and the other functions of
FIPS 202 that FIPS 203 and FIPS 204 call. -/
namespace Sys2Proof.Machine.Keccak

/-- 64-bit rotation to the left. -/
def rotl (x n : Nat) : Nat := ((x <<< n) % 2 ^ 64) ||| (x >>> (64 - n))

/-- Rotation offsets, lane (x, y) at index x + 5y. -/
def rho : List Nat :=
  [0, 1, 62, 28, 27, 36, 44, 6, 55, 20, 3, 10, 43, 25, 39, 41, 45, 15, 21, 8, 18, 2, 61, 56, 14]

/-- Round constants. -/
def rc : List Nat :=
  [0x0000000000000001, 0x0000000000008082, 0x800000000000808A, 0x8000000080008000,
   0x000000000000808B, 0x0000000080000001, 0x8000000080008081, 0x8000000000008009,
   0x000000000000008A, 0x0000000000000088, 0x0000000080008009, 0x000000008000000A] ++
  [0x000000008000808B, 0x800000000000008B, 0x8000000000008089, 0x8000000000008003,
   0x8000000000008002, 0x8000000000000080, 0x000000000000800A, 0x800000008000000A,
   0x8000000080008081, 0x8000000000008080, 0x0000000080000001, 0x8000000080008008]

/-- Lane x + 5y of a state of 25 lanes. -/
def lane (a : List Nat) (x y : Nat) : Nat := a.getD (x % 5 + 5 * (y % 5)) 0

/-- One round of Keccak-f. -/
def round (a : List Nat) (k : Nat) : List Nat :=
  let c := (List.range 5).map fun x =>
    lane a x 0 ^^^ lane a x 1 ^^^ lane a x 2 ^^^ lane a x 3 ^^^ lane a x 4
  let d := (List.range 5).map fun x => c.getD ((x + 4) % 5) 0 ^^^ rotl (c.getD ((x + 1) % 5) 0) 1
  let t := (List.range 25).map fun i => a.getD i 0 ^^^ d.getD (i % 5) 0
  -- B[y, 2x + 3y] = rot(A[x, y]): lane (X, Y) of B comes from x = X + 3Y, y = X
  let b := (List.range 25).map fun i =>
    let x := i % 5
    let y := i / 5
    let j := (x + 3 * y) % 5 + 5 * x
    rotl (t.getD j 0) (rho.getD j 0)
  let e := (List.range 25).map fun i =>
    let x := i % 5
    let y := i / 5
    lane b x y ^^^ ((2 ^ 64 - 1 - lane b (x + 1) y) &&& lane b (x + 2) y)
  match e with
  | [] => []
  | h :: r => (h ^^^ k) :: r

/-- Keccak-f[1600]. -/
def permute (a : List Nat) : List Nat := rc.foldl round a

/-- XOR a block of bytes into the first lanes. -/
def absorb (a : List Nat) (blk : List Byte) : List Nat :=
  (List.range 25).map fun i => a.getD i 0 ^^^ leNat ((blk.drop (8 * i)).take 8)

/-- The bytes of a state. -/
def stateBytes (a : List Nat) : List Byte := a.flatMap (leBytes 8)

/-- The rate in bytes of SHAKE256 and KMAC256. -/
def rate : Nat := 136

/-- Pad a message with its domain byte to whole blocks of r bytes. -/
def pad (r dom : Nat) (msg : List Byte) : List Byte :=
  let n := r - msg.length % r
  if n = 1 then msg ++ [BitVec.ofNat 8 (dom + 0x80)]
  else msg ++ [BitVec.ofNat 8 dom] ++ List.replicate (n - 2) 0 ++ [0x80]

/-- Absorb n blocks of r bytes. -/
def absorbAll (r : Nat) : Nat → List Nat → List Byte → List Nat
  | 0, a, _ => a
  | n + 1, a, m => absorbAll r n (permute (absorb a (m.take r))) (m.drop r)

/-- Squeeze n blocks of r bytes. -/
def squeeze (r : Nat) : Nat → List Nat → List Byte
  | 0, _ => []
  | n + 1, a => (stateBytes a).take r ++ squeeze r n (permute a)

/-- The sponge of rate r bytes with a domain byte, n output bytes. -/
def sponge (r dom : Nat) (msg : List Byte) (n : Nat) : List Byte :=
  let m := pad r dom msg
  (squeeze r (ceilDiv n r) (absorbAll r (m.length / r) (List.replicate 25 0) m)).take n

/-- SHAKE128, n output bytes. -/
def shake128 (msg : List Byte) (n : Nat) : List Byte := sponge 168 0x1F msg n

/-- SHA3-256. -/
def sha3x256 (msg : List Byte) : List Byte := sponge 136 0x06 msg 32

/-- SHA3-512. -/
def sha3x512 (msg : List Byte) : List Byte := sponge 72 0x06 msg 64

/-- SHAKE256, n output bytes. -/
def shake256 (msg : List Byte) (n : Nat) : List Byte := sponge rate 0x1F msg n

/-- Big-endian bytes of a number, without leading zeros; one byte for zero. -/
def beBytes (v : Nat) : List Byte :=
  let n := if v = 0 then 1 else Nat.log2 v / 8 + 1
  (leBytes n v).reverse

/-- left_encode of SP 800-185. -/
def leftEncode (v : Nat) : List Byte := let b := beBytes v; BitVec.ofNat 8 b.length :: b

/-- right_encode of SP 800-185. -/
def rightEncode (v : Nat) : List Byte := let b := beBytes v; b ++ [BitVec.ofNat 8 b.length]

/-- encode_string of SP 800-185. -/
def encodeString (s : List Byte) : List Byte := leftEncode (8 * s.length) ++ s

/-- bytepad of SP 800-185 to the rate. -/
def bytepad (s : List Byte) : List Byte :=
  let x := leftEncode rate ++ s
  x ++ List.replicate ((rate - x.length % rate) % rate) 0

/-- KMAC256 with an empty customisation string, n output bytes. -/
def kmac256 (key msg : List Byte) (n : Nat) (custom : List Byte) : List Byte :=
  let name : List Byte := [0x4B, 0x4D, 0x41, 0x43]
  let x := bytepad (encodeString key) ++ msg ++ rightEncode (8 * n)
  sponge rate 0x04 (bytepad (encodeString name ++ encodeString custom) ++ x) n

end Sys2Proof.Machine.Keccak
end

