-- ==== Sys2Proof/Machine/BitStream.lean ====
section
/-! DEFINITION. Reading the files of R367: what a decoder gives, bits in either order, checksums, chunks. -/
namespace Sys2Proof.Machine

/-- What the decode of a file gives (R367, R368): the reason it is corrupt for, or 0; of a picture its width, height, components,
depth, kind of components and chroma subsampling, of a sound its rate and the bits of a sample; and the frames or channels. -/
structure Media where
  reason : Nat
  dims : List Nat
  data : List (List Nat)
  deriving DecidableEq, Repr

/-- A corrupt file. -/
def Media.bad (reason : Nat) : Media := { reason := reason, dims := [], data := [] }

/-- R368 SYNTAX where nothing was decoded. -/
def Media.orSyntax (m : Option Media) : Media := m.getD (Media.bad 1)

/-- The bytes of a name. -/
def ascii (s : String) : List Byte := s.toList.map fun c => BitVec.ofNat 8 c.toNat

/-- Big-endian value of bytes. -/
def beNat (bs : List Byte) : Nat := leNat bs.reverse

/-- The bits of bytes, the least significant first. -/
def bitsLow (bs : List Byte) : List Bool := bs.flatMap fun b => (List.range 8).map fun i => b.getLsbD i

/-- The bits of bytes, the most significant first. -/
def bitsHigh (bs : List Byte) : List Bool := bs.flatMap fun b => (List.range 8).map fun i => b.getLsbD (7 - i)

/-- Bits not read yet, and how many have been. -/
structure BitPos where
  rest : List Bool
  pos : Nat
  deriving DecidableEq, Repr

/-- A reader of bits, which fails where its file breaks its standard. -/
abbrev BitReader := StateT BitPos Option

namespace BitReader

/-- One bit. -/
def flag : BitReader Bool := fun p =>
  match p.rest with
  | [] => none
  | b :: r => some (b, { rest := r, pos := p.pos + 1 })

/-- n bits as a number, the most significant first. -/
def high : Nat → BitReader Nat
  | 0 => pure 0
  | n + 1 => do
    let b ← flag
    let v ← high n
    pure ((if b then 2 ^ n else 0) + v)

/-- n bits as a number, the least significant first. -/
def low : Nat → BitReader Nat
  | 0 => pure 0
  | n + 1 => do
    let b ← flag
    let v ← low n
    pure ((if b then 1 else 0) + 2 * v)

/-- n bits as a two's-complement number, the most significant first. -/
def signed (n : Nat) : BitReader Int := do
  let v ← high n
  pure (if 2 ^ n ≤ 2 * v then (v : Int) - 2 ^ n else v)

/-- The zeros before the next one, at most n of them. -/
def zeros : Nat → BitReader Nat
  | 0 => failure
  | n + 1 => do
    if ← flag then pure 0 else pure ((← zeros n) + 1)

/-- To the next byte. -/
def align : BitReader Unit := do
  let p ← get
  let _ ← high ((8 - p.pos % 8) % 8)

/-- Fail unless a condition holds. -/
def need (c : Bool) : BitReader Unit := if c then pure () else failure

/-- Read n items. -/
def items {α : Type} (r : BitReader α) : Nat → BitReader (List α)
  | 0 => pure []
  | n + 1 => do
    let a ← r
    let l ← items r n
    pure (a :: l)

end BitReader

/-- A canonical Huffman code: how many symbols have each length from 1 on, and the symbols in the order of their codes. -/
structure Huffman where
  counts : List Nat
  symbols : List Nat
  deriving DecidableEq, Repr

/-- Read a symbol: the code so far, the first code and the first symbol of the length. -/
def symbolFrom (symbols : List Nat) : List Nat → Nat → Nat → Nat → BitReader Nat
  | [], _, _, _ => failure
  | n :: ns, code, first, index => do
    let code := 2 * code + (if ← BitReader.flag then 1 else 0)
    if code < first + n then
      match symbols[index + (code - first)]? with
      | some x => pure x
      | none => failure
    else symbolFrom symbols ns code (2 * (first + n)) (index + n)

/-- Read a symbol. -/
def Huffman.read (h : Huffman) : BitReader Nat := symbolFrom h.symbols h.counts 0 0 0

/-- A CRC of n bits, most significant bit first, of a polynomial. -/
def crcHigh (n poly : Nat) (bs : List Byte) : Nat :=
  (bitsHigh bs).foldl (fun c b =>
    let top := c.testBit (n - 1) != b
    (2 * c % 2 ^ n) ^^^ (if top then poly else 0)) 0

/-- One step of CRC-32, bit by bit, least significant first. -/
def crcBit (c : Nat) : Nat := if c % 2 = 1 then (c / 2) ^^^ 0xEDB88320 else c / 2

/-- One byte into CRC-32. -/
def crcByte (c : Nat) (b : Byte) : Nat :=
  crcBit (crcBit (crcBit (crcBit (crcBit (crcBit (crcBit (crcBit (c ^^^ b.toNat))))))))

/-- CRC-32 with polynomial 0x04C1_1DB7. PRESUMED (log 34): the bit order, the start value and the final inversion
are those of IEEE 802.3, whose CRC has that name and polynomial. -/
def crc32 (bs : List Byte) : Nat := bs.foldl crcByte 0xFFFFFFFF ^^^ 0xFFFFFFFF

/-- Adler-32. -/
def adler32 (bs : List Nat) : Nat :=
  let r := bs.foldl (fun (a : Nat × Nat) b => let x := (a.1 + b) % 65521; (x, (a.2 + x) % 65521)) (1, 0)
  r.2 * 65536 + r.1

end Sys2Proof.Machine
end

