-- ==== Sys2Proof/Machine/Ports.lean ====
section
/-! DEFINITION. The ports of the Latigo fabric: flits on a hop, credits, acknowledgement, replay (R336 to
R341). -/
namespace Sys2Proof.Machine

/-! ## The flit (R337) -/

/-- Header bits [223:0]. -/
def flitHead (src seq ack vl kind crVl crRet : Nat) (f : Flit) : Nat :=
  f.addr % 2 ^ 42 + f.idx % 2 ^ 32 * 2 ^ 64 + f.op % 2 ^ 32 * 2 ^ 96 + crRet % 2 ^ 12 * 2 ^ 146 + crVl * 2 ^ 158 +
    kind * 2 ^ 160 + vl * 2 ^ 162 + ack % 2 ^ 12 * 2 ^ 164 + seq % 2 ^ 12 * 2 ^ 176 + src % 2 ^ 18 * 2 ^ 188 +
    f.dst % 2 ^ 18 * 2 ^ 206

/-- The payload filled up to 480 bytes. -/
def fill480 (p : List Byte) : List Byte := p ++ List.replicate (480 - p.length) 0

/-- A header with its CRC. -/
def withCrc (h : Nat) (payload : List Byte) : Nat := h + crc32 (leBytes 28 h ++ payload) * 2 ^ 224

/-- Does a received flit pass its CRC? -/
def crcOk (header : Nat) (payload : List Byte) : Bool := decide (withCrc (fld header 223 0) payload = header)

/-- A flit of KIND NULL or RETRY. -/
def bareFlit : Flit := { kind := 0, vl := 0, dst := 0, op := 0, idx := 0, addr := 0, payload := [], poison := 0 }

/-- Send one flit on a port with a sequence number; every flit carries the acknowledgement (R337). -/
def emit (s : State) (p seq crVl crRet : Nat) (f : Flit) : State :=
  let h := flitHead s.moduleId seq (s.port p).rxSeq f.vl f.kind crVl crRet f
  s.send (.flit p (withCrc h (fill480 f.payload)) (fill480 f.payload) f.poison)

/-- R339: send RETRY with the last SEQ accepted in order. -/
def sendRetry (s : State) (p : Nat) : State := emit s p 0 0 0 { bareFlit with kind := 3 }

/-- Acknowledge an accepted flit and give its credit back, in a NULL flit (R337, R341). -/
def sendAck (s : State) (p vl : Nat) : State := emit s p 0 vl 1 bareFlit

/-! ## Sending (R339, R340) -/

namespace Port

/-- Are the data wavelengths in service (R332), and not idle after a slot of their own (R66)? DEDUCED (log 124): in a
slot of the Harness wavelength alone they stay in service, as R65's example counts the slots of the data lanes only. -/
def data (p : Port) : Bool :=
  match p.state with
  | .up | .upNoHarness => p.idle != some false
  | .calibrating true _ => true
  | _ => false

/-- Is the Harness wavelength in service (R65, R66, R332, R535)? -/
def harness (p : Port) : Bool :=
  match p.state with
  | .up => p.idle != some true
  | .calibrating false no => !no && !p.both
  | _ => false

/-- R344: does the port count as not lost for data? -/
def serves (p : Port) : Bool :=
  match p.state with
  | .up | .upNoHarness | .calibrating _ _ => true
  | _ => false

/-- Credits in use on a lane. -/
def inUse (p : Port) (v : Nat) : Nat := p.used.getD v 0

/-- R340: does a lane hold a credit: 128 flits of the buffer are its own, the other 2,176 are shared? -/
def credit (p : Port) (v : Nat) : Bool :=
  decide (p.inUse v < 128 ∨ (p.used.map (· - 128)).sum < 2176)

/-- May a lane send now? -/
def canSend (p : Port) (v : Nat) : Bool :=
  p.data && p.credit v && decide (p.unacked.length < 2560) && p.txq.any fun f => f.vl == v

end Port

/-- R340: the lane served next, and its turns left after it: weighted round robin. -/
def nextLane (s : State) (p : Port) : Option (Nat × Nat) :=
  if decide (0 < p.turns) && p.canSend p.lane then some (p.lane, p.turns - 1)
  else
    (List.range 3).findSome? fun k =>
      let v := (p.lane + 1 + k) % 3
      if p.canSend v then some (v, s.odGet 0x4030 (v + 1) - 1) else none

/-- Take the first flit of a lane out of a list. -/
def takeLane (v : Nat) : List Flit → Option (Flit × List Flit)
  | [] => none
  | f :: r => if f.vl = v then some (f, r) else (takeLane v r).map fun q => (q.1, f :: q.2)

/-- Send what the credits allow. -/
def pumpN (s : State) (p : Nat) : Nat → State
  | 0 => s
  | n + 1 =>
    let q := s.port p
    match nextLane s q with
    | none => s
    | some (v, turns) =>
      match takeLane v q.txq with
      | none => s
      | some (f, rest) =>
        let s := s.setPort p { q with
          txq := rest, lane := v, turns := turns, txSeq := (q.txSeq + 1) % 4096, unacked := q.unacked ++ [(q.txSeq, f)], replays := q.replays ++ [0],
          used := setAt q.used v (q.inUse v + 1) }
        pumpN (emit s p q.txSeq 0 0 f) p n

/-- Send what the credits allow. -/
def pump (s : State) (p : Nat) : State := pumpN s p (s.port p).txq.length

/-- Hand a flit to a port. -/
def enqueue (s : State) (p : Nat) (f : Flit) : State := pump (s.updPort p fun q => { q with txq := q.txq ++ [f] }) p

/-! ## Receiving (R339) -/

/-- Distance from sequence number a to b. -/
def seqDist (a b : Nat) : Nat := (b + 4096 - a) % 4096

/-- R337: take the acknowledgement of a received flit: flits up to ACK leave the retry buffer. -/
def takeAck (q : Port) (ack : Nat) : Port :=
  match q.unacked with
  | [] => q
  | (first, _) :: _ =>
    let n := seqDist first ack + 1
    if n ≤ q.unacked.length then { q with unacked := q.unacked.drop n, replays := q.replays.drop n } else q

/-- R337: take returned credits. -/
def takeCredits (q : Port) (v n : Nat) : Port := { q with used := setAt q.used v (q.inUse v - n) }

/-- Flits that a port has been given and that its neighbour has not acknowledged. -/
def Port.unsent (q : Port) : List Flit := q.txq ++ q.unacked.map (·.2)

/-- R352, R448: snapshots whose container the named port has sent whole, with every flit acknowledged, complete. -/
def snapsSent (s : State) (p : Nat) : State :=
  s.snaps.foldl (fun s n =>
    match n.sent with
    | some (q, bytes, chunks, st) =>
      if q = p && !((s.port p).unsent.any fun f => f.op == n.id) then
        complete { s with snaps := s.snaps.filter fun m => m.cmd != n.cmd } n.cmd st { d0 := n.id, d1 := bytes, d2 := chunks, d3 := 0 }
      else s
    | none => s) s

/-- Acknowledgement and credits of any received flit. -/
def takeHop (s : State) (p header : Nat) : State :=
  let s := s.updPort p fun q => takeCredits (takeAck q (fld header 175 164)) (fld header 159 158) (fld header 157 146)
  snapsSent (pump s p) p

/-- Receive a flit on a port: none where it is dropped; else the state once the hop's part is done. DATA and
REDUCE flits are accepted in order only; a failed CRC or a gap asks for a replay. A flit that overlaps an
uncorrectable code word is discarded (R336); code words corrected and not are counted (R339). -/
def receive (s : State) (p header kind fec unc : Nat) (payload : List Byte) : State × Bool :=
  if !(s.port p).data || fld header 161 160 != kind then (s, false)
  else
  let s := (s.odAdd 0x4020 (p + 1) fec).odAdd 0x4021 (p + 1) unc
  if unc ≠ 0 then (s, false)
  else if !crcOk header payload then (sendRetry s p, false)
  else
    let s := takeHop s p header
    if kind = 0 ∨ kind = 3 then (s, true)
    else
      let due := ((s.port p).rxSeq + 1) % 4096
      let seq := fld header 187 176
      if seq = due then (sendAck (s.updPort p fun q => { q with rxSeq := seq }) p (fld header 163 162), true)
      else if seqDist due seq < 2560 then (sendRetry s p, false)
      else (s, false)

/-- R338: NULL. -/
def execFlitNull (port header : Nat) (payload : List Byte) (fec unc : Nat) (s : State) : Out :=
  onPort port s fun s => (receive s port header 0 fec unc payload).1

/-! ## Words the residue rules read (R356) -/

/-- R356, R357: the residue of an FP32 value modulo 255; 0 for infinities and NaNs. -/
def residue (x : F32) : Nat :=
  let n := x.toNat
  let e := fld n 30 23
  let f := fld n 22 0
  if e = 255 then 0
  else
    let m := if e = 0 then f else f + 2 ^ 23
    let r := m * 2 ^ ((e - 1) % 8) % 255
    if bit n 31 then (255 - r) % 255 else r

/-- The residue of an exact difference held as a multiple of 2^-149 (R358). -/
def residueInt (n : Int) : Nat := (n % 255).toNat

end Sys2Proof.Machine
end

