-- ==== Sys2Proof/Machine/Fabric.lean ====
section
/-! DEFINITION. Fabric operations: their elements, routes, start, flits, residues and end (R343 to R361). -/
namespace Sys2Proof.Machine

/-! ## Planes and stripes (R344, R352) -/

/-- The planes usable for data, in ascending port order. -/
def usablePlanes (s : State) : List Nat := (List.range 48).filter fun p => !bit (s.odGet 0x4013 0) p

/-- The number that stands for no plane: a stripe with it waits until a plane is usable (R355). -/
def noPlane : Nat := 48

/-- The planes an operation's elements are split over: those usable, or none. -/
def splitPlanes (s : State) : List Nat := if usablePlanes s = [] then [noPlane] else usablePlanes s

/-- R352: split elements first to first + n − 1 over planes. -/
def cutStripes (first n : Nat) (planes : List Nat) : List Stripe :=
  let per := roundUp (ceilDiv n planes.length) 96
  planes.zipIdx.map fun (p, i) => { plane := p, first := first + min n (i * per), count := min per (n - i * per), moved := false }

/-! ## Flits of an operation -/

/-- The elements of one flit: those of one owner, at most 96 in a reduction, at most 480 bytes otherwise;
and whether its stripe takes the ring (R353). -/
structure Chunk where
  owner : Nat
  count : Nat
  src : Nat
  dst : Nat
  sSize : Nat
  pSize : Nat
  dSize : Nat
  ring : Bool
  deriving DecidableEq, Repr

/-- Notice code of a kind: R447's for host commands, the model's own above 15 (log 140). -/
def FabKind.code : FabKind → Nat
  | reduceScatter => 0
  | allReduce => 1
  | allGather => 2
  | broadcast => 3
  | put => 4
  | exchange => 16
  | stepGather => 17
  | mirror => 18

namespace FabOp

/-- Members in the group. -/
def size (o : FabOp) : Nat := o.ranks.length

/-- Does the operation add (R347)? -/
def reduces (o : FabOp) : Bool := decide (o.kind = .exchange ∨ o.kind = .reduceScatter ∨ o.kind = .allReduce)

/-- Does it end at the owner of each element? -/
def scatters (o : FabOp) : Bool := decide (o.kind = .exchange ∨ o.kind = .reduceScatter)

/-- One member to one other (R347). -/
def direct (o : FabOp) : Bool := decide (o.kind = .put ∨ o.kind = .mirror)

/-- R340: the lane of its DATA flits. -/
def dataLane (o : FabOp) : Nat := if o.direct then 2 else 1

/-- Elements of a segment in one flit. -/
def cap (o : FabOp) (g : Seg) : Nat := if o.reduces then 96 else 480 / g.pSize

/-- The flits that carry elements lo to hi − 1, segment by segment. -/
def cuts (o : FabOp) (ring : Bool) (lo hi : Nat) : List Seg → Nat → List Chunk
  | [], _ => []
  | g :: r, off =>
    let a := max lo off
    let b := min hi (off + g.count)
    ((List.range (ceilDiv (b - a) (o.cap g))).map fun k =>
      let e := a + k * o.cap g
      { owner := g.owner, count := min (o.cap g) (b - e), src := g.src + (e - off) * g.sSize,
        dst := g.dst + (e - off) * g.dSize, sSize := g.sSize, pSize := g.pSize, dSize := g.dSize, ring := ring }) ++
      cuts o ring lo hi r (off + g.count)

/-- The flits of a stripe. -/
def chunks (o : FabOp) (t : Stripe) : List Chunk :=
  o.cuts (decide (96 * o.size ≤ t.count)) t.first (t.first + t.count) o.segs 0

/-- The flits of a plane, in the order of FLIT_INDEX. -/
def planeChunks (o : FabOp) (plane : Nat) : List Chunk := (o.stripes.filter fun t => t.plane == plane).flatMap o.chunks

/-- The flits of the stripe at place k of the operation's list, each with its FLIT_INDEX. -/
def stripeFlits (o : FabOp) (k : Nat) : List (Chunk × Nat) :=
  match o.stripes[k]? with
  | none => []
  | some t =>
    (o.chunks t).zipIdx (((o.stripes.take k).filter fun u => u.plane == t.plane).flatMap o.chunks).length

/-- The flits of the stripes in force: plane, FLIT_INDEX and elements. -/
def flits (o : FabOp) : List (Nat × Nat × Chunk) :=
  (o.stripes.zipIdx).flatMap fun (t, k) => if t.moved then [] else (o.stripeFlits k).map fun (c, i) => (t.plane, i, c)

/-- Is this module's part in a flit over? -/
def isOver (o : FabOp) (f : Nat × Nat × Chunk) : Bool := o.past.contains (f.1, f.2.1)

/-- Does a flit land on this module (R347)? -/
def landsHere (o : FabOp) (c : Chunk) : Bool :=
  if o.direct then !o.sender || o.peer == o.me else !o.scatters || c.owner == o.me

/-- The code of the notices that other members send for this operation: those of a mirror's two ends differ. -/
def peerCode (o : FabOp) : Nat := if o.kind = .mirror then (if o.sender then 19 else 18) else o.kind.code

/-- The code of this module's own notice. -/
def ownCode (o : FabOp) : Nat := if o.kind = .mirror ∧ !o.sender then 19 else o.kind.code

end FabOp

/-! ## Routes (R353) -/

/-- The lowest 1 bit of a rank other than 0. -/
def lowBit (r : Nat) : Nat := 2 ^ ((List.range 20).find? fun k => bit r k).getD 20

/-- Ranks below a rank in the binomial tree rooted at rank 0. -/
def treeKids (size r : Nat) : List Nat :=
  ((List.range 20).filter fun k => decide ((r = 0 ∨ 2 ^ k < lowBit r) ∧ r + 2 ^ k < size)).map fun k => r + 2 ^ k

/-- R353: the algorithms of FABRIC mode, by a code: a ring over all members; rings within groups of up to 1,024 consecutive
ranks and a ring over the groups; a tree of fan-in up to 16. Each is a tree whose root is the rank where the sums end, so every
contribution enters once. The rank that a rank other than the root sends to. -/
def algParent (alg size owner r : Nat) : Nat :=
  match alg % 3 with
  | 0 => (r + 1) % size
  | 1 =>
    let g := 1 + alg / 3 % 1024
    let first (i : Nat) : Nat := i * g
    let len (i : Nat) : Nat := min g (size - i * g)
    let lead (i : Nat) : Nat := first i + min (owner % g) (len i - 1)
    let i := r / g
    if r = lead i then lead ((i + 1) % ceilDiv size g) else first i + (r - first i + 1) % len i
  | _ => (((r + size - owner) % size - 1) / (1 + alg / 3 % 16) + owner) % size

/-- R353: the choice for an operation and plane. -/
def chosenParent (o : FabOp) (plane owner r : Nat) : Nat :=
  algParent (Config.fabricAlg o.kind.code o.ctx o.seq plane) o.size owner r

/-- Ranks that send to a rank under the firmware's choice in FABRIC mode. -/
def chosenKids (o : FabOp) (plane owner r : Nat) : List Nat :=
  (List.range o.size).filter fun q => q != owner && chosenParent o plane owner q == r

/-- The rank that a partial sum goes on to; none where it ends. -/
def upOf (s : State) (o : FabOp) (plane : Nat) (c : Chunk) (r : Nat) : Option Nat :=
  if s.job.mode = 2 then (if r = c.owner then none else some (chosenParent o plane c.owner r))
  else if c.ring then (if r = c.owner then none else some ((r + 1) % o.size))
  else if r = 0 then none else some (r - lowBit r)

/-- The ranks whose partial sums a rank adds. -/
def kidsOf (s : State) (o : FabOp) (plane : Nat) (c : Chunk) (r : Nat) : List Nat :=
  if s.job.mode = 2 then chosenKids o plane c.owner r
  else if c.ring then (if r = (c.owner + 1) % o.size then [] else [(r + o.size - 1) % o.size])
  else treeKids o.size r

/-- The ranks that data on its way down goes on to. -/
def downOf (s : State) (o : FabOp) (plane : Nat) (c : Chunk) (r : Nat) : List Nat :=
  if o.scatters then
    if s.job.mode = 2 ∨ c.ring ∨ r = c.owner then []
    else (treeKids o.size r).filter fun k => decide (k ≤ c.owner ∧ c.owner < k + lowBit k)
  else if s.job.mode = 2 then chosenKids o plane c.owner r
  else if c.ring then (if (r + 1) % o.size = c.owner then [] else [(r + 1) % o.size])
  else treeKids o.size r

/-! ## Sending -/

/-- Hand a flit to a member, or hold it until that member has started (R349). -/
def sendTo (s : State) (id plane rank : Nat) (f : Flit) : State :=
  match s.fabOp? id with
  | none => s
  | some o =>
    let m := o.ranks.getD rank 0
    match o.starts.find? fun t => t.1 == m with
    | some t => enqueue s plane { f with dst := m, addr := t.2.2 + f.addr }
    | none => s.updFab id fun o => { o with held := o.held ++ [(plane, rank, { f with dst := m })] }

/-- R338: the payload of a REDUCE flit. -/
def reducePayload (vals : List (F32 × Nat)) : List Byte :=
  let vs := vals ++ List.replicate (96 - vals.length) (0, 0)
  vs.flatMap (fun v => leBytes 4 v.1.toNat) ++ vs.map fun v => BitVec.ofNat 8 v.2

/-- Send a partial sum to a rank, and keep it for a resend. -/
def sendReduce (s : State) (o : FabOp) (plane idx rank : Nat) (c : Chunk) (vals : List (F32 × Nat)) : State :=
  let s := s.updFab o.id fun o => { o with sent := o.sent ++ [{ plane := plane, idx := idx, dest := rank, vals := vals }] }
  sendTo s o.id plane rank
    { kind := 2, vl := 0, dst := 0, op := o.id, idx := idx, addr := c.dst, payload := reducePayload vals, poison := 0 }

/-- Send data to ranks. -/
def sendData (s : State) (o : FabOp) (plane idx : Nat) (ranks : List Nat) (c : Chunk) (payload : List Byte) (poison : Nat) : State :=
  ranks.foldl (fun s r => sendTo s o.id plane r
    { kind := 1, vl := o.dataLane, dst := 0, op := o.id, idx := idx, addr := c.dst, payload := payload, poison := poison }) s

/-- Note a flit's part here as over. -/
def markOver (s : State) (id plane idx : Nat) : State := s.updFab id fun o => { o with past := (plane, idx) :: o.past }

/-! ## Local values -/

/-- A local contribution with the residue of its own value (R354, R358); poison carries 0xFF (R357). -/
def srcValue (s : State) (o : FabOp) (c : Chunk) (i : Nat) : F32 × Nat :=
  let bs := s.reachBytes (c.src + i * c.sSize) c.sSize
  let w := bs.map (·.1)
  let v : F32 :=
    if o.lined then (rn32 (Lined.ofBytes w).val).1
    else if o.fmt = 1 then BitVec.ofNat 32 (leNat w * 65536)
    else BitVec.ofNat 32 (leNat w)
  (v, if bs.any (·.2) then 0xFF else residue v)

/-- The local contributions to a flit. -/
def srcValues (s : State) (o : FabOp) (c : Chunk) : List (F32 × Nat) := (List.range c.count).map (srcValue s o c)

/-- R310: n bytes that an operation sends pass through their home slices; a fenced or unmapped cell among them is noted
(R17). -/
def readSource (s : State) (id a n : Nat) : State :=
  let s := sliceLoads s [(a, n)]
  if s.downIn a n then s.draw.updFab id fun o => { o with reset := true } else s

/-- Poison bits of bytes, one for each 32 bytes of payload. -/
def poisonBits (bs : List (Byte × Bool)) : Nat :=
  ((List.range 15).map fun k => if ((bs.drop (32 * k)).take 32).any (·.2) then 2 ^ k else 0).sum

/-! ## Landing -/

/-- R463: what the home slices take of writes that come from other modules: not the journal's part; what a fenced or unmapped
cell loses (R17) is noted. -/
def landEls (s : State) (id n : Nat) (els : List (Nat × List Byte × Bool)) : State :=
  let down := els.filter fun e => s.downIn e.1 e.2.1.length
  let up := els.filter fun e => !s.downIn e.1 e.2.1.length && !s.meetsJournal e.1 e.2.1.length
  (reachEls s up).updFab id fun o =>
    { o with
      landed := o.landed + n
      lost := o.lost + (down.map fun e => e.2.1.length).sum
      reset := o.reset || down != []
      poisoned := o.poisoned || els.any fun e => e.2.2 }

/-- Write n bytes of payload where they land; poison travels with them. -/
def landBytes (s : State) (id a : Nat) (payload : List Byte) (poison : Nat) : State :=
  landEls s id payload.length ((payload.zipIdx).map fun (b, i) => (a + i, [b], bit poison (i / 32)))

/-- Write FP32 values, narrowed where the destination is BF16. -/
def landValues (s : State) (o : FabOp) (c : Chunk) (a : Nat) (vals : List (F32 × Bool)) : State :=
  landEls s o.id (vals.length * c.dSize) ((vals.zipIdx).map fun (v, i) =>
    let w := if c.dSize = 2 then (convert .bf16 Numctl.plainRne 0 (val32 v.1)).1 else v.1.toNat
    (a + i * c.dSize, leBytes c.dSize w, v.2))

/-- The data of a flit lands here: raw bytes, or FP32 values of a reduction. -/
def landData (s : State) (o : FabOp) (c : Chunk) (a : Nat) (payload : List Byte) (poison : Nat) : State :=
  if c.pSize = c.dSize ∧ !o.reduces then landBytes s o.id a (payload.take (c.count * c.pSize)) poison
  else landValues s o c a ((List.range c.count).map fun i =>
    (BitVec.ofNat 32 (leNat ((payload.drop (4 * i)).take 4)), bit poison (i / 8)))

/-! ## Residues (R358) -/

/-- Is a value an infinity or a NaN? -/
def special32 (x : F32) : Bool := fld x.toNat 30 23 == 255

/-- R358: add two values with their residues: the sum, its predicted residue, the flags of R357. -/
def residueAdd (a b : F32 × Nat) : (F32 × Nat) × Flags :=
  let sum := Val.add (val32 a.1) (val32 b.1)
  let r := rn32 sum.1
  let f := (sum.2 ||| r.2) &&& (Flag.overflow ||| Flag.invalid)
  if a.2 = 0xFF ∨ b.2 = 0xFF then ((r.1, 0xFF), f)
  else if special32 a.1 || special32 b.1 || special32 r.1 then ((r.1, 0), f)
  else
    let t := sum.1.scaled (-149) - (val32 r.1).scaled (-149)
    ((r.1, (a.2 + b.2 + 255 - residueInt t) % 255), 0)

/-- Add two flits' values. -/
def residueAdds (a b : List (F32 × Nat)) : List (F32 × Nat) × Flags :=
  let rs := List.zipWith residueAdd a b
  (rs.map (·.1), rs.foldl (fun f r => f ||| r.2) 0)

/-- R359: does a value's residue differ from the one it carries? -/
def residueBad (v : F32 × Nat) : Bool := v.2 != 0xFF && !special32 v.1 && residue v.1 != v.2

/-! ## The parts of an operation -/

/-- A sum is whole: it lands where it belongs, and goes on down (R353): a scatter with its residues on lane 0, the gather of an
ALL_REDUCE on lane 1 (R347, R354). -/
def finishReduce (s : State) (o : FabOp) (plane idx : Nat) (c : Chunk) (vals : List (F32 × Nat)) : State :=
  let s := if o.scatters && decide (o.me ≠ c.owner) then s
    else landValues s o c (o.dst + c.dst) (vals.map fun v => (v.1, v.2 == 0xFF))
  let poison := ((vals.zipIdx).map fun (v, i) => if v.2 = 0xFF then [i / 8] else []).flatten.eraseDups
  let below := downOf s o plane c o.me
  let s := if o.scatters then below.foldl (fun s r => sendReduce s o plane idx r c vals) s
    else sendData s o plane idx below c (vals.flatMap fun v => leBytes 4 v.1.toNat) ((poison.map (2 ^ ·)).sum)
  markOver s o.id plane idx

/-- A partial sum is whole as far as this module goes. -/
def passSum (s : State) (o : FabOp) (plane idx : Nat) (c : Chunk) (vals : List (F32 × Nat)) : State :=
  match upOf s o plane c o.me with
  | some r =>
    let s := sendReduce s o plane idx r c vals
    if o.scatters && decide (o.me ≠ c.owner) && downOf s o plane c o.me == [] then markOver s o.id plane idx else s
  | none => finishReduce s o plane idx c vals

/-- What this module does with a flit of its own at the start: first contributions to sums, own data, local
copies (R353). -/
def startChunk (s : State) (o : FabOp) (plane idx : Nat) (c : Chunk) : State :=
  if o.reduces then
    if kidsOf s o plane c o.me = [] then
      passSum (readSource s o.id c.src (c.count * c.sSize)) o plane idx c (srcValues s o c)
    else s
  else if o.direct then
    if !o.sender then s
    else
      let n := c.count * c.pSize
      let bs := s.reachBytes c.src n
      let pl := bs.map (·.1)
      let bad := poisonBits bs
      let s := readSource s o.id c.src n
      if o.peer = o.me then markOver (landBytes s o.id (o.dst + c.dst) pl bad) o.id plane idx
      else markOver (sendData s o plane idx [o.peer] c pl bad) o.id plane idx
  else if c.owner ≠ o.me then s
  else
    let n := c.count * c.pSize
    let bs := s.reachBytes c.src n
    let pl := bs.map (·.1)
    let bad := poisonBits bs
    let s := landBytes (readSource s o.id c.src n) o.id (o.dst + c.dst) pl bad
    if s.job.mode = 2 ∨ c.ring ∨ o.me = 0 then
      sendData (markOver s o.id plane idx) o plane idx (downOf s o plane c o.me) c pl bad
    else
      let s := if treeKids o.size o.me = [] then markOver s o.id plane idx else s
      sendData s o plane idx ((upOf s o plane c o.me).toList) c pl bad

/-- Start the flits of a stripe that stands at place k of the operation's list; one without a plane waits (R355). -/
def startStripe (s : State) (id k : Nat) : State :=
  match s.fabOp? id with
  | none => s
  | some o =>
    match o.stripes[k]? with
    | none => s
    | some t =>
      if t.plane = noPlane then s
      else
        (o.stripeFlits k).foldl (fun s (c, i) =>
          match s.fabOp? id with
          | some o => startChunk s o t.plane i c
          | none => s) s

/-- Start every stripe. -/
def startStripes (s : State) (id from_ : Nat) : State :=
  match s.fabOp? id with
  | none => s
  | some o => (List.range (o.stripes.length - from_)).foldl (fun s k => startStripe s id (from_ + k)) s

/-! ## A lost plane (R355) -/

/-- The stripes that take the place of one on a lost plane; with no plane usable it waits for one. -/
def movedStripes (s : State) (t : Stripe) : List Stripe :=
  let us := usablePlanes s
  if us = [] then [{ t with plane := noPlane }]
  else if s.job.mode = 2 then cutStripes t.first t.count us
  else
    match (List.range 48).find? fun k => us.contains ((t.plane + 1 + k) % 48) with
    | some k => [{ t with plane := (t.plane + 1 + k) % 48 }]
    | none => []

/-- Has an operation flits that wait for their receiver, or that a port has not sent or not seen acknowledged? -/
def flitsOut (s : State) (o : FabOp) (plane : Nat) : Bool :=
  (o.held.any fun h => h.1 == plane) || (s.port plane).unsent.any fun f => f.op == o.id

/-- Bytes of an operation's stripes on a plane that have landed here. -/
def landedOn (o : FabOp) (plane : Nat) : Nat :=
  ((o.flits.filter fun f => f.1 == plane && o.isOver f && o.landsHere f.2.2).map fun f => f.2.2.count * f.2.2.dSize).sum

/-- R355: restart the stripes of a plane that an operation lost. DEDUCED (log 128): a stripe has finished when it has on every
member, which no member is told of another before the operation completes, so every stripe of the plane restarts. -/
def restripeOp (s : State) (id plane : Nat) : State :=
  match s.fabOp? id with
  | none => s
  | some o =>
    if !o.started || decide (o.size ≤ 1) then s
    else
      let gone (t : Stripe) : Bool := t.plane == plane && !t.moved
      let n := o.stripes.length
      let s := s.updFab id fun o =>
        { o with
          stripes := (o.stripes.map fun t => if gone t then { t with moved := true } else t) ++
            (o.stripes.filter gone).flatMap (movedStripes s)
          parts := o.parts.filter fun q => q.plane != plane
          held := o.held.filter fun h => h.1 != plane
          suspects := o.suspects.filter fun q => q.1 != plane
          landed := o.landed - landedOn o plane }
      startStripes s id n

/-- What a port keeps when its plane is lost for data: where it still serves, the flits that have a SEQ stay for a RETRY (R339). -/
def Port.afterLoss (q : Port) : Port :=
  if q.serves then { q with txq := [] } else { q with txq := [], unacked := [], replays := [] }

/-- R344, R346, R352, R355: a plane is lost for data in the job, from its opening on. -/
def loseData (s : State) (plane : Nat) : State :=
  if (s.job.state ≠ .owned ∧ s.job.state ≠ .opening) ∨ bit (s.odGet 0x4013 0) plane then s
  else
    let s := s.odSet 0x4013 0 (s.odGet 0x4013 0 + 2 ^ plane)
    let s := s.fab.foldl (fun s o => restripeOp s o.id plane) (s.updPort plane Port.afterLoss)
    s.snaps.foldl (fun s n =>
      if n.sent.any fun t => t.1 == plane then
        complete { s with snaps := s.snaps.filter fun m => m.cmd != n.cmd } n.cmd St.targetReset { Details.zero with d0 := n.id }
      else s) s

/-! ## Starting (R348, R349, R413) -/

/-- Does a range reach into a context's hot range or scratchpad windows (R405)? -/
def touchesSwap (s : State) (x : Ctx) (r : Nat × Nat) : Bool :=
  ((List.range 128).any fun k => rangesMeet r.1 r.2 (slmBase + k * sliceBytes + x.hotOff) x.hotSize) ||
    (decide (spBase < r.1 + r.2) && (List.range cellCount).any fun c =>
      bit (s.job.cellsets.getD x.cellset 0) c && rangesMeet r.1 r.2 (spOf c + x.spOff) x.spSize)

/-- R413: do ranges touch what belongs to a context that is not resident? -/
def touchesAbsent (s : State) (rs : List (Nat × Nat)) : Bool :=
  s.ctxs.any fun e => !e.2.resident && rs.any (touchesSwap s e.2)

/-- Remove an operation. -/
def dropFab (s : State) (id : Nat) : State := { s with fab := s.fab.filter fun o => o.id != id }

/-- R450: the details of a FABRIC command. -/
def fabDetails (o : FabOp) : Details :=
  { d0 := o.flags.toNat, d1 := o.faulty.elim 0 fun m => m + 2 ^ 63, d2 := o.landed - o.lost, d3 := 0 }

/-- End an operation with a status. -/
def endFab (s : State) (o : FabOp) (status : Nat) : State :=
  let s := dropFab s o.id
  match o.cmd with
  | some c => complete s c status (fabDetails o)
  | none => s

/-- R349: the notice of this module's own start. -/
def ownNotice (s : State) (o : FabOp) : Notice :=
  { ctx := o.ctx, group := o.group, seq := o.seq, sender := s.moduleId, op := o.id, dst := o.dst, kind := o.ownCode,
    count := o.count, fmt := o.fmt }

/-- Take a start notice into an operation: the flits held for that member go out. Commands that do not match
end it on every member, which this module's own notice tells the others (R348). -/
def takeNotice (s : State) (id : Nat) (n : Notice) : State :=
  match s.fabOp? id with
  | none => s
  | some o =>
    if n.kind ≠ o.peerCode ∨ n.count ≠ o.count ∨ n.fmt ≠ o.fmt then
      endFab (if o.started then s else s.send (.started (ownNotice s o))) o St.badDescriptor
    else
      let s := s.updFab id fun o =>
        { o with starts := o.starts ++ [(n.sender, n.op, n.dst)]
                 held := o.held.filter fun h => o.ranks.getD h.2.1 0 != n.sender }
      (o.held.filter fun h => o.ranks.getD h.2.1 0 == n.sender).foldl (fun s h => sendTo s id h.1 h.2.1 h.2.2) s

/-- R348, R349: does a notice belong to an operation: the same context, group and number, and both of host commands or both of
one kind of the scheduler core's; the end of a mirror that takes the bytes in has one sender. -/
def Notice.fits (n : Notice) (o : FabOp) : Bool :=
  decide (n.ctx = o.ctx ∧ n.group = o.group ∧ n.seq = o.seq ∧ (n.kind = o.peerCode ∨ n.kind < 16 ∧ o.kind.code < 16)) &&
    (o.kind != .mirror || o.ranks.contains n.sender)

/-- Add an operation, and give it the notices that wait for it. -/
def addFab (s : State) (o : FabOp) : State :=
  let mine := s.notices.filter fun n => n.fits o
  let s := { s with fab := s.fab ++ [o], notices := s.notices.filter fun n => !n.fits o }
  mine.foldl (fun s n => takeNotice s o.id n) s

/-- The wait of an operation is satisfied. -/
def FabOp.ready (o : FabOp) (s : State) : Bool :=
  match o.wait with
  | some (k, v) => (s.obj k).holds (.ge v)
  | none => true

/-- R349: an operation starts, where no stack that holds its source is at level 3 (R325). -/
def fabStart (s : State) (id : Nat) : State :=
  match s.fabOp? id with
  | none => s
  | some o =>
    if o.started || !o.ready s || loadHeld s o.sending then s
    else if touchesAbsent s (o.landing ++ o.sending) then endFab s o St.notResident
    else
      let planes := if o.size ≤ 1 then [0] else splitPlanes s
      let s := s.updFab id fun o => { o with started := true, stripes := cutStripes 0 (o.segs.map (·.count)).sum planes }
      let s := if o.size ≤ 1 then s else s.send (.started (ownNotice s o))
      startStripes s id 0

/-- R349. -/
def execFabricOpStart (op : Nat) (s : State) : Out := .next (fabStart s op)

/-- R267: the mirror of another module begins: this module is its buddy, and takes the elements in: those of a notice's offset
from its own MIRROR_DST_BASE on. A notice's FMT holds the bytes of an element and 8 times the parts of the shard (log 140); an
earlier operation of that number, of a step that was aborted, is over. -/
def mirrorIn (s : State) (n : Notice) : State :=
  let s := { s with fab := s.fab.filter fun o => !n.fits o }.fresh
  let base := s.odGet 0x5009 2
  let e := n.fmt % 8
  let o : FabOp :=
    { id := s.serial, cmd := none, ctx := n.ctx, kind := .mirror, group := n.group, seq := n.seq, count := n.count,
      fmt := n.fmt, ranks := [s.moduleId, n.sender], me := 0, lined := false, wait := none, done := none, peer := 0,
      sender := false, dst := base, segs := [{ owner := 0, count := n.count, src := 0, dst := 0, sSize := e, pSize := e, dSize := e }],
      landing := [(base + n.dst, n.count * e)], sending := [], started := false, starts := [(n.sender, n.op, 0)], stripes := [],
      parts := [], past := [], sent := [], held := [], suspects := [], faulty := none, ownFault := false, flags := 0, landed := 0,
      lost := 0, reset := false, poisoned := false }
  fabStart { s with fab := s.fab ++ [o] } s.serial

/-- R349: a member has started. A notice that fits no operation yet waits for it. -/
def startNotice (s : State) (n : Notice) : State :=
  if n.kind = 18 then mirrorIn s n
  else
    match s.fab.find? fun o => n.fits o with
    | some o => takeNotice s o.id n
    | none => { s with notices := s.notices ++ [n] }

/-- R349. -/
def execFabricStartNotice (ctx group seq sender op dst kind count fmt : Nat) (s : State) : Out :=
  .next (whenPowered s fun s => startNotice s { ctx := ctx, group := group, seq := seq, sender := sender, op := op, dst := dst,
                                                kind := kind, count := count, fmt := fmt })

/-! ## Flits arrive (R338, R354, R358 to R360) -/

/-- The operation here that a member's operation number belongs to, and that member's rank. -/
def opFrom (s : State) (member op : Nat) : Option (FabOp × Nat) :=
  (s.fab.find? fun o => o.started && o.starts.any fun t => t.1 == member && t.2.1 == op).bind fun o =>
    (o.ranks.findIdx? (· == member)).map fun r => (o, r)

/-- R267: the buddy acknowledges a shard once every byte of it, W, M and V, has landed without poison. A notice's FMT gives the
number of its parts, which are numbered 4 × shard onward. -/
def mirrorCheck (s : State) (id : Nat) : State :=
  match s.fabOp? id with
  | none => s
  | some o =>
    let ofShard (q : FabOp) : Bool :=
      q.kind == .mirror && !q.sender && decide (q.ctx = o.ctx ∧ q.seq / 4 = o.seq / 4 ∧ q.ranks = o.ranks)
    let parts := (s.fab.filter ofShard).filter fun q => q.landed == q.count * (q.fmt % 8)
    if o.kind = .mirror ∧ !o.sender ∧ parts.length = o.fmt / 8 then
      let s := { s with fab := s.fab.filter fun q => !ofShard q }
      if parts.any fun q => q.poisoned || q.reset then s else s.send (.mirrorAck (o.ranks.getD 1 0) o.ctx (o.seq / 4))
    else s

/-- The data of a flit reaches this module: it lands, goes up to the root, or goes on down. -/
def dataArrive (s : State) (o : FabOp) (sender plane idx addr : Nat) (c : Chunk) (payload : List Byte) (poison : Nat) : State :=
  if o.direct then mirrorCheck (markOver (landData s o c addr payload poison) o.id plane idx) o.id
  else
    let tree := s.job.mode != 2 && !c.ring
    if !o.reduces && tree && o.me != 0 && (treeKids o.size o.me).contains sender then
      sendData s o plane idx ((upOf s o plane c o.me).toList) c payload poison
    else
      let fresh := !o.past.contains (plane, idx)
      let s := if fresh && decide (o.reduces ∨ o.me ≠ c.owner) then landData s o c addr payload poison else s
      let s := if fresh then markOver s o.id plane idx else s
      sendData s o plane idx (downOf s o plane c o.me) c payload poison

/-- R325: must a flit that arrives wait for a stack at level 3? It is not taken, and comes again (R339). -/
def flitHeld (s : State) (port header : Nat) : Bool :=
  match opFrom s (fld header 205 188) (fld header 127 96) with
  | none => false
  | some (o, _) =>
    match (o.planeChunks port)[fld header 95 64]? with
    | none => false
    | some c => storeHeld s [(o.dst + c.dst, c.count * c.dSize)] || (o.reduces && loadHeld s [(c.src, c.count * c.sSize)])

/-- Is a received flit for this module, on a plane that is not lost for data (R355)? -/
def flitMine (s : State) (port header : Nat) : Bool := fld header 223 206 == s.moduleId && !bit (s.odGet 0x4013 0) port

/-- R338: a DATA flit. -/
def flitData (s : State) (port header : Nat) (payload : List Byte) (poison fec unc : Nat) : State :=
  if flitHeld s port header then s
  else
  let r := receive s port header 1 fec unc payload
  if !r.2 || !flitMine s port header then r.1
  else
    match opFrom r.1 (fld header 205 188) (fld header 127 96) with
    | none => r.1
    | some (o, rank) =>
      match (o.planeChunks port)[fld header 95 64]? with
      | none => r.1
      | some c => dataArrive r.1 o rank port (fld header 95 64) (fld header 41 0) c payload poison

/-- R338. -/
def execFlitData (port header : Nat) (payload : List Byte) (poison fec unc : Nat) (s : State) : Out :=
  onPort port s fun s => flitData s port header payload poison fec unc

/-- R338: the values and residues of a REDUCE payload. -/
def parseReduce (n : Nat) (payload : List Byte) : List (F32 × Nat) :=
  (List.range n).map fun i =>
    (BitVec.ofNat 32 (leNat ((payload.drop (4 * i)).take 4)), leNat ((payload.drop (384 + i)).take 1))

/-- R357: an adder's flags enter the flags of a host operation, or the module's step flag word. -/
def raiseFab (s : State) (o : FabOp) (f : Flags) : State :=
  if o.cmd.isSome then s.updFab o.id fun o => { o with flags := o.flags ||| f } else { s with moduleFlags := s.moduleFlags ||| f }

/-- Does a flit of a scatter come down the tree: from the rank that this one sends its sums to (R353)? -/
def fromAbove (s : State) (o : FabOp) (rank plane : Nat) (c : Chunk) : Bool :=
  o.scatters && decide (s.job.mode ≠ 2) && !c.ring && upOf s o plane c o.me == some rank

/-- Add received values to the partial sum of a flit, and pass it on when every contribution is in. -/
def addPart (s : State) (o : FabOp) (rank plane idx : Nat) (c : Chunk) (vals : List (F32 × Nat)) : State :=
  let kids := kidsOf s o plane c o.me
  let first := !o.parts.any fun q => q.plane == plane && q.idx == idx
  let p := (o.parts.find? fun q => q.plane == plane && q.idx == idx).getD
    { plane := plane, idx := idx, got := [], vals := srcValues s o c }
  if fromAbove s o rank plane c then
    (if o.past.contains (plane, idx) then s else finishReduce s o plane idx c vals)
  else if !kids.contains rank || p.got.contains rank || o.past.contains (plane, idx) then s
  else
    let r := residueAdds vals p.vals
    let got := rank :: p.got
    let others := o.parts.filter fun q => !(q.plane == plane && q.idx == idx)
    let whole := kids.all got.contains
    let s := raiseFab (if first then readSource s o.id c.src (c.count * c.sSize) else s) o r.2
    let s := s.updFab o.id fun o => { o with parts := if whole then others else others ++ [{ p with got := got, vals := r.1 }] }
    match s.fabOp? o.id with
    | some o => if whole then passSum s o plane idx c r.1 else s
    | none => s

/-- R361: the mark that goes on to other members, with one more: another module's before this one's own. -/
def markFaulty (me : Nat) (old : Option Nat) (who : Nat) : Option Nat :=
  match old with
  | none => some who
  | some k => if k = me then some who else some k

/-- R259, R361: a mark made in an exchange is the step's at once. -/
def markStep (s : State) (o : FabOp) (who : Nat) : State :=
  if o.kind ≠ .exchange then s
  else
    s.updCtx o.ctx fun x => { x with step := x.step.map fun t =>
      { t with faulty := markFaulty s.moduleId t.faulty who, ownFault := t.ownFault || who == s.moduleId } }

/-- R360: a first mismatch asks for the flit again; a second one marks a module faulty, and the value of the
second attempt goes on. -/
def reduceArrive (s : State) (o : FabOp) (rank plane idx : Nat) (c : Chunk) (vals : List (F32 × Nat)) (adderFault : Bool) : State :=
  let bad := vals.any residueBad
  let key := idx + rank * 2 ^ 32
  if !bad && !adderFault then addPart s o rank plane idx c vals
  else
    let s := s.odAdd 0x4040 0 1
    let m := o.ranks.getD rank 0
    if !o.suspects.contains (plane, key) then
      let s := s.updFab o.id fun o => { o with suspects := (plane, key) :: o.suspects }
      s.send (.resend m (((o.starts.find? fun t => t.1 == m).map fun t => t.2.1).getD 0) plane idx)
    else
      let who := if bad then m else s.moduleId
      let s := markStep ((logEvent (s.odAdd 0x4042 0 1) .residueFault srcModule 0 who o.id).updFab o.id fun o =>
        { o with faulty := markFaulty s.moduleId o.faulty who, ownFault := o.ownFault || who == s.moduleId }) o who
      let s := if o.cmd.isSome then s.send (.faultyMark o.ctx o.group o.seq who) else s
      match s.fabOp? o.id with
      | some o => addPart s o rank plane idx c (vals.map fun v => (v.1, if residueBad v then residue v.1 else v.2))
      | none => s

/-- R358: a REDUCE flit; an adder mismatch is the operand's word. -/
def flitReduce (s : State) (port header : Nat) (payload : List Byte) (adderFault : Bool) (fec unc : Nat) : State :=
  if flitHeld s port header then s
  else
  let r := receive s port header 2 fec unc payload
  if !r.2 || !flitMine s port header then r.1
  else
    match opFrom r.1 (fld header 205 188) (fld header 127 96) with
    | none => r.1
    | some (o, rank) =>
      match (o.planeChunks port)[fld header 95 64]? with
      | none => r.1
      | some c => reduceArrive r.1 o rank port (fld header 95 64) c (parseReduce c.count payload) adderFault

/-- R358. -/
def execFlitReduce (port header : Nat) (payload : List Byte) (adderFault : Bool) (fec unc : Nat) (s : State) : Out :=
  onPort port s fun s => flitReduce s port header payload adderFault fec unc

/-- R360: a member asks for a flit again; it is rebuilt from the values staged for it. -/
def resendFlit (s : State) (op plane idx member : Nat) : State :=
  match s.fabOp? op with
  | none => s
  | some o =>
    match o.sent.find? fun t => decide (t.plane = plane ∧ t.idx = idx ∧ o.ranks.getD t.dest 0 = member) with
    | none => s
    | some t =>
      sendTo (s.odAdd 0x4041 0 1) op plane t.dest
        { kind := 2, vl := 0, dst := 0, op := op, idx := idx, addr := (((o.planeChunks plane)[idx]?).map (·.dst)).getD 0,
          payload := reducePayload t.vals, poison := 0 }

/-- R360. -/
def execResidueResendRequest (op plane idx member : Nat) (s : State) : Out := onPort plane s fun s => resendFlit s op plane idx member

/-! ## The end (R351, R361) -/

/-- R348, R349: has every other member told of its start? -/
def FabOp.told (o : FabOp) (s : State) : Bool := o.ranks.all fun m => m == s.moduleId || o.starts.any fun t => t.1 == m

/-- R265: has every element destined for this module landed? -/
def FabOp.landedAll (o : FabOp) : Bool := o.flits.all fun f => f.2.2.owner == o.me || o.isOver f

/-- R351: has every byte destined for this module landed, and does no member need its source any longer: has every member
started, has this one added, relayed or taken in every flit, and are all its flits acknowledged? -/
def FabOp.whole (o : FabOp) (s : State) : Bool :=
  o.told s && !((usablePlanes s).any (flitsOut s o)) &&
    (if o.direct ∧ !o.sender then decide (o.landed = (o.segs.map fun g => g.count * g.dSize).sum * (o.size - 1))
     else o.flits.all o.isOver)

/-- R17, R361, R451: the status of a host operation that has run. DESIGN CHOICE (log 129): in this order. -/
def fabStatus (o : FabOp) : Nat :=
  if o.faulty.isSome then St.residueFault else if o.reset then St.targetReset
  else if o.poisoned then St.poisoned else St.ok

/-- R351: a host operation completes; the addition to DONE_CTR is not staged with any piece. -/
def fabComplete (s : State) (o : FabOp) : State :=
  let s := match o.done with
    | some k => syncChange s k .add 1
    | none => s
  endFab s o (fabStatus o)

end Sys2Proof.Machine
end

