-- ==== Sys2Proof/Machine/PortRows.lean ====
section
/-! DEFINITION. Ports: training, loss of light and lock, retraining, calibration, replays (R329 to R339). -/
namespace Sys2Proof.Machine

/-- R332: the code of a port's state. -/
def PortState.code : PortState → Nat
  | disabled => 0
  | dark => 1
  | training => 2
  | up => 3
  | upNoHarness => 4
  | calibrating _ _ => 5
  | failed => 6

/-- A port leaves service: its plane is lost for data (R344), which the other members are told (R335). -/
def portDown (s : State) (p : Nat) (st : PortState) : State :=
  let s := s.updPort p fun q => { q with state := st, idle := none }
  loseData (if bit (s.odGet 0x4013 0) p ∨ s.job.mode = 0 ∨ (s.job.state ≠ .owned ∧ s.job.state ≠ .opening) then s else s.send (.planesLost (2 ^ p))) p

/-- A port goes FAILED, and the event is logged. -/
def portFail (s : State) (p cause : Nat) : State := logEvent (portDown s p .failed) .portFailed srcPort p cause 0

/-- R330, R547: light lost on a receptacle: its 12 ports go DARK, with a record each that names the step LIGHT (DEDUCED, log
144), or lose their Harness wavelength only. -/
def lightLoss (s : State) (r : Nat) (harnessOnly : Bool) : State :=
  ((List.range 12).map (12 * r + ·)).foldl (fun s p =>
    match (s.port p).state with
    | .disabled => s
    | st =>
      if !harnessOnly then (if st = .dark then s else logEvent (portDown s p .dark) .portFailed srcPort p 1 0)
      else
        match st with
        | .up => s.updPort p fun q => { q with state := .upNoHarness }
        | .calibrating h _ => s.updPort p fun q => { q with state := .calibrating h true }
        | _ => s) s

/-- R330. -/
def execLaserLightLoss (receptacle : Nat) (harnessOnly : Bool) (s : State) : Out :=
  if receptacle < 4 then .next (lightLoss s receptacle harnessOnly) else .fault (.noSuchReceptacle receptacle)

/-- R333 step 4: the port sends its number and the module's ID. -/
def sendIdent (s : State) (p : Nat) : State := s.send (.ident p s.moduleId)

/-- R333, R334: the training sequence of a port ends: it is UP where the plane number received is its own. -/
def portTraining (s : State) (p plane delay : Nat) : State :=
  if (s.port p).state ≠ .training then s
  else
    let s := (sendIdent s p).odSet 0x4012 (p + 1) (plane % 256)
    if plane ≠ p then portFail s p 0x10
    else s.setPort p { Port.init with state := .up, delay := delay }

/-- R333. -/
def execPortTraining (port plane delay : Nat) (s : State) : Out := onPort port s fun s => portTraining s port plane delay

/-- R333, R334: a step of the training fails or runs past its limit. Step 4 sends; a port gets to step 5 with the number of its
own plane. -/
def portTrainingTimeout (s : State) (p step : Nat) : State :=
  if (s.port p).state ≠ .training then s
  else
    let s := if 4 ≤ step then sendIdent s p else s
    portFail (if 5 ≤ step then s.odSet 0x4012 (p + 1) p else s) p step

/-- R333. -/
def execPortTrainingTimeout (port step : Nat) (s : State) : Out := onPort port s fun s => portTrainingTimeout s port step

/-- R335: lock lost on a data wavelength, or too many replays, of this module's port or, told over the
Harness, of another member's. -/
def lockLoss (s : State) (p member : Nat) (replays : Bool) : State :=
  if member ≠ s.moduleId then (if s.job.members.contains member then loseData s p else s)
  else
    match (s.port p).state with
    | .up | .upNoHarness => portFail s p (if replays then 0x12 else 0x11)
    | _ => s

/-- R335. -/
def execPortLockLoss (port member : Nat) (replays : Bool) (s : State) : Out := onPort port s fun s => lockLoss s port member replays

/-- R335: the Harness wavelength of an UP port loses lock. -/
def execHarnessLockLoss (port : Nat) (s : State) : Out :=
  onPort port s fun s => s.updPort port fun q => if q.state = .up then { q with state := .upNoHarness } else q

/-- R332: it locks again. -/
def execHarnessLockRegained (port : Nat) (s : State) : Out :=
  onPort port s fun s => s.updPort port fun q => if q.state = .upNoHarness then { q with state := .up } else q

/-- R335: a FAILED or DARK port that is enabled trains again. -/
def execPortRetrain (port : Nat) (s : State) : Out :=
  onPort port s fun s => whenPowered s fun s => s.updPort port fun q =>
    if (q.state = .failed ∨ q.state = .dark) ∧ s.odGet 0x4011 (port + 1) = 1 then { q with state := .training } else q

/-- R64: a port's slot begins. -/
def calibratePort (s : State) (p : Nat) (harness : Bool) : State :=
  s.updPort p fun q =>
    match q.state with
    | .up => { q with state := .calibrating harness false }
    | .upNoHarness => { q with state := .calibrating harness true }
    | _ => q

/-- R535: a requested slot, of the data and the Harness wavelengths of every port. -/
def calibrateAll (s : State) : State :=
  (List.range 48).foldl (fun s p =>
    (calibratePort s p false).updPort p fun q => match q.state with
      | .calibrating _ _ => { q with both := true }
      | _ => q) s

/-- R66: a port's slot ends; it is idle for the rest of the stitch. -/
def calibrationDone (s : State) (p : Nat) : State :=
  match (s.port p).state with
  | .calibrating h no => s.updPort p fun q => { q with state := if no then .upNoHarness else .up, idle := some h, both := false }
  | _ => s

/-- R66, R346: the edge ends the idle time after a slot. -/
def endIdle (s : State) : State :=
  (List.range 48).foldl (fun s p => if (s.port p).idle.isSome then s.updPort p fun q => { q with idle := none } else s)
    { s with pllIdle := [] }

/-- R66, R346: once an edge has started its slots, what waited for the ports without one goes out. -/
def resumePorts (s : State) (ps : List Nat) : State := ps.foldl pump s

/-- R66: the slot of a port, or of a cluster's PLL, ends. -/
def execCalibrationDone (cluster : Bool) (unit : Nat) (s : State) : Out :=
  if cluster then onCluster unit s fun s =>
    { s with pllCal := s.pllCal.filter (· != unit), pllIdle := if s.pllCal.contains unit then unit :: s.pllIdle else s.pllIdle }
  else onPort unit s fun s => calibrationDone s unit

/-- R335, R339: RETRY: replay from the flit after the one acknowledged; a flit replayed 8 times without
being acknowledged takes the port out of service. -/
def flitRetry (s : State) (port header : Nat) (payload : List Byte) (fec unc : Nat) : State :=
  let r := receive s port header 3 fec unc payload
  if !r.2 then r.1
  else
    let q := r.1.port port
    if q.unacked = [] then r.1
    else
      let n := q.replays.map (· + 1)
      let s := (r.1.odAdd 0x4022 (port + 1) 1).setPort port { q with replays := n }
      let s := q.unacked.foldl (fun s f => emit s port f.1 0 0 f.2) s
      if n.any fun k => decide (8 ≤ k) then portFail s port 0x12 else s

/-- R339. -/
def execFlitRetry (port header : Nat) (payload : List Byte) (fec unc : Nat) (s : State) : Out :=
  onPort port s fun s => flitRetry s port header payload fec unc

end Sys2Proof.Machine
end

