-- ==== Sys2Proof/Machine/FabricCmds.lean ====
section
/-! DEFINITION. The host fabric commands (R347, R348, R447) and the time-out of an operation (R351). -/
namespace Sys2Proof.Machine

/-- The fields of a FABRIC entry (R447). -/
structure FabD where
  kind : Nat
  fmt : Nat
  lined : Bool
  waitEn : Bool
  src : Nat
  dst : Nat
  count : Nat
  groupAddr : Nat
  groupCount : Nat
  root : Nat
  peer : Nat
  waitCtr : Nat
  waitValue : Nat
  doneCtr : Nat
  deriving DecidableEq, Repr

/-- R447. -/
def FabD.ofWord (w : Nat) : FabD :=
  { kind := fld w 67 64, fmt := fld w 71 68, lined := bit w 72, waitEn := bit w 73, src := fld w 137 96, dst := fld w 201 160,
    count := fld w 255 224, groupAddr := fld w 297 256, groupCount := fld w 338 320, root := fld w 370 352,
    peer := fld w 401 384, waitCtr := fld w 432 416, waitValue := fld w 479 448, doneCtr := fld w 496 480 }

/-- R343, R348: the ranks of the group: every member, or the table's. -/
def groupRanks (s : State) (d : FabD) : List Nat :=
  if d.groupCount = 0 then List.range s.job.members.length
  else (List.range d.groupCount).map fun i => s.rd (d.groupAddr + 4 * i) 4

/-- Strictly ascending. -/
def ascending : List Nat → Bool
  | a :: b :: r => decide (a < b) && ascending (b :: r)
  | _ => true

/-- R61, R348: the digest of a list of numbers of 4 bytes. -/
def digest32 (l : List Nat) : Nat := leNat (Keccak.shake256 (l.flatMap (leBytes 4)) 32)

/-- R347: elements of a block: rank r holds elements r × ceil(n ÷ P) onward. -/
def blockOf (n size r : Nat) : Nat × Nat :=
  let per := ceilDiv n size
  (min n (r * per), min per (n - r * per))

/-- The segments of a host operation: one for each block, or one in all. -/
def hostSegs (d : FabD) (size root me : Nat) : List Seg :=
  let e := if d.fmt = 1 then 2 else 4
  let se := if d.lined then 8 else e
  match d.kind with
  | 0 => (List.range size).map fun r =>
      let b := blockOf d.count size r
      { owner := r, count := b.2, src := d.src + se * b.1, dst := 0, sSize := se, pSize := 4, dSize := e }
  | 1 => (List.range size).map fun r =>
      let b := blockOf d.count size r
      { owner := r, count := b.2, src := d.src + se * b.1, dst := e * b.1, sSize := se, pSize := 4, dSize := e }
  | 2 => (List.range size).map fun r =>
      let b := blockOf d.count size r
      { owner := r, count := b.2, src := if r = me then d.src else 0, dst := e * b.1, sSize := e, pSize := e, dSize := e }
  | 3 => [{ owner := root, count := d.count, src := d.src, dst := 0, sSize := e, pSize := e, dSize := e }]
  | _ => [{ owner := 0, count := d.count, src := d.src, dst := 0, sSize := 1, pSize := 1, dSize := 1 }]

/-- Ranges that land and that are sent on this module (R350). -/
def hostRanges (d : FabD) (size me peer root : Nat) : List (Nat × Nat) × List (Nat × Nat) :=
  let e := if d.fmt = 1 then 2 else 4
  let se := if d.lined then 8 else e
  let mine := (blockOf d.count size me).2
  match d.kind with
  | 0 => ([(d.dst, e * mine)], [(d.src, se * d.count)])
  | 1 => ([(d.dst, e * d.count)], [(d.src, se * d.count)])
  | 2 => ([(d.dst, e * d.count)], [(d.src, e * mine)])
  | 3 => ([(d.dst, e * d.count)], if me = root then [(d.src, e * d.count)] else [])
  | _ => (if me = peer then [(d.dst, d.count)] else [], if me ≠ peer ∨ size = 1 then [(d.src, d.count)] else [])

/-- The kind of a KIND code. -/
def kindOf : Nat → FabKind
  | 0 => .reduceScatter
  | 1 => .allReduce
  | 2 => .allGather
  | 3 => .broadcast
  | _ => .put

/-- R56, R348: the status that refuses a counter. -/
def counterBad (s : State) (ctx k : Nat) : Option Nat := (s.obj k).refuses ctx .add 1

/-- R348, R447, R463, R582: the status that refuses a FABRIC command. -/
def fabRefuse (s : State) (ctx : Nat) (d : FabD) : Option Nat :=
  let rs := groupRanks s d
  let ids := rs.map fun r => s.job.members.getD r 0
  let me := ids.findIdx? (· == s.moduleId)
  let peer := ids.findIdx? (· == d.peer)
  let root := rs.findIdx? (· == d.root)
  let ranges := hostRanges d rs.length (me.getD 0) (peer.getD 0) (root.getD 0)
  let ok := decide (d.kind ≤ 4) && decide (d.fmt ≤ 1) && (!d.lined || decide (d.kind ≤ 1)) &&
    (d.groupCount == 0 || (mult 4 d.groupAddr && s.inAreas d.groupAddr (4 * d.groupCount) && !s.meetsJournal d.groupAddr (4 * d.groupCount) &&
      !s.poisonIn d.groupAddr (4 * d.groupCount))) && ascending rs &&
    (rs.all fun r => decide (r < s.job.members.length)) && me.isSome && (d.kind != 3 || root.isSome) &&
    (d.kind != 4 || peer.isSome) && (ranges.1 ++ ranges.2).all fun r => r.2 == 0 || s.rangeOk r.1 r.2
  if !ok then some St.badDescriptor
  else (if d.waitEn then counterBad s ctx d.waitCtr else none).or (counterBad s ctx d.doneCtr)

/-- R348: the number of a command among those of its context and group. -/
def seqOf (s : State) (ctx group : Nat) : Nat :=
  ((s.fabSeqs.find? fun e => e.1 == ctx && e.2.1 == group).map (·.2.2)).getD 0

/-- Count a command of a context and group. -/
def bumpSeq (s : State) (ctx group : Nat) : State :=
  { s with fabSeqs := (ctx, group, seqOf s ctx group + 1) :: s.fabSeqs.filter fun e => !(e.1 == ctx && e.2.1 == group) }

/-- R347, R348: a FABRIC command of a kind becomes an operation. -/
def fabCommand (s : State) (id kind : Nat) : State :=
  match s.cmd? id with
  | none => s
  | some c =>
    let d := FabD.ofWord c.entry
    if c.opcode ≠ 0x13 ∨ c.stage ≠ .taken ∨ d.kind ≠ kind then s
    else
      match fabRefuse s c.ctx d with
      | some st => complete s id st Details.zero
      | none =>
        let rs := groupRanks s d
        let ids := rs.map fun r => s.job.members.getD r 0
        let me := (ids.findIdx? (· == s.moduleId)).getD 0
        let peer := (ids.findIdx? (· == d.peer)).getD 0
        let root := (rs.findIdx? (· == d.root)).getD 0
        let ranges := hostRanges d rs.length me peer root
        let group := digest32 rs
        let s := (s.fresh.updCmd id fun c => { c with stage := .active, started := true })
        let o : FabOp :=
          { id := s.serial, cmd := some id, ctx := c.ctx, kind := kindOf d.kind, group := group, seq := seqOf s c.ctx group,
            count := d.count, fmt := d.fmt, ranks := ids, me := me, lined := d.lined,
            wait := if d.waitEn then some (d.waitCtr, d.waitValue) else none, done := some d.doneCtr, peer := peer,
            sender := decide (me ≠ peer ∨ rs.length = 1), dst := d.dst, segs := hostSegs d rs.length root me,
            landing := ranges.1, sending := ranges.2, started := false, starts := [], stripes := [], parts := [], past := [],
            sent := [], held := [], suspects := [], faulty := none, ownFault := false, flags := 0, landed := 0, lost := 0, reset := false, poisoned := false }
        addFab (bumpSeq s c.ctx group) o

/-- R347. -/
def execReduceScatter (cmd : Nat) (s : State) : Out := .next (fabCommand s cmd 0)
/-- R347. -/
def execAllReduce (cmd : Nat) (s : State) : Out := .next (fabCommand s cmd 1)
/-- R347. -/
def execAllGather (cmd : Nat) (s : State) : Out := .next (fabCommand s cmd 2)
/-- R347. -/
def execBroadcast (cmd : Nat) (s : State) : Out := .next (fabCommand s cmd 3)
/-- R347. -/
def execPut (cmd : Nat) (s : State) : Out := .next (fabCommand s cmd 4)

/-- R351: an operation makes no progress for FABRIC_TIMEOUT_MS, or a member is in reset, in STITCH_LOST or
unreachable. -/
def fabTimeout (s : State) (id : Nat) : State :=
  match s.fabOp? id with
  | some o => endFab s o St.targetReset
  | none => s

/-- R351. -/
def execFabricTimeout (op : Nat) (s : State) : Out := .next (fabTimeout s op)

end Sys2Proof.Machine
end

