-- ==== Sys2Proof/Machine/Lattice.lean ====
section
/-! DEFINITION. Polynomials of degree below 256 over the integers modulo q, as FIPS 203 and FIPS 204 use them: their
number-theoretic transforms, vectors of them, and the packing of coefficients. PRESUMED (log 20): the spec names the two
standards and does not print them. -/
namespace Sys2Proof.Machine.Lattice

/-- A polynomial: 256 coefficients from 0 to q − 1, that of degree 0 first. -/
abbrev Poly := List Nat

/-- The bits of a number of n bits in reverse. -/
def bitRev (n k : Nat) : Nat := (List.range n).foldl (fun a i => 2 * a + k / 2 ^ i % 2) 0

/-- x to the power n modulo q. -/
def powMod (q x n : Nat) : Nat := (List.range n).foldl (fun a _ => a * x % q) 1

/-- A ring: its modulus, the root of its transform, the bits of the root's index, and the inverse that ends the inverse transform. -/
structure PolyRing where
  q : Nat
  root : Nat
  bits : Nat
  scale : Nat
  deriving DecidableEq, Repr

/-- The root of block k of the transform. -/
def PolyRing.zeta (r : PolyRing) (k : Nat) : Nat := powMod r.q r.root (bitRev r.bits k)

/-- The first n pieces of m elements of a list. -/
def pieces (m : Nat) : Nat → List Nat → List (List Nat)
  | 0, _ => []
  | n + 1, l => l.take m :: pieces m n (l.drop m)

/-- Sum. -/
def PolyRing.add (r : PolyRing) (a b : Poly) : Poly := List.zipWith (fun x y => (x + y) % r.q) a b

/-- Difference. -/
def PolyRing.sub (r : PolyRing) (a b : Poly) : Poly := List.zipWith (fun x y => (x + r.q - y) % r.q) a b

/-- One layer of the transform: n blocks. -/
def PolyRing.layer (r : PolyRing) (f : Poly) (n : Nat) : Poly :=
  let m := 256 / n
  ((pieces m n f).zipIdx).flatMap fun (c, i) =>
    let a := c.take (m / 2)
    let z := r.zeta (n + i)
    let b := (c.drop (m / 2)).map fun x => z * x % r.q
    r.add a b ++ r.sub a b

/-- One layer of the inverse transform: n blocks. -/
def PolyRing.unlayer (r : PolyRing) (f : Poly) (n : Nat) : Poly :=
  let m := 256 / n
  ((pieces m n f).zipIdx).flatMap fun (c, i) =>
    let a := c.take (m / 2)
    let b := c.drop (m / 2)
    let z := r.zeta (2 * n - 1 - i)
    r.add a b ++ (r.sub b a).map fun x => z * x % r.q

/-- The transform. -/
def PolyRing.ntt (r : PolyRing) (f : Poly) : Poly := (List.range r.bits).foldl (fun f k => r.layer f (2 ^ k)) f

/-- The inverse transform. -/
def PolyRing.unntt (r : PolyRing) (f : Poly) : Poly :=
  ((List.range r.bits).reverse.foldl (fun f k => r.unlayer f (2 ^ k)) f).map fun x => r.scale * x % r.q

/-- A sum of polynomials. -/
def PolyRing.sum (r : PolyRing) (fs : List Poly) : Poly := fs.foldl r.add (List.replicate 256 0)

/-- Coefficients of w bits each, packed. -/
def pack (w : Nat) (f : List Nat) : List Byte :=
  leBytes (f.length * w / 8) ((f.zipIdx).foldl (fun a x => a + x.1 * 2 ^ (w * x.2)) 0)

/-- The coefficients of w bits each that bytes pack. -/
def unpack (w : Nat) (bs : List Byte) : List Nat :=
  let v := leNat bs
  (List.range (8 * bs.length / w)).map fun i => v / 2 ^ (w * i) % 2 ^ w

/-- The first n candidates that a test takes. -/
def firstOk (n : Nat) (ok : Nat → Bool) (cs : List Nat) : List Nat := (cs.filter ok).take n

/-- Bytes in groups of three, as numbers. -/
def triples : List Byte → List Nat
  | a :: b :: c :: l => (a.toNat + 256 * b.toNat + 65536 * c.toNat) :: triples l
  | _ => []

end Sys2Proof.Machine.Lattice
end

