-- ==== Sys2Proof/Machine/MlDsa.lean ====
section
/-! DEFINITION. ML-DSA-65 (FIPS 204), which R456 names: key generation, signing and verification with an empty context string.
PRESUMED (log 20): the standard's algorithms are not printed in the spec. -/
namespace Sys2Proof.Machine.MlDsa
open Sys2Proof.Machine.Lattice

/-- The ring of FIPS 204. -/
def ring : PolyRing := { q := 8380417, root := 1753, bits := 8, scale := 8347681 }

/-- γ1 of ML-DSA-65. -/
def gamma1 : Nat := 524288

/-- γ2 of ML-DSA-65. -/
def gamma2 : Nat := 261888

/-- β of ML-DSA-65. -/
def beta : Nat := 196

/-- Product of two transforms. -/
def mul (a b : Poly) : Poly := List.zipWith (fun x y => x * y % ring.q) a b

/-- Magnitude of a coefficient modulo q about zero. -/
def norm (x : Nat) : Nat := min x (ring.q - x)

/-- A bound on the coefficients of a vector. -/
def below (b : Nat) (ps : List Poly) : Bool := ps.all fun p => p.all fun x => decide (norm x < b)

/-- RejNTTPoly: an element of the matrix; six blocks of SHAKE128 hold enough candidates. -/
def sampleNtt (rho : List Byte) (r s : Nat) : Poly :=
  firstOk 256 (fun x => decide (x < ring.q))
    ((triples (Keccak.shake128 (rho ++ [BitVec.ofNat 8 s, BitVec.ofNat 8 r]) 1008)).map fun t => t % 2 ^ 23)

/-- ExpandA: six rows of five. -/
def matrix (rho : List Byte) : List (List Poly) :=
  (List.range 6).map fun r => (List.range 5).map fun s => sampleNtt rho r s

/-- The matrix times a vector, both transforms. -/
def apply (a : List (List Poly)) (v : List Poly) : List Poly := a.map fun row => ring.sum (List.zipWith mul row v)

/-- RejBoundedPoly for η = 4; four blocks of SHAKE256 hold enough candidates. -/
def sampleSmall (seed : List Byte) (n : Nat) : Poly :=
  (firstOk 256 (fun x => decide (x < 9)) (unpack 4 (Keccak.shake256 (seed ++ leBytes 2 n) 544))).map fun x => (ring.q + 4 - x) % ring.q

/-- SampleInBall: the place of coefficient i, as the bytes of the stream give it, and the rest of the stream. -/
def nextPlace (i : Nat) (bs : List Byte) : Nat × List Byte :=
  let l := bs.dropWhile fun b => decide (i < b.toNat)
  ((l.getD 0 0).toNat, l.drop 1)

/-- SampleInBall, τ = 49. -/
def inBall (seed : List Byte) : Poly :=
  let bs := Keccak.shake256 seed 272
  let signs := leNat (bs.take 8)
  ((List.range 49).foldl (fun (a : Poly × List Byte) k =>
    let i := 207 + k
    let n := nextPlace i a.2
    ((a.1.set i (a.1.getD n.1 0)).set n.1 (if signs / 2 ^ k % 2 = 1 then ring.q - 1 else 1), n.2))
    (List.replicate 256 0, bs.drop 8)).1

/-- ExpandMask: five polynomials of 20 bits a coefficient. -/
def mask (seed : List Byte) (kappa : Nat) : List Poly :=
  (List.range 5).map fun r =>
    (unpack 20 (Keccak.shake256 (seed ++ leBytes 2 (kappa + r)) 640)).map fun x => (ring.q + gamma1 - x) % ring.q

/-- Power2Round: the high part of 10 bits, and the low part modulo q. -/
def power2Round (x : Nat) : Nat × Nat :=
  let h := (x + 4095) / 8192
  (h, (x + ring.q - h * 8192) % ring.q)

/-- Decompose: the high part, and the low part modulo q. -/
def decompose (x : Nat) : Nat × Nat :=
  let m := 2 * gamma2
  let h := (x + gamma2 - 1) / m
  if h = 16 then (0, x) else (h, (x + ring.q - h * m) % ring.q)

/-- HighBits. -/
def high (p : Poly) : Poly := p.map fun x => (decompose x).1

/-- LowBits. -/
def low (p : Poly) : Poly := p.map fun x => (decompose x).2

/-- UseHint of a coefficient. -/
def useHint (h x : Nat) : Nat :=
  let d := decompose x
  if h = 0 then d.1 else if 0 < d.2 ∧ d.2 ≤ gamma2 then (d.1 + 1) % 16 else (d.1 + 15) % 16

/-- A signing key, as the seed gives it: the parts of FIPS 204, vectors as transforms where they are multiplied. -/
structure Key where
  rho : List Byte
  secret : List Byte
  s1 : List Poly
  s2 : List Poly
  t1 : List Poly
  t0 : List Poly
  deriving DecidableEq, Repr

/-- ML-DSA.KeyGen from a seed of 32 bytes. -/
def keyGen (seed : List Byte) : Key :=
  let h := Keccak.shake256 (seed ++ [6, 5]) 128
  let rho := h.take 32
  let small := (h.drop 32).take 64
  let s1 := (List.range 5).map fun r => sampleSmall small r
  let s2 := (List.range 6).map fun r => sampleSmall small (5 + r)
  let t := List.zipWith ring.add ((apply (matrix rho) (s1.map ring.ntt)).map ring.unntt) s2
  let parts := t.map fun p => p.map power2Round
  { rho := rho, secret := h.drop 96, s1 := s1, s2 := s2, t1 := parts.map (·.map (·.1)), t0 := parts.map (·.map (·.2)) }

/-- The public key of a signing key. -/
def Key.public (k : Key) : List Byte := k.rho ++ k.t1.flatMap (pack 10)

/-- The representative of a message: μ. -/
def messageRep (pk msg : List Byte) : List Byte := Keccak.shake256 (Keccak.shake256 pk 64 ++ [0, 0] ++ msg) 64

/-- The commitment hash. -/
def commitHash (mu : List Byte) (w1 : List Poly) : List Byte := Keccak.shake256 (mu ++ w1.flatMap (pack 4)) 48

/-- HintBitPack. -/
def packHint (h : List Poly) : List Byte :=
  let places : List (List Nat) := h.map fun p => ((p.zipIdx).filter fun x => x.1 == 1).map (·.2)
  let ends := (List.range 6).map fun i => (places.take (i + 1)).flatten.length
  (places.flatten ++ List.replicate (55 - places.flatten.length) 0 ++ ends).map (BitVec.ofNat 8 ·)

/-- HintBitUnpack: the places of polynomial i, none where they are malformed. -/
def unpackHint (bs : List Byte) : Option (List Poly) :=
  let ends := (bs.drop 55).map (·.toNat)
  let firsts := 0 :: ends
  let places := (List.range 6).map fun i =>
    ((bs.take (ends.getD i 0)).drop (firsts.getD i 0)).map (·.toNat)
  if (List.range 6).all (fun i => decide (firsts.getD i 0 ≤ ends.getD i 0 ∧ ends.getD i 0 ≤ 55)) &&
      places.all (fun p => (p.zip (p.drop 1)).all fun x => decide (x.1 < x.2)) &&
      ((bs.take 55).drop (ends.getD 5 0)).all (· == 0) then
    some (places.map fun p => (List.range 256).map fun i => if p.contains i then 1 else 0)
  else none

/-- One round of the signing loop: the signature, none where it is rejected. -/
def signRound (k : Key) (a : List (List Poly)) (mu seed : List Byte) (kappa : Nat) : Option (List Byte) :=
  let y := mask seed kappa
  let w := (apply a (y.map ring.ntt)).map ring.unntt
  let hash := commitHash mu (w.map high)
  let c := ring.ntt (inBall hash)
  let times (p : Poly) : Poly := ring.unntt (mul c (ring.ntt p))
  let z := List.zipWith ring.add y (k.s1.map times)
  let v := List.zipWith ring.sub w (k.s2.map times)
  let ct0 := k.t0.map times
  let r := List.zipWith ring.add v ct0
  let hint := List.zipWith (fun p q => List.zipWith (fun x y => if x = y then 0 else 1) (high p) (high q)) v r
  if below (gamma1 - beta) z && below (gamma2 - beta) (v.map low) && below gamma2 ct0 &&
      decide ((hint.map fun p => p.sum).sum ≤ 55) then
    some (hash ++ (z.flatMap fun p => pack 20 (p.map fun x => (gamma1 + ring.q - x) % ring.q)) ++ packHint hint)
  else none

/-- The signing loop, with a bound on its rounds. -/
def signLoop (k : Key) (a : List (List Poly)) (mu seed : List Byte) : Nat → Nat → List Byte
  | 0, _ => []
  | n + 1, kappa =>
    match signRound k a mu seed kappa with
    | some sig => sig
    | none => signLoop k a mu seed n (kappa + 5)

/-- ML-DSA.Sign with the randomness rnd; 814 rounds, after which FIPS 204 lets an implementation fail. -/
def sign (k : Key) (msg rnd : List Byte) : List Byte :=
  let mu := messageRep k.public msg
  signLoop k (matrix k.rho) mu (Keccak.shake256 (k.secret ++ rnd ++ mu) 64) 814 0

/-- ML-DSA.Verify. -/
def verify (pk msg sig : List Byte) : Bool :=
  let hash := sig.take 48
  let z := (pieces 256 5 (unpack 20 ((sig.drop 48).take 3200))).map fun p => p.map fun x => (ring.q + gamma1 - x) % ring.q
  match unpackHint (sig.drop 3248) with
  | none => false
  | some h =>
    let t1 := pieces 256 6 (unpack 10 (pk.drop 32))
    let c := ring.ntt (inBall hash)
    let az := apply (matrix (pk.take 32)) (z.map ring.ntt)
    let ct := t1.map fun p => mul c (ring.ntt (p.map fun x => x * 8192 % ring.q))
    let w := (List.zipWith ring.sub az ct).map ring.unntt
    decide (pk.length = 1952 ∧ sig.length = 3309) && below (gamma1 - beta) z &&
      hash == commitHash (messageRep pk msg) (List.zipWith (fun hp p => List.zipWith useHint hp p) h w)

end Sys2Proof.Machine.MlDsa
end

