-- ==== Sys2Proof/Machine/Training.lean ====
section
/-! DEFINITION. The training step: open, gather, exchange, update, vote, outcome, all-gather, mirror,
snapshot (R242 to R274). -/
namespace Sys2Proof.Machine

/-! ## The STEP_OPEN entry (R446) -/

/-- STEP. -/
def soStep (w : Nat) : Nat := fld w 127 64
/-- COMMIT_STITCH. -/
def soTc (w : Nat) : Nat := fld w 191 128
/-- SHARD_ADDR. -/
def soShards (w : Nat) : Nat := fld w 297 256
/-- NORM_ADDR. -/
def soNorm (w : Nat) : Nat := fld w 425 384
/-- READY_CTR. -/
def soReady (w : Nat) : Nat := fld w 442 426
/-- REPORT_ADDR. -/
def soReport (w : Nat) : Nat := fld w 489 448

/-- R582: a table of n entries of k bytes, none where it lies badly or holds poison, as what a fenced or unmapped cell holds
reads (R17); a table of no entries
has no place. -/
def tableAt (s : State) (a n k : Nat) (slm : Bool) : Option (List Nat) :=
  if n = 0 then some []
  else if a % k ≠ 0 ∨ !(if slm then s.inAreas a (n * k) && !s.meetsJournal a (n * k) else s.rangeOk a (n * k)) ∨ s.poisonIn a (n * k) ∨ s.downIn a (n * k) then none
  else some ((List.range n).map fun i => s.rd (a + i * k) k)

/-! ## Checks of the gradient map (R227 to R229, R405) -/

/-- R227 WEIGHT_ADDR. -/
def gmWeight (e : Nat) : Nat := fld e 41 0
/-- R227 TAG. -/
def gmTag (e : Nat) : Nat := fld e 235 224
/-- Elements of an entry. -/
def gmElems (e : Nat) : Nat := gmRows e * gmCols e

/-- R229: does FOLD name a legal entry? -/
def foldOk (gmap : List Nat) (i e : Nat) : Bool :=
  !gmFold e ||
    (gmKind e != 2 && fld e 255 242 != i &&
      (match gmap[fld e 255 242]? with
       | some t => !gmFold t && gmKind t != 2 && gmRows t == gmRows e && gmCols t == gmCols e
       | none => false))

/-- One entry of the gradient map. -/
def gmEntryOk (s : State) (x : Ctx) (gmap : List Nat) (i e : Nat) : Bool :=
  rsvClear e [(239, 236), (159, 146), (143, 106), (63, 42)] && decide (gmKind e ≠ 3) && decide (0 < gmElems e) &&
    decide (gmTag e < x.tags) && decide (gmWeight e % 4 = 0) && s.rangeOk (gmWeight e) (4 * gmElems e) &&
    (!bit e 240 || decide (min (gmRows e) (gmCols e) ≤ 256)) && foldOk gmap i e &&
    (match gmKind e with
     | 0 => decide (gmLoc e % 8 = 0 ∧ x.weltOff ≤ gmLoc e ∧ gmLoc e + 8 * gmElems e ≤ x.weltOff + x.weltSize)
     | 1 => decide (gmLoc e % 32 = 0) && s.inAreas (gmLoc e) (8 * gmElems e) && !s.meetsJournal (gmLoc e) (8 * gmElems e)
     | _ => gmLoc e == 0)

/-- R229, R405: the status that refuses a gradient map. -/
def gmRefuse (s : State) (x : Ctx) (gmap : List Nat) : Option Nat :=
  let homes (k : Nat) : List (Nat × Nat) := (gmap.filter fun e => gmKind e == k).map fun e => (gmLoc e, 8 * gmElems e)
  if !disjointRanges (gmap.map fun e => (gmWeight e, 4 * gmElems e)) then some St.tiedWeight
  else if (gmap.zipIdx).all (fun (e, i) => gmEntryOk s x gmap i e) && disjointRanges (homes 0) && disjointRanges (homes 1) then none
  else some St.badDescriptor

/-! ## Checks of optimizer records and shards (R254 to R257, R267) -/

/-- R255, R176: an optimizer record. -/
def optOk (w : Nat) : Bool :=
  decide (fld w 7 0 = 0x22) && rsvClear w [(159, 128), (95, 40)] && fld w 127 96 == 0 && fld w 39 28 == 0 && !bit w 27 &&
    fld w 511 448 == 0 && decide (fld w 17 16 ≠ 3 ∧ fld w 21 18 ≤ 1) && numctlPlain (fld w 15 8) &&
    (!bit w 26 || (match Fmt.ofCode (fld w 25 22) with
      | some f => !f.isMx
      | none => false))

/-- Bytes of an element of M and V. -/
def optState (w : Nat) : Nat := if fld w 21 18 = 0 then 4 else 2
/-- Bytes of an element of the compute copy. -/
def optCopy (w : Nat) : Nat := (fmtOf (fld w 25 22)).bytes
/-- R254 C_ADDR. -/
def shCopy (w : Nat) : Nat := fld w 489 448
/-- R254 BUDDY. -/
def shBuddy (w : Nat) : Bool := bit w 29

/-- The ranges of one bank of a shard: W, M and, under ADAMW, V. -/
def bankRanges (o sh bank : Nat) : List (Nat × Nat) :=
  let b := bank * shStride sh
  let n := shCount sh
  [(fld sh 297 256 + b, 4 * n), (fld sh 361 320 + b, optState o * n)] ++
    (if fld o 17 16 = 1 then [(fld sh 425 384 + b, optState o * n)] else [])

/-- R257: the shadow compute range. -/
def shadowCopy (o sh : Nat) : List (Nat × Nat) :=
  if bit o 26 then [(shCopy sh + optCopy o * shFirst sh + shStride sh, optCopy o * shCount sh)] else []

/-- R267: do both banks of a BUDDY shard lie within the mirror window? -/
def buddyOk (s : State) (o sh : Nat) : Bool :=
  !shBuddy sh ||
    (s.odGet 0x5009 0 != 0xFFFFFFFF &&
      (bankRanges o sh 0 ++ bankRanges o sh 1).all fun r =>
        decide (s.odGet 0x5009 1 ≤ r.1 ∧ r.1 + r.2 ≤ s.odGet 0x5009 1 + s.odGet 0x5009 3))

/-- R254, R256: one shard. -/
def shardOk (s : State) (gmap opts : List Nat) (sh : Nat) : Bool :=
  let e := gmap.getD (shEntry sh) 0
  let o := opts.getD (fld sh 71 64) 0
  rsvClear sh [(511, 490), (447, 426), (383, 362), (319, 298), (95, 72), (63, 30), (28, 14)] &&
    decide (shEntry sh < gmap.length ∧ fld sh 71 64 < opts.length) && gmTrained e &&
    decide (0 < shCount sh ∧ shFirst sh + shCount sh ≤ gmElems e ∧ shStride sh % 64 = 0) &&
    ((bankRanges o sh 0 ++ bankRanges o sh 1 ++ shadowCopy o sh).all fun r => s.rangeOk r.1 r.2) && buddyOk s o sh &&
    (shadowCopy o sh).all fun r => !rangesMeet r.1 r.2 (shCopy sh) (optCopy o * gmElems e)

/-- R256: the shard table of this module with the totals over all members. -/
def shardsOk (s : State) (gmap opts shards : List Nat) (others : List (List Nat)) : Bool :=
  let optFor (sh : Nat) : Nat := opts.getD (fld sh 71 64) 0
  shards.all (shardOk s gmap opts) &&
    disjointRanges (shards.flatMap fun sh => bankRanges (optFor sh) sh 0 ++ bankRanges (optFor sh) sh 1 ++ shadowCopy (optFor sh) sh) &&
    (gmap.zipIdx).all fun (e, i) =>
      let mine := shards.filter fun sh => shEntry sh == i
      let theirs := others.filter fun r => r.getD 1 0 == i
      disjointRanges (mine.map fun sh => (shFirst sh, shCount sh)) &&
        (!gmTrained e || decide ((mine.map shCount).sum + (theirs.map fun r => r.getD 3 0).sum = gmElems e))

/-! ## STEP_OPEN (R247, R248) -/

/-- The step that an entry opens, or the status that refuses it. -/
def openStep (s : State) (c : Cmd) (x : Ctx) (others : List (List Nat)) : Except Nat Step :=
  let w := c.entry
  let bad : Except Nat Step := .error St.badDescriptor
  if soStep w ≠ x.stepNo ∨ soTc w < s.stitch.count + 2 ∨ ((s.obj (soReady w)).refuses c.ctx .add 1).isSome ∨
      !(decide (1 ≤ fld w 248 234 ∧ fld w 248 234 ≤ 16384 ∧ fld w 312 298 ≤ 16384 ∧ 1 ≤ fld w 370 362 ∧ fld w 370 362 ≤ 256)) ∨
      soShards w % 64 ≠ 0 ∨ !s.rangeOk (soShards w) 1 ∨ soNorm w % 64 ≠ 0 ∨ soReport w % 64 ≠ 0 ∨ !s.rangeOk (soNorm w) 262144 ∨ inSp (soNorm w) 1 ∨ !s.rangeOk (soReport w) 128 then bad
  else
    match tableAt s (fld w 233 192) (fld w 248 234) 32 true,
        tableAt s (soShards w) (fld w 312 298) 64 false,
        tableAt s (fld w 361 320) (fld w 370 362) 64 false with
    | some gmap, some shards, some opts =>
      match gmRefuse s x gmap with
      | some st => .error st
      | none =>
        if opts.all optOk && shardsOk s gmap opts shards others then
          .ok { cmd := c.id, entry := w, gmap := gmap, shards := shards, opts := opts, others := others, lastTaken := false,
                cmdsLeft := [], due := false, gathered := false, exchanged := false, placed := [], undone := [], mirrored := [], acked := [],
                updateBad := false, poison := false, faulty := none, ownFault := false, voted := none, deadline := false, outcome := .unknown,
                late := none, sysFlags := 0, fails := [], norms := [] }
        else bad
    | _, _, _ => bad

/-- R252: the partial norm tables of a step start at zero. -/
def clearNorms (s : State) (x : Ctx) : State :=
  (List.range 128).foldl (fun s k => s.storeP (normAddr x k 0) (List.replicate (32 * x.tags) 0) false) s

/-- The gathered image and received gradient of a context hold nothing from an earlier step: no sector of
theirs is poisoned. -/
def unpoisonStage (s : State) (ctx : Nat) : State :=
  { s with poison := s.poison.filter fun k => decide (32 * k < stageImage ctx 0 ∨ stageImage (ctx + 1) 0 ≤ 32 * k) }

/-- R346: in FABRIC mode planes that have been up on every member for 1 s come back; stripes that waited for one restart
(R355). -/
def readmit (s : State) (planes : Nat) : State :=
  if s.job.mode ≠ 2 then s
  else
    let back := (List.range 48).filter fun p => bit planes p && bit (s.odGet 0x4013 0) p && (s.port p).serves
    let s := s.odSet 0x4013 0 (s.odGet 0x4013 0 - (back.map (2 ^ ·)).sum)
    if usablePlanes s = [] then s
    else
      s.fab.foldl (fun s o => if o.stripes.any fun t => t.plane == noPlane && !t.moved then restripeOp s o.id noPlane else s) s

/-- R256: tell them, where the tables can be read. -/
def tellShards (s : State) (c : Cmd) : State :=
  let w := c.entry
  match tableAt s (soShards w) (fld w 312 298) 64 false, tableAt s (fld w 361 320) (fld w 370 362) 64 false with
  | some shards, some opts =>
    if s.job.mode = 0 then s
    else s.send (.shards c.ctx (soStep w) (shards.map fun sh =>
      let o := opts.getD (fld sh 71 64) 0
      [shEntry sh, shFirst sh, shCount sh, if bit o 26 then optCopy o else 0, shCopy sh]))
  | _, _ => s

/-- R247, R248. -/
def stepOpen (s : State) (id : Nat) (others : List (List Nat)) (planes : Nat) : State :=
  match s.cmd? id with
  | none => s
  | some c =>
    match s.ctx? c.ctx with
    | none => s
    | some x =>
      if c.opcode ≠ 0x12 ∨ c.stage ≠ .taken ∨ x.step.isSome then s
      else
        let w := c.entry
        let r := openStep s c x others
        let s := sliceLoads (tellShards s c) [(soShards w, 64 * fld w 312 298), (fld w 361 320, 64 * fld w 370 362)]
        match r with
        | .error st => complete s id st { Details.zero with d0 := soStep c.entry }
        | .ok t =>
          let s := (unpoisonStage (clearNorms s x) c.ctx).updCmd id fun c => { c with stage := .active, started := true }
          readmit (s.updCtx c.ctx fun x => { x with step := some t }) planes

/-- R248. -/
def execStepOpen (cmd : Nat) (others : List (List Nat)) (planes : Nat) (s : State) : Out := .next (stepOpen s cmd others planes)

/-! ## Gather (R242, R243, R252) -/

/-- The cells of a cluster whose window of a context is dirty, in ascending order. -/
def dirtyOf (x : Ctx) (k : Nat) : List Nat := x.dirty.filter fun c => c / 64 == k

/-- A pair added by the step of R83. -/
def pairAdd (a : Lined × Flags) (b : Lined) : Lined × Flags := let r := linedAdd a.1 b.val; (r.1, a.2 ||| r.2)

/-- Is a context in the hot set, or on its way into it? -/
def Ctx.hot (x : Ctx) : Bool := x.resident || (x.swapEnd.isSome && x.loading)

/-- R405: where the Welt window of a cell is saved. -/
def spillAddr (x : Ctx) (c : Nat) : Nat := slmBase + clusterOf c * sliceBytes + x.fixOff + c % 64 * x.weltSize

/-- A pair of a context's window on a cell. DEDUCED (log 126): of a context that has left the hot set it is the one saved
(R244). -/
def windowPair (s : State) (x : Ctx) (c idx : Nat) : WeltPair :=
  if x.hot then Sp.get WeltPair.zero s.welt (c * 32768 + idx)
  else
    let a := spillAddr x c + 8 * (idx - x.weltOff / 8)
    { p := Lined.ofBytes (s.bytes a 8), poison := s.poisonIn a 8 }

/-- What a gather has formed: a sum, the flags with the clusters whose gather units raised them (R95), poison. -/
structure Gathered where
  p : Lined
  f : List (Nat × Flags)
  poison : Bool
  deriving DecidableEq, Repr

/-- Add a pair that the gather unit of a cluster adds. -/
def Gathered.add (g : Gathered) (k : Nat) (b : Lined) (bad : Bool) : Gathered :=
  let r := linedAdd g.p b.val
  { p := r.1, f := if r.2 = 0 then g.f else g.f ++ [(k, r.2)], poison := g.poison || bad }

/-- Nothing gathered yet. -/
def Gathered.zero : Gathered := { p := Lined.zero, f := [], poison := false }

/-- R242: the sum of one Welt pair over the dirty windows: cells within a cluster by its gather unit, then clusters. DESIGN
CHOICE (log 125): a cluster's unit adds its own result to those of the clusters before it. -/
def gatherWelt (s : State) (x : Ctx) (idx : Nat) : Gathered :=
  let cluster (k : Nat) : Gathered := (dirtyOf x k).foldl (fun g c =>
    let w := windowPair s x c idx
    g.add k w.p w.poison) Gathered.zero
  let ks := (List.range 128).filter fun k => dirtyOf x k != []
  let r := ks.foldl (fun g k =>
    let q := cluster k
    ({ g with f := g.f ++ q.f }).add k q.p q.poison) Gathered.zero
  { r with poison := r.poison || x.weltLost }

/-- The gathered value of element k of an entry, before folds. -/
def gatherOne (s : State) (x : Ctx) (e k : Nat) : Gathered :=
  if gmKind e = 0 then gatherWelt s x (gmLoc e / 8 + k)
  else { p := Lined.ofBytes (s.bytes (gmLoc e + 8 * k) 8), f := [], poison := s.poisonIn (gmLoc e + 8 * k) 8 }

/-- The gathered value of element k of entry i, folds added in (R242): by cluster 0's unit (log 125). -/
def gatherEl (s : State) (x : Ctx) (gmap : List Nat) (i e k : Nat) : Gathered :=
  (gmap.filter fun f => gmFold f && fld f 255 242 == i).foldl (fun g f =>
    let q := gatherOne s x f k
    ({ g with f := g.f ++ q.f }).add 0 q.p q.poison) (gatherOne s x e k)

/-- Zero the homes of a step: dirty windows and SLM arrays (R242). -/
def clearHomes (s : State) (ctx : Nat) (x : Ctx) (gmap : List Nat) : State :=
  let inWindow (k : Nat) : Bool :=
    x.hot && x.dirty.contains (k / 32768) && decide (x.weltOff ≤ 8 * (k % 32768) ∧ 8 * (k % 32768) < x.weltOff + x.weltSize)
  let s := { s with welt := s.welt.filter fun e => !inWindow e.1 }
  let s := (gmap.filter fun e => gmKind e == 1).foldl (fun s e => s.storeP (gmLoc e) (List.replicate (8 * gmElems e) 0) false) s
  s.updCtx ctx fun x => { x with dirty := [], weltLost := false }

/-- Gather one entry: its image, and its squares into its tag, in the table of cluster 0 (log 125). -/
def gatherEntry (s0 : State) (ctx : Nat) (x : Ctx) (gmap : List Nat) (s : State) (i e : Nat) : State :=
  if !gmTrained e then s
  else
    (List.range (gmElems e)).foldl (fun s k =>
      let q := gatherEl s0 x gmap i e k
      let s := s.storeP (stageImage ctx (gmFirst gmap i + k)) q.p.toBytes q.poison
      let g := rn32 q.p.val
      let sq := fmul g.1 g.1
      let r := addStored s (normAddr x 0 (gmTag e)) { v := sq.1, l := 0 } q.poison
      (q.f ++ [(0, g.2 ||| sq.2 ||| r.2)]).foldl (fun (s : State) (w : Nat × Flags) => s.orClusterFlags w.1 w.2) r.1) s

/-- R242: is the context's step ready to gather: every command of it completed, the last one taken, no piece
of the context on a cell, every SLM add landed? -/
def gatherReady (s : State) (ctx : Nat) (t : Step) : Bool :=
  !t.gathered && t.lastTaken && t.cmdsLeft == [] &&
    s.cells.all fun e => !(e.2.piece.any fun p => pdCtx p.desc == ctx) && !(e.2.slmAdds.any fun a => a.ctx == ctx) &&
      !(e.2.tiles.any fun t => t.ctx == ctx)

/-- R242: at an edge, the contexts whose gather starts. -/
def noteGathers (s : State) : State :=
  { s with ctxs := s.ctxs.map fun (c, x) => (c, { x with step := x.step.map fun t => { t with due := t.due || gatherReady s c t } }) }

/-- R242: the gather that falls due; it waits for a part of a window that is under test (R531). -/
def gather (s : State) (ctx : Nat) : State :=
  match s.ctx? ctx with
  | none => s
  | some x =>
    match x.step with
    | none => s
    | some t =>
      if !t.due || t.gathered || (x.hot && x.dirty.any fun c => weltHeld s c x.weltOff x.weltSize) then s
      else
        let s' := (t.gmap.zipIdx).foldl (fun a (e, i) => gatherEntry s ctx x t.gmap a i e) s
        (clearHomes s' ctx x t.gmap).updCtx ctx fun x => { x with step := x.step.map fun t => { t with gathered := true } }

/-- R242. -/
def execGather (ctx : Nat) (s : State) : Out := onCtx ctx s fun s => gather s ctx

/-! ## Exchange (R354) -/

/-- Change the open step of a context. -/
def updStep' (s : State) (ctx : Nat) (f : Step → Step) : State := s.updCtx ctx fun x => { x with step := x.step.map f }

/-- Every member's shards: rank, entry, first element, elements. -/
def allShards (s : State) (t : Step) (me : Nat) : List (Nat × Nat × Nat × Nat) :=
  let mine := t.shards.map fun sh => (me, shEntry sh, shFirst sh, shCount sh)
  let theirs := t.others.map fun r =>
    ((s.job.members.findIdx? (· == r.getD 0 0)).getD 0, r.getD 1 0, r.getD 2 0, r.getD 3 0)
  sortBy (mine ++ theirs) fun a b => decide (a.2.1 < b.2.1 ∨ (a.2.1 = b.2.1 ∧ a.2.2.1 ≤ b.2.2.1))

/-- An operation of the scheduler core. -/
def coreOp (s : State) (ctx : Nat) (kind : FabKind) (seq count : Nat) (ranks : List Nat) (segs : List Seg)
    (landing sending : List (Nat × Nat)) (lined : Bool) (peer : Nat) : FabOp :=
  { id := s.serial, cmd := none, ctx := ctx, kind := kind, group := 0, seq := seq, count := count, fmt := 0, ranks := ranks,
    me := (ranks.findIdx? (· == s.moduleId)).getD 0, lined := lined, wait := none, done := none, peer := peer, sender := true,
    dst := 0, segs := segs, landing := landing, sending := sending, started := false, starts := [], stripes := [], parts := [],
    past := [], sent := [], held := [], suspects := [], faulty := none, ownFault := false, flags := 0, landed := 0, lost := 0, reset := false, poisoned := false }

/-- This module's rank in the job. -/
def myRank (s : State) : Nat := (s.job.members.findIdx? (· == s.moduleId)).getD 0

/-- R354: the exchange of a gathered step. -/
def exchange (s : State) (ctx : Nat) : State :=
  match (s.ctx? ctx).bind (·.step) with
  | none => s
  | some t =>
    if !t.gathered || t.exchanged || s.fab.any fun o => o.ctx == ctx && o.kind == .exchange then s
    else
      let segs := (allShards s t (myRank s)).map fun a =>
        let e := gmFirst t.gmap a.2.1 + a.2.2.1
        ({ owner := a.1, count := a.2.2.2, src := stageImage ctx e, dst := stageGrad ctx e, sSize := 8, pSize := 4, dSize := 4 } : Seg)
      let s := s.fresh
      addFab s (coreOp s ctx .exchange (soStep t.entry) ((segs.map (·.count)).sum) s.job.members segs [] [] true 0)

/-- R354. -/
def execExchange (ctx : Nat) (s : State) : Out := onCtx ctx s fun s => exchange s ctx

/-! ## Update (R257) -/

/-- Has the reduced gradient of a shard landed in full? -/
def shardLanded (s : State) (ctx : Nat) (t : Step) (sh : Nat) : Bool :=
  t.exchanged ||
    s.fab.any fun o => o.ctx == ctx && o.kind == .exchange && o.started &&
      (let a := stageGrad ctx (gmFirst t.gmap (shEntry sh) + shFirst sh)
       o.flits.all fun f => !rangesMeet a (4 * shCount sh) f.2.2.dst (4 * f.2.2.count) || o.isOver f)

/-- R257: update pieces of a shard join the dispatch queue; the scheduler core chooses their lengths. -/
def updatePlacement (s : State) (ctx k : Nat) (lens : List Nat) : State :=
  match s.ctx? ctx with
  | none => s
  | some x =>
    match x.step with
    | none => s
    | some t =>
      let sh := t.shards.getD k 0
      if t.shards.length ≤ k ∨ t.placed.contains k ∨ lens.sum ≠ shCount sh ∨ lens.contains 0 ∨ !shardLanded s ctx t sh then s
      else
        let es := (lens.zipIdx).map fun (n, i) =>
          QEntry.update t.cmd k ((lens.take i).sum) n (updateCycles (optOf t sh) n) false
        s.setCtx ctx { x with
          queue := x.queue ++ es
          step := some { t with placed := t.placed ++ [k], undone := t.undone ++ [(k, shCount sh)] } }

/-- R257. -/
def execUpdatePlacement (ctx shard : Nat) (lens : List Nat) (s : State) : Out := onCtx ctx s fun s => updatePlacement s ctx shard lens

/-! ## Vote (R259 to R262) -/

/-- Is this module the root of the tally? -/
def isRoot (s : State) : Bool := decide (s.job.mode = 0) || s.stitch.root == s.moduleId

/-- R259: poison in a received shard, an update output or a norm contribution. -/
def stepPoison (s : State) (ctx : Nat) (x : Ctx) (t : Step) : Bool :=
  t.poison ||
    (t.shards.any fun sh => s.poisonIn (stageGrad ctx (gmFirst t.gmap (shEntry sh) + shFirst sh)) (4 * shCount sh)) ||
    (List.range 128).any fun k => s.poisonIn (normAddr x k 0) (32 * x.tags)

/-- Are all shards updated? -/
def allUpdated (t : Step) : Bool :=
  t.exchanged && (List.range t.shards.length).all fun k => t.placed.contains k && (t.undone.find? fun e => e.1 == k).any fun e => e.2 == 0

/-- Has the buddy acknowledged every BUDDY shard? -/
def allAcked (t : Step) : Bool := (t.shards.zipIdx).all fun (sh, k) => !shBuddy sh || t.acked.contains k

/-- R259: what a module votes, as soon as it can decide. -/
def voteNow (s : State) (ctx : Nat) (x : Ctx) (t : Step) : Option Vote :=
  if stepPoison s ctx x t then some { yes := false, reason := 1 }
  else if t.ownFault || t.faulty == some s.moduleId then some { yes := false, reason := 2 }
  else if t.updateBad then some { yes := false, reason := 3 }
  else if allUpdated t && allAcked t then some { yes := true, reason := 0 }
  else none

/-- R252, R253: one stored sum of a tag over the clusters of this module. -/
def normSum (s : State) (x : Ctx) (tag off : Nat) : Lined :=
  ((List.range 128).foldl (fun a k => pairAdd a (Lined.ofBytes (s.bytes (normAddr x k tag + off) 8))) (Lined.zero, 0)).1

/-- A pair as a 64-bit word (R84). -/
def pairWord (p : Lined) : Nat := leNat p.toBytes

/-- The tags in use. -/
def stepTags (t : Step) : List Nat := ((t.gmap.filter gmTrained).map gmTag).eraseDups

/-- This module's norm sums (R252), tag by tag, with the elements it updated. -/
def ownNorms (s : State) (x : Ctx) (t : Step) : List (List Nat) :=
  (stepTags t).map fun tag =>
    let elems := ((t.shards.zipIdx).map fun (sh, k) =>
      if gmTag (t.gmap.getD (shEntry sh) 0) = tag then (((t.undone.find? fun e => e.1 == k).map fun e => shCount sh - e.2)).getD 0
      else 0).sum
    let bad := (List.range 128).any fun k => s.poisonIn (normAddr x k tag) 32
    [tag, pairWord (normSum s x tag 0), pairWord (normSum s x tag 16), pairWord (normSum s x tag 8), pairWord (normSum s x tag 24),
     elems, if bad then 1 else 0]

/-- R96: the module's step flag word: cells, clusters, module. -/
def moduleWord (s : State) : Flags :=
  s.cellFlags.foldl (fun f e => f ||| e.2) (s.clusterFlags.foldl (fun f e => f ||| e.2) s.moduleFlags)

/-- R96: the step flag word that goes with the votes of this stitch's edge, which a vote of another context may have collected. -/
def votedWord (s : State) : Flags :=
  match s.stepWord with
  | some (k, f) => if k = s.stitch.count then f else moduleWord s
  | none => moduleWord s

/-- Put a vote into the tally in place of an earlier one of the same voter. -/
def putTally (s : State) (ctx : Nat) (v : Tally) : State :=
  s.updCtx ctx fun x => { x with tally := (x.tally.filter fun u => u.member != v.member) ++ [v] }

/-- R96, R261: what goes up the Harness tree with a vote: the step flag word and the norm sums so far. -/
def ballot (s : State) (x : Ctx) (t : Step) (v : Vote) : Tally :=
  { member := s.moduleId, vote := v, step := soStep t.entry, tc := soTc t.entry, faulty := t.faulty, flags := (votedWord s).toNat,
    norms := if t.gathered then ownNorms s x t else [] }

/-- Cast a vote: into the own tally at the root, up the tree elsewhere; a module in STITCH_LOST sends none. -/
def castVote (s : State) (ctx : Nat) (x : Ctx) (t : Step) (v : Vote) : State :=
  let s := updStep' s ctx fun t => { t with voted := some v }
  if s.stitch.lost then s
  else if isRoot s then putTally s ctx (ballot s x t v)
  else s.send (.vote ctx (ballot s x t v))

/-- R259, R260: cast the vote, or change a yes to a no. -/
def voteCast (s : State) (ctx : Nat) : State :=
  match s.ctx? ctx with
  | none => s
  | some x =>
    match x.step with
    | none => s
    | some t =>
      if t.deadline ∨ s.schedDown then s
      else
        match voteNow s ctx x t, t.voted with
        | some v, none => castVote s ctx x t v
        | some v, some old => if old.yes && !v.yes then castVote s ctx x t v else s
        | none, _ => s

/-- R259. -/
def execVoteCast (ctx : Nat) (s : State) : Out := onCtx ctx s fun s => voteCast s ctx

/-- R260: is a vote for the step the root has open, whose deadline has passed? -/
def lateVote (x : Ctx) (v : Tally) : Bool := x.step.any fun t => t.deadline && soStep t.entry == v.step && soTc t.entry == v.tc

/-- R260, R262: a vote reaches the tally; one whose own edge t_c has passed, or that comes after its deadline, is ignored. One for
a step that the root has not opened is held. -/
def voteReceive (s : State) (ctx : Nat) (v : Tally) : State :=
  match s.ctx? ctx with
  | none => s
  | some x =>
    if !isRoot s || !s.job.members.contains v.member || lateVote x v || decide (v.tc ≤ s.stitch.count) then s
    else putTally s ctx v

/-- R262. -/
def execVoteReceive (ctx sender step tc : Nat) (yes : Bool) (reason : Nat) (faulty : Option Nat) (flags : Nat)
    (norms : List (List Nat)) (s : State) : Out :=
  onCtx ctx s fun s => voteReceive s ctx
    { member := sender, vote := { yes := yes, reason := reason }, step := step, tc := tc, faulty := faulty, flags := flags, norms := norms }

/-- R260 to R262, R361: why a voter counts as no; none where it counts as yes. -/
def countVoter (tally : List Tally) (t : Step) (m : Nat) : Option (Nat × Nat) :=
  match tally.find? fun v => v.member == m with
  | none => some (m, 5)
  | some v =>
    if v.step ≠ soStep t.entry ∨ v.tc ≠ soTc t.entry then some (m, 7)
    else if tally.any fun u => u.faulty == some m then some (m, 2)
    else if v.vote.yes then none
    else some (m, v.vote.reason)

/-- R557: count the deadlines at which members were MISSING. -/
def countMissing (s : State) (fails : List (Nat × Nat)) : State :=
  { s with missing := s.job.members.foldl (fun m k =>
      Sp.set 0 m k (if fails.contains (k, 5) then Sp.get 0 m k + 1 else 0)) s.missing }

/-- The outcome of a step becomes known. -/
def setOutcome (s : State) (ctx : Nat) (commit : Bool) (flags : Nat) (fails : List (Nat × Nat)) (norms : List (List Nat)) : State :=
  countMissing (updStep' s ctx fun t =>
    { t with outcome := if commit then .committed else .aborted, sysFlags := flags, fails := fails, norms := norms,
             late := if soTc t.entry ≤ s.stitch.count then some s.stitch.count else t.late }) fails

/-- R253: one stored sum over rows of norm sums. -/
def normTotal (rows : List (List Nat)) (k : Nat) : Nat :=
  pairWord ((rows.foldl (fun a r => pairAdd a (Lined.ofBytes (leBytes 8 (r.getD k 0)))) (Lined.zero, 0)).1)

/-- R253: the norm sums of several modules, tag by tag. -/
def reduceNorms (rows : List (List Nat)) : List (List Nat) :=
  ((rows.map fun r => r.getD 0 0).eraseDups).map fun tag =>
    let mine := rows.filter fun r => r.getD 0 0 == tag
    [tag, normTotal mine 1, normTotal mine 2, normTotal mine 3, normTotal mine 4, (mine.map fun r => r.getD 5 0).sum,
     if mine.any fun r => r.getD 6 0 != 0 then 1 else 0]

/-- R261: the root counts the votes and sends the outcome: to the modules whose step names its COMMIT_STITCH, and to those of
voters that named another (R262). -/
def tallyVotes (s : State) (ctx : Nat) : State :=
  match s.ctx? ctx with
  | none => s
  | some x =>
    match x.step with
    | none => s
    | some t =>
      let fails := s.job.members.filterMap (countVoter x.tally t)
      let commit := fails.isEmpty
      let flags := x.tally.foldl (fun f v => f ||| v.flags) 0
      let norms := reduceNorms (x.tally.flatMap (·.norms))
      let s := setOutcome s ctx commit flags fails norms
      let s := s.updCtx ctx fun x => { x with tally := [] }
      if s.job.mode = 0 then s
      else (soTc t.entry :: ((x.tally.map (·.tc)).eraseDups.filter (· != soTc t.entry))).foldl (fun s tc =>
        s.send (.outcome ctx tc commit flags fails norms)) s

/-- R260, R262: why members count as no in an outcome for a COMMIT_STITCH that the root has no step for: MISMATCH where a vote of
theirs has come, MISSING otherwise. -/
def orphanFails (s : State) (tally : List Tally) : List (Nat × Nat) :=
  s.job.members.map fun m => (m, if tally.any fun v => v.member == m then 7 else 5)

/-- R262: votes whose COMMIT_STITCH comes while the root has taken no STEP_OPEN for it count as MISMATCH. -/
def orphanVotes (s : State) (ctx : Nat) (x : Ctx) : State :=
  let due := x.tally.filter fun v => decide (v.tc ≤ s.stitch.count + 1)
  let fails := orphanFails s x.tally
  let s := s.updCtx ctx fun x => { x with tally := x.tally.filter fun v => !decide (v.tc ≤ s.stitch.count + 1) }
  ((due.map (·.tc)).eraseDups).foldl (fun s tc =>
    let vs := due.filter fun v => v.tc == tc
    (countMissing s fails).send
      (.outcome ctx tc false (vs.foldl (fun f v => f ||| v.flags) 0) fails (reduceNorms (vs.flatMap (·.norms))))) s

/-- R96: the flag words of cells, clusters and module are collected at an edge, once for all votes of that edge, and cleared. -/
def clearWords (s : State) : State :=
  if s.stepWord.any fun w => w.1 == s.stitch.count then s
  else { s with cellFlags := [], clusterFlags := [], moduleFlags := 0, stepWord := some (s.stitch.count, moduleWord s) }

/-- R96, R259, R260: the edge of t_c − 1: an undecided module votes no. DESIGN CHOICE (log 127): the flag words and norm sums
that go with the votes are those of this edge, where the words are collected and cleared. -/
def voteDeadline (s : State) (ctx : Nat) : State :=
  match s.ctx? ctx with
  | none => s
  | some x =>
    match x.step with
    | none => if isRoot s then orphanVotes s ctx x else s
    | some t =>
      if t.deadline then (if isRoot s then orphanVotes s ctx x else s)
      else if s.stitch.count + 1 < soTc t.entry then s
      else
        let late : Vote := { yes := false, reason := if !s.schedDown && allUpdated t then 6 else 4 }
        let v : Vote := if s.schedDown then late else (voteNow s ctx x t).getD late
        let s := castVote s ctx x t (t.voted.getD v)
        let s := if s.stitch.lost then s else clearWords s
        let s := updStep' s ctx fun t => { t with deadline := true }
        if isRoot s then tallyVotes s ctx else s

/-- R260. -/
def execVoteDeadline (ctx : Nat) (s : State) : Out := onCtx ctx s fun s => voteDeadline s ctx

/-- R261, R262: the outcome for a COMMIT_STITCH reaches a module. -/
def outcomeReceive (s : State) (ctx tc : Nat) (commit : Bool) (flags : Nat) (fails : List (Nat × Nat)) (norms : List (List Nat)) : State :=
  match (s.ctx? ctx).bind (·.step) with
  | some t => if soTc t.entry = tc ∧ t.outcome = .unknown then setOutcome s ctx commit flags fails norms else s
  | none => s

/-- R261. -/
def execOutcomeReceive (ctx tc : Nat) (commit : Bool) (flags : Nat) (fails : List (Nat × Nat)) (norms : List (List Nat)) (s : State) : Out :=
  onCtx ctx s fun s => outcomeReceive s ctx tc commit flags fails norms

/-! ## The outcome (R263, R264) -/

/-- R253: one entry of the norm table from the system-wide sums of its tag. -/
def normEntry (rows : List (List Nat)) : Nat :=
  if rows = [] then 0
  else
    1 + (if rows.any fun r => r.getD 6 0 != 0 then 2 else 0) + ((rows.map fun r => r.getD 5 0).sum) * 2 ^ 192 + normTotal rows 3 * 2 ^ 256 +
      normTotal rows 2 * 2 ^ 320 + normTotal rows 4 * 2 ^ 384 + normTotal rows 1 * 2 ^ 448

/-- R253: write the norm table. -/
def writeNorms (s : State) (t : Step) : State :=
  (List.range 4096).foldl (fun s tag =>
    s.reachStore (soNorm t.entry + 64 * tag) (leBytes 64 (normEntry (t.norms.filter fun r => r.getD 0 0 == tag))) false) s

/-- R264: the step report. -/
def stepReport (s : State) (t : Step) (bank flags : Nat) : Nat :=
  let n := s.job.members.length
  (if t.outcome = .committed then 0 else 1) + (if t.late.isSome then 4 else 0) + bank * 8 + flags % 256 * 2 ^ 256 +
    t.fails.length * 2 ^ 288 + (n - t.fails.length) * 2 ^ 320 + n * 2 ^ 352 + soTc t.entry * 2 ^ 384 + soStep t.entry * 2 ^ 448 +
    (((t.fails.take 16).zipIdx).map fun (f, i) => (f.1 % 2 ^ 18 * 2 ^ 14 + f.2) * 2 ^ (512 + 32 * i)).sum

/-- R450: the details of a STEP_OPEN. -/
def stepDetails (s : State) (t : Step) (bank flags : Nat) : Details :=
  { d0 := soStep t.entry
    d1 := flags % 256 + (if t.outcome = .committed then 0 else 256) + (if t.late.isSome then 1024 else 0) + bank * 2048
    d2 := (s.job.members.length - t.fails.length) + t.fails.length * 2 ^ 32
    d3 := (t.fails.head?.map fun f => f.1 % 2 ^ 18 * 2 ^ 14 + f.2).getD 0 }

/-- Discard what is left of a step that ends: its update pieces, its exchange and mirrors. -/
def dropStep (s : State) (ctx : Nat) (cmd : Nat) : State :=
  let s := s.cells.foldl (fun s e =>
    match e.2.piece with
    | some p => if p.upd.isSome && p.cmd == cmd then abandon s e.1 p else s
    | none => s) s
  { s with fab := s.fab.filter fun o => !(o.ctx == ctx && (o.kind == .exchange || (o.kind == .mirror && o.sender))) }

/-- R270: snapshots of an aborted step send nothing. -/
def abortSnaps (s : State) (ctx step : Nat) : State :=
  let gone := s.snaps.filter fun p => p.ctx == ctx && p.step == step && !p.armed
  let s := { s with snaps := s.snaps.filter fun p => !(p.ctx == ctx && p.step == step && !p.armed) }
  gone.foldl (fun s p => complete s p.cmd St.stepAborted { Details.zero with d0 := p.id }) s

/-- R253: the sums the norm table is written from: those that came with the outcome; a module alone in its job reduces its own
tables, so a gather that began at the edge of its vote has its sums in them (log 127). -/
def normTable (s : State) (ctx : Nat) (t : Step) : List (List Nat) :=
  match s.ctx? ctx with
  | some x => if s.job.mode = 0 && t.gathered then ownNorms s x t else t.norms
  | none => t.norms

/-- End a step with its outcome: norm table, system-wide flags (R96), report, completion record. -/
def closeStep (s : State) (ctx : Nat) (t : Step) (bank status : Nat) : State :=
  let s := writeNorms s { t with norms := normTable s ctx t }
  let s := s.odSet 0x8020 0 (s.odGet 0x8020 0 ||| t.sysFlags)
  let s := s.reachStore (soReport t.entry) (leBytes 128 (stepReport s t bank t.sysFlags)) false
  let s := s.updCtx ctx fun x => { x with step := none }
  complete s t.cmd status (stepDetails s t bank t.sysFlags)

/-- R263: apply the outcome. -/
def applyOutcome (s : State) (ctx : Nat) (x : Ctx) (t : Step) : State :=
  let s := if t.gathered then s else clearHomes s ctx x t.gmap
  let s := dropStep s ctx t.cmd
  if t.outcome = .committed then
    let s := s.updCtx ctx fun x => { x with bank := 1 - x.bank, stepNo := x.stepNo + 1, gathering := x.gathering ++ [(1 - x.bank, t)] }
    closeStep s ctx t (1 - x.bank) St.ok
  else
    let s := logEvent s .stepAborted srcModule 0 (soStep t.entry) t.fails.length
    abortSnaps (closeStep s ctx t x.bank St.stepAborted) ctx (soStep t.entry)

/-- R263, R264, R463: edge t_c, or the first edge after a late outcome; an outcome that falls due while the scheduler core is
down is applied late. -/
def outcomeApply (s : State) (ctx : Nat) : State :=
  match s.ctx? ctx with
  | none => s
  | some x =>
    match x.step with
    | none => s
    | some t =>
      if s.stitch.count < soTc t.entry then s
      else if s.schedDown then updStep' s ctx fun t => { t with late := some s.stitch.count }
      else if t.outcome = .unknown then s.send (.askOutcome ctx (soTc t.entry))
      else if t.late.any fun k => decide (s.stitch.count ≤ k) then s
      else applyOutcome s ctx x t

/-- R263. -/
def execStepOutcomeApply (ctx : Nat) (s : State) : Out := onCtx ctx s fun s => outcomeApply s ctx

/-! ## All-gather (R265) -/

/-- The elements of the all-gather: weights of every shard, then compute copies. -/
def gatherSegs (s : State) (t : Step) (bank me : Nat) : List Seg :=
  let w (sh : Nat) : Nat := gmWeight (t.gmap.getD (shEntry sh) 0)
  let mineW := t.shards.map fun sh =>
    ({ owner := me, count := shCount sh, src := fld sh 297 256 + bank * shStride sh, dst := w sh + 4 * shFirst sh, sSize := 4, pSize := 4, dSize := 4 } : Seg)
  let rankOf (r : List Nat) : Nat := (s.job.members.findIdx? (· == r.getD 0 0)).getD 0
  let theirsW := t.others.map fun r =>
    ({ owner := rankOf r, count := r.getD 3 0, src := 0, dst := gmWeight (t.gmap.getD (r.getD 1 0) 0) + 4 * r.getD 2 0, sSize := 4, pSize := 4, dSize := 4 } : Seg)
  let mineC := (t.shards.filter fun sh => bit (optOf t sh) 26).map fun sh =>
    let e := optCopy (optOf t sh)
    ({ owner := me, count := shCount sh, src := shCopy sh + e * shFirst sh + shStride sh, dst := shCopy sh + e * shFirst sh,
       sSize := e, pSize := e, dSize := e } : Seg)
  let theirsC := (t.others.filter fun r => r.getD 4 0 != 0).map fun r =>
    let e := r.getD 4 0
    ({ owner := rankOf r, count := r.getD 3 0, src := 0, dst := r.getD 5 0 + e * r.getD 2 0, sSize := e, pSize := e, dSize := e } : Seg)
  let byDst (l : List Seg) : List Seg := sortBy l fun a b => decide (a.dst ≤ b.dst)
  byDst (mineW ++ theirsW) ++ byDst (mineC ++ theirsC)

/-- R265: after a commit the new weights go to every member, step by step. -/
def stepGather (s : State) (ctx : Nat) : State :=
  match s.ctx? ctx with
  | none => s
  | some x =>
    match x.gathering with
    | [] => s
    | (bank, t) :: _ =>
      if s.fab.any fun o => o.ctx == ctx && o.kind == .stepGather then s
      else
        let segs := gatherSegs s t bank (myRank s)
        let land := segs.map fun g => (g.dst, g.count * g.dSize)
        let send := (segs.filter fun g => g.owner == myRank s).map fun g => (g.src, g.count * g.sSize)
        let s := s.fresh
        addFab s (coreOp s ctx .stepGather (soStep t.entry) ((segs.map (·.count)).sum) s.job.members segs land send false 0)

/-- R265. -/
def execStepGather (ctx : Nat) (s : State) : Out := onCtx ctx s fun s => stepGather s ctx

/-- R265, R270: every range of the step has landed here: READY_CTR counts it, once, and snapshots of the step may send. -/
def gatherLanded (s : State) (o : FabOp) : State :=
  match (s.ctx? o.ctx).bind fun x => (x.gathering.find? fun g => soStep g.2.entry == o.seq) with
  | none => s
  | some (_, t) =>
    let s := syncChange s (soReady t.entry) .add 1
    let s := s.updCtx o.ctx fun x => { x with gathering := x.gathering.filter fun g => soStep g.2.entry != o.seq }
    { s with snaps := s.snaps.map fun p => if p.ctx = o.ctx ∧ p.step = soStep t.entry then { p with armed := true } else p }

/-- R351, R361: an operation completes: all its bytes have landed here and no member needs its source. READY_CTR does not wait for
the second (R265). -/
def fabOpComplete (s : State) (id : Nat) (faulty : Option Nat) : State :=
  match s.fabOp? id with
  | none => s
  | some o =>
    if !o.started then s
    else
      let s := if o.kind = .stepGather ∧ o.landedAll then gatherLanded s o else s
      if !o.whole s then s
      else
        let o := { o with faulty := o.faulty.or faulty }
        match o.kind with
        | .exchange => updStep' (dropFab s id) o.ctx fun t =>
            { t with exchanged := true, faulty := t.faulty.or o.faulty, poison := t.poison || o.poisoned }
        | .stepGather => dropFab s id
        | .mirror => s
        | _ => fabComplete s o

/-- R351. -/
def execFabricOpComplete (op : Nat) (faulty : Option Nat) (s : State) : Out := .next (fabOpComplete s op faulty)

/-! ## Mirror (R266 to R268) -/

/-- R267: the shadow bank of a finished BUDDY shard goes to the buddy: one operation for each of W, M, V, whose
bytes land at their offset from the buddy's own MIRROR_DST_BASE. -/
def mirrorOps (s : State) (ctx : Nat) (x : Ctx) (t : Step) (k : Nat) : State :=
  let sh := t.shards.getD k 0
  let rs := bankRanges (optOf t sh) sh (1 - x.bank)
  let n := shCount sh
  (rs.zipIdx).foldl (fun s (r, i) =>
    let s := s.fresh
    let off := r.1 - s.odGet 0x5009 1
    let e := r.2 / n
    let g : Seg := { owner := 0, count := n, src := r.1, dst := off, sSize := e, pSize := e, dSize := e }
    addFab s { coreOp s ctx .mirror (4 * k + i) n [s.moduleId, s.odGet 0x5009 0] [g] [] [r] false 1 with
      dst := off, fmt := 8 * rs.length + e }) s

/-- R267: the mirror of a shard of the open step begins when its update has ended. -/
def mirror (s : State) (ctx k : Nat) : State :=
  match s.ctx? ctx with
  | none => s
  | some x =>
    match x.step with
    | none => s
    | some t =>
      let sh := t.shards.getD k 0
      if t.shards.length ≤ k ∨ !shBuddy sh ∨ t.mirrored.contains k ∨ !((t.undone.find? fun e => e.1 == k).any fun e => e.2 == 0) then s
      else updStep' (mirrorOps s ctx x t k) ctx fun t => { t with mirrored := t.mirrored ++ [k] }

/-- R267. -/
def execMirror (ctx shard : Nat) (s : State) : Out := onCtx ctx s fun s => mirror s ctx shard

/-- R267: the buddy has acknowledged a shard. -/
def mirrorAck (s : State) (ctx k : Nat) : State :=
  match (s.ctx? ctx).bind (·.step) with
  | none => s
  | some t =>
    if !t.mirrored.contains k then s
    else
      let s := { s with fab := s.fab.filter fun o => !(o.ctx == ctx && o.kind == .mirror && o.sender && o.seq / 4 == k) }
      updStep' s ctx fun t => { t with acked := k :: t.acked }

/-- R267. -/
def execMirrorAck (ctx shard : Nat) (s : State) : Out := onCtx ctx s fun s => mirrorAck s ctx shard

end Sys2Proof.Machine
end

