-- ==== Sys2Proof/Machine/Snapshot.lean ====
section
/-! DEFINITION. Snapshots (R269 to R272, R352, R448). -/
namespace Sys2Proof.Machine

/-- The fields of a SNAPSHOT entry (R448). -/
structure SnapD where
  step : Nat
  list : Nat
  entries : Nat
  chunkLog : Nat
  latigo : Bool
  port : Nat
  stage : Nat
  stageMib : Nat
  endpoint : Nat
  dest : Nat
  destSize : Nat
  deriving DecidableEq, Repr

/-- R448; a chunk size of 0 is 16 MiB. -/
def SnapD.ofWord (w : Nat) : SnapD :=
  { step := fld w 127 64, list := fld w 169 128, entries := fld w 207 192,
    chunkLog := if fld w 212 208 = 0 then 24 else fld w 212 208, latigo := bit w 213, port := fld w 219 214,
    stage := fld w 265 224, stageMib := fld w 319 288, endpoint := fld w 337 320, dest := fld w 447 384, destSize := fld w 511 448 }

/-- R271: the runs of the payload: source, bytes and place of each entry, each place a multiple of 64; and
the payload's bytes. -/
def snapLayout : List Nat → Nat → List (Nat × Nat × Nat) × Nat
  | [], off => ([], off)
  | e :: r, off =>
    let a := roundUp off 64
    let q := snapLayout r (a + 4 * gmElems e)
    ((gmWeight e, 4 * gmElems e, a) :: q.1, q.2)

/-- R272: bytes of the manifest with signature and fill. -/
def manifestBytes (entries chunks : Nat) : Nat := roundUp (128 + 32 * entries + 32 * chunks + 3309) 64

/-- Bytes of the container: frames and manifest (R271, R272). -/
def containerBytes (payload chunkLog entries : Nat) : Nat :=
  let n := ceilDiv payload (2 ^ chunkLog)
  payload + 64 * n + manifestBytes entries n

/-- R269: a snapshot command. -/
def snapshot (s : State) (id : Nat) (busMaster : Bool) : State :=
  match s.cmd? id with
  | none => s
  | some c =>
    if c.opcode ≠ 0x14 ∨ c.stage ≠ .taken then s
    else
      let s := s.setBme busMaster
      let d := SnapD.ofWord c.entry
      match (s.ctx? c.ctx).bind (·.step), (if d.entries = 0 ∨ 16384 < d.entries then none else tableAt s d.list d.entries 4 true) with
      | some t, some list =>
        let es := list.map fun e => t.gmap.getD e 0
        let l := snapLayout es 0
        let ok := decide (d.step = soStep t.entry ∧ s.stitch.count < soTc t.entry) && (list.all fun e => decide (e < t.gmap.length)) &&
          decide (20 ≤ d.chunkLog ∧ d.chunkLog ≤ 28) && decide (d.stage % 65536 = 0) && s.backed d.stage (d.stageMib * 2 ^ 20) &&
          decide (l.2 ≤ d.stageMib * 2 ^ 20) && decide (containerBytes l.2 d.chunkLog d.entries ≤ d.destSize) &&
          (!d.latigo || decide (d.port < 48))
        if 2 ≤ s.snaps.length then complete s id St.refusedCapacity Details.zero
        else if !ok then complete s id St.badDescriptor Details.zero
        else if !d.latigo && !busMaster then complete s id St.denied Details.zero
        else if !d.latigo && !s.pcieUp then complete s id St.targetReset Details.zero
        else if touchesAbsent s ((d.stage, l.2) :: l.1.map fun r => (r.1, r.2.1)) then complete s id St.notResident Details.zero
        else
          let s := s.fresh.updCmd id fun c => { c with stage := .active, started := true }
          { s with snaps := s.snaps ++ [
            { cmd := id, id := s.serial, ctx := c.ctx, step := d.step, tc := soTc t.entry, gmap := t.gmap, entries := list,
              runs := l.1, bytes := l.2, chunk := 2 ^ d.chunkLog, stage := d.stage, armed := false, copied := [], sent := none }] }
      | _, _ => complete s id St.badDescriptor Details.zero

/-- R269. -/
def execSnapshot (cmd : Nat) (busMaster : Bool) (s : State) : Out := .next (snapshot s cmd busMaster)

/-- R270: one byte of the payload: from the staging range where its block has been copied there, from the
source otherwise, zero between entries. -/
def snapByte (s : State) (p : Snap) (i : Nat) : Byte :=
  match p.runs.find? fun r => decide (r.2.2 ≤ i ∧ i < r.2.2 + r.2.1) with
  | none => 0
  | some r => (s.reachByte (if p.copied.contains (i / 65536) then p.stage + i else r.1 + (i - r.2.2))).1

/-- Is any byte that a snapshot sends poisoned? -/
def snapPoison (s : State) (p : Snap) : Bool :=
  (List.range (ceilDiv p.bytes 65536)).any fun b =>
    (snapRuns p b).any fun q =>
      if p.copied.contains b then s.poisonIn (p.stage + q.2.2) q.2.1 else s.poisonIn q.1 q.2.1

/-- R271: one chunk frame: header, digest, payload. -/
def chunkFrame (s : State) (p : Snap) (size i : Nat) : List Byte × List Byte :=
  let n := min size (p.bytes - i * size)
  let data := (List.range n).map fun k => snapByte s p (i * size + k)
  let head := 0x4B435242 + 1 * 2 ^ 32 + p.id % 2 ^ 64 * 2 ^ 64 + i * 2 ^ 128 + n * 2 ^ 160 + i * size * 2 ^ 192
  let digest := Keccak.shake256 (leBytes 32 head ++ data) 32
  (leBytes 32 head ++ digest ++ data, digest)

/-- R471: the identity key pair, from the fused device secret. -/
def identityPair : MlDsa.Key :=
  MlDsa.keyGen (Keccak.shake256 (fitBytes Config.deviceSecret 32 ++ "BREURN-ID".toList.map fun c => BitVec.ofNat 8 c.toNat) 32)

/-- R472, R474: the identity public key. -/
def identityKey : List Byte := fitBytes identityPair.public 1952

/-- R272, R474 KEY_ID. -/
def keyId : Nat := leNat (Keccak.shake256 identityKey 32)

/-- R456, R471: an ML-DSA-65 signature by the identity key over the digest of a text. -/
def identitySignature (text : List Byte) : List Byte :=
  let digest := Keccak.shake256 text 64
  fitBytes (MlDsa.sign identityPair digest (fitBytes (Config.signRandom digest) 32)) 3309

/-- R272: the manifest. -/
def snapManifest (s : State) (p : Snap) (size : Nat) (digests : List (List Byte)) : List Byte :=
  let n := digests.length
  let total := manifestBytes p.entries.length n
  let head := 0x4E4D5242 + 1 * 2 ^ 32 + p.ctx * 2 ^ 292 + s.moduleId * 2 ^ 302 + total * 2 ^ 320 + size * 2 ^ 352 + n * 2 ^ 384 +
    p.entries.length * 2 ^ 416 + p.id % 2 ^ 64 * 2 ^ 448 + p.bytes * 2 ^ 512 + s.job.id % 2 ^ 64 * 2 ^ 576 + p.tc * 2 ^ 640 +
    p.step * 2 ^ 704 + keyId * 2 ^ 768
  let recs := (p.entries.zip p.runs).flatMap fun (e, r) =>
    let g := p.gmap.getD e 0
    leBytes 32 (e * 2 ^ 16 + gmTag g * 2 ^ 30 + gmCols g * 2 ^ 128 + gmRows g * 2 ^ 160 + r.2.2 * 2 ^ 192)
  let body := leBytes 128 head ++ recs ++ digests.flatten
  let signed := body ++ identitySignature body
  signed ++ List.replicate (total - signed.length) 0

/-- The whole container (R271, R272). -/
def container (s : State) (p : Snap) (size : Nat) : List Byte :=
  let fs := (List.range (ceilDiv p.bytes size)).map fun i => chunkFrame s p size i
  fs.flatMap (·.1) ++ snapManifest s p size (fs.map (·.2))

/-- Cut bytes into pieces of n. -/
def cutBytes (n : Nat) (bs : List Byte) : List (List Byte) :=
  (List.range (ceilDiv bs.length n)).map fun k => (bs.drop (k * n)).take n

/-- R352: give a container to its port. -/
def sendFlits (s : State) (p : Snap) (d : SnapD) (bs : List Byte) : State :=
  ((cutBytes 480 bs).zipIdx).foldl (fun s (pl, i) => enqueue s d.port
    { kind := 1, vl := 2, dst := d.endpoint, op := p.id, idx := i, addr := d.dest + 480 * i, payload := pl, poison := 0 }) s

/-- Does a snapshot read from a fenced or unmapped cell (R17)? -/
def snapDown (s : State) (p : Snap) : Bool := p.runs.any fun r => s.downIn r.1 r.2.1

/-- R270, R310, R352: the container of a landed step is sent; a lost plane stops it. One for the host completes with its writes
(R429), one for a port once the port's neighbour has acknowledged it whole. A stack at level 3 holds it (R325). -/
def snapshotSend (s : State) (id : Nat) : State :=
  match s.cmd? id, s.snaps.find? fun p => p.cmd == id with
  | some c, some p =>
    let d := SnapD.ofWord c.entry
    let reads := p.runs.map fun r => (r.1, r.2.1)
    if !p.armed || p.sent.isSome || loadHeld s reads then s
    else
      let gone := { s with snaps := s.snaps.filter fun q => q.cmd != id }
      if d.latigo && (bit (s.odGet 0x4013 0) d.port || !(s.port d.port).serves) then
        complete gone id St.targetReset { Details.zero with d0 := p.id }
      else if !d.latigo && !s.pcieUp then complete gone id St.targetReset { Details.zero with d0 := p.id }
      else
        let bs := container s p (2 ^ d.chunkLog)
        let st := if snapDown s p then St.targetReset else if snapPoison s p then St.poisoned else St.ok
        let n := ceilDiv p.bytes (2 ^ d.chunkLog)
        if d.latigo then
          let s := sliceLoads { s with snaps := updFirst (fun q => q.cmd == id) (fun q => { q with sent := some (d.port, bs.length, n, st) }) s.snaps } reads
          snapsSent (sendFlits s p d bs) d.port
        else
          complete ((sliceLoads gone reads).send (.hostWrite d.dest bs false)) id st { d0 := p.id, d1 := bs.length, d2 := n, d3 := 0 }
  | _, _ => s

/-- R352. -/
def execSnapshotSend (cmd : Nat) (s : State) : Out := .next (snapshotSend s cmd)

end Sys2Proof.Machine
end

