-- ==== Sys2Proof/Machine/Flac.lean ====
section
/-! DEFINITION. The decoder of FLAC files (R367): native streams. PRESUMED (log 62): the spec names the format and does not print
it. -/
namespace Sys2Proof.Machine.Flac
open Sys2Proof.Machine.BitReader

/-- STREAMINFO: samples a second, channels, bits of a sample, samples in all (0: not known). -/
structure Info where
  rate : Nat
  chans : Nat
  bits : Nat
  total : Nat
  deriving DecidableEq, Repr

/-- The metadata blocks: types and contents. -/
def metadata : Nat → BitReader (List (Nat × Nat))
  | 0 => failure
  | fuel + 1 => do
    let last ← flag
    let kind ← high 7
    let n ← high 24
    need (kind != 127)
    let v ← high (8 * n)
    if last then pure [(kind, v)]
    else
      let l ← metadata fuel
      pure ((kind, v) :: l)

/-- STREAMINFO of its 34 bytes. -/
def infoOf (v : Nat) : Info :=
  { rate := fld v 191 172, chans := fld v 171 169 + 1, bits := fld v 168 164 + 1, total := fld v 163 128 }

/-- The frame or sample number: its further bytes. -/
def numberTail : Nat → BitReader Unit
  | 0 => pure ()
  | n + 1 => do
    need ((← high 2) == 2)
    let _ ← high 6
    numberTail n

/-- The frame or sample number, coded as UTF-8 codes up to seven bytes. -/
def number : BitReader Unit := do
  let b ← high 8
  let ones := ((List.range 8).takeWhile fun i => b.testBit (7 - i)).length
  need (decide (ones ≠ 1 ∧ ones ≤ 7))
  numberTail (ones - 1)

/-- Samples of a block, from its code. -/
def blockSize (code : Nat) : BitReader Nat :=
  match code with
  | 0 => failure
  | 1 => pure 192
  | 6 => do pure ((← high 8) + 1)
  | 7 => do pure ((← high 16) + 1)
  | n => pure (if n ≤ 5 then 576 * 2 ^ (n - 2) else 256 * 2 ^ (n - 8))

/-- The rate's further bytes. -/
def skipRate (code : Nat) : BitReader Unit :=
  match code with
  | 12 => do let _ ← high 8
  | 13 | 14 => do let _ ← high 16
  | 15 => failure
  | _ => pure ()

/-- Bits of a sample, from its code: 0 asks STREAMINFO. -/
def sampleBits (i : Info) (code : Nat) : Nat := [i.bits, 8, 12, 0, 16, 20, 24, 32].getD code 0

/-- A residual of Rice parameter k. -/
def rice (k : Nat) : BitReader Int := do
  let p ← get
  let q ← zeros (p.rest.length)
  let v := q * 2 ^ k + (← high k)
  pure (if v % 2 = 0 then (v / 2 : Nat) else -((v / 2 + 1 : Nat) : Int))

/-- A partition of n residuals: parameters of so many bits. -/
def partition (bits n : Nat) : BitReader (List Int) := do
  let k ← high bits
  if k = 2 ^ bits - 1 then
    let w ← high 5
    items (signed w) n
  else items (rice k) n

/-- The partitions from the first on. -/
def partitions (bits size order : Nat) : Nat → Bool → BitReader (List Int)
  | 0, _ => pure []
  | n + 1, first => do
    need (!first || decide (order ≤ size))
    let a ← partition bits (if first then size - order else size)
    let b ← partitions bits size order n false
    pure (a ++ b)

/-- The residual of a subframe of n samples after `order` warm-up samples. -/
def residual (n order : Nat) : BitReader (List Int) := do
  let method ← high 2
  let p ← high 4
  need (decide (method ≤ 1 ∧ n % 2 ^ p = 0))
  partitions (4 + method) (n / 2 ^ p) order (2 ^ p) true

/-- Samples from their residuals: those known stand last first. -/
def predict (coefs : List Int) (shift : Nat) : List Int → List Int → List Int
  | known, [] => known.reverse
  | known, r :: rs =>
    let sum := (List.zipWith (· * ·) coefs known).foldl (· + ·) 0
    predict coefs shift ((r + sum / 2 ^ shift) :: known) rs

/-- The coefficients of a fixed predictor. -/
def fixedCoefs (order : Nat) : List Int :=
  [[], [1], [2, -1], [3, -3, 1], [4, -6, 4, -1]].getD order []

/-- A subframe of n samples. -/
def subframe (n bits : Nat) : BitReader (List Int) := do
  need (!(← flag))
  let kind ← high 6
  let wasted ← if ← flag then (do pure ((← zeros bits) + 1)) else pure 0
  need (decide (wasted < bits))
  let b := bits - wasted
  let xs ←
    if kind = 0 then do pure (List.replicate n (← signed b))
    else if kind = 1 then items (signed b) n
    else if 8 ≤ kind ∧ kind ≤ 12 then do
      let order := kind - 8
      need (decide (order ≤ n))
      let warm ← items (signed b) order
      pure (predict (fixedCoefs order) 0 warm.reverse (← residual n order))
    else if 32 ≤ kind then do
      let order := kind - 31
      need (decide (order ≤ n))
      let warm ← items (signed b) order
      let prec ← high 4
      let shift ← signed 5
      need (decide (prec ≠ 15 ∧ 0 ≤ shift))
      let coefs ← items (signed (prec + 1)) order
      pure (predict coefs shift.toNat warm.reverse (← residual n order))
    else failure
  pure (xs.map fun x => x * 2 ^ wasted)

/-- The subframes of a frame: channel assignment and channel. -/
def subframes (n bits assign : Nat) : Nat → Nat → BitReader (List (List Int))
  | 0, _ => pure []
  | left + 1, c => do
    let side := (assign = 8 ∧ c = 1) ∨ (assign = 9 ∧ c = 0) ∨ (assign = 10 ∧ c = 1)
    let x ← subframe n (if side then bits + 1 else bits)
    let l ← subframes n bits assign left (c + 1)
    pure (x :: l)

/-- The channels from their subframes: left and side, side and right, middle and side. -/
def decorrelate (assign : Nat) (xs : List (List Int)) : List (List Int) :=
  let a := xs.getD 0 []
  let b := xs.getD 1 []
  match assign with
  | 8 => [a, List.zipWith (· - ·) a b]
  | 9 => [List.zipWith (· + ·) a b, b]
  | 10 =>
    let m := List.zipWith (fun m s => 2 * m + s % 2) a b
    [List.zipWith (fun m s => (m + s) / 2) m b, List.zipWith (fun m s => (m - s) / 2) m b]
  | _ => xs

/-- The bytes read since a place. -/
def bytesSince (file : List Byte) (start : Nat) (p : BitPos) : List Byte := (file.drop (start / 8)).take ((p.pos - start) / 8)

/-- A frame of a file: its channels. -/
def frame (file : List Byte) (i : Info) : BitReader (List (List Int)) := do
  let start := (← get).pos
  need ((← high 15) == 0x7FFC)
  let _ ← flag
  let size ← high 4
  let rate ← high 4
  let assign ← high 4
  let depth ← high 3
  need (!(← flag) && decide (assign ≤ 10))
  number
  let n ← blockSize size
  skipRate rate
  let head := bytesSince file start (← get)
  need ((← high 8) == crcHigh 8 0x07 head)
  let chans := if assign < 8 then assign + 1 else 2
  let bits := sampleBits i depth
  need (decide (chans = i.chans ∧ bits = i.bits))
  let xs ← subframes n bits assign chans 0
  align
  let body := bytesSince file start (← get)
  need ((← high 16) == crcHigh 16 0x8005 body)
  pure (decorrelate assign xs)

/-- The frames of a file, to its end. -/
def frames (file : List Byte) (i : Info) : Nat → BitReader (List (List (List Int)))
  | 0 => failure
  | fuel + 1 => do
    if (← get).rest = [] then pure []
    else
      let f ← frame file i
      let l ← frames file i fuel
      pure (f :: l)

/-- A file after its mark. -/
def stream (file : List Byte) : BitReader Media := do
  let ms ← metadata file.length
  let i := infoOf (ms.headD (0, 0)).2
  need ((ms.headD (1, 0)).1 == 0 && decide (i.rate ≠ 0))
  let fs ← frames file i file.length
  let chans := (List.range i.chans).map fun c => fs.flatMap fun f => f.getD c []
  need (decide (i.total = 0 ∨ i.total = (chans.getD 0 []).length))
  pure { reason := 0, dims := [i.rate, i.bits], data := chans.map fun l => l.map fun x => (x % 2 ^ i.bits).toNat }

/-- A FLAC file. -/
def decode (bs : List Byte) : Media :=
  if bs.take 4 = ascii "OggS" then Media.bad 2
  else if bs.take 4 ≠ ascii "fLaC" then Media.bad 1
  else Media.orSyntax (((stream bs) { rest := (bitsHigh bs).drop 32, pos := 32 }).map (·.1))

end Sys2Proof.Machine.Flac
end

