-- ==== Sys2Proof/Machine/Jpeg.lean ====
section
/-! DEFINITION. The decoder of JPEG files (R367): ISO/IEC 10918-1, baseline and progressive, with Huffman coding. PRESUMED (log 62):
the spec names the standard and does not print it. -/
namespace Sys2Proof.Machine.Jpeg
open Sys2Proof.Machine.BitReader

/-- A component: its identifier, sampling factors, quantisation table, the blocks of a row and of a column as they are held, and the
blocks of 64 coefficients in zigzag order. -/
structure Comp where
  id : Nat
  h : Nat
  v : Nat
  tq : Nat
  across : Nat
  down : Nat
  blocks : Array (List Int)
  scanned : Bool
  deriving DecidableEq, Repr

/-- What the markers read so far have set. -/
structure Dec where
  quant : List (Nat × List Nat)
  dc : List (Nat × Huffman)
  ac : List (Nat × Huffman)
  restart : Nat
  w : Nat
  h : Nat
  progressive : Bool
  rgb : Bool
  comps : List Comp
  deriving DecidableEq, Repr

/-- A scan: components with their tables, spectral selection, successive approximation. -/
structure Scan where
  sel : List (Nat × Nat × Nat)
  ss : Nat
  se : Nat
  ah : Nat
  al : Nat
  deriving DecidableEq, Repr

/-! ## Tables -/

/-- The two nibbles of a byte. -/
def nibbles (b : Byte) : Nat × Nat := (b.toNat / 16, b.toNat % 16)

/-- DQT. -/
def quantTables : Nat → List Byte → Option (List (Nat × List Nat))
  | _, [] => some []
  | 0, _ => none
  | fuel + 1, b :: bs =>
    let n := nibbles b
    let e := n.1 + 1
    if 1 < n.1 ∨ 3 < n.2 ∨ bs.length < 64 * e then none
    else (quantTables fuel (bs.drop (64 * e))).map fun l =>
      l ++ [(n.2, (List.range 64).map fun k => beNat ((bs.drop (k * e)).take e))]

/-- DHT: class, number, code. -/
def huffmanTables : Nat → List Byte → Option (List (Nat × Nat × Huffman))
  | _, [] => some []
  | 0, _ => none
  | fuel + 1, b :: bs =>
    let n := nibbles b
    let counts := (bs.take 16).map (·.toNat)
    let m := counts.sum
    if 1 < n.1 ∨ 3 < n.2 ∨ bs.length < 16 + m ∨ 256 < m then none
    else (huffmanTables fuel (bs.drop (16 + m))).map fun l =>
      l ++ [(n.1, n.2, { counts := counts, symbols := ((bs.drop 16).take m).map (·.toNat) })]

/-- The table of a number: the last defined. -/
def lookup {α : Type} (l : List (Nat × α)) (k : Nat) : Option α := (l.find? fun x => x.1 == k).map (·.2)

/-! ## Coefficients -/

/-- EXTEND of n bits. -/
def extend (n v : Nat) : Int := if 2 * v < 2 ^ n then (v : Int) - 2 ^ n + 1 else v

/-- A value of n bits. -/
def value (n : Nat) : BitReader Int := do
  need (decide (n ≤ 15))
  pure (extend n (← high n))

/-- The AC coefficients of a band from their symbols, and the end-of-band run after them: n coefficients are left. -/
def acFirst (h : Huffman) (al : Nat) (prog : Bool) : Nat → Nat → BitReader (List Int × Nat)
  | 0, n => do
    need (n == 0)
    pure ([], 0)
  | fuel + 1, n =>
    if n = 0 then pure ([], 0)
    else do
      let rs ← h.read
      let r := rs / 16
      let s := rs % 16
      if s = 0 ∧ r < 15 then
        need (prog || r == 0)
        let run ← high r
        pure (List.replicate n 0, 2 ^ r + run - 1)
      else
        need (decide (r < n))
        let v ← if s = 0 then pure 0 else value s
        let rest ← acFirst h al prog fuel (n - r - 1)
        pure (List.replicate r 0 ++ (v * 2 ^ al) :: rest.1, rest.2)

/-- A coefficient that is not zero refined. -/
def refine (al : Nat) (c : Int) : BitReader Int := do
  let b ← flag
  pure (if b && !c.natAbs.testBit al then (if c < 0 then c - 2 ^ al else c + 2 ^ al) else c)

/-- All coefficients that are not zero refined. -/
def refineAll (al : Nat) : List Int → BitReader (List Int)
  | [] => pure []
  | c :: cs => do
    let c' ← if c = 0 then pure c else refine al c
    let l ← refineAll al cs
    pure (c' :: l)

/-- The coefficients up to the zero after r zeros, those that are not zero refined; and the rest. -/
def skipZeros (al : Nat) : Nat → List Int → BitReader (List Int × List Int)
  | _, [] => pure ([], [])
  | r, c :: cs =>
    if c = 0 then
      match r with
      | 0 => pure ([], c :: cs)
      | r + 1 => do
        let x ← skipZeros al r cs
        pure (c :: x.1, x.2)
    else do
      let c' ← refine al c
      let x ← skipZeros al r cs
      pure (c' :: x.1, x.2)

/-- A refinement of the AC coefficients of a band, and the end-of-band run after it. -/
def acRefine (h : Huffman) (al : Nat) : Nat → List Int → BitReader (List Int × Nat)
  | _, [] => pure ([], 0)
  | 0, _ => failure
  | fuel + 1, cs => do
    let rs ← h.read
    let r := rs / 16
    let s := rs % 16
    if s = 0 ∧ r < 15 then
      let run ← high r
      let l ← refineAll al cs
      pure (l, 2 ^ r + run - 1)
    else
      need (decide (s ≤ 1))
      let v ← if s = 0 then pure 0 else (do pure (if ← flag then (2 : Int) ^ al else -(2 : Int) ^ al))
      let x ← skipZeros al r cs
      match x.2 with
      | [] => do
        need (s == 0)
        pure (x.1, 0)
      | _ :: t => do
        let y ← acRefine h al fuel t
        pure (x.1 ++ v :: y.1, y.2)

/-- One block in a scan: its coefficients, the prediction and the end-of-band run after it. -/
def block (d : Dec) (sc : Scan) (td ta : Nat) (pred : Int) (run : Nat) (b : List Int) : BitReader (List Int × Int × Nat) := do
  let first := b.headD 0
  let band := (b.take (sc.se + 1)).drop (max sc.ss 1)
  let tail := b.drop (sc.se + 1)
  let head := (b.take sc.ss).drop 1
  let dc ←
    if sc.ss ≠ 0 then pure (first, pred)
    else if sc.ah ≠ 0 then (do pure (if ← flag then first + 2 ^ sc.al else first, pred))
    else
      match lookup d.dc td with
      | none => failure
      | some h => do
        let p := pred + (← value (← h.read))
        pure (p * 2 ^ sc.al, p)
  if sc.se = 0 then pure (dc.1 :: b.drop 1, dc.2, 0)
  else
    match lookup d.ac ta with
    | none => failure
    | some h => do
      let ac ←
        if run ≠ 0 then
          let l ← if sc.ah = 0 then pure band else refineAll sc.al band
          pure (l, run - 1)
        else if sc.ah = 0 then acFirst h sc.al d.progressive band.length band.length
        else acRefine h sc.al band.length band
      pure (dc.1 :: (head ++ ac.1 ++ tail), dc.2, ac.2)

/-! ## Scans -/

/-- Sampling factors of the picture. -/
def hMax (cs : List Comp) : Nat := (cs.map (·.h)).foldl max 1
/-- The same, down. -/
def vMax (cs : List Comp) : Nat := (cs.map (·.v)).foldl max 1

/-- Samples of a component across and down. -/
def compSize (d : Dec) (c : Comp) : Nat × Nat := (ceilDiv (d.w * c.h) (hMax d.comps), ceilDiv (d.h * c.v) (vMax d.comps))

/-- The units of a scan in order, each a list of component and block. -/
def units (d : Dec) (sel : List Nat) : List (List (Nat × Nat)) :=
  match sel with
  | [i] =>
    match d.comps[i]? with
    | none => []
    | some c =>
      let q := compSize d c
      (List.range (ceilDiv q.2 8)).flatMap fun y => (List.range (ceilDiv q.1 8)).map fun x => [(i, y * c.across + x)]
  | _ =>
    (List.range (ceilDiv d.h (8 * vMax d.comps))).flatMap fun my =>
      (List.range (ceilDiv d.w (8 * hMax d.comps))).map fun mx =>
        sel.flatMap fun i =>
          match d.comps[i]? with
          | none => []
          | some c =>
            (List.range c.v).flatMap fun y => (List.range c.h).map fun x => (i, (my * c.v + y) * c.across + mx * c.h + x)

/-- What a scan carries from block to block: the components, a prediction each, and the end-of-band run. -/
structure Run where
  comps : List Comp
  preds : List Int
  run : Nat
  deriving DecidableEq, Repr

/-- The blocks of a restart interval. -/
def interval (d : Dec) (sc : Scan) : List (Nat × Nat) → Run → BitReader Run
  | [], r => pure r
  | (i, n) :: us, r =>
    match r.comps[i]?, sc.sel.find? (fun s => s.1 == i) with
    | some c, some s => do
      let x ← block d sc s.2.1 s.2.2 (r.preds.getD i 0) r.run ((c.blocks[n]?).getD [])
      interval d sc us { comps := setAt r.comps i { c with blocks := c.blocks.setIfInBounds n x.1, scanned := true }
                         preds := setAt r.preds i x.2.1, run := x.2.2 }
    | _, _ => failure

/-- Entropy-coded bytes up to a marker: the restart intervals with the numbers of the markers after them, and the rest. -/
def intervals : Nat → List Byte → List Byte → List (List Byte × Nat) → List (List Byte × Nat) × List Byte
  | 0, bs, cur, acc => (acc ++ [(cur.reverse, 8)], bs)
  | _, [], cur, acc => (acc ++ [(cur.reverse, 8)], [])
  | fuel + 1, b :: bs, cur, acc =>
    if b ≠ 0xFF then intervals fuel bs (b :: cur) acc
    else
      match bs with
      | [] => (acc ++ [(cur.reverse, 8)], [])
      | m :: r =>
        if m = 0 then intervals fuel r (b :: cur) acc
        else if m = 0xFF then intervals fuel bs cur acc
        else if 0xD0 ≤ m.toNat ∧ m.toNat ≤ 0xD7 then intervals fuel r [] (acc ++ [(cur.reverse, m.toNat - 0xD0)])
        else (acc ++ [(cur.reverse, 8)], b :: bs)

/-- Decode the intervals of a scan; none where they do not hold it. -/
def scanData (d : Dec) (sc : Scan) (us : List (List (Nat × Nat))) : Nat → List (List Byte × Nat) → List Comp → Option (List Comp)
  | _, [], cs => if us = [] then some cs else none
  | k, (bs, mark) :: is, cs =>
    let n := if d.restart = 0 then us.length else d.restart
    let mine := (us.drop (k * n)).take n
    let last := is.isEmpty
    if mine = [] ∨ (!last ∧ mark ≠ k % 8) ∨ (last ∧ (k + 1) * n < us.length) then none
    else
      match interval d sc mine.flatten { comps := cs, preds := cs.map fun _ => 0, run := 0 } { rest := bitsHigh bs, pos := 0 } with
      | none => none
      | some r => if last then some r.1.comps else scanData d sc us (k + 1) is r.1.comps

/-- SOS: the scan of its parameters. -/
def scanOf (d : Dec) (p : List Byte) : Option Scan :=
  let n := (p.getD 0 0).toNat
  let sel := (List.range n).map fun k =>
    let id := (p.getD (1 + 2 * k) 0).toNat
    (d.comps.findIdx fun c => c.id == id, nibbles (p.getD (2 + 2 * k) 0))
  let a := nibbles (p.getD (3 + 2 * n) 0)
  let sc : Scan := { sel := sel, ss := (p.getD (1 + 2 * n) 0).toNat, se := (p.getD (2 + 2 * n) 0).toNat, ah := a.1, al := a.2 }
  let okBand :=
    if d.progressive then
      (sc.ss == 0 && sc.se == 0) || (decide (1 ≤ sc.ss ∧ sc.ss ≤ sc.se ∧ sc.se ≤ 63) && n == 1)
    else sc.ss == 0 && sc.se == 63 && sc.ah == 0 && sc.al == 0
  if 1 ≤ n ∧ n ≤ 4 ∧ p.length = 4 + 2 * n ∧ (sel.map (·.1)).Nodup ∧ okBand ∧ sc.ah ≤ 13 ∧ sc.al ≤ 13 ∧ (sc.ah = 0 ∨ sc.ah = sc.al + 1) then
    some sc
  else none

/-! ## The frame -/

/-- SOF0 or SOF2: the reason it is not decoded, or what it sets. -/
def frameOf (d : Dec) (progressive : Bool) (p : List Byte) : Except Nat Dec :=
  let n := (p.getD 5 0).toNat
  let w := beNat ((p.drop 3).take 2)
  let h := beNat ((p.drop 1).take 2)
  let raw := (List.range n).map fun k =>
    let s := nibbles (p.getD (7 + 3 * k) 0)
    ((p.getD (6 + 3 * k) 0).toNat, s.1, s.2, (p.getD (8 + 3 * k) 0).toNat)
  let big := (raw.map (·.2.1)).foldl max 1
  let tall := (raw.map (·.2.2.1)).foldl max 1
  if p.length ≠ 6 + 3 * n ∨ n = 0 ∨ w = 0 ∨ d.comps ≠ [] ∨ !(raw.map (·.1)).Nodup ∨
      raw.any (fun c => decide (c.2.1 = 0 ∨ 4 < c.2.1 ∨ c.2.2.1 = 0 ∨ 4 < c.2.2.1 ∨ 3 < c.2.2.2)) then .error 1
  else if (p.getD 0 0).toNat ≠ 8 ∨ h = 0 ∨ (n ≠ 1 ∧ n ≠ 3) then .error 2
  else
    let comps := raw.map fun c =>
      let ch := if n = 1 then 1 else c.2.1
      let cv := if n = 1 then 1 else c.2.2.1
      let across := if n = 1 then ceilDiv w 8 else ceilDiv w (8 * big) * ch
      let down := if n = 1 then ceilDiv h 8 else ceilDiv h (8 * tall) * cv
      { id := c.1, h := ch, v := cv, tq := c.2.2.2, across := across, down := down,
        blocks := Array.replicate (across * down) (List.replicate 64 0), scanned := false }
    .ok { d with w := w, h := h, progressive := progressive, comps := comps }

/-- A marker segment: what it sets, or the reason the file is corrupt for. -/
def segment (d : Dec) (m : Nat) (p : List Byte) : Except Nat Dec :=
  let orBad {α : Type} (o : Option α) (f : α → Dec) : Except Nat Dec :=
    match o with
    | some a => .ok (f a)
    | none => .error 1
  match m with
  | 0xC0 => frameOf d false p
  | 0xC2 => frameOf d true p
  | 0xC4 => orBad (huffmanTables p.length p) fun l =>
      { d with dc := ((l.filter fun x => x.1 == 0).map (·.2)).reverse ++ d.dc, ac := ((l.filter fun x => x.1 == 1).map (·.2)).reverse ++ d.ac }
  | 0xDB => orBad (quantTables p.length p) fun l => { d with quant := l ++ d.quant }
  | 0xDD => if p.length = 2 then .ok { d with restart := beNat p } else .error 1
  | 0xEE => .ok (if p.take 5 = ascii "Adobe" ∧ p.length = 12 ∧ p.getD 11 0 = 0 then { d with rgb := true } else d)
  | 0xFE => .ok d
  | _ =>
    if (0xC1 ≤ m ∧ m ≤ 0xCF) ∨ m = 0xDC ∨ m = 0xDE ∨ m = 0xDF then .error 2
    else if 0xE0 ≤ m ∧ m ≤ 0xEF then .ok d
    else .error 1

/-- The segments of a file up to EOI. -/
def segments : Nat → Dec → List Byte → Except Nat Dec
  | 0, _, _ => .error 1
  | fuel + 1, d, bs =>
    match bs with
    | f :: m :: r =>
      let n := beNat (r.take 2)
      if f ≠ 0xFF then .error 1
      else if m = 0xFF then segments fuel d (m :: r)
      else if m = 0xD9 then .ok d
      else if n < 2 ∨ r.length < n then .error 1
      else
        let p := (r.take n).drop 2
        if m = 0xDA then
          match scanOf d p with
          | none => .error 1
          | some sc =>
            let es := intervals r.length (r.drop n) [] []
            match scanData d sc (units d (sc.sel.map (·.1))) 0 es.1 d.comps with
            | none => .error 1
            | some cs => segments fuel { d with comps := cs } es.2
        else
          match segment d m.toNat p with
          | .error e => .error e
          | .ok d => segments fuel d (r.drop n)
    | _ => .error 1

/-! ## Samples -/

/-- cos(kπ/16) in units of 2^-30, k from 0 to 8. -/
def cosTable : List Int := [1073741824, 1053110176, 992008094, 892783698, 759250125, 596538995, 410903207, 209476638, 0]

/-- cos(kπ/16) for any k. -/
def cos16 (k : Nat) : Int :=
  let m := k % 32
  let m := if 16 < m then 32 - m else m
  if 8 < m then -(cosTable.getD (16 - m) 0) else cosTable.getD m 0

/-- Weight of frequency u at place x: C(u)cos((2x + 1)uπ/16), in units of 2^-30. -/
def weight (x u : Nat) : Int := if u = 0 then cos16 4 else cos16 ((2 * x + 1) * u)

/-- The place in the zigzag order of frequency u across and v down. -/
def zigzagOf (u v : Nat) : Nat :=
  let s := u + v
  let below := if s ≤ 7 then s * (s + 1) / 2 else 64 - (15 - s) * (14 - s + 2) / 2
  let step := if s % 2 = 0 then u else v
  below + (if s ≤ 7 then step else step - (s - 7))

/-- The zigzag places in the order of rows. -/
def zigzagRows : List Nat := (List.range 64).map fun i => zigzagOf (i % 8) (i / 8)

/-- The 64 samples of a block of dequantised coefficients in the order of rows: the inverse transform, rounded, and as far beside it
as a decoder may be (PRESUMED, log 62), shifted and clamped. -/
def samples (cs : List Int) : List Nat :=
  let half := (List.range 8).flatMap fun v => (List.range 8).map fun x =>
    (List.zipWith (fun u c => weight x u * c) (List.range 8) ((cs.drop (8 * v)).take 8)).foldl (· + ·) 0
  (List.range 64).map fun i =>
    let x := i % 8
    let y := i / 8
    let sum := ((List.range 8).map fun v => weight y v * half.getD (8 * v + x) 0).foldl (· + ·) 0
    let near := (sum + 2 ^ 61) / 2 ^ 62 + max (-1) (min 1 (Config.idctOffset cs i))
    (max 0 (min 255 (near + 128))).toNat

/-- The samples of a component, cut to its size. -/
def plane (d : Dec) (c : Comp) : Option (List Nat) :=
  (lookup d.quant c.tq).map fun q =>
    let bs := c.blocks.map fun b => (samples (zigzagRows.map fun z => b.getD z 0 * (q.getD z 0 : Nat))).toArray
    let size := compSize d c
    (List.range size.2).flatMap fun y => (List.range size.1).map fun x =>
      match bs[y / 8 * c.across + x / 8]? with
      | some b => (b[y % 8 * 8 + x % 8]?).getD 0
      | none => 0

/-- Chroma subsampling of three components: 0 none, 1 across, 2 both ways; 3 another. -/
def subsampling (cs : List Comp) : Nat :=
  match cs with
  | [a, b, c] =>
    if (b.h, b.v) ≠ (c.h, c.v) then 3
    else if a.h = b.h ∧ a.v = b.v then 0
    else if a.h = 2 * b.h ∧ a.v = b.v then 1
    else if a.h = 2 * b.h ∧ a.v = 2 * b.v then 2
    else 3
  | _ => 0

/-- A JPEG file. -/
def decode (bs : List Byte) : Media :=
  let d : Dec := { quant := [], dc := [], ac := [], restart := 0, w := 0, h := 0, progressive := false, rgb := false, comps := [] }
  if bs.take 2 ≠ [0xFF, 0xD8] then Media.bad 1
  else
    match segments bs.length d (bs.drop 2) with
    | .error e => Media.bad e
    | .ok d =>
      let n := d.comps.length
      if n = 0 ∨ !(d.comps.all fun c => c.scanned) then Media.bad 1
      else if n = 3 ∧ (d.rgb ∨ subsampling d.comps = 3) then Media.bad 2
      else
        Media.orSyntax do
          let ps ← d.comps.mapM (plane d)
          some { reason := 0, dims := [d.w, d.h, n, 8, if n = 1 then 0 else 2, subsampling d.comps], data := [ps.flatten] }

end Sys2Proof.Machine.Jpeg
end

