-- ==== Sys2Proof/Machine/Inflate.lean ====
section
/-! DEFINITION. Inflating zlib streams (RFC 1950, RFC 1951), which PNG files hold. PRESUMED (log 62). -/
namespace Sys2Proof.Machine.Inflate
open Sys2Proof.Machine.BitReader

/-- What the counts leave of the code space: none where they ask for more than there is. -/
def spaceLeft : List Nat → Nat → Option Nat
  | [], left => some left
  | c :: cs, left => if 2 * left < c then none else spaceLeft cs (2 * left - c)

/-- The code of lengths up to 15; a code that is not complete has one symbol at most. -/
def Huffman.ofLengths (ls : List Nat) : Option Huffman :=
  let counts := (List.range 15).map fun l => ls.countP (· == l + 1)
  let symbols := (List.range 15).flatMap fun l => ((ls.zipIdx).filter fun x => x.1 == l + 1).map (·.2)
  match spaceLeft counts 1 with
  | none => none
  | some left => if left = 0 ∨ symbols.length ≤ 1 then some { counts := counts, symbols := symbols } else none

/-- Base and extra bits of a length symbol from 257 on. -/
def lengthBase : List (Nat × Nat) :=
  [(3, 0), (4, 0), (5, 0), (6, 0), (7, 0), (8, 0), (9, 0), (10, 0), (11, 1), (13, 1), (15, 1), (17, 1), (19, 2), (23, 2), (27, 2)] ++
  [(31, 2), (35, 3), (43, 3), (51, 3), (59, 3), (67, 4), (83, 4), (99, 4), (115, 4), (131, 5), (163, 5), (195, 5), (227, 5), (258, 0)]

/-- Base and extra bits of a distance symbol. -/
def distBase : List (Nat × Nat) :=
  [(1, 0), (2, 0), (3, 0), (4, 0)] ++ (List.range 26).map fun i => ((2 + i % 2) * 2 ^ (i / 2 + 1) + 1, i / 2 + 1)

/-- The bytes that a match of a length and a distance copies out of the output, which stands last byte first. -/
def copyMatch (out : List Nat) (len dist : Nat) : List Nat :=
  let piece := (out.take dist).reverse
  (List.range len).foldl (fun o i => piece.getD (i % dist) 0 :: o) out

/-- A value of a base and extra bits. -/
def extended (t : List (Nat × Nat)) (i : Nat) : BitReader Nat :=
  match t[i]? with
  | none => failure
  | some (b, n) => do pure (b + (← low n))

/-- The symbols of a block, to its end. -/
def blockData (lit dist : Huffman) : Nat → List Nat → BitReader (List Nat)
  | 0, _ => failure
  | fuel + 1, out => do
    let x ← lit.read
    if x < 256 then blockData lit dist fuel (x :: out)
    else if x = 256 then pure out
    else
      let len ← extended lengthBase (x - 257)
      let d ← extended distBase (← dist.read)
      need (decide (d ≤ out.length))
      blockData lit dist fuel (copyMatch out len d)

/-- Code lengths, n of them, run-length coded. -/
def codeLengths (h : Huffman) (n : Nat) : Nat → List Nat → BitReader (List Nat)
  | 0, _ => failure
  | fuel + 1, ls =>
    if n < ls.length then failure
    else if ls.length = n then pure ls
    else do
      let x ← h.read
      match x with
      | 16 =>
        need (ls != [])
        let k ← low 2
        codeLengths h n fuel (ls ++ List.replicate (3 + k) (ls.getLast?.getD 0))
      | 17 =>
        let k ← low 3
        codeLengths h n fuel (ls ++ List.replicate (3 + k) 0)
      | 18 =>
        let k ← low 7
        codeLengths h n fuel (ls ++ List.replicate (11 + k) 0)
      | _ => codeLengths h n fuel (ls ++ [x])

/-- The codes of a block, or a failure. -/
def codeOf (ls : List Nat) : BitReader Huffman :=
  match Huffman.ofLengths ls with
  | some h => pure h
  | none => failure

/-- The order of the lengths of the code of lengths. -/
def lengthOrder : List Nat := [16, 17, 18, 0, 8, 7, 9, 6, 10, 5, 11, 4, 12, 3, 13, 2, 14, 1, 15]

/-- The codes a dynamic block gives. -/
def dynamicCodes : BitReader (Huffman × Huffman) := do
  let nl := (← low 5) + 257
  let nd := (← low 5) + 1
  let nc := (← low 4) + 4
  let cs ← items (low 3) nc
  need (decide (nl ≤ 286 ∧ nd ≤ 30))
  let h ← codeOf ((List.range 19).map fun i => ((lengthOrder.zip cs).find? fun x => x.1 == i).elim 0 (·.2))
  let ls ← codeLengths h (nl + nd) (nl + nd + 1) []
  need (ls.getD 256 0 != 0)
  pure (← codeOf (ls.take nl), ← codeOf (ls.drop nl))

/-- The codes of a fixed block. -/
def fixedCodes : BitReader (Huffman × Huffman) := do
  let lit ← codeOf (List.replicate 144 8 ++ List.replicate 112 9 ++ List.replicate 24 7 ++ List.replicate 8 8)
  pure (lit, ← codeOf (List.replicate 32 5))

/-- The blocks of a stream, to the last; the output stands last byte first. -/
def blocks : Nat → List Nat → BitReader (List Nat)
  | 0, _ => failure
  | fuel + 1, out => do
    let last ← flag
    let kind ← low 2
    let out ← match kind with
      | 0 => do
        align
        let n ← low 16
        let m ← low 16
        need (n + m == 65535)
        let bs ← items (low 8) n
        pure (bs.reverse ++ out)
      | 1 => do
        let c ← fixedCodes
        blockData c.1 c.2 fuel out
      | 2 => do
        let c ← dynamicCodes
        blockData c.1 c.2 fuel out
      | _ => failure
    if last then pure out else blocks fuel out

/-- A zlib stream: its bytes, where its header and Adler-32 are right. -/
def zlib (bs : List Byte) : Option (List Nat) :=
  let read : BitReader (List Nat) := do
    let cmf ← low 8
    let flg ← low 8
    need (decide (cmf % 16 = 8 ∧ cmf / 16 ≤ 7 ∧ (256 * cmf + flg) % 31 = 0) && !flg.testBit 5)
    let out := (← blocks (8 * bs.length) []).reverse
    align
    let sum ← items (low 8) 4
    need (sum.foldl (fun a b => 256 * a + b) 0 == adler32 out)
    pure out
  (read { rest := bitsLow bs, pos := 0 }).map (·.1)

end Sys2Proof.Machine.Inflate
end

