-- ==== Sys2Proof/Machine/Png.lean ====
section
/-! DEFINITION. The decoder of PNG files (R367): ISO/IEC 15948. PRESUMED (log 62): the spec names the standard and does not print
it. -/
namespace Sys2Proof.Machine.Png

/-- A chunk: its type and data. -/
abbrev Chunk := List Byte × List Byte

/-- The chunks up to IEND, CRC checked; none where one breaks the format. -/
def chunks : Nat → List Byte → Option (List Chunk)
  | 0, _ => none
  | fuel + 1, bs =>
    let n := beNat (bs.take 4)
    let kind := (bs.drop 4).take 4
    let data := (bs.drop 8).take n
    if bs.length < 12 + n ∨ 2 ^ 31 ≤ n ∨ beNat ((bs.drop (8 + n)).take 4) ≠ crc32 (kind ++ data) then none
    else if kind = ascii "IEND" then (if n = 0 then some [] else none)
    else (chunks fuel (bs.drop (12 + n))).map fun l => (kind, data) :: l

/-- IHDR. -/
structure Header where
  w : Nat
  h : Nat
  depth : Nat
  kind : Nat
  interlace : Nat
  deriving DecidableEq, Repr

/-- Components of a pixel in the file. -/
def Header.comps (h : Header) : Nat :=
  match h.kind with
  | 2 => 3
  | 4 => 2
  | 6 => 4
  | _ => 1

/-- Bytes of a pixel in the file. -/
def Header.bytes (h : Header) : Nat := h.comps * h.depth / 8

/-- IHDR read; none where the standard has no such header. -/
def header (d : List Byte) : Option Header :=
  let x : Header := { w := beNat (d.take 4), h := beNat ((d.drop 4).take 4), depth := (d.getD 8 0).toNat, kind := (d.getD 9 0).toNat,
                      interlace := (d.getD 12 0).toNat }
  let depths : List Nat :=
    match x.kind with
    | 0 => [1, 2, 4, 8, 16]
    | 3 => [1, 2, 4, 8]
    | 2 | 4 | 6 => [8, 16]
    | _ => []
  if d.length = 13 ∧ 1 ≤ x.w ∧ 1 ≤ x.h ∧ x.w < 2 ^ 31 ∧ x.h < 2 ^ 31 ∧ x.depth ∈ depths ∧ (d.drop 10).take 2 = [0, 0] ∧ x.interlace ≤ 1 then
    some x
  else none

/-- The Paeth predictor. -/
def paeth (a b c : Nat) : Nat :=
  let p : Int := (a : Int) + b - c
  let pa := (p - a).natAbs
  let pb := (p - b).natAbs
  let pc := (p - c).natAbs
  if pa ≤ pb ∧ pa ≤ pc then a else if pb ≤ pc then b else c

/-- A row's bytes from its filtered ones, one by one: the row so far stands last byte first, the bytes of the row above with the
byte a pixel before each. -/
def unfilter (f bpp : Nat) : List Nat → List (Nat × Nat) → List Nat → List Nat
  | [], _, row => row.reverse
  | x :: xs, ups, row =>
    let a := row.getD (bpp - 1) 0
    let up := ups.headD (0, 0)
    let p :=
      match f with
      | 0 => 0
      | 1 => a
      | 2 => up.1
      | 3 => (a + up.1) / 2
      | _ => paeth a up.1 up.2
    unfilter f bpp xs (ups.drop 1) ((x + p) % 256 :: row)

/-- n rows of so many bytes; none where a filter is unknown or the data end early. -/
def rows (bpp bytes : Nat) : Nat → List Nat → List Nat → Option (List (List Nat) × List Nat)
  | 0, _, data => some ([], data)
  | n + 1, up, data =>
    match data with
    | [] => none
    | f :: rest =>
      if 4 < f ∨ rest.length < bytes then none
      else
        let row := unfilter f bpp (rest.take bytes) (up.zip (List.replicate bpp 0 ++ up)) []
        (rows bpp bytes n row (rest.drop bytes)).map fun r => (row :: r.1, r.2)

/-- Adam7: first column and row of a pass, and its steps. -/
def passes : List (Nat × Nat × Nat × Nat) :=
  [(0, 0, 8, 8), (4, 0, 8, 8), (0, 4, 4, 8), (2, 0, 4, 4), (0, 2, 2, 4), (1, 0, 2, 2), (0, 1, 1, 2)]

/-- The passes of a picture: Adam7, or the one pass of a picture that is not interlaced. -/
def Header.passes (x : Header) : List (Nat × Nat × Nat × Nat) := if x.interlace = 1 then Png.passes else [(0, 0, 1, 1)]

/-- The rows of each pass, with the pass. -/
def passRows (x : Header) : List (Nat × Nat × Nat × Nat) → List Nat → Option (List ((Nat × Nat × Nat × Nat) × List (List Nat)))
  | [], _ => some []
  | p :: ps, data =>
    let w := ceilDiv (x.w - p.1) p.2.2.1
    let h := ceilDiv (x.h - p.2.1) p.2.2.2
    if x.w ≤ p.1 ∨ x.h ≤ p.2.1 then (passRows x ps data).map fun l => (p, []) :: l
    else
      match rows x.bytes (w * x.bytes) h (List.replicate (w * x.bytes) 0) data with
      | none => none
      | some r => (passRows x ps r.2).map fun l => (p, r.1) :: l

/-- The pass that holds a pixel, and its place there. -/
def pixelRow (ps : List ((Nat × Nat × Nat × Nat) × List (List Nat))) (x y : Nat) : List Nat × Nat :=
  match ps.find? fun p => decide (p.1.1 ≤ x ∧ p.1.2.1 ≤ y ∧ (x - p.1.1) % p.1.2.2.1 = 0 ∧ (y - p.1.2.1) % p.1.2.2.2 = 0) with
  | some p => (p.2.getD ((y - p.1.2.1) / p.1.2.2.2) [], (x - p.1.1) / p.1.2.2.1)
  | none => ([], 0)

/-- A component of a pixel, as the file holds it. -/
def sampleAt (x : Header) (ps : List ((Nat × Nat × Nat × Nat) × List (List Nat))) (px py c : Nat) : Nat :=
  let r := pixelRow ps px py
  let o := (r.2 * x.comps + c) * (x.depth / 8)
  if x.depth = 8 then r.1.getD o 0 else 256 * r.1.getD o 0 + r.1.getD (o + 1) 0

/-- The planes of a picture, alpha dropped (R369); none where an index lies beyond the palette. -/
def planes (x : Header) (palette : List Byte) (ps : List ((Nat × Nat × Nat × Nat) × List (List Nat))) : Option (List Nat) :=
  let plane (c : Nat) : List Nat := (List.range x.h).flatMap fun y => (List.range x.w).map fun k => sampleAt x ps k y c
  match x.kind with
  | 0 | 4 => some (plane 0)
  | 3 =>
    let idx := plane 0
    if idx.all fun i => decide (3 * i < palette.length) then
      some ((List.range 3).flatMap fun c => idx.map fun i => (palette.getD (3 * i + c) 0).toNat)
    else none
  | _ => some ((List.range 3).flatMap plane)

/-- Types of chunks a decoder knows; one it does not know is passed over where its type is ancillary. -/
def known (k : List Byte) : Bool := k == ascii "IDAT" || k == ascii "PLTE" || (k.headD 0).getLsbD 5

/-- The IDAT chunks stand together. -/
def idatTogether (cs : List Chunk) : Bool :=
  let isIdat (c : Chunk) : Bool := c.1 == ascii "IDAT"
  (((cs.dropWhile fun c => !isIdat c).dropWhile isIdat).filter isIdat).isEmpty

/-- A PNG file's chunks after IHDR decoded. -/
def ofChunks (x : Header) (cs : List Chunk) : Option Media :=
  let palette := ((cs.find? fun c => c.1 == ascii "PLTE").elim [] (·.2))
  let idat := (cs.filter fun c => c.1 == ascii "IDAT").flatMap (·.2)
  if !idatTogether cs ∨ palette.length % 3 ≠ 0 ∨ 768 < palette.length then none
  else if x.depth < 8 ∨ !(cs.all fun c => known c.1) then some (Media.bad 2)
  else do
    let raw ← Inflate.zlib idat
    let ps ← passRows x x.passes raw
    let frame ← planes x palette ps
    let grey := x.kind = 0 ∨ x.kind = 4
    some { reason := 0, dims := [x.w, x.h, if grey then 1 else 3, x.depth, if grey then 0 else 1, 0], data := [frame] }

/-- A PNG file. -/
def decode (bs : List Byte) : Media :=
  Media.orSyntax do
    if bs.take 8 = [0x89, 0x50, 0x4E, 0x47, 0x0D, 0x0A, 0x1A, 0x0A] then
      match ← chunks bs.length (bs.drop 8) with
      | [] => none
      | c :: cs => if c.1 = ascii "IHDR" then ofChunks (← header c.2) cs else none
    else none

end Sys2Proof.Machine.Png
end

