-- ==== Sys2Proof/Machine/MediaMath.lean ====
section
/-! DEFINITION. The arithmetic of media preparation: resize kernels, colour matrices, the mel front end (R369, R371, R373).
The spec fixes the formulas and says 'in FP32', and does not give the order of the roundings: each value is the formula's,
within the error that the roundings of its operations can make, and where in that error is free (DESIGN CHOICE, log 19). -/
namespace Sys2Proof.Machine

/-- A value that a formula defines, and the sum of the magnitudes of the terms it adds. -/
abbrev Formula := Val × Val

/-- A given value. -/
def Formula.given (v : Val) : Formula := (v, v.abs)

/-- Σ wᵢ × xᵢ ÷ d, with integer weights. -/
def Formula.sum (l : List (Int × Formula)) (d : Int) : Formula :=
  let total (g : Int × Formula → Val) : Val := l.foldl (fun a p => (Val.add a (g p)).1) Val.zero
  ((Val.div (total fun p => (Val.mul (Val.ofInt p.1) p.2.1).1) (Val.ofInt d)).1,
   (Val.div (total fun p => (Val.mul (Val.ofInt p.1.natAbs) p.2.2).1) (Val.ofInt d.natAbs)).1)

/-- A formula's value with the error of n FP32 roundings, each at most 2^-23 of the magnitudes added: where in it is free. -/
def mediaValue (step n : Nat) (key : List Nat) (f : Formula) : Val :=
  let k := max (-(2 : Int) ^ 24) (min ((2 : Int) ^ 24) (Config.mediaOffset step key))
  match f.1, f.2 with
  | .fin .., .fin _ m e => (Val.add f.1 (Val.mul (Val.ofInt ((n : Int) * k)) (.fin false m (e - 47))).1).1
  | _, _ => f.1

/-- A value computed in FP32 by n roundings whose order is not given. -/
def mediaRound (step n : Nat) (key : List Nat) (f : Formula) : F32 :=
  if f.1.isNan then qnan else (rn32 (mediaValue step n key f)).1

/-! ## Trigonometry in fixed point -/

/-- π × 2^256, rounded down. -/
def piFix : Int := 0x3243F6A8885A308D313198A2E03707344A4093822299F31D0082EFA98EC4E6C89

/-- The Taylor sum of cos (from index 0) or sin (from index 1): terms left, index, term, sum so far. -/
def trigTaylor (x2 : Int) : Nat → Nat → Int → Int → Int
  | 0, _, _, acc => acc
  | n + 1, i, t, acc =>
    let t' := -(t * x2) / ((2 : Int) ^ fixP * (((i + 1) * (i + 2) : Nat) : Int))
    trigTaylor x2 n (i + 2) t' (acc + t')

/-- cos(2πa ÷ n) in fixed point. -/
def cosTurn (a n : Nat) : Int :=
  let x := 2 * piFix * ((a % n : Nat) : Int) / (n : Int)
  trigTaylor (x * x / (2 : Int) ^ fixP) 60 0 ((2 : Int) ^ fixP) ((2 : Int) ^ fixP)

/-- sin(2πa ÷ n) in fixed point. -/
def sinTurn (a n : Nat) : Int :=
  let x := 2 * piFix * ((a % n : Nat) : Int) / (n : Int)
  trigTaylor (x * x / (2 : Int) ^ fixP) 60 1 x x

/-! ## Resize kernels (R371) -/

/-- sinc of m ÷ d in fixed point. -/
def sincFix (m d : Nat) : Int :=
  if m = 0 then 2 ^ fixP else sinTurn m (2 * d) * (2 : Int) ^ fixP * (d : Int) / (piFix * (m : Int))

/-- R371: a kernel at distance m ÷ d, up to a factor that is the same at every distance: triangular, Keys cubic with a = −0.5,
or the sinc with 3 lobes. -/
def kernelAt (filter m d : Nat) : Int :=
  let m' : Int := m
  let d' : Int := d
  match filter with
  | 0 => if m < d then d' - m' else 0
  | 1 =>
    if m < d then 3 * m' ^ 3 - 5 * m' ^ 2 * d' + 2 * d' ^ 3
    else if m < 2 * d then -m' ^ 3 + 5 * m' ^ 2 * d' - 8 * m' * d' ^ 2 + 4 * d' ^ 3
    else 0
  | _ => if m < 3 * d then sincFix m d * sincFix m (3 * d) / (2 : Int) ^ fixP else 0

/-- The kernel's reach, in units of its width. -/
def kernelLobes (filter : Nat) : Nat := min 2 filter + 1

/-- R371: the taps of output x of `out` over n pixels: weight and pixel, the nearest edge pixel beyond the line. A kernel is
widened where n is larger. -/
def resizeTaps (filter n out x : Nat) : List (Int × Nat) :=
  let d := 2 * max n out
  let c : Int := ((2 * x + 1) * n : Nat) - (out : Int)
  let reach := kernelLobes filter * ceilDiv (max n out) out
  ((List.range (2 * reach + 2)).map fun (j : Nat) =>
    let i : Int := c / (2 * (out : Int)) - (reach : Int) + (j : Int)
    (kernelAt filter (c - 2 * (out : Int) * i).natAbs d, (max 0 (min ((n : Int) - 1) i)).toNat)).filter fun t => t.1 != 0

/-- R371: one filtered line: output x of `out` over the pixels of a line, with weights normalised to sum 1; the error of a
weight is one of the largest. At equal sizes every kernel takes the pixel itself. -/
def resizeLine (filter out : Nat) (l : List F32) (x : Nat) : F32 :=
  let n := l.length
  if n = out then l.getD x 0
  else
    let taps := resizeTaps filter n out x
    let px (t : Int × Nat) : Val := val32 (l.getD t.2 0)
    let all := (taps.map (·.1)).sum
    let top : Int := ((taps.map fun t => t.1.natAbs).foldl max 0 : Nat)
    let v := (Formula.sum (taps.map fun t => (t.1, Formula.given (px t))) all).1
    let mag := (Formula.sum (taps.map fun t => ((t.1.natAbs : Int) + top, Formula.given (px t))) all).2
    mediaRound 0 (4 * taps.length + 16) ([filter, n, out, x] ++ taps.map fun t => (l.getD t.2 0).toNat) (v, mag)

/-- R371: a plane of w × h resized: rows, then columns. -/
def resizePlane (filter w h w' h' : Nat) (px : List F32) : List F32 :=
  let rows := (List.range h).map fun y => (List.range w').map (resizeLine filter w' ((px.drop (y * w)).take w))
  let cols := (List.range w').map fun x => rows.map fun r => r.getD x 0
  (List.range h').flatMap fun y => cols.map fun c => resizeLine filter h' c y

/-! ## Colour (R369) -/

/-- R369: Kr and Kb of BT.601 and BT.709, in ten-thousandths (PRESUMED, log 19: the standards the rule names). -/
def lumaWeights (bt709 : Bool) : Int × Int := if bt709 then (2126, 722) else (2990, 1140)

/-- R369 step 2: R′, G′ or B′ from Y′, Cb and Cr, the chroma about zero. -/
def fromYcc (bt709 : Bool) (c : Nat) (y cb cr : Formula) : Formula :=
  let k := lumaWeights bt709
  let kg := 10000 - k.1 - k.2
  match c with
  | 0 => Formula.sum [(10000, y), (2 * (10000 - k.1), cr)] 10000
  | 1 => Formula.sum [(10000 * kg, y), (-(2 * k.1 * (10000 - k.1)), cr), (-(2 * k.2 * (10000 - k.2)), cb)] (10000 * kg)
  | _ => Formula.sum [(10000, y), (2 * (10000 - k.2), cb)] 10000

/-- R369: Y′ of an RGB pixel. -/
def lumaOf (bt709 : Bool) (r g b : Formula) : Formula :=
  let k := lumaWeights bt709
  Formula.sum [(k.1, r), (10000 - k.1 - k.2, g), (k.2, b)] 10000

/-! ## The mel front end (R373 step 6) -/

/-- Sample n of a window of N: periodic Hann or Hamming, in fixed point. -/
def windowAt (hamming : Bool) (n size : Nat) : Int :=
  let c := cosTurn n size
  if hamming then (54 * (2 : Int) ^ fixP - 46 * c) / 100 else ((2 : Int) ^ fixP - c) / 2

/-- |X_k|² of windowed samples. -/
def powerAt (xs : List Val) (k : Nat) : Val :=
  let n := xs.length
  let part (f : Nat → Nat → Int) : Val :=
    (xs.zipIdx).foldl (fun a (x, i) => (Val.add a (Val.mul (ofFix (f (k * i) n)) x).1).1) Val.zero
  let re := part cosTurn
  let im := part sinTurn
  (Val.add (Val.mul re re).1 (Val.mul im im).1).1

/-- ln(1 + f ÷ 700) in fixed point. -/
def melLog (f : Val) : Int :=
  match (Val.add (Val.ofInt 700) f).1 with
  | .fin _ m e => lnFix m e - lnFix 700 0
  | _ => 0

/-- R373: the frequency of point j of MEL + 2, equally spaced in mel(f) from F_MIN to F_MAX, in fixed point. -/
def melPoint (fmin fmax : Val) (bands j : Nat) : Int :=
  let a := melLog fmin
  let b := melLog fmax
  let r := expFix (a + (b - a) * (j : Int) / ((bands : Int) + 1))
  700 * (toFix (.fin false r.1 r.2) - (2 : Int) ^ fixP)

/-- R373: the weight of a frequency in a triangular filter that peaks at 1. -/
def melWeight (lo mid hi f : Int) : Int :=
  let one : Int := (2 : Int) ^ fixP
  let up := if lo < mid then (f - lo) * one / (mid - lo) else 0
  let down := if mid < hi then (hi - f) * one / (hi - mid) else 0
  max 0 (min up down)

/-- R373: ln(max(e, LOG_FLOOR)) of a band of one frame; the roundings of e are those of the window, the transform, the powers and
the filter. `pts` are the band's three points, `rate` is RATE_OUT. -/
def melBand (hamming : Bool) (rate : Nat) (pts : Int × Int × Int) (floorV : Val) (key : List Nat) (win : List F32) : F32 :=
  let n := win.length
  let xs := (win.zipIdx).map fun (x, i) => (Val.mul (ofFix (windowAt hamming i n)) (val32 x)).1
  let band (power : Nat → Val) : Val := (List.range (n / 2 + 1)).foldl (fun acc k =>
    let w := melWeight pts.1 pts.2.1 pts.2.2 ((k * rate : Nat) * (2 : Int) ^ fixP / (n : Int))
    if w = 0 then acc else (Val.add acc (Val.mul (ofFix w) (power k)).1).1) Val.zero
  let size := xs.foldl (fun a x => (Val.add a x.abs).1) Val.zero
  let e := mediaValue 1 (4 * n + 16) (key ++ win.map (·.toNat)) (band (powerAt xs), band fun _ => (Val.mul size size).1)
  let m := if e.isNan then e else if Val.lt e floorV then floorV else e
  let l := match m with
    | .fin _ q x => ofFix (lnFix q x)
    | v => v
  mediaRound 5 2 (key ++ win.map (·.toNat)) (Formula.given l)

end Sys2Proof.Machine
end

