-- ==== Sys2Proof/Machine/TanneryRead.lean ====
section
/-! DEFINITION. The Tannery's records, the shuffle, and the tokenizer (R363 to R365, R374 to R381). -/
namespace Sys2Proof.Machine

/-! ## The stream record (R363) -/

namespace Stream

/-- STREAM. -/
def no (r : Nat) : Nat := fld r 5 0
/-- KIND. -/
def kind (r : Nat) : Nat := fld r 7 6
/-- CORRUPT_POLICY: 0 SUBSTITUTE, 1 SHORTEN, 2 FAIL. -/
def corruptPolicy (r : Nat) : Nat := fld r 9 8
/-- SLOW_POLICY: 0 DEFER, 1 SUBSTITUTE, 2 WAIT. -/
def slowPolicy (r : Nat) : Nat := fld r 11 10
/-- DEFER_MAX. -/
def deferMax (r : Nat) : Nat := fld r 15 12
/-- Batch size B. -/
def batchSize (r : Nat) : Nat := fld r 27 16 + 1
/-- QUEUE_SLOTS. -/
def slots (r : Nat) : Nat := fld r 34 28
/-- CONTEXT. -/
def ctx (r : Nat) : Nat := fld r 50 41
/-- TABLE_ADDR. -/
def table (r : Nat) : Nat := fld r 169 128
/-- QUEUE_ADDR. -/
def queue (r : Nat) : Nat := fld r 233 192
/-- PARAM_ADDR. -/
def paramAddr (r : Nat) : Nat := fld r 297 256
/-- SLOT_BYTES. -/
def slotBytes (r : Nat) : Nat := fld r 351 320
/-- N. -/
def entries (r : Nat) : Nat := fld r 383 352
/-- Reserve size R, with its default. -/
def reserve (r : Nat) : Nat := if fld r 415 384 = 0xFFFFFFFF then ceilDiv (entries r) 100 else fld r 415 384
/-- EPOCHS. -/
def epochs (r : Nat) : Nat := fld r 447 416
/-- FIRST_EPOCH. -/
def firstEpoch (r : Nat) : Nat := fld r 479 448
/-- SEED. -/
def seed (r : Nat) : Nat := fld r 575 512
/-- R380: batches of an epoch. -/
def perEpoch (r : Nat) : Nat := (entries r - reserve r) / batchSize r
/-- R380: epoch of batch k. -/
def epochOf (r k : Nat) : Nat := (firstEpoch r + k / perEpoch r) % 2 ^ 32
/-- R380: first main position of batch k. -/
def firstPos (r k : Nat) : Nat := k % perEpoch r * batchSize r
/-- The record's reserved fields and closed ranges. -/
def recordOk (r : Nat) : Bool :=
  rsvClear r [(1023, 576), (511, 480), (319, 298), (255, 234), (191, 170), (127, 115), (63, 51)] &&
    decide (corruptPolicy r ≤ 2 ∧ slowPolicy r ≤ 2 ∧ 2 ≤ slots r ∧ slots r ≤ 64 ∧ 1 ≤ entries r) &&
    decide (slotBytes r % 4096 = 0 ∧ queue r % 4096 = 0 ∧ table r % 32 = 0 ∧ paramAddr r % 64 = 0) &&
    decide (reserve r < entries r ∧ perEpoch r ≠ 0 ∧ fld r 40 35 < slots r)

end Stream

/-! ## The shuffle (R378 to R381) -/

/-- R378: the 56 bytes of K for an epoch. -/
def epochKey (r e : Nat) : List Byte :=
  Keccak.shake256 (leBytes 8 (Stream.seed r) ++ leBytes 4 e ++ [BitVec.ofNat 8 (Stream.no r)]) 56

/-- Round key i, and k_aug as number 6. -/
def epochWord (key : List Byte) (i : Nat) : Nat := leNat ((key.drop (8 * i)).take 8)

/-- R379, R381: the three mixing lines of f, mod 2^64. DEDUCED (log 35) that these, and not the reduction that follows
them, are the mix of R381, whose bits 63 to 40 are used. -/
def mix64 (z : Nat) : Nat :=
  let z := z % 2 ^ 64
  let z := ((z ^^^ (z >>> 30)) * 0xBF58476D1CE4E5B9) % 2 ^ 64
  let z := ((z ^^^ (z >>> 27)) * 0x94D049BB133111EB) % 2 ^ 64
  z ^^^ (z >>> 31)

/-- R379: h, half of the even b ≥ 2 with 2^b ≥ N. -/
def feistelHalf (n : Nat) : Nat := max 1 ((ceilLog2 n + 1) / 2)

/-- R379: feistel over six rounds. -/
def feistel (ks : List Nat) (h x : Nat) : Nat :=
  let p := ks.foldl (fun (p : Nat × Nat) k => (p.2, p.1 ^^^ (mix64 (k + p.2) % 2 ^ h))) (x >>> h, x % 2 ^ h)
  p.1 * 2 ^ h + p.2

/-- R379: cycle walking, with the size of the domain as fuel. -/
def walk (ks : List Nat) (h n : Nat) : Nat → Nat → Nat
  | 0, y => y
  | fuel + 1, y => if y < n then y else walk ks h n fuel (feistel ks h y)

/-- R379: the table index at a position of an epoch. -/
def permAt (key : List Byte) (n j : Nat) : Nat :=
  let h := feistelHalf n
  let ks := (List.range 6).map (epochWord key)
  walk ks h n (2 ^ (2 * h)) (feistel ks h j)

/-- R381: the random bits of a sample in a batch's epoch. -/
def choices (r e index : Nat) : Nat := mix64 (epochWord (epochKey r e) 6 + index)

/-! ## Text (R375, R376) -/

namespace TextP

/-- BOS_EN. -/
def bosEn (p : Nat) : Bool := bit p 0
/-- EOS_EN. -/
def eosEn (p : Nat) : Bool := bit p 1
/-- SEQ_LEN. -/
def seqLen (p : Nat) : Nat := fld p 63 32
/-- MERGE_COUNT. -/
def mergeCount (p : Nat) : Nat := fld p 191 160
/-- MERGE_ADDR. -/
def mergeAddr (p : Nat) : Nat := fld p 233 192
/-- R376: the block's own ranges. -/
def ok (p : Nat) : Bool :=
  rsvClear p [(511, 234), (31, 2)] && decide (1 ≤ seqLen p ∧ seqLen p ≤ 65536 ∧ mergeCount p ≤ 261888 ∧ mergeAddr p % 8 = 0)

end TextP

/-- Is a byte a UTF-8 continuation byte in a range? -/
def inByte (lo hi : Nat) (b : Byte) : Bool := decide (lo ≤ b.toNat ∧ b.toNat ≤ hi)

/-- RFC 3629: bytes that form valid UTF-8; the length is the fuel. -/
def utf8Ok : Nat → List Byte → Bool
  | _, [] => true
  | 0, _ => false
  | fuel + 1, a :: r =>
    if inByte 0 0x7F a then utf8Ok fuel r
    else
      match r with
      | [] => false
      | b :: r =>
        if inByte 0xC2 0xDF a then inByte 0x80 0xBF b && utf8Ok fuel r
        else
          match r with
          | [] => false
          | c :: r =>
            if inByte 0xE0 0xEF a then
              let lo := if a.toNat = 0xE0 then 0xA0 else 0x80
              let hi := if a.toNat = 0xED then 0x9F else 0xBF
              inByte lo hi b && inByte 0x80 0xBF c && utf8Ok fuel r
            else
              match r with
              | [] => false
              | d :: r =>
                let lo := if a.toNat = 0xF0 then 0x90 else 0x80
                let hi := if a.toNat = 0xF4 then 0x8F else 0xBF
                inByte 0xF0 0xF4 a && inByte lo hi b && inByte 0x80 0xBF c && inByte 0x80 0xBF d && utf8Ok fuel r

/-- R375: split into pieces: a piece begins at each 0x20, and each 0x0A stands alone. -/
def textPieces : List Byte → List (List Nat)
  | [] => []
  | a :: r =>
    match r with
    | [] => [[a.toNat]]
    | b :: _ =>
      if a.toNat = 0x0A ∨ b.toNat = 0x0A ∨ b.toNat = 0x20 then [a.toNat] :: textPieces r
      else
        match textPieces r with
        | p :: ps => (a.toNat :: p) :: ps
        | [] => [[a.toNat]]

/-- The rank of a pair. -/
def rankOf (merges : List (Nat × Nat)) (x y : Nat) : Option Nat := merges.findIdx? fun m => m.1 == x && m.2 == y

/-- The lowest rank of a pair that stands adjacent. -/
def lowestRank (merges : List (Nat × Nat)) : List Nat → Option Nat
  | x :: y :: r =>
    match rankOf merges x y, lowestRank merges (y :: r) with
    | some a, some b => some (min a b)
    | some a, none => some a
    | none, o => o
  | _ => none

/-- Replace the leftmost occurrence of a pair by a token. -/
def mergeOnce (m : Nat × Nat) (t : Nat) : List Nat → List Nat
  | x :: y :: r => if x = m.1 ∧ y = m.2 then t :: r else x :: mergeOnce m t (y :: r)
  | l => l

/-- R375: apply merges until none applies; the number of tokens is the fuel. -/
def bpe (merges : List (Nat × Nat)) : Nat → List Nat → List Nat
  | 0, l => l
  | fuel + 1, l =>
    match lowestRank merges l with
    | none => l
    | some r => bpe merges fuel (mergeOnce (merges.getD r (0, 0)) (256 + r) l)

/-- R375: the tokens of a row before filling. -/
def textTokens (p : Nat) (merges : List (Nat × Nat)) (bs : List Byte) : List Nat :=
  let toks := (textPieces bs).flatMap fun l => bpe merges l.length l
  let row := (if TextP.bosEn p then [fld p 95 64] else []) ++ toks ++ (if TextP.eosEn p then [fld p 127 96] else [])
  row.take (TextP.seqLen p)

/-- R375: the row's bytes. -/
def textRow (p : Nat) (toks : List Nat) : List Byte :=
  (toks ++ List.replicate (TextP.seqLen p - toks.length) (fld p 159 128)).flatMap (leBytes 4)

/-- R376: the merge table, when it lies well and each record is legal. -/
def mergeTable (s : State) (p : Nat) : Option (List (Nat × Nat)) :=
  let n := TextP.mergeCount p
  let a := TextP.mergeAddr p
  let k := max 1 (8 * n)
  if !s.rangeOk a k ∨ inSp a k ∨ (n ≠ 0 ∧ s.poisonIn a k) then none
  else
    let ms := (List.range n).map fun r => (s.rd (a + 8 * r) 4, s.rd (a + 8 * r + 4) 4)
    if (ms.zipIdx).all fun (m, r) => decide (m.1 < 256 + r ∧ m.2 < 256 + r) then some ms else none

end Sys2Proof.Machine
end

