-- ==== Sys2Proof/Machine/TanneryMedia.lean ====
section
/-! DEFINITION. Images, video and sound in the Tannery (R369 to R374, R377). -/
namespace Sys2Proof.Machine

/-- R370, R374: the formats a stream may write. -/
def mediaFmt (p : Nat) : Bool := decide (fld p 3 0 ≤ 4)

/-- Is an FP32 word finite? -/
def finiteWord (w : Nat) : Bool := decide (fld w 30 23 ≠ 255)

/-! ## Pictures -/

namespace ImgP

/-- LEVELS. -/
def levels (p : Nat) : Nat := fld p 13 11 + 1
/-- OUT_W. -/
def outW (p : Nat) : Nat := fld p 47 32
/-- OUT_H. -/
def outH (p : Nat) : Nat := fld p 63 48
/-- Frames per clip. -/
def frames (p : Nat) : Nat := fld p 87 82 + 1
/-- Frame step. -/
def frameStep (p : Nat) : Nat := fld p 91 88 + 1
/-- Output channels. -/
def chans (p : Nat) : Nat := if bit p 6 then 1 else 3
/-- Channel word c of MEAN. -/
def mean (p c : Nat) : F32 := BitVec.ofNat 32 (fld p (127 + 32 * c) (96 + 32 * c))
/-- Channel word c of RSTD. -/
def rstd (p c : Nat) : F32 := BitVec.ofNat 32 (fld p (223 + 32 * c) (192 + 32 * c))

/-- R370. -/
def ok (p : Nat) : Bool :=
  rsvClear p [(511, 448), (95, 92), (31, 25)] && mediaFmt p &&
    decide (1 ≤ fld p 81 73 ∧ fld p 81 73 ≤ 256 ∧ 1 ≤ fld p 72 64 ∧ fld p 72 64 ≤ 256) &&
    decide (1 ≤ outW p ∧ outW p ≤ 4096 ∧ 1 ≤ outH p ∧ outH p ≤ 4096 ∧ fld p 24 16 ≤ 256) &&
    decide (fld p 15 14 ≤ 2 ∧ levels p ≤ 6 ∧ fld p 10 9 ≤ 2 ∧ fld p 8 7 ≤ 2) &&
    (List.range 3).all fun c => finiteWord (mean p c).toNat && finiteWord (rstd p c).toNat

/-- R371: a side of level l under a ratio. -/
def side (p n l : Nat) : Nat :=
  if fld p 15 14 = 0 then max 1 ((2 * n + 2 ^ l) / 2 ^ (l + 1)) else max 1 ((isqrt (4 * n * n / 2 ^ l) + 1) / 2)

/-- R371: width and height of level l. -/
def level (p l : Nat) : Nat × Nat :=
  if l = 0 then (outW p, outH p)
  else if fld p 15 14 = 2 then (fld p (288 + 32 * (l - 1) + 15) (288 + 32 * (l - 1)), fld p (288 + 32 * (l - 1) + 31) (288 + 32 * (l - 1) + 16))
  else (side p (outW p) l, side p (outH p) l)

/-- R377: bytes of one image at level l. -/
def imageBytes (p l : Nat) : Nat :=
  let d := level p l
  d.1 * d.2 * (if bit p 4 then chans p else 32) * (fmtOf (fld p 3 0)).bytes

end ImgP

/-- A picture in FP32: width, height, and per channel its pixels row by row. -/
structure Pic where
  w : Nat
  h : Nat
  chans : List (List F32)
  deriving DecidableEq, Repr

/-- The FP32 word of an integer. -/
def wholeF32 (n : Nat) : F32 := (rn32 (Val.ofInt n)).1

/-! What the decoder gives of a frame: its planes one after another. `dims` are width, height, components, depth, kind of components
(0 grey, 1 RGB, 2 YCbCr in full range, 3 YCbCr in video range) and chroma subsampling (0 none, 1 horizontal, 2 both ways). -/

/-- Width and height of the chroma planes. -/
def chromaSize (dims : List Nat) : Nat × Nat :=
  let w := dims.getD 0 0
  let h := dims.getD 1 0
  match dims.getD 5 0 with
  | 0 => (w, h)
  | 1 => (ceilDiv w 2, h)
  | _ => (ceilDiv w 2, ceilDiv h 2)

/-- R369 step 2: sample of chroma plane k (0 Cb, 1 Cr) at a pixel, upsampled with centred siting. -/
def chromaVal (dims frame : List Nat) (k x y : Nat) : Val :=
  let q := chromaSize dims
  let plane := (frame.drop (dims.getD 0 0 * dims.getD 1 0 + k * (q.1 * q.2))).take (q.1 * q.2)
  let ss := dims.getD 5 0
  if ss = 0 then Val.ofInt (plane.getD (y * q.1 + x) 0)
  else val32 (Config.chromaAt plane q.1 q.2 (2 * (x : Int) - 1) (if ss = 1 then 4 * (y : Int) else 2 * (y : Int) - 1))

/-- R369 steps 1 and 2: channel c of a pixel; with GREY its one channel. Video range is brought to full range. -/
def colourAt (p : Nat) (dims frame : List Nat) (x y c : Nat) : F32 :=
  let w := dims.getD 0 0
  let plane := w * dims.getD 1 0
  let comp (k : Nat) : Nat := frame.getD (k * plane + y * w + x) 0
  let d := dims.getD 3 8
  let kind := dims.getD 4 1
  let key := [kind, d, x, y, c] ++ dims ++ frame
  let whole (n : Int) : Formula := Formula.given (Val.ofInt n)
  match kind with
  | 0 => wholeF32 (comp 0)
  | 1 =>
    if bit p 6 then mediaRound 2 8 (p :: key) (lumaOf (bit p 5) (whole (comp 0)) (whole (comp 1)) (whole (comp 2)))
    else wholeF32 (comp c)
  | _ =>
    let full := kind = 2
    let top : Int := (2 : Int) ^ d - 1
    let unit : Int := (2 : Int) ^ (d - 8)
    let luma : Formula :=
      if full then whole (comp 0) else Formula.sum [(top, whole (comp 0)), (-16 * unit * top, whole 1)] (219 * unit)
    let chroma (k : Nat) : Formula :=
      let v := Formula.sum [(1, Formula.given (chromaVal dims frame k x y)), (-(2 : Int) ^ (d - 1), whole 1)] 1
      if full then v else Formula.sum [(top, v)] (224 * unit)
    if bit p 6 then (if full then wholeF32 (comp 0) else mediaRound 2 8 (p :: key) luma)
    else mediaRound 2 16 (p :: key) (fromYcc (bit p 5) c luma (chroma 0) (chroma 1))

/-- R371: the crop of an image of w × h: x0, y0, cw, ch. -/
def cropOf (p a w h : Nat) : Nat × Nat × Nat × Nat :=
  let cw := max 1 (w * fld p 72 64 / 256)
  let ch := max 1 (h * fld p 81 73 / 256)
  match fld p 10 9 with
  | 0 => (0, 0, w, h)
  | 1 => ((w - cw) / 2, (h - ch) / 2, cw, ch)
  | _ => (((w - cw + 1) * fld a 15 0) >>> 16, ((h - ch + 1) * fld a 31 16) >>> 16, cw, ch)

/-- R369 steps 1 to 4: the cropped and flipped picture of a frame. -/
def croppedPic (p a : Nat) (dims frame : List Nat) : Pic :=
  let w := dims.getD 0 0
  let q := cropOf p a w (dims.getD 1 0)
  let flip := decide (fld a 39 32 < fld p 24 16)
  { w := q.2.2.1, h := q.2.2.2
    chans := (List.range (ImgP.chans p)).map fun c =>
      (List.range q.2.2.2).flatMap fun y => (List.range q.2.2.1).map fun x =>
        let xs := q.1 + (if flip then q.2.2.1 - 1 - x else x)
        colourAt p dims frame xs (q.2.1 + y) c }

/-- R371: resize a picture. -/
def resizePic (p : Nat) (g : Pic) (w h : Nat) : Pic :=
  { w := w, h := h, chans := g.chans.map (resizePlane (fld p 8 7) g.w g.h w h) }

/-- R371: the levels, each from the one before. -/
def pyramid (p : Nat) : Nat → Nat → Pic → List Pic
  | 0, _, _ => []
  | n + 1, l, g =>
    let d := ImgP.level p l
    let r := resizePic p g d.1 d.2
    r :: pyramid p n (l + 1) r

/-- The bytes of a value converted under RNE with SAT = 1 (R75, R76). -/
def mediaBytes (p : Nat) (x : F32) : List Byte :=
  let f := fmtOf (fld p 3 0)
  leBytes f.bytes (convert f { Numctl.plainRne with sat := true } 0 (val32 x)).1

/-- R369 step 7. -/
def normPixel (p depth c : Nat) (x : F32) : F32 :=
  (fmul (fsub (fdiv x (wholeF32 (2 ^ depth - 1))).1 (ImgP.mean p c)).1 (ImgP.rstd p c)).1

/-- R194, R377: the bytes of one level of one image. -/
def picBytes (p depth : Nat) (g : Pic) : List Byte :=
  let chans := (g.chans.zipIdx).map fun (ch, c) => ch.map (normPixel p depth c)
  (List.range (g.w * g.h)).flatMap fun i =>
    let px := chans.flatMap fun ch => mediaBytes p (ch.getD i 0)
    if bit p 4 then px else px ++ List.replicate (32 * (fmtOf (fld p 3 0)).bytes - px.length) 0

/-- The tensors of an image or clip, level by level (R369, R372). -/
def picTensors (p a : Nat) (dims : List Nat) (data : List (List Nat)) : List (List Byte) :=
  let pics := data.map fun fr => pyramid p (ImgP.levels p) 0 (croppedPic p a dims fr)
  (List.range (ImgP.levels p)).map fun l =>
    pics.flatMap fun ls => picBytes p (dims.getD 3 8) (ls.getD l { w := 0, h := 0, chans := [] })

/-! ## Sound -/

namespace AudP

/-- OUTPUT: MEL. -/
def mel (p : Nat) : Bool := !bit p 4
/-- MONO. -/
def mono (p : Nat) : Bool := bit p 7
/-- N_FFT. -/
def fft (p : Nat) : Nat := 2 ^ fld p 11 8
/-- HOP. -/
def hop (p : Nat) : Nat := fld p 23 12 + 1
/-- MEL bands. -/
def bands (p : Nat) : Nat := fld p 31 24 + 1
/-- RATE_OUT. -/
def rate (p : Nat) : Nat := fld p 63 32
/-- CLIP_SAMPLES. -/
def clip (p : Nat) : Nat := fld p 95 64
/-- Channels of a WAVE output. -/
def chans (p : Nat) : Nat := if mono p then 1 else fld p 194 192 + 1
/-- Frames F. -/
def frames (p : Nat) : Nat := 1 + (clip p - fft p) / hop p

/-- R374. -/
def ok (p : Nat) : Bool :=
  let v (hi lo : Nat) : Val := val32 (BitVec.ofNat 32 (fld p hi lo))
  rsvClear p [(511, 195)] && mediaFmt p && decide (1 ≤ clip p ∧ clip p ≤ 2 ^ 24 ∧ 8000 ≤ rate p ∧ rate p ≤ 48000) &&
    decide (6 ≤ fld p 11 8 ∧ fld p 11 8 ≤ 12) && (!mel p || (mono p && decide (fft p ≤ clip p))) &&
    finiteWord (fld p 127 96) && finiteWord (fld p 159 128) && !Val.lt (v 127 96) Val.zero && Val.lt (v 127 96) (v 159 128) &&
    !Val.lt (.fin false (rate p) (-1)) (v 159 128) && finiteWord (fld p 191 160) && Val.lt Val.zero (v 191 160)

end AudP

/-- R373 step 1: a decoded sample: an integer of some bits scaled, or (0 bits) an FP32 word. -/
def soundSample (bits w : Nat) : F32 :=
  if bits = 0 then BitVec.ofNat 32 w
  else
    let v := sfld w (bits - 1) 0
    (rn32 (.fin (decide (v < 0)) v.natAbs (1 - (bits : Int)))).1

/-- R373 step 2: the mean of one sample of every channel. -/
def soundMean (xs : List F32) : F32 :=
  if xs.length ≤ 1 then xs.getD 0 0
  else mediaRound 3 (xs.length + 2) (xs.map (·.toNat)) (Formula.sum (xs.map fun x => (1, Formula.given (val32 x))) xs.length)

/-- R373 steps 1 and 2. `dims` are the rate and the bits of a sample. -/
def soundChannels (p : Nat) (dims : List Nat) (data : List (List Nat)) : List (List F32) :=
  let ch := data.map fun l => l.map (soundSample (dims.getD 1 0))
  let n := (ch.getD 0 []).length
  if AudP.mono p then [(List.range n).map fun i => soundMean (ch.map fun l => l.getD i 0)]
  else (List.range (AudP.chans p)).map fun c => ch.getD c (List.replicate n 0)

/-- R373 step 3: samples at RATE_OUT, each the sum of 32 taps of its phase about its place (DEDUCED, log 19: 15 samples before
the one at or before its place to 16 after it); at an equal rate there is nothing to resample. -/
def soundResampled (p rate : Nat) (l : List F32) : List F32 :=
  let out := AudP.rate p
  if rate = out then l
  else (List.range (Config.resampledLength l.length rate out)).map fun i =>
    let taps := (List.range 32).map fun (t : Nat) =>
      let j : Int := (i * rate / out : Nat) - 15 + (t : Int)
      (val32 (Config.sincTap rate out (i * rate % out) t), if j < 0 then (0 : F32) else l.getD j.toNat 0)
    mediaRound 4 64 ([rate, out, i * rate % out] ++ taps.map fun t => t.2.toNat)
      (Formula.sum (taps.map fun t => (1, Formula.given (Val.mul t.1 (val32 t.2)).1)) 1)

/-- R373 step 6: band b of a frame's samples. -/
def AudP.melBand (p b : Nat) (win : List F32) : F32 :=
  let v (hi lo : Nat) : Val := val32 (BitVec.ofNat 32 (fld p hi lo))
  let pt (j : Nat) : Int := melPoint (v 127 96) (v 159 128) (AudP.bands p) j
  Machine.melBand (bit p 5) (AudP.rate p) (pt b, pt (b + 1), pt (b + 2)) (v 191 160) [p, b] win

/-- R373 step 4: offset in a sound of n samples. -/
def clipOffset (p a n : Nat) : Nat :=
  if bit p 6 ∧ AudP.clip p < n then ((n - AudP.clip p + 1) * fld a 63 40) >>> 24 else 0

/-- R373: the tensor of a sound and its LENGTH. -/
def soundTensor (p a : Nat) (dims : List Nat) (data : List (List Nat)) : List Byte × Nat :=
  let chs := (soundChannels p dims data).map (soundResampled p (dims.getD 0 0))
  let n := (chs.getD 0 []).length
  let o := clipOffset p a n
  let len := min (n - o) (AudP.clip p)
  let clips := chs.map fun l => let c := (l.drop o).take (AudP.clip p); c ++ List.replicate (AudP.clip p - c.length) 0
  if AudP.mel p then
    let x := clips.getD 0 []
    ((List.range (AudP.frames p)).flatMap fun f =>
      let win := (x.drop (f * AudP.hop p)).take (AudP.fft p)
      (List.range (AudP.bands p)).flatMap fun b => mediaBytes p (AudP.melBand p b win),
     if len < AudP.fft p then 0 else 1 + (len - AudP.fft p) / AudP.hop p)
  else
    ((List.range (AudP.clip p)).flatMap fun i => clips.flatMap fun l => mediaBytes p (l.getD i 0), len)

/-! ## The slot layout (R377) -/

/-- Bytes of one sample in each tensor. -/
def tensorBytes (kind p : Nat) : List Nat :=
  match kind with
  | 0 => (List.range (ImgP.levels p)).map (ImgP.imageBytes p)
  | 1 => (List.range (ImgP.levels p)).map fun l => ImgP.frames p * ImgP.imageBytes p l
  | 2 =>
    let e := (fmtOf (fld p 3 0)).bytes
    [if AudP.mel p then AudP.frames p * AudP.bands p * e else AudP.clip p * AudP.chans p * e]
  | _ => [TextP.seqLen p * 4]

/-- VALID_OFFSET. -/
def validOffset (b : Nat) : Nat := 64 + 32 * (2 * b + 64)

/-- PAYLOAD_OFFSET. -/
def payloadOffset (b : Nat) : Nat := roundUp (validOffset b + b) 4096

/-- Offsets of the tensors from the start of the payload, each with bytes of a sample; and their end. -/
def tensorPlaces (b : Nat) : List Nat → Nat → List (Nat × Nat) × Nat
  | [], off => ([], off)
  | n :: r, off =>
    let a := roundUp off 64
    let q := tensorPlaces b r (a + b * n)
    ((a, n) :: q.1, q.2)

/-- Bytes a slot needs. -/
def slotNeeds (r p : Nat) : Nat :=
  let b := Stream.batchSize r
  payloadOffset b + (tensorPlaces b (tensorBytes (Stream.kind r) p) 0).2

/-- R370, R374, R376: does the parameter block of a kind hold legal values? -/
def paramOk (kind p : Nat) : Bool :=
  match kind with
  | 0 | 1 => ImgP.ok p
  | 2 => AudP.ok p
  | _ => TextP.ok p

end Sys2Proof.Machine
end

