-- ==== Sys2Proof/Machine/Wav.lean ====
section
/-! DEFINITION. The decoder of WAV files (R367): PCM in RIFF. PRESUMED (log 62): the spec names the format and does not print it. -/
namespace Sys2Proof.Machine.Wav

/-- The chunks of a RIFF file: names and contents; none where one ends early. -/
def chunks : Nat → List Byte → Option (List (List Byte × List Byte))
  | _, [] => some []
  | 0, _ => none
  | fuel + 1, bs =>
    let n := leNat ((bs.drop 4).take 4)
    let body := bs.drop 8
    if bs.length < 8 ∨ body.length < n then none
    else (chunks fuel (body.drop (n + n % 2))).map fun l => (bs.take 4, body.take n) :: l

/-- The kind of samples: 1 integers, 3 FP32, looked up in the GUID of WAVE_FORMAT_EXTENSIBLE; 0 for another. -/
def sampleKind (fmt : List Byte) : Nat :=
  let guid : List Byte := [0, 0, 0, 0, 0x10, 0, 0x80, 0, 0, 0xAA, 0, 0x38, 0x9B, 0x71]
  let tag := leNat (fmt.take 2)
  if tag = 0xFFFE then (if (fmt.drop 26).take 14 = guid then leNat ((fmt.drop 24).take 2) else 0) else tag

/-- The channels of sample data. -/
def channels (n bytes : Nat) (bs : List Byte) : List (List Nat) :=
  (List.range n).map fun c => (List.range (bs.length / (n * bytes))).map fun i =>
    leNat ((bs.drop ((i * n + c) * bytes)).take bytes)

/-- A file's format and data chunks decoded. -/
def ofChunks (fmt data : List Byte) : Media :=
  let n := leNat ((fmt.drop 2).take 2)
  let rate := leNat ((fmt.drop 4).take 4)
  let align := leNat ((fmt.drop 12).take 2)
  let bits := leNat ((fmt.drop 14).take 2)
  let kind := sampleKind fmt
  if fmt.length < 16 ∨ n = 0 ∨ rate = 0 then Media.bad 1
  else if !((kind == 1 && (bits == 16 || bits == 24)) || (kind == 3 && bits == 32)) then Media.bad 2
  else if align ≠ n * (bits / 8) ∨ data.length % align ≠ 0 then Media.bad 1
  else { reason := 0, dims := [rate, if kind = 3 then 0 else bits], data := channels n (bits / 8) data }

/-- A WAV file. -/
def decode (bs : List Byte) : Media :=
  let n := leNat ((bs.drop 4).take 4)
  if bs.take 4 = ascii "RF64" then Media.bad 2
  else if bs.take 4 ≠ ascii "RIFF" ∨ (bs.drop 8).take 4 ≠ ascii "WAVE" ∨ n < 4 ∨ bs.length < 8 + n then Media.bad 1
  else
    Media.orSyntax do
      let cs ← chunks n ((bs.drop 12).take (n - 4))
      let fmt ← cs.find? fun c => c.1 == ascii "fmt "
      let data ← cs.find? fun c => c.1 == ascii "data"
      some (ofChunks fmt.2 data.2)

end Sys2Proof.Machine.Wav
end

