-- ==== Sys2Proof/Machine/Tannery.lean ====
section
/-! DEFINITION. The Tannery's commands: streams, samples, batches (R362 to R392). -/
namespace Sys2Proof.Machine

/-! ## Opening and closing (R362 to R364, R392) -/

/-- R405: the free part of a context's fixed range in a slice: first address and bytes. -/
def freePart (x : Ctx) (slice : Nat) : Nat × Nat :=
  let used := 64 * x.weltSize + 32 * x.tags
  (slmBase + slice * sliceBytes + x.fixOff + used, x.fixSize - used)

/-- R364: does a range lie in the free part of a context's fixed range? -/
def inFreePart (x : Ctx) (a n : Nat) : Bool :=
  let p := freePart x ((a - slmBase) / sliceBytes)
  decide (slmBase ≤ a ∧ p.1 ≤ a ∧ a + n ≤ p.1 + p.2)

/-- The queue range of a record. -/
def queueRange (r : Nat) : Nat × Nat := (Stream.queue r, Stream.slots r * Stream.slotBytes r)

/-- R364: is the object owned by the context, and of the kind? -/
def ownedKind (s : State) (i c : Nat) (k : Kind) : Bool := decide ((s.obj i).kind = k ∧ (s.obj i).ctx = c)

/-- R364: may a stream with this record and parameter block start for the context? -/
def streamOk (s : State) (c : Nat) (x : Ctx) (r p : Nat) : Bool :=
  let q := queueRange r
  let t : Stream := { Stream.init with record := r }
  let tab := Stream.table r
  Stream.recordOk r && decide (Stream.ctx r = c) && decide ((s.stream (Stream.no r)).state ≠ 1) &&
    s.rangeOk tab (32 * Stream.entries r) && !inSp tab (32 * Stream.entries r) && paramOk (Stream.kind r) p &&
    decide (slotNeeds r p ≤ Stream.slotBytes r) && inFreePart x q.1 q.2 && s.inAreas q.1 q.2 && !s.meetsJournal q.1 q.2 &&
    (s.streams.all fun e => e.2.state != 1 || !rangesMeet q.1 q.2 (queueRange e.2.record).1 (queueRange e.2.record).2) &&
    (!(s.obj t.readyCtr).far && !(s.obj t.consumedCtr).far && !(s.obj t.lowEvent).far) && ownedKind s t.readyCtr c .counter && ownedKind s t.consumedCtr c .counter && ownedKind s t.lowEvent c .event

/-- A table of R582 in SLM: n bytes at a multiple of k, none of them poisoned; a table of no bytes has no
place. -/
def slmTable (s : State) (a n k : Nat) : Option Nat :=
  if n = 0 then some 0
  else if a % k = 0 ∧ s.inAreas a n ∧ !s.meetsJournal a n ∧ !s.poisonIn a n then some (s.rd a n) else none

/-- R364: set an object to zero. -/
def clearObj (s : State) (i : Nat) (op : SyncOp) : State := settleObj s i ((s.obj i).apply op 0)

/-- R362 to R364, R413: open a stream. -/
def streamOpen (s : State) (id : Nat) : State :=
  match s.cmd? id with
  | none => s
  | some c =>
    if c.opcode ≠ 0x15 ∨ c.stage ≠ .taken then s
    else if (s.block 0x81).fenced then complete s id St.targetReset Details.zero
    else
      let bad := complete s id St.badDescriptor Details.zero
      match s.ctx? c.ctx, slmTable s (fld c.entry 105 64) 128 64 with
      | some x, some r =>
        match slmTable s (Stream.paramAddr r) 64 64 with
        | none => bad
        | some p =>
          let ms := if Stream.kind r = 3 then mergeTable s p else some []
          match ms with
          | none => bad
          | some ms =>
            let t : Stream := { Stream.init with state := 1, cmd := id, record := r, param := p, merges := ms }
            if !streamOk s c.ctx x r p then bad
            else if touchesAbsent s [queueRange r, (Stream.table r, 32 * Stream.entries r)] then
              complete s id St.notResident Details.zero
            else
              let s := s.updCmd id fun c => { c with stage := .active, started := true }
              let s := clearObj (clearObj (clearObj s t.readyCtr .set) t.consumedCtr .set) t.lowEvent .eventClear
              s.updStream (Stream.no r) fun _ => t
      | _, _ => bad

/-- R364. -/
def execStreamOpen (cmd : Nat) (s : State) : Out := .next (streamOpen s cmd)

/-- R392: end a stream: its open command completes with the status and batch counts of R450. -/
def endStream (s : State) (n state status : Nat) : State :=
  let t := s.stream n
  if t.state ≠ 1 then s
  else
    let s := s.updStream n fun t => { t with state := state, batches := [], running := [], parked := [], reserves := [] }
    complete s t.cmd status { Details.zero with d0 := t.next }

/-- R392, R444: a STREAM_CLOSE command. -/
def streamClose (s : State) (id : Nat) : State :=
  match s.cmd? id with
  | none => s
  | some c =>
    let n := fld c.entry 69 64
    let t := s.stream n
    if c.opcode ≠ 0x16 ∨ c.stage ≠ .taken then s
    else if t.state ≠ 1 then complete s id St.badDescriptor Details.zero
    else if Stream.ctx t.record ≠ c.ctx then complete s id St.denied Details.zero
    else complete (endStream s n 0 St.ok) id St.ok Details.zero

/-- R392. -/
def execStreamClose (cmd : Nat) (s : State) : Out := .next (streamClose s cmd)

/-! ## Assembly (R380, R382, R384) -/

/-- Does the stream have a batch k? -/
def hasBatch (t : Stream) (k : Nat) : Bool :=
  Stream.epochs t.record == 0 || decide (k < Stream.epochs t.record * Stream.perEpoch t.record)

/-- R382: begin a batch. -/
def batchAssemble (s : State) (n : Nat) : State :=
  let t := s.stream n
  let k := t.next + t.batches.length
  if t.state = 1 ∧ t.batches.length < 3 ∧ hasBatch t k ∧ k + 1 ≤ (s.obj t.consumedCtr).value + Stream.slots t.record then
    let p := Stream.firstPos t.record k
    let b : Batch := { k := k, slots := (List.range (Stream.batchSize t.record)).map fun i => .need (p + i) false 0 0, events := [] }
    s.updStream n fun t => { t with batches := t.batches ++ [b] }
  else s

/-- R382. -/
def execBatchAssemble (stream : Nat) (s : State) : Out := onStream stream s fun s => batchAssemble s stream

/-- R384: the next slot that needs a sample: batch, slot, position, reserve draw, draws failed, reason. -/
def nextNeed (t : Stream) : Option (Nat × Nat × Nat × Bool × Nat × Nat) :=
  t.batches.findSome? fun b => (b.slots.zipIdx).findSome? fun (sl, i) =>
    match sl with
    | .need pos rv failed reason => some (b.k, i, pos, rv, failed, reason)
    | _ => none

/-- R379: the table index of a position of an epoch. -/
def indexAt (t : Stream) (e pos : Nat) : Nat := permAt (epochKey t.record e) (Stream.entries t.record) pos

/-- R367: engines of a medium: pool and size. -/
def poolOf (medium : Nat) : Option (Nat × Nat) :=
  match medium with
  | 0 => some (0, 24)
  | 1 => some (1, 8)
  | 2 => some (2, 8)
  | 3 | 4 | 5 => some (3, 16)
  | 6 => some (4, 4)
  | _ => none

/-- R526: engines of a pool that self-test has not disabled. DESIGN CHOICE (log 133): units of kind TANNERY_ENGINE are
numbered through the pools, in the order of R367's table. -/
def poolLive (s : State) (p : Nat × Nat) : Nat :=
  let base := [0, 24, 32, 40, 56].getD p.1 0
  ((List.range p.2).filter fun i => !unitFailed s 0x0B (base + i)).length

/-- The medium of the sample a stream needs next, with its batch. -/
def needOf (s : State) (t : Stream) : Option (Nat × Nat) :=
  (nextNeed t).map fun q =>
    (q.1, s.rd (Stream.table t.record + 32 * indexAt t (Stream.epochOf t.record q.1) q.2.2.1) 32 % 16)

/-- Engines of a pool that decode. -/
def poolBusy (s : State) (pool : Nat) : Nat :=
  (s.streams.map fun e =>
    ((e.2.running ++ e.2.parked.filter fun d => !d.done).filter fun d => (poolOf (d.entry % 16)).any fun p => p.1 == pool).length).sum

/-- R384: does another stream's sample come first on the same engines? -/
def servedBefore (s : State) (n k pool : Nat) : Bool :=
  s.streams.any fun e =>
    e.1 != n && e.2.state == 1 &&
      (match needOf s e.2 with
       | some (k', m) => ((poolOf m).any fun p => p.1 == pool) && decide (k' < k ∨ (k' = k ∧ e.1 < n))
       | none => false)

/-- Replace a slot of a batch, and add event records. -/
def setSlot (t : Stream) (k i : Nat) (v : SlotState) (evs : List Nat) : Stream :=
  { t with batches := updFirst (fun b => b.k == k) (fun b => { b with slots := setAt b.slots i v, events := b.events ++ evs }) t.batches }

/-- R366, R368: can the file that an entry names be read and decoded at all: a medium that exists, and a readable range? -/
def entryReadable (s : State) (w : Nat) : Bool :=
  let a := fld w 191 128
  let n := fld w 127 96
  decide (w % 16 ≤ 6) && (bit w 4 || (decide (a < 2 ^ 42) && (s.backed a n || (s.inAreas a n && !s.meetsJournal a n))))

/-- The range of a DEVICE sample, if it is one that can be read. -/
def deviceRun (s : State) (d : Decode) : List (Nat × Nat) :=
  if !d.entryPoison && !bit d.entry 4 && entryReadable s d.entry then [(fld d.entry 191 128, fld d.entry 127 96)] else []

/-- R384, R366: an engine takes a sample and reads its table entry through its home slice; a HOST sample is asked for over PCI
Express. What a stack at level 3 holds is asked for again (log 130). -/
def sampleStart (s : State) (n : Nat) : State :=
  let t := s.stream n
  match nextNeed t with
  | none => s
  | some (k, i, pos, rv, failed, reason) =>
    let e := Stream.epochOf t.record k
    let idx := indexAt t e pos
    let a := Stream.table t.record + 32 * idx
    let entry := s.rd a 32
    let free :=
      match poolOf (entry % 16) with
      | none => true
      | some p => decide (poolBusy s p.1 < poolLive s p) && !servedBefore s n k p.1
    if t.state ≠ 1 ∨ !free ∨ loadHeld s [(a, 32)] then s
    else
      let poison := s.poisonIn a 32
      let s := (sliceLoads s [(a, 32)]).fresh
      let d : Decode :=
        { id := s.serial, batch := k, slot := i, index := idx, pos := pos, forPos := Stream.firstPos t.record k + i, epoch := e,
          reserve := rv, entry := entry, entryPoison := poison, lost := bit entry 4 && !(s.pcie.bme && s.pcieUp), deadline := k + 2, done := false, dims := [], data := [] }
      let s := s.updStream n fun t => let t := setSlot t k i (.busy d.id failed reason) []; { t with running := t.running ++ [d] }
      if !poison && bit entry 4 && !d.lost && entryReadable s entry then s.send (.hostRead d.id (fld entry 191 128) (fld entry 127 96)) else s

/-- R384. -/
def execSampleStart (stream : Nat) (s : State) : Out := onStream stream s fun s => sampleStart s stream

/-! ## Records (R390) -/

/-- A record of the manifest. -/
def mkRecord (id index pos forPos epoch len slot reason kind : Nat) : Nat :=
  kind + reason * 2 ^ 8 + slot * 2 ^ 16 + len * 2 ^ 32 + epoch * 2 ^ 64 + forPos * 2 ^ 96 + pos * 2 ^ 128 + index * 2 ^ 160 + id * 2 ^ 192

/-- R390: the event record of a sample. -/
def eventOf (d : Decode) (reason kind : Nat) : Nat :=
  mkRecord (fld d.entry 255 192) d.index d.pos d.forPos d.epoch 0 d.slot reason kind

/-- SLOW. -/
def slowReason : Nat := 6

/-! ## Draws (R380, R386) -/

/-- The reserve of an epoch: next position and returned positions. -/
def reserveOf (t : Stream) (e : Nat) : Nat × List Nat :=
  match t.reserves.find? fun r => r.1 == e with
  | some r => r.2
  | none => (Stream.perEpoch t.record * Stream.batchSize t.record, [])

/-- Replace the reserve of an epoch. -/
def setReserve (t : Stream) (e : Nat) (v : Nat × List Nat) : Stream :=
  { t with reserves := (e, v.1, v.2) :: t.reserves.filter fun r => r.1 != e }

/-- R389 RESERVE_LEFT. -/
def reserveLeft (t : Stream) (e : Nat) : Nat :=
  let r := reserveOf t e
  r.2.length + (Stream.entries t.record - r.1)

/-- R380: take the next reserve position of an epoch. -/
def drawReserve (t : Stream) (e : Nat) : Option (Nat × Stream) :=
  let r := reserveOf t e
  match r.2 with
  | p :: ps => some (p, setReserve t e (r.1, ps))
  | [] => if r.1 < Stream.entries t.record then some (r.1, setReserve t e (r.1 + 1, [])) else none

/-- Count on a stream's counter. -/
def streamCount (s : State) (n index k : Nat) : State := s.odAdd index (n + 1) k

/-- Leave a slot empty (R386). -/
def leaveEmpty (s : State) (n k i reason : Nat) (evs : List Nat) : State :=
  streamCount (s.updStream n fun t => setSlot t k i (.empty reason) evs) n 0x8065 1

/-- R386: a slot takes the next reserve sample, or is left empty. `failed` counts the draws that failed. -/
def takeReserve (s : State) (n k i failed reason : Nat) (evs : List Nat) : State :=
  let t := s.stream n
  if 4 ≤ failed then leaveEmpty s n k i reason evs
  else
    match drawReserve t (Stream.epochOf t.record k) with
    | none => leaveEmpty s n k i reason evs
    | some (p, t') => s.updStream n fun _ => setSlot t' k i (.need p true failed reason) evs

/-! ## Decoding (R365 to R368, R386, R387) -/

/-- R368 ENTRY: does a table entry break its rules? -/
def entryBad (s : State) (t : Stream) (w : Nat) : Bool :=
  let m := w % 16
  let kindOfMedium := if m ≤ 1 then 0 else if m = 2 then 1 else if m ≤ 5 then 2 else 3
  fld w 63 5 != 0 || decide (kindOfMedium ≠ Stream.kind t.record) || !entryReadable s w

/-- R367: does decoded material lie outside the subset of its medium? Kinds and depths of pictures, bits of sounds. -/
def outsideSubset (medium : Nat) (dims : List Nat) : Bool :=
  let d := dims.getD 3 8
  let kind := dims.getD 4 1
  let ss := dims.getD 5 0
  let bits := dims.getD 1 0
  match medium with
  | 0 => d != 8 || !(kind == 0 || (kind == 2 && decide (ss ≤ 2)))
  | 1 => !(d == 8 || d == 16) || decide (1 < kind)
  | 2 => !(d == 8 || d == 10) || !(kind == 0 || (decide (2 ≤ kind ∧ kind ≤ 3) && ss == 2))
  | 3 => decide (24 < bits)
  | 5 => !(bits == 0 || bits == 16 || bits == 24)
  | _ => false

/-- R367: does decoded material exceed a size limit? Pixels a side, channels, sample rate. -/
def overLimit (medium : Nat) (dims : List Nat) (data : List (List Nat)) : Bool :=
  let w := dims.getD 0 0
  let h := dims.getD 1 0
  match medium with
  | 0 | 1 => decide (16384 < w ∨ 16384 < h)
  | 2 => decide (4096 < w ∨ 2304 < h)
  | 3 => decide (8 < data.length ∨ 192000 < w)
  | 4 | 5 => decide (8 < data.length)
  | _ => false

/-- R372: does a clip of the stream, from the frame that AUX names, reach beyond the last decoded frame? -/
def clipBeyond (t : Stream) (entry : Nat) (data : List (List Nat)) : Bool :=
  decide (data.length ≤ fld entry 95 64 + (ImgP.frames t.param - 1) * ImgP.frameStep t.param)

/-- The bytes of a sample's file: a DEVICE sample's from memory, a HOST sample's as the read brought them. -/
def fileBytes (s : State) (d : Decode) (data : List (List Nat)) : List Byte :=
  if bit d.entry 4 then (data.getD 0 []).map (BitVec.ofNat 8) else s.bytes (fld d.entry 191 128) (fld d.entry 127 96)

/-- R368 SOURCE: did a sector read of a sample fail, or the PCI Express read? -/
def sourceBad (s : State) (d : Decode) (pcieFail : Bool) : Bool :=
  if bit d.entry 4 then pcieFail || d.lost else (deviceRun s d).any fun r => s.poisonIn r.1 r.2 || s.downIn r.1 r.2

/-- R367: the decode of a file of a medium. DESIGN CHOICE (log 62): AV1 and Opus are free functions of the file's bytes. -/
def mediaOf (medium : Nat) (bs : List Byte) : Media :=
  match medium with
  | 0 => Jpeg.decode bs
  | 1 => Png.decode bs
  | 3 => Flac.decode bs
  | 5 => Wav.decode bs
  | _ => let r := Config.decoded medium bs; { reason := r.1 % 4, dims := r.2.1, data := r.2.2 }

/-- R367, R369, R373 step 1: what the decoder of a sample finds; of a text its bytes, of a sample that cannot be read nothing. `data`
holds a HOST sample's bytes. -/
def decodedMedia (s : State) (d : Decode) (pcieFail : Bool) (data : List (List Nat)) : Media :=
  if d.entry % 16 = 6 then { reason := 0, dims := [], data := data }
  else if d.entryPoison || !entryReadable s d.entry || sourceBad s d pcieFail then { reason := 0, dims := [], data := [] }
  else mediaOf (d.entry % 16) (fileBytes s d data)

/-- R368: the first reason of the table that applies to a sample, 0 for none. `reason` is what its decoder found. DEDUCED (log 65):
an entry that cannot be read shows no reason of its file, and the bytes of a failed read break no standard. -/
def corruptReason (s : State) (t : Stream) (d : Decode) (reason : Nat) (pcieFail : Bool) (dims : List Nat) (data : List (List Nat)) : Nat :=
  let n := fld d.entry 127 96
  let m := d.entry % 16
  let lost := sourceBad s d pcieFail
  if d.entryPoison then 4
  else if !entryReadable s d.entry then 5
  else if reason = 1 ∨ n = 0 ∨ (m = 6 ∧ !lost ∧ !utf8Ok n (fileBytes s d data)) then 1
  else if reason = 2 ∨ (!lost ∧ outsideSubset m dims) then 2
  else if reason = 3 ∨ (m = 6 ∧ 2 ^ 24 < n) ∨ (!lost ∧ (overLimit m dims data ∨ (m = 2 ∧ Stream.kind t.record = 1 ∧ clipBeyond t d.entry data))) then 3
  else if lost then 4
  else if entryBad s t d.entry then 5
  else 0

/-- What the decoder gives to preparation: of a clip its frames (R372), of a text its tokens. -/
def decodedData (s : State) (t : Stream) (d : Decode) (data : List (List Nat)) : List (List Nat) :=
  match Stream.kind t.record with
  | 1 => (List.range (ImgP.frames t.param)).map fun i => data.getD (fld d.entry 95 64 + i * ImgP.frameStep t.param) []
  | 3 => [textTokens t.param t.merges (fileBytes s d data)]
  | _ => data

/-- R387: the running mean after a sample, in 2^-20 µs. -/
def meanAfter (m us : Nat) : Nat := ((m : Int) + ((us : Int) * 2 ^ 20 - m) / 64).toNat

/-- Note the time of a finished sample. -/
def noteTime (t : Stream) (medium us : Nat) : Stream :=
  { t with means := setAt t.means medium (meanAfter (t.means.getD medium 0) us) }

/-- R386: a sample in a slot is corrupt. -/
def slotCorrupt (s : State) (n : Nat) (d : Decode) (failed reason : Nat) : State :=
  let t := s.stream n
  let ev := [eventOf d reason 8]
  let s := streamCount (s.updStream n fun t => { t with running := t.running.filter fun e => e.id != d.id }) n 0x8062 1
  match Stream.corruptPolicy t.record with
  | 0 => takeReserve s n d.batch d.slot (if d.reserve then failed + 1 else failed) reason ev
  | 1 => leaveEmpty s n d.batch d.slot reason ev
  | _ => logEvent (endStream s n 3 St.poisoned) .streamFailed srcStream n d.index reason

/-- R386: the decode for a slot has finished. -/
def slotDecoded (s : State) (n : Nat) (d : Decode) (us reason : Nat) (pcieFail : Bool) (dims : List Nat)
    (data : List (List Nat)) : State :=
  let t := s.stream n
  let st := (t.batches.find? fun b => b.k == d.batch).bind fun b => b.slots[d.slot]?
  match st with
  | some (.busy _ failed last) =>
    let r := corruptReason s t d reason pcieFail dims data
    if r ≠ 0 then slotCorrupt s n d failed r
    else
      let d' := { d with done := true, dims := dims, data := decodedData s t d data }
      let s := s.updStream n fun t =>
        let t := setSlot (noteTime t (d.entry % 16) us) d.batch d.slot (.full d' (if d.reserve then 1 else 0) last) []
        { t with running := t.running.filter fun e => e.id != d.id }
      if d.reserve then streamCount s n 0x8061 1 else s
  | _ => s

/-- R386, R387: the decode of a parked sample has finished; a corrupt one is counted, recorded and dropped. -/
def parkedDecoded (s : State) (n : Nat) (d : Decode) (us reason : Nat) (pcieFail : Bool) (dims : List Nat)
    (data : List (List Nat)) : State :=
  let t := s.stream n
  let r := corruptReason s t d reason pcieFail dims data
  if r ≠ 0 then
    streamCount (s.updStream n fun t =>
      { t with
        parked := t.parked.filter fun e => e.id != d.id
        batches := updFirst (fun _ => true) (fun b => { b with events := b.events ++ [eventOf d r 8] }) t.batches }) n 0x8062 1
  else
    s.updStream n fun t =>
      let t := noteTime t (d.entry % 16) us
      let f (e : Decode) : Decode := { e with done := true, dims := dims, data := decodedData s t d data }
      { t with parked := updFirst (fun e => e.id == d.id) f t.parked }

/-- A sample's decode finishes. The sectors of a DEVICE sample pass through their home slices (R366); what a stack at level 3
holds is asked for again (log 130). -/
def sampleDecoded (s : State) (n id us : Nat) (pcieFail : Bool) (data : List (List Nat)) : State :=
  let t := s.stream n
  let parked := t.parked.find? fun d => d.id == id && !d.done
  match t.running.find? fun d => d.id == id, parked with
  | none, none => s
  | some d, _ =>
    let rs := deviceRun s d
    if t.state ≠ 1 ∨ loadHeld s rs then s
    else let m := decodedMedia s d pcieFail data; slotDecoded (sliceLoads s rs) n d us m.reason pcieFail m.dims m.data
  | none, some d =>
    let rs := deviceRun s d
    if t.state ≠ 1 ∨ loadHeld s rs then s
    else let m := decodedMedia s d pcieFail data; parkedDecoded (sliceLoads s rs) n d us m.reason pcieFail m.dims m.data

/-- R386. The reason and the dimensions a decoder reports are computed from the file (log 62). -/
def execSampleDecoded (stream id us _reason : Nat) (pcieFail : Bool) (_dims : List Nat) (data : List (List Nat)) (s : State) : Out :=
  onStream stream s fun s => sampleDecoded s stream id us pcieFail data

/-- R387: the budget of a medium in 2^-20 µs. -/
def decodeBudget (s : State) (t : Stream) (medium : Nat) : Nat :=
  max (s.odGet 0x6001 0 * t.means.getD medium 0) (s.odGet 0x6002 0 * 2 ^ 20)

/-- R387, R388: a sample's budget expires; one that is parked counts as DEFERRED (DEDUCED, log 65). -/
def overBudget (s : State) (n id us : Nat) : State :=
  let t := s.stream n
  match t.running.find? fun d => d.id == id with
  | none => s
  | some d =>
    if t.state ≠ 1 ∨ Stream.slowPolicy t.record = 2 ∨ us * 2 ^ 20 < decodeBudget s t (d.entry % 16) then s
    else
      match (t.batches.find? fun b => b.k == d.batch).bind fun b => b.slots[d.slot]? with
      | some (.busy _ failed _) =>
        let s := s.updStream n fun t => { t with running := t.running.filter fun e => e.id != id }
        if d.reserve then takeReserve s n d.batch d.slot (failed + 1) slowReason [eventOf d slowReason 9]
        else if Stream.slowPolicy t.record = 0 ∧ t.parked.length < 64 then
          let s := streamCount (s.updStream n fun t => { t with parked := t.parked ++ [d] }) n 0x8063 1
          takeReserve s n d.batch d.slot failed slowReason [eventOf d slowReason 10]
        else takeReserve s n d.batch d.slot failed slowReason [eventOf d slowReason 9]
      | _ => s

/-- R387. -/
def execSampleOverBudget (stream id us : Nat) (s : State) : Out := onStream stream s fun s => overBudget s stream id us

/-! ## Sealing (R377, R382, R383, R388 to R390) -/

/-- R388: the last slot that holds a main sample, below a bound. -/
def lastMain (slots : List SlotState) (below : Nat) : Option (Nat × Decode) :=
  ((slots.zipIdx).reverse).findSome? fun (v, i) =>
    match v with
    | .full d 0 _ => if i < below then some (i, d) else none
    | _ => none

/-- Does a batch hold a table index? -/
def holdsIndex (slots : List SlotState) (idx : Nat) : Bool :=
  slots.any fun v =>
    match v with
    | .full d _ _ => d.index == idx
    | _ => false

/-- R388 step 1: place finished parked samples: slots, events, placed decodes, displaced positions in order. -/
def placeLate : List Decode → Nat → Nat → List SlotState → List SlotState × List Nat × List Decode × List Nat
  | [], _, _, slots => (slots, [], [], [])
  | d :: ds, left, below, slots =>
    if left = 0 then (slots, [], [], [])
    else if !d.done || holdsIndex slots d.index then placeLate ds left below slots
    else
      match lastMain slots below with
      | none => (slots, [], [], [])
      | some (i, m) =>
        let r := placeLate ds (left - 1) i (setAt slots i (.full { d with slot := i, forPos := m.forPos } 2 0))
        (r.1, eventOf m 0 12 :: r.2.1, d :: r.2.2.1, m.pos :: r.2.2.2)

/-- What a slot holds: tensors, LENGTH. -/
def slotContent (t : Stream) (e : Nat) : SlotState → List (List Byte) × Nat
  | .full d _ _ =>
    let a := choices t.record e d.index
    match Stream.kind t.record with
    | 0 | 1 => (picTensors t.param a d.dims d.data, 0)
    | 2 => let r := soundTensor t.param a d.dims d.data; ([r.1], r.2)
    | _ => ([textRow t.param (d.data.getD 0 [])], (d.data.getD 0 []).length)
  | _ => ([], 0)

/-- R390: the record of a slot. -/
def slotRecord (first e i len : Nat) : SlotState → Nat
  | .full d k r => mkRecord (fld d.entry 255 192) d.index d.pos (first + i) d.epoch len i r k
  | .empty r => mkRecord (2 ^ 64 - 1) (2 ^ 32 - 1) (2 ^ 32 - 1) (first + i) e 0 i r 3
  | _ => 0

/-- Is a slot filled? -/
def slotFull : SlotState → Bool
  | .full _ _ _ => true
  | _ => false

/-- R310, R377: store to a batch slot through the home slices. -/
def slotStore (s : State) (a : Nat) (bs : List Byte) : State := (sliceStores s [(a, bs)]).storeP a bs false

/-- R377, R382: write the payload, the valid vector and the manifest of a batch. -/
def writeBatch (s : State) (n k : Nat) (slots : List SlotState) (events : List Nat) (left : Nat) : State :=
  let t := s.stream n
  let r := t.record
  let b := Stream.batchSize r
  let base := Stream.queue r + k % Stream.slots r * Stream.slotBytes r
  let e := Stream.epochOf r k
  let first := Stream.firstPos r k
  let content := slots.map (slotContent t e)
  let places := (tensorPlaces b (tensorBytes (Stream.kind r) t.param) 0).1
  let s := (places.zipIdx).foldl (fun s (pl, j) =>
    (content.zipIdx).foldl (fun s (c, i) =>
      let bs := (c.1.getD j []).take pl.2
      slotStore s (base + payloadOffset b + pl.1 + i * pl.2) (bs ++ List.replicate (pl.2 - bs.length) 0)) s) s
  let s := slotStore s (base + validOffset b) (slots.map fun v => if slotFull v then 1 else 0)
  let listed := events.take (b + 64)
  let recs := (slots.zipIdx).map fun (v, i) => slotRecord first e i (content.getD i ([], 0)).2 v
  let s := slotStore s (base + 64) ((recs ++ listed).flatMap (leBytes 32))
  let head := n + (if b + 64 < events.length then 2 ^ 8 else 0) + left * 2 ^ 192 + payloadOffset b * 2 ^ 224 + validOffset b * 2 ^ 256 +
    (b + listed.length) * 2 ^ 288 + (slots.filter slotFull).length * 2 ^ 320 + b * 2 ^ 352 + first * 2 ^ 384 + e * 2 ^ 416 +
    k % 2 ^ 64 * 2 ^ 448
  slotStore s base (leBytes 64 head)

/-- R383: a seal brings the ready count back to LOW_WATER. -/
def sealLow (s : State) (n : Nat) : State :=
  let t := s.stream n
  if t.low ∧ t.lowWater ≤ (s.obj t.readyCtr).value - (s.obj t.consumedCtr).value then
    syncChange (s.updStream n fun t => { t with low := false }) t.lowEvent .eventClear 0
  else s

/-- R388: seal the oldest batch. -/
def batchSeal (s : State) (n waitUs : Nat) : State :=
  let t := s.stream n
  match t.batches with
  | [] => s
  | b :: rest =>
    let whole := b.slots.all fun v =>
      match v with
      | .full _ _ _ | .empty _ => true
      | _ => false
    if t.state ≠ 1 ∨ !whole then s
    else
      let e := Stream.epochOf t.record b.k
      let q := placeLate t.parked (Stream.deferMax t.record) b.slots.length b.slots
      let kept := t.parked.filter fun d => !q.2.2.1.any fun p => p.id == d.id
      let gone := kept.filter fun d => decide (d.deadline ≤ b.k)
      let rv := reserveOf t e
      let t1 := setReserve t e (rv.1, q.2.2.2.reverse ++ rv.2)
      let left := reserveLeft t1 e
      let ends := (b.k + 1) % Stream.perEpoch t.record = 0
      let s := s.updStream n fun _ =>
        { t1 with
          batches := rest, next := t.next + 1, parked := kept.filter fun d => decide (b.k < d.deadline)
          reserves := if ends then t1.reserves.filter fun r => r.1 != e else t1.reserves }
      let s := streamCount (streamCount s n 0x8064 gone.length) n 0x8067 q.2.2.2.length
      let s := if Stream.slowPolicy t.record = 2 then streamCount s n 0x8066 waitUs else s
      let s := writeBatch s n b.k q.1 (b.events ++ q.2.1 ++ gone.map fun d => eventOf d slowReason 11) left
      let s := sealLow (syncChange s t.readyCtr .add 1) n
      if hasBatch t (b.k + 1) then s else endStream s n 2 St.ok

/-- R388. -/
def execBatchSeal (stream waitUs : Nat) (s : State) : Out := onStream stream s fun s => batchSeal s stream waitUs

end Sys2Proof.Machine
end

