-- ==== Sys2Proof/Machine/Pattern.lean ====
section
/-! DEFINITION. Stitch patterns: entries, admission, calibration runs, shares, the cells of a stitch (R414 to
R422, R419, R515). -/
namespace Sys2Proof.Machine

/-! ## Entries and assignments (R415, R416) -/

/-- ASSIGN_COUNT. -/
def peCount (e : Nat) : Nat := fld e 8 0
/-- PLL_GROUP; 31 for none. -/
def pePll (e : Nat) : Nat := fld e 19 15
/-- HARNESS_PORT; 63 for none. -/
def peHarness (e : Nat) : Nat := fld e 25 20
/-- LINK_PORT; 63 for none. -/
def peLink (e : Nat) : Nat := fld e 31 26
/-- OP_POINT. -/
def peOp (e : Nat) : Nat := fld e 35 32
/-- ASSIGN_ADDR. -/
def peAssign (e : Nat) : Nat := fld e 105 64
/-- CONTEXT of an assignment. -/
def asCtx (a : Nat) : Nat := fld a 31 22
/-- CELLSET of an assignment. -/
def asSet (a : Nat) : Nat := fld a 21 12

/-- The mask of the cells of a PLL group: clusters 8g to 8g + 7. -/
def pllMask (g : Nat) : Nat := if g < 16 then (2 ^ 512 - 1) * 2 ^ (512 * g) else 0

/-- The mask of every cell. -/
def allCells : Nat := 2 ^ cellCount - 1

/-- Cell set s as a mask; none where it is not in the table. -/
def cellsetMask (s : State) (k : Nat) : Nat := s.job.cellsets.getD k 0

/-- Is a set of cells inside another? -/
def maskIn (a b : Nat) : Bool := a &&& b == a

/-! ## Calibration runs (R419) -/

/-- Steps back from entry i to the first entry of its LINK_PORT run, taken cyclically. -/
def runBack (ls : List Nat) : Nat → Nat → Nat
  | 0, _ => 0
  | fuel + 1, i =>
    let j := (i + ls.length - 1) % ls.length
    if ls.getD j 63 = ls.getD i 63 then runBack ls fuel j + 1 else 0

/-- Place of entry i in its run; a pattern of one run begins at its first entry. -/
def runPlace (ls : List Nat) (i : Nat) : Nat :=
  if ls.all (· == ls.getD 0 63) then i else runBack ls ls.length i

/-- R420: is no LINK_PORT run an incomplete span? -/
def spansOk (ls : List Nat) (m : Nat) : Bool :=
  (List.range ls.length).all fun i =>
    let next := if i + 1 < ls.length then ls.getD (i + 1) 63 else if ls.all (· == ls.getD 0 63) then 64 else ls.getD 0 63
    ls.getD i 63 == 63 || next == ls.getD i 63 || (runPlace ls i + 1) % m == 0

/-- R419: does a calibration of the entry's LINK_PORT start at entry i? -/
def linkStarts (ls : List Nat) (m i : Nat) : Bool := ls.getD i 63 != 63 && runPlace ls i % m == 0

/-- m of R419. -/
def linkSpan (period : Nat) : Nat := ceilDiv 40 period

/-- R420: entries at ascending numbers, cyclic over n entries of P µs, no more than a limit apart. -/
def spreadOk (starts : List Nat) (n period limit : Nat) : Bool :=
  match starts with
  | [] => false
  | a :: r =>
    let ends := r ++ [a + n]
    ((a :: r).zip ends).all fun p => decide ((p.2 - p.1) * period ≤ limit)

/-- R64, R420: are all calibrations frequent enough? -/
def ratesOk (es : List Nat) (period : Nat) : Bool :=
  let ls := es.map peLink
  let n := es.length
  let at' (f : Nat → Bool) : List Nat := (List.range n).filter f
  (List.range 48).all (fun p =>
    spreadOk (at' fun i => ls.getD i 63 == p && linkStarts ls (linkSpan period) i) n period 1000000 &&
    spreadOk (at' fun i => peHarness (es.getD i 0) == p) n period 10000000) &&
  (List.range 16).all fun g => spreadOk (at' fun i => pePll (es.getD i 0) == g) n period 1000000

/-! ## Admission (R414, R420, R421) -/

/-- R513: the frequency of an operating point; 0 where it is not defined. -/
def opPoint (s : State) (p : Nat) : Nat := s.odGet 0x2200 (p + 1)

/-- R513, R515: the budget clock of a job in a scale mode. -/
def budgetClock (s : State) (mode : Nat) : Nat :=
  let low := ((List.range 16).map (opPoint s)).foldl (fun a f => if f = 0 then a else min a f) 1800
  let f := if mode = 2 then low else s.odGet 0x2201 0
  if s.odGet 0x2300 0 = 1 then f * 995 / 1000 else f

/-- R420: one entry with its assignments. -/
def entryOk (s : State) (mode e : Nat) (as : List Nat) : Bool :=
  let pll := pePll e
  let masks := as.map fun a => cellsetMask s (asSet a)
  rsvClear e [(511, 106), (63, 36), (14, 9)] && decide (peLink e < 48 ∨ peLink e = 63) && decide (peHarness e < 48 ∨ peHarness e = 63) &&
    decide (pll < 16 ∨ pll = 31) && decide (peCount e ≤ 256) && decide (peLink e = 63 ∨ peLink e ≠ peHarness e) &&
    (as.all fun a => fld a 11 0 == 0 &&
      (match s.ctx? (asCtx a) with
       | some x => cellsetMask s (asSet a) != 0 && maskIn (cellsetMask s (asSet a)) (cellsetMask s x.cellset)
       | none => false)) &&
    decide ((as.map asCtx).Nodup) && (masks.foldl (fun (q : Nat × Bool) m => (q.1 ||| m, q.2 && q.1 &&& m == 0)) (pllMask pll, true)).2 &&
    (mode != 2 || opPoint s (peOp e) != 0)

/-- R414: the entries of a pattern with their assignment lists, none where a table breaks its rules. -/
def readPattern (s : State) (a len : Nat) : Option (List (Nat × List Nat)) :=
  if a % 64 = 0 ∧ s.inAreas a (64 * len) ∧ !s.meetsJournal a (64 * len) ∧ !s.poisonIn a (64 * len) then
    ((List.range len).map fun i => s.rd (a + 64 * i) 64).mapM fun e =>
      if peCount e = 0 then some (e, []) else (tableAt s (peAssign e) (peCount e) 4 true).map fun l => (e, l)
  else none

/-- R420: the digest of a pattern: entries, assignment lists, START_STITCH. -/
def patternDigest (p : Pattern) : Nat :=
  leNat (Keccak.shake256 (p.entries.flatMap (fun e => leBytes 64 e.1) ++ p.entries.flatMap (fun e => e.2.flatMap (leBytes 4)) ++
    leBytes 8 p.start) 32)

/-- R420: the admission check, but for the digest. -/
def admitPattern (s : State) (mode a len start : Nat) : Option Pattern :=
  match readPattern s a len with
  | none => none
  | some es =>
    let ws := es.map (·.1)
    if (es.all fun e => entryOk s mode e.1 e.2) ∧ spansOk (ws.map peLink) (linkSpan s.periodUs) ∧ ratesOk ws s.periodUs then
      some { start := start, entries := es }
    else none

/-- R421: the default pattern. -/
def defaultPattern (period : Nat) : Pattern :=
  let m := linkSpan period
  { start := 0
    entries := (List.range (48 * m)).map fun e =>
      let q := e / m
      (q * 2 ^ 26 + (q + 24) % 48 * 2 ^ 20 + (if q < 16 then q else 31) * 2 ^ 15, []) }

/-- R61, R402, R420: in a job of several modules, do the digests agree: this module's, and what the exchange of the scheduler cores
gives, the Stitch root's or, where a member's differs from that, the member's (log 141)? -/
def digestOk (s : State) (own given : Nat) : Bool := decide (s.odGet 0x5001 0 = 0) || own == given

/-- R61, R343, R402, R420: in a job of several modules, give the other scheduler cores a digest. -/
def tellDigest (s : State) (d : Nat) : State := if s.odGet 0x5001 0 = 0 then s else s.send (.digest d)

/-! ## The entry in force and shares (R414, R422) -/

/-- Number of the entry of a pattern at a stitch. -/
def entryNo (p : Pattern) (n : Nat) : Nat := if p.entries = [] then 0 else (n - p.start) % p.entries.length

/-- The entry in force with its assignments. -/
def entryNow (s : State) : Option (Nat × List Nat) :=
  s.job.pattern.bind fun p => p.entries[entryNo p s.stitch.count]?

/-- Is a context named in a pattern? -/
def Pattern.names (p : Pattern) (c : Nat) : Bool := p.entries.any fun e => e.2.any fun a => asCtx a == c

/-- The mask of cells that an entry's assignments name. -/
def namedMask (s : State) (as : List Nat) : Nat := as.foldl (fun m a => m ||| cellsetMask s (asSet a)) 0

/-- The class of a context number. -/
def classOf (s : State) (c : Nat) : Nat := ((s.ctx? c).map (·.cls)).getD 0

/-- R422: the cells that can be fill in an entry. -/
def mayFill (s : State) (e : Nat × List Nat) : Nat :=
  (allCells ^^^ (namedMask s e.2 ||| pllMask (pePll e.1)) &&& allCells) |||
    (e.2.filter fun a => classOf s (asCtx a) != 0).foldl (fun m a => m ||| cellsetMask s (asSet a)) 0

/-- R422: does a context have a share of the pattern in force? -/
def hasShare (s : State) (c : Nat) (x : Ctx) : Bool :=
  match s.job.pattern with
  | none => false
  | some p =>
    p.names c || (x.cls == 2 && p.entries.any fun e => mayFill s e &&& cellsetMask s x.cellset != 0)

/-- R414, R422: the pending pattern takes effect: its command completes, and queued commands of contexts that
have lost their share are refused. -/
def takePattern (s : State) : State :=
  match s.job.pending with
  | none => s
  | some p =>
    let s := { s with job := { s.job with pattern := some p.pat, pending := none } }
    let s := complete s p.cmd St.ok Details.zero
    let lost := s.cmds.filter fun c =>
      !c.started && (match s.ctx? c.ctx with
        | some x => c.onContext && !hasShare s c.ctx x
        | none => false)
    lost.foldl (fun s c => complete s c.id St.refusedClass (refusedDetails c.entry)) s

/-- R414: the row of the effect: at edge START_STITCH. -/
def patternTakeEffect (s : State) : State :=
  match s.job.pending with
  | some p => if p.pat.start ≤ s.stitch.count + 1 then takePattern s else s
  | none => s

/-- R414. -/
def execPatternTakeEffect (s : State) : Out := .next (patternTakeEffect s)

/-- R414, R420: PATTERN_LOAD. -/
def patternLoad (s : State) (id rootDigest : Nat) : State :=
  match s.cmd? id with
  | none => s
  | some c =>
    let len := fld c.entry 140 128
    let start := fld c.entry 255 192
    if c.opcode ≠ 0x05 ∨ c.stage ≠ .taken then s
    else if s.job.state = .owned ∧ 1 ≤ len ∧ len ≤ 4096 ∧ s.stitch.count + 2 ≤ start ∧ s.job.pending.isNone then
      match admitPattern s s.job.mode (fld c.entry 105 64) len start with
      | some p =>
        let s := tellDigest s (patternDigest p)
        if digestOk s (patternDigest p) rootDigest then
          let s := s.updCmd id fun c => { c with stage := .active }
          { s with job := { s.job with pending := some { pat := p, cmd := id } } }
        else complete s id St.badDescriptor Details.zero
      | none => complete s id St.badDescriptor Details.zero
    else complete s id St.badDescriptor Details.zero

/-- R414. -/
def execPatternLoad (cmd rootDigest : Nat) (s : State) : Out := .next (patternLoad s cmd rootDigest)

/-! ## The cells of a stitch (R417, R418) -/

/-- The mask of mapped cells. -/
def mappedMask (s : State) : Nat :=
  s.cells.foldl (fun m e => if e.2.served = .unmapped ∧ bit m e.1 then m - 2 ^ e.1 else m) allCells

/-- R417: the cells an entry reserves for class 0 contexts. -/
def reservedGiven (s : State) (as : List Nat) : List Given :=
  (as.filter fun a => classOf s (asCtx a) == 0).map fun a => { ctx := asCtx a, mask := cellsetMask s (asSet a), reserved := true }

/-- R417, R422: is a context's dispatch queue empty: does no command of it hold a place, and wait no pieces? -/
def queueEmpty (s : State) (c : Nat) (x : Ctx) : Bool := placesTaken s c == 0 && x.queue == []

/-- Is an assignment of class 1 or 2 lent to the fill? -/
def lent (s : State) (a : Nat) : Bool :=
  match s.ctx? (asCtx a) with
  | some x => !x.resident || queueEmpty s (asCtx a) x
  | none => true

/-- R417: the assignments of class 1 and 2 that are not lent. -/
def committedGiven (s : State) (as : List Nat) : List Given :=
  (as.filter fun a => classOf s (asCtx a) != 0 && !lent s a).map fun a =>
    { ctx := asCtx a, mask := cellsetMask s (asSet a), reserved := false }

/-- R417: the fill of an entry. -/
def fillMask (s : State) (e : Nat × List Nat) : Nat :=
  let free := mappedMask s
  let named := namedMask s e.2 ||| pllMask (pePll e.1)
  (free ^^^ (free &&& named)) ||| (free &&& (e.2.filter fun a => classOf s (asCtx a) != 0 && lent s a).foldl (fun m a => m ||| cellsetMask s (asSet a)) 0)

/-- Least recently run first, then the lower number; never run counts as least recent. -/
def ranBefore (a b : Nat × Ctx) : Bool :=
  match a.2.lastRan, b.2.lastRan with
  | none, some _ => true
  | some _, none => false
  | some x, some y => decide (x < y ∨ (x = y ∧ a.1 ≤ b.1))
  | none, none => decide (a.1 ≤ b.1)

/-- R418: share out the fill. -/
def shareFill (s : State) : List (Nat × Ctx) → Nat → List Given
  | [], _ => []
  | (c, x) :: r, fill =>
    let take := fill &&& cellsetMask s x.cellset
    { ctx := c, mask := take, reserved := false } :: shareFill s r (fill ^^^ take)

/-- R417, R418: who is given which cells in the stitch of an entry. -/
def givenFor (s : State) (e : Nat × List Nat) : List Given :=
  let takers := sortBy (s.ctxs.filter fun q => q.2.resident && q.2.cls == 2 && !queueEmpty s q.1 q.2) ranBefore
  (reservedGiven s e.2 ++ committedGiven s e.2 ++ shareFill s takers (fillMask s e)).filter fun g => g.mask != 0

end Sys2Proof.Machine
end

