-- ==== Sys2Proof/Machine/Vector.lean ====
section
/-! DEFINITION. The vector engine and the stem engine: maps, reductions, optimizer updates, packing
(R161 to R177, R211 to R214). -/
namespace Sys2Proof.Machine

/-- A value read into an engine in FP32: the word, the flags of reading it, its poison (R75, R76). -/
structure F32In where
  x : F32
  f : Flags
  poison : Bool
  deriving DecidableEq, Repr

/-- Round an operand into FP32. DESIGN CHOICE (log 113): a block-format value beyond the range of FP32 is rounded to
nearest even with SAT and ROUND not acting (R166 names R76 alone). -/
def Opd.toF32 (o : Opd) : F32In := let r := rn32 o.v; { x := r.1, f := o.f ||| r.2, poison := o.poison }

/-- The flag of a poisoned operand (R94, R177). -/
def poisonFlag (p : Bool) : Flags := Flags.when p Flag.poisonSeen

/-! ## Maps (R163 to R169) -/

/-- Element (i, j) of a source before its rounding to FP32 (R163). DESIGN CHOICE (log 25): flush-to-zero does not act
on an immediate. -/
def VecSrc.opd (s : State) (ftz : Bool) (v : VecSrc) (scale i j : Nat) : Opd :=
  match v.imm with
  | some x => { v := val32 x, f := 0, poison := false }
  | none =>
    if v.cb then s.elem ftz (fmtOf v.fmt) (v.addr + i * v.ld) else s.stored ftz (fmtOf v.fmt) v.addr scale v.ld i j

/-- R168: a map operation on FP32 words. -/
def mapFn (code : Nat) (a b c : F32) : F32 × Flags :=
  match code with
  | 0x01 => fadd a b
  | 0x02 => fsub a b
  | 0x03 => fmul a b
  | 0x04 => fdiv a b
  | 0x05 => (fmax a b, 0)
  | 0x06 => (fmin a b, 0)
  | 0x07 => ffma a b c
  | 0x08 => (fabs32 a, 0)
  | 0x09 => (fneg a, 0)
  | 0x0A => (fmin (fmax a b) c, 0)
  | 0x0B => (fsign a, 0)
  | 0x0C => fsqrt a
  | 0x0D => fn2 .rsqrt a
  | 0x0E => fdiv 0x3F800000 a
  | 0x0F => fn2 .exp a
  | 0x10 => fn2 .log a
  | 0x11 => fn2 .tanh a
  | 0x12 => fn2 .sigmoid a
  | 0x13 => fn2 .silu a
  | 0x14 => fn2 .geluTanh a
  | 0x15 => (frelu a, 0)
  | 0x16 => (if isNan32 a || (val32 a).isZero then c else b, 0)
  | 0x17 => (if !isNan32 a && !isNan32 b && Val.lt (val32 b) (val32 a) then 0x3F800000 else 0, 0)
  | _ => (a, 0)

/-- NUMCTL of a vector descriptor, plain where it does not decode (checked at hand-out). -/
def ctlOf (w : Nat) : Numctl := (Numctl.ofNat w).getD Numctl.plainRne

/-- Destination element (i, j) of a map before its conversion to FMT_D: COPY converts the source
directly (R166). -/
def mapEl (s : State) (d : VecD) (i j : Nat) : Val × Flags × Bool :=
  let ftz := (ctlOf d.numctl).ftz
  let os := d.sources.map fun x => x.1.opd s ftz x.2 i j
  let bad := os.any (·.poison)
  if d.code = 0 then
    let o := os.headD { v := Val.zero, f := 0, poison := false }
    (o.v, o.f ||| poisonFlag bad, bad)
  else
    let xs := os.map Opd.toF32
    let at' (k : Nat) : F32 := (xs.map (·.x)).getD k 0
    let r := mapFn d.code (at' 0) (at' 1) (at' 2)
    (val32 r.1, xs.foldl (fun f x => f ||| x.f) (r.2 ||| poisonFlag bad), bad)

/-- R74, R166: the stochastic-rounding index of destination element (i, j). -/
def VecD.idx (d : VecD) (i j : Nat) : Nat := (d.idxBase + i * d.idxRow + j) % 2 ^ 64

/-- A whole map, row by row. DESIGN CHOICE (log 145): row i is written before row i + 1 is read, which shows where D coincides
with a source whose rows overlap. -/
def runMap (s : State) (d : VecD) : State × Flags :=
  let f := fmtOf d.fmtD
  (List.range d.rows).foldl (fun (a : State × Flags) i =>
    let els := (List.range d.cols).map fun j => mapEl a.1 d i j
    let vals := (els.zipIdx).map fun (e, j) => (e.1, d.idx i j, e.2.2)
    let r := writeRow a.1 f (ctlOf d.numctl) d.seed (fun j => d.dAddr + i * d.ldd + j * f.bytes)
      (fun b => (d.dAddr + i * d.ldd + b * f.blockBytes, d.dScale + i * (d.ldd / f.blockBytes) + b)) vals
    (r.1, els.foldl (fun f e => f ||| e.2.1) (a.2 ||| r.2))) (s, 0)

/-- Run the vector engine's next descriptor where it is a map with the code. -/
def mapCmd (s : State) (c code : Nat) : State :=
  runUnit s c .vector (fun w => fld w 7 0 == 0x20 && fld w 39 32 == code) fun s _ i => runMap s (VecD.ofWord i.word)

/-- R168. -/
def execVectorCopy (cell : Nat) (s : State) : Out := onCell cell s fun s => mapCmd s cell 0x00
/-- R168. -/
def execVectorAdd (cell : Nat) (s : State) : Out := onCell cell s fun s => mapCmd s cell 0x01
/-- R168. -/
def execVectorSub (cell : Nat) (s : State) : Out := onCell cell s fun s => mapCmd s cell 0x02
/-- R168. -/
def execVectorMul (cell : Nat) (s : State) : Out := onCell cell s fun s => mapCmd s cell 0x03
/-- R168. -/
def execVectorDiv (cell : Nat) (s : State) : Out := onCell cell s fun s => mapCmd s cell 0x04
/-- R168. -/
def execVectorMax (cell : Nat) (s : State) : Out := onCell cell s fun s => mapCmd s cell 0x05
/-- R168. -/
def execVectorMin (cell : Nat) (s : State) : Out := onCell cell s fun s => mapCmd s cell 0x06
/-- R168. -/
def execVectorFma (cell : Nat) (s : State) : Out := onCell cell s fun s => mapCmd s cell 0x07
/-- R168. -/
def execVectorAbs (cell : Nat) (s : State) : Out := onCell cell s fun s => mapCmd s cell 0x08
/-- R168. -/
def execVectorNeg (cell : Nat) (s : State) : Out := onCell cell s fun s => mapCmd s cell 0x09
/-- R168. -/
def execVectorClamp (cell : Nat) (s : State) : Out := onCell cell s fun s => mapCmd s cell 0x0A
/-- R168. -/
def execVectorSign (cell : Nat) (s : State) : Out := onCell cell s fun s => mapCmd s cell 0x0B
/-- R168. -/
def execVectorSqrt (cell : Nat) (s : State) : Out := onCell cell s fun s => mapCmd s cell 0x0C
/-- R168. -/
def execVectorRsqrt (cell : Nat) (s : State) : Out := onCell cell s fun s => mapCmd s cell 0x0D
/-- R168. -/
def execVectorRecip (cell : Nat) (s : State) : Out := onCell cell s fun s => mapCmd s cell 0x0E
/-- R168. -/
def execVectorExp (cell : Nat) (s : State) : Out := onCell cell s fun s => mapCmd s cell 0x0F
/-- R168. -/
def execVectorLog (cell : Nat) (s : State) : Out := onCell cell s fun s => mapCmd s cell 0x10
/-- R168. -/
def execVectorTanh (cell : Nat) (s : State) : Out := onCell cell s fun s => mapCmd s cell 0x11
/-- R168. -/
def execVectorSigmoid (cell : Nat) (s : State) : Out := onCell cell s fun s => mapCmd s cell 0x12
/-- R168. -/
def execVectorSilu (cell : Nat) (s : State) : Out := onCell cell s fun s => mapCmd s cell 0x13
/-- R168. -/
def execVectorGeluTanh (cell : Nat) (s : State) : Out := onCell cell s fun s => mapCmd s cell 0x14
/-- R168. -/
def execVectorRelu (cell : Nat) (s : State) : Out := onCell cell s fun s => mapCmd s cell 0x15
/-- R168. -/
def execVectorSelect (cell : Nat) (s : State) : Out := onCell cell s fun s => mapCmd s cell 0x16
/-- R168. -/
def execVectorCmpGt (cell : Nat) (s : State) : Out := onCell cell s fun s => mapCmd s cell 0x17

/-! ## Reductions (R170 to R172) -/

/-- Is a reduction a sum? -/
def VecD.isSum (d : VecD) : Bool := decide (d.code ≤ 2 ∨ d.code = 6)

/-- The term of element (i, j): its FP32 value, rounded first where it is a square or a product (R171). -/
def redTerm (s : State) (d : VecD) (i j : Nat) : F32In :=
  let ftz := (ctlOf d.numctl).ftz
  let xs := d.sources.map fun x => (x.1.opd s ftz x.2 i j).toF32
  let a := (xs.map (·.x)).getD 0 0
  let b := (xs.map (·.x)).getD 1 0
  let r : F32 × Flags :=
    match d.code with
    | 1 => fmul a a
    | 2 | 5 => (fabs32 a, 0)
    | 6 => fmul a b
    | _ => (a, 0)
  let bad := xs.any (·.poison)
  { x := r.1, f := xs.foldl (fun f x => f ||| x.f) (r.2 ||| poisonFlag bad), poison := bad }

/-- R172: the larger of two values for MAX and ABSMAX, the smaller for MIN, of exact values: is r kept against d? DESIGN CHOICE
(log 145): of equal values, zeros of opposite sign among them, d is kept. -/
def keepsNew (code : Nat) (r d : Val) : Bool := if code = 4 then Val.lt r d else Val.lt d r

/-- The result of a reduction over its terms: a lined pair for sums, (result, +0) otherwise (R171). -/
def redResult (d : VecD) (ts : List F32In) : Lined × Flags :=
  if d.isSum then linedSum Lined.zero (ts.map fun t => val32 t.x)
  else
    match ts with
    | [] => (Lined.zero, 0)
    | t :: rest => ({ v := rest.foldl (fun m x => if d.code = 4 then fmin m x.x else fmax m x.x) t.x, l := 0 }, 0)

/-- What is written at an address for one result with stochastic-rounding index idx, merged under ACCUM
(R171, R172). -/
def resultEl (s : State) (d : VecD) (addr idx : Nat) (r : Lined) (bad : Bool) : (Nat × List Byte × Bool) × Flags :=
  let f := fmtOf d.fmtD
  let ctl := ctlOf d.numctl
  let e := if d.outLined then 8 else f.bytes
  let old := s.bytes addr e
  let oldBad := d.accum && s.poisonIn addr e
  let bad := bad || oldBad
  let fp := poisonFlag oldBad
  let put (v : F32) (f0 : Flags) : (Nat × List Byte × Bool) × Flags :=
    if d.outLined then ((addr, Lined.toBytes { v := v, l := 0 }, bad), f0 ||| fp)
    else
      let q := convert f ctl (srBits d.seed idx) (val32 v)
      ((addr, leBytes e q.1, bad), f0 ||| fp ||| q.2)
  if d.isSum then
    if d.outLined then
      let q := if d.accum then linedAdd (Lined.ofBytes old) r.val else (r, 0)
      ((addr, q.1.toBytes, bad), q.2 ||| fp)
    else if d.accum then
      let o := (s.elem ctl.ftz f addr).toF32
      let q := Val.add (val32 o.x) r.val
      let v := rn32 q.1
      put v.1 (o.f ||| q.2 ||| v.2)
    else
      let v := rn32 r.val
      put v.1 v.2
  else if d.accum then
    let dv := if d.outLined then (Lined.ofBytes old).val else decodeFmt f (leNat old)
    if (val32 r.v).isNan || dv.isNan then put qnan 0
    else if keepsNew d.code (val32 r.v) dv then put r.v 0
    else ((addr, old, bad), fp)
  else put r.v 0

/-- A whole reduction: result by result computed, then written as one. DESIGN CHOICE (log 145): results that share a destination
(AXIS ROW, LD_D 0) each merge with the element as it was before the descriptor (R172), and the last one's write stands. -/
def runReduction (s : State) (d : VecD) : State × Flags :=
  let e := if d.outLined then 8 else (fmtOf d.fmtD).bytes
  let rs := (List.range d.results).map fun k =>
    let ts :=
      if d.axis = 0 then (List.range d.cols).map fun j => redTerm s d k j
      else (List.range d.rows).map fun i => redTerm s d i k
    let r := redResult d ts
    let addr := if d.axis = 0 then d.dAddr + k * d.ldd else d.dAddr + k * e
    let idx := if d.axis = 0 then d.idx k 0 else d.idx 0 k
    let w := resultEl s d addr idx r.1 (ts.any (·.poison))
    (w.1, ts.foldl (fun f t => f ||| t.f) (r.2 ||| w.2))
  (storeEls s (rs.map (·.1)), rs.foldl (fun f r => f ||| r.2) 0)

/-- Run the vector engine's next descriptor where it is a reduction with the code. -/
def redCmd (s : State) (c code : Nat) : State :=
  runUnit s c .vector (fun w => fld w 7 0 == 0x21 && fld w 39 32 == code) fun s _ i => runReduction s (VecD.ofWord i.word)

/-- R170. -/
def execReductionSum (cell : Nat) (s : State) : Out := onCell cell s fun s => redCmd s cell 0
/-- R170. -/
def execReductionSumsq (cell : Nat) (s : State) : Out := onCell cell s fun s => redCmd s cell 1
/-- R170. -/
def execReductionSumabs (cell : Nat) (s : State) : Out := onCell cell s fun s => redCmd s cell 2
/-- R170. -/
def execReductionMax (cell : Nat) (s : State) : Out := onCell cell s fun s => redCmd s cell 3
/-- R170. -/
def execReductionMin (cell : Nat) (s : State) : Out := onCell cell s fun s => redCmd s cell 4
/-- R170. -/
def execReductionAbsmax (cell : Nat) (s : State) : Out := onCell cell s fun s => redCmd s cell 5
/-- R170. -/
def execReductionDot (cell : Nat) (s : State) : Out := onCell cell s fun s => redCmd s cell 6

/-! ## The optimizer update (R173 to R176) -/

/-- A chain of FP32 operations with their flags. -/
abbrev FF := F32 × Flags

namespace FF

/-- Apply a two-operand operation, joining flags. -/
def op2 (f : F32 → F32 → FF) (a b : FF) : FF := let r := f a.1 b.1; (r.1, a.2 ||| b.2 ||| r.2)
/-- a + b. -/
def add (a b : FF) : FF := op2 fadd a b
/-- a − b. -/
def sub (a b : FF) : FF := op2 fsub a b
/-- a × b. -/
def mul (a b : FF) : FF := op2 fmul a b
/-- a ÷ b. -/
def div (a b : FF) : FF := op2 fdiv a b
/-- √a. -/
def sqrt (a : FF) : FF := let r := fsqrt a.1; (r.1, a.2 ||| r.2)

end FF

/-- The results of updating one element (R174). -/
structure UpdOut where
  w : FF
  m : FF
  v : FF
  g : FF
  u : FF
  deriving DecidableEq, Repr

/-- R174: one element. -/
def updElem (d : UpdD) (w gIn m v : FF) : UpdOut :=
  let k (x : F32) : FF := (x, 0)
  let one : FF := k 0x3F800000
  let g := FF.mul (k d.gscale) gIn
  let mix (b : F32) (a x : FF) : FF := FF.add (FF.mul (k b) a) (FF.mul (FF.sub one (k b)) x)
  let decay := FF.mul (k d.wd) w
  let finish (u m' v' : FF) : UpdOut := { w := FF.sub w u, m := m', v := v', g := g, u := u }
  match d.algo with
  | 0 =>
    let m' := FF.add (FF.mul (k d.beta1) m) g
    finish (FF.mul (k d.lr) (FF.add m' decay)) m' (0, 0)
  | 1 =>
    let m' := mix d.beta1 m g
    let v' := mix d.beta2 v (FF.mul g g)
    let q := FF.div (FF.mul m' (k d.c1)) (FF.add (FF.sqrt (FF.mul v' (k d.c2))) (k d.eps))
    finish (FF.mul (k d.lr) (FF.add q decay)) m' v'
  | _ =>
    let c := mix d.beta1 m g
    let m' := mix d.beta2 m g
    finish (FF.mul (k d.lr) (FF.add (fsign0 c.1, c.2) decay)) m' (0, 0)

/-- The three running sums of R175. -/
structure NormSums where
  w2 : Lined
  g2 : Lined
  u2 : Lined
  f : Flags
  poison : Bool
  deriving DecidableEq, Repr

/-- Add the squares of one element (R175). -/
def NormSums.add (n : NormSums) (o : UpdOut) (bad : Bool) : NormSums :=
  let sq (p : Lined) (x : F32) : Lined × Flags :=
    let q := fmul x x
    let r := linedAdd p (val32 q.1)
    (r.1, q.2 ||| r.2)
  let a := sq n.w2 o.w.1
  let b := sq n.g2 o.g.1
  let c := sq n.u2 o.u.1
  { w2 := a.1, g2 := b.1, u2 := c.1, f := n.f ||| a.2 ||| b.2 ||| c.2, poison := n.poison || bad }

/-- What the elements of an update write: new weights, moments and compute copy. -/
structure UpdWrites where
  w : List (Nat × List Byte × Bool)
  m : List (Nat × List Byte × Bool)
  v : List (Nat × List Byte × Bool)
  c : List (Nat × List Byte × Bool)
  deriving DecidableEq, Repr

/-- Element k of an update (NUMCTL acts on the compute copy alone, R173): its writes, its flags, and what it adds to the sums. -/
def updStep (s : State) (d : UpdD) (k : Nat) : UpdWrites × Flags × UpdOut × Bool :=
  let ctl := ctlOf d.numctl
  let fs := fmtOf d.fmtMV
  let fc := fmtOf d.fmtC
  let get (f : Fmt) (base : Nat) : F32In := (s.elem false f (base + k * f.bytes)).toF32
  let w := get .fp32 d.w
  let g := get .fp32 d.g
  let m := get fs d.m
  let v := if d.algo = 1 then get fs d.v else { x := 0, f := 0, poison := false }
  let bad := w.poison || g.poison || m.poison || v.poison
  let o := updElem d (w.x, w.f) (g.x, g.f) (m.x, m.f) (v.x, v.f)
  let fl := o.w.2 ||| o.m.2 ||| o.v.2 ||| o.u.2 ||| poisonFlag bad
  let state (x : F32) : Nat × Flags := convert fs Numctl.plainRne 0 (val32 x)
  let qm := state o.m.1
  let qv := state o.v.1
  let qc := convert fc ctl (srBits d.seed ((d.idxBase + k) % 2 ^ 64)) (val32 o.w.1)
  let ws : UpdWrites :=
    { w := [(d.wOut + 4 * k, leBytes 4 o.w.1.toNat, bad)]
      m := [(d.mOut + fs.bytes * k, leBytes fs.bytes qm.1, bad)]
      v := if d.algo = 1 then [(d.vOut + fs.bytes * k, leBytes fs.bytes qv.1, bad)] else []
      c := if d.cEn then [(d.c + fc.bytes * k, leBytes fc.bytes qc.1, bad)] else [] }
  (ws, fl ||| qm.2 ||| (if d.algo = 1 then qv.2 else 0) ||| (if d.cEn then qc.2 else 0), o, bad)

/-- A whole update, with the norm sums it stages (R175). No output meets an input (R176), so every element is
computed before any is written; each output range is written as one. A bank may lie in stack memory (R310), or reach into the
scratchpad of a fenced or unmapped cell (R17). -/
def runUpdate (s : State) (c : Nat) (d : UpdD) : State × Flags :=
  let z : NormSums := { w2 := Lined.zero, g2 := Lined.zero, u2 := Lined.zero, f := 0, poison := false }
  let s := sliceLoads s d.reads
  let down := (d.reads ++ d.writes).any fun r => s.downIn r.1 r.2
  let rs := (List.range d.len).map (updStep (s.reachView d.reads) d)
  let f := rs.foldl (fun f r => f ||| r.2.1) 0
  let s := upEls s (rs.flatMap fun r => r.1.w)
  let s := upEls s (rs.flatMap fun r => r.1.m)
  let s := upEls s (rs.flatMap fun r => r.1.v)
  let s := upEls s (rs.flatMap fun r => r.1.c)
  let s := if down then s.draw.updPiece c fun p => { p with targetReset := true } else s
  if d.normEn then
    let n := rs.foldl (fun n r => n.add r.2.2.1 r.2.2.2) z
    (s.updPiece c fun p => { p with staged := { p.staged with norms := p.staged.norms ++
        [{ tag := d.tag, w2 := n.w2, g2 := n.g2, u2 := n.u2, poison := n.poison }] } }, f ||| n.f)
  else (s, f)

/-- The update of an item; that of an update piece takes its gradient from where it was received (R257). -/
def updOf (s : State) (p : Piece) (i : Item) : UpdD :=
  let d := UpdD.ofWord i.word
  match p.upd, (s.ctx? (pdCtx p.desc)).bind (·.step) with
  | some u, some t =>
    let sh := t.shards.getD u.1 0
    { d with g := stageGrad (pdCtx p.desc) (gmFirst t.gmap (shEntry sh) + shFirst sh + u.2.1) }
  | _, _ => d

/-- R325, R531: is the vector engine's next descriptor an update whose banks are held? -/
def updHeld (s : State) (c : Nat) : Bool :=
  (s.pieceOf c).any fun p => p.upd.isSome && (unitNext p .vector).any fun i =>
    let d := updOf s p i
    loadHeld s d.reads || storeHeld s d.writes

/-- Run the vector engine's next descriptor where it is an update by the algorithm. -/
def updCmdRow (s : State) (c algo : Nat) : State :=
  if updHeld s c then s
  else runUnit s c .vector (fun w => fld w 7 0 == 0x22 && fld w 17 16 == algo) fun s p i => runUpdate s c (updOf s p i)

/-- R174. -/
def execUpdateSgdMomentum (cell : Nat) (s : State) : Out := onCell cell s fun s => updCmdRow s cell 0
/-- R174. -/
def execUpdateAdamw (cell : Nat) (s : State) : Out := onCell cell s fun s => updCmdRow s cell 1
/-- R174. -/
def execUpdateLion (cell : Nat) (s : State) : Out := onCell cell s fun s => updCmdRow s cell 2

/-! ## The stem engine (R211 to R214) -/

/-- R211: pack tile row i. -/
def packRow (d : StemD) (a : State × Flags) (i : Nat) : State × Flags :=
  let s := a.1
  let ctl := ctlOf d.numctl
  let es := (fmtOf d.fmtS).bytes
  let fd := fmtOf d.fmtD
  let width := ceilDiv d.q 32 * 32
  let els := (List.range width).map fun q =>
    if q < d.q then
      match d.image d.src es i q with
      | some adr => s.elem ctl.ftz (fmtOf d.fmtS) adr
      | none => { v := Val.zero, f := 0, poison := false }
    else { v := Val.zero, f := 0, poison := false }
  let vals := (els.zipIdx).map fun (o, q) => (o.v, (d.idxBase + i * width + q) % 2 ^ 64, o.poison)
  let r := writeRow s fd ctl d.seed (fun q => d.dst + i * d.packed fd.bytes + q * fd.bytes) (fun _ => (0, 0)) vals
  (r.1, els.foldl (fun f o => f ||| o.f) (a.2 ||| r.2))

/-- R212: unpack packed row i; values in the padding are dropped. -/
def unpackRow (d : StemD) (a : State × Flags) (i : Nat) : State × Flags :=
  let ctl := ctlOf d.numctl
  let fs := fmtOf d.fmtS
  let fd := fmtOf d.fmtD
  let width := ceilDiv d.q 32 * 32
  let rs := (List.range d.q).filterMap fun q =>
    (d.image d.dst fd.bytes i q).map fun adr =>
      let o := a.1.elem ctl.ftz fs (d.src + i * d.packed fs.bytes + q * fs.bytes)
      let r := convert fd ctl (srBits d.seed ((d.idxBase + i * width + q) % 2 ^ 64)) o.v
      ((adr, leBytes fd.bytes r.1, o.poison), o.f ||| r.2 ||| poisonFlag o.poison)
  (storeEls a.1 (rs.map (·.1)), rs.foldl (fun f r => f ||| r.2) a.2)

/-- R211. -/
def execStemPack (cell : Nat) (s : State) : Out :=
  onCell cell s fun s => runUnit s cell .stem (fun w => fld w 7 0 == 0x13) fun s _ i =>
    let d := StemD.ofWord i.word
    (List.range d.m).foldl (packRow d) (s, 0)

/-- R212. -/
def execStemUnpack (cell : Nat) (s : State) : Out :=
  onCell cell s fun s => runUnit s cell .stem (fun w => fld w 7 0 == 0x14) fun s _ i =>
    let d := StemD.ofWord i.word
    (List.range d.m).foldl (unpackRow d) (s, 0)

end Sys2Proof.Machine
end

