-- ==== Sys2Proof/Machine/Stalls.lean ====
section
/-! DEFINITION. What a cell reports as a descriptor retires: the cycles its units waited, by cause, and the errors of its
memories that are not on the address map; the retirement (R109, R117, R182, R230, R292, R293, R317 to R322). -/
namespace Sys2Proof.Machine

/-! ## Causes (R292, R293) -/

/-- R293: the causes, the first that applies first. -/
def causeOrder : List Nat := [4, 7, 3, 2, 1, 0, 5, 6]

/-- The cause a unit counts under, of those it waits for. -/
def firstCause (cs : List Nat) : Option Nat := causeOrder.find? cs.contains

/-- The runs of stack memory that a transfer loads or stores. -/
def Xfer.stackRuns (t : Xfer) : List (Nat × Nat) :=
  t.loads ++ (t.writes.map fun w => (w.1, w.2.1.length)).filter fun r => inStack r.1 r.2

/-- R292: why a unit waits for an earlier descriptor of its piece. -/
def itemCauses (s : State) (c : Nat) (p : Piece) (i : Item) : List Nat :=
  match unitOf i.word with
  | .stream _ =>
    let d := MoveD.ofWord i.word
    let xs := (s.cell c).xfers.filter fun t => decide (t.piece = p.seq ∧ t.slot = i.slot) && !t.dropped
    let waits := d.waitEn && decide (i.stage = .queued ∨ i.stage = .waiting)
    let held := (if waits then [if d.tannery then 7 else 4] else []) ++
      (if xs.any fun t => t.stackRuns.any fun r => decide (0 < levelOf s r.1) then [2] else []) ++
      (if xs.any (·.miss) then [1] else [])
    if held = [] then [0] else held
  | .stem => [0]
  | _ => [6]

/-- Why reads must wait (R117, R153, R160, R350). -/
def readCauses (s : State) (c : Nat) (p : Piece) (slot : Nat) (rs : List Run) : List Nat :=
  ((earlier p slot).flatMap fun i => if runsMeet rs (itemWrites i.word) then itemCauses s c p i else []) ++
    (if linkMeets s (pdCtx p.desc) false rs then [3] else [])

/-- Why writes must wait (R153, R160, R350). -/
def writeCauses (s : State) (c : Nat) (p : Piece) (slot : Nat) (ws : List Run) : List Nat :=
  ((earlier p slot).flatMap fun i =>
    if runsMeet ws (itemReads s i.word ++ itemWrites i.word) then itemCauses s c p i else []) ++
    (if linkMeets s (pdCtx p.desc) true ws then [3] else [])

/-- R107: the wait for a span. -/
def spanCauses (e : Cell) (i : Item) (d : TileD) : List Nat :=
  if i.stage = .queued && !d.chainIn && !spanFree e d then [5] else []

/-- What the units of a cell other than the stream queues wait for, unit by unit: array, preload port, drain, vector engine,
Skiver, stem engine, Harness port. R214: a stem descriptor that nothing else holds waits for its cluster's engine, which a STEM
command stands for (log 138). -/
def unitCauses (s : State) (c : Nat) (p : Piece) : List (List Nat) :=
  let e := s.cell c
  let work (u : CellUnit) : List Nat :=
    match unitNext p u with
    | some i => readCauses s c p i.slot (itemReads s i.word) ++ writeCauses s c p i.slot (itemWrites i.word)
    | none => []
  let array : List (List Nat) :=
    match unitNext p .array with
    | none => []
    | some i =>
      let d := TileD.ofWord i.word
      [readCauses s c p i.slot (arrayReads d) ++ spanCauses e i d ++ (if 4 ≤ e.drainQ.length then [6] else []),
       if i.stage = .queued && !d.chainIn && d.preKind != 0 then readCauses s c p i.slot (preRuns d) ++ spanCauses e i d else []]
  let drain : List Nat :=
    match e.tiles.find? fun t => some t.group == e.drainQ.head? && t.piece == p.seq with
    | some t =>
      let d := TileD.ofWord t.word
      readCauses s c p t.slot (drainReads s d) ++ writeCauses s c p t.slot (drainWrites d) ++
        (if accHeld s c t.group t.groups || segHeld s (drainReads s d ++ drainWrites d) then [0] else [])
    | none => []
  let harness : List Nat :=
    (if p.items.any fun i => decide (unitOf i.word = .harness ∧ i.stage = .waiting) then [4] else []) ++
      (match unitNext p .harness with
       | some i => writeCauses s c p i.slot (itemWrites i.word)
       | none => [])
  let stem : List Nat := let w := work .stem; if w.isEmpty && (unitNext p .stem).isSome then [0] else w
  let vector : List Nat := work .vector ++ (if updHeld s c then [0] else [])
  array ++ [drain, vector, work .skiver, stem, harness]

/-- R292, R293: in n cycles just past the units of a cell waited as they wait now; each distinct cause counts them once. -/
def countStalls (s : State) (c n : Nat) : State :=
  match s.pieceOf c with
  | none => s
  | some p => (((unitCauses s c p).filterMap firstCause).eraseDups).foldl (fun s k => s.cellAdd c k n) s

/-! ## Errors of the memories of a cell (R109, R182, R230, R317 to R322) -/

/-- The word (value or Lining) of entry (i, j) of a tile, 0 out of bounds. -/
def Tile.word32 (t : Tile) (lining : Bool) (i j : Nat) : Nat :=
  if t.m ≤ i ∨ t.n ≤ j then 0
  else
    match t.entries[i * t.n + j]? with
    | some e => if lining then e.p.l.toNat else e.p.v.toNat
    | none => 0

/-- Where sector k of a span lies (DESIGN CHOICE, log 116): eight columns of a row of padded entries, all value words before
all Linings: lining, row, first column. -/
def Tile.sectorAt (t : Tile) (k : Nat) : Bool × Nat × Nat :=
  let cols := roundUp t.n 32 / 8
  let half := roundUp t.m 8 * cols
  (decide (half ≤ k), k % half / cols, 8 * (k % half % cols))

/-- The data bytes of sector k of a span. -/
def Tile.sector (t : Tile) (k : Nat) : List Nat :=
  let p := t.sectorAt k
  (List.range 8).flatMap fun x => (leBytes 4 (t.word32 p.1 p.2.1 (p.2.2 + x))).map (·.toNat)

/-- A span with new data in sector k, its entries poisoned where the data are (R109), and whether the sector is stored in the
poison form from then on (R319). -/
def Tile.setSector (t : Tile) (k : Nat) (d : List Nat) (bad form : Bool) : Tile :=
  let p := t.sectorAt k
  let f (x : AccEntry × Nat) : AccEntry :=
    if x.2 / t.n = p.2.1 ∧ p.2.2 ≤ x.2 % t.n ∧ x.2 % t.n < p.2.2 + 8 then
      let w : F32 := BitVec.ofNat 32 (leNat (((d.map (BitVec.ofNat 8)).drop (4 * (x.2 % t.n - p.2.2))).take 4))
      { p := if p.1 then { x.1.p with l := w } else { x.1.p with v := w }, poison := x.1.poison || bad }
    else x.1
  { t with entries := t.entries.zipIdx.map f, bad := if form then insSorted k t.bad else t.bad.filter (· != k) }

/-- The span of a cell that holds a sector of its accumulator file (128 groups of 32 sectors). -/
def accSpan (s : State) (c sec : Nat) : Option Tile :=
  (s.cell c).tiles.find? fun t => decide (32 * t.group ≤ sec ∧ sec < 32 * (t.group + t.groups))

/-- Write sector k of a span. -/
def putAccSector (s : State) (c : Nat) (t : Tile) (k : Nat) (d : List Nat) (bad form : Bool) : State :=
  s.updCell c fun e => { e with tiles := e.tiles.map fun x => if x.group = t.group then x.setSector k d bad form else x }

/-- R320, R322: a sector of the accumulator file is found uncorrectable, by a TEST of R545: its data stand, in the poison
form. -/
def accLose (s : State) (c sec test : Nat) : State :=
  match accSpan s c sec with
  | none => s
  | some t =>
    let k := sec - 32 * t.group
    if t.bad.contains k then s
    else noteSector (putAccSector s c t k (t.sector k) true true) (c * 2 ^ 17 + 32 * sec) test true (.inCell 4 c (sec / 1024))

/-- R109: a read of a sector of the accumulator file with symbol errors. -/
def accRead (s : State) (c sec : Nat) (errs : List (Nat × Nat)) : State :=
  match accSpan s c sec with
  | none => s
  | some t =>
    let k := sec - 32 * t.group
    let a := c * 2 ^ 17 + 32 * sec
    let put (d : List Nat) (bad form : Bool) : State := putAccSector s c t k d bad form
    match Ecc.read (Ecc.flip (Ecc.stored (t.bad.contains k) (t.sector k)) errs) with
    | .clean d => put d false false
    | .corrected d => noteSector (put d false false) a 3 false (.inCell 4 c (sec / 1024))
    | .poisonForm => put (List.replicate 32 0) true true
    | .uncorrectable d => noteSector (put d true true) a 3 true (.inCell 4 c (sec / 1024))

/-- The pairs of a sector of a cell's Welt. -/
def weltSector (s : State) (c sec : Nat) : List WeltPair :=
  (List.range 4).map fun i => Sp.get WeltPair.zero s.welt (c * 32768 + 4 * sec + i)

/-- Write a sector of a cell's Welt. -/
def setWeltSector (s : State) (c sec : Nat) (d : List Nat) (bad : Bool) : State :=
  { s with welt := (List.range 4).foldl (fun m i =>
      Sp.set WeltPair.zero m (c * 32768 + 4 * sec + i)
        { p := Lined.ofBytes (((d.map (BitVec.ofNat 8)).drop (8 * i)).take 8), poison := bad }) s.welt }

/-- R230, R322: a sector of a cell's Welt is found uncorrectable, by a TEST of R545: its four pairs are poisoned. -/
def weltLose (s : State) (c sec test : Nat) : State :=
  noteSector (setWeltSector s c sec (List.replicate 32 0) true) (c * 2 ^ 18 + 32 * sec) test true (.inCell 3 c 0)

/-- R230: a read of a sector of a cell's Welt with symbol errors: an uncorrectable one poisons its four pairs. -/
def weltRead (s : State) (c sec : Nat) (errs : List (Nat × Nat)) : State :=
  let ps := weltSector s c sec
  let bad := ps.any (·.poison)
  let a := c * 2 ^ 18 + 32 * sec
  match Ecc.read (Ecc.flip (Ecc.stored bad (ps.flatMap fun w => w.p.toBytes.map (·.toNat))) errs) with
  | .clean d => setWeltSector s c sec d false
  | .corrected d => noteSector (setWeltSector s c sec d false) a 3 false (.inCell 3 c 0)
  | .poisonForm => setWeltSector s c sec (List.replicate 32 0) true
  | .uncorrectable _ => weltLose s c sec 3

/-- R182: the record of a row of side memory fails its parity check when it is read next. -/
def upsetSide (s : State) (c row : Nat) : State :=
  let r := Sp.get SideRec.zero s.side (c * 4096 + row)
  { s with side := Sp.set SideRec.zero s.side (c * 4096 + row) { r with badParity := !r.badParity } }

/-- The symbol errors that reports name for a sector of the accumulator file (base 64) or the Welt (base 128). -/
def reportErrs (base sec : Nat) (rs : List (Nat × Nat)) : List (Nat × Nat) :=
  rs.filterMap fun r => if base ≤ r.1 ∧ r.1 < base + 36 ∧ r.2 / 256 = sec then some (r.1 - base, r.2 % 256) else none

/-- The sectors that reports name. -/
def reportSectors (base : Nat) (rs : List (Nat × Nat)) : List Nat :=
  ((rs.filter fun r => decide (base ≤ r.1 ∧ r.1 < base + 36)).map fun r => r.2 / 256).eraseDups

/-- What a cell reports (DESIGN CHOICE, log 120), as pairs of a kind and a value: 0, cycles in which its units waited as they
wait now; 1, a record of side memory that has lost its parity; 64 + place, a symbol error of a sector of the accumulator file, as sector ×
256 + difference; 128 + place, one of the Welt. -/
def takeReports (s : State) (c : Nat) (rs : List (Nat × Nat)) : State :=
  let s := countStalls s c ((rs.filter fun r => r.1 == 0).map (·.2)).sum
  let s := (rs.filter fun r => r.1 == 1).foldl (fun s r => upsetSide s c (r.2 % 4096)) s
  let s := (reportSectors 64 rs).foldl (fun s k => accRead s c (k % 4096) (reportErrs 64 k rs)) s
  (reportSectors 128 rs).foldl (fun s k => weltRead s c (k % 8192) (reportErrs 128 k rs)) s

/-! ## Retirement -/

/-- R117, R160, R290: a descriptor whose work is done retires, after the cell's report. A persistent stream stays armed (R288).
Where no finished descriptor is at the slot the command is a report alone, so the cycles of a wait are counted, and errors of
the accumulator file and the Welt found, before what ends the wait or reads the sector (log 120). -/
def retire (s : State) (c slot : Nat) (reports : List (Nat × Nat)) : State :=
  let s := takeReports s c reports
  match (s.pieceOf c).bind fun p => p.items.find? fun i => i.slot == slot && i.finished with
  | none => s
  | some i =>
    let keeps := fld i.word 7 0 == 0x40 && (MoveD.ofWord i.word).persist
    let s := s.updPiece c fun p =>
      { p with
        items := if keeps then updFirst (fun j => j.slot == slot && j.finished) (fun j => { j with stage := .armed }) p.items
          else p.items.erase i
        staged := { p.staged with ops := p.staged.ops ++ signalOf i } }
    finishCheck (fetchMore s c) c

/-- R117. -/
def execDescriptorRetire (cell slot : Nat) (stalls : List (Nat × Nat)) (s : State) : Out :=
  onCell cell s fun s => retire s cell slot stalls

end Sys2Proof.Machine
end

