-- ==== Sys2Proof/Machine/HotSet.lean ====
section
/-! DEFINITION. The hot set: conditions of contexts, victims, swaps (R244, R405 to R412, R423). -/
namespace Sys2Proof.Machine

/-! ## Conditions (R410) -/

/-- Cells that hold a piece of a context. -/
def cellsRunning (s : State) (c : Nat) : List Nat :=
  (s.cells.filter fun e => e.2.piece.any fun p => pdCtx p.desc == c).map (·.1)

/-- R410: idle. -/
def ctxIdle (s : State) (c : Nat) (x : Ctx) : Bool := queueEmpty s c x && cellsRunning s c == []

/-- R292, R410: is a cell's piece stalled under SYNC_WAIT or TANNERY_EMPTY? -/
def pieceStalled (s : State) (c : Nat) (p : Piece) : Bool :=
  ((unitCauses s c p).filterMap firstCause).any fun k => k == 4 || k == 7

/-- R410: at an edge, note for a context that held cells in the stitch that ends whether each of its pieces was stalled: one with
no piece, running or waiting, has none that was not (log 67). -/
def noteStalled (s : State) (c : Nat) (x : Ctx) : Ctx :=
  if !x.holding then { x with retired := false }
  else
    let ps := s.cells.filterMap fun e => (e.2.piece.filter fun p => pdCtx p.desc == c).map fun p => (e.1, p)
    { x with stalled := (ps != [] || x.queue == []) && (ps.all fun q => pieceStalled s q.1 q.2) && !x.retired, retired := false }

/-- R410: blocked. -/
def ctxBlocked (s : State) (c : Nat) (x : Ctx) : Bool := !ctxIdle s c x && x.stalled

/-- R408: do two contexts conflict? -/
def conflict (s : State) (x y : Ctx) : Bool :=
  rangesMeet x.hotOff x.hotSize y.hotOff y.hotSize ||
    (cellsetMask s x.cellset &&& cellsetMask s y.cellset != 0 &&
      (rangesMeet x.spOff x.spSize y.spOff y.spSize || rangesMeet x.weltOff x.weltSize y.weltOff y.weltSize))

/-- R409: is a context pinned, for good or for a time? -/
def pinnedNow (s : State) (c : Nat) (x : Ctx) : Bool :=
  x.pinned || x.gathering != [] || (x.step.any fun t => t.due || t.gathered) ||
    s.fab.any fun o => o.ctx == c && (o.landing ++ o.sending).any (touchesSwap s x)

/-- R411: may a resident context be evicted for W? -/
def evictable (s : State) (w : Ctx) (c : Nat) (x : Ctx) : Bool :=
  x.resident && !pinnedNow s c x && cellsRunning s c == [] &&
    (ctxIdle s c x || ctxBlocked s c x || (decide (w.cls ≤ x.cls) && decide (s.odGet 0x5011 0 ≤ x.held)))

/-! ## Moving a context's state (R244, R405, R407) -/

/-- The cells of a set, in logical order. -/
def cellList (mask : Nat) : List Nat := (List.range cellCount).filter (bit mask)

/-- R407: the copies of a context: place in use, place in the backing area, bytes. -/
def backRuns (s : State) (x : Ctx) : List (Nat × Nat × Nat) :=
  (if x.hotSize = 0 then [] else
    (List.range 128).map fun k => (slmBase + k * sliceBytes + x.hotOff, x.back + k * x.hotSize, x.hotSize)) ++
  (if x.spSize = 0 then [] else
    ((cellList (cellsetMask s x.cellset)).zipIdx).filterMap fun (c, k) =>
      if s.cellDown c then none else some (spOf c + x.spOff, x.back + 128 * x.hotSize + k * x.spSize, x.spSize))

/-- R244: save a dirty Welt window, and clear it. -/
def saveWelt (s : State) (x : Ctx) (c : Nat) : State :=
  let k0 := c * 32768 + x.weltOff / 8
  let els := (List.range (x.weltSize / 8)).map fun i =>
    let w := Sp.get WeltPair.zero s.welt (k0 + i)
    (spillAddr x c + 8 * i, w.p.toBytes, w.poison)
  let s := reachEls s els
  { s with welt := s.welt.filter fun e => !decide (k0 ≤ e.1 ∧ e.1 < k0 + x.weltSize / 8) }

/-- R244: restore a Welt window to the same cell and offsets. -/
def restoreWelt (s : State) (x : Ctx) (c : Nat) : State :=
  (List.range (x.weltSize / 8)).foldl (fun s i =>
    let a := spillAddr x c + 8 * i
    let w : WeltPair := { p := Lined.ofBytes (s.bytes a 8), poison := s.poisonIn a 8 }
    { s with welt := Sp.set WeltPair.zero s.welt (c * 32768 + x.weltOff / 8 + i) w }) s

/-- R412: bytes that a swap of a context moves. -/
def swapSize (s : State) (x : Ctx) : Nat :=
  128 * x.hotSize + (cellList (cellsetMask s x.cellset)).length * x.spSize + x.dirty.length * x.weltSize

/-- R412: save a victim. -/
def saveCtx (s : State) (c : Nat) (x : Ctx) : State :=
  let s := (backRuns s x).foldl (fun s r => s.swapRange r.1 r.2.1 r.2.2) s
  let s := x.dirty.foldl (fun s k => saveWelt s x k) s
  s.updCtx c fun x => { x with resident := false }

/-- R412: load a context. -/
def loadCtx (s : State) (x : Ctx) : State :=
  let s := (backRuns s x).foldl (fun s r => s.swapRange r.2.1 r.1 r.2.2) s
  x.dirty.foldl (fun s k => restoreWelt s x k) s

/-! ## The decision of an edge (R409, R411, R412) -/

/-- R411: a 257th resident context: who gives way. -/
def oneMore (s : State) (w : Ctx) : Option (Nat × Ctx) :=
  let cand := s.ctxs.filter fun e => evictable s w e.1 e.2
  let rank (e : Nat × Ctx) : Nat := if ctxIdle s e.1 e.2 then 0 else if ctxBlocked s e.1 e.2 then 1 else 2
  (sortBy cand fun a b => decide (rank a < rank b) || (rank a == rank b && ranBefore a b)).head?

/-- R411: the victims of a wanted context, none where one of them may not go. -/
def victims (s : State) (wn : Nat) (w : Ctx) : Option (List (Nat × Ctx)) :=
  let inWay := s.ctxs.filter fun e => e.1 != wn && e.2.hot && conflict s w e.2
  let ok (e : Nat × Ctx) : Bool :=
    if w.createCmd.isSome then e.2.resident && !pinnedNow s e.1 e.2 && cellsRunning s e.1 == [] else evictable s w e.1 e.2
  if !inWay.all ok then none
  else if (s.ctxs.filter fun e => e.2.hot).length - inWay.length < 256 then some inWay
  else
    match oneMore { s with ctxs := s.ctxs.filter fun e => !(inWay.any fun v => v.1 == e.1) } w with
    | some v => some (inWay ++ [v])
    | none => none

/-- A context wanted at this edge (R410), a created one that waits for its load among them (R409). -/
def wanted (s : State) (c : Nat) (x : Ctx) : Bool :=
  !x.resident && x.swapEnd.isNone && (x.createCmd.isSome || !ctxIdle s c x)

/-- R411: the order in which wanted contexts are served. -/
def wantedOrder (a b : Nat × Ctx) : Bool := decide (a.2.cls < b.2.cls) || (a.2.cls == b.2.cls && ranBefore a b)

/-- What an edge has decided so far: state, contexts loaded, bytes, all contexts in a swap, blocked loads. -/
structure SwapPlan where
  s : State
  loads : List Nat
  bytes : Nat
  moved : List Nat
  blocked : Bool
  deriving DecidableEq, Repr

/-- R423, R425: a runnable context is evicted: count it, and mark its commands. -/
def markEvicted (s : State) (c : Nat) (x : Ctx) : State :=
  if ctxIdle s c x || ctxBlocked s c x then s
  else
    let s := s.odAdd 0x8072 0 1
    { s with cmds := s.cmds.map fun k => if k.ctx = c ∧ (k.opcode = 0x10 ∨ k.opcode = 0x11) then { k with evicted := true } else k }

/-- R325, R531: must a swap wait: does it move data of a stack at level 3, or of a memory segment under test? -/
def swapHeld (s : State) (x : Ctx) : Bool :=
  let runs := (backRuns s x).flatMap fun r => [(r.1, r.2.2), (r.2.1, r.2.2)]
  loadHeld s runs || storeHeld s runs || x.dirty.any fun c => weltHeld s c x.weltOff x.weltSize

/-- R411: try to load one wanted context. A swap that a stack or a test holds does not begin (log 130). -/
def tryLoad (p : SwapPlan) (e : Nat × Ctx) : SwapPlan :=
  if 16 ≤ p.loads.length then p
  else
    match victims p.s e.1 e.2 with
    | none => { p with blocked := true }
    | some vs =>
      if swapHeld p.s e.2 || vs.any fun v => swapHeld p.s v.2 then p else
      let s := vs.foldl (fun s v => saveCtx (markEvicted s v.1 v.2) v.1 v.2) p.s
      let s := loadCtx s e.2
      let s := s.updCtx e.1 fun x => { x with loading := true, swapEnd := some 0, held := 0 }
      { p with
        s := s, loads := p.loads ++ [e.1], bytes := p.bytes + swapSize p.s e.2 + (vs.map fun v => swapSize p.s v.2).sum
        moved := p.moved ++ e.1 :: vs.map (·.1) }

/-- R411, R412, R425: the loads and evictions of an edge. -/
def hotSetEdge (s : State) : State :=
  let ws := sortBy (s.ctxs.filter fun e => wanted s e.1 e.2) wantedOrder
  let p := ws.foldl tryLoad { s := s, loads := [], bytes := 0, moved := [], blocked := false }
  let s := if p.blocked then p.s.odAdd 0x8073 0 1 else p.s
  if p.loads = [] then s
  else
    let d := ceilDiv (p.bytes * 4) (61 * s.periodUs * 2 ^ 20)
    let s := s.odAdd 0x8070 0 p.loads.length
    let s := { s with job := { s.job with swapBytes := s.job.swapBytes + p.bytes } }
    p.moved.foldl (fun s c => s.updCtx c fun x => { x with swapEnd := some (s.stitch.count + d) }) s

/-- R412, R409: the swap of a context has ended: a loaded one is resident, and its creation completes. -/
def swapDone (s : State) (c : Nat) : State :=
  match s.ctx? c with
  | none => s
  | some x =>
    let s := s.setCtx c { x with swapEnd := none, loading := false, resident := x.loading, createCmd := none }
    match x.createCmd with
    | some id => if x.loading then complete s id St.ok Details.zero else s.updCtx c fun x => { x with createCmd := some id }
    | none => s

/-- R412: the row of a swap's end: at edge t + D. -/
def swapComplete (s : State) (c : Nat) : State :=
  match (s.ctx? c).bind (·.swapEnd) with
  | some t => if t ≤ s.stitch.count + 1 then swapDone s c else s
  | none => s

/-- R412. -/
def execSwapComplete (ctx : Nat) (s : State) : Out := onCtx ctx s fun s => swapComplete s ctx

/-- R412: at an edge every swap that is due has ended. -/
def swapsDue (s : State) : State :=
  ((s.ctxs.filter fun e => e.2.swapEnd.any fun t => decide (t ≤ s.stitch.count)).map (·.1)).foldl swapDone s

/-! ## Deferral (R423, R424) -/

/-- R423: the edge counts for every command that has not started while its context was not resident or the
scheduler core was down. -/
def countDeferral (s : State) : State :=
  { s with cmds := s.cmds.map fun k =>
      let away := (s.ctx? k.ctx).any fun x => !x.resident
      if k.onContext ∧ !k.started ∧ (away ∨ s.schedDown) then { k with k := min (2 ^ 32 - 1) (k.k + 1) } else k }

/-- R424. -/
def class2Refuse (s : State) (id : Nat) : State :=
  match s.cmd? id with
  | none => s
  | some c =>
    let n := s.odGet 0x5012 0
    if c.onContext ∧ classOf s c.ctx = 2 ∧ !c.started ∧ n ≠ 0 ∧ n ≤ c.k then complete s id St.refusedCapacity (refusedDetails c.entry) else s

/-- R424: at an edge, the commands whose count has reached the limit. -/
def refuseLate (s : State) : State := (s.cmds.map (·.id)).foldl class2Refuse s

/-- R424. -/
def execClass2Refuse (cmd : Nat) (s : State) : Out := .next (class2Refuse s cmd)

end Sys2Proof.Machine
end

