-- ==== Sys2Proof/Machine/Jobs.lean ====
section
/-! DEFINITION. Jobs and contexts: open, close, scrub, creation and destruction (R393 to R404, R409, R441). -/
namespace Sys2Proof.Machine

/-- R393: the code of JOB_STATE. -/
def JobState.code : JobState → Nat
  | .idle => 0
  | .opening => 1
  | .owned => 2
  | .closing => 3
  | .scrubbing => 4

/-! ## Tables of the job open (R23, R303, R343, R396, R445, R582) -/

/-- R445: the fields of a JOB_OPEN entry. -/
structure JobD where
  id : Nat
  members : Nat
  memberCount : Nat
  regions : Nat
  regionCount : Nat
  sets : Nat
  setCount : Nat
  pattern : Nat
  patternLen : Nat
  deriving DecidableEq, Repr

/-- R445. -/
def JobD.ofWord (w : Nat) : JobD :=
  { id := fld w 127 64, members := fld w 169 128, memberCount := fld w 415 384, regions := fld w 233 192,
    regionCount := fld w 431 416, sets := fld w 297 256, setCount := fld w 447 432, pattern := fld w 361 320,
    patternLen := fld w 463 448 }

/-- A table of R582 in SLM: n entries of k bytes at a multiple of al; a table of no entries has no place. -/
def slmEntries (s : State) (a n k al : Nat) : Option (List Nat) :=
  if n = 0 then some []
  else if a % al = 0 ∧ s.inAreas a (n * k) ∧ !s.meetsJournal a (n * k) ∧ !s.poisonIn a (n * k) then
    some ((List.range n).map fun i => s.rd (a + i * k) k)
  else none

/-- R22, R23: is a module count in the range of a scale mode? -/
def countFits (mode n : Nat) : Bool :=
  match mode with
  | 0 => decide (n = 1)
  | 1 => decide (2 ≤ n ∧ n ≤ 1024)
  | _ => decide (1025 ≤ n ∧ n ≤ 262144)

/-- R305, R306: are the regions of a table legal? -/
def regionsOk (ws : List Nat) : Bool :=
  let rs := ws.map Region.ofWord
  ws.all Region.wordOk && disjointRanges (rs.map fun r => (r.baseGib, r.sizeGib)) &&
    State.placementOk (sortBy rs fun a b => decide (a.baseGib ≤ b.baseGib))

/-- R445, R463: does no enabled ring lie in a cache partition or reach into the journal? -/
def ringsClear (s : State) : Bool :=
  s.rings.all fun e =>
    let r := e.2
    !r.enable ||
      (s.inAreas r.sqBase (64 * 2 ^ r.sqLog) && s.inAreas r.cqBase (64 * 2 ^ r.cqLog) &&
        !s.meetsJournal r.sqBase (64 * 2 ^ r.sqLog) && !s.meetsJournal r.cqBase (64 * 2 ^ r.cqLog))

/-- R61: the digest of the far objects that exist. DESIGN CHOICE (log 142): in index order, the local index of each in 4 bytes and
its configuration word in 8. -/
def farDigest (s : State) : Nat :=
  leNat (Keccak.shake256 ((s.sync.filter fun e => e.2.far).flatMap fun e => leBytes 4 e.1 ++ leBytes 8 e.2.configWord) 32)

/-- What the other members know, as a job open meets it: the root's period, the scale mode of the others,
the root's digests of far objects, member table and first pattern, and the planes lost on others. -/
structure Peers where
  period : Nat
  mode : Nat
  far : Nat
  members : Nat
  pattern : Nat
  planes : Nat
  deriving DecidableEq, Repr

/-- R397 steps 1 and 2: the checks of a job open: the job's tables and its pattern, none where one fails. The
journal is reserved from here on (R463). -/
def openChecks (s : State) (d : JobD) (p : Peers) : Option (List Nat × List Nat × List Nat × Pattern) :=
  let mode := s.odGet 0x5001 0
  match slmEntries s d.members d.memberCount 4 4, slmEntries s d.regions d.regionCount 16 16, slmEntries s d.sets d.setCount 1024 64 with
  | some ms, some rs, some cs =>
    let s' := { s with job := { s.job with cellsets := cs, members := ms } }
    let pat := if d.patternLen = 0 then some (defaultPattern s.periodUs) else admitPattern s' mode d.pattern d.patternLen 0
    match pat with
    | none => none
    | some pat =>
      let root := s.odGet 0x5005 0
      let standby := s.odGet 0x5005 1
      let alone := mode = 0
      let own := s.moduleId = root
      if countFits mode d.memberCount ∧ ascending ms ∧ ms.contains s.moduleId ∧ d.regionCount ≤ 64 ∧ regionsOk rs ∧
          1 ≤ d.setCount ∧ d.setCount ≤ 1024 ∧ !cs.contains 0 ∧ d.patternLen ≤ 4096 ∧ ringsClear s ∧
          (alone ∨ (root ≠ standby ∧ ms.contains root ∧ ms.contains standby ∧ p.mode = mode)) ∧
          (alone ∨ own ∨ (p.period = s.periodUs ∧ p.far = farDigest s ∧ p.members = digest32 ms)) ∧
          digestOk s (patternDigest pat) p.pattern then
        some (ms, rs, cs, pat)
      else none
  | _, _, _ => none

/-- Counters of the dictionary that a job open clears (R96, R149, R297, R270, R322, R339, R391, R425, R512,
R516, R522, R552): index by index. -/
def jobCounters : List Nat :=
  [0x8020, 0x8030, 0x8031, 0x8035, 0x8040, 0x8050, 0x8051, 0x8052, 0x8053, 0x8054, 0x8055, 0x4020, 0x4021, 0x4022, 0x4040,
   0x4041, 0x4042] ++
  [0x8060, 0x8061, 0x8062, 0x8063, 0x8064, 0x8065, 0x8066, 0x8067, 0x8070, 0x8071, 0x8072, 0x8073, 0x8074, 0x8100, 0x8101,
   0x8102, 0x8103, 0x8120, 0x8121, 0x8122]

/-- Clear the counters of a job. -/
def clearCounters (s : State) : State :=
  { s with
    od := s.od.filter fun e => !jobCounters.contains (e.1 / 256)
    cellCtr := s.cellCtr.filter fun e => decide (e.1 % 32 = State.ctrRunOn ∨ e.1 % 32 = State.ctrAbort)
    cellFlags := [], clusterFlags := [], moduleFlags := 0, stepWord := none, missing := [] }

/-- R344: planes lost on this module. -/
def ownLost (s : State) : Nat :=
  (List.range 48).foldl (fun m p => if (s.port p).serves then m else m + 2 ^ p) 0

/-- R37: the clock of a job that opens: not below its floor, but for a trip and the safe operating point; FABRIC mode applies its
points at the edges (R518). -/
def openClock (s : State) (mode : Nat) : Nat :=
  if mode = 2 ∨ s.safeTrip ∨ s.powerDown then s.clock else max s.clock (s.odGet 0x2201 0)

/-- R397: adopt what a job open has checked (steps 3 and 4); the first edge owns the module. -/
def adopt (s : State) (d : JobD) (p : Peers) (ms rs cs : List Nat) (pat : Pattern) (id : Nat) : State :=
  let mode := s.odGet 0x5001 0
  let s := clearCounters s
  let b := budgetClock s mode
  let s := (s.odSet 0x5007 0 b).odSet 0x4013 0 (ownLost s ||| (if mode = 0 then 0 else p.planes))
  let s := s.updCmd id fun c => { c with stage := .active }
  let s := if mode = 0 then s else s.send (.planesLost (ownLost s))
  { s with
    clock := openClock s mode
    job := { Job.none with state := .opening, id := d.id, members := ms, regions := rs, cellsets := cs, mode := mode, budgetMHz := b,
                           openCmd := some id, zeroAtEdge := true, pattern := some pat }
    stitch := { s.stitch with root := s.odGet 0x5005 0, standby := s.odGet 0x5005 1, standbyIn := 0, lost := false, holdover := false,
                              markers := [], quiet := 0 }
    fab := [], notices := [], fabSeqs := [], snaps := [], streams := [], side := [] }

/-- R527: MODULE_HEALTH; 0 only where no unit has failed. DEDUCED (log 134): a FAILED port is a failed unit of kind OPTICAL_ENGINE, so it reads 1. -/
def moduleHealth (s : State) : Nat :=
  let kinds := s.flash.failed.map (· / 65536)
  if kinds.any fun k => k == 6 || k == 7 || k == 8 || k == 0x0A then 2
  else if (s.cells.any fun e => decide (e.2.served ≠ .identity)) ||
      decide (s.flash.failed ≠ []) || (s.ports.any fun e => e.2.state == .failed) then 1
  else 0

/-- R477, R527, R546: is a job open denied: a debug scope beyond BOUNDARY, test mode, or an unserviceable module? -/
def openDenied (s : State) : Bool :=
  decide (2 ≤ s.secure.scope) || decide (s.odGet 0x7040 0 = 1) || decide (moduleHealth s = 2)

/-- R61, R343, R420: the digests of a job open that the scheduler cores exchange: of the far objects, the member table and the
first pattern, as far as the tables can be read. -/
def tellOpen (s : State) (d : JobD) : State :=
  match slmEntries s d.members d.memberCount 4 4 with
  | none => tellDigest s (farDigest s)
  | some ms =>
    let pat := if d.patternLen = 0 then some (defaultPattern s.periodUs)
      else admitPattern { s with job := { s.job with members := ms, cellsets := (slmEntries s d.sets d.setCount 1024 64).getD [] } }
        (s.odGet 0x5001 0) d.pattern d.patternLen 0
    let s := tellDigest (tellDigest s (farDigest s)) (digest32 ms)
    match pat with
    | some p => tellDigest s (patternDigest p)
    | none => s

/-- R394, R397, R485: JOB_OPEN. JOB_STATE has left IDLE when the command was taken. -/
def jobOpen (s : State) (id : Nat) (p : Peers) : State :=
  match s.cmd? id with
  | none => s
  | some c =>
    if c.opcode ≠ 0x01 ∨ c.stage ≠ .taken then s
    else if s.job.openCmd ≠ some id then complete s id St.busy Details.zero
    else if openDenied s then complete { s with job := Job.none } id St.denied Details.zero
    else
      let d := JobD.ofWord c.entry
      let s := tellOpen s d
      match openChecks s d p with
      | some (ms, rs, cs, pat) => adopt s d p ms rs cs pat id
      | none => complete { s with job := Job.none } id St.badDescriptor Details.zero

/-- R397. -/
def execJobOpen (cmd period mode far members pattern planes : Nat) (s : State) : Out :=
  .next (jobOpen s cmd { period := period, mode := mode, far := far, members := members, pattern := pattern, planes := planes })

/-- R24: have all 131 firmware processors adopted the job's mode: the scheduler and power-management cores and the control core of
every cluster are up? -/
def adopted (s : State) : Bool :=
  !s.schedDown && !s.powerDown && (List.range 128).all fun b => !(s.block b).fenced

/-- R397 step 5: at the first edge the module is owned and the open completes. -/
def jobOwned (s : State) : State :=
  match s.job.openCmd with
  | none => s
  | some id =>
    let s := { s with job := { s.job with state := .owned, openCmd := none, zeroAtEdge := false } }
    let mapped := cellCount - (s.cells.filter fun e => decide (e.2.served = .unmapped)).length
    complete s id St.ok { Details.zero with d0 := mapped + s.job.budgetMHz * 2 ^ 32 }

/-! ## The end of a job (R398, R399, R441) -/

/-- The details an unfinished command carries when the job ends under it (R450). -/
def endDetails (s : State) (c : Cmd) : Details :=
  match c.opcode with
  | 0x10 => runDetails c
  | 0x11 => gridDetails c (s.obj (fld (s.rd (fld c.entry 105 64) 64) 176 160))
  | 0x14 => { Details.zero with d0 := ((s.snaps.find? fun p => p.cmd == c.id).map (·.id)).getD 0 }
  | 0x18 => { Details.zero with d0 := c.bytes }
  | _ => Details.zero

/-- R398: a cell at the end of a job: a commit that has started completes (R44), a running piece is dropped. -/
def endCell (s : State) (c : Nat) : State :=
  let s := match s.pieceOf c with
    | some p => if p.committing then commitPiece s c p else abandon s c p
    | none => s
  s.updCell c fun e => { e with claim := none, skips := [], slack := 0 }

/-- R398: an open step ends STEP_ABORTED; no votes have been counted for it. -/
def endStep (s : State) (ctx : Nat) : State :=
  match (s.ctx? ctx).bind (·.step) with
  | none => s
  | some t =>
    let x := ((s.ctx? ctx).map (·.bank)).getD 0
    complete (s.updCtx ctx fun x => { x with step := none }) t.cmd St.stepAborted
      { stepDetails s { t with outcome := .aborted } x 0 with d2 := 0, d3 := 0 }

/-- R398: end the job's work; the command that closes it, if one does, is left. -/
def jobEnd (s : State) (closeCmd : Option Nat) : State :=
  let s := { s with job := { s.job with state := .closing, given := [] } }
  let s := (s.cells.map (·.1)).foldl endCell s
  let s := (s.streams.map (·.1)).foldl (fun s n => endStream s n 0 St.ok) s
  let s := (s.ctxs.map (·.1)).foldl endStep s
  let s := s.fab.foldl (fun s o => if o.cmd.isSome then endFab s o St.targetReset else s) s
  let s := s.cmds.foldl (fun s c => if some c.id = closeCmd ∨ c.ring = 1025 then s
    else if c.opcode = 0x12 then complete s c.id St.stepAborted { Details.zero with d0 := soStep c.entry }
    else complete s c.id St.targetReset (endDetails s c)) s
  let s := { s with job := { s.job with pending := none, openCmd := none, zeroAtEdge := false }, fab := [], notices := [], snaps := [], pllCal := [], pllIdle := [], hostReads := [],
                    outbox := s.outbox.filter fun m => !m.ofLease }
  match closeCmd with
  | some id => complete s id St.ok Details.zero
  | none => s

/-- The end of a job, and then the scrub (R398). -/
def closeJob (s : State) (closeCmd : Option Nat) : State :=
  let s := jobEnd s closeCmd
  { s with job := { s.job with state := .scrubbing } }

/-- R398 without a command: the job ends and the event is logged (R560). -/
def endJobFault (s : State) (rule : Nat) : State :=
  if s.job.state = .owned ∨ s.job.state = .opening then
    closeJob (logEvent s .jobEndFault srcModule 0 rule 0) none
  else s

/-- R394, R398: JOB_CLOSE. -/
def jobClose (s : State) (id : Nat) : State :=
  match s.cmd? id with
  | none => s
  | some c =>
    if c.opcode ≠ 0x02 ∨ c.stage ≠ .taken then s
    else if s.job.state ≠ .owned then complete s id St.badDescriptor Details.zero
    else closeJob s (some id)

/-- R398. -/
def execJobClose (cmd : Nat) (s : State) : Out := .next (jobClose s cmd)

/-- R439, R441: a ring pair when the scrub ends: the held records of one that stays enabled are kept, those of one that is stopped
are discarded and counted. -/
def scrubRing (n : Nat) (r : Ring) : Ring :=
  let r := { r with sqHead := 0, sqTail := 0, cqHead := 0, cqTail := 0, cqPhase := true }
  if n < 1024 then { r with enable := false, state := .disabled, held := [], cqDropped := (r.cqDropped + r.held.length) % 2 ^ 32 } else r

end Sys2Proof.Machine
end

