-- ==== Sys2Proof/Machine/Contexts.lean ====
section
/-! DEFINITION. Contexts and the commands of a context's ring: creation, destruction, RUN, GRID, SYNC_OP (R60,
R61, R148, R400 to R409, R444, R583). -/
namespace Sys2Proof.Machine

/-! ## The object table (R55, R60, R402, R583) -/

/-- The object a table entry asks for, none where the entry breaks R55, R60 or R583. -/
def objectOf (ctx w : Nat) : Option (Nat × SyncObj) :=
  let c := fld w 63 0
  let far := bit c 57
  let param := fld c 31 0
  match Kind.ofCode (fld c 63 60) with
  | none | some .free => none
  | some k =>
    let counts := k = .barrier ∨ k = .semaphore ∨ k = .tileCounter
    if fld c 59 58 = 3 ∨ bit c 32 ∨ fld w 127 81 ≠ 0 ∨ (counts ∧ param = 0) ∨ (¬ counts ∧ param ≠ 0) ∨
        (far ∧ (k = .semaphore ∨ k = .tileCounter)) ∨ (¬ far ∧ fld c 56 44 ≠ 0) then none
    else
      some (fld w 80 64, { SyncObj.free with kind := k, cls := fld c 59 58, far := far, farIndex := fld c 56 44, ctx := ctx, param := param })

/-- R403: all objects of a table, none where an entry is wrong, an index is taken, or a far index is in use. -/
def objectsOf (s : State) (ctx : Nat) (ws : List Nat) : Option (List (Nat × SyncObj)) :=
  match ws.mapM (objectOf ctx) with
  | none => none
  | some os =>
    let fars := (os.filter fun o => o.2.far).map fun o => o.2.farIndex
    if (os.map (·.1)).Nodup ∧ (os.all fun o => (s.obj o.1).kind == .free) ∧ fars.Nodup ∧
        (fars.all fun f => s.sync.all fun e => !(e.2.far && e.2.farIndex == f)) then some os
    else none

/-- The digest of the far objects of a new context (R402). DESIGN CHOICE (log 142): of the bytes `farDigest` takes. -/
def newFarDigest (os : List (Nat × SyncObj)) : Nat :=
  leNat (Keccak.shake256 ((os.filter fun o => o.2.far).flatMap fun o => leBytes 4 o.1 ++ leBytes 8 o.2.configWord) 32)

/-! ## Creation (R401, R403, R409) -/

/-- A context just created. -/
def Ctx.fresh (record : Nat) (objs : List Nat) : Ctx :=
  { record := record, resident := false, swapEnd := none, loading := false, queue := [], lastRan := none, held := 0,
    holding := false, retired := false, stalled := false, createCmd := none, objs := objs, dirty := [], step := none,
    stepNo := 0, bank := 0, gathering := [], weltLost := false, tally := [], runOns := 0, aborts := 0 }

/-- R407: the backing area. -/
def backRange (s : State) (x : Ctx) : Nat × Nat :=
  (x.back, 128 * x.hotSize + (cellList (cellsetMask s x.cellset)).length * x.spSize)

/-- Does a range of slice offsets reach into the journal (R463)? -/
def offsetsInJournal (s : State) (off n : Nat) : Bool := s.meetsJournal (slmBase + 127 * sliceBytes + off) n

/-- R401, R403, R463: may a record be created? -/
def recordOk (s : State) (x : Ctx) : Bool :=
  let r := x.record
  let others := s.ctxs.map (·.2)
  rsvClear r [(511, 490), (447, 426), (127, 114), (95, 48), (35, 34), (23, 19), (15, 10)] &&
    decide (x.cls ≤ 2 ∧ x.cellset < s.job.cellsets.length) &&
    decide (x.back % 4096 = 0 ∧ x.objAddr % 16 = 0 ∧ x.objCount ≤ 131072) &&
    decide (x.fixSize % 65536 = 0 ∧ 65536 ≤ x.fixSize ∧ x.fixOff % 65536 = 0 ∧ x.hotSize % 65536 = 0 ∧ x.hotOff % 65536 = 0) &&
    decide (x.spSize % 4096 = 0 ∧ x.spOff % 4096 = 0 ∧ x.weltSize % 256 = 0 ∧ x.weltOff % 256 = 0) &&
    decide (x.weltOff + x.weltSize ≤ 262144 ∧ x.spOff + x.spSize ≤ spBytes ∧ x.fixOff + x.fixSize ≤ s.slmArea ∧ x.hotOff + x.hotSize ≤ s.slmArea) &&
    !rangesMeet x.hotOff x.hotSize x.fixOff x.fixSize && decide (64 * x.weltSize + 32 * x.tags ≤ x.fixSize) &&
    others.all (fun y => !rangesMeet x.fixOff x.fixSize y.hotOff y.hotSize && !rangesMeet x.fixOff x.fixSize y.fixOff y.fixSize &&
      !rangesMeet x.hotOff x.hotSize y.fixOff y.fixSize && !rangesMeet (backRange s x).1 (backRange s x).2 (backRange s y).1 (backRange s y).2) &&
    s.backed (backRange s x).1 (backRange s x).2 && !offsetsInJournal s x.fixOff x.fixSize && !offsetsInJournal s x.hotOff x.hotSize

/-- R403, R409: does a pinned context meet another that is pinned, for good or for a time, or is it the 257th? -/
def pinRefused (s : State) (x : Ctx) : Bool :=
  let ps := (s.ctxs.filter fun e => pinnedNow s e.1 e.2).map (·.2)
  x.pinned && (ps.any (conflict s x) || decide (256 ≤ ps.length))

/-- R400, R403, R409: CONTEXT_CREATE. The root's digest of the new far objects comes with the command. -/
def contextCreate (s : State) (id rootDigest : Nat) : State :=
  match s.cmd? id with
  | none => s
  | some c =>
    let bad := complete s id St.badDescriptor Details.zero
    if c.opcode ≠ 0x03 ∨ c.stage ≠ .taken then s
    else if s.job.state ≠ .owned then bad
    else
      match slmTable s (fld c.entry 105 64) 64 64 with
      | none => bad
      | some r =>
        let x := Ctx.fresh r []
        if fld r 9 0 ≠ c.ctx ∨ (s.ctx? c.ctx).isSome ∨ !recordOk s x then bad
        else
          match (if x.objCount = 0 then some [] else slmEntries s x.objAddr x.objCount 16 16).bind (objectsOf s c.ctx) with
          | none => bad
          | some os =>
            let s := tellDigest s (newFarDigest os)
            if !digestOk s (newFarDigest os) rootDigest then complete s id St.badDescriptor Details.zero
            else if pinRefused s x then complete s id St.refusedCapacity Details.zero
            else
              let s := os.foldl (fun s o => s.setObj o.1 o.2) s
              let s := s.setCtx c.ctx { x with objs := os.map (·.1), createCmd := if x.pinned then some id else none }
              if x.pinned then s.updCmd id fun c => { c with stage := .active } else complete s id St.ok Details.zero

/-- R403. -/
def execContextCreate (cmd rootDigest : Nat) (s : State) : Out := .next (contextCreate s cmd rootDigest)

/-- Is a command one of a context: of its ring, or its creation or destruction? -/
def ofContext (k : Cmd) : Bool := (k.ring == 1024 && (k.opcode == 3 || k.opcode == 4)) || k.onContext

/-- R404: may a context be destroyed by a command? -/
def mayDestroy (s : State) (c id : Nat) (x : Ctx) : Bool :=
  x.step.isNone && x.gathering == [] && x.createCmd.isNone && (s.cmds.all fun k => k.id == id || k.ctx != c || !ofContext k) &&
    (s.streams.all fun e => e.2.state != 1 || Stream.ctx e.2.record != c) && (s.snaps.all fun p => p.ctx != c) &&
    !(s.job.pattern.any fun p => p.names c) && !(s.job.pending.any fun p => p.pat.names c)

/-- R404: CONTEXT_DESTROY. -/
def contextDestroy (s : State) (id : Nat) : State :=
  match s.cmd? id with
  | none => s
  | some c =>
    if c.opcode ≠ 0x04 ∨ c.stage ≠ .taken then s
    else
      match s.ctx? c.ctx with
      | none => complete s id St.badDescriptor Details.zero
      | some x =>
        if s.job.state = .owned ∧ mayDestroy s c.ctx id x then
          let s := x.objs.foldl (fun s o => s.setObj o SyncObj.free) s
          complete { s with ctxs := Sp.del s.ctxs c.ctx } id St.ok Details.zero
        else complete s id St.badDescriptor Details.zero

/-- R404. -/
def execContextDestroy (cmd : Nat) (s : State) : Out := .next (contextDestroy s cmd)

/-! ## RUN and GRID (R148, R444) -/

/-- A command of a context without pieces begins its work. -/
def beginCmd (s : State) (id : Nat) : State := s.updCmd id fun c => { c with stage := .active, started := true }

/-- R444: RUN: its pieces join the dispatch queue; those that name another context or a tile counter end. -/
def runCommand (s : State) (id : Nat) : State :=
  match s.cmd? id with
  | none => s
  | some c =>
    let n := fld c.entry 143 128
    if c.opcode ≠ 0x10 ∨ c.stage ≠ .taken then s
    else
      match (if n = 0 then none else slmEntries s (fld c.entry 105 64) n 64 64) with
      | none => complete s id St.badDescriptor (refusedDetails c.entry)
      | some ds =>
        let s := s.updCmd id fun c => { c with stage := .active, left := n }
        let isBad (d : Nat) : Bool := pdCtx d != c.ctx || pdTileEn d
        let qs := (ds.zipIdx).filterMap fun (d, i) => if isBad d then none else some (QEntry.piece id i d none false)
        let s := s.updCtx c.ctx fun x => { x with queue := x.queue ++ qs }
        (ds.filter isBad).foldl (fun s d => runPieceEnded s id (pdId d) St.badDescriptor) s

/-- R444. -/
def execRun (cmd : Nat) (s : State) : Out := .next (runCommand s cmd)

/-- R148: the counter of a grid, as a grid begins. -/
def gridReset (o : SyncObj) : SyncObj := { o with value := 0, doneCount := 0, failed := 0, reissue := [] }

/-- R148, R444: GRID. DESIGN CHOICE (log 118): a released index held back for the stores of its old holder (R144) counts
as a reissue entry of the counter, and refuses the GRID. -/
def gridCommand (s : State) (id : Nat) : State :=
  match s.cmd? id with
  | none => s
  | some c =>
    if c.opcode ≠ 0x11 ∨ c.stage ≠ .taken then s
    else
      match slmTable s (fld c.entry 105 64) 64 64 with
      | none => complete s id St.badDescriptor Details.zero
      | some d =>
        let j := fld d 176 160
        let o := s.obj j
        if !pdTileEn d ∨ pdCtx d ≠ c.ctx then complete s id St.badDescriptor Details.zero
        else if o.kind = .free ∨ o.ctx ≠ c.ctx then complete s id St.denied Details.zero
        else if o.kind ≠ .tileCounter ∨ o.leases ≠ [] ∨ o.reissue ≠ [] ∨ o.held ≠ [] then complete s id St.badDescriptor Details.zero
        else
          let s := (s.setObj j (gridReset o)).updCmd id fun c => { c with stage := .active }
          s.updCtx c.ctx fun x => { x with queue := x.queue ++ [.grid id d j] }

/-- R148. -/
def execGrid (cmd : Nat) (s : State) : Out := .next (gridCommand s cmd)

/-! ## SYNC_OP (R444) -/

/-- R444: the operation a SYNC_OP code names. -/
def hostOp : Nat → Option SyncOp
  | 0 => some .read
  | 1 => some .add
  | 2 => some .set
  | 3 => some .eventSet
  | 4 => some .eventClear
  | 5 => some .post
  | 6 => some .arrive
  | _ => none

/-- R444, R450: a SYNC_OP with one of the codes. -/
def syncOpCommand (s : State) (id code : Nat) : State :=
  match s.cmd? id with
  | none => s
  | some c =>
    if c.opcode ≠ 0x17 ∨ c.stage ≠ .taken ∨ fld c.entry 99 96 ≠ code then s
    else
      match hostOp code with
      | none => complete s id St.badDescriptor Details.zero
      | some op =>
        let j := fld c.entry 80 64
        let v := fld c.entry 191 128
        match ((s.obj j).refuses c.ctx op v).or (if op.listed (s.obj j).kind then none else some St.badDescriptor) with
        | some st => complete s id st Details.zero
        | none =>
          let s := if op = .read then s else syncChange s j op v
          complete s id St.ok { d0 := (s.obj j).stateWord, d1 := (s.obj j).configWord, d2 := 0, d3 := 0 }

/-- R444 READ. -/
def execSyncOpRead (cmd : Nat) (s : State) : Out := .next (syncOpCommand s cmd 0)
/-- R444 ADD. -/
def execSyncOpAdd (cmd : Nat) (s : State) : Out := .next (syncOpCommand s cmd 1)
/-- R444 SET. -/
def execSyncOpSet (cmd : Nat) (s : State) : Out := .next (syncOpCommand s cmd 2)
/-- R444 EVENT_SET. -/
def execSyncOpEventSet (cmd : Nat) (s : State) : Out := .next (syncOpCommand s cmd 3)
/-- R444 EVENT_CLEAR. -/
def execSyncOpEventClear (cmd : Nat) (s : State) : Out := .next (syncOpCommand s cmd 4)
/-- R444 POST. -/
def execSyncOpPost (cmd : Nat) (s : State) : Out := .next (syncOpCommand s cmd 5)
/-- R444 ARRIVE. -/
def execSyncOpArrive (cmd : Nat) (s : State) : Out := .next (syncOpCommand s cmd 6)

end Sys2Proof.Machine
end

