-- ==== Sys2Proof/Machine/Codec.lean ====
section
/-! DEFINITION. The stash forms (R217 to R219, R249, R250). -/
namespace Sys2Proof.Machine

/-- floor(log2 |x|) of a non-zero finite value. -/
def floorLog2 (v : Val) : Int := v.top

/-- The largest magnitude of a list. -/
def amax (xs : List Val) : Val := xs.foldl maxMag Val.zero

/-- |x| ÷ 2^e, rounded to an integer, ties to even. -/
def roundDiv2 (x : Val) (e : Int) : Nat :=
  match x with
  | .fin _ m k => (roundTo .rne 0 m k e).1
  | _ => 0

/-- R218: encode 32 BF16 values with m magnitude bits: the block as an integer, and its flags. -/
def codecEncode (m : Nat) (xs : List Val) : Nat × Flags :=
  if xs.any fun x => x.isNan || x.isInf then
    -- every element decodes to NaN (DEDUCED, log 115: INEXACT where one is none)
    (0xFF, Flag.invalid ||| Flags.when (xs.any fun x => !x.isNan) Flag.inexact)
  else
    let signs := (xs.zipIdx).foldl (fun w x => w + (if x.1.neg then 2 ^ (32 + (m + 1) * x.2 + m) else 0)) 0
    let a := amax xs
    if a.isZero then (signs, 0)
    else
      let e := max (floorLog2 a) (-126)
      let off (s : Nat) : Nat :=
        let sa := amax ((xs.drop (4 * s)).take 4)
        if sa.isZero then 7 else (min 7 (e - floorLog2 sa)).toNat
      let step (s : Nat) : Int := max (e - (off s : Int) + 1 - m) (-133)
      let q (i : Nat) (x : Val) : Nat := min (2 ^ m - 1) (roundDiv2 x (step (i / 4)))
      let offs := (List.range 8).foldl (fun w s => w + off s * 2 ^ (3 * s + 8)) 0
      let mags := (xs.zipIdx).foldl (fun w x => w + q x.2 x.1 * 2 ^ (32 + (m + 1) * x.2)) 0
      let inexact := (xs.zipIdx).any fun x => !Val.eq (.fin x.1.neg (q x.2 x.1) (step (x.2 / 4))) x.1
      ((e + 127).toNat + offs + signs + mags, Flags.when inexact Flag.inexact)

/-- R218: decode element i of a block. -/
def codecDecode (m w i : Nat) : Val :=
  let ef := fld w 7 0
  if ef = 0xFF then .nan false
  else
    let e : Int := (ef : Int) - 127
    let o := fld w (3 * (i / 4) + 10) (3 * (i / 4) + 8)
    let f := fld w (32 + (m + 1) * i + m) (32 + (m + 1) * i)
    .fin (decide (2 ^ m ≤ f)) (f % 2 ^ m) (max (e - (o : Int) + 1 - m) (-133))

/-- R249: an element in form E4M3_SCALED. -/
def stashE4m3 (x : Val) (scale : F32) : Nat × Flags :=
  let p := Val.mul x (val32 scale)
  let r := rn32 p.1
  let q := convert .e4m3 { Numctl.plainRne with sat := true } 0 (val32 r.1)
  (q.1, p.2 ||| r.2 ||| q.2)

/-- R249: the decoded value of an element in form E4M3_SCALED: q ÷ SCALE, SCALE a power of two. -/
def unstashE4m3 (b : Nat) (scale : F32) : Val :=
  match decodeFmt .e4m3 b, val32 scale with
  | .fin s m e, .fin _ n k => .fin s m (e - k - (Nat.log2 n : Int))
  | v, _ => v

end Sys2Proof.Machine
end

