-- ==== Sys2Proof/Machine/OdEntries.lean ====
section
/-! DEFINITION. The entries of the object dictionary: type, access right and legal values (R22 to R557 where each is
defined, R479 to R484, R502, R504, R510, R513, R544). -/
namespace Sys2Proof.Machine

/-- R481: the types. -/
inductive OdType where
  | bool
  /-- Unsigned, of so many bytes. -/
  | u (n : Nat)
  /-- Two's complement, of so many bytes. -/
  | i (n : Nat)
  | vstr
  | octets (n : Nat)
  | domain
  deriving DecidableEq, Repr

/-- R481: size of a value in bytes; 0 where it varies. -/
def OdType.size : OdType → Nat
  | .bool => 1
  | .u n => n
  | .i n => n
  | .octets n => n
  | .vstr => 0
  | .domain => 0

/-- R482: the access rights. -/
inductive OdRight where
  | ro
  | rw
  | wo
  | rwi
  | const
  deriving DecidableEq, Repr

/-- Entries of one kind: indices, subindices, type, right, and the legal values as first, last and step; none: every
value of the type. -/
structure OdEntry where
  index : Nat
  last : Nat
  sub : Nat
  subLast : Nat
  ty : OdType
  right : OdRight
  legal : List (Nat × Nat × Nat)
  deriving DecidableEq, Repr

namespace OdEntry

/-- Entries of one index. -/
def row (index sub subLast : Nat) (ty : OdType) (right : OdRight) (legal : List (Nat × Nat × Nat) := []) : OdEntry :=
  { index := index, last := index, sub := sub, subLast := subLast, ty := ty, right := right, legal := legal }

/-- Does this line hold the entry? -/
def has (e : OdEntry) (index sub : Nat) : Bool :=
  decide (e.index ≤ index ∧ index ≤ e.last ∧ e.sub ≤ sub ∧ sub ≤ e.subLast)

/-- R483: is a value legal? -/
def admits (e : OdEntry) (v : Nat) : Bool :=
  (e.ty != .bool || decide (v ≤ 1)) &&
    (e.legal == [] || e.legal.any fun r => decide (r.1 ≤ v ∧ v ≤ r.2.1 ∧ (v - r.1) % r.2.2 = 0))

end OdEntry

namespace Od

open OdEntry

/-- R502, R497, R501: identity and communication. -/
def identityEntries : List OdEntry :=
  [row 0x1000 0 0 .vstr .const, row 0x1001 0 1 (.u 2) .const, row 0x1002 0 0 (.u 8) .const, row 0x1004 0 0 (.octets 6) .const,
   row 0x1005 0 0 (.u 1) .ro, row 0x1008 0 0 (.u 1) .ro, row 0x1009 0 0 (.u 1) .ro,
   row 0x100A 0 0 (.u 2) .rwi [(10, 3600, 1)]]

/-- R506, R510, R513, R514, R516: power and thermal. -/
def powerEntries : List OdEntry :=
  [row 0x2000 1 3 (.u 4) .ro, row 0x2010 1 128 (.i 4) .ro, row 0x2011 1 32 (.i 4) .ro, row 0x2012 0 0 (.i 4) .ro,
   row 0x2020 1 128 (.u 4) .ro, row 0x2021 1 128 (.u 4) .ro, row 0x2104 2 2 (.u 4) .rw [(4500, 9000, 100)],
   row 0x2110 0 0 (.i 4) .rwi [(70, 100, 1)]] ++
  [row 0x2200 1 1 (.u 2) .rwi [(1000, 1800, 25)], row 0x2200 2 16 (.u 2) .rwi [(0, 0, 1), (1000, 1800, 25)],
   row 0x2201 0 0 (.u 2) .rwi [(1000, 1800, 25)], row 0x2300 0 0 .bool .rwi]

/-- R311, R323, R324, R542, R544, R548: memory and repair. -/
def memoryEntries : List OdEntry :=
  [row 0x3010 0 0 (.u 1) .rwi [(0, 16, 1)], row 0x3020 1 12 (.i 4) .ro, row 0x3021 1 12 (.i 4) .ro,
   row 0x3022 0 0 (.i 4) .rwi [(75, 95, 1)], row 0x3040 0 0 (.u 1) .rwi [(1, 24, 1)], row 0x3041 0 0 (.u 2) .rwi [(1, 1000, 1)],
   row 0x3100 1 128 (.octets 64) .ro, row 0x3101 1 128 (.octets 66) .ro] ++
  [row 0x3102 0 0 (.u 2) .ro, row 0x3103 0 0 (.u 2) .ro, row 0x3110 1 12 (.u 4) .ro, row 0x3111 0 0 (.u 4) .ro,
   row 0x3120 1 0x86 (.u 2) .ro]

/-- R332 to R361: Latigo. -/
def fabricEntries : List OdEntry :=
  [row 0x4001 0 0 (.u 4) .rwi [(0, 0x3FFFF, 1)], row 0x4010 1 48 (.u 1) .ro, row 0x4011 1 48 .bool .rwi, row 0x4012 1 48 (.u 1) .ro,
   row 0x4013 0 0 (.u 8) .ro, row 0x4020 1 48 (.u 8) .ro, row 0x4021 1 48 (.u 8) .ro, row 0x4022 1 48 (.u 8) .ro] ++
  [row 0x4030 1 3 (.u 1) .rwi [(1, 15, 1)], row 0x4040 0 0 (.u 8) .ro, row 0x4041 0 0 (.u 8) .ro, row 0x4042 0 0 (.u 8) .ro,
   row 0x4050 0 0 (.u 4) .rwi]

/-- R22 to R46, R143, R266, R278, R393, R425, R557: scheduling and scale. -/
def schedulingEntries : List OdEntry :=
  [row 0x5000 0 0 (.u 1) .ro, row 0x5001 0 0 (.u 1) .rwi [(0, 2, 1)], row 0x5002 0 0 (.u 4) .rwi [(20, 20000, 1)],
   row 0x5003 0 0 (.u 1) .rwi [(0, 25, 1)], row 0x5004 0 0 (.u 1) .rwi [(0, 4, 1)], row 0x5005 0 1 (.u 4) .rwi,
   row 0x5005 2 3 (.u 4) .ro, row 0x5006 0 0 (.u 8) .ro, row 0x5007 0 0 (.u 4) .ro] ++
  [row 0x5008 0 0 (.u 1) .rwi [(6, 64, 1)], row 0x5009 0 0 (.u 4) .rwi, row 0x5009 1 2 (.u 8) .rwi,
   row 0x5009 3 3 (.u 8) .rwi [(0, 2 ^ 64 - 65536, 65536)], row 0x5010 0 0 (.u 1) .rwi [(0, 1, 1)],
   row 0x5011 0 0 (.u 2) .rwi [(1, 65535, 1)], row 0x5012 0 0 (.u 4) .rwi, row 0x5013 0 0 (.u 2) .ro, row 0x5014 0 0 (.u 2) .ro,
   row 0x5015 0 0 (.u 1) .rwi [(0, 16, 1)]]

/-- R391: the Tannery. -/
def tanneryEntries : List OdEntry :=
  [row 0x6001 0 0 (.u 1) .rwi [(2, 255, 1)], row 0x6002 0 0 (.u 4) .rwi [(100, 10000000, 1)], row 0x6010 1 64 (.u 1) .ro,
   row 0x6011 1 64 (.u 8) .ro]

/-- R30, R527, R528, R532 to R536, R545, R546: test. -/
def testEntries : List OdEntry :=
  [row 0x7001 0 0 (.u 1) .ro, row 0x7002 0 0 (.u 2) .rwi [(40, 400, 40)], row 0x7003 0 0 (.u 1) .rwi [(0, 1, 1)],
   row 0x7004 0 0 .bool .rwi, row 0x7010 0 0 .bool .rwi, row 0x7020 0 0 (.u 1) .rwi [(1, 2, 1)], row 0x7021 0 0 (.u 1) .rw [(1, 2, 1)],
   row 0x7022 0 0 (.u 1) .ro] ++
  [row 0x7023 0 0 (.u 8) .ro, row 0x7024 1 64 (.octets 32) .ro, row 0x7030 0 0 (.u 1) .rwi [(1, 2, 1)], row 0x7040 0 0 .bool .rw,
   row 0x7041 0 0 (.octets 8) .wo, row 0x7042 0 0 (.octets 4) .wo]

/-- Telemetry and counters, each where its events are defined. DESIGN CHOICE (log 123): the counts of R50 per cell and per
context are at subindices 1, for the cell that UTIL_CELL_SELECT names, and 2, the contexts' counts one after another. -/
def counterEntries : List OdEntry :=
  [row 0x8010 0 1 (.u 8) .ro, row 0x8010 2 2 .domain .ro, row 0x8011 0 1 (.u 8) .ro, row 0x8011 2 2 .domain .ro, row 0x8013 0 0 (.u 8) .ro, row 0x8014 0 0 (.u 8) .ro, row 0x8015 0 0 (.u 8) .ro,
   row 0x8020 0 0 (.u 1) .ro, row 0x8030 0 0 (.u 8) .ro, row 0x8031 0 0 (.u 8) .ro, row 0x8032 0 0 (.u 2) .rw [(0, 8191, 1)],
   row 0x8032 1 4 (.u 8) .ro] ++
  [row 0x8033 1 3 (.u 8) .ro, row 0x8034 1 8 (.u 8) .ro, row 0x8035 0 2 (.u 8) .ro, row 0x8040 0 0 (.u 8) .ro, row 0x8050 1 12 (.u 8) .ro,
   row 0x8051 1 12 (.u 8) .ro, row 0x8052 1 2 (.u 8) .ro, row 0x8053 1 2 (.u 8) .ro, row 0x8054 1 12 (.u 8) .ro, row 0x8055 1 12 (.u 8) .ro] ++
  [{ index := 0x8060, last := 0x8067, sub := 1, subLast := 64, ty := .u 8, right := .ro, legal := [] },
   { index := 0x8070, last := 0x8074, sub := 0, subLast := 0, ty := .u 8, right := .ro, legal := [] },
   row 0x8080 1 4 (.u 8) .ro, row 0x8082 1 3 (.u 8) .ro, row 0x8090 0 0 (.u 8) .ro, row 0x8090 1 1 (.u 8) .rw, row 0x8090 2 2 (.u 8) .ro] ++
  [row 0x8100 0 0 (.u 8) .ro, row 0x8101 0 0 (.u 8) .ro, row 0x8102 0 0 (.u 8) .ro, row 0x8103 1 128 (.u 8) .ro, row 0x8110 0 0 (.u 8) .ro,
   row 0x8111 0 0 (.u 4) .ro, row 0x8120 0 0 (.u 8) .ro, row 0x8121 0 0 (.u 8) .ro, row 0x8122 0 0 (.u 8) .ro]

/-- R479, R500, R504: security, and the event log. -/
def securityEntries : List OdEntry :=
  [row 0x9000 0 2 (.u 1) .ro, row 0x9001 1 4 (.u 4) .ro, row 0x9002 0 0 .domain .wo, row 0x9003 0 0 (.u 1) .ro, row 0x9004 0 0 .bool .rwi,
   row 0x9005 0 0 (.u 4) .ro, row 0x9006 0 0 .bool .rwi, row 0x9010 0 0 .domain .ro, row 0x9011 0 0 (.octets 32) .wo] ++
  [row 0x9012 0 0 .domain .ro, row 0x9020 0 0 (.octets 32) .ro, row 0x9021 0 0 .domain .wo, row 0x9022 0 0 (.u 4) .ro,
   row 0x9023 0 0 .bool .wo, row 0x9030 0 0 (.u 8) .ro, row 0x9040 1 8 (.octets 32) .rwi,
   { index := 0xA000, last := 0xAFFF, sub := 0, subLast := 0, ty := .octets 32, right := .ro, legal := [] }]

/-- All entries. -/
def entries : List OdEntry :=
  identityEntries ++ powerEntries ++ memoryEntries ++ fabricEntries ++ schedulingEntries ++ tanneryEntries ++ testEntries ++
    counterEntries ++ securityEntries

/-- The line of an entry; none where index and subindex name none (R480). -/
def entry? (index sub : Nat) : Option OdEntry := entries.find? fun e => e.has index sub

end Od

end Sys2Proof.Machine
end

