-- ==== Sys2Proof/Machine/SelfTest.lean ====
section
/-! DEFINITION. The outcome of self-test and the map of logical cells (R12 to R18, R478, R526, R527, R539 to R545). -/
namespace Sys2Proof.Machine

/-! ## The map of logical cells (R13 to R17) -/

/-- The physical index a map entry gives. -/
def servedIndex (c : Nat) : Served → Option Nat
  | .identity => some (c % 64)
  | .phys p => some p
  | .unmapped => none

/-- R15, R17: map one logical cell: kept where its physical cell works, else the lowest working spare that serves
no cell, else unmapped. -/
def mapCell (s : State) (c : Nat) : State :=
  let k := c / 64
  let keeps := (servedIndex c (s.cell c).served).any fun p => !physBad s k p
  if keeps then s
  else
    let inUse := (List.range 64).filterMap fun i => servedIndex (64 * k + i) (s.cell (64 * k + i)).served
    match [64, 65].find? fun p => !physBad s k p && !inUse.contains p with
    | some p => s.updCell c fun e => { e with served := .phys p }
    | none =>
      if (s.cell c).served = .unmapped then s
      else logEvent (s.updCell c fun e => { e with served := .unmapped }) .cellUnmapped srcCell c 0 0

/-- Clusters with an unusable physical cell. -/
def hurtClusters (s : State) : List Nat :=
  ((s.flash.failed.filter fun x => decide (65536 ≤ x ∧ x < 131072)).map fun x =>
    32 * fld x 15 14 + fld x 13 9).eraseDups

/-- R14, R539: the map rebuild: failures whose rerun has not ended kept as not confirmed (DESIGN CHOICE, log 144), repairs
applied, confirmed failures marked, cells mapped, fences of cells and clusters over (R16, R462). -/
def rebuildMap (s : State) : State :=
  let s := applyPending ((s.phys.map (·.2.found)).foldl (fun s ws => settleRecords s ws false) s)
  let s := (s.phys.filter fun e => e.2.confirmed).foldl (fun s e => failUnit s 1 (cellUnit (e.1 / 66) (e.1 % 66))) s
  let s := { s with phys := Sp.mapVals Phys.init (fun _ p => { p with test := none, rerun := none, found := [], confirmed := false, more := 0 }) s.phys }
  let s := { s with cells := Sp.mapVals Cell.init (fun _ e => { e with fenced := false, fencing := none }) s.cells }
  let s := { s with blocks := Sp.mapVals Block.init (fun b v =>
    if b < 128 then { v with fenced := false, fencing := none, ready := false, expiries := 0 } else v) s.blocks }
  (hurtClusters s).foldl (fun s k => (List.range 64).foldl (fun s i => mapCell s (64 * k + i)) s) s

/-- R14: the map at module start: from the default map. -/
def bootMap (s : State) : State := rebuildMap { s with cells := Sp.mapVals Cell.init (fun _ e => { e with served := .identity }) s.cells }

/-! ## What the dictionary shows (R527, R544) -/

/-- Working spares that serve no cell. -/
def sparesLeft (s : State) : Nat :=
  let used := (s.cells.filterMap fun e => match e.2.served with | .phys p => if 64 ≤ p then some (e.1 / 64 * 66 + p) else none | _ => none)
  256 - (((s.flash.failed.filter fun x => decide (65536 ≤ x ∧ x < 131072 ∧ 64 ≤ fld x 8 2)).length) + used.length)

/-- Unmapped logical cells. -/
def unmappedCells (s : State) : Nat := (s.cells.filter fun e => decide (e.2.served = .unmapped)).length

/-- R544: CELL_MAP of a cluster, byte by byte. -/
def cellMap (s : State) (k : Nat) : List Byte :=
  (List.range 64).map fun i => BitVec.ofNat 8 ((servedIndex (64 * k + i) (s.cell (64 * k + i)).served).getD 0xFF)

/-- R544: the state of a physical cell. -/
def physState (s : State) (k p : Nat) : Nat :=
  if physBad s k p then 2
  else
    match (List.range 64).find? fun i => servedIndex (64 * k + i) (s.cell (64 * k + i)).served == some p with
    | some i => if s.cellDown (64 * k + i) then 3 else 0
    | none => 1

/-- R544: CELL_STATE of a cluster. -/
def cellStates (s : State) (k : Nat) : List Byte := (List.range 66).map fun p => BitVec.ofNat 8 (physState s k p)

/-- R544: spare rows left on the channels of a stack. -/
def stackRowsLeft (s : State) (st : Nat) : Nat :=
  8192 - ((s.flash.spareRows.filter fun e => e.1 / 128 == st).map (·.2)).sum

/-! ## Scrub (R398, R399, R478, R534) -/

/-- R478: the unit that holds a sector the scrub could not write. -/
def unitHolding (s : State) (a : Nat) : Option (Nat × Nat) :=
  if a < slmBase then (s.place a).map fun p => (0x0A, channelUnit p.1 p.2.1)
  else if a < spBase then some (8, (a - slmBase) / sliceBytes)
  else (cellOfAddr a).bind fun c => (s.physIndex c).map fun p => (2, cellUnit (c / 64) p)

/-- R478: a sector could not be written: logged, and the block holding it is marked unusable. -/
def unwritable (s : State) (a : Nat) : State :=
  let s := logEvent s .scrubWriteFail srcModule 0 a 0
  match unitHolding s a with
  | some u => failUnit s u.1 u.2
  | none => s

/-- R399, R58: what the scrub clears, by whichever cause it runs. -/
def scrubMemories (s : State) : State :=
  let s := s.clearMem
  { s with
    cache := [], welt := [], side := [], sync := [], ctxs := [], cellFlags := [], clusterFlags := [], moduleFlags := 0, stepWord := none, streams := [],
    cells := Sp.mapVals Cell.init (fun _ e =>
      { e with piece := none, claim := none, skips := [], tiles := [], drainQ := [], drainWait := [], recalls := [], xfers := [], slmAdds := [], undef := none, slack := 0 }) s.cells }

/-- R399, R441, R478, R534: the scrub ends: what a requested test found, the sectors that could not be written, the
map rebuild, and JOB_STATE becomes IDLE. -/
def scrubComplete (s : State) (fails : List (List Nat)) (bad : List Nat) : State :=
  if s.job.state ≠ .scrubbing then s
  else
    let fs := (fails.map Fail.ofList).filter (levelFinds (s.testLevel == some 2))
    let newFail := fs.any fun f => !knownFail s f
    let s := match s.testLevel with
      | some _ => (applyFails s fs).odSet 0x7022 0 (if newFail then 3 else 2)
      | none => s
    let s := bad.foldl unwritable s
    let s := scrubMemories s
    let s := flushRing (flushRing { s with rings := Sp.mapVals Ring.init scrubRing s.rings, cache := [], testLevel := none } 1024) 1025
    let s := { rebuildMap s with job := Job.none }
    s.odAdd 0x9030 0 1

/-- R399. -/
def execScrubComplete (fails : List (List Nat)) (bad : List Nat) (s : State) : Out := .next (scrubComplete s fails bad)

end Sys2Proof.Machine
end

