-- ==== Sys2Proof/Machine/OdValue.lean ====
section
/-! DEFINITION. The values of object-dictionary entries as the server gives them (R485, R503). -/
namespace Sys2Proof.Machine

/-- R132: the cell chosen by UTIL_CELL_SELECT. -/
def utilCell (s : State) : Nat := s.odGet 0x8032 0

/-- R132: a counter that follows the selection; 0 while the selected cell is unmapped. -/
def utilGet (s : State) (k : Nat) : Nat :=
  if (s.cell (utilCell s)).served = .unmapped then 0 else s.cellGet (utilCell s) k

/-- R479: the contents of a slot by number. -/
def slotBytes (s : State) (b : Nat) : List Byte := if b = 0 then s.flash.slotA else s.flash.slotB

/-- R476: the challenge. -/
def debugChallenge (s : State) : Nat := Config.randomWord s.secure.challenge % 2 ^ 256

/-- R502: the part number. -/
def deviceName : List Byte := "EXK-4400-L".toList.map fun c => BitVec.ofNat 8 c.toNat

/-- R511: the supply set for a cluster. -/
def clusterSupply (s : State) (sub : Nat) : Nat :=
  Config.clusterVdd s.clock (Config.sensor s.free (Od.key 0x2020 sub)) (Config.sensor s.free (Od.key 0x2010 sub))

/-- R497: the MAC address of manufacture: locally administered, one station's. Its first octet is its lowest byte. -/
def macAddress : Nat := let m := Config.macAddress % 2 ^ 48; m - m % 4 + 2

/-- R497: the link-local address fe80::/64 with the modified EUI-64 of the MAC (RFC 4291), its first octet highest. -/
def linkLocalAddress : Nat :=
  let b (k : Nat) : Nat := macAddress / 2 ^ (8 * k) % 256
  0xFE80 * 2 ^ 112 + ((b 0 ^^^ 2) * 2 ^ 56 + b 1 * 2 ^ 48 + b 2 * 2 ^ 40 + 0xFFFE * 2 ^ 24 + b 3 * 2 ^ 16 + b 4 * 2 ^ 8 + b 5)

/-- R510: what a die sensor shows, a free value of the moment. -/
def dieSensor (s : State) (index sub : Nat) : Nat := Config.sensor s.free (Od.key index sub) % 2 ^ 32

/-- R510: TJ_MAX_C: the highest of the 160 die sensors. -/
def tjMax (s : State) : Nat :=
  let all := (List.range 128).map (fun k => dieSensor s 0x2010 (k + 1)) ++ (List.range 32).map fun k => dieSensor s 0x2011 (k + 1)
  all.foldl (fun m x => if sfld m 31 0 < sfld x 31 0 then x else m) (dieSensor s 0x2010 1)

/-- R538: INSERVICE_CYCLE_MAX_S: the longest time, in seconds, that a mapped cell has gone since it last finished its cycle. -/
def cycleMax (s : State) : Nat :=
  ((List.range cellCount).filterMap fun c => (s.physIndex c).map fun p =>
    (s.power.millis - (s.physCell (clusterOf c) p).cycleAt) / 1000).foldl max 0

/-- The numeric values the server computes; none for an entry that holds what was stored. -/
def odComputed (s : State) (index sub : Nat) : Option Nat :=
  match index with
  | 0x1002 => some (Config.serial % 2 ^ 64)
  | 0x1004 => some macAddress
  | 0x1009 => some s.sessions.length
  | 0x2012 => some (tjMax s)
  | 0x2010 | 0x2011 | 0x2020 => some (Config.sensor s.free (Od.key index sub) % 2 ^ 32)
  | 0x2021 => some (clusterSupply s sub % 2 ^ 32)
  | 0x3102 => some (sparesLeft s)
  | 0x3103 => some (unmappedCells s)
  | 0x3110 => some (stackRowsLeft s (sub - 1))
  | 0x3111 => some s.flash.pendingRepairs.length
  | 0x3120 => some (s.block (sub - 1)).gen
  | 0x4010 => some (s.port (sub - 1)).state.code
  | 0x5000 => some s.job.state.code
  | 0x5005 => if sub = 2 then some s.stitch.root else if sub = 3 then some s.stitch.standby else none
  | 0x5006 => some s.stitch.count
  | 0x5013 => some (s.ctxs.filter fun e => e.2.resident).length
  | 0x5014 => some ((s.job.pattern.map fun p => entryNo p s.stitch.count).getD 0)
  | 0x6010 => some (s.stream (sub - 1)).state
  | 0x6011 => some (s.stream (sub - 1)).next
  | 0x7001 => some (moduleHealth s)
  | 0x7003 => some s.flash.bootLevel
  | 0x8010 => if sub = 1 then some (utilGet s State.ctrRunOn) else none
  | 0x8011 => if sub = 1 then some (utilGet s State.ctrAbort) else none
  | 0x8032 =>
    match sub with
    | 1 => some (utilGet s State.ctrSteps)
    | 2 => some (utilGet s State.ctrSlots)
    | 3 => some (utilGet s State.ctrMasked)
    | 4 => some (utilGet s State.ctrTaps)
    | _ => none
  | 0x8033 => some (utilGet s (State.ctrSide + (sub - 1)))
  | 0x8034 => some (utilGet s (sub - 1))
  | 0x8071 => some (s.job.swapBytes / 2 ^ 20)
  | 0x8111 => some (cycleMax s % 2 ^ 32)
  | 0x9000 =>
    match sub with
    | 0 => some s.secure.boot
    | 1 => some (if s.secure.active then 1 else 0)
    | _ => some ((if s.secure.fallback then 1 else 0) + (if s.secure.trial then 2 else 0))
  | 0x9001 =>
    let bs := slotBytes s ((sub - 1) % 2)
    if bs = [] then some 0 else some ((if sub ≤ 2 then Config.bundleVersion bs else Config.bundleSvn bs) % 2 ^ 32)
  | 0x9003 => some s.secure.stage
  | 0x9005 => some s.flash.fusedSvn
  | 0x9020 => some (debugChallenge s)
  | 0x9022 => some s.secure.scope
  | _ => none

/-- The number an entry holds. -/
def odNumber (s : State) (index sub : Nat) : Nat := (odComputed s index sub).getD (s.odGet index sub)

/-- The bytes of a non-DOMAIN entry, little-endian (R481). -/
def odBytes (s : State) (e : OdEntry) (index sub : Nat) : List Byte :=
  match index with
  | 0x1000 => deviceName
  | 0x3100 => cellMap s (sub - 1)
  | 0x3101 => cellStates s (sub - 1)
  | _ => leBytes e.ty.size (odNumber s index sub)

/-- R503: the 8-byte mirror slot of index:subindex, by key. -/
def mirrorSlot (s : State) (key : Nat) : Nat :=
  let index := key / 256
  let sub := key % 256
  match Od.entry? index sub with
  | none => 0
  | some e =>
    if e.right = .wo then 0
    else
      match e.ty with
      | .vstr | .domain => 0
      | .octets n => if n ≤ 8 then odNumber s index sub else 0
      | .i n => let v := odNumber s index sub; if bit v (8 * n - 1) then v + (2 ^ 64 - 2 ^ (8 * n)) else v
      | _ => odNumber s index sub

end Sys2Proof.Machine
end

