-- ==== Sys2Proof/Machine/Streams.lean ====
section
/-! DEFINITION. The stream engine (R275 to R297): start of a descriptor, transfers, their landing. -/
namespace Sys2Proof.Machine

/-! ## Reading the source -/

/-- One byte of the read-only windows of control space (R301): sync objects, stall counters, mirror. -/
def windowByte (s : State) (a : Nat) : Byte :=
  if a < 0x30200000000 then
    BitVec.ofNat 8 ((s.obj ((a - 0x30100000000) / 64)).window >>> (8 * (a % 64)))
  else if a < 0x30300000000 then
    let c := (a - 0x30200000000) / 64
    BitVec.ofNat 8 ((s.cellGet c (a % 64 / 8)) >>> (8 * (a % 8)))
  else if a < 0x30308000000 then
    BitVec.ofNat 8 ((mirrorSlot s ((a - 0x30300000000) / 8)) >>> (8 * (a % 8)))
  else 0

/-- R548: is the block that serves an address of the windows fenced: the Harness node of a sync object, the cell whose
counters are read? -/
def windowDown (s : State) (a : Nat) : Bool :=
  if a < 0x30200000000 then (s.block ((a - 0x30100000000) / 65536)).fenced
  else if a < 0x30300000000 then s.cellDown ((a - 0x30200000000) / 64)
  else false

/-- R297: is the target of an access fenced or unmapped? -/
def targetDown (s : State) (a : Nat) : Bool :=
  if 0x30000000000 ≤ a then windowDown s a else (cellOfAddr a).any fun c => s.cellDown c

/-- One byte as a stream reads it: value and poison. -/
def srcByte (s : State) (a : Nat) : Byte × Bool :=
  if targetDown s a then (Config.lostByte s.free a, true)
  else if 0x30000000000 ≤ a then (windowByte s a, false)
  else (s.byte a, s.poisonAt a)

/-- n bytes as a stream reads them: little-endian number and poison. -/
def srcRd (s : State) (a n : Nat) : Nat × Bool :=
  let bs := (List.range n).map fun i => srcByte s (a + i)
  (leNat (bs.map (·.1)), bs.any (·.2))

/-! ## Cutting into transfers (R276) -/

/-- Transfers of a run: contiguous, at most 256 bytes, not crossing a 256-byte boundary of the source. -/
def cutCount (r : Run) : Nat := if r.2 = 0 then 0 else (r.1 + r.2 - 1) / 256 - r.1 / 256 + 1

/-- Transfer k of a run. -/
def cutAt (r : Run) (k : Nat) : Run :=
  let lo := max r.1 ((r.1 / 256 + k) * 256)
  (lo, min (r.1 + r.2) ((r.1 / 256 + k + 1) * 256) - lo)

/-- Transfers of a MOVE. -/
def xferCount (d : MoveD) : Nat := ((List.range d.rowCount).map fun x => cutCount (d.srcRow x)).sum

/-- Transfer number k of a MOVE from row x on: its row and run. -/
def xferAt (d : MoveD) : Nat → Nat → Nat → Option (Nat × Run)
  | 0, _, _ => none
  | n + 1, x, k =>
    let c := cutCount (d.srcRow x)
    if k < c then some (x, cutAt (d.srcRow x) k) else xferAt d n (x + 1) (k - c)

/-! ## What a transfer writes -/

/-- Writes of a transfer, the flags it raises, and whether it read poison. -/
structure XferWork where
  writes : List (Nat × List Byte × Bool)
  f : Flags
  deriving DecidableEq, Repr

/-- Units (elements or blocks of u bytes) of a row whose last source byte lies in a run; base is the
row's first byte, total the row's bytes (the last unit may be short). -/
def unitsIn (base total u : Nat) (r : Run) : List Nat :=
  (List.range (ceilDiv total u)).filter fun k =>
    let last := base + min total ((k + 1) * u) - 1
    decide (r.1 ≤ last ∧ last < r.1 + r.2)

/-- COPY (R282): bytes unchanged, poison with them. -/
def copyWork (s : State) (d : MoveD) (x : Nat) (r : Run) : XferWork :=
  let src := (d.srcRow x).1
  let dst := (d.dstRow x).1
  { writes := (List.range r.2).map fun i =>
      let b := srcByte s (r.1 + i)
      (dst + (r.1 - src) + i, [b.1], b.2)
    f := 0 }

/-- A source element of an ENCODE. -/
def encIn (s : State) (d : MoveD) (base k : Nat) : Val × Bool :=
  let w := srcRd s (base + k * d.esize) d.esize
  (decodeFmt (fmtOf d.fmtS) w.1, w.2)

/-- ENCODE (R283, R249, R295). -/
def encodeWork (s : State) (d : MoveD) (x : Nat) (r : Run) : XferWork :=
  let src := (d.srcRow x).1
  let dst := (d.dstRow x).1
  let e := d.esize
  let pr := d.planeRow x
  let blk := formBlock d.form
  let units := unitsIn src (d.cols * e) (blk.2 * e) r
  let one (k : Nat) : List (Nat × List Byte × Bool) × Flags :=
    let n := min blk.2 (d.cols - k * blk.2)
    let els := (List.range n).map fun i => encIn s d src (k * blk.2 + i)
    let bad := els.any (·.2)
    let fp := poisonFlag bad
    match d.form with
    | 1 =>
      let q := stashE4m3 ((els.map (·.1)).headD Val.zero) d.scale
      ([(dst + k, leBytes 1 q.1, bad)], q.2 ||| fp)
    | 2 =>
      let q := mxBlock .mxfp6 Numctl.plainRne (els.map fun v => (v.1, 0))
      let els6 := q.2.1 ++ List.replicate (32 - n) 0
      ([(dst + 24 * k, packBlock .mxfp6 els6, bad),
        (d.dstScale + (pr.1 * d.dstPd + pr.2 * d.dstLd) / 24 + k, leBytes 1 q.1, bad)], q.2.2 ||| fp)
    | f =>
      let m := if f = 3 then 6 else 2
      let vs := els.map (·.1) ++ List.replicate (32 - n) Val.zero
      let q := codecEncode m vs
      let a := dst + blk.1 * k
      let w := (a, leBytes blk.1 q.1, bad)
      ([w], q.2 ||| fp)
  let rs := units.map one
  -- all data before all scales, so that neighbouring blocks are written as one run (R296)
  { writes := rs.filterMap (·.1.head?) ++ rs.flatMap (·.1.drop 1), f := rs.foldl (fun f q => f ||| q.2) 0 }

/-- DECODE (R283, R249, R218, R220, R295). -/
def decodeWork (s : State) (d : MoveD) (x : Nat) (r : Run) : XferWork :=
  let src := (d.srcRow x).1
  let dst := (d.dstRow x).1
  let pr := d.planeRow x
  let blk := formBlock d.form
  let units := unitsIn src (d.srcRow x).2 blk.1 r
  let out (k i : Nat) (v : Val) (bad : Bool) : (Nat × List Byte × Bool) × Flags :=
    let q := convert .bf16 Numctl.plainRne 0 v
    ((dst + 2 * (k * blk.2 + i), leBytes 2 q.1, bad), q.2 ||| poisonFlag bad)
  let one (k : Nat) : List ((Nat × List Byte × Bool) × Flags) :=
    let n := min blk.2 (d.cols - k * blk.2)
    match d.form with
    | 1 =>
      let b := srcRd s (src + k) 1
      [out k 0 (unstashE4m3 b.1 d.scale) b.2]
    | 2 =>
      let a := src + 24 * k
      let sc := srcRd s (d.srcScale + (pr.1 * d.srcPd + pr.2 * d.srcLd) / 24 + k) 1
      let w := (srcRd s a 24).1
      (List.range n).map fun i =>
        let bad := (srcRd s (a + 6 * i / 8) ((6 * i + 5) / 8 - 6 * i / 8 + 1)).2
        out k i (mxElem .mxfp6 (fld w (6 * i + 5) (6 * i)) sc.1) (bad || sc.2)
    | f =>
      let m := if f = 3 then 6 else 2
      let w := srcRd s (src + blk.1 * k) blk.1
      (List.range n).map fun i => out k i (codecDecode m w.1 i) w.2
  let rs := units.flatMap one
  { writes := rs.map (·.1), f := rs.foldl (fun f q => f ||| q.2) 0 }

/-- The source element (n, c, h, w) that byte offset o of a REGROUP's source holds; C32 padding lanes
hold none. -/
def regroupAt (d : MoveD) (o : Nat) : Option (Nat × Nat × Nat × Nat) :=
  let k := o / d.esize
  if d.rgInter then
    let c := k % d.rgC
    let p := k / d.rgC
    some (p / (d.rgH * d.rgW), c, p / d.rgW % d.rgH, p % d.rgW)
  else
    let p := k / 32
    let cbs := ceilDiv d.rgC 32
    let c := p / (d.rgH * d.rgW) % cbs * 32 + k % 32
    if c < d.rgC then some (p / (d.rgH * d.rgW) / cbs, c, p / d.rgW % d.rgH, p % d.rgW) else none

/-- The positions a REGROUP takes as +0 because H or W is no multiple of the block size (R215). -/
def regroupZeros (d : MoveD) : List (Nat × List Byte × Bool) :=
  let bs := 2 ^ d.bs
  (List.range d.rgN).flatMap fun n => (List.range d.rgC).flatMap fun c =>
    (List.range (roundUp d.rgH bs)).flatMap fun h =>
      ((List.range (roundUp d.rgW bs)).filter fun w => decide (d.rgH ≤ h ∨ d.rgW ≤ w)).map fun w =>
        (d.regroupDst n c h w, List.replicate d.esize (0 : Byte), false)

/-- REGROUP (R215, R284); its last transfer writes the zeros as well. -/
def regroupWork (s : State) (d : MoveD) (r : Run) (isLast : Bool) : XferWork :=
  let units := unitsIn d.src (d.rowCount * (d.srcRow 0).2) d.esize r
  let rs := units.filterMap fun k =>
    (regroupAt d (k * d.esize)).map fun p =>
      let bs := (List.range d.esize).map fun i => srcByte s (d.src + k * d.esize + i)
      ((d.regroupDst p.1 p.2.1 p.2.2.1 p.2.2.2, bs.map (·.1), bs.any (·.2)) : Nat × List Byte × Bool)
  { writes := rs ++ (if isLast then regroupZeros d else [])
    f := poisonFlag (rs.any fun w => w.2.2) }

/-- The work of one transfer. -/
def xferWork (s : State) (d : MoveD) (x : Nat) (r : Run) (isLast : Bool) : XferWork :=
  if d.xform = 3 then regroupWork s d r isLast
  else if d.isCopy then copyWork s d x r
  else if d.xform = 1 then encodeWork s d x r
  else decodeWork s d x r

/-! ## Start of a descriptor (R160, R275, R285, R288) -/

/-- The next descriptor of a queue that has not begun. -/
def queueNext (p : Piece) (q : Nat) : Option Item :=
  p.items.find? fun i => decide (unitOf i.word = .stream q ∧ i.stage = .queued)

/-- Does a queue run a descriptor now (R275: one at a time)? -/
def queueBusy (p : Piece) (q : Nat) : Bool :=
  p.items.any fun i => decide (unitOf i.word = .stream q ∧ (i.stage = .running ∨ i.stage = .waiting ∨ i.stage = .done))

/-- A stream descriptor of no transfers is done at once. -/
def startStage (w : Nat) : Stage := if xferCount (MoveD.ofWord w) = 0 then .done else .running

/-- Begin the next descriptor of a queue, where it is of the kind asked for and need not wait for an
earlier descriptor; one with WAIT_EN waits for its counter (R285). -/
def streamStart (s : State) (c q : Nat) (is : Item → Bool) : State :=
  match s.pieceOf c with
  | none => s
  | some p =>
    match queueNext p q with
    | none => s
    | some i =>
      let d := MoveD.ofWord i.word
      if !is i || queueBusy p q || !readsFree s p i.slot d.reads || !writesFree s p i.slot d.writes then s
      else
        let s := s.updPiece c fun p =>
          { p with items := p.items.filter fun j => !decide (unitOf j.word = .stream q ∧ j.stage = .armed) }
        let o := s.obj d.waitObj
        if d.waitEn && !o.holds (.ge d.waitValue) then
          let s := s.setObj d.waitObj { o with waiters := o.waiters ++ [{ cell := c, unit := q, piece := p.seq, wait := .ge d.waitValue }] }
          updItem s c i.slot fun i => { i with stage := .waiting }
        else updItem s c i.slot fun i => { i with stage := startStage i.word }

/-- XFORM of an item that is no REARM. -/
def isMove (x : Nat) (i : Item) : Bool := !i.rearm && fld i.word 16 14 == x

/-- R282. -/
def execMoveCopy (cell queue : Nat) (s : State) : Out := onCell cell s fun s => streamStart s cell queue (isMove 0)
/-- R283. -/
def execMoveEncode (cell queue : Nat) (s : State) : Out := onCell cell s fun s => streamStart s cell queue (isMove 1)
/-- R283. -/
def execMoveDecode (cell queue : Nat) (s : State) : Out := onCell cell s fun s => streamStart s cell queue (isMove 2)
/-- R284. -/
def execMoveRegroup (cell queue : Nat) (s : State) : Out := onCell cell s fun s => streamStart s cell queue (isMove 3)
/-- R288, R289. -/
def execRearm (cell queue : Nat) (s : State) : Out := onCell cell s fun s => streamStart s cell queue (·.rearm)

/-- R287: QUEUE_CTL takes effect, and retires, as it is handed out; PLEDUN mode ignores it (R278). -/
def queueCtl (s : State) (c : Nat) : State :=
  match s.pieceOf c with
  | none => s
  | some p =>
    if !mayHandOut p || !inWindow p p.next || fld (headWord p) 7 0 != 0x41 then s
    else
      match headStatus s c p with
      | some st => failPiece s c p st
      | none =>
        let w := headWord p
        let mask := fld w 23 8
        let lim := fld w 30 24
        let limits := (p.limits.zipIdx).map fun (l, q) => if bit mask q ∧ s.odGet 0x5010 0 = 0 then lim else l
        finishCheck (fetchMore (s.updPiece c fun p => { p with limits := limits, next := p.next + 1 }) c) c

/-- R287. -/
def execQueueCtl (cell : Nat) (s : State) : Out := onCell cell s fun s => queueCtl s cell

/-! ## Issue (R276 to R278) -/

/-- Transfers outstanding of a queue of a piece. -/
def outstanding (e : Cell) (p : Piece) (q : Nat) : Nat :=
  (e.xfers.filter fun t => decide (t.piece = p.seq ∧ t.queue = q ∧ t.dropped = false)).length

/-- May a queue issue now: a transfer ready and room under its limit? -/
def mayIssue (s : State) (e : Cell) (p : Piece) (q : Nat) : Option Item :=
  let room :=
    if s.odGet 0x5010 0 = 0 then decide (outstanding e p q < p.limits.getD q 16)
    else decide ((e.xfers.filter fun t => !t.dropped).length < 4)
  if room then
    p.items.find? fun i => decide (unitOf i.word = .stream q ∧ i.stage = .running) &&
      decide (i.issued < xferCount (MoveD.ofWord i.word))
  else none

/-- The queue served next: the first that may issue after the one served last. -/
def nextQueue (s : State) (e : Cell) (p : Piece) : Option (Nat × Item) :=
  (List.range 16).findSome? fun k =>
    let q := (p.lastQueue + 1 + k) % 16
    (mayIssue s e p q).map fun i => (q, i)

/-- Sectors of a run that are poisoned at their source (R295). -/
def badSectors (s : State) (r : Run) : Nat :=
  if r.2 = 0 ∨ 0x30000000000 ≤ r.1 ∨ targetDown s r.1 then 0
  else (s.poison.filter fun k => decide (r.1 / 32 ≤ k ∧ k ≤ (r.1 + r.2 - 1) / 32)).length

/-- The scale bytes that a transfer of a DECODE under form MXFP6 reads (R283). -/
def scaleRun (d : MoveD) (x : Nat) (r : Run) : List Run :=
  if d.xform = 2 ∧ d.form = 2 then
    let pr := d.planeRow x
    let ks := unitsIn (d.srcRow x).1 (d.srcRow x).2 24 r
    match ks with
    | [] => []
    | k :: _ => [(d.srcScale + (pr.1 * d.srcPd + pr.2 * d.srcLd) / 24 + k, ks.length)]
  else []

/-- What serves a load from an address: the cell of a scratchpad or of a counter window, the Harness node of a sync object
(R301). -/
def serverOf (a : Nat) : Option Nat :=
  if 0x30100000000 ≤ a ∧ a < 0x30200000000 then some (8192 + (a - 0x30100000000) / 65536)
  else if 0x30200000000 ≤ a ∧ a < 0x30300000000 then some ((a - 0x30200000000) / 64)
  else cellOfAddr a

/-- R549: the generation of the block that serves a request. -/
def genOf (s : State) (k : Option Nat) : Nat := k.elim 0 fun k => (s.block (serverBlock k)).gen

/-- Issue a transfer: it reads its source now (R276, R295, R297), through the home slices of stack memory (R310). -/
def transferIssue (s : State) (c : Nat) : State :=
  match s.pieceOf c with
  | none => s
  | some p =>
    match nextQueue s (s.cell c) p with
    | none => s
    | some (q, i) =>
      let d := MoveD.ofWord i.word
      match xferAt d d.rowCount 0 i.issued with
      | none => s
      | some (x, r) =>
        let w := xferWork s d x r (i.issued + 1 == xferCount d)
        let first := (w.writes.map (·.1)).headD (if d.xform = 3 then d.dst else (d.dstRow x).1)
        let store := !inOwnSp c first 1
        let reads := r :: scaleRun d x r
        let server := if inOwnSp c r.1 1 then none else serverOf r.1
        let target := if store then cellOfAddr first else none
        let lost := reads.any fun r => targetDown s r.1
        let t : Xfer :=
          { id := s.serial, piece := p.seq, queue := q, slot := i.slot, store := store, writes := w.writes,
            loads := reads, miss := anyMiss s reads, server := server,
            target := target, gen := genOf s (server.or target), own := s.reqGen c, dropped := false }
        let s := if lost then s.draw else s
        let s := ((sliceLoads s.fresh reads).odAdd 0x8035 0 ((reads.map (badSectors s)).sum)).updCell c fun e => { e with xfers := e.xfers ++ [t] }
        let s := s.updPiece c fun p =>
          { p with lastQueue := q
                   readPoison := p.readPoison || (!lost && reads.any fun r => s.poisonIn r.1 r.2)
                   targetReset := p.targetReset || lost
                   staged := { p.staged with flags := p.staged.flags ||| w.f } }
        updItem s c i.slot fun i => { i with issued := i.issued + 1 }

/-- R276. -/
def execTransferIssue (cell : Nat) (s : State) : Out := onCell cell s fun s => transferIssue s cell

/-! ## Landing (R290, R291, R295 to R297, R552) -/

/-- Count a transfer of a descriptor as landed; the last one finishes its work. -/
def countLanded (s : State) (c : Nat) (t : Xfer) : State :=
  match s.pieceOf c with
  | some p =>
    if p.seq ≠ t.piece then s
    else updItem s c t.slot fun i =>
      let i := { i with landed := i.landed + 1 }
      if i.stage = .running ∧ i.landed = xferCount (MoveD.ofWord i.word) then { i with stage := .done } else i
  | none => s

/-- What a transfer writes in rising addresses: it is one write, and a sector that it covers whole is clean (R296). -/
def Xfer.sorted (t : Xfer) : List (Nat × List Byte × Bool) := sortBy t.writes fun a b => decide (a.1 ≤ b.1)

/-- The runs that a transfer stores. -/
def Xfer.stores (t : Xfer) : List (Nat × Nat) := (joinRuns t.sorted).map fun r => (r.1, r.2.length)

/-- R325: is a transfer held at the controller of a stack? -/
def xferHeld (s : State) (t : Xfer) : Bool := loadHeld s t.loads || storeHeld s t.stores

/-- R310: is there a store of the same queue, issued before, that writes a sector this one writes? -/
def storeBefore (s : State) (c : Nat) (t : Xfer) : Bool :=
  t.store && (s.cell c).xfers.any fun u =>
    u.store && !u.dropped && decide (u.piece = t.piece ∧ u.queue = t.queue ∧ u.id < t.id) &&
      u.stores.any fun a => t.stores.any fun b =>
        decide (0 < a.2 ∧ 0 < b.2 ∧ a.1 / 32 ≤ (b.1 + b.2 - 1) / 32 ∧ b.1 / 32 ≤ (a.1 + a.2 - 1) / 32)

/-- Write what a transfer carries, through the home slices of stack memory (R310); a store whose target is down is discarded and counted (R297). -/
def landWrites (s : State) (c : Nat) (t : Xfer) : State :=
  let down := t.store && (t.writes.any fun w => targetDown s w.1)
  if down then
    (s.odAdd 0x8035 1 1).updPiece c fun p => if p.seq = t.piece then { p with targetReset := true } else p
  else reachEls s t.sorted

/-- R549: the writes of a transfer that their targets serve: those of a store are dropped where the generations it carries
are no longer current. -/
def servedWrites (s : State) (c : Nat) (t : Xfer) : List (Nat × List Byte × Bool) :=
  if t.store then t.writes.filter fun w => s.reqServed c t.own (homeOf s w.1) else t.writes

/-- R290, R291: a transfer lands: stores land as issued; loads of an ended piece are discarded. -/
def landXfer (s : State) (c : Nat) (t : Xfer) : State :=
  let served := { t with writes := servedWrites s c t }
  let mine := (s.pieceOf c).any fun p => p.seq == t.piece
  let s := s.updCell c fun e => { e with xfers := e.xfers.erase t }
  let s := if t.store || mine then landWrites s c served else s.odAdd 0x8035 2 1
  settleHeld (countLanded s c t)

/-- R552: is the reply's generation current? -/
def replyCurrent (s : State) (t : Xfer) (gen : Nat) : Bool :=
  !t.dropped && (match t.server.or t.target with
    | some k => decide (gen = (s.block (serverBlock k)).gen)
    | none => true)

/-- A reply reaches a cell; a transfer that a stack holds back, or that comes before an older store of its queue to the same
sector, lands later. -/
def transferLand (s : State) (c id gen : Nat) (stalls : List (Nat × Nat)) : State :=
  match (s.cell c).xfers.find? fun t => t.id == id with
  | none => s
  | some t =>
    if replyCurrent s t gen then
      if xferHeld s t || storeBefore s c t then takeReports s c stalls else landXfer (takeReports s c stalls) c t
    else
      let s := s.odAdd 0x8120 0 1
      if t.dropped then s.updCell c fun e => { e with xfers := e.xfers.erase t } else s

/-- R290. -/
def execTransferLand (cell id gen : Nat) (stalls : List (Nat × Nat)) (s : State) : Out :=
  onCell cell s fun s => transferLand s cell id gen stalls

end Sys2Proof.Machine
end

