-- ==== Sys2Proof/Machine/Rings.lean ====
section
/-! DEFINITION. Rings: doorbells, entries, their checks, and the BAR0 views of them (R431, R432, R435 to R444,
R463, R491). -/
namespace Sys2Proof.Machine

/-! ## BAR0 views (R431, R432, R436) -/

/-- R431: does a ring's completion ring hold unread entries? -/
def cqPending (s : State) (n : Nat) : Bool := (s.ring n).cqHead != (s.ring n).cqTail

/-- R431: the CQ_PENDING bitmap. -/
def cqPendingMap (s : State) : Nat := (s.rings.filter fun e => cqPending s e.1).foldl (fun m e => m + 2 ^ e.1) 0

/-- R383, R432: streams below their low-water marks. -/
def lowStreams (s : State) : Nat := (s.streams.filter fun e => e.2.low).foldl (fun m e => m + 2 ^ e.1) 0

/-- R432: the status block; in RECOVERY its fields read zero (R460). -/
def statusBlock (s : State) : Nat :=
  if s.secure.boot = 3 then 0
  else
    s.job.state.code + (if s.stitch.lost then 2 ^ 8 else 0) + (if s.rings.any fun e => e.2.state == .fault then 2 ^ 9 else 0) +
      (if s.rings.any fun e => cqPending s e.1 then 2 ^ 10 else 0) +
      (if s.odGet 0x8090 1 < s.odGet 0x8090 0 then 2 ^ 11 else 0) + s.moduleId % 2 ^ 18 * 2 ^ 64 +
      s.stitch.count % 2 ^ 64 * 2 ^ 128 + lowStreams s * 2 ^ 192

/-- R436: the code of RING_STATE. -/
def RingState.code : RingState → Nat
  | .disabled => 0
  | .running => 1
  | .held => 2
  | .fault => 3

/-- R436: a ring block as BAR0 reads it; zero in RECOVERY (R460). -/
def ringBlock (s : State) (n : Nat) : Nat :=
  let r := s.ring n
  if s.secure.boot = 3 then 0
  else
    r.sqBase + r.cqBase * 2 ^ 64 + r.sqLog * 2 ^ 128 + r.cqLog * 2 ^ 132 + (if r.enable then 2 ^ 136 else 0) + r.sqTail * 2 ^ 192 +
      r.sqHead * 2 ^ 256 + r.cqTail * 2 ^ 320 + (if r.cqPhase then 2 ^ 336 else 0) + r.cqHead * 2 ^ 384 +
      r.state.code * 2 ^ 448 + r.cause * 2 ^ 456 + r.cqDropped * 2 ^ 480

/-! ## Writes of ring blocks (R437 to R439, R441) -/

/-- Does BAR0 take writes of ring blocks? Not before the end of boot, in RECOVERY (R460), or while PERST_N is
asserted (R430). -/
def bar0Live (s : State) : Bool := decide (s.secure.boot = 2) && s.pcieUp && !s.pcie.d3hot

/-- R437: may a ring be put in service? -/
def ringConfigOk (s : State) (r : Ring) : Bool :=
  let sq := 64 * 2 ^ r.sqLog
  let cq := 64 * 2 ^ r.cqLog
  decide (r.sqBase % 4096 = 0 ∧ r.cqBase % 4096 = 0 ∧ 4 ≤ r.sqLog ∧ r.sqLog ≤ 16 ∧ 4 ≤ r.cqLog ∧ r.cqLog ≤ 16) &&
    s.inAreas r.sqBase sq && s.inAreas r.cqBase cq && !s.meetsJournal r.sqBase sq && !s.meetsJournal r.cqBase cq &&
    !rangesMeet r.sqBase sq r.cqBase cq

/-- R437: an accepted enable. -/
def ringStart (r : Ring) : Ring :=
  { r with enable := true, sqHead := 0, sqTail := 0, cqHead := 0, cqTail := 0, cqPhase := true, cause := 0, state := .running,
           serial := r.serial + 1 }

/-- R439: ENABLE = 0: the records held are discarded and counted. -/
def ringStop (r : Ring) : Ring :=
  { r with enable := false, state := .disabled, held := [], cqDropped := (r.cqDropped + r.held.length) % 2 ^ 32 }

/-- R437: a write of ENABLE, with the bases and sizes written before it. -/
def ringEnable (s : State) (n : Nat) (on : Bool) (sqBase cqBase sqLog cqLog : Nat) : State :=
  let r := s.ring n
  if !bar0Live s then s
  else if r.enable then (if on then s else s.setRing n (ringStop r))
  else
    let r := { r with sqBase := sqBase % 2 ^ 42, cqBase := cqBase % 2 ^ 42, sqLog := sqLog % 16, cqLog := cqLog % 16 }
    if !on then s.setRing n (ringStop r)
    else if ringConfigOk s r then s.setRing n (ringStart r)
    else s.setRing n { r with state := .fault, cause := 1 }

/-- R437. -/
def execRingEnable (ring : Nat) (enable : Bool) (sqBase cqBase sqLog cqLog : Nat) (s : State) : Out :=
  onRing ring s fun s => ringEnable s ring enable sqBase cqBase sqLog cqLog

/-- R438: free submission slots. -/
def Ring.sqFree (r : Ring) : Nat := 2 ^ r.sqLog - 1 - (r.sqTail + 2 ^ r.sqLog - r.sqHead) % 2 ^ r.sqLog

/-- Is a ring in service and not in FAULT? -/
def Ring.serves (r : Ring) : Bool := r.enable && (r.state == .running || r.state == .held)

/-- R438, R441: a doorbell. -/
def sqTailWrite (s : State) (n v : Nat) : State :=
  let r := s.ring n
  let size := 2 ^ r.sqLog
  if !bar0Live s || !r.serves || s.job.state == .scrubbing then s
  else if size ≤ v ∨ r.sqFree < (v + size - r.sqTail) % size then s.setRing n { r with state := .fault, cause := 2 }
  else s.setRing n { r with sqTail := v }

/-- R438. -/
def execSqTail (ring value : Nat) (s : State) : Out := onRing ring s fun s => sqTailWrite s ring value

/-- R439: a write of CQ_HEAD; held records follow as far as there is room. -/
def cqHeadWrite (s : State) (n v : Nat) : State :=
  let r := s.ring n
  let size := 2 ^ r.cqLog
  if !bar0Live s || !r.serves || s.job.state == .scrubbing then s
  else if size ≤ v ∨ (r.cqTail + size - r.cqHead) % size < (v + size - r.cqHead) % size then
    s.setRing n { r with state := .fault, cause := 3 }
  else flushRing (s.setRing n { r with cqHead := v }) n

/-- R439. -/
def execCqHead (ring value : Nat) (s : State) : Out := onRing ring s fun s => cqHeadWrite s ring value

/-! ## Taking an entry (R440 to R444) -/

/-- A ring entry: its 512 bits, zero where a sector is poisoned, and whether one is (R582). -/
def entryWord (s : State) (a : Nat) : Nat × Bool :=
  let half (k : Nat) : Nat := if s.poisonAt (a + 32 * k) then 0 else s.rd (a + 32 * k) 32
  (half 0 + half 1 * 2 ^ 256, s.poisonIn a 64)

/-- R7, R445 to R448: reserved fields of a body, by opcode. -/
def bodyRsv (op : Nat) : List (Nat × Nat) :=
  match op with
  | 0x01 => [(511, 464), (383, 362), (319, 298), (255, 234), (191, 170)]
  | 0x02 => [(511, 64)]
  | 0x03 => [(511, 106)]
  | 0x04 => [(511, 64)]
  | 0x05 => [(511, 256), (191, 141), (127, 106)]
  | 0x10 => [(511, 144), (127, 106)]
  | 0x11 => [(511, 106)]
  | 0x12 => [(511, 490), (447, 443), (383, 371), (319, 313), (255, 249)]
  | 0x13 => [(511, 497), (447, 433), (415, 402), (383, 371), (351, 339), (319, 298), (223, 202), (159, 138), (95, 74)]
  | 0x14 => [(383, 338), (287, 266), (223, 220), (191, 170)]
  | 0x15 => [(511, 106)]
  | 0x16 => [(511, 70)]
  | 0x17 => [(511, 192), (127, 100), (95, 81)]
  | 0x18 => [(511, 296), (255, 234), (127, 65)]
  | _ => [(511, 256), (159, 136), (111, 106)]

/-- R447, R444: codes of a body that are reserved. -/
def bodyCodesOk (e : Nat) : Bool :=
  match fld e 7 0 with
  | 0x13 => decide (fld e 67 64 ≤ 4)
  | 0x17 => decide (fld e 99 96 ≤ 6)
  | _ => true

/-- R444: is an opcode allowed on a ring? -/
def opcodeOn (n op : Nat) : Bool :=
  if n = 1025 then decide (0x30 ≤ op ∧ op ≤ 0x34)
  else if n = 1024 then decide (1 ≤ op ∧ op ≤ 5)
  else decide (0x10 ≤ op ∧ op ≤ 0x18)

/-- R443: the rules of IN_STEP and STEP_LAST. -/
def stepBitsOk (s : State) (e : Nat) : Bool :=
  let op := fld e 7 0
  let isIn := bit e 18
  let isLast := bit e 19
  if !isIn then !isLast
  else decide (op = 0x10 ∨ op = 0x11) && ((s.ctx? (fld e 17 8)).bind (·.step)).any fun t => !t.lastTaken

/-- R443: what depends on the ring: the context, and the job's state. -/
def ringRuleOk (s : State) (n e : Nat) : Bool :=
  let op := fld e 7 0
  if n < 1024 then decide (fld e 17 8 = n ∧ s.job.state = .owned) && (s.ctx? n).isSome
  else decide (op ≤ 2 ∨ s.job.state = .owned)

/-- R443: may an entry of a management or context ring run? -/
def ringEntryOk (s : State) (n e : Nat) : Bool :=
  rsvClear e ((31, 21) :: bodyRsv (fld e 7 0)) && opcodeOn n (fld e 7 0) && bodyCodesOk e && ringRuleOk s n e && stepBitsOk s e

/-- R247, R404: is a STEP_OPEN held: has its context an open step, that is, one whose STEP_OPEN has been taken and whose
outcome has not yet been applied? -/
def stepHeld (s : State) (n e : Nat) : Bool :=
  decide (n < 1024 ∧ fld e 7 0 = 0x12) &&
    (((s.ctx? n).bind (·.step)).isSome || s.cmds.any fun c => c.ring == n && c.opcode == 0x12)

/-- Local address of the next entry of a ring. -/
def nextEntryAddr (r : Ring) : Nat := r.sqBase + 64 * r.sqHead

/-- R440: has a ring an entry to take? -/
def Ring.waits (r : Ring) : Bool := r.serves && r.sqHead != r.sqTail

/-- Has a ring a STEP_OPEN that has been taken and whose row has not run? Taking it opens the step (R404, R443), so nothing is
taken behind it before (DESIGN CHOICE, log 132). -/
def stepTaken (s : State) (n : Nat) : Bool := s.cmds.any fun c => c.ring == n && c.opcode == 0x12 && c.stage == .taken

/-- R440: may the next entry of a ring be taken now: no held STEP_OPEN, no fence with an earlier command out? -/
def mayTake (s : State) (n : Nat) : Bool :=
  let r := s.ring n
  let e := (entryWord s (nextEntryAddr r)).1
  r.waits && !stepHeld s n e && !stepTaken s n && !(bit e 20 && n != 1025 && s.cmds.any fun c => c.ring == n)

/-- R440: the order of a round: the management ring, the context rings, the object-dictionary ring. -/
def roundPlace (n : Nat) : Nat := if n = 1024 then 0 else if n = 1025 then 1025 else n + 1

/-- The ring at a place of the round. -/
def ringAtPlace (k : Nat) : Nat := if k = 0 then 1024 else if k = 1025 then 1025 else k - 1

/-- The place of the lowest listed ring that may be taken from at a place of k or later. -/
def firstFrom (s : State) (k : Nat) : Option Nat :=
  ((s.rings.filter fun e => decide (k ≤ roundPlace e.1) && mayTake s e.1).map fun e => roundPlace e.1).min?

/-- R440: the ring served next in the round, or first in a new one. -/
def nextRing (s : State) : Option Nat := ((firstFrom s s.lastRing).or (firstFrom s 0)).map ringAtPlace

/-- R440: rings whose next entry is a held STEP_OPEN are in state HELD. -/
def markHeld (s : State) : State :=
  { s with rings := Sp.mapVals Ring.init (fun n r =>
      if r.waits && stepHeld s n (entryWord s (nextEntryAddr r)).1 then { r with state := .held } else r) s.rings }

/-- Count a command among those of its context's open step (R443). -/
def joinStep (s : State) (ctx id e : Nat) : State :=
  if bit e 18 then
    s.updCtx ctx fun x => { x with step := x.step.map fun t =>
      { t with cmdsLeft := t.cmdsLeft ++ [id], lastTaken := t.lastTaken || bit e 19 } }
  else s

/-- A command just taken. -/
def Cmd.fresh (id ring serial e : Nat) : Cmd :=
  { id := id, ring := ring, entry := e, stage := .taken, k := 0, evicted := false, started := false, serial := serial, left := 0,
    okCount := 0, overruns := 0, runOns := 0, stale := 0, firstBad := none, worst := 0, tileFailed := false, bytes := 0 }

/-- R494: the request block an object-dictionary ring entry stands for. -/
def odBlockOfEntry (e : Nat) : Nat :=
  fld e 7 0 + fld e 127 112 * 2 ^ 16 + fld e 135 128 * 2 ^ 32 + fld e 191 160 * 2 ^ 160 + fld e 223 192 * 2 ^ 192 + fld e 255 224 * 2 ^ 224

/-- R491: a usable buffer. -/
def odBufferOk (s : State) (a n : Nat) : Bool :=
  decide (a % 64 = 0 ∧ 1 ≤ n ∧ n ≤ 2 ^ 24) && s.inAreas a n && !s.meetsJournal a n

/-- R443, R491, R492: the access of an object-dictionary ring entry joins the server's queue; no other row runs the entry. -/
def takeOd (s : State) (id e : Nat) (bad : Bool) : State :=
  if (s.block 0x84).fenced then complete s id St.targetReset Details.zero
  else
    let malformed := bad || !rsvClear e ((31, 8) :: bodyRsv 0x30) || !opcodeOn 1025 (fld e 7 0)
    let refused := if malformed then some 0x0D
      else if fld e 7 0 ≠ 0x34 ∧ !odBufferOk s (fld e 105 64) (fld e 191 160) then some 0x04 else none
    let s := s.updCmd id fun c => { c with stage := .active }
    { s with odQueue := s.odQueue ++ [{ who := .ring, tag := id, block := odBlockOfEntry e, data := [], refused := refused }] }

/-- R422, R442, R443: a taken entry of a management or context ring joins its queue, or completes at once. -/
def admitCmd (s : State) (n id e : Nat) (bad : Bool) : State :=
  if bad ∨ !ringEntryOk s n e then complete s id St.badDescriptor (refusedDetails e)
  else if n = 1024 then
    if fld e 7 0 = 1 ∧ s.job.state = .idle then { s with job := { s.job with state := .opening, openCmd := some id } } else s
  else
    let full := 256 < placesTaken s n
    let s := joinStep s n id e
    if full then complete s id St.refusedCapacity (refusedDetails e)
    else
      match s.ctx? n with
      | some x => if hasShare s n x then s else complete s id St.refusedClass (refusedDetails e)
      | none => s

/-- R440, R463, R491: the scheduler core takes the next ring entry. -/
def ringEntryTake (s : State) : State :=
  if s.secure.boot ≠ 2 ∨ s.schedDown then s
  else
    let s := markHeld s
    match nextRing s with
    | none => s
    | some n =>
      let r := s.ring n
      let w := entryWord s (nextEntryAddr r)
      let id := s.serial
      let s := s.fresh.setRing n { r with sqHead := (r.sqHead + 1) % 2 ^ r.sqLog, state := .running }
      let s := { s with lastRing := roundPlace n + 1, cmds := s.cmds ++ [Cmd.fresh id n r.serial w.1] }
      if n = 1025 then takeOd s id w.1 w.2 else admitCmd s n id w.1 w.2

/-- R440. -/
def execRingEntryTake (s : State) : Out := .next (ringEntryTake s)

end Sys2Proof.Machine
end

