-- ==== Sys2Proof/Machine/HostMem.lean ====
section
/-! DEFINITION. Host memory and BAR2: HOST_COPY, completions of host reads, the BAR2 window (R302, R308, R429,
R433, R434, R444, R451, R463). -/
namespace Sys2Proof.Machine

/-! ## Local ranges sector by sector -/

/-- Cut bytes at a into pieces that end at sector boundaries. -/
def sectorCuts : Nat → Nat → List Byte → List (Nat × List Byte)
  | 0, _, _ => []
  | n + 1, a, bs =>
    if bs = [] then []
    else
      let k := 32 - a % 32
      (a, bs.take k) :: sectorCuts n (a + k) (bs.drop k)

/-- R297, R310, R550: store bytes through their home slices, but for those whose target is fenced or unmapped. -/
def storeUp (s : State) (a : Nat) (bs : List Byte) (p : Bool) : State :=
  (sectorCuts (bs.length + 1) a bs).foldl (fun s c => if targetDown s c.1 then s else (sliceStores s [c]).storeP c.1 c.2 p) s

/-- Does a range reach a fenced or unmapped cell? -/
def rangeDown (s : State) (a n : Nat) : Bool :=
  decide (0 < n) && (s.cells.any fun e => s.cellDown e.1 && rangesMeet a n (spOf e.1) spBytes) ||
    decide (0 < n) && s.blocks.any fun e => decide (e.1 < 128) && e.2.fenced && rangesMeet a n (spOf (64 * e.1)) (64 * spBytes)

/-! ## HOST_COPY (R444) -/

/-- R444: the fields of a HOST_COPY. -/
structure CopyD where
  toHost : Bool
  host : Nat
  addr : Nat
  bytes : Nat
  deriving DecidableEq, Repr

/-- R444. -/
def CopyD.ofWord (w : Nat) : CopyD :=
  { toHost := bit w 64, host := fld w 191 128, addr := fld w 233 192, bytes := fld w 295 256 }

/-- R444: multiples of 64, at least 64 bytes, and a legal local range. -/
def CopyD.ok (s : State) (d : CopyD) : Bool :=
  decide (d.host % 64 = 0 ∧ d.addr % 64 = 0 ∧ d.bytes % 64 = 0 ∧ 64 ≤ d.bytes) && s.rangeOk d.addr d.bytes

/-- R429, R430: what stops a HOST_COPY before it begins. -/
def copyRefuses (s : State) (d : CopyD) (busMaster : Bool) : Option Nat :=
  if !busMaster then some St.denied
  else if !d.ok s then some St.badDescriptor
  else if !s.pcieUp then some St.targetReset
  else none

/-- R450: bytes moved. -/
def copyDetails (c : Cmd) : Details := { Details.zero with d0 := c.bytes }

/-- R429: HOST_COPY toward the device: the read goes out. -/
def hostCopyIn (s : State) (id : Nat) (busMaster : Bool) : State :=
  match s.cmd? id with
  | none => s
  | some c =>
    let d := CopyD.ofWord c.entry
    if c.opcode ≠ 0x18 ∨ c.stage ≠ .taken ∨ d.toHost then s
    else
      let s := s.setBme busMaster
      match copyRefuses s d busMaster with
      | some st => complete s id st Details.zero
      | none =>
        let s := (beginCmd s id).send (.hostRead s.serial d.host d.bytes)
        { s.fresh with hostReads := s.hostReads ++ [{ id := s.serial, cmd := id, addr := d.addr, bytes := d.bytes, left := d.bytes }] }

/-- R444. -/
def execHostCopyToDevice (cmd : Nat) (busMaster : Bool) (s : State) : Out := .next (hostCopyIn s cmd busMaster)

/-- The bytes of a sector as they leave for the host, and EP (R434, R451). -/
def outSector (s : State) (a : Nat) : List Byte × Bool :=
  if targetDown s a then ((List.range 32).map fun i => Config.lostByte s.free (a + i), true)
  else if s.poisonAt a then (List.replicate 32 0, true)
  else (s.bytes a 32, false)

/-- R310, R451: HOST_COPY toward the host: writes of 32 bytes, those of poisoned sectors with EP set. DESIGN CHOICE (log 130): an
access that a stack at level 3 holds (R325) has no effect, and is made again. -/
def hostCopyOut (s : State) (id : Nat) (busMaster : Bool) : State :=
  match s.cmd? id with
  | none => s
  | some c =>
    let d := CopyD.ofWord c.entry
    if c.opcode ≠ 0x18 ∨ c.stage ≠ .taken ∨ !d.toHost ∨ (d.ok s ∧ loadHeld s [(d.addr, d.bytes)]) then s
    else
      let s := s.setBme busMaster
      match copyRefuses s d busMaster with
      | some st => complete s id st Details.zero
      | none =>
        let out := (List.range (d.bytes / 32)).map fun i => (d.host + 32 * i, outSector s (d.addr + 32 * i))
        let down := rangeDown s d.addr d.bytes
        let st := if down then St.targetReset else if out.any (·.2.2) then St.poisoned else St.ok
        let s := sliceLoads s [(d.addr, d.bytes)]
        let s := { s with outbox := s.outbox ++ out.map fun x => .hostWrite x.1 x.2.1 x.2.2 }
        complete (if down then s.draw else s) id st { Details.zero with d0 := d.bytes }

/-- R444. -/
def execHostCopyToHost (cmd : Nat) (busMaster : Bool) (s : State) : Out := .next (hostCopyOut s cmd busMaster)

/-- R429, R451: a completion of a host read: its data land, poisoned where it failed; the last byte ends the
command. -/
def readCompletion (s : State) (id offset : Nat) (data : List Byte) (fail : Bool) : State :=
  match s.hostReads.find? fun r => r.id == id with
  | none => s
  | some r =>
    let bs := data.take (min r.left (r.bytes - offset))
    if storeHeld s [(r.addr + offset, bs.length)] then s
    else
    let down := rangeDown s (r.addr + offset) bs.length
    let st := if down then St.targetReset else if fail then St.poisoned else St.ok
    let s := storeUp s (r.addr + offset) (if fail then bs.map fun _ => 0 else bs) fail
    let s := s.updCmd r.cmd fun c => { c with worst := max c.worst st, bytes := c.bytes + bs.length }
    if bs.length < r.left then
      { s with hostReads := updFirst (fun q => q.id == id) (fun q => { q with left := q.left - bs.length }) s.hostReads }
    else
      let s := { s with hostReads := s.hostReads.filter fun q => q.id != id }
      match s.cmd? r.cmd with
      | some c => complete s r.cmd c.worst (copyDetails c)
      | none => s

/-- R429. -/
def execPcieReadCompletion (id offset : Nat) (data : List Byte) (fail : Bool) (s : State) : Out :=
  .next (readCompletion s id offset data fail)

/-- R430: the host reads of the samples of a stream are lost (R368). -/
def loseSamples (t : Stream) : Stream :=
  let lose (d : Decode) : Decode := if bit d.entry 4 && !d.done then { d with lost := true } else d
  { t with running := t.running.map lose, parked := t.parked.map lose }

/-- R430, R550: host requests in flight are lost; their commands complete with TARGET_RESET, and a sample has no source. -/
def loseHostReads (s : State) : State :=
  let s' := s.hostReads.foldl (fun s r =>
    match s.cmd? r.cmd with
    | some c => complete s r.cmd St.targetReset (copyDetails c)
    | none => s) s
  { s' with hostReads := [], streams := s'.streams.map fun e => (e.1, loseSamples e.2) }

/-! ## BAR2 (R302, R308, R433, R434, R463) -/

/-- R433: a write of BAR2_WINDOW_BASE; the size S is the one the Resizable BAR capability holds. -/
def bar2WindowBase (s : State) (value sizeLog : Nat) : State :=
  if !bar0Live s ∨ sizeLog < 30 ∨ 40 < sizeLog then s
  else
    let s := { s with bar2Log := sizeLog }
    if value % 2 ^ sizeLog = 0 then { s with bar2Base := value } else s

/-- R433. -/
def execBar2WindowBase (value sizeLog : Nat) (s : State) : Out := .next (bar2WindowBase s value sizeLog)

/-- R433: the local address of a view offset. -/
def viewAddr (o : Nat) : Option Nat :=
  if o < 0xC000000000 then some o
  else if o < 0xC500000000 then some (slmBase + (o - 0xC000000000))
  else if 0xC800000000 ≤ o ∧ o < 0xCB00000000 then some (spBase + (o - 0xC800000000))
  else none

/-- Does BAR2 reach the memory behind a local address: a job's stack memory that is backed, SLM outside the
cache partitions and the journal, scratchpads (R302, R308, R434, R463)? -/
def bar2Reaches (s : State) (a : Nat) : Bool :=
  if a < slmBase then s.job.state == .owned && s.backed a 1
  else if a < spBase then s.inAreas a 1 && !s.meetsJournal a 1
  else inSp a 1

/-- R434: one byte of a BAR2 read, and EP. -/
def bar2Byte (s : State) (o : Nat) : Byte × Bool :=
  match viewAddr o with
  | none => (0, false)
  | some a =>
    if !bar2Reaches s a then (0, false)
    else if targetDown s a then (Config.lostByte s.free a, true)
    else if s.poisonAt a then (0, true)
    else (s.byte a, false)

/-- R310: the runs of memory that n bytes of the BAR2 view from an offset on reach. -/
def bar2Runs (s : State) (o n : Nat) : List (Nat × Nat) :=
  match viewAddr o with
  | some a => if bar2Reaches s a then [(a, n)] else []
  | none => []

/-- R310, R434: a BAR2 read. -/
def bar2Read (s : State) (offset n : Nat) : State :=
  if !bar0Live s || loadHeld s (bar2Runs s (s.bar2Base + offset) n) then s
  else
    let bs := (List.range n).map fun i => bar2Byte s (s.bar2Base + offset + i)
    (sliceLoads s.draw (bar2Runs s (s.bar2Base + offset) n)).send (.bar2Data (bs.map (·.1)) (bs.any (·.2)))

/-- R434. -/
def execBar2Read (offset n : Nat) (s : State) : Out := .next (bar2Read s offset n)

/-- R434: one sector's worth of a BAR2 write. -/
def bar2Store (s : State) (o : Nat) (bs : List Byte) (ep : Bool) : State :=
  match viewAddr o with
  | none => s
  | some a =>
    if !bar2Reaches s a || targetDown s a then s
    else if ep then ((sliceStores s [(a, bs)]).copyOnWrite a bs.length).addPoison a
    else (sliceStores s [(a, bs)]).storeP a bs false

/-- R434: a BAR2 write. -/
def bar2Write (s : State) (offset : Nat) (data : List Byte) (ep : Bool) : State :=
  if !bar0Live s || storeHeld s (bar2Runs s (s.bar2Base + offset) data.length) then s
  else (sectorCuts (data.length + 1) (s.bar2Base + offset) data).foldl (fun s c => bar2Store s c.1 c.2 ep) s

/-- R434. -/
def execBar2Write (offset : Nat) (data : List Byte) (ep : Bool) (s : State) : Out := .next (bar2Write s offset data ep)

end Sys2Proof.Machine
end

