-- ==== Sys2Proof/Machine/Stitch.lean ====
section
/-! DEFINITION. The Stitch: edges, STITCH_IN, markers, heartbeats, takeover, STITCH_LOST (R29 to R35, R45 to
R50, R64 to R66, R142, R419, R518, R556). -/
namespace Sys2Proof.Machine

/-! ## The edge -/

/-- R45: is the next stitch of a cell reserved for another class 0 context, or does its cluster's PLL calibrate? -/
def takenAway (s : State) (e : Nat × List Nat) (c ctx : Nat) : Bool :=
  bit (pllMask (pePll e.1)) c || (reservedGiven s e.2).any fun g => bit g.mask c && g.ctx != ctx

/-- R45, R46, R50: what an edge decides for a cell that runs a piece. -/
def overrunDecide (s : State) (e : Nat × List Nat) (c : Nat) : State :=
  match s.pieceOf c with
  | none => s
  | some p =>
    if p.committing then s
    else if takenAway s e c (pdCtx p.desc) || decide (s.odGet 0x5004 0 ≤ p.runOn) then overrunPiece s c p
    else
      let s := (s.odAdd 0x8010 0 1).cellAdd c State.ctrRunOn 1
      let s := s.updCtx (pdCtx p.desc) fun x => { x with runOns := x.runOns + 1 }
      (s.updPiece c fun p => { p with runOn := p.runOn + 1 }).updCmd p.cmd fun k => { k with runOns := k.runOns + 1 }

/-- R140, R536: a tile claimed and not started goes back to the queue with its lease; slack of the stitch before is
over. -/
def unclaim (s : State) (c : Nat) : State :=
  match (s.cell c).claim with
  | none => s.updCell c fun e => { e with skips := [], slack := 0 }
  | some m =>
    let s := s.updCell c fun e => { e with claim := none, skips := [], slack := 0 }
    requeue s (pdCtx m.desc) (.piece m.cmd 0 m.desc (some m.lease) true)

/-- R536: a slice of a mapped cell in service ends before the edge: one still under way is dropped, and counts neither way. -/
def dropSlices (s : State) : State :=
  { s with phys := Sp.mapVals Phys.init (fun k q =>
      match cellServed s (k / 66) (k % 66) with
      | some c => if s.cellDown c then q else { q with test := none }
      | none => q) s.phys }

/-- R142: leases age by the stitches in which their context held cells. -/
def ageLeases (s : State) : State :=
  let held := (s.ctxs.filter fun e => e.2.holding).map (·.1)
  { s with sync := s.sync.map fun e =>
      (e.1, if held.contains e.2.ctx then { e.2 with leases := e.2.leases.map fun l => { l with age := l.age + 1 } } else e.2) }

/-- R64, R415, R419: the calibrations an entry starts. -/
def startCalibrations (s : State) (p : Pattern) : State :=
  let i := entryNo p s.stitch.count
  let e := (p.entries.getD i (0, [])).1
  let ls := p.entries.map fun e => peLink e.1
  let s := if linkStarts ls (linkSpan s.periodUs) i then calibratePort s (peLink e) false else s
  let s := if peHarness e < 48 then calibratePort s (peHarness e) true else s
  if pePll e < 16 then { s with pllCal := s.pllCal ++ (List.range 8).map (8 * pePll e + ·) } else s

/-- R518: in FABRIC mode the entry's operating point is applied, but for a trip. -/
def applyPoint (s : State) (e : Nat) : State :=
  if s.job.mode = 2 ∧ !s.safeTrip ∧ !s.powerDown then { s with clock := opPoint s (peOp e) } else s

/-- R409: no cells for a context that must give way to a pinned one being created. -/
def givesWay (s : State) (c : Nat) : Bool :=
  match s.ctx? c with
  | none => false
  | some x => !pinnedNow s c x && s.ctxs.any fun e => e.1 != c && e.2.createCmd.isSome && !e.2.resident && conflict s e.2 x

/-- R410, R417, R418: hand out the cells of the stitch, and note who holds and who runs. -/
def handOutCells (s : State) (e : Nat × List Nat) : State :=
  let given := (givenFor s e).filter fun g => !givesWay s g.ctx
  let s := { s with job := { s.job with given := given } }
  { s with ctxs := s.ctxs.map fun (c, x) =>
      let holds := x.resident && given.any fun g => g.ctx == c
      (c, { x with
        holding := holds
        held := if holds then x.held + 1 else x.held
        lastRan := if holds && !ctxIdle s c x then some s.stitch.count else x.lastRan }) }

/-- Everything a job does at an edge, once the counter has moved. -/
def jobEdge (s : State) : State :=
  let s := { s with ctxs := s.ctxs.map fun (c, x) => (c, noteStalled s c x) }
  let s := swapsDue (ageLeases s)
  let s := if s.job.pending.any fun p => decide (p.pat.start ≤ s.stitch.count) then takePattern s else s
  match s.job.pattern, entryNow s with
  | some p, some e =>
    let s := (s.cells.map (·.1)).foldl unclaim s
    let s := (s.cells.map (·.1)).foldl (fun s c => overrunDecide s e c) s
    let s := noteGathers s
    let s := if s.schedDown then s else hotSetEdge s
    let s := refuseLate (countDeferral (handOutCells (swapsDue s) e))
    applyPoint (startCalibrations s p) e.1
  | _, _ => s

/-- R32, R65: the ports that carry Harness traffic. -/
def harnessPorts (s : State) : List Nat := (List.range 48).filter fun p => (s.port p).harness

/-- R32: is this module the root in force of its job? -/
def actsRoot (s : State) : Bool := decide (s.job.mode ≠ 0 ∧ s.job.state = .owned ∧ s.stitch.root = s.moduleId)

/-- Send the marker of the edge after the next. -/
def sendMarker (s : State) : State := s.send (.marker (harnessPorts s) (s.stitch.count + 1))

/-- R32: what the root sends at an edge. -/
def rootMarker (s : State) : State := if actsRoot s then sendMarker s else s

/-- The number of the edge that arrives: 0 after a job open, the marker's when a lost module is heard again,
else one more. -/
def nextCount (s : State) : Nat :=
  if s.job.zeroAtEdge && adopted s then 0
  else if s.stitch.lost then (s.stitch.markers.head?.map (·.1)).getD (s.stitch.count + 1)
  else s.stitch.count + 1

/-- The median of a list of times; of an even number, the lower of the two in the middle. -/
def medianOf (ts : List Int) : Int := (sortBy ts fun a b => decide (a ≤ b)).getD ((ts.length - 1) / 2) 0

/-- R34: the arrival times of the markers of an edge that lie more than 10 ns from their median. -/
def outliers (s : State) (n : Nat) : List Int :=
  let ts := (s.stitch.markers.filter fun m => m.1 == n).map (·.2)
  ts.filter fun t => decide (10 < (t - medianOf ts).natAbs)

/-- R34, R35, R556: the watch on markers at an edge: the outliers are discarded and counted; the median is always left. -/
def watchMarkers (s : State) (n : Nat) : State :=
  let heard := s.stitch.markers.any fun m => m.1 == n
  let s := s.odAdd 0x8014 0 (outliers s n).length
  let follows := decide (s.job.mode ≠ 0) && s.stitch.root != s.moduleId
  let regained := s.stitch.lost && heard
  let st := { s.stitch with
    count := n, lost := s.stitch.lost && !regained, holdover := follows && !heard, markers := s.stitch.markers.filter fun m => decide (n < m.1)
    quiet := if follows then s.stitch.quiet + 1 else 0, standbyIn := s.stitch.standbyIn - 1 }
  let s := { s with stitch := st }
  if regained then logEvent s .stitchRegained srcModule 0 n 0 else s

/-- R462, R555: blocks that have reported ready rejoin. -/
def rejoinBlocks (s : State) : State := { s with blocks := Sp.mapVals Block.init (fun _ b => { b with ready := false }) s.blocks }

/-- One Stitch edge. -/
def edge (s : State) : State :=
  let opens := s.job.zeroAtEdge && adopted s
  let idle := (List.range 48).filter fun p => (s.port p).idle.isSome
  let s := dropSlices (endIdle { rejoinBlocks (watchMarkers s (nextCount s)) with offset := 0 })
  let s := if opens then jobOwned s else s
  let s := if s.job.state = .owned then jobEdge s else s
  rootMarker (resumePorts s idle)

/-- R29, R31: an edge of the module's own generator, of the root, or in holdover. With STITCH_IN enabled a
STANDALONE module makes none. -/
def stitchEdge (s : State) : State :=
  if s.odGet 0x5001 0 = 0 ∧ s.odGet 0x7010 0 = 1 then s else edge s

/-- R29. -/
def execStitchEdge (s : State) : Out := .next (whenPowered s stitchEdge)

/-! ## STITCH_IN (R31) -/

/-- R31: an edge on the pin, with the time since the edge before. -/
def stitchInEdge (s : State) (us : Nat) : State :=
  if s.odGet 0x5001 0 ≠ 0 ∨ s.odGet 0x7010 0 ≠ 1 then s
  else if us < s.periodUs then s.odAdd 0x8013 0 1
  else
    let s := if s.periodUs < us then s.odAdd 0x8015 0 1 else s
    let was := s.stitch.lost
    let s := edge { s with stitch := { s.stitch with lost := false } }
    if was then logEvent s .stitchRegained srcModule 0 s.stitch.count 0 else s

/-- R31. -/
def execStitchInEdge (us : Nat) (s : State) : Out := .next (stitchInEdge s us)

/-- R35: the module enters STITCH_LOST. -/
def enterLost (s : State) : State :=
  if s.stitch.lost then s
  else logEvent { s with stitch := { s.stitch with lost := true } } .stitchLost srcModule 0 s.stitch.count 0

/-- R31. -/
def execStitchInTimeout (s : State) : Out :=
  .next (if s.odGet 0x5001 0 = 0 ∧ s.odGet 0x7010 0 = 1 then enterLost s else s)

/-! ## Markers and heartbeats (R32 to R34) -/

/-- R33: the new standby: the member of lowest rank that is neither the new root nor the former one. -/
def newStandby (s : State) (root former : Nat) : Nat :=
  (s.job.members.find? fun m => m != root && m != former).getD 0xFFFFFFFF

/-- R32, R33: the standby has taken over. -/
def takeOver (s : State) : State :=
  let root := s.stitch.standby
  { s with stitch := { s.stitch with
      root := root, standby := newStandby s root s.stitch.root, standbyIn := 4, quiet := 0 } }

/-- May a member act as standby now (R33)? -/
def actsStandby (s : State) (m : Nat) : Bool :=
  decide (s.job.mode ≠ 0) && m == s.stitch.standby && s.stitch.standbyIn == 0 && s.job.members.contains m

/-- R32, R33: a marker or heartbeat from the standby in force says that it has taken over, to the former root as well. -/
def hearRoot (s : State) (sender : Nat) : Option State :=
  if s.job.mode = 0 ∨ sender = s.moduleId then none
  else if sender = s.stitch.root then some { s with stitch := { s.stitch with quiet := 0 } }
  else if actsStandby s sender then some (takeOver s)
  else none

/-- R34: a marker of edge n arrives on a plane whose Harness wavelength is in service (R65), so many ns from its nominal time; its
hop's delay is subtracted. -/
def stitchMarker (s : State) (plane sender n : Nat) (t : Int) : State :=
  if !(s.port plane).harness then s
  else
    match hearRoot s sender with
    | none => s
    | some s =>
      if n ≤ s.stitch.count then s
      else { s with stitch := { s.stitch with markers := s.stitch.markers ++ [(n, t - (s.port plane).delay)] } }

/-- R34. -/
def execStitchMarker (plane sender n : Nat) (t : Int) (s : State) : Out := onPort plane s fun s => stitchMarker s plane sender n t

/-- R32: the root sends a heartbeat. -/
def execRootHeartbeatSend (s : State) : Out :=
  .next (if actsRoot s then s.send (.heartbeat (harnessPorts s)) else s)

/-- R32: a heartbeat arrives. -/
def execRootHeartbeat (sender : Nat) (s : State) : Out := .next ((hearRoot s sender).getD s)

/-- R32: the standby has heard neither marker nor heartbeat for 4 stitches or for 1 ms. -/
def standbyTakeover (s : State) (us : Nat) : State :=
  if s.job.state = .owned ∧ actsStandby s s.moduleId ∧ s.stitch.root ≠ s.moduleId ∧ (4 ≤ s.stitch.quiet ∨ 1000 ≤ us) then
    let s := takeOver s
    let s := { s with stitch := { s.stitch with holdover := false, lost := false } }
    sendMarker s
  else s

/-- R32. -/
def execStandbyTakeover (us : Nat) (s : State) : Out := .next (standbyTakeover s us)

/-- R35: 20 ms of holdover have passed. -/
def execStitchLost (s : State) : Out := .next (if s.stitch.holdover then enterLost s else s)

/-- R556: 2 s in STITCH_LOST. -/
def execStitchLostJobEnd (s : State) : Out := .next (if s.stitch.lost then endJobFault s 2 else s)

end Sys2Proof.Machine
end

