-- ==== Sys2Proof/Machine/Faults.lean ====
section
/-! DEFINITION. Fences: cells and blocks taken out, requests cancelled, and their return (R16, R142, R146, R241,
R243, R430, R548 to R557). -/
namespace Sys2Proof.Machine

/-! ## Units -/

/-- What is fenced: a cell, or a block of R548. -/
inductive FenceUnit where
  | cell (c : Nat)
  | block (b : Nat)
  deriving DecidableEq, Repr

/-- R548: the blocks there are. -/
def isBlock (b : Nat) : Bool := decide (b < 128 ∨ (0x80 ≤ b ∧ b ≤ 0x85))

/-- All blocks. -/
def allBlocks : List Nat := List.range 128 ++ [0x80, 0x81, 0x82, 0x83, 0x84, 0x85]

namespace FenceUnit

/-- A unit from a command's operands. -/
def ofNat (isCell : Bool) (u : Nat) : FenceUnit := if isCell then .cell u else .block u

/-- Does the unit exist? -/
def exists? : FenceUnit → Bool
  | .cell c => decide (c < cellCount)
  | .block b => isBlock b

/-- Is a cell, or the Harness node 8192 + b of a cluster, part of the unit? -/
def has : FenceUnit → Nat → Bool
  | .cell c, k => k == c
  | .block b, k => decide (b < 128) && serverBlock k == b

/-- Its cells. -/
def cells : FenceUnit → List Nat
  | .cell c => [c]
  | .block b => if b < 128 then (List.range 64).map (64 * b + ·) else []

/-- The targets told of its fence (R550 step 4): a cluster's own slice, which lies outside it (R328), and the units that its
Harness node is home to (R57) too. -/
def targets : FenceUnit → List Nat
  | .cell _ => allBlocks
  | .block b => allBlocks.filter fun x => x != b || decide (b < 128)

/-- The fence under way. -/
def fencing (s : State) : FenceUnit → Option Fencing
  | .cell c => (s.cell c).fencing
  | .block b => (s.block b).fencing

/-- Is it fenced? -/
def fenced (s : State) : FenceUnit → Bool
  | .cell c => (s.cell c).fenced
  | .block b => (s.block b).fenced

/-- Change the fence under way. -/
def updFencing (s : State) (f : Fencing → Fencing) : FenceUnit → State
  | .cell c => s.updCell c fun e => { e with fencing := e.fencing.map f }
  | .block b => s.setBlock b { s.block b with fencing := (s.block b).fencing.map f }

/-- R550 step 2: the generation advances (R548). -/
def advance (s : State) (cause : Nat) (units : List Nat) : FenceUnit → State
  | .cell c => s.updCell c fun e =>
      { e with fenced := true, gen := (e.gen + 1) % 256, fencing := some { cause := cause, units := units, told := [], acked := [], cancelled := 0 } }
  | .block b =>
      let s := s.setBlock b { s.block b with
        fenced := true, ready := false, gen := ((s.block b).gen + 1) % 65536
        fencing := some { cause := cause, units := units, told := [], acked := [], cancelled := 0 } }
      if b < 128 then (List.range 64).foldl (fun s i => s.updCell (64 * b + i) fun e => { e with gen := (e.gen + 1) % 256 }) s else s

end FenceUnit

/-! ## Step 1: what runs on fenced cells (R462, R553) -/

/-- R146, R553: has the commit of a piece started, so that it completes before the fence takes effect? -/
def commitStarted (p : Piece) : Bool :=
  p.committing || (p.finished && decide (p.phase = .answered true ∨ p.phase = .accepted))

/-- R241: the SLM range of a tile is poisoned. -/
def poisonTile (s : State) (t : Tile) : State :=
  (List.range t.m).foldl (fun s i =>
    (List.range t.n).foldl (fun s j => s.addPoison (t.target + 8 * (i * t.pitch + j))) s) s

/-- Tiles of committed pieces whose SLM adds have not been sent. -/
def unsentTiles (e : Cell) : List Tile := e.tiles.filter fun t => decide (t.piece = 0) && (e.drainQ ++ e.drainWait).contains t.group

/-- R243: the windows of a cell are lost. -/
def loseWelt (s : State) (c : Nat) : State :=
  { s with
    ctxs := s.ctxs.map fun (n, x) =>
      (n, if x.dirty.contains c then { x with dirty := x.dirty.filter (· != c), weltLost := true } else x)
    welt := s.welt.filter fun e => e.1 / 32768 != c }

/-- R551, R553: the COMMITs of a cell that its fence finds on their way never arrive, and a REVERT answers an accept that came
for an aborted piece (R145). DESIGN CHOICE (log 121): they are cancelled with step 1, before their home node is told. -/
def loseCommits (s : State) (c : Nat) : State :=
  let mine (m : Msg) : Bool :=
    match m with
    | .tileCommit k _ _ => k == c
    | _ => false
  let accepted := (s.cell c).recalls.filter fun r => r.2 == .answered true
  let s := { s with outbox := s.outbox.filter fun m => !mine m }
  accepted.foldl (fun s r => s.send (.tileRevert r.1)) (s.updCell c fun e => { e with recalls := [] })

/-- R462, R553: a cell stops: a commit that has started completes; a grid piece keeps its lease until it is released,
another piece is issued again; SLM adds not sent are lost (R241). -/
def stopCell (s : State) (c : Nat) : State :=
  let s := match s.pieceOf c with
    | none => dropWaiters s c
    | some p =>
      if commitStarted p then commitPiece s c p
      else if p.lease.isSome then (dropWaiters s c).updPiece c fun p => { p with units := [] }
      else
        let s := (abandon s c { p with units := [] })
        match p.upd with
        | some u => requeue s (pdCtx p.desc) (.update p.cmd u.1 u.2.1 u.2.2 (pdBudget p.desc) true)
        | none => requeue s (pdCtx p.desc) (.piece p.cmd p.no p.desc none true)
  let s := loseCommits s c
  let lost := unsentTiles (s.cell c)
  let s := lost.foldl poisonTile s
  let s := s.updCell c fun e =>
    { e with tiles := e.tiles.filter fun t => !lost.contains t, drainQ := [], drainWait := [], slack := 0, xfers := e.xfers.map fun t => if t.store then t else { t with dropped := true } }
  match s.physIndex c with
  | some p => loseWelt (s.updPhys (clusterOf c) p fun q => { q with test := none }) c
  | none => loseWelt s c

/-- Objects of which the pieces of the cells hold semaphore units, and have not committed (R57). -/
def heldUnits (s : State) (cs : List Nat) : List Nat :=
  cs.flatMap fun c => match s.pieceOf c with
    | some p => if commitStarted p then [] else p.units
    | none => []

/-! ## Step 3: requests to the unit (R297, R550) -/

/-- A load that a fence of its server completes with lost data; a store of them to another place goes on. -/
def loseLoad (s : State) (c : Nat) (t : Xfer) : State :=
  let lost := t.writes.map fun w => (w.1, (List.range w.2.1.length).map (fun i => Config.lostByte s.free (w.1 + i)), true)
  let rest (x : Xfer) : Xfer :=
    if t.store then { x with writes := lost, server := none, gen := genOf s t.target } else { x with dropped := true }
  let mine := (s.pieceOf c).any fun p => p.seq == t.piece
  let s' := s.draw.updCell c fun e => { e with xfers := e.xfers.map fun x => if x.id = t.id then rest x else x }
  if t.store then s' else countLanded (if mine then storeEls s' lost else s') c t

/-- A store that a fence of its target completes: it counts as discarded. -/
def loseStore (s : State) (c : Nat) (t : Xfer) : State :=
  let s := s.updCell c fun e => { e with xfers := e.xfers.map fun x => if x.id = t.id then { x with dropped := true } else x }
  countLanded (s.odAdd 0x8035 1 1) c t

/-- A request that a fence completes: a load with poisoned data, a store discarded. -/
def loseXfer (s : State) (u : FenceUnit) (c : Nat) (t : Xfer) : State :=
  let s := s.updPiece c fun p => if p.seq = t.piece then { p with targetReset := true } else p
  settleHeld (if t.target.any u.has then loseStore s c t else loseLoad s c t)

/-- R550 step 3. -/
def loseRequests (s : State) (u : FenceUnit) : State :=
  (s.cells.flatMap fun e =>
    (e.2.xfers.filter fun t => !t.dropped && (t.server.any u.has || t.target.any u.has)).map fun t => (e.1, t)).foldl
    (fun s x => loseXfer s u x.1 x.2) s

/-! ## Hub blocks (R430, R463, R464, R555) -/

/-- R488: a write transfer of FW_STAGE_DATA that ends without its last segment leaves the inactive slot EMPTY. -/
def stagingLost (s : State) : State :=
  if s.secure.stage = 1 then
    { s with
      secure := { s.secure with stage := 0 }
      flash := if s.secure.active then { s.flash with slotA := [] } else { s.flash with slotB := [] } }
  else s

/-- R488: the transfers that a predicate names end without their last segment. -/
def endTransfers (s : State) (p : Transfer → Bool) : State :=
  let s' := { s with transfers := s.transfers.filter fun t => !p t }
  if s.transfers.any fun t => p t && t.index == 0x9002 then stagingLost s' else s'

/-- Is a requester a session? -/
def Who.isSession : Who → Bool
  | .session _ => true
  | _ => false

/-- R500, R501: all sessions end: their accesses, transfers and nonces with them. -/
def endSessions (s : State) : State :=
  let s := endTransfers s fun t => t.who.isSession
  { s with
    sessions := []
    odQueue := s.odQueue.filter fun r => !r.who.isSession
    secure := { s.secure with nonces := s.secure.nonces.filter fun n => !n.1.isSession } }

/-- The object-dictionary server loses its accesses and transfers; ring accesses complete with TARGET_RESET. -/
def loseOd (s : State) : State :=
  let s := s.odQueue.foldl (fun s r => if r.who = .ring then complete s r.tag St.targetReset Details.zero else s) s
  stagingLost { s with odQueue := [], transfers := [], mailbox := { s.mailbox with busy := false } }

/-- What a fence of a hub block cuts short. -/
def loseHub (s : State) (b : Nat) : State :=
  match b with
  | 0x80 => loseHostReads s
  | 0x81 => (s.streams.map (·.1)).foldl (fun s n => endStream s n 3 St.targetReset) s
  | 0x82 => { s with schedDown := true }
  | 0x83 => { s with powerDown := true, clock := 1000 }
  | 0x84 => loseOd s
  | 0x85 => endSessions s
  | _ => s

/-! ## The fence -/

/-- R550 steps 1 to 3: fence a unit. -/
def fence (s : State) (u : FenceUnit) (cause : Nat) : State :=
  if u.fenced s then s
  else
    let cs := u.cells
    let units := heldUnits s cs
    let s := cs.foldl stopCell s
    let s := u.advance s cause units
    let s := loseRequests s u
    let s := match u with
      | .block b => loseHub s b
      | .cell _ => s
    s.odAdd 0x8122 0 1

/-- A command on a unit that may be fenced. -/
def onUnit (isCell : Bool) (unit : Nat) (f : FenceUnit → State) : Out :=
  let u := FenceUnit.ofNat isCell unit
  if u.exists? then .next (f u) else if isCell then .fault (.noSuchCell unit) else .fault (.noSuchCluster unit)

/-- R550. -/
def execFence (isCell : Bool) (unit cause : Nat) (s : State) : Out := onUnit isCell unit fun u => whenPowered s fun s => fence s u cause

/-- R551: stores of a fenced cell that a target drops. -/
def cancelStores (s : State) (c target : Nat) : State × Nat :=
  let here (w : Nat × List Byte × Bool) : Bool := homeOf s w.1 == some target
  let gone := (s.cell c).xfers.filter fun t => t.store && !t.dropped && t.writes.any here
  (s.updCell c fun e => { e with xfers := (e.xfers.map fun t =>
      if gone.contains t then { t with writes := t.writes.filter fun w => !here w } else t).filter fun t =>
        !t.store || t.dropped || t.writes != [] },
    gone.length)

/-- R241, R551: SLM adds of a fenced cell that a target drops; the ranges of their tiles are poisoned, and spans with
no add left are free. -/
def cancelAdds (s : State) (c target : Nat) : State × Nat :=
  let e := s.cell c
  let gone := e.slmAdds.filter fun a => homeOf s a.addr == some target
  let tiles := e.tiles.filter fun t => decide (t.piece = 0) && gone.any fun a => a.group == t.group
  let s := tiles.foldl poisonTile s
  let kept := e.slmAdds.filter fun a => homeOf s a.addr != some target
  (s.updCell c fun e =>
    { e with slmAdds := kept, tiles := e.tiles.filter fun t => t.piece != 0 || kept.any fun a => a.group == t.group }, gone.length)

/-- R142: the leases that the cells of a fenced unit hold, in tile counters homed at a target. -/
def heldLeases (s : State) (u : FenceUnit) (target : Nat) : List LeaseRef :=
  s.cells.flatMap fun e =>
    if u.has e.1 then
      (((e.2.piece.bind (·.lease)).toList ++ (e.2.claim.map (·.lease)).toList).filter fun l => homeNode l.obj == target)
    else []

/-- R57, R142, R551: a fence notice reaches a target. -/
def fenceNotice (s : State) (u : FenceUnit) (target : Nat) : State :=
  match u.fencing s with
  | none => s
  | some f =>
    if !(u.targets).contains target || f.told.contains target then s
    else
      let r := u.cells.foldl (fun (a : State × Nat) c =>
        let x := cancelStores a.1 c target
        let y := cancelAdds x.1 c target
        (y.1, a.2 + x.2 + y.2)) (s, 0)
      let s := settleHeld r.1
      let s := (heldLeases s u target).foldl releaseLease s
      let s := returnUnits s (f.units.filter fun i => homeNode i == target)
      let s := s.odAdd 0x8121 0 r.2
      u.updFencing s fun f => { f with told := f.told ++ [target], cancelled := f.cancelled + r.2 }

/-- R551. -/
def execFenceNotice (isCell : Bool) (unit target : Nat) (s : State) : Out :=
  onUnit isCell unit fun u => fenceNotice s u target

/-- R560: the event of a complete fence. -/
def fenceEvent (s : State) (f : Fencing) : FenceUnit → State
  | .cell c => logEvent s .fence srcCell c ((s.cell c).gen + f.cause * 2 ^ 16) f.cancelled
  | .block b => logEvent s .fence srcBlock b ((s.block b).gen + f.cause * 2 ^ 16) f.cancelled

/-- The fence is complete. -/
def fenceDone (s : State) : FenceUnit → State
  | .cell c => s.updCell c fun e => { e with fencing := none }
  | .block b => s.setBlock b { s.block b with fencing := none }

/-- R550 step 4: a target acknowledges; the last acknowledgement completes the fence. -/
def fenceAck (s : State) (u : FenceUnit) (target : Nat) : State :=
  match u.fencing s with
  | none => s
  | some f =>
    if !f.told.contains target || f.acked.contains target then s
    else
      let acked := f.acked ++ [target]
      if (u.targets).all acked.contains then fenceDone (fenceEvent s f u) u
      else u.updFencing s fun f => { f with acked := acked }

/-- R550. -/
def execFenceAck (isCell : Bool) (unit target : Nat) (s : State) : Out := onUnit isCell unit fun u => fenceAck s u target

/-! ## Return (R462, R555) -/

/-- R517, R518: does the pattern of a FABRIC job set the clock? -/
def State.patternClock (s : State) : Bool :=
  s.job.mode == 2 && (s.job.state == .opening || s.job.state == .owned || s.job.state == .closing)

/-- R464, R521: the clock leaves 1.0 GHz when neither a trip nor the power-management core holds it. -/
def resumeClock (s : State) : State :=
  if s.safeTrip ∨ s.powerDown ∨ s.patternClock then s else { s with clock := s.odGet 0x2201 0 }

/-- What a block resumes. -/
def resumeHub (s : State) (b : Nat) : State :=
  match b with
  | 0x82 => { s with schedDown := false }
  | 0x83 => resumeClock { s with powerDown := false }
  | _ => s

/-- R462: may the block be unfenced: its fence is complete, and its control core has not expired three times in this
job? The PCI Express block waits for PERST_N. -/
def mayUnfence (s : State) (b : Nat) : Bool :=
  let v := s.block b
  v.fenced && v.fencing.isNone && !(decide (b < 128) && decide (3 ≤ v.expiries)) && !(b == 0x80 && s.power.perst)

/-- R555: a block reports ready. -/
def unfence (s : State) (b : Nat) : State :=
  if mayUnfence s b then
    let s := s.setBlock b { s.block b with fenced := false, ready := decide (b < 128) }
    logEvent (resumeHub s b) .unfence srcBlock b (s.block b).gen 0
  else s

/-- R555. -/
def execUnfence (block : Nat) (s : State) : Out := if isBlock block then .next (unfence s block) else .fault (.noSuchCluster block)

/-! ## A cell fails (R16, R142, R547) -/

/-- R142: all leases a cell holds: of the piece or the claim on it. DESIGN CHOICE (log 146): the lease of a piece that was aborted
on the cell and waits in the dispatch queue of its context is none of them. -/
def leasesOf (s : State) (c : Nat) : List LeaseRef :=
  let e := s.cell c
  (e.piece.bind (·.lease)).toList ++ (e.claim.map (·.lease)).toList

/-- R16: fence a cell at once and release its leases; a cell of a fenced cluster is fenced itself too, and stays so when its
cluster returns. -/
def failCell (s : State) (c cause : Nat) : State :=
  if (s.cell c).fenced ∨ (s.cell c).served = .unmapped then s
  else
    let s := fence s (.cell c) cause
    (leasesOf s c).foldl releaseLease s

/-- R16, R142. -/
def execCellFault (cell : Nat) (s : State) : Out :=
  onCell cell s fun s => if s.job.state = .owned then failCell s cell 3 else s

/-! ## Exclusion (R557) -/

/-- R557: is a member to be excluded? -/
def excludable (s : State) (m : Nat) : Bool :=
  let n := s.odGet 0x5015 0
  decide (s.job.state = .owned ∧ n ≠ 0 ∧ n ≤ Sp.get 0 s.missing m) && s.job.members.contains m

/-- R557: exclude a member: ranks are renumbered, fabric operations end, it votes no more; the module itself ends its
job. -/
def memberExclude (s : State) (m : Nat) : State :=
  if m = s.moduleId then
    if s.job.state = .owned then endJobFault s 4 else s
  else if !excludable s m then s
  else
    let s := s.fab.foldl (fun s o => endFab s o St.targetReset) s
    let members := s.job.members.filter (· != m)
    let s := { s with
      job := { s.job with members := members }, missing := Sp.del s.missing m
      ctxs := s.ctxs.map fun (n, x) => (n, { x with tally := x.tally.filter fun t => t.member != m }) }
    (logEvent s .memberExcluded srcModule 0 m members.length).send (.excluded m)

/-- R557. -/
def execMemberExclude (member : Nat) (s : State) : Out := .next (memberExclude s member)

/-! ## PERST_N (R430, R575, R578) -/

/-- R430: PERST_N is asserted: the PCI Express block is fenced, its BAR2 size returns to 1 TiB. -/
def perstAssert (s : State) : State :=
  if s.power.perst then s
  else
    let s := { s with power := { s.power with perst := true }, bar2Log := 40, pcie := Pcie.init }
    if s.secure.boot = 0 then s else fence s (.block 0x80) Config.perstCause

/-- R524: does the glitch filter accept a level held for so many ns? Between 50 and 150 ns it may or may not. -/
def levelAccepted (s : State) (ns : Nat) : Bool :=
  decide (150 < ns) || (decide (50 ≤ ns) && Config.glitchAccepted s.free)

/-- R524: a level on a filtered pin. -/
def filtered (s : State) (ns : Nat) (f : State → State) : State := if levelAccepted s ns then f s.draw else s.draw

/-- R430. -/
def execPerstNAssert (ns : Nat) (s : State) : Out := .next (filtered s ns perstAssert)

/-- R555, R575: PERST_N is deasserted: the link trains, and the block resumes once its fence is complete. -/
def perstDeassert (s : State) : State := unfence { s with power := { s.power with perst := false } } 0x80

/-- R575. -/
def execPerstNDeassert (s : State) : Out := .next (perstDeassert s)

end Sys2Proof.Machine
end

