-- ==== Sys2Proof/Machine/Boot.lean ====
section
/-! DEFINITION. Module reset, boot, firmware slots and the processors' watchdogs (R456 to R470, R478, R575, R578). -/
namespace Sys2Proof.Machine

/-! ## Slots and selectors (R456, R457, R459) -/

/-- The contents of a slot (true: B). -/
def Flash.slot (f : Flash) (b : Bool) : List Byte := if b then f.slotB else f.slotA

/-- Replace the contents of a slot. -/
def Flash.setSlot (f : Flash) (b : Bool) (bs : List Byte) : Flash := if b then { f with slotB := bs } else { f with slotA := bs }

/-- The largest bundle (R456): 192 MiB. -/
def bundleMax : Nat := 201326592

/-- R459: is a slot's bundle accepted? -/
def slotOk (f : Flash) (b : Bool) : Bool :=
  let bs := f.slot b
  decide (bs ≠ [] ∧ bs.length ≤ bundleMax ∧ f.fusedSvn ≤ Config.bundleSvn bs) && Config.bundleAuthentic bs

/-- R457: the valid selector with the higher sequence number. -/
def Flash.selector (f : Flash) : Option Selector :=
  match f.selA, f.selB with
  | some a, some b => if b.seq ≤ a.seq then some a else some b
  | some a, none => some a
  | none, b => b

/-- R457: write a new selector into the copy that does not hold the highest valid sequence number. -/
def Flash.writeSelector (f : Flash) (slot trial : Bool) : Flash :=
  match f.selector with
  | none => { f with selA := some { seq := 1, slot := slot, trial := trial } }
  | some x =>
    let n : Selector := { seq := x.seq + 1, slot := slot, trial := trial }
    if f.selA = some x then { f with selB := some n } else { f with selA := some n }

/-! ## Reset and power-off (R465, R507, R578) -/

/-- What survives a module reset: flash, fuses and pins; and the model's own queue, counters and outbox. A staging in
progress is lost. -/
def blank (s : State) : State :=
  { State.reset with
    pending := s.pending, free := s.free, serial := s.serial, outbox := s.outbox, flash := (stagingLost s).flash
    power := { s.power with overCap := false, safeMs := 0, millis := 0 } }

/-- R465, R578: the module reset. RESET_N is held low until boot begins. -/
def moduleReset (s : State) : State :=
  let s := blank s
  { s with power := { s.power with resetLow := true } }

/-- R466: count an expiry and log it. -/
def countExpiry (s : State) (sub processor : Nat) : State :=
  let n := Sp.get 0 s.watchdogs processor + 1
  let s := { s with watchdogs := Sp.set 0 s.watchdogs processor n }
  logEvent (s.odAdd 0x8080 sub 1) .watchdog srcProcessor processor n 0

/-- R465, R466, R547: the security core's watchdog expires: the module reset, and its record, which stands until the boot. -/
def execSecurityWatchdog (s : State) : Out := .next (if s.power.rails then countExpiry (moduleReset s) 4 130 else s)

/-- R577, R578: RESET_N is asserted; it has no effect while PG is low or during a SHUTDOWN. -/
def resetAssert (s : State) : State := if s.power.pg ∧ s.power.shutdown = .no then moduleReset s else s

/-- R578. -/
def execResetNAssert (ns : Nat) (s : State) : Out := .next (filtered s ns resetAssert)

/-! ## Boot (R458 to R460, R469, R478, R532) -/

/-- The slot a boot starts from, and whether that is a fall-back (R460). -/
def bootSlot (f : Flash) : Option (Bool × Bool) :=
  let p := (f.selector.map (·.slot)).getD false
  if slotOk f p then some (p, false) else if slotOk f (!p) then some (!p, true) else none

/-- R460: the module enters RECOVERY. -/
def enterRecovery (s : State) : State := { s with secure := { s.secure with boot := 3, trial := false } }

/-- R469: a trial boot falls back: the selector is rewritten for the former slot. -/
def trialFailed (s : State) (former : Bool) : State :=
  { s with flash := s.flash.writeSelector former false, secure := { s.secure with trial := false, stage := 4 } }

/-- R458 steps 4 and 5: the clock at its operating point where nothing holds it at 1.0 GHz (R464, R520), self-test, map,
every memory zeroed as in R399. -/
def bootTest (s : State) (fails : List (List Nat)) (bad : List Nat) : State :=
  let fs := (fails.map Fail.ofList).filter (levelFinds (s.flash.bootLevel == 1))
  let s := bad.foldl unwritable (applyFails s fs)
  let s := scrubMemories (bootMap { s with clock := if s.safeTrip ∨ s.powerDown then 1000 else opPoint s 0 })
  let s := s.odAdd 0x9030 0 1
  -- R526: a hub core that fails stops the boot
  if fs.any fun f => f.kind == 0x0D then enterRecovery s else s

/-- R460: both slots have failed: the slot tried last was the fall-back. A trial boot has fallen back too (R469). -/
def bootFails (s : State) (preferred trial : Bool) : State :=
  let s := { s with secure := { s.secure with active := !preferred, fallback := true } }
  enterRecovery (if trial then trialFailed s (!preferred) else s)

/-- R466, R504: at boot the event log is empty and no expiry is counted. -/
def clearLog (s : State) : State :=
  { s with
    watchdogs := []
    od := s.od.filter fun e => !decide (e.1 / 256 = 0x8080 ∨ e.1 / 256 = 0x8090 ∨ (0xA000 ≤ e.1 / 256 ∧ e.1 / 256 ≤ 0xAFFF)) }

/-- R458: boot, from the release of reset to the release of the processors; after a processor was not ready in time, from
step 2 on, with the other slot (R460). -/
def boot (s : State) (straps : Nat) (fails : List (List Nat)) (bad : List Nat) : State :=
  if s.secure.boot = 1 ∧ s.secure.retry then bootTest { s with secure := { s.secure with retry := false } } fails bad
  else if s.secure.boot ≠ 0 ∨ !s.power.rails ∨ !s.power.pg ∨ s.power.perst then s
  else
    let s := { clearLog s with power := { s.power with resetLow := false }, secure := { s.secure with challenge := s.free } }
    let s := s.draw.odSet 0x1005 0 (1 + straps % 64)
    let trial := (s.flash.selector.map (·.trial)).getD false
    match bootSlot s.flash with
    | none => bootFails s ((s.flash.selector.map (·.slot)).getD false) trial
    | some (slot, fell) =>
      let s := { s with secure := { s.secure with boot := 1, active := slot, fallback := fell, trial := trial && !fell } }
      bootTest (if trial && fell then trialFailed s slot else s) fails bad

/-- R458. -/
def execBoot (straps : Nat) (fails : List (List Nat)) (bad : List Nat) (s : State) : Out := .next (boot s straps fails bad)

/-- R560: the event of a boot. -/
def bootEvent (s : State) : State :=
  logEvent s .boot srcModule 0 ((if s.secure.fallback then 1 else 0) + (if s.secure.trial then 2 else 0))
    (Config.bundleVersion (s.flash.slot s.secure.active))

/-- R458 step 6, R469: the processors have reported ready. -/
def processorReady (s : State) : State :=
  if s.secure.boot ≠ 1 ∨ s.secure.retry then s
  else
    let s := bootEvent { s with secure := { s.secure with boot := 2 } }
    if s.secure.trial then
      { s with flash := s.flash.writeSelector s.secure.active false, secure := { s.secure with trial := false, stage := 2 } }
    else s

/-- R458. -/
def execProcessorReady (s : State) : Out := .next (processorReady s)

/-- R460, R469: a processor is not ready within the limit: the ROM restarts at step 2 with the other slot, which BOOT then
carries on from its self-test; RECOVERY where the other slot has failed or fails R459. -/
def bootReadyTimeout (s : State) : State :=
  if s.secure.boot ≠ 1 ∨ s.secure.retry then s
  else if s.secure.fallback then enterRecovery s
  else if !slotOk s.flash (!s.secure.active) then bootFails s s.secure.active s.secure.trial
  else
    let other := !s.secure.active
    let s := if s.secure.trial then trialFailed s other else s
    { s with secure := { s.secure with active := other, fallback := true, retry := true } }

/-- R460. -/
def execBootReadyTimeout (s : State) : Out := .next (bootReadyTimeout s)

/-! ## Watchdogs (R461 to R466) -/

/-- R462: a control core's watchdog expires. -/
def controlWatchdog (s : State) (k : Nat) : State :=
  let s := countExpiry s 1 k
  let s := if s.job.state = .owned then s.setBlock k { s.block k with expiries := (s.block k).expiries + 1 } else s
  fence s (.block k) 1

/-- The power-management core runs from step 4 of R458 on; in RECOVERY it does not (R460). -/
def State.powerCoreRuns (s : State) : Bool := s.secure.boot == 1 || s.secure.boot == 2

/-- The other watchdogs run once their processors have been released (R458). -/
def whenRunning (s : State) (f : State → State) : State := if s.secure.boot = 2 then f s else s

/-- R462. -/
def execControlCoreWatchdog (cluster : Nat) (s : State) : Out :=
  onCluster cluster s fun s => whenRunning s fun s => controlWatchdog s cluster

/-- R463. -/
def execSchedulerWatchdog (s : State) : Out := .next (whenRunning s fun s => fence (countExpiry s 2 128) (.block 0x82) 1)

/-- R463. -/
def execSchedulerResume (s : State) : Out := .next (unfence s 0x82)

/-- R463: the core has not resumed within 2 s. -/
def execSchedulerLost (s : State) : Out := .next (if s.schedDown then endJobFault s 1 else s)

/-- R464. -/
def execPowerWatchdog (s : State) : Out :=
  .next (if s.powerCoreRuns then fence (countExpiry s 3 129) (.block 0x83) 1 else s)

/-- R464, R521. -/
def execPowerCoreResume (s : State) : Out := .next (unfence s 0x83)

end Sys2Proof.Machine
end

