-- ==== Sys2Proof/Machine/MlKem.lean ====
section
/-! DEFINITION. Encapsulation of ML-KEM-768 (FIPS 203), which R499 names. PRESUMED (log 20): the standard's algorithms are not
printed in the spec. -/
namespace Sys2Proof.Machine.MlKem
open Sys2Proof.Machine.Lattice

/-- The ring of FIPS 203. -/
def ring : PolyRing := { q := 3329, root := 17, bits := 7, scale := 3303 }

/-- Product of two transforms. -/
def mul (a b : Poly) : Poly :=
  (((pieces 2 128 a).zip (pieces 2 128 b)).zipIdx).flatMap fun ((x, y), i) =>
    let x0 := x.getD 0 0
    let x1 := x.getD 1 0
    let y0 := y.getD 0 0
    let y1 := y.getD 1 0
    let g := powMod ring.q ring.root (2 * bitRev 7 i + 1)
    [(x0 * y0 + x1 * y1 % ring.q * g) % ring.q, (x0 * y1 + x1 * y0) % ring.q]

/-- SampleNTT: an element of the matrix; six blocks of SHAKE128 hold enough candidates. -/
def sampleNtt (seed : List Byte) (i j : Nat) : Poly :=
  firstOk 256 (fun d => decide (d < ring.q))
    ((triples (Keccak.shake128 (seed ++ [BitVec.ofNat 8 i, BitVec.ofNat 8 j]) 1008)).flatMap fun t => [t % 4096, t / 4096])

/-- SamplePolyCBD for η = 2: noise number n of a seed. -/
def noise (seed : List Byte) (n : Nat) : Poly :=
  (unpack 4 (Keccak.shake256 (seed ++ [BitVec.ofNat 8 n]) 128)).map fun v =>
    (v % 2 + v / 2 % 2 + ring.q - v / 4 % 2 - v / 8) % ring.q

/-- Compress to d bits. -/
def compress (d x : Nat) : Nat := (2 ^ (d + 1) * x + ring.q) / (2 * ring.q) % 2 ^ d

/-- Decompress from d bits. -/
def decompress (d y : Nat) : Nat := (2 * ring.q * y + 2 ^ d) / 2 ^ (d + 1)

/-- The polynomials of an encapsulation key. -/
def keyPolys (ek : List Byte) : List Poly := pieces 256 3 (unpack 12 (ek.take 1152))

/-- The modulus check of an encapsulation key. -/
def keyOk (ek : List Byte) : Bool := decide (ek.length = 1184) && (unpack 12 (ek.take 1152)).all fun x => decide (x < ring.q)

/-- K-PKE.Encrypt of a message of 32 bytes with the randomness r. -/
def encrypt (ek m r : List Byte) : List Byte :=
  let rho := ek.drop 1152
  let y := (List.range 3).map fun i => ring.ntt (noise r i)
  let row (i : Nat) : List Poly := (List.range 3).map fun j => sampleNtt rho i j
  let u := (List.range 3).map fun i => ring.add (ring.unntt (ring.sum (List.zipWith mul (row i) y))) (noise r (3 + i))
  let v := ring.sum [ring.unntt (ring.sum (List.zipWith mul (keyPolys ek) y)), noise r 6, (unpack 1 m).map (decompress 1)]
  (u.flatMap fun p => pack 10 (p.map (compress 10))) ++ pack 4 (v.map (compress 4))

/-- ML-KEM.Encaps with the randomness m: the shared secret and the ciphertext. -/
def encaps (ek m : List Byte) : List Byte × List Byte :=
  let g := Keccak.sha3x512 (m ++ Keccak.sha3x256 ek)
  (g.take 32, encrypt ek m (g.drop 32))

end Sys2Proof.Machine.MlKem
end

