-- ==== Sys2Proof/Machine/MemRows.lean ====
section
/-! DEFINITION. An access at a home slice, and the patrol (R17, R296, R309, R310, R312, R313, R317 to R323, R325). -/
namespace Sys2Proof.Machine

/-- The bytes that a load of n bytes of one line gives, from what its sectors delivered, and their poison. -/
def lineBytes (ds : List (List Nat × Bool)) (a n : Nat) : List Byte × Bool :=
  let all := ds.flatMap fun d => fitBytes (d.1.map (BitVec.ofNat 8)) 32
  ((all.drop (a % 256)).take n, (ds.zipIdx).any fun x => x.1.2 && rangesMeet (a % 256) n (32 * x.2) 32)

/-- Answer a load. -/
def sliceAnswer (r : State × List (List Nat × Bool)) (a n : Nat) : State :=
  let b := lineBytes r.2 a n
  r.1.send (.sliceReply b.1 b.2)

/-- R310: an access of bytes of one line reaches the memory that holds it: the home slice of a line of stack memory, an SLM
slice, or a scratchpad; that of a cell that is fenced or unmapped answers poison and discards (R17). A stack at level 3
holds it (R325), and a test of its segment (R531). The journal takes no store and reads zero (R463). -/
def homeAccess (s : State) (store : Bool) (a : Nat) (data : List Byte) (errs : List (Nat × Nat)) : State :=
  let n := data.length
  if n = 0 ∨ a / 256 ≠ (a + n - 1) / 256 then s
  else if slmBase ≤ a then
    if !(inSlm a n || inSp a n) then s
    else if (cellOfAddr a).any fun c => s.cellDown c then
      (if store then s.odAdd 0x8035 1 1
       else s.draw.send (.sliceReply ((List.range n).map fun i => Config.lostByte s.free (a + i)) true))
    else if segHeld s [(a, n)] then s
    else if store then
      if s.meetsJournal a n then s
      else ((eccLine s (a / 256) (maskLess (sectorMask a n false) (sectorMask a n true)) 3 errs).1).storeP a data false
    else if s.meetsJournal a n then s.send (.sliceReply (List.replicate n 0) false)
    else sliceAnswer (eccLine s (a / 256) (sectorMask a n false) 3 errs) a n
  else if !s.backed a n then s
  else if store then (if storeHeld s [(a, n)] then s else (sliceStoreLine s a data 3 errs).storeP a data false)
  else if loadHeld s [(a, n)] then s
  else sliceAnswer (cacheLoad s a n 3 errs) a n

/-- R310. -/
def execHomeSliceAccess (store : Bool) (addr : Nat) (data : List Byte) (errs : List (Nat × Nat)) (s : State) : Out :=
  .next (whenPowered s fun s => homeAccess s store addr data errs)

/-! ## Patrol (R323) -/

/-- A patrol read of a sector of a stack: of the channel's own word, under a cached copy too. At level 3 the stack refreshes
only (R325). -/
def patrolRead (s : State) (k a : Nat) (errs : List (Nat × Nat)) : State :=
  let a := if channelBase ≤ a then channelBase + k * 2 ^ 36 + (a - channelBase) % 2 ^ 36 else a
  match eccPlace s a with
  | some (.stack k' _ _) =>
    if k' ≠ k ∨ (Sp.get StackSt.init s.stackSts k).level = 3 then s else channelRead s a 2 errs
  | _ => s

/-- R323: a patrol read of a sector. At the end of a patrol interval the corrections of the stack's rows start from zero. -/
def patrol (s : State) (k a : Nat) (errs : List (Nat × Nat)) (wrap : Bool) : State :=
  let s := patrolRead s k a errs
  if wrap then
    { s with rowCorrections := s.rowCorrections.filter fun e =>
        !decide ((e.1 / 2 ^ 64 = 0x0A ∧ fld (e.1 / 2 ^ 48) 15 12 = k) ∨ (e.1 / 2 ^ 64 ≠ 0x0A ∧ k = 0)) }
  else s

/-- R323. -/
def execPatrolScrub (stack addr : Nat) (errs : List (Nat × Nat)) (wrap : Bool) (s : State) : Out :=
  onStack stack s fun s => patrol s stack addr errs wrap

end Sys2Proof.Machine
end

