-- ==== Sys2Proof/Machine/OdServer.lean ====
section
/-! DEFINITION. The object-dictionary server: access checks, entries with rules of their own, segmented transfers
(R311, R332, R460, R467 to R479, R482 to R490, R494, R500, R504, R533 to R535, R546). -/
namespace Sys2Proof.Machine

/-! ## Requests (R486, R494) -/

namespace OdRes
/-- R486. -/
def ok : Nat := 0x00
/-- R486. -/
def noEntry : Nat := 0x01
/-- R486. -/
def readOnly : Nat := 0x02
/-- R486. -/
def writeOnly : Nat := 0x03
/-- R486. -/
def wrongLength : Nat := 0x04
/-- R486. -/
def outOfRange : Nat := 0x05
/-- R486. -/
def jobOwned : Nat := 0x06
/-- R486. -/
def denied : Nat := 0x07
/-- R486. -/
def sequence : Nat := 0x08
/-- R486. -/
def transferBusy : Nat := 0x09
/-- R486. -/
def state : Nat := 0x0A
/-- R486. -/
def recovery : Nat := 0x0B
/-- R486. -/
def busy : Nat := 0x0C
/-- R486. -/
def malformed : Nat := 0x0D
/-- R486. -/
def poisonedData : Nat := 0x0E
end OdRes

/-- R494: the fields of a request block. -/
structure OdBlk where
  op : Nat
  index : Nat
  sub : Nat
  len : Nat
  total : Nat
  off : Nat
  deriving DecidableEq, Repr

/-- R494. -/
def OdBlk.ofWord (w : Nat) : OdBlk :=
  { op := fld w 7 0, index := fld w 31 16, sub := fld w 39 32, len := fld w 191 160, total := fld w 223 192, off := fld w 255 224 }

/-- R494: are the reserved fields of a request block zero? -/
def blockRsvOk (w : Nat) : Bool := rsvClear w [(159, 48), (15, 8)]

/-- What the server answers: the state it leaves, the result, the bytes returned, the length of a DOMAIN value, and
whether the module is reset once the answer is out (R468). -/
structure OdAns where
  st : State
  res : Nat
  data : List Byte
  total : Nat
  reset : Bool

/-- A result without data. -/
def OdAns.result (s : State) (r : Nat) : OdAns := { st := s, res := r, data := [], total := 0, reset := false }

/-- Does the operation write? -/
def OdBlk.writes (b : OdBlk) : Bool := b.op == 0x31 || b.op == 0x33

/-- The rows of the table that serve requests (R490). -/
inductive OdKind where
  | read
  | write
  | segRead
  | segWrite
  | segAbort
  | stageData
  | activate
  | svnCommit
  | nonce
  | report
  | token
  | lock
  | bistRequest
  | bistForce
  | calRequest
  | testMode
  | stackPpr
  | bistUnit
  deriving DecidableEq, Repr

/-- The entries whose writes have a row of their own. -/
def writeKind (index sub : Nat) : OdKind :=
  if sub ≠ 0 then .write
  else
    match index with
    | 0x9004 => .activate
    | 0x9006 => .svnCommit
    | 0x9011 => .nonce
    | 0x9023 => .lock
    | 0x7020 => .bistRequest
    | 0x7021 => .bistForce
    | 0x7030 => .calRequest
    | 0x7040 => .testMode
    | 0x7041 => .stackPpr
    | 0x7042 => .bistUnit
    | _ => .write

/-- The row that serves a request. -/
def OdBlk.kind (b : OdBlk) : OdKind :=
  match b.op with
  | 0x31 => writeKind b.index b.sub
  | 0x32 => if b.index = 0x9012 ∧ b.sub = 0 then .report else .segRead
  | 0x33 => if b.index = 0x9002 ∧ b.sub = 0 then .stageData else if b.index = 0x9021 ∧ b.sub = 0 then .token else .segWrite
  | 0x34 => .segAbort
  | _ => .read

/-- The row of a request's operation, whatever entry it names (R483, R487, R490). -/
def OdBlk.base (b : OdBlk) : OdKind :=
  match b.op with
  | 0x31 => .write
  | 0x32 => .segRead
  | 0x33 => .segWrite
  | 0x34 => .segAbort
  | _ => .read

/-- Does a row serve a request: the entry's own row, or that of its operation (but for BIST_UNIT, whose findings
come with its row)? -/
def OdBlk.servedBy (b : OdBlk) (k : OdKind) : Bool := b.kind == k || (b.base == k && b.kind != .bistUnit)

/-! ## Who may access what (R460, R489, R500) -/

/-- R460, R479: the entries that RECOVERY leaves. -/
def inRecovery (index : Nat) : Bool :=
  decide (0x1000 ≤ index ∧ index ≤ 0x1FFF) ||
    [0x9000, 0x9001, 0x9002, 0x9003, 0x9004, 0x9005, 0x9006, 0x9010, 0x9011, 0x9012, 0x9020, 0x9021, 0x9022, 0x9023, 0x9030].contains index

/-- R500: what an IDENTITY session may do: reads of what it may read, and a write of ATTEST_NONCE; nothing else. -/
def identityMay (b : OdBlk) : Bool :=
  let k := Od.key b.index b.sub
  let nonce := Od.key 0x9011 0
  if b.op = 0x30 ∨ b.op = 0x32 then
    decide (0x1000 ≤ b.index ∧ b.index ≤ 0x1FFF) || decide (Od.key 0x9000 0 ≤ k ∧ k ≤ Od.key 0x9005 0) || k == Od.key 0x9010 0 ||
      k == Od.key 0x9012 0
  else b.op == 0x31 && k == nonce

/-- R500: may the requester not make this access? -/
def odDenied (s : State) (w : Who) (b : OdBlk) : Bool :=
  match w with
  | .session id =>
    (b.writes && decide (Od.key 0x9040 1 ≤ Od.key b.index b.sub ∧ Od.key b.index b.sub ≤ Od.key 0x9040 8)) ||
      !(s.sessions.any fun x => x.id == id && (x.full || identityMay b))
  | _ => false

/-- R488: is it the first request of a read transfer? -/
def OdBlk.opens (b : OdBlk) : Bool := b.op == 0x32 && b.off == 0

/-- R489: the largest LENGTH of a carrier. -/
def segLimit : Who → Nat
  | .ring => 2 ^ 24
  | .mailbox => 32768
  | .session _ => 4096

/-- The bytes a write carries, and whether a sector of them is poisoned (R492). -/
def odData (s : State) (q : OdReq) (b : OdBlk) : List Byte × Bool :=
  match q.who with
  | .ring =>
    match s.cmd? q.tag with
    | some c => (s.bytes (fld c.entry 105 64) b.len, s.poisonIn (fld c.entry 105 64) b.len)
    | none => ([], false)
  | _ => (q.data, false)

/-! ## Unlocks and scrubs (R477, R533, R534, R546) -/

/-- A scrub outside a job: a job open that has been taken meets the lock and is denied. -/
def startScrub (s : State) : State :=
  if s.job.state = .scrubbing then s
  else
    let s := match s.job.openCmd with
      | some id => complete s id St.denied Details.zero
      | none => s
    { s with job := { Job.none with state := .scrubbing } }

/-- R477, R546: the unlock ends; a full scrub follows one that went beyond BOUNDARY. -/
def endUnlock (s : State) : State :=
  let beyond := 2 ≤ s.secure.scope
  let s := { s with secure := { s.secure with scope := 0 } }.odSet 0x7040 0 0
  if beyond then startScrub s else s

/-- R533, R534: a requested test of a level; the scrub follows it. -/
def startTest (s : State) (level : Nat) : State :=
  ({ startScrub s with testLevel := some level }).odSet 0x7022 0 1

/-- R477: DEBUG_CHALLENGE changes. -/
def newChallenge (s : State) : State := { s with secure := { s.secure with challenge := s.free } }.draw

/-- R476, R477: is a token correct? -/
def tokenOk (s : State) (bs : List Byte) : Bool :=
  let h := bs.take 128
  let w := leNat h
  let scope := fld w 703 672
  decide (bs.length = 3456 ∧ fld w 31 0 = 0x54445242 ∧ fld w 47 32 = 1 ∧ fld w 639 48 = 0 ∧ scope < 32) &&
    decide (1 ≤ fld w 671 640 ∧ fld w 671 640 ≤ 86400 ∧ fld w 767 704 = Config.serial % 2 ^ 64 ∧ fld w 1023 768 = debugChallenge s) &&
    MlDsa.verify Config.debugKey (Keccak.shake256 h 64) ((bs.drop 128).take 3309) &&
    (scope == 1 || s.job.state == .idle) && decide (s.secure.refusals < 16)

/-- R475 to R477: a whole token has been written: the result and the state. -/
def useToken (s : State) (bs : List Byte) : Nat × State :=
  let w := leNat (bs.take 128)
  if tokenOk s bs then
    let s := newChallenge { s with secure := { s.secure with scope := s.secure.scope ||| fld w 703 672 } }
    (OdRes.ok, logEvent s .debugUnlock srcModule 0 (fld w 703 672) (fld w 671 640))
  else (OdRes.state, newChallenge { s with secure := { s.secure with refusals := s.secure.refusals + 1 } })

/-! ## Entries with rules of their own -/

/-- R332: a write of PORT_ENABLE. -/
def portEnable (s : State) (p v : Nat) : State :=
  if v = 0 then portDown s p .disabled
  else s.updPort p fun q => if q.state = .disabled then { q with state := .training } else q

/-- R535: calibration outside the slots. -/
def calRequest (s : State) (v : Nat) : State :=
  if v = 1 then calibrateAll s else { s with pllCal := List.range 128 }

/-- R468: the selector that activates the staged slot. -/
def activate (s : State) : State := { s with flash := s.flash.writeSelector (!s.secure.active) true }

/-- The SVN of the active bundle. -/
def activeSvn (s : State) : Nat := Config.bundleSvn (s.flash.slot s.secure.active)

/-- R470: burn the fuses; an inactive slot that is now too old reads REJECTED. -/
def svnCommit (s : State) : State :=
  let n := min 128 (activeSvn s)
  let other := s.flash.slot (!s.secure.active)
  let s := { s with flash := { s.flash with fusedSvn := n } }
  if other ≠ [] ∧ Config.bundleSvn other < n then { s with secure := { s.secure with stage := 3 } } else s

/-- R470: may the fuses be burnt? -/
def svnMay (s : State) : Bool := decide (s.secure.boot = 2 ∧ s.secure.trial = false ∧ s.flash.fusedSvn < min 128 (activeSvn s))

/-- R473: keep a requester's nonce. -/
def setNonce (s : State) (w : Who) (v : Nat) : State :=
  { s with secure := { s.secure with nonces := (w, v) :: s.secure.nonces.filter fun n => n.1 != w } }

/-- R541, R546: the key of the PPR row that a STACK_PPR names. -/
def pprKey (v : Nat) : Nat := (fld v 47 43 * 128 + fld v 42 36) * 16 + fld v 35 32

/-- R541, R546: a write of STACK_PPR: result and state. -/
def stackPpr (s : State) (v : Nat) : Nat × State :=
  if s.odGet 0x7040 0 ≠ 1 ∨ s.flash.ppr.contains (pprKey v) then (OdRes.state, s)
  else if 12 ≤ fld v 47 43 then (OdRes.outOfRange, s)
  else (OdRes.ok, usePpr s (pprKey v) (fld v 31 0))

/-- R526, R543, R546: a write of BIST_UNIT: what the unit's test finds is recorded and listed for the next map
rebuild. -/
def bistUnit (s : State) (v : Nat) (fs : List Fail) : Nat × State :=
  let kind := fld v 31 24
  if s.odGet 0x7040 0 ≠ 1 then (OdRes.state, s)
  else if kind = 0 ∨ 0x0D < kind then (OdRes.outOfRange, s)
  else
    let mine := fs.filter fun f => f.real && f.kind == kind && f.unit == fld v 15 0
    let s := mine.foldl (fun s f => listRepair s f (testOf f) true) s
    (OdRes.ok, if kind = 0x0C ∧ mine ≠ [] ∧ fld v 15 0 < 48 then portFail s (fld v 15 0) ((mine.head?.map (·.bank)).getD 0) else s)

/-- A write of a legal value to a non-DOMAIN entry: its result, and the state it leaves. -/
def odApply (s : State) (w : Who) (index sub v : Nat) (fs : List Fail) : Nat × State :=
  let set := s.odSet index sub v
  match index with
  | 0x3010 => if ringsClear set then (OdRes.ok, set) else (OdRes.state, s)
  | 0x4011 => (OdRes.ok, portEnable set (sub - 1) v)
  | 0x7003 => (OdRes.ok, { s with flash := { s.flash with bootLevel := v } })
  | 0x7020 => (OdRes.ok, startTest set v)
  | 0x7021 => (OdRes.ok, startTest (endJobFault set 3) v)
  | 0x7030 => (OdRes.ok, calRequest set v)
  | 0x7040 => if v = 1 ∧ (s.job.state ≠ .idle ∨ !bit s.secure.scope 4) then (OdRes.state, s) else (OdRes.ok, set)
  | 0x7041 => stackPpr s v
  | 0x7042 => bistUnit s v fs
  | 0x8090 => if s.odGet 0x8090 0 < v then (OdRes.outOfRange, s) else (OdRes.ok, set)
  | 0x9004 => if v = 0 then (OdRes.ok, set) else if s.secure.stage = 2 then (OdRes.ok, activate set) else (OdRes.state, s)
  | 0x9006 => if v = 0 then (OdRes.ok, set) else if svnMay s then (OdRes.ok, svnCommit set) else (OdRes.state, s)
  | 0x9011 => (OdRes.ok, setNonce s w v)
  | 0x9023 => (OdRes.ok, if v = 1 then endUnlock s else s)
  | _ => (OdRes.ok, set)

/-- R482, R483: WRITE of an entry. -/
def odWrite (s : State) (w : Who) (b : OdBlk) (e : OdEntry) (data : List Byte) (fs : List Fail) : OdAns :=
  let v := leNat data
  if e.right = .ro ∨ e.right = .const then .result s OdRes.readOnly
  else if e.ty = .domain ∨ (e.ty ≠ .vstr ∧ data.length ≠ e.ty.size) ∨ 255 < data.length then .result s OdRes.wrongLength
  else if e.right = .rwi ∧ s.job.state ≠ .idle then .result s OdRes.jobOwned
  else if !e.admits v then .result s OdRes.outOfRange
  else
    let r := odApply s w b.index b.sub v fs
    { OdAns.result r.2 r.1 with reset := decide (b.index = 0x9004 ∧ v = 1 ∧ r.1 = OdRes.ok) }

/-- R482, R494: READ of an entry. -/
def odRead (s : State) (b : OdBlk) (e : OdEntry) : OdAns :=
  if e.right = .wo then .result s OdRes.writeOnly
  else if e.ty = .domain then .result s OdRes.wrongLength
  else
    let v := odBytes s e b.index b.sub
    if b.len < v.length then .result s OdRes.wrongLength
    else { OdAns.result s OdRes.ok with data := v }

/-! ## DOMAIN values (R472, R474) -/

/-- R472: the identity certificate. -/
def identityCert : List Byte :=
  let header := leBytes 64 (0x43495242 + 2 ^ 32 + Config.serial % 2 ^ 64 * 2 ^ 192 + Config.issuerKeyId % 2 ^ 256 * 2 ^ 256)
  let signed := header ++ identityKey
  fitBytes (signed ++ fitBytes (Config.issuerSign (leNat (Keccak.shake256 signed 64))) 3309) 5376

/-- R473: a requester's nonce, zero where none was written. -/
def nonceOf (s : State) (w : Who) : Nat := ((s.secure.nonces.find? fun n => n.1 == w).map (·.2)).getD 0

/-- R474: the header of a report. -/
def reportHeader (s : State) (w : Who) : List Byte :=
  let bundle := s.flash.slot s.secure.active
  leBytes 256 (0x54415242 + 2 ^ 32 + (if s.secure.active then 2 ^ 648 else 0) +
    ((if s.secure.fallback then 1 else 0) + (if s.secure.trial then 2 else 0)) * 2 ^ 656 + s.job.state.code * 2 ^ 664 +
    s.moduleId % 2 ^ 18 * 2 ^ 686 + s.secure.scope % 2 ^ 32 * 2 ^ 704 + Config.bundleVersion bundle % 2 ^ 32 * 2 ^ 736 +
    s.flash.fusedSvn % 2 ^ 32 * 2 ^ 768 + Config.bundleSvn bundle % 2 ^ 32 * 2 ^ 800 + s.odGet 0x9030 0 % 2 ^ 64 * 2 ^ 832 +
    s.stitch.count % 2 ^ 64 * 2 ^ 896 + Config.serial % 2 ^ 64 * 2 ^ 960 + keyId % 2 ^ 256 * 2 ^ 1024 +
    Config.bundleDigest bundle % 2 ^ 512 * 2 ^ 1280 + nonceOf s w % 2 ^ 256 * 2 ^ 1792)

/-- R474: an attestation report. -/
def attestReport (s : State) (w : Who) : List Byte :=
  let h := reportHeader s w
  fitBytes (h ++ identitySignature h) 3584

/-- R50 per context: a count of each of the 1,024 contexts, 8 bytes each (log 123). -/
def ctxCounts (s : State) (f : Ctx → Nat) : List Byte :=
  (List.range 1024).flatMap fun c => leBytes 8 (((s.ctx? c).map f).getD 0)

/-- The value of a readable DOMAIN entry. -/
def domainValue (s : State) (w : Who) (index : Nat) : List Byte :=
  match index with
  | 0x8010 => ctxCounts s Ctx.runOns
  | 0x8011 => ctxCounts s Ctx.aborts
  | 0x9012 => attestReport s w
  | _ => identityCert

/-! ## Segmented transfers (R487, R488) -/

/-- Is a transfer the one of a requester on an entry? -/
def Transfer.is (t : Transfer) (w : Who) (b : OdBlk) : Bool := t.who == w && t.index == b.index && t.sub == b.sub

/-- End a requester's transfer of an entry. -/
def dropTransfer (s : State) (w : Who) (b : OdBlk) : State := { s with transfers := s.transfers.filter fun t => !t.is w b }

/-- Replace a requester's transfer of an entry. -/
def putTransfer (s : State) (t : Transfer) (w : Who) (b : OdBlk) : State :=
  let s := dropTransfer s w b
  { s with transfers := s.transfers ++ [t] }

/-- R487, R488: a segment of a value is read. -/
def serveSegment (s : State) (t : Transfer) (w : Who) (b : OdBlk) : OdAns :=
  let bs := (t.data.drop t.moved).take b.len
  let t := { t with moved := t.moved + bs.length }
  let s := if t.data.length ≤ t.moved then dropTransfer s w b else putTransfer s t w b
  { st := s, res := OdRes.ok, data := bs, total := t.data.length, reset := false }

/-- R487, R488: SEG_READ. -/
def odSegRead (s : State) (w : Who) (b : OdBlk) (e : OdEntry) : OdAns :=
  if e.right = .wo then .result s OdRes.writeOnly
  else if e.ty ≠ .domain then .result s OdRes.wrongLength
  else if b.off = 0 then
    serveSegment s { who := w, write := false, index := b.index, sub := b.sub, total := b.total, moved := 0, data := domainValue s w b.index } w b
  else
    match s.transfers.find? fun t => t.is w b with
    | some t => if t.moved = b.off ∧ (b.total = t.total ∨ b.total = t.data.length) then serveSegment s t w b else .result s OdRes.sequence
    | none => .result s OdRes.sequence

/-- R467: the inactive slot is erased. -/
def stageBegin (s : State) : State :=
  { s with flash := s.flash.setSlot (!s.secure.active) [], secure := { s.secure with stage := 1 } }

/-- R459, R467: the last segment is programmed, and the slot verified. -/
def stageEnd (s : State) (bs : List Byte) : State :=
  let s := { s with flash := s.flash.setSlot (!s.secure.active) bs }
  { s with secure := { s.secure with stage := if slotOk s.flash (!s.secure.active) then 2 else 3 } }

/-- R467, R476: a value has been written whole. -/
def domainWritten (s : State) (b : OdBlk) (bs : List Byte) : OdAns :=
  if b.index = 0x9002 then .result (stageEnd s bs) OdRes.ok
  else
    let r := useToken s bs
    .result r.2 r.1

/-- R487: a segment of a write transfer arrives. -/
def takeSegment (s : State) (t : Transfer) (w : Who) (b : OdBlk) (data : List Byte) : OdAns :=
  if t.total < t.moved + data.length then .result s OdRes.wrongLength
  else
    let s := if b.index = 0x9002 ∧ t.moved = 0 then stageBegin s else s
    let t := { t with moved := t.moved + data.length, data := t.data ++ data }
    if t.moved = t.total then domainWritten (dropTransfer s w b) b t.data
    else .result (putTransfer s t w b) OdRes.ok

/-- R487, R488: SEG_WRITE. -/
def odSegWrite (s : State) (w : Who) (b : OdBlk) (e : OdEntry) (data : List Byte) : OdAns :=
  if e.right = .ro ∨ e.right = .const then .result s OdRes.readOnly
  else if e.ty ≠ .domain ∨ data.length ≠ b.len then .result s OdRes.wrongLength
  else
    match s.transfers.find? fun t => t.is w b with
    | some t =>
      if t.moved = b.off ∧ t.total = b.total then takeSegment s t w b data
      else if b.off = 0 then .result s OdRes.transferBusy
      else .result s OdRes.sequence
    | none =>
      if b.off ≠ 0 then .result s OdRes.sequence
      else if s.transfers.any fun t => t.index == b.index && t.sub == b.sub then .result s OdRes.transferBusy
      else if b.index = 0x9002 ∧ bundleMax < b.total then .result s OdRes.wrongLength
      else takeSegment s { who := w, write := true, index := b.index, sub := b.sub, total := b.total, moved := 0, data := [] } w b data

/-- R487, R488: a transfer ends without its last segment. -/
def transferEnds (s : State) (t : Transfer) : State :=
  let s := { s with transfers := s.transfers.erase t }
  if t.index = 0x9002 then stagingLost s else s

/-- R487: SEG_ABORT. -/
def odSegAbort (s : State) (w : Who) (b : OdBlk) (e : OdEntry) : OdAns :=
  if e.ty ≠ .domain then .result s OdRes.wrongLength
  else
    match s.transfers.find? fun t => t.is w b with
    | some t => .result (transferEnds s t) OdRes.ok
    | none => .result s OdRes.sequence

/-! ## An access (R485) -/

/-- What stops an access before its entry is looked at. -/
def odStops (q : OdReq) (b : OdBlk) (data : List Byte) (poison : Bool) : Option Nat :=
  match q.refused with
  | some r => some r
  | none =>
    if b.op ≠ 0x34 ∧ segLimit q.who < b.len then some OdRes.wrongLength
    else if b.writes ∧ data.length ≠ b.len then some OdRes.wrongLength
    else if b.writes ∧ poison then some OdRes.poisonedData
    else none

/-- R490: the operation of an access on its entry. -/
def odRun (s : State) (q : OdReq) (b : OdBlk) (e : OdEntry) (data : List Byte) (fs : List Fail) : OdAns :=
  match b.op with
  | 0x30 => odRead s b e
  | 0x31 => odWrite s q.who b e data fs
  | 0x32 => odSegRead s q.who b e
  | 0x33 => odSegWrite s q.who b e data
  | 0x34 => odSegAbort s q.who b e
  | _ => .result s OdRes.wrongLength

/-- R486, R490: one access. -/
def odAccess (s : State) (q : OdReq) (b : OdBlk) (fs : List Fail) : OdAns :=
  let d := odData s q b
  match odStops q b d.1 d.2, Od.entry? b.index b.sub with
  | some r, _ => .result s r
  | none, e? =>
    if odDenied s q.who b then .result s OdRes.denied
    else
      match e? with
      | none => .result s OdRes.noEntry
      | some e => if s.secure.boot = 3 ∧ !inRecovery b.index then .result s OdRes.recovery else odRun s q b e d.1 fs

end Sys2Proof.Machine
end

