-- ==== Sys2Proof/Machine/OdRows.lean ====
section
/-! DEFINITION. The commands of the object-dictionary server: its answers on the ring, the mailbox and the field network,
and the mailbox doorbell (R485, R487, R492 to R495, R498). -/
namespace Sys2Proof.Machine

/-! ## Frames (R498, R499) -/

/-- R498: a frame header. -/
def frameHeader (seq sid len result kind : Nat) : List Byte :=
  leBytes 32 (0x504A + 2 ^ 16 + kind * 2 ^ 24 + result * 2 ^ 32 + len % 2 ^ 32 * 2 ^ 128 + sid % 2 ^ 32 * 2 ^ 160 + seq % 2 ^ 64 * 2 ^ 192)

/-- R499: the customisation of the TAG. -/
def tagCustom : List Byte := "JAOLPEN TAG".toList.map fun c => BitVec.ofNat 8 c.toNat

/-- R498, R499: a frame with its TAG. -/
def taggedFrame (key header payload : List Byte) : List Byte :=
  header ++ payload ++ Keccak.kmac256 key (header ++ payload) 32 tagCustom

/-! ## Answers -/

/-- R492: the completion status of a result. -/
def odStatus (r : Nat) : Nat :=
  if r = OdRes.ok then St.ok
  else if r = OdRes.jobOwned ∨ r = OdRes.transferBusy ∨ r = OdRes.busy then St.busy
  else if r = OdRes.denied then St.denied
  else St.badDescriptor

/-- R492: the answer on the ring: the bytes returned at DATA_ADDR, and the completion record. DESIGN CHOICE (log 94): the
length of the value, which the answer to the first SEG_READ gives (R488), stands in DETAIL2. -/
def answerRing (s : State) (id res total : Nat) (data : List Byte) : State :=
  match s.cmd? id with
  | none => s
  | some c =>
    let s := if data = [] then s else s.storeP (fld c.entry 105 64) data false
    complete s id (odStatus res) { Details.zero with d0 := res, d1 := data.length, d2 := total }

/-- R494: a request block as the answer carries it. -/
def answeredBlock (word res total : Nat) (b : OdBlk) : Nat :=
  setFld (if b.opens ∧ res = OdRes.ok then setFld word 223 192 total else word) 47 40 res

/-- R495: the answer in the mailbox. -/
def answerMailbox (s : State) (tag block res : Nat) (data : List Byte) : State :=
  { s with mailbox := { request := block, data := data ++ s.mailbox.data.drop data.length, busy := false, tag := tag, result := res, length := data.length } }

/-- R498, R501: a RESPONSE, kept as the session's last one. -/
def answerSession (s : State) (id seq block : Nat) (data : List Byte) : State :=
  match s.sessions.find? fun x => x.id == id with
  | none => s
  | some x =>
    let payload := leBytes 32 block ++ data
    let frame := taggedFrame x.kdm (frameHeader seq id payload.length 0 0x11) payload
    let s := s.send (.datagram frame)
    { s with sessions := updFirst (fun y => y.id == id) (fun y => { y with last := frame }) s.sessions }

/-- R494: MB_STATUS. -/
def mbStatus (m : Mailbox) : Nat := (if m.busy then 1 else 0) + m.tag % 256 * 2 ^ 8 + m.result * 2 ^ 16 + m.length * 2 ^ 32

/-- The answer to a request. -/
def odAnswer (q : OdReq) (b : OdBlk) (a : OdAns) : State :=
  let block := answeredBlock q.block a.res a.total b
  match q.who with
  | .ring => answerRing a.st q.tag a.res (if b.opens then a.total else 0) a.data
  | .mailbox => answerMailbox a.st q.tag block a.res a.data
  | .session id => answerSession a.st id q.tag block a.data

/-! ## Serving (R485) -/

/-- May the server take a request: not before the end of boot or in it, and not while its block is fenced (R548)? -/
def serverUp (s : State) : Bool := decide (2 ≤ s.secure.boot) && !(s.block 0x84).fenced

/-- R485: the server takes the oldest request, if this row serves it. -/
def odServe (s : State) (k : OdKind) (fs : List Fail) : State :=
  match s.odQueue with
  | [] => s
  | q :: rest =>
    let b := OdBlk.ofWord q.block
    if !serverUp s || !b.servedBy k then s
    else
      let a := odAccess { s with odQueue := rest } q b fs
      let s := odAnswer q b a
      if a.reset then moduleReset s else s

/-- R490. -/
def execOdRead (s : State) : Out := .next (odServe s .read [])

/-- R483. -/
def execOdWrite (s : State) : Out := .next (odServe s .write [])

/-- R487. -/
def execOdSegRead (s : State) : Out := .next (odServe s .segRead [])

/-- R487. -/
def execOdSegWrite (s : State) : Out := .next (odServe s .segWrite [])

/-- R487. -/
def execOdSegAbort (s : State) : Out := .next (odServe s .segAbort [])

/-- R467. -/
def execFwStageData (s : State) : Out := .next (odServe s .stageData [])

/-- R468. -/
def execFwActivate (s : State) : Out := .next (odServe s .activate [])

/-- R470. -/
def execSvnCommit (s : State) : Out := .next (odServe s .svnCommit [])

/-- R473. -/
def execAttestNonce (s : State) : Out := .next (odServe s .nonce [])

/-- R474. -/
def execAttestReport (s : State) : Out := .next (odServe s .report [])

/-- R477. -/
def execDebugToken (s : State) : Out := .next (odServe s .token [])

/-- R477. -/
def execDebugLock (s : State) : Out := .next (odServe s .lock [])

/-- R533. -/
def execBistRequest (s : State) : Out := .next (odServe s .bistRequest [])

/-- R533. -/
def execBistForce (s : State) : Out := .next (odServe s .bistForce [])

/-- R535. -/
def execCalRequest (s : State) : Out := .next (odServe s .calRequest [])

/-- R546. -/
def execTestMode (s : State) : Out := .next (odServe s .testMode [])

/-- R546. -/
def execStackPpr (s : State) : Out := .next (odServe s .stackPpr [])

/-- R546. -/
def execBistUnit (fails : List (List Nat)) (s : State) : Out := .next (odServe s .bistUnit (fails.map Fail.ofList))

/-- R477: LIFETIME_S has elapsed. -/
def execDebugUnlockExpiry (s : State) : Out := .next (if s.secure.scope = 0 then s else endUnlock s)

/-- R487: 10 s without a segment. -/
def segTimeout (s : State) (n : Nat) : State :=
  match s.transfers[n]? with
  | some t => transferEnds s t
  | none => s

/-- R487. -/
def execSegTransferTimeout (n : Nat) (s : State) : Out := .next (segTimeout s n)

/-! ## The mailbox (R493 to R495) -/

/-- R430, R493: can the mailbox be reached and served? -/
def mailboxUp (s : State) : Bool := serverUp s && s.pcieUp && !s.pcie.d3hot

/-- R493, R495: a write of MB_REQUEST; RESULT is RO, and a write while BUSY is 1 is ignored. -/
def mbRequestWrite (s : State) (v : Nat) : State :=
  if !mailboxUp s ∨ s.mailbox.busy then s
  else { s with mailbox := { s.mailbox with request := setFld (v % 2 ^ 256) 47 40 (fld s.mailbox.request 47 40) } }

/-- R493, R495: a write of MB_DATA from a byte on; a write while BUSY is 1 is ignored. -/
def mbDataWrite (s : State) (o : Nat) (data : List Byte) : State :=
  if !mailboxUp s ∨ s.mailbox.busy then s
  else
    let mem := fitBytes s.mailbox.data 32768
    { s with mailbox := { s.mailbox with data := (mem.take o ++ data ++ mem.drop (o + data.length)).take 32768 } }

/-- R494, R495: a doorbell starts the request that MB_REQUEST holds, with RESULT 0. -/
def mbStart (s : State) (tag : Nat) : State :=
  if !mailboxUp s ∨ s.mailbox.busy then s
  else
    let block := setFld s.mailbox.request 47 40 0
    let b := OdBlk.ofWord block
    let refused := if blockRsvOk block then none else some OdRes.malformed
    { s with
      mailbox := { s.mailbox with request := block, busy := true }
      odQueue := s.odQueue ++
        [{ who := .mailbox, tag := tag % 256, block := block, data := (fitBytes s.mailbox.data 32768).take b.len, refused := refused }] }

/-- R494, R495: the doorbell, with what was written to MB_REQUEST and MB_DATA before it. -/
def mbDoorbell (s : State) (tag request : Nat) (data : List Byte) : State :=
  mbStart (mbDataWrite (mbRequestWrite s request) 0 data) tag

/-- R495. -/
def execMbDoorbell (tag request : Nat) (data : List Byte) (s : State) : Out := .next (mbDoorbell s tag request data)

end Sys2Proof.Machine
end

