-- ==== Sys2Proof/Machine/Field.lean ====
section
/-! DEFINITION. The field network: Jaolpen sessions, neighbour solicitations, echo requests, PLCA (R496 to R501). -/
namespace Sys2Proof.Machine

/-- Does the module answer on the field network: not in boot (R465), not while the block is fenced (R548)? -/
def fieldUp (s : State) : Bool := decide (2 ≤ s.secure.boot) && !(s.block 0x85).fenced

/-! ## Frames (R498) -/

/-- R498: a received frame: header, its fields, payload and TAG. -/
structure Frame where
  header : List Byte
  seq : Nat
  sid : Nat
  kind : Nat
  payload : List Byte
  tag : List Byte
  deriving DecidableEq, Repr

/-- R497, R498: read a frame of a kind with a TAG of so many bytes: none where it breaks the layout. -/
def Frame.read (bs : List Byte) (kind tagBytes : Nat) : Option Frame :=
  let h := bs.take 32
  let w := leNat h
  let n := fld w 159 128
  if bs.length = 32 + n + tagBytes ∧ bs.length ≤ 8192 ∧ fld w 15 0 = 0x504A ∧ fld w 23 16 = 1 ∧ fld w 31 24 = kind ∧
      fld w 127 32 = 0 then
    some { header := h, seq := fld w 255 192, sid := fld w 191 160, kind := kind, payload := (bs.drop 32).take n, tag := bs.drop (32 + n) }
  else none

/-! ## OPEN (R499 to R501) -/

/-- R500: the scope of an OPEN: none where it gets no reply. DESIGN CHOICE (log 20): an encapsulation key that fails the check of
FIPS 203, under which it is not to be used, gets none. -/
def openScope (s : State) (f : Frame) : Option Bool :=
  let p := f.payload
  if p.length < 1248 ∨ leNat ((p.drop 1217).take 31) ≠ 0 ∨ MlKem.keyOk ((p.drop 32).take 1184) = false then none
  else
    match (p.getD 1216 0).toNat with
    | 0 => if p.length = 1248 then some false else none
    | 1 =>
      let key := (p.drop 1248).take 1952
      let digest := leNat (Keccak.shake256 key 32)
      if p.length = 6509 ∧ MlDsa.verify key (Keccak.shake256 (f.header ++ p.take 3200) 64) (p.drop 3200) ∧ digest ≠ 0 ∧
          ((List.range 8).any fun i => s.odGet 0x9040 (i + 1) == digest) then some true
      else none
    | _ => none

/-- R498: a SESSION_ID that no session has. -/
def freshSession (s : State) : Nat :=
  let used (x : Nat) : Bool := s.sessions.any fun y => y.id == x
  (((List.range 6).map fun k => (Config.sessionId s.free + k) % 2 ^ 32).find? fun x => decide (x ≠ 0) && !used x).getD 1

/-- R499: a session key. -/
def sessionKey (k nm nd : List Byte) (sid : Nat) (custom : String) : List Byte :=
  Keccak.kmac256 k (nm ++ nd ++ leBytes 4 sid) 32 (custom.toList.map fun c => BitVec.ofNat 8 c.toNat)

/-- R499: the ACCEPT of an OPEN, and the session. -/
def acceptOpen (s : State) (bs : List Byte) (f : Frame) (full : Bool) : State :=
  let nm := f.payload.take 32
  let ek := (f.payload.drop 32).take 1184
  let nd := leBytes 32 (Config.randomWord s.free)
  let e := MlKem.encaps ek (leBytes 32 (Config.kemRandom s.free))
  let sid := freshSession s
  let header := frameHeader f.seq sid 4429 0 0x02
  let body := nd ++ fitBytes e.2 1088
  let x : Session := { id := sid, full := full, kmd := sessionKey e.1 nm nd sid "JAOLPEN M2D",
                       kdm := sessionKey e.1 nm nd sid "JAOLPEN D2M", lastSeq := 0, last := [] }
  let s := s.draw.send (.datagram (header ++ body ++ identitySignature (bs ++ header ++ body)))
  { s with sessions := s.sessions ++ [x] }

/-- R501: the answer to an OPEN beyond four sessions. -/
def refuseOpen (s : State) (f : Frame) : State :=
  s.draw.send (.datagram (frameHeader f.seq 0 0 OdRes.busy 0x7F ++ fitBytes (Config.errorTag s.free) 32))

/-- R499 to R501: an OPEN. -/
def jaolpenOpen (s : State) (bs : List Byte) : State :=
  if !fieldUp s then s
  else
    match (Frame.read bs 0x01 0).filter fun f => f.sid == 0 with
    | none => s
    | some f =>
      match openScope s f with
      | none => s
      | some full =>
        let s := s.odAdd 0x8082 1 1
        if 4 ≤ s.sessions.length then refuseOpen s f else acceptOpen s bs f full

/-- R499. -/
def execJaolpenOpen (frame : List Byte) (s : State) : Out := .next (jaolpenOpen s frame)

/-! ## Tagged frames (R501) -/

/-- R501: the session of a tagged frame: none where the TAG fails or the session is unknown. -/
def frameSession (s : State) (f : Frame) : Option Session :=
  (s.sessions.find? fun x => x.id == f.sid).filter fun x => f.tag == Keccak.kmac256 x.kmd (f.header ++ f.payload) 32 tagCustom

/-- R487, R501: a session ends: its accesses, transfers and nonce with it. -/
def endSession (s : State) (id : Nat) : State :=
  let s := (s.transfers.filter fun t => t.who == .session id).foldl transferEnds s
  { s with
    sessions := s.sessions.filter fun x => x.id != id
    odQueue := s.odQueue.filter fun r => r.who != .session id
    secure := { s.secure with nonces := s.secure.nonces.filter fun n => n.1 != .session id } }

/-- R501: a new number of a session: accepted, and no response yet. -/
def acceptSeq (s : State) (id seq : Nat) : State :=
  { s with sessions := updFirst (fun y => y.id == id) (fun y => { y with lastSeq := seq, last := [] }) s.sessions }

/-- R494, R501: a new REQUEST joins the server's queue. -/
def queueRequest (s : State) (x : Session) (f : Frame) : State :=
  let word := leNat (f.payload.take 32)
  let data := f.payload.drop 32
  let refused := if f.payload.length < 32 ∨ !blockRsvOk word then some OdRes.malformed else none
  let s := acceptSeq s x.id f.seq
  { s with odQueue := s.odQueue ++ [{ who := .session x.id, tag := f.seq, block := setFld word 47 40 0, data := data, refused := refused }] }

/-- R501: a tagged REQUEST arrives. -/
def jaolpenRequest (s : State) (bs : List Byte) : State :=
  if !fieldUp s then s
  else
    match Frame.read bs 0x10 32 with
    | none => s
    | some f =>
      match frameSession s f with
      | none => s.odAdd 0x8082 2 1
      | some x =>
        if f.seq < x.lastSeq then s.odAdd 0x8082 3 1
        else
          let s := s.odAdd 0x8082 1 1
          if x.lastSeq < f.seq then queueRequest s x f
          else if x.last = [] then s
          else s.send (.datagram x.last)

/-- R501. -/
def execJaolpenRequest (frame : List Byte) (s : State) : Out := .next (jaolpenRequest s frame)

/-- R501: a tagged CLOSE arrives. -/
def jaolpenClose (s : State) (bs : List Byte) : State :=
  if !fieldUp s then s
  else
    match Frame.read bs 0x03 32 with
    | none => s
    | some f =>
      match frameSession s f with
      | none => s.odAdd 0x8082 2 1
      | some x =>
        if f.seq ≤ x.lastSeq then s.odAdd 0x8082 3 1
        else
          let s := endSession (s.odAdd 0x8082 1 1) x.id
          s.send (.datagram (taggedFrame x.kdm (frameHeader f.seq x.id 0 0 0x04) []))

/-- R501. -/
def execJaolpenClose (frame : List Byte) (s : State) : Out := .next (jaolpenClose s frame)

/-- R501: SESSION_IDLE_S seconds without a valid frame. -/
def execSessionIdleTimeout (id : Nat) (s : State) : Out :=
  .next (if s.sessions.any fun x => x.id == id then endSession s id else s)

/-! ## The rest of the network (R496, R497) -/

/-- R497. The row is a solicitation whose target is the module's own address (log 143). -/
def execNeighborSolicitation (s : State) : Out :=
  .next (if fieldUp s then s.send (.neighborAdvert linkLocalAddress macAddress) else s)

/-- R497. -/
def execEchoRequest (data : List Byte) (s : State) : Out := .next (if fieldUp s then s.send (.echoReply data) else s)

/-- R496. -/
def execPlcaBeaconTimeout (s : State) : Out := .next (if s.power.rails then s.odSet 0x1008 0 0 else s)

/-- R496. -/
def execPlcaBeaconReceived (s : State) : Out := .next (if s.power.rails then s.odSet 0x1008 0 1 else s)

end Sys2Proof.Machine
end

