-- ==== Sys2Proof/Machine/InService.lean ====
section
/-! DEFINITION. In-service test: slices of a physical cell's cycle (R528 to R531, R536 to R539). -/
namespace Sys2Proof.Machine

/-- R528, R529: the memory a slice of the cycle tests, by its kind of R526; 1 for logic. -/
def sliceKind (n : Nat) : Nat := if n < 16 then 1 else if n < 64 then 2 else if n < 72 then 3 else if n < 76 then 4 else 5

/-- R537: is a mapped cell left free by the edge: no job, or no assignment of the entry in force that names it, whoever the
cell is lent to, and no fill that took it? -/
def leftFree (s : State) (c : Nat) : Bool :=
  s.job.state == .idle ||
    (s.job.state == .owned && (givenTo s c).isNone &&
      !((entryNow s).any fun e => e.2.any fun a => bit (cellsetMask s (asSet a)) c))

/-- R536: may a mapped cell start a slice with so many Harness cycles left before the edge? -/
def mappedMay (s : State) (c remain : Nat) : Bool :=
  let us := s.odGet 0x7002 0
  decide (s.odGet 0x7004 0 = 1 ∧ us * 1800 ≤ remain) && (s.cell c).piece.isNone && (s.cell c).claim.isNone &&
    (leftFree s c || (s.job.state == .owned && decide (us * s.job.budgetMHz ≤ (s.cell c).slack)))

/-- R536, R537: may a physical cell start a slice? -/
def sliceMay (s : State) (k p remain : Nat) : Bool :=
  decide (p < 66 ∧ s.secure.boot = 2) && (s.physCell k p).test.isNone &&
    match cellServed s k p with
    | some c => s.cellDown c || mappedMay s c remain
    | none => true

/-- R536 to R539: a slice starts: the next of the cycle, or a failed one again. -/
def sliceStart (s : State) (k p remain : Nat) : State :=
  if !sliceMay s k p remain then s
  else s.updPhys k p fun q => { q with test := some (q.rerun.getD q.next) }

/-- R536. -/
def execBistSliceStart (cluster cell remain : Nat) (s : State) : Out := onCluster cluster s fun s => sliceStart s cluster cell remain

/-- R528: the offset, in the memory of its kind, of the 32 KiB segment that a place of the cycle tests. -/
def segOffset (n : Nat) : Nat := 32768 * (n - (if n < 64 then 16 else if n < 72 then 64 else if n < 76 then 72 else 76))

/-- R529: does a failure lie in the segment of a place: in the bank and row of one of its sectors? -/
def inSegment (n : Nat) (f : Fail) : Bool :=
  decide (16 ≤ n ∧ f.kind = sliceKind n) && (List.range 1024).any fun i =>
    let off := segOffset n + 32 * i
    bankAt f.kind off == f.bank && Config.rowOf off == f.row

/-- R529: the memory failures of the segments a slice tests. -/
def segFails (places : List Nat) (found : List Fail) : List Fail := found.filter fun f => f.real && places.any fun n => inSegment n f

/-- R529: what a slice finds: logic slices whose signature is not the one of the active bundle, and up to 16 failing bits of
the segments it tests. -/
def sliceFails (s : State) (k p : Nat) (places sigs : List Nat) (found : List Fail) : List Fail :=
  let unit := cellUnit k p
  let logic := (places.filter (· < 16)).zip sigs
  let bundle := s.flash.slot s.secure.active
  ((logic.filter fun x => x.2 != Config.sliceSignature bundle x.1).map fun x => { kind := 1, unit := unit, bank := x.1, row := 0, bit := 0xFFFF }) ++
    ((segFails places found).take 16).map fun f => { f with unit := unit }

/-- R530: a sector of a served cell's memory that the save of its segment found uncorrectable is counted, and written back in
the poison form of R320; the kind names the memory, the offset the sector. -/
def saveBad (s : State) (c kind off : Nat) : State :=
  match kind with
  | 2 => if s.poisonAt (spOf c + off) then s else noteSector (s.addPoison (spOf c + off)) (spOf c + off) 1 true (.onChip 2)
  | 3 => if (weltSector s c (off / 32)).any (·.poison) then s else weltLose s c (off / 32) 1
  | 4 => accLose s c (off / 32) 1
  | _ => s

/-- R530: what the saves of a slice's segments found uncorrectable. DESIGN CHOICE (log 144): a finding of kind 0 tells it: its
bank names the kind of memory, its row the offset of the sector. -/
def savedBad (s : State) (k p : Nat) (places : List Nat) (found : List Fail) : State :=
  match cellServed s k p with
  | none => s
  | some c =>
    (found.filter fun f => f.kind == 0 && places.any fun n =>
      decide (16 ≤ n ∧ f.bank = sliceKind n ∧ segOffset n ≤ f.row ∧ f.row < segOffset n + 32768)).foldl
      (fun s f => saveBad s c f.bank (f.row / 32 * 32)) s

/-- R545: the records of failures in service, ACTION and CONFIRMED still zero. -/
def sliceRecords (s : State) (k p : Nat) (fs : List Fail) : List Nat :=
  let q := s.physCell k p
  fs.map fun f => failRecord s f (testOf f) 0 (Sp.get 0 q.lastPass f.kind) false

/-- R529: failures of the segments a slice tests, beyond the 16 it reports. -/
def sliceMore (places : List Nat) (found : List Fail) : Nat := (segFails places found).length - 16

/-- R539: a slice passes: the stitch is kept for each unit kind it tests. -/
def slicePasses (s : State) (k p : Nat) (places : List Nat) : State :=
  let n := s.stitch.count
  s.updPhys k p fun q => { q with lastPass := (places.map sliceKind).foldl (fun m kind => Sp.set 0 m kind n) q.lastPass }

/-- R538: the place after a slice. -/
def nextPlace (places : List Nat) : Nat := let n := places.getLastD 0 + 1; if n < cycleSlices then n else 0

/-- R539: the rerun of a failed slice ends: the failure is confirmed, or transient. -/
def rerunEnds (s : State) (k p : Nat) (bad : Bool) : State :=
  let s := settleRecords s (s.physCell k p).found bad
  s.updPhys k p fun q => { q with rerun := none, found := [], confirmed := q.confirmed || bad }

/-- R16, R539: a slice fails: the cell it serves is fenced, and the slice is run again. -/
def sliceFailed (s : State) (k p n : Nat) (fs : List Fail) : State :=
  let words := sliceRecords s k p fs
  let s := match cellServed s k p with
    | some c => failCell s c 2
    | none => s
  s.updPhys k p fun q => { q with rerun := some n, found := words }

/-- R538, R539: a slice ends, with the signatures of its logic places and the failures of its memory places. -/
def sliceEnd (s : State) (k p : Nat) (sigs : List Nat) (found : List Fail) : State :=
  match (s.physCell k p).test with
  | none => s
  | some n =>
    let places := slicePlaces s n
    let fs := sliceFails s k p places sigs found
    let again := (s.physCell k p).rerun.isSome
    let s := savedBad (s.odAdd 0x8110 0 1) k p places found
    let s := s.updPhys k p fun q =>
      { q with
        test := none, next := nextPlace places, more := q.more + sliceMore places found
        cycleAt := if nextPlace places = 0 then s.power.millis else q.cycleAt }
    let s := if fs = [] then slicePasses s k p places else s
    if again then rerunEnds s k p (fs != []) else if fs = [] then s else sliceFailed s k p n fs

/-- R539. -/
def execBistSliceEnd (cluster cell : Nat) (sigs : List Nat) (fails : List (List Nat)) (s : State) : Out :=
  onCluster cluster s fun s => sliceEnd s cluster cell sigs (fails.map Fail.ofList)

end Sys2Proof.Machine
end

