-- ==== Sys2Proof/Machine/PowerRows.lean ====
section
/-! DEFINITION. Power: pins and sequencing, the power loop, trips, droop, stack temperature (R324 to R327, R505 to
R522, R575 to R577). -/
namespace Sys2Proof.Machine

/-! ## Sequencing (R520, R575 to R577) -/

/-- R575 steps 4 to 6: rails up, PG released, then RESET_N. -/
def powerUp (s : State) : State :=
  { s with power := { s.power with rails := true, pg := true, resetLow := false } }

/-- R575, R577: power up where everything allows it. -/
def tryPowerUp (s : State) : State :=
  let p := s.power
  if p.pwrEn ∧ !p.holdoff ∧ p.inputOk ∧ !p.rails ∧ p.shutdown = .no then powerUp s else s

/-- R507, R576: rails off: nothing but the flash survives. -/
def powerOff (s : State) : State :=
  let s := blank s
  { s with power := { s.power with rails := false, pg := false, resetLow := true } }

/-- R575, R576: the tray asserts PWR_EN; within the hold-off it waits. -/
def pwrEnAssert (s : State) : State := tryPowerUp { s with power := { s.power with pwrEn := true } }

/-- R575. -/
def execPwrEnAssert (ns : Nat) (s : State) : Out := .next (filtered s ns pwrEnAssert)

/-- R576, R520: the tray deasserts PWR_EN. -/
def pwrEnDeassert (s : State) : State :=
  if !s.power.pwrEn then s
  else
    let s := powerOff s
    { s with power := { s.power with pwrEn := false, holdoff := true, thermTrip := false, shutdown := .no } }

/-- R576. -/
def execPwrEnDeassert (ns : Nat) (s : State) : Out := .next (filtered s ns pwrEnDeassert)

/-- R576: the 100 ms end; an earlier reassertion is acted on. -/
def execPwrEnHoldoffExpiry (s : State) : Out := .next (tryPowerUp { s with power := { s.power with holdoff := false } })

/-- R577. -/
def execInputVoltageValid (s : State) : Out := .next (tryPowerUp { s with power := { s.power with inputOk := true } })

/-- R520, R577: the input leaves 38 to 62 V; its removal releases THERM_TRIP_N. -/
def inputTrip (s : State) (removed : Bool) : State :=
  let on := s.power.rails
  let s := if on then powerOff s else s
  { s with power := { s.power with
      inputOk := false
      thermTrip := s.power.thermTrip && !removed
      shutdown := if on then .voltage else s.power.shutdown } }

/-- R520. -/
def execInputVoltageTrip (removed : Bool) (s : State) : Out := .next (inputTrip s removed)

/-- R520: a die sensor at 105 °C. -/
def thermalShutdown (s : State) : State :=
  if s.power.rails then
    let s := powerOff s
    { s with power := { s.power with thermTrip := true, shutdown := .thermal } }
  else s

/-- R520. -/
def execThermalShutdown (s : State) : Out := .next (thermalShutdown s)

/-! ## SAFE (R520 to R522) -/

/-- R520, R522: entry to SAFE. -/
def safeTrip (s : State) (temp power : Bool) : State :=
  if s.safeTrip ∨ !s.power.rails then s
  else
    let s := { s with safeTrip := true, clock := 1000, power := { s.power with safeMs := 0 } }
    logEvent (s.odAdd 0x8101 0 1) .safeTrip srcModule 0 ((if temp then 1 else 0) + (if power then 2 else 0)) 0

/-- R520. -/
def execSafeTrip (temp power : Bool) (s : State) : Out := .next (safeTrip s temp power)

/-- R522: a millisecond of SAFE passes; it is counted as it passes. -/
def safeTick (s : State) : State :=
  if s.safeTrip then ({ s with power := { s.power with safeMs := s.power.safeMs + 1 } }).odAdd 0x8102 0 1 else s

/-- R521, R522: SAFE ends after so many ms; those not counted yet are added. -/
def safeExit (s : State) (ms : Nat) : State :=
  if s.safeTrip then resumeClock ({ s with safeTrip := false }.odAdd 0x8102 0 (ms - s.power.safeMs)) else s

/-- R521. -/
def execSafeExit (ms : Nat) (s : State) : Out := .next (safeExit s ms)

/-! ## The power loop (R506, R510, R516 to R518) -/

/-- A signed 32-bit dictionary value. -/
def i32 (x : Int) : Nat := (x % 2 ^ 32).toNat

/-- R37, R516: the clock after a tick of the loop, never below the floor. -/
def loopClock (s : State) (watts : Nat) (tj : Int) : Nat :=
  let cap := s.odGet 0x2104 2
  let target := sfld (s.odGet 0x2110 0) 31 0
  let floor := s.odGet 0x2201 0
  max floor
    (if cap < watts ∨ target < tj then s.clock - 25
    else if 100 * watts ≤ 97 * cap ∧ tj ≤ target - 3 ∧ s.clock < opPoint s 0 then s.clock + 25
    else s.clock)

/-- R516, R518: does this millisecond count as one above the cap? -/
def overCap (s : State) (watts : Nat) : Bool :=
  decide (s.odGet 0x2104 2 < watts) &&
    (s.patternClock || s.clock == s.odGet 0x2201 0)

/-- R516, R517, R518: a tick of 1 ms: monitors, the count of milliseconds above the cap, the clock. -/
def powerTick (s : State) (mv ma watts : Nat) (tj : Int) : State :=
  let s := safeTick { s with power := { s.power with millis := s.power.millis + 1 } }
  if s.powerDown ∨ !s.powerCoreRuns then s
  else
    let s := ((s.odSet 0x2000 1 mv).odSet 0x2000 2 ma).odSet 0x2000 3 watts
    let past := overCap s watts
    let s' := if past then s.odAdd 0x8100 0 1 else s
    let s' := if past ∧ !s.power.overCap then logEvent s' .powerOverCap srcModule 0 watts (s.odGet 0x2104 2) else s'
    let s' := { s' with power := { s'.power with overCap := past } }
    if s.safeTrip ∨ s.patternClock then s' else { s' with clock := loopClock s watts tj }

/-- R516. -/
def execPowerLoopTick (mv ma watts : Nat) (tj : Int) (s : State) : Out := .next (whenPowered s fun s => powerTick s mv ma watts tj)

/-- R512. -/
def execDroopStretch (cluster cycles : Nat) (s : State) : Out :=
  onCluster cluster s fun s => whenPowered s fun s => s.odAdd 0x8103 (cluster + 1) cycles

/-! ## Stack temperature (R324 to R326) -/

/-- R324: the limit in force. -/
def stackLimit (s : State) (limit : Int) : Int := min limit (sfld (s.odGet 0x3022 0) 31 0)

/-- R325: the threshold of a level. -/
def levelAt (tl : Int) (l : Nat) : Int := tl + 3 * ((l : Int) - 1)

/-- R325: the highest level whose threshold a temperature reaches. -/
def levelReached (tl t : Int) : Nat :=
  if levelAt tl 3 ≤ t then 3 else if levelAt tl 2 ≤ t then 2 else if levelAt tl 1 ≤ t then 1 else 0

/-- R325: lower a level while the temperature is at least 2 °C below its threshold. -/
def levelLowered (tl t : Int) : Nat → Nat
  | 0 => 0
  | l + 1 => if t + 2 ≤ levelAt tl (l + 1) then levelLowered tl t l else l + 1

/-- R325: the level after a report. -/
def stackLevel (tl t : Int) (l : Nat) : Nat := max (levelReached tl t) (levelLowered tl t l)

/-- R326: the refresh rate: doubled at 85 °C and above, with 2 °C of hysteresis. -/
def stackHot (t : Int) (hot : Bool) : Bool := decide (85 ≤ t) || (hot && decide (83 < t))

/-- R324 to R326: a stack reports its temperature and its own limit. -/
def stackReport (s : State) (k : Nat) (t limit : Int) : State :=
  let st := Sp.get StackSt.init s.stackSts k
  let l := stackLevel (stackLimit s limit) t st.level
  let s := (s.odSet 0x3020 (k + 1) (i32 t)).odSet 0x3021 (k + 1) (i32 limit)
  let s := if 1 ≤ st.level then s.odAdd 0x8055 (k + 1) 32 else s
  let s := if st.level = 0 ∧ 1 ≤ l then s.odAdd 0x8054 (k + 1) 1 else s
  let s := if l = 3 ∧ st.level ≠ 3 then logEvent s .stackLevel3 srcChannel (k * 2 ^ 12) (i32 t) 0 else s
  { s with stackSts := Sp.set StackSt.init s.stackSts k { level := l, hot := stackHot t st.hot } }

/-- R324. -/
def execStackTempReport (stack : Nat) (temp limit : Int) (s : State) : Out :=
  onStack stack s fun s => whenPowered s fun s => stackReport s stack temp limit

end Sys2Proof.Machine
end

