-- ==== Sys2Proof/Machine/Skiver.lean ====
section
/-! DEFINITION. The Skiver row engine and its side memory (R179 to R193). -/
namespace Sys2Proof.Machine

/-! ## Side memory -/

/-- A record of statistics as an operation uses it. -/
structure StatRec where
  a : F32
  b : F32
  poison : Bool
  deriving DecidableEq, Repr

/-- Record r of a cell's side memory. -/
def sideAt (s : State) (c r : Nat) : SideRec := Sp.get SideRec.zero s.side (c * 4096 + r)

/-- Replace a record. -/
def setSide (s : State) (c r : Nat) (v : SideRec) : State :=
  { s with side := Sp.set SideRec.zero s.side (c * 4096 + r) v }

/-- R181: does a record match a descriptor of the running piece? -/
def sideMatches (p : Piece) (tag : Nat) (r : SideRec) : Bool :=
  (r.valid && r.ctx == pdCtx p.desc && r.tag == tag) || (r.writer == p.seq && r.tag == tag)

/-- R180: clear VALID on a run of records as a forward descriptor begins. -/
def clearValid (s : State) (c row n : Nat) : State :=
  (List.range n).foldl (fun s i => setSide s c (row + i) { sideAt s c (row + i) with valid := false, writer := 0 }) s

/-- Write a record for the running piece (R180, R181). -/
def writeSide (s : State) (c row : Nat) (p : Piece) (tag : Nat) (v : StatRec) : State :=
  setSide s c row { a := v.a, b := v.b, valid := false, ctx := pdCtx p.desc, tag := tag, poison := v.poison,
                    badParity := false, writer := p.seq }

/-- R182: read a matching record; a failed parity check poisons it and is counted. -/
def readSide (s : State) (c row : Nat) : StatRec × State :=
  let r := sideAt s c row
  ({ a := r.a, b := r.b, poison := r.poison || r.badParity },
   if r.badParity then s.cellAdd c State.ctrParity 1 else s)

/-- R70: a record under flush-to-zero, with the flags. -/
def StatRec.flush (ftz : Bool) (r : StatRec) (f : Flags) : StatRec × Flags :=
  let a := flush32 ftz r.a f
  let b := flush32 ftz r.b f
  ({ r with a := a.1, b := b.1 }, a.2 ||| b.2)

/-- A memory record (R179, R183). -/
def readMemRec (s : State) (stat i : Nat) : StatRec :=
  let w := s.rd (stat + 8 * i) 8
  { a := BitVec.ofNat 32 w, b := BitVec.ofNat 32 (w / 2 ^ 32), poison := s.poisonIn (stat + 8 * i) 8 }

/-- Write a memory record. -/
def writeMemRec (s : State) (stat i : Nat) (v : StatRec) : State :=
  s.storeP (stat + 8 * i) (leBytes 4 v.a.toNat ++ leBytes 4 v.b.toNat) v.poison

/-- Does NUMCTL of a Skiver descriptor ask for flush-to-zero? -/
def SkD.ftz (d : SkD) : Bool := (ctlOf d.numctl).ftz

/-- R183: the record of row i under STAT_SRC as it is stored; none where side memory has no match for SIDE. -/
def statRaw (s : State) (c : Nat) (p : Piece) (d : SkD) (i : Nat) : Option (StatRec × State) :=
  let hit := sideMatches p d.tag (sideAt s c (d.sideRow + i))
  let side := let r := readSide s c (d.sideRow + i); (r.1, r.2.cellAdd c State.ctrSide 1)
  match d.statSrc with
  | 1 => if hit then some side else none
  | 2 => some (readMemRec s d.stat i, s)
  | _ => some (if hit then side else (readMemRec s d.stat i, s.cellAdd c State.ctrMem 1))

/-- R70, R183: the record of row i as a backward descriptor uses it, the flags of reading it, the state after. -/
def statOf (s : State) (c : Nat) (p : Piece) (d : SkD) (i : Nat) : Option (StatRec × Flags × State) :=
  (statRaw s c p d i).map fun r => let q := r.1.flush d.ftz Flag.underflow; (q.1, q.2, r.2)

/-- R180, R184: write the record of row i where the descriptor asks for it, a result under flush-to-zero (R70). -/
def putStat (s : State) (c : Nat) (p : Piece) (d : SkD) (i : Nat) (v : StatRec) : State × Flags :=
  let q := v.flush d.ftz (Flag.underflow ||| Flag.inexact)
  let s := if d.sideWrite then writeSide s c (d.sideRow + i) p d.tag q.1 else s
  (if d.statSave then writeMemRec s d.stat i q.1 else s, if d.sideWrite || d.statSave then q.2 else 0)

/-! ## Rows -/

/-- Element (i, j) of an operand of the Skiver in FP32. -/
def skIn (s : State) (d : SkD) (fmt base ld i j : Nat) : F32In :=
  (s.elem (ctlOf d.numctl).ftz (fmtOf fmt) (base + i * ld + j * (fmtOf fmt).bytes)).toF32

/-- γ (k = 0) or β (k = 1) of column j; 1 and 0 where AFFINE leaves them out. -/
def skParam (s : State) (d : SkD) (k j : Nat) : F32In :=
  if k < d.affine then skIn s d d.fmtP d.p 0 0 (k * d.cols + j)
  else { x := if k = 0 then 0x3F800000 else 0, f := 0, poison := false }

/-- An FP32 word as an operand with no flag. -/
def lit (x : F32) : FF := (x, 0)

/-- The value and flags of an input. -/
def F32In.ff (x : F32In) : FF := (x.x, x.f)

/-- A row sum: lined, rounded once. -/
def rowSum (xs : List FF) : FF :=
  let r := linedSum Lined.zero (xs.map fun x => val32 x.1)
  let q := rn32 r.1.val
  (q.1, xs.foldl (fun f x => f ||| x.2) (r.2 ||| q.2))

/-- n as an FP32 divisor. -/
def f32OfNat (n : Nat) : F32 := (rn32 (Val.ofInt n)).1

/-- A row's outputs with flags and poison. -/
structure RowOut where
  ys : List F32
  f : Flags
  poison : Bool
  deriving DecidableEq, Repr

/-- Join the flags of a list. -/
def flagsOf (xs : List FF) : Flags := xs.foldl (fun f x => f ||| x.2) 0

/-- Write output row i (R185 to R188). -/
def writeSk (s : State) (d : SkD) (i : Nat) (r : RowOut) : State × Flags :=
  let f := fmtOf d.fmtOut
  let vals := (r.ys.zipIdx).map fun (y, j) => (val32 y, (d.idxBase + i * d.idxRow + j) % 2 ^ 64, r.poison)
  let w := writeRow s f (ctlOf d.numctl) d.seed (fun j => d.out + i * d.ldo + j * f.bytes) (fun _ => (0, 0)) vals
  (w.1, r.f ||| w.2 ||| poisonFlag r.poison)

/-! ## Normalisation (R185, R186) -/

/-- R185: the record and outputs of row i. -/
def normFwdRow (s : State) (d : SkD) (i : Nat) : StatRec × RowOut :=
  let xs := (List.range d.cols).map fun j => skIn s d d.fmtX d.x d.ldx i j
  let gs := (List.range d.cols).map fun j => skParam s d 0 j
  let bs := (List.range d.cols).map fun j => skParam s d 1 j
  let n := lit (f32OfNat d.cols)
  let recBad := xs.any (·.poison)
  let bad := recBad || gs.any (·.poison) || bs.any (·.poison)
  if xs.any fun x => isNan32 x.x then
    ({ a := qnan, b := qnan, poison := recBad },
     { ys := List.replicate d.cols qnan, f := (xs ++ gs ++ bs).foldl (fun f x => f ||| x.f) 0, poison := bad })
  else
    let fs := xs.map F32In.ff
    let mu := if d.mode = 0 then FF.div (rowSum fs) n else (0, 0)
    let ds := fs.map fun x => FF.sub x (mu.1, 0)
    let sq := if d.mode = 0 then ds.map fun t => FF.mul t t else fs.map fun t => FF.mul t t
    let var := FF.add (FF.div (rowSum sq) n) (lit d.param)
    let rho := let r := fn2 .rsqrt var.1; (r.1, var.2 ||| r.2)
    let ys := ((ds.zip gs).zip bs).map fun t =>
      FF.add (FF.mul (FF.mul t.1.1 (rho.1, 0)) t.1.2.ff) t.2.ff
    ({ a := mu.1, b := rho.1, poison := recBad },
     { ys := ys.map (·.1), f := mu.2 ||| rho.2 ||| flagsOf ys, poison := bad })

/-- R185. -/
def normFwd (s : State) (c : Nat) (p : Piece) (d : SkD) : State × Flags :=
  let s := if d.sideWrite then clearValid s c d.sideRow d.rows else s
  (List.range d.rows).foldl (fun (a : State × Flags) i =>
    let r := normFwdRow a.1 d i
    let q := putStat a.1 c p d i r.1
    let w := writeSk q.1 d i r.2
    (w.1, a.2 ||| q.2 ||| w.2)) (s, 0)

/-- Column sums of R186, with their poison. -/
structure ColSums where
  g : List (Lined × Bool)
  b : List (Lined × Bool)
  f : Flags
  deriving DecidableEq, Repr

/-- Row i of NORM_BWD: its outputs, its terms of dγ and its dy. -/
def normBwdRow (s : State) (d : SkD) (i : Nat) (st : StatRec) : RowOut × List (FF × Bool) × List (FF × Bool) :=
  let xs := (List.range d.cols).map fun j => skIn s d d.fmtX d.x d.ldx i j
  let dys := (List.range d.cols).map fun j => skIn s d d.fmtG d.g d.ldg i j
  let gm := (List.range d.cols).map fun j => skParam s d 0 j
  let n := lit (f32OfNat d.cols)
  let bad := st.poison || xs.any (·.poison) || dys.any (·.poison) || gm.any (·.poison)
  let xh := xs.map fun x => FF.mul (FF.sub x.ff (lit st.a)) (lit st.b)
  let gs := (dys.zip gm).map fun t => FF.mul t.1.ff t.2.ff
  let gx := (gs.zip xh).map fun t => FF.mul (t.1.1, 0) (t.2.1, 0)
  let al := FF.div (rowSum gs) n
  let be := FF.div (rowSum gx) n
  let nanRow := xs.any (fun x => isNan32 x.x) || dys.any (fun x => isNan32 x.x)
  let dx := (gs.zip xh).map fun t =>
    let g := if d.mode = 0 then FF.sub (t.1.1, 0) (al.1, 0) else (t.1.1, 0)
    FF.mul (lit st.b) (FF.sub g (FF.mul (t.2.1, 0) (be.1, 0)))
  let fl := flagsOf xh ||| flagsOf gs ||| flagsOf gx ||| al.2 ||| be.2 ||| flagsOf dx
  let colBad := ((xs.zip dys).zip gm).map fun t => st.poison || t.1.1.poison || t.1.2.poison || t.2.poison
  let tg := (dys.zip xh).map fun t => FF.mul t.1.ff (t.2.1, 0)
  ({ ys := if nanRow then List.replicate d.cols qnan else dx.map (·.1), f := fl, poison := bad },
   tg.zip colBad, (dys.map F32In.ff).zip colBad)

/-- Add a row of terms to column sums. -/
def addCols (cs : List (Lined × Bool)) (ts : List (FF × Bool)) : List (Lined × Bool) × Flags :=
  let rs := (cs.zip ts).map fun t =>
    let r := linedAdd t.1.1 (val32 t.2.1.1)
    ((r.1, t.1.2 || t.2.2), r.2 ||| t.2.1.2)
  (rs.map (·.1), rs.foldl (fun f r => f ||| r.2) 0)

/-- R186: stage the column sums of a NORM_BWD for the Welt. -/
def stageCols (s : State) (c slot : Nat) (d : SkD) (t : ColSums) : State :=
  let put (k : Nat) (cs : List (Lined × Bool)) : List WeltAdd :=
    (cs.zipIdx).map fun (v, j) => { slot := slot, idx := d.weltOff / 8 + k * d.cols + j, val := v.1, poison := v.2 }
  let adds := put 0 t.g ++ (if d.affine = 2 then put 1 t.b else [])
  s.updPiece c fun p => { p with staged := { p.staged with welt := p.staged.welt ++ adds } }

/-- R186; none where side memory has no record for a row (R183). -/
def normBwd (s : State) (c : Nat) (p : Piece) (slot : Nat) (d : SkD) : Option (State × Flags) :=
  let zero := List.replicate d.cols (Lined.zero, false)
  let r := (List.range d.rows).foldl (fun (a : Option (State × Flags × ColSums)) i =>
    match a with
    | none => none
    | some (s, f, t) =>
      (statOf s c p d i).map fun st =>
        let q := normBwdRow st.2.2 d i st.1
        let w := writeSk st.2.2 d i q.1
        let cg := addCols t.g q.2.1
        let cb := if d.affine = 2 then addCols t.b q.2.2 else (t.b, 0)
        (w.1, f ||| st.2.1 ||| w.2, { g := cg.1, b := cb.1, f := t.f ||| cg.2 ||| cb.2 }))
    (some (s, 0, { g := zero, b := zero, f := 0 }))
  r.map fun (s, f, t) =>
    if d.weltEn && d.affine != 0 then (stageCols s c slot d t, f ||| t.f) else (s, f)

/-! ## Soft-maximum (R187 to R189) -/

/-- R189: is element (i, j) masked? -/
def SkD.masked (d : SkD) (i j : Nat) : Bool := d.mode == 1 && decide ((i : Int) + d.causal < (j : Int))

/-- The scaled row z with its masked elements at −∞ (R187, R189): value, flags, poison, mask. A masked element takes part
in no sum, but a poisoned one poisons its row. -/
def zRow (s : State) (d : SkD) (i : Nat) : List (FF × Bool × Bool) :=
  (List.range d.cols).map fun j =>
    let x := skIn s d d.fmtX d.x d.ldx i j
    if d.masked i j then ((0xFF800000, 0), x.poison, true)
    else (FF.mul (lit d.param) x.ff, x.poison, false)

/-- R187: the record of a row computed chunk by chunk, 32 columns at a time. -/
def softRec : Nat → List F32 → F32 → F32 → Flags → F32 × F32 × Flags
  | 0, _, m, s, f => (m, s, f)
  | n + 1, xs, m, s, f =>
    match xs with
    | [] => (m, s, f)
    | _ =>
      let t := rowRecord 3 (xs.take 32)
      let q := mergeRecord 3 m s t.1 t.2.1
      softRec n (xs.drop 32) q.1 q.2.1 (f ||| t.2.2 ||| q.2.2)

/-- The outputs y of a row for a record (R187, R189): 0 where masked, NaN in a row with a NaN or +∞. -/
def softY (z : List (FF × Bool × Bool)) (m sum : F32) : List FF :=
  let live := (z.filter fun e => !e.2.2).map fun e => e.1.1
  let nan := live.any isNan32 || live.any (fun x => x == 0x7F800000)
  let empty := live.all fun x => x == 0xFF800000
  z.map fun e =>
    if e.2.2 then (0, 0)
    else if nan then (qnan, 0)
    else if empty then (0, 0)
    else FF.div (expDiff e.1.1 m) (lit sum)

/-- Row i of SOFTMAX_FWD: its record and outputs. -/
def softFwdRow (s : State) (d : SkD) (i : Nat) : StatRec × RowOut :=
  let z := zRow s d i
  let zf := z.foldl (fun f e => f ||| e.1.2) 0
  let zbad := z.any (·.2.1)
  let live := (z.filter fun e => !e.2.2).map fun e => e.1.1
  let hasNan := live.any isNan32
  let hasInf := live.any fun x => x == 0x7F800000
  let empty := live.all fun x => x == 0xFF800000
  let st : StatRec × Flags :=
    if d.statSrc = 2 then
      let q := (readMemRec s d.stat i).flush d.ftz Flag.underflow
      (q.1, q.2 ||| Flags.when (!hasNan && hasInf) Flag.invalid)
    else if hasNan then ({ a := qnan, b := qnan, poison := zbad }, 0)
    else if hasInf then ({ a := 0x7F800000, b := qnan, poison := zbad }, Flag.invalid)
    else
      let r := softRec (live.length + 1) live 0xFF800000 0 0
      ({ a := r.1, b := r.2.1, poison := zbad }, r.2.2)
  let y := softY z st.1.a st.1.b
  (st.1, { ys := y.map (·.1), f := if empty then 0 else zf ||| st.2 ||| flagsOf y, poison := zbad || st.1.poison })

/-- R187. -/
def softFwd (s : State) (c : Nat) (p : Piece) (d : SkD) : State × Flags :=
  let s := if d.sideWrite then clearValid s c d.sideRow d.rows else s
  (List.range d.rows).foldl (fun (a : State × Flags) i =>
    let r := softFwdRow a.1 d i
    let q := putStat a.1 c p d i r.1
    let w := writeSk q.1 d i r.2
    (w.1, a.2 ||| q.2 ||| w.2)) (s, 0)

/-- The y of a row of SOFTMAX_BWD: by element value and flags, poison, mask; the poison of the record it comes from; is
it a row whose unmasked z are all −∞ (R189); the flags of its record. -/
structure SoftY where
  els : List (FF × Bool × Bool)
  poison : Bool
  empty : Bool
  f : Flags
  deriving DecidableEq, Repr

/-- Row i of SOFTMAX_BWD from its y (R188, R189). -/
def softBwdRow (s : State) (d : SkD) (i : Nat) (y : SoftY) : RowOut :=
  let dys := (List.range d.cols).map fun j => skIn s d d.fmtG d.g d.ldg i j
  let els := y.els.zip dys
  let live := els.filter fun e => !e.1.2.2
  let nan := live.any fun e => isNan32 e.1.1.1 || isNan32 e.2.x
  let t := rowSum (live.map fun e => FF.mul e.2.ff (e.1.1.1, 0))
  let dx := els.map fun e =>
    if e.1.2.2 then ((0, 0) : FF)
    else FF.mul (FF.mul (lit d.param) (e.1.1.1, 0)) (FF.sub (e.2.x, 0) (t.1, 0))
  let bad := y.poison || els.any fun e => e.1.2.1 || e.2.poison
  if y.empty then { ys := List.replicate d.cols 0, f := 0, poison := bad }
  else
    { ys := (els.zip dx).map fun e => if e.1.1.2.2 then 0 else if nan then qnan else e.2.1
      f := (if nan then flagsOf (live.map fun e => e.2.ff) else t.2 ||| flagsOf dx) ||| flagsOf (live.map fun e => e.1.1) ||| y.f
      poison := bad }

/-- The y of row i for SOFTMAX_BWD, and the state after its record is read; none where side memory has
no record for the row. -/
def softBwdY (s : State) (c : Nat) (p : Piece) (d : SkD) (i : Nat) : Option (SoftY × State) :=
  if d.ySrc then
    some ({ els := (List.range d.cols).map fun j =>
              let x := skIn s d d.fmtX d.x d.ldx i j
              if d.masked i j then ((0, 0), x.poison, true) else (x.ff, x.poison, false)
            poison := false, empty := false, f := 0 }, s)
  else
    (statOf s c p d i).map fun st =>
      let z := zRow st.2.2 d i
      let live := (z.filter fun e => !e.2.2).map fun e => e.1.1
      let hasInf := !live.any isNan32 && live.any fun x => x == 0x7F800000
      let y := softY z st.1.a st.1.b
      ({ els := (z.zip y).map fun e => ((e.2.1, e.1.1.2 ||| e.2.2), e.1.2.1, e.1.2.2)
         poison := st.1.poison, empty := live.all fun x => x == 0xFF800000
         f := st.2.1 ||| Flags.when hasInf Flag.invalid }, st.2.2)

/-- R188; none where side memory has no record for a row. -/
def softBwd (s : State) (c : Nat) (p : Piece) (d : SkD) : Option (State × Flags) :=
  (List.range d.rows).foldl (fun (a : Option (State × Flags)) i =>
    match a with
    | none => none
    | some (s, f) =>
      (softBwdY s c p d i).map fun y =>
        let w := writeSk y.2 d i (softBwdRow y.2 d i y.1)
        (w.1, f ||| w.2)) (some (s, 0))

/-! ## STAT_SAVE and STAT_LOAD (R190) -/

/-- R190: copy records to memory; one that does not match is written as NaNs to a poisoned sector. -/
def statSave (s : State) (c : Nat) (p : Piece) (d : SkD) : State × Flags :=
  (List.range d.rows).foldl (fun (a : State × Flags) i =>
    if sideMatches p d.tag (sideAt a.1 c (d.sideRow + i)) then
      let r := readSide a.1 c (d.sideRow + i)
      (writeMemRec r.2 d.stat i r.1, a.2 ||| poisonFlag r.1.poison)
    else (writeMemRec a.1 d.stat i { a := qnan, b := qnan, poison := true }, a.2)) (s, 0)

/-- R190: copy records from memory as a forward descriptor with SIDE_WRITE would. -/
def statLoad (s : State) (c : Nat) (p : Piece) (d : SkD) : State × Flags :=
  (List.range d.rows).foldl (fun (a : State × Flags) i =>
    let r := readMemRec a.1 d.stat i
    (writeSide a.1 c (d.sideRow + i) p d.tag r, a.2 ||| poisonFlag r.poison)) (clearValid s c d.sideRow d.rows, 0)

/-! ## The commands -/

/-- Run the Skiver's next descriptor where it has the opcode; work that answers none ends the piece with
BAD_DESCRIPTOR (R183). DESIGN CHOICE (log 147): the rows before the record that does not match write nothing and count nothing
(R182, R193). -/
def skCmd (s : State) (c op : Nat) (work : State → Piece → Nat → SkD → Option (State × Flags)) : State :=
  match s.pieceOf c with
  | none => s
  | some p =>
    match unitNext p .skiver with
    | none => s
    | some i =>
      if fld i.word 7 0 == op && readsFree s p i.slot (itemReads s i.word) && writesFree s p i.slot (itemWrites i.word) then
        match work s p i.slot (SkD.ofWord i.word) with
        | some r => itemDone (r.1.stageFlags c r.2) c i.slot
        | none => failPiece s c p St.badDescriptor
      else s

/-- R185. -/
def execNormFwd (cell : Nat) (s : State) : Out :=
  onCell cell s fun s => skCmd s cell 0x30 fun s p _ d => some (normFwd s cell p d)
/-- R186. -/
def execNormBwd (cell : Nat) (s : State) : Out :=
  onCell cell s fun s => skCmd s cell 0x31 fun s p slot d => normBwd s cell p slot d
/-- R187. -/
def execSoftmaxFwd (cell : Nat) (s : State) : Out :=
  onCell cell s fun s => skCmd s cell 0x32 fun s p _ d => some (softFwd s cell p d)
/-- R188. -/
def execSoftmaxBwd (cell : Nat) (s : State) : Out :=
  onCell cell s fun s => skCmd s cell 0x33 fun s p _ d => softBwd s cell p d
/-- R190. -/
def execStatSave (cell : Nat) (s : State) : Out :=
  onCell cell s fun s => skCmd s cell 0x34 fun s p _ d => some (statSave s cell p d)
/-- R190. -/
def execStatLoad (cell : Nat) (s : State) : Out :=
  onCell cell s fun s => skCmd s cell 0x35 fun s p _ d => some (statLoad s cell p d)

end Sys2Proof.Machine
end

