-- ==== Sys2Proof/Machine/SyncRows.lean ====
section
/-! DEFINITION. The Harness port of a cell, the release of waits, far updates, Harness frames (R52 to
R63). -/
namespace Sys2Proof.Machine

/-! ## HARNESS_OP (R57) -/

/-- Write the result of a HARNESS_OP where RESULT_EN asks for it, and finish it. -/
def harnessResult (s : State) (c : Nat) (i : Item) (v : Nat) : State :=
  let s := if bit i.word 30 then s.wr (fld i.word 73 32) 8 v false else s
  itemDone s c i.slot

/-- Join an object's waiters. -/
def joinWait (s : State) (c : Nat) (p : Piece) (i : Item) (k : Nat) (w : Wait) : State :=
  let o := s.obj k
  let s := s.setObj k { o with waiters := o.waiters ++ [{ cell := c, unit := 16, piece := p.seq, wait := w }] }
  updItem s c i.slot fun i => { i with stage := .waiting }

/-- Wait until a condition holds, or go on at once where it does. -/
def waitFor (s : State) (c : Nat) (p : Piece) (i : Item) (k : Nat) (w : Wait) : State :=
  let o := s.obj k
  if o.holds w then harnessResult s c i o.stateWord else joinWait s c p i k w

/-- Take a unit of a semaphore now. -/
def takeUnit (s : State) (c k : Nat) : State :=
  let o := s.obj k
  (s.setObj k (o.apply .take 0)).updPiece c fun p => { p with units := k :: p.units }

/-- R57: ARRIVE_WAIT arrives once per phase for a context and PIECE_ID, then waits for the phase to end. -/
def arriveWait (s : State) (c : Nat) (p : Piece) (i : Item) (k : Nat) : State :=
  let o := s.obj k
  let me := (pdCtx p.desc, pdId p.desc)
  let ph := o.phase
  let s := if o.arrived.contains me then s
    else syncChange (s.setObj k { o with arrived := o.arrived ++ [me] }) k .arrive 0
  waitFor s c p i k (.phase ph)

/-- The work of a HARNESS_OP. -/
def harnessWork (s : State) (c : Nat) (p : Piece) (i : Item) (op : SyncOp) : State :=
  let k := fld i.word 24 8
  let v := fld i.word 191 128
  let o := s.obj k
  match op with
  | .read => harnessResult s c i o.stateWord
  | .waitGe => waitFor s c p i k (.ge (v % 2 ^ 48))
  | .eventWait => waitFor s c p i k .event
  | .barrierWait => waitFor s c p i k (.phase (bit v 0))
  | .arriveWait => arriveWait s c p i k
  | .take =>
    if decide (0 < o.value) && (o.waiters.all fun w => w.wait != .take) then
      let s := takeUnit s c k
      harnessResult s c i (s.obj k).stateWord
    else joinWait s c p i k .take
  | .tryTake => if 0 < o.value then harnessResult (takeUnit s c k) c i 1 else harnessResult s c i 0
  | op =>
    let s := s.updPiece c fun p =>
      { p with staged := { p.staged with ops := p.staged.ops ++ [{ obj := k, op := op.code, operand := v }] } }
    itemDone s c i.slot

/-- Does the Harness port run or wait for a descriptor now? -/
def harnessBusy (p : Piece) : Bool := p.items.any fun i => decide (unitOf i.word = .harness ∧ i.stage = .waiting)

/-- Run the Harness port's next descriptor where it holds the operation. -/
def harnessCmd (s : State) (c : Nat) (op : SyncOp) : State :=
  match s.pieceOf c with
  | none => s
  | some p =>
    match unitNext p .harness with
    | none => s
    | some i =>
      if !harnessBusy p && SyncOp.ofCode (fld i.word 29 25) == some op && writesFree s p i.slot (itemWrites i.word) then
        harnessWork s c p i op
      else s

/-- R57. -/
def execHarnessOpRead (cell : Nat) (s : State) : Out := onCell cell s fun s => harnessCmd s cell .read
/-- R57. -/
def execHarnessOpAdd (cell : Nat) (s : State) : Out := onCell cell s fun s => harnessCmd s cell .add
/-- R57. -/
def execHarnessOpSet (cell : Nat) (s : State) : Out := onCell cell s fun s => harnessCmd s cell .set
/-- R57. -/
def execHarnessOpWaitGe (cell : Nat) (s : State) : Out := onCell cell s fun s => harnessCmd s cell .waitGe
/-- R57. -/
def execHarnessOpEventSet (cell : Nat) (s : State) : Out := onCell cell s fun s => harnessCmd s cell .eventSet
/-- R57. -/
def execHarnessOpEventClear (cell : Nat) (s : State) : Out := onCell cell s fun s => harnessCmd s cell .eventClear
/-- R57. -/
def execHarnessOpEventWait (cell : Nat) (s : State) : Out := onCell cell s fun s => harnessCmd s cell .eventWait
/-- R57. -/
def execHarnessOpArrive (cell : Nat) (s : State) : Out := onCell cell s fun s => harnessCmd s cell .arrive
/-- R57. -/
def execHarnessOpBarrierWait (cell : Nat) (s : State) : Out := onCell cell s fun s => harnessCmd s cell .barrierWait
/-- R57. -/
def execHarnessOpArriveWait (cell : Nat) (s : State) : Out := onCell cell s fun s => harnessCmd s cell .arriveWait
/-- R57. -/
def execHarnessOpPost (cell : Nat) (s : State) : Out := onCell cell s fun s => harnessCmd s cell .post
/-- R57. -/
def execHarnessOpTake (cell : Nat) (s : State) : Out := onCell cell s fun s => harnessCmd s cell .take
/-- R57. -/
def execHarnessOpTryTake (cell : Nat) (s : State) : Out := onCell cell s fun s => harnessCmd s cell .tryTake

/-! ## Release (R56, R57, R59, R292) -/

/-- The unit of a waiter. -/
def waitUnit (unit : Nat) : CellUnit := if unit = 16 then .harness else .stream unit

/-- The release of a wait reaches the cell: the descriptor goes on. In the cycles told the units waited as they do until
then (R292, R293). -/
def waitRelease (s : State) (c unit cycles : Nat) : State :=
  match s.pieceOf c with
  | none => s
  | some p =>
    match p.items.find? fun i => decide (unitOf i.word = waitUnit unit ∧ i.stage = .waiting) && i.reply.isSome with
    | none => s
    | some i =>
      let s := countStalls s c cycles
      if unit = 16 then harnessResult s c i (i.reply.getD 0)
      else updItem s c i.slot fun i => { i with stage := startStage i.word, reply := none }

/-- R59. -/
def execSyncWaitRelease (cell unit cycles : Nat) (s : State) : Out :=
  onCell cell s fun s => waitRelease s cell unit cycles

/-! ## Far objects (R60, R62) -/

/-- The object of a far index. -/
def farObj (s : State) (far : Nat) : Option Nat :=
  (s.sync.find? fun e => e.2.far && e.2.farIndex == far).map (·.1)

/-- The combined change of the other modules, applied to a mirror. -/
def farApply (o : SyncObj) (amount : Nat) : SyncObj :=
  match o.kind with
  | .counter =>
    let v := o.value + amount
    { o with value := min (2 ^ 48 - 1) v, sat := o.sat || decide (2 ^ 48 - 1 < v) }
  | .event => if amount = 0 then o else { o with value := 1 }
  | .barrier =>
    if o.param ≤ o.value + amount then
      { o with value := o.value + amount - o.param, phase := !o.phase, arrived := [] }
    else { o with value := o.value + amount }
  | _ => o

/-- R62: an update of a far object arrives. -/
def farUpdate (s : State) (far amount : Nat) : State :=
  match farObj s far with
  | some i => lowWater (settleObj s i (farApply (s.obj i) amount)) i (s.obj i).value
  | none => s

/-- R62. -/
def execFarUpdate (far amount : Nat) (s : State) : Out := .next (farUpdate s far amount)

/-! ## Frames (R53, R54) -/

/-- R53: are there frames of a precedence: markers, class 0, votes and norms, class 1, class 2? -/
def isFrameKind (cls : Nat) : Bool := decide (cls < 5)

/-- R54: a frame arrives on a Harness wavelength in service (R65): delivered once and in order in its class, or asked for
again. -/
def harnessFrame (s : State) (port cls seq : Nat) (crcOk : Bool) (payload : Nat) : State :=
  let k := port * 8 + cls
  let due := Sp.get 0 s.frameSeq k
  if !isFrameKind cls || !(s.port port).harness then s
  else if !crcOk || decide (due < seq) then s.send (.frameRetry port cls due)
  else if seq < due then s
  else ({ s with frameSeq := Sp.set 0 s.frameSeq k (due + 1) }).send (.frame port cls payload)

/-- R54. -/
def execHarnessFrame (port cls seq : Nat) (crcOk : Bool) (payload : Nat) (s : State) : Out :=
  onPort port s fun s => harnessFrame s port cls seq crcOk payload

end Sys2Proof.Machine
end

