-- ==== Sys2Proof/Machine/Dispatch.lean ====
section
/-! DEFINITION. One arm per command: the meaning of each. -/
namespace Sys2Proof.Machine

/-- The effect of a command on everything but the queue. -/
def exec (i : Instr) (s : State) : Host.Outcome State Fault Refusal :=
  match i with
  | .stitchEdge => Sys2Proof.Machine.execStitchEdge s
  | .stitchInEdge us => Sys2Proof.Machine.execStitchInEdge us s
  | .stitchInTimeout => Sys2Proof.Machine.execStitchInTimeout s
  | .stitchMarker plane sender n t => Sys2Proof.Machine.execStitchMarker plane sender n t s
  | .rootHeartbeatSend => Sys2Proof.Machine.execRootHeartbeatSend s
  | .rootHeartbeat sender => Sys2Proof.Machine.execRootHeartbeat sender s
  | .standbyTakeover us => Sys2Proof.Machine.execStandbyTakeover us s
  | .stitchLost => Sys2Proof.Machine.execStitchLost s
  | .stitchLostJobEnd => Sys2Proof.Machine.execStitchLostJobEnd s
  | .harnessFrame port cls seq crcOk payload => Sys2Proof.Machine.execHarnessFrame port cls seq crcOk payload s
  | .pieceStart cell x => Sys2Proof.Machine.execPieceStart cell x s
  | .descriptorHandOut cell => Sys2Proof.Machine.execDescriptorHandOut cell s
  | .gridDescriptor cell => Sys2Proof.Machine.execGridDescriptor cell s
  | .matrix cell => Sys2Proof.Machine.execMatrix cell s
  | .wgrad cell => Sys2Proof.Machine.execWgrad cell s
  | .conv cell => Sys2Proof.Machine.execConv cell s
  | .poolMax cell => Sys2Proof.Machine.execPoolMax cell s
  | .poolAvgFull cell => Sys2Proof.Machine.execPoolAvgFull cell s
  | .poolAvgValid cell => Sys2Proof.Machine.execPoolAvgValid cell s
  | .convDx cell => Sys2Proof.Machine.execConvDx cell s
  | .convWgrad cell => Sys2Proof.Machine.execConvWgrad cell s
  | .stemPack cell => Sys2Proof.Machine.execStemPack cell s
  | .stemUnpack cell => Sys2Proof.Machine.execStemUnpack cell s
  | .preload cell => Sys2Proof.Machine.execPreload cell s
  | .tileDrain cell => Sys2Proof.Machine.execTileDrain cell s
  | .descriptorRetire cell slot stalls => Sys2Proof.Machine.execDescriptorRetire cell slot stalls s
  | .vectorCopy cell => Sys2Proof.Machine.execVectorCopy cell s
  | .vectorAdd cell => Sys2Proof.Machine.execVectorAdd cell s
  | .vectorSub cell => Sys2Proof.Machine.execVectorSub cell s
  | .vectorMul cell => Sys2Proof.Machine.execVectorMul cell s
  | .vectorDiv cell => Sys2Proof.Machine.execVectorDiv cell s
  | .vectorMax cell => Sys2Proof.Machine.execVectorMax cell s
  | .vectorMin cell => Sys2Proof.Machine.execVectorMin cell s
  | .vectorFma cell => Sys2Proof.Machine.execVectorFma cell s
  | .vectorAbs cell => Sys2Proof.Machine.execVectorAbs cell s
  | .vectorNeg cell => Sys2Proof.Machine.execVectorNeg cell s
  | .vectorClamp cell => Sys2Proof.Machine.execVectorClamp cell s
  | .vectorSign cell => Sys2Proof.Machine.execVectorSign cell s
  | .vectorSqrt cell => Sys2Proof.Machine.execVectorSqrt cell s
  | .vectorRsqrt cell => Sys2Proof.Machine.execVectorRsqrt cell s
  | .vectorRecip cell => Sys2Proof.Machine.execVectorRecip cell s
  | .vectorExp cell => Sys2Proof.Machine.execVectorExp cell s
  | .vectorLog cell => Sys2Proof.Machine.execVectorLog cell s
  | .vectorTanh cell => Sys2Proof.Machine.execVectorTanh cell s
  | .vectorSigmoid cell => Sys2Proof.Machine.execVectorSigmoid cell s
  | .vectorSilu cell => Sys2Proof.Machine.execVectorSilu cell s
  | .vectorGeluTanh cell => Sys2Proof.Machine.execVectorGeluTanh cell s
  | .vectorRelu cell => Sys2Proof.Machine.execVectorRelu cell s
  | .vectorSelect cell => Sys2Proof.Machine.execVectorSelect cell s
  | .vectorCmpGt cell => Sys2Proof.Machine.execVectorCmpGt cell s
  | .reductionSum cell => Sys2Proof.Machine.execReductionSum cell s
  | .reductionSumsq cell => Sys2Proof.Machine.execReductionSumsq cell s
  | .reductionSumabs cell => Sys2Proof.Machine.execReductionSumabs cell s
  | .reductionMax cell => Sys2Proof.Machine.execReductionMax cell s
  | .reductionMin cell => Sys2Proof.Machine.execReductionMin cell s
  | .reductionAbsmax cell => Sys2Proof.Machine.execReductionAbsmax cell s
  | .reductionDot cell => Sys2Proof.Machine.execReductionDot cell s
  | .updateSgdMomentum cell => Sys2Proof.Machine.execUpdateSgdMomentum cell s
  | .updateAdamw cell => Sys2Proof.Machine.execUpdateAdamw cell s
  | .updateLion cell => Sys2Proof.Machine.execUpdateLion cell s
  | .normFwd cell => Sys2Proof.Machine.execNormFwd cell s
  | .normBwd cell => Sys2Proof.Machine.execNormBwd cell s
  | .softmaxFwd cell => Sys2Proof.Machine.execSoftmaxFwd cell s
  | .softmaxBwd cell => Sys2Proof.Machine.execSoftmaxBwd cell s
  | .statSave cell => Sys2Proof.Machine.execStatSave cell s
  | .statLoad cell => Sys2Proof.Machine.execStatLoad cell s
  | .moveCopy cell queue => Sys2Proof.Machine.execMoveCopy cell queue s
  | .moveEncode cell queue => Sys2Proof.Machine.execMoveEncode cell queue s
  | .moveDecode cell queue => Sys2Proof.Machine.execMoveDecode cell queue s
  | .moveRegroup cell queue => Sys2Proof.Machine.execMoveRegroup cell queue s
  | .queueCtl cell => Sys2Proof.Machine.execQueueCtl cell s
  | .rearm cell queue => Sys2Proof.Machine.execRearm cell queue s
  | .transferIssue cell => Sys2Proof.Machine.execTransferIssue cell s
  | .homeSliceAccess store addr data errs => Sys2Proof.Machine.execHomeSliceAccess store addr data errs s
  | .transferLand cell id gen stalls => Sys2Proof.Machine.execTransferLand cell id gen stalls s
  | .harnessOpRead cell => Sys2Proof.Machine.execHarnessOpRead cell s
  | .harnessOpAdd cell => Sys2Proof.Machine.execHarnessOpAdd cell s
  | .harnessOpSet cell => Sys2Proof.Machine.execHarnessOpSet cell s
  | .harnessOpWaitGe cell => Sys2Proof.Machine.execHarnessOpWaitGe cell s
  | .harnessOpEventSet cell => Sys2Proof.Machine.execHarnessOpEventSet cell s
  | .harnessOpEventClear cell => Sys2Proof.Machine.execHarnessOpEventClear cell s
  | .harnessOpEventWait cell => Sys2Proof.Machine.execHarnessOpEventWait cell s
  | .harnessOpArrive cell => Sys2Proof.Machine.execHarnessOpArrive cell s
  | .harnessOpBarrierWait cell => Sys2Proof.Machine.execHarnessOpBarrierWait cell s
  | .harnessOpArriveWait cell => Sys2Proof.Machine.execHarnessOpArriveWait cell s
  | .harnessOpPost cell => Sys2Proof.Machine.execHarnessOpPost cell s
  | .harnessOpTake cell => Sys2Proof.Machine.execHarnessOpTake cell s
  | .harnessOpTryTake cell => Sys2Proof.Machine.execHarnessOpTryTake cell s
  | .syncWaitRelease cell unit cycles => Sys2Proof.Machine.execSyncWaitRelease cell unit cycles s
  | .farUpdate far amount => Sys2Proof.Machine.execFarUpdate far amount s
  | .pieceCommit cell => Sys2Proof.Machine.execPieceCommit cell s
  | .tileClaim cell obj => Sys2Proof.Machine.execTileClaim cell obj s
  | .tileCommit cell => Sys2Proof.Machine.execTileCommit cell s
  | .tileCommitReply cell => Sys2Proof.Machine.execTileCommitReply cell s
  | .tileDone obj idx gen => Sys2Proof.Machine.execTileDone obj idx gen s
  | .tileRevert obj idx gen => Sys2Proof.Machine.execTileRevert obj idx gen s
  | .tileRelease obj idx gen => Sys2Proof.Machine.execTileRelease obj idx gen s
  | .leaseTimeout obj idx => Sys2Proof.Machine.execLeaseTimeout obj idx s
  | .cellFault cell => Sys2Proof.Machine.execCellFault cell s
  | .slmAdd cell => Sys2Proof.Machine.execSlmAdd cell s
  | .gather ctx => Sys2Proof.Machine.execGather ctx s
  | .stepOpen cmd others planes => Sys2Proof.Machine.execStepOpen cmd others planes s
  | .exchange ctx => Sys2Proof.Machine.execExchange ctx s
  | .updatePlacement ctx shard lens => Sys2Proof.Machine.execUpdatePlacement ctx shard lens s
  | .voteCast ctx => Sys2Proof.Machine.execVoteCast ctx s
  | .voteReceive ctx sender step tc yes reason faulty flags norms => Sys2Proof.Machine.execVoteReceive ctx sender step tc yes reason faulty flags norms s
  | .voteDeadline ctx => Sys2Proof.Machine.execVoteDeadline ctx s
  | .outcomeReceive ctx step commit flags fails norms => Sys2Proof.Machine.execOutcomeReceive ctx step commit flags fails norms s
  | .stepOutcomeApply ctx => Sys2Proof.Machine.execStepOutcomeApply ctx s
  | .stepGather ctx => Sys2Proof.Machine.execStepGather ctx s
  | .mirror ctx shard => Sys2Proof.Machine.execMirror ctx shard s
  | .mirrorAck ctx shard => Sys2Proof.Machine.execMirrorAck ctx shard s
  | .snapshot cmd busMaster => Sys2Proof.Machine.execSnapshot cmd busMaster s
  | .snapshotSend cmd => Sys2Proof.Machine.execSnapshotSend cmd s
  | .reduceScatter cmd => Sys2Proof.Machine.execReduceScatter cmd s
  | .allReduce cmd => Sys2Proof.Machine.execAllReduce cmd s
  | .allGather cmd => Sys2Proof.Machine.execAllGather cmd s
  | .broadcast cmd => Sys2Proof.Machine.execBroadcast cmd s
  | .put cmd => Sys2Proof.Machine.execPut cmd s
  | .fabricOpStart op => Sys2Proof.Machine.execFabricOpStart op s
  | .fabricStartNotice ctx group seq sender op dst kind count fmt => Sys2Proof.Machine.execFabricStartNotice ctx group seq sender op dst kind count fmt s
  | .fabricOpComplete op faulty => Sys2Proof.Machine.execFabricOpComplete op faulty s
  | .fabricTimeout op => Sys2Proof.Machine.execFabricTimeout op s
  | .flitData port header payload poison fec unc => Sys2Proof.Machine.execFlitData port header payload poison fec unc s
  | .flitReduce port header payload adderFault fec unc => Sys2Proof.Machine.execFlitReduce port header payload adderFault fec unc s
  | .residueResendRequest op plane idx member => Sys2Proof.Machine.execResidueResendRequest op plane idx member s
  | .flitRetry port header payload fec unc => Sys2Proof.Machine.execFlitRetry port header payload fec unc s
  | .flitNull port header payload fec unc => Sys2Proof.Machine.execFlitNull port header payload fec unc s
  | .laserLightLoss receptacle harnessOnly => Sys2Proof.Machine.execLaserLightLoss receptacle harnessOnly s
  | .portTraining port plane delay => Sys2Proof.Machine.execPortTraining port plane delay s
  | .portTrainingTimeout port step => Sys2Proof.Machine.execPortTrainingTimeout port step s
  | .portLockLoss port member replays => Sys2Proof.Machine.execPortLockLoss port member replays s
  | .harnessLockLoss port => Sys2Proof.Machine.execHarnessLockLoss port s
  | .portRetrain port => Sys2Proof.Machine.execPortRetrain port s
  | .calibrationDone cluster unit => Sys2Proof.Machine.execCalibrationDone cluster unit s
  | .streamOpen cmd => Sys2Proof.Machine.execStreamOpen cmd s
  | .streamClose cmd => Sys2Proof.Machine.execStreamClose cmd s
  | .batchAssemble stream => Sys2Proof.Machine.execBatchAssemble stream s
  | .sampleStart stream => Sys2Proof.Machine.execSampleStart stream s
  | .sampleDecoded stream id us reason pcieFail dims data => Sys2Proof.Machine.execSampleDecoded stream id us reason pcieFail dims data s
  | .sampleOverBudget stream id us => Sys2Proof.Machine.execSampleOverBudget stream id us s
  | .batchSeal stream waitUs => Sys2Proof.Machine.execBatchSeal stream waitUs s
  | .jobOpen cmd period mode far members pattern planes => Sys2Proof.Machine.execJobOpen cmd period mode far members pattern planes s
  | .jobClose cmd => Sys2Proof.Machine.execJobClose cmd s
  | .scrubComplete fails bad => Sys2Proof.Machine.execScrubComplete fails bad s
  | .contextCreate cmd rootDigest => Sys2Proof.Machine.execContextCreate cmd rootDigest s
  | .contextDestroy cmd => Sys2Proof.Machine.execContextDestroy cmd s
  | .patternLoad cmd rootDigest => Sys2Proof.Machine.execPatternLoad cmd rootDigest s
  | .patternTakeEffect => Sys2Proof.Machine.execPatternTakeEffect s
  | .swapComplete ctx => Sys2Proof.Machine.execSwapComplete ctx s
  | .class2Refuse cmd => Sys2Proof.Machine.execClass2Refuse cmd s
  | .run cmd => Sys2Proof.Machine.execRun cmd s
  | .grid cmd => Sys2Proof.Machine.execGrid cmd s
  | .syncOpRead cmd => Sys2Proof.Machine.execSyncOpRead cmd s
  | .syncOpAdd cmd => Sys2Proof.Machine.execSyncOpAdd cmd s
  | .syncOpSet cmd => Sys2Proof.Machine.execSyncOpSet cmd s
  | .syncOpEventSet cmd => Sys2Proof.Machine.execSyncOpEventSet cmd s
  | .syncOpEventClear cmd => Sys2Proof.Machine.execSyncOpEventClear cmd s
  | .syncOpPost cmd => Sys2Proof.Machine.execSyncOpPost cmd s
  | .syncOpArrive cmd => Sys2Proof.Machine.execSyncOpArrive cmd s
  | .hostCopyToDevice cmd busMaster => Sys2Proof.Machine.execHostCopyToDevice cmd busMaster s
  | .hostCopyToHost cmd busMaster => Sys2Proof.Machine.execHostCopyToHost cmd busMaster s
  | .pcieReadCompletion id offset data fail => Sys2Proof.Machine.execPcieReadCompletion id offset data fail s
  | .ringEntryTake => Sys2Proof.Machine.execRingEntryTake s
  | .sqTail ring value => Sys2Proof.Machine.execSqTail ring value s
  | .cqHead ring value => Sys2Proof.Machine.execCqHead ring value s
  | .ringEnable ring enable sqBase cqBase sqLog cqLog => Sys2Proof.Machine.execRingEnable ring enable sqBase cqBase sqLog cqLog s
  | .bar2WindowBase value sizeLog => Sys2Proof.Machine.execBar2WindowBase value sizeLog s
  | .bar2Read offset n => Sys2Proof.Machine.execBar2Read offset n s
  | .bar2Write offset data ep => Sys2Proof.Machine.execBar2Write offset data ep s
  | .perstNAssert ns => Sys2Proof.Machine.execPerstNAssert ns s
  | .perstNDeassert => Sys2Proof.Machine.execPerstNDeassert s
  | .odRead => Sys2Proof.Machine.execOdRead s
  | .odWrite => Sys2Proof.Machine.execOdWrite s
  | .odSegRead => Sys2Proof.Machine.execOdSegRead s
  | .odSegWrite => Sys2Proof.Machine.execOdSegWrite s
  | .odSegAbort => Sys2Proof.Machine.execOdSegAbort s
  | .segTransferTimeout n => Sys2Proof.Machine.execSegTransferTimeout n s
  | .fwStageData => Sys2Proof.Machine.execFwStageData s
  | .fwActivate => Sys2Proof.Machine.execFwActivate s
  | .svnCommit => Sys2Proof.Machine.execSvnCommit s
  | .attestNonce => Sys2Proof.Machine.execAttestNonce s
  | .attestReport => Sys2Proof.Machine.execAttestReport s
  | .debugToken => Sys2Proof.Machine.execDebugToken s
  | .debugLock => Sys2Proof.Machine.execDebugLock s
  | .debugUnlockExpiry => Sys2Proof.Machine.execDebugUnlockExpiry s
  | .bistRequest => Sys2Proof.Machine.execBistRequest s
  | .bistForce => Sys2Proof.Machine.execBistForce s
  | .calRequest => Sys2Proof.Machine.execCalRequest s
  | .testMode => Sys2Proof.Machine.execTestMode s
  | .stackPpr => Sys2Proof.Machine.execStackPpr s
  | .bistUnit fails => Sys2Proof.Machine.execBistUnit fails s
  | .jaolpenOpen frame => Sys2Proof.Machine.execJaolpenOpen frame s
  | .jaolpenClose frame => Sys2Proof.Machine.execJaolpenClose frame s
  | .sessionIdleTimeout id => Sys2Proof.Machine.execSessionIdleTimeout id s
  | .neighborSolicitation => Sys2Proof.Machine.execNeighborSolicitation s
  | .echoRequest data => Sys2Proof.Machine.execEchoRequest data s
  | .plcaBeaconTimeout => Sys2Proof.Machine.execPlcaBeaconTimeout s
  | .fence isCell unit cause => Sys2Proof.Machine.execFence isCell unit cause s
  | .fenceNotice isCell unit target => Sys2Proof.Machine.execFenceNotice isCell unit target s
  | .fenceAck isCell unit target => Sys2Proof.Machine.execFenceAck isCell unit target s
  | .unfence block => Sys2Proof.Machine.execUnfence block s
  | .memberExclude member => Sys2Proof.Machine.execMemberExclude member s
  | .controlCoreWatchdog cluster => Sys2Proof.Machine.execControlCoreWatchdog cluster s
  | .schedulerWatchdog => Sys2Proof.Machine.execSchedulerWatchdog s
  | .schedulerResume => Sys2Proof.Machine.execSchedulerResume s
  | .schedulerLost => Sys2Proof.Machine.execSchedulerLost s
  | .powerWatchdog => Sys2Proof.Machine.execPowerWatchdog s
  | .powerCoreResume => Sys2Proof.Machine.execPowerCoreResume s
  | .securityWatchdog => Sys2Proof.Machine.execSecurityWatchdog s
  | .resetNAssert ns => Sys2Proof.Machine.execResetNAssert ns s
  | .boot straps fails bad => Sys2Proof.Machine.execBoot straps fails bad s
  | .processorReady => Sys2Proof.Machine.execProcessorReady s
  | .bootReadyTimeout => Sys2Proof.Machine.execBootReadyTimeout s
  | .pwrEnAssert ns => Sys2Proof.Machine.execPwrEnAssert ns s
  | .pwrEnDeassert ns => Sys2Proof.Machine.execPwrEnDeassert ns s
  | .pwrEnHoldoffExpiry => Sys2Proof.Machine.execPwrEnHoldoffExpiry s
  | .inputVoltageValid => Sys2Proof.Machine.execInputVoltageValid s
  | .inputVoltageTrip removed => Sys2Proof.Machine.execInputVoltageTrip removed s
  | .safeTrip temp power => Sys2Proof.Machine.execSafeTrip temp power s
  | .safeExit ms => Sys2Proof.Machine.execSafeExit ms s
  | .thermalShutdown => Sys2Proof.Machine.execThermalShutdown s
  | .powerLoopTick mv ma watts tj => Sys2Proof.Machine.execPowerLoopTick mv ma watts tj s
  | .droopStretch cluster cycles => Sys2Proof.Machine.execDroopStretch cluster cycles s
  | .stackTempReport stack temp limit => Sys2Proof.Machine.execStackTempReport stack temp limit s
  | .patrolScrub stack addr errs wrap => Sys2Proof.Machine.execPatrolScrub stack addr errs wrap s
  | .bistSliceStart cluster cell remain => Sys2Proof.Machine.execBistSliceStart cluster cell remain s
  | .bistSliceEnd cluster cell sigs fails => Sys2Proof.Machine.execBistSliceEnd cluster cell sigs fails s
  | .mbDoorbell tag request data => Sys2Proof.Machine.execMbDoorbell tag request data s
  | .jaolpenRequest frame => Sys2Proof.Machine.execJaolpenRequest frame s
  | .plcaBeaconReceived => Sys2Proof.Machine.execPlcaBeaconReceived s
  | .harnessLockRegained port => Sys2Proof.Machine.execHarnessLockRegained port s

end Sys2Proof.Machine
end

