-- ==== Sys2Proof/Safety.lean ====
section
/-! DEFINITION. What a safe step is, and the terms the claims are stated in. -/
namespace Sys2Proof.Machine

/-- Does an outcome go on to a next state? -/
def completes {σ φ ρ : Type} : Host.Outcome σ φ ρ → Prop
  | .next _ => True
  | _ => False

/-- A state whose next step completes. -/
def SafeStep (s : State) : Prop := completes (step s)

/-- Does one of the runs (first address, bytes) hold an address? -/
abbrev covered (rs : List Run) (a : Nat) : Prop := ∃ r ∈ rs, r.1 ≤ a ∧ a < r.1 + r.2

/-- Does an address lie where an armed snapshot stages its copies (R270)? -/
abbrev stagedAt (s : State) (a : Nat) : Prop :=
  ∃ p ∈ s.snaps, p.armed = true ∧ ∃ r ∈ p.runs, p.stage + r.2.2 ≤ a ∧ a < p.stage + r.2.2 + r.2.1

/-- Does an address share a 32-byte sector with one of the runs? -/
abbrev sharesSector (rs : List Run) (a : Nat) : Prop := ∃ r ∈ rs, 0 < r.2 ∧ r.1 / 32 ≤ a / 32 ∧ a / 32 ≤ (r.1 + r.2 - 1) / 32

/-- Where armed snapshots stage their copies (R270). -/
def stagings (s : State) : List Run := (s.snaps.filter (·.armed)).flatMap fun p => p.runs.map fun r => (p.stage + r.2.2, r.2.1)

/-- Does a byte come to what the channel itself holds, beneath a clean copy in the cache that was evicted (R312, R319)? -/
abbrev channelsOwn (s t : State) (a : Nat) : Prop :=
  ∃ e ∈ s.cache, ∃ l ∈ e.2, l.line = a / 256 ∧ ∃ u ∈ l.under, u.sector = a / 32 % 8 ∧ bit l.dirty u.sector = false ∧
    t.poisonAt a = u.poison ∧ t.byte a = if u.poison then 0 else BitVec.ofNat 8 (u.data.getD (a % 32) 0)

/-- Every byte outside the runs, and outside the staging of armed snapshots, reads as before; or its sector shares a byte with
them, is now poisoned and reads zero; or its copy in the cache was evicted, and it is what the channel holds (R296, R312,
R320). -/
def SameBytes (s t : State) (rs : List Run) : Prop :=
  ∀ a, ¬ covered rs a → ¬ stagedAt s a →
    t.byte a = s.byte a ∨ (t.poisonAt a = true ∧ t.byte a = 0 ∧ (sharesSector rs a ∨ sharesSector (stagings s) a)) ∨
      channelsOwn s t a

/-- A running piece whose unit's next descriptor meets no earlier access to what it reads and writes (R160). -/
abbrev UnitRuns (s : State) (c : Nat) (u : CellUnit) (p : Piece) (i : Item) : Prop :=
  c < cellCount ∧ s.pieceOf c = some p ∧ unitNext p u = some i ∧
    readsFree s p i.slot (itemReads s i.word) = true ∧ writesFree s p i.slot (itemWrites i.word) = true

/-- A descriptor's work is finished: what it stored and raised, and its item done. -/
def finishItem (r : State × Flags) (c slot : Nat) : State := itemDone (r.1.stageFlags c r.2) c slot

/-- How far the item of a list slot has come on a cell (armed streams apart). -/
def itemStage (s : State) (c slot : Nat) : Option Stage :=
  ((s.cell c).piece.bind fun p => p.items.find? fun i => i.slot == slot && i.stage != .armed).map (·.stage)

/-- The Harness port's next descriptor may run and carries an operation (R57). -/
abbrev HarnessRuns (s : State) (c : Nat) (p : Piece) (i : Item) (op : SyncOp) : Prop :=
  c < cellCount ∧ s.pieceOf c = some p ∧ unitNext p .harness = some i ∧ harnessBusy p = false ∧
    SyncOp.ofCode (fld i.word 29 25) = some op ∧ writesFree s p i.slot (itemWrites i.word) = true

/-- A value of n bytes, fewer than a sector, stored at an address reads back little-endian, or zero where its sector is
poisoned (R320); and outside the staging of armed snapshots and of what the cache partition holds, a sector of it is poisoned
only if it was before (R296), or if the value is. -/
def ReadsBack (s t : State) (a n v : Nat) (bad : Bool) : Prop :=
  ∀ k, k < n → t.byte (a + k) = (if t.poisonAt (a + k) then 0 else (leBytes n v).getD k 0) ∧
    (¬ sharesSector (stagings s) (a + k) → (∀ e ∈ s.cache, ∀ l ∈ e.2, l.line ≠ (a + k) / 256) → t.poisonAt (a + k) = (s.poisonAt (a + k) || bad))

/-- The result of a HARNESS_OP: its item is done, and where RESULT_EN is set the 8 bytes at RESULT_ADDR read back as the
value, if they lie in the scratchpad of the running cell. -/
def HarnessAnswers (s t : State) (c : Nat) (i : Item) (v : Nat) : Prop :=
  itemStage t c i.slot = some .done ∧
    (bit i.word 30 = true → inOwnSp c (fld i.word 73 32) 8 = true → ReadsBack s t (fld i.word 73 32) 8 v false)

/-- A waiting HARNESS_OP: its item waits, and the object keeps it behind those that came before. -/
def HarnessWaits (s t : State) (c : Nat) (p : Piece) (i : Item) (w : Wait) : Prop :=
  itemStage t c i.slot = some .waiting ∧
    (t.obj (fld i.word 24 8)).waiters =
      (s.obj (fld i.word 24 8)).waiters ++ [{ cell := c, unit := 16, piece := p.seq, wait := w }]

end Sys2Proof.Machine
end

