-- ==== Sys2Proof/WellFormed.lean ====
section
/-! DEFINITION. Well-formed commands: what a command names exists, and its operands have the widths and lengths the
spec gives them. -/
namespace Sys2Proof

/-- R2: a logical cell. -/
def wfCell (n : Nat) : Bool := decide (n < 8192)

/-- R2: a cluster. -/
def wfCluster (n : Nat) : Bool := decide (n < 128)

/-- R2, R329: a port, or the plane it belongs to. -/
def wfPort (n : Nat) : Bool := decide (n < 48)

/-- R400: a context. -/
def wfCtx (n : Nat) : Bool := decide (n < 1024)

/-- R55: a sync object. -/
def wfObj (n : Nat) : Bool := decide (n < 131072)

/-- R2: a memory stack. -/
def wfStack (n : Nat) : Bool := decide (n < 12)

/-- R363: a Tannery stream. -/
def wfStream (n : Nat) : Bool := decide (n < 64)

/-- R435: a ring pair. -/
def wfRing (n : Nat) : Bool := decide (n < 1026)

/-- R343: a MODULE_ID of 18 bits. -/
def wfMember (n : Nat) : Bool := decide (n < 262144)

/-- R548: a block that can be fenced: a cluster or one of six hub blocks. -/
def wfBlock (n : Nat) : Bool := decide (n < 128 ∨ 128 ≤ n ∧ n ≤ 133)

/-- R548: a unit that can be fenced: a cell or a block. -/
def wfUnit (isCell : Bool) (n : Nat) : Bool := if isCell then wfCell n else wfBlock n

/-- R316: symbol errors: places in a code word of 36 symbols, and differences of 8 bits other than 0. -/
def wfErrs (es : List (Nat × Nat)) : Bool := es.all fun e => decide (e.1 < 36 ∧ 0 < e.2 ∧ e.2 < 256)

/-- Symbol errors of the 8 sectors of a line, 36 places a sector. -/
def wfLineErrs (es : List (Nat × Nat)) : Bool := es.all fun e => decide (e.1 < 288 ∧ 0 < e.2 ∧ e.2 < 256)

/-- R545: failures a test finds: kind, unit, bank, row, bit. -/
def wfFails (fs : List (List Nat)) : Bool :=
  fs.all fun f => decide (f.length = 5 ∧ 1 ≤ f.getD 0 0 ∧ f.getD 0 0 ≤ 13 ∧ f.getD 1 0 < 65536)

/-- R530, R545: what a slice finds: failures, and sectors that its save found uncorrectable (kind 0: memory, offset). -/
def wfFinds (fs : List (List Nat)) : Bool :=
  fs.all fun f => if f.getD 0 0 = 0 then decide (f.length = 5 ∧ 2 ≤ f.getD 2 0 ∧ f.getD 2 0 ≤ 4) else wfFails [f]

/-- Is a command well formed? -/
def Instr.wf : Instr → Bool
  | .stitchEdge | .stitchInEdge _ | .stitchInTimeout | .rootHeartbeatSend | .standbyTakeover _ | .stitchLost
  | .stitchLostJobEnd | .stepOpen _ _ _ | .snapshot _ _ | .snapshotSend _ | .reduceScatter _ | .allReduce _
  | .allGather _ | .broadcast _ | .put _ | .fabricOpStart _ | .fabricOpComplete _ _ | .fabricTimeout _ | .streamOpen _
  | .streamClose _ | .jobOpen _ _ _ _ _ _ _ | .jobClose _ | .contextCreate _ _ | .contextDestroy _ | .patternLoad _ _
  | .patternTakeEffect | .class2Refuse _ | .run _ | .grid _ | .syncOpRead _ | .syncOpAdd _ | .syncOpSet _
  | .syncOpEventSet _ | .syncOpEventClear _ | .syncOpPost _ | .syncOpArrive _ | .hostCopyToDevice _ _
  | .hostCopyToHost _ _ | .pcieReadCompletion _ _ _ _ | .ringEntryTake | .bar2WindowBase _ _ | .bar2Read _ _
  | .bar2Write _ _ _ | .perstNAssert _ | .perstNDeassert | .odRead | .odWrite | .odSegRead | .odSegWrite | .odSegAbort
  | .segTransferTimeout _ | .fwStageData | .fwActivate | .svnCommit | .attestNonce | .attestReport | .debugToken
  | .debugLock | .debugUnlockExpiry | .bistRequest | .bistForce | .calRequest | .testMode | .stackPpr
  | .sessionIdleTimeout _ | .neighborSolicitation | .echoRequest _ | .plcaBeaconTimeout | .schedulerWatchdog
  | .schedulerResume | .schedulerLost | .powerWatchdog | .powerCoreResume | .securityWatchdog | .resetNAssert _
  | .processorReady | .bootReadyTimeout | .pwrEnAssert _ | .pwrEnDeassert _ | .pwrEnHoldoffExpiry | .inputVoltageValid
  | .inputVoltageTrip _ | .safeTrip _ _ | .safeExit _ | .thermalShutdown | .powerLoopTick _ _ _ _ | .plcaBeaconReceived => true
  | .stitchMarker plane sender _ _ => wfPort plane && wfMember sender
  | .rootHeartbeat sender => wfMember sender
  | .harnessFrame port cls _ _ _ => wfPort port && decide (cls < 5)
  | .pieceStart cell _ | .descriptorHandOut cell | .gridDescriptor cell | .matrix cell | .wgrad cell | .conv cell
  | .poolMax cell | .poolAvgFull cell | .poolAvgValid cell | .convDx cell | .convWgrad cell | .stemPack cell
  | .stemUnpack cell | .preload cell | .tileDrain cell | .descriptorRetire cell _ _ | .vectorCopy cell
  | .vectorAdd cell | .vectorSub cell | .vectorMul cell | .vectorDiv cell | .vectorMax cell | .vectorMin cell
  | .vectorFma cell | .vectorAbs cell | .vectorNeg cell | .vectorClamp cell | .vectorSign cell | .vectorSqrt cell
  | .vectorRsqrt cell | .vectorRecip cell | .vectorExp cell | .vectorLog cell | .vectorTanh cell | .vectorSigmoid cell
  | .vectorSilu cell | .vectorGeluTanh cell | .vectorRelu cell | .vectorSelect cell | .vectorCmpGt cell
  | .reductionSum cell | .reductionSumsq cell | .reductionSumabs cell | .reductionMax cell | .reductionMin cell
  | .reductionAbsmax cell | .reductionDot cell | .updateSgdMomentum cell | .updateAdamw cell | .updateLion cell
  | .normFwd cell | .normBwd cell | .softmaxFwd cell | .softmaxBwd cell | .statSave cell | .statLoad cell
  | .queueCtl cell | .transferIssue cell | .harnessOpRead cell | .harnessOpAdd cell | .harnessOpSet cell
  | .harnessOpWaitGe cell | .harnessOpEventSet cell | .harnessOpEventClear cell | .harnessOpEventWait cell
  | .harnessOpArrive cell | .harnessOpBarrierWait cell | .harnessOpArriveWait cell | .harnessOpPost cell
  | .harnessOpTake cell | .harnessOpTryTake cell | .pieceCommit cell | .tileCommit cell | .tileCommitReply cell
  | .cellFault cell | .slmAdd cell => wfCell cell
  | .moveCopy cell queue | .moveEncode cell queue | .moveDecode cell queue | .moveRegroup cell queue
  | .rearm cell queue => wfCell cell && decide (queue < 16)
  | .homeSliceAccess _ _ _ errs => wfLineErrs errs
  | .transferLand cell _ gen _ => wfCell cell && decide (gen < 256)
  | .syncWaitRelease cell unit _ => wfCell cell && decide (unit ≤ 16)
  | .farUpdate far _ => decide (far < 8192)
  | .tileClaim cell obj => wfCell cell && wfObj obj
  | .tileDone obj idx gen | .tileRevert obj idx gen | .tileRelease obj idx gen =>
    wfObj obj && decide (idx < 2 ^ 32) && decide (gen < 65536)
  | .leaseTimeout obj idx => wfObj obj && decide (idx < 2 ^ 32)
  | .gather ctx | .exchange ctx | .updatePlacement ctx _ _ | .voteCast ctx | .voteDeadline ctx
  | .outcomeReceive ctx _ _ _ _ _ | .stepOutcomeApply ctx | .stepGather ctx | .mirror ctx _ | .mirrorAck ctx _
  | .swapComplete ctx => wfCtx ctx
  | .voteReceive ctx sender _ _ _ _ _ _ _ | .fabricStartNotice ctx _ _ sender _ _ _ _ _ => wfCtx ctx && wfMember sender
  | .flitData port header payload poison _ _ =>
    wfPort port && decide (header < 2 ^ 256) && decide (payload.length = 480) && decide (poison < 2 ^ 15)
  | .flitReduce port header payload _ _ _ | .flitRetry port header payload _ _ | .flitNull port header payload _ _ =>
    wfPort port && decide (header < 2 ^ 256) && decide (payload.length = 480)
  | .residueResendRequest _ plane idx member => wfPort plane && decide (idx < 2 ^ 32) && wfMember member
  | .laserLightLoss receptacle _ => decide (receptacle < 4)
  | .portTraining port _ _ | .portTrainingTimeout port _ | .harnessLockLoss port | .portRetrain port
  | .harnessLockRegained port => wfPort port
  | .portLockLoss port member _ => wfPort port && wfMember member
  | .calibrationDone cluster unit => (if cluster then wfCluster unit else wfPort unit)
  | .batchAssemble stream | .sampleStart stream | .sampleOverBudget stream _ _ | .batchSeal stream _ => wfStream stream
  | .sampleDecoded stream _ _ reason _ _ _ => wfStream stream && decide (reason ≤ 3)
  | .scrubComplete fails _ | .bistUnit fails => wfFails fails
  | .sqTail ring _ | .cqHead ring _ | .ringEnable ring _ _ _ _ _ => wfRing ring
  | .jaolpenOpen frame | .jaolpenClose frame | .jaolpenRequest frame => decide (frame.length ≤ 8192)
  | .fence isCell unit _ => wfUnit isCell unit
  | .fenceNotice isCell unit target | .fenceAck isCell unit target => wfUnit isCell unit && wfBlock target
  | .unfence block => wfBlock block
  | .memberExclude member => wfMember member
  | .controlCoreWatchdog cluster | .droopStretch cluster _ => wfCluster cluster
  | .boot straps fails _ => decide (straps < 64) && wfFails fails
  | .stackTempReport stack _ _ => wfStack stack
  | .patrolScrub stack _ errs _ => wfStack stack && wfErrs errs
  | .bistSliceStart cluster cell _ => wfCluster cluster && decide (cell < 66)
  | .bistSliceEnd cluster cell _ fails => wfCluster cluster && decide (cell < 66) && wfFinds fails
  | .mbDoorbell tag request data => decide (tag < 256) && decide (request < 2 ^ 256) && decide (data.length ≤ 32768)

end Sys2Proof
end

