-- ==== Sys2Proof/Certificates/Slice0/Obligations.lean ====
section
/-! DEFINITION. The statements about the block, for the provers. -/

open Sys2Proof Sys2Proof.Machine

/-- A step runs the command at the front of the queue. With a command at the front of the queue, a step is exec of
that command on the state with the queue's rest. With an empty queue the block idles (the model's choice,
assumption 1). -/
def Obligations.StepTakesTheFrontCommand : Prop :=
  (∀ s : State, s.pending = [] → step s = .next s) ∧
  ∀ (s : State) (c : Instr) (rest : List Instr), s.pending = c :: rest → step s = exec c { s with pending := rest }

/-- Every step keeps the memory in its canonical form. From every state whose memory lists its addresses strictly
rising and no byte equal to what an unlisted address reads as, a step that answers a next state leaves such a
memory. -/
def Obligations.StepKeepsMemoryForm : Prop :=
  ∀ s t : State, Memory.wf s.mem = true → step s = .next t → Memory.wf t.mem = true

/-- The state after reset. After reset the memory is in canonical form and lists nothing, no command waits, the
stitch number is 0, every sync object is FREE with zero state, every logical cell is served by its own
physical cell and holds no piece, every ring is DISABLED with its pointers at 0 and its completion phase at 1,
no job owns the module, and the security core is in ROM with nothing unlocked. -/
def Obligations.ResetState : Prop :=
  Memory.wf State.reset.mem = true ∧ State.reset.pending = [] ∧ State.reset.stitch.count = 0 ∧
  (∀ i, State.reset.obj i = SyncObj.free) ∧ (∀ c, State.reset.cell c = Cell.init) ∧
  (∀ n, (State.reset.ring n).state = .disabled ∧ (State.reset.ring n).sqHead = 0 ∧ (State.reset.ring n).cqTail = 0 ∧
    (State.reset.ring n).cqPhase = true) ∧
  State.reset.job.state = .idle ∧ State.reset.secure.boot = 0 ∧ State.reset.secure.scope = 0

/-- No command changes the queue of waiting commands. Whatever a command does, the module resets and power losses
included, the commands that wait behind it stay as they are (the queue is the model's own state). -/
def Obligations.CommandsLeaveTheQueue : Prop :=
  ∀ (c : Instr) (s t : State), exec c s = .next t → t.pending = s.pending

/-- FUSED_SVN never decreases. Over every step, of whatever command and from whatever state, the fused security
version is at least what it was. -/
def Obligations.FusedVersionNeverFalls : Prop :=
  ∀ s t : State, step s = .next t → s.flash.fusedSvn ≤ t.flash.fusedSvn

/-- Only these commands change a Welt, and only these the stitch number. Of all commands only these can change a
pair of a Welt: a piece commit, a gather, the end of a step, the swaps at an edge, the reports a retirement or
a landing takes (a pair found bad is poisoned), a fence or a cell fault, a job close with its scrub (a forced
self-test closes the job), and a boot (it zeroes the memories), and what resets the module (a write of
FW_ACTIVATE does, as its own row or as an object-dictionary write). Of all commands only an edge and what
resets the module can change the stitch number. -/
def Obligations.WeltAndStitchNumberChangeOnlyHere : Prop :=
  (∀ (c : Instr) (s t : State), exec c s = .next t →
    match c with
    | .pieceCommit _ | .gather _ | .stepOutcomeApply _ | .fence _ _ _ | .cellFault _ | .controlCoreWatchdog _
    | .schedulerWatchdog | .powerWatchdog | .bistSliceEnd _ _ _ _ | .perstNAssert _ | .jobClose _ | .schedulerLost | .stitchLostJobEnd
    | .descriptorRetire _ _ _ | .transferLand _ _ _ _ | .memberExclude _ | .scrubComplete _ _ | .stitchEdge | .stitchInEdge _ | .securityWatchdog | .resetNAssert _ | .thermalShutdown
    | .inputVoltageTrip _ | .pwrEnDeassert _ | .fwActivate | .bistForce | .odWrite | .boot _ _ _ => True
    | _ => t.welt = s.welt) ∧
  (∀ (c : Instr) (s t : State), exec c s = .next t →
    match c with
    | .stitchEdge | .stitchInEdge _ | .securityWatchdog | .resetNAssert _ | .thermalShutdown
    | .inputVoltageTrip _ | .pwrEnDeassert _ | .fwActivate | .odWrite => True
    | _ => t.stitch.count = s.stitch.count)

/-- Every well-formed command runs in every state, and none is refused. A command whose operands name units that
exist, with the widths and lengths of the spec, answers a next state from every state; no command is ever
refused; and a block whose waiting commands are all well formed takes a step, which leaves it with one waiting
command fewer. -/
def Obligations.WellFormedCommandsComplete : Prop :=
  (∀ (c : Instr) (s : State), c.wf = true → ∃ t, exec c s = .next t) ∧
  (∀ (c : Instr) (s : State) (r : Refusal), exec c s ≠ .refused r) ∧
  (∀ (s : State), s.pending.all Instr.wf = true → ∃ t, step s = .next t ∧ t.pending = s.pending.tail)

/-- The elementwise operations of R168 by code. -/
def mapRows : List (Nat × (Nat → Instr)) :=
  [(0x00, .vectorCopy), (0x01, .vectorAdd), (0x02, .vectorSub), (0x03, .vectorMul), (0x04, .vectorDiv), (0x05, .vectorMax),
   (0x06, .vectorMin), (0x07, .vectorFma), (0x08, .vectorAbs), (0x09, .vectorNeg), (0x0A, .vectorClamp), (0x0B, .vectorSign),
   (0x0C, .vectorSqrt), (0x0D, .vectorRsqrt), (0x0E, .vectorRecip), (0x0F, .vectorExp), (0x10, .vectorLog), (0x11, .vectorTanh),
   (0x12, .vectorSigmoid), (0x13, .vectorSilu), (0x14, .vectorGeluTanh), (0x15, .vectorRelu), (0x16, .vectorSelect),
   (0x17, .vectorCmpGt)]

/-- The reductions of R170 by code. -/
def reductionRows : List (Nat × (Nat → Instr)) :=
  [(0, .reductionSum), (1, .reductionSumsq), (2, .reductionSumabs), (3, .reductionMax), (4, .reductionMin), (5, .reductionAbsmax),
   (6, .reductionDot)]

/-- The update rules of R174 by code. -/
def updateRows : List (Nat × (Nat → Instr)) := [(0, .updateSgdMomentum), (1, .updateAdamw), (2, .updateLion)]

/-- An elementwise descriptor runs and changes only its destination. For each of the 24 elementwise operations:
when the next descriptor of the vector engine of a running piece carries its code and meets no earlier access,
the command answers the state in which its rows are computed and stored, its flags staged with the piece and
its item done. No register, Welt, side memory, sync object, context, ring or other unit changes, every byte
outside its destination (and outside the staging of armed snapshots) reads as before, or zero where it shares
a sector that is now poisoned, and no tile and no transfer of any cell changes. -/
def Obligations.ElementwiseOperationsRun : Prop :=
  ∀ k ctor, (k, ctor) ∈ mapRows → ∀ (s : State) (c : Nat) (p : Piece) (i : Item),
    UnitRuns s c .vector p i → fld i.word 7 0 = 0x20 → fld i.word 39 32 = k →
    ∃ t, exec (ctor c) s = .next t ∧ t = finishItem (runMap s (VecD.ofWord i.word)) c i.slot ∧ itemStage t c i.slot = some .done ∧
      t = { s with mem := t.mem, poison := t.poison, od := t.od, cells := t.cells, snaps := t.snaps, cache := t.cache } ∧
      SameBytes s t (itemWrites i.word) ∧ ∀ d, (t.cell d).tiles = (s.cell d).tiles ∧ (t.cell d).xfers = (s.cell d).xfers

/-- A single FP32 element reads back as the rounded result. For each elementwise operation on one element with an
FP32 destination in the scratchpad of the running cell: after the command the four bytes at the destination
read as the result of the operation, rounded once to the destination format under the rounding control of the
descriptor; in a poisoned sector they read zero, and the sector is poisoned if it was before or the result is. -/
def Obligations.ElementwiseResultIsStored : Prop :=
  ∀ k ctor, (k, ctor) ∈ mapRows → ∀ (s : State) (c : Nat) (p : Piece) (i : Item),
    UnitRuns s c .vector p i → fld i.word 7 0 = 0x20 → fld i.word 39 32 = k →
    (VecD.ofWord i.word).rows = 1 → (VecD.ofWord i.word).cols = 1 → fmtOf (VecD.ofWord i.word).fmtD = .fp32 →
    inOwnSp c (VecD.ofWord i.word).dAddr 4 = true →
    ∃ t, exec (ctor c) s = .next t ∧
      ReadsBack s t (VecD.ofWord i.word).dAddr 4
        (convert .fp32 (ctlOf (VecD.ofWord i.word).numctl) (srBits (VecD.ofWord i.word).seed ((VecD.ofWord i.word).idx 0 0))
          (mapEl s (VecD.ofWord i.word) 0 0).1).1 (mapEl s (VecD.ofWord i.word) 0 0).2.2

/-- A reduction and an optimiser update run and change only their results. For each of the seven reductions, and
for the updates of SGD with momentum, AdamW and Lion: the command answers the state in which the results (one
per row or column; the new weights, moments and compute copies; an update whose reads or writes are held back
for a stack that only refreshes, or for a segment under test, waits) are stored, the sums and flags are staged
with the piece and the item is done. Nothing but the destination changes, byte for byte, and no tile or
transfer of any cell. -/
def Obligations.ReductionsAndUpdatesRun : Prop :=
  (∀ k ctor, (k, ctor) ∈ reductionRows → ∀ (s : State) (c : Nat) (p : Piece) (i : Item),
    UnitRuns s c .vector p i → fld i.word 7 0 = 0x21 → fld i.word 39 32 = k →
    ∃ t, exec (ctor c) s = .next t ∧ t = finishItem (runReduction s (VecD.ofWord i.word)) c i.slot ∧ itemStage t c i.slot = some .done ∧
      t = { s with mem := t.mem, poison := t.poison, od := t.od, cells := t.cells, snaps := t.snaps, cache := t.cache } ∧
      SameBytes s t (itemWrites i.word) ∧ ∀ d, (t.cell d).tiles = (s.cell d).tiles ∧ (t.cell d).xfers = (s.cell d).xfers) ∧
  (∀ k ctor, (k, ctor) ∈ updateRows → ∀ (s : State) (c : Nat) (p : Piece) (i : Item),
    UnitRuns s c .vector p i → fld i.word 7 0 = 0x22 → fld i.word 17 16 = k → updHeld s c = false →
    ∃ t, exec (ctor c) s = .next t ∧ t = finishItem (runUpdate s c (updOf s p i)) c i.slot ∧ itemStage t c i.slot = some .done ∧
      t = { s with free := t.free, mem := t.mem, poison := t.poison, od := t.od, cells := t.cells, snaps := t.snaps, cache := t.cache } ∧
      SameBytes s t (itemWrites i.word) ∧ ∀ d, (t.cell d).tiles = (s.cell d).tiles ∧ (t.cell d).xfers = (s.cell d).xfers)

/-- STEM_PACK and STEM_UNPACK run and change only their destination. Each answers the state in which every row is
packed or unpacked in order and its item is done; every byte outside its destination reads as before and no
other state changes. The destination format is not an MX format, which the check at the hand-out refuses
otherwise. -/
def Obligations.StemPackAndUnpackRun : Prop :=
  ∀ (s : State) (c : Nat) (p : Piece) (i : Item), UnitRuns s c .stem p i →
    (fmtOf (StemD.ofWord i.word).fmtD).isMx = false →
    (fld i.word 7 0 = 0x13 → ∃ t, exec (.stemPack c) s = .next t ∧
      t = finishItem ((List.range (StemD.ofWord i.word).m).foldl (packRow (StemD.ofWord i.word)) (s, 0)) c i.slot ∧
      t = { s with mem := t.mem, poison := t.poison, od := t.od, cells := t.cells, snaps := t.snaps, cache := t.cache } ∧ SameBytes s t (itemWrites i.word)) ∧
    (fld i.word 7 0 = 0x14 → ∃ t, exec (.stemUnpack c) s = .next t ∧
      t = finishItem ((List.range (StemD.ofWord i.word).m).foldl (unpackRow (StemD.ofWord i.word)) (s, 0)) c i.slot ∧
      t = { s with mem := t.mem, poison := t.poison, od := t.od, cells := t.cells, snaps := t.snaps, cache := t.cache } ∧ SameBytes s t (itemWrites i.word))

/-- Every Skiver descriptor runs. The six Skiver descriptors, when next in their engine and free of earlier
accesses, run to the end with their rows written, their records kept and their item done (of the backward
ones: while every record of their statistics source is valid). Only memory, the side memory, the cell and its
counters change, and every byte outside the rows and records they write reads as before. The output format is
not an MX format, which the check at the hand-out refuses otherwise. -/
def Obligations.SkiverDescriptorsRun : Prop :=
  ∀ (s : State) (c : Nat) (p : Piece) (i : Item), UnitRuns s c .skiver p i →
    let d := SkD.ofWord i.word
    (fmtOf d.fmtOut).isMx = false →
    let done (t : State) (r : State × Flags) : Prop := t = finishItem r c i.slot ∧ itemStage t c i.slot = some .done ∧
      t = { s with mem := t.mem, poison := t.poison, od := t.od, cells := t.cells, snaps := t.snaps, cache := t.cache, side := t.side, cellCtr := t.cellCtr } ∧
      SameBytes s t (itemWrites i.word)
    (fld i.word 7 0 = 0x30 → ∃ t, exec (.normFwd c) s = .next t ∧ done t (normFwd s c p d)) ∧
    (fld i.word 7 0 = 0x31 → ∀ r, normBwd s c p i.slot d = some r → ∃ t, exec (.normBwd c) s = .next t ∧ done t r) ∧
    (fld i.word 7 0 = 0x32 → ∃ t, exec (.softmaxFwd c) s = .next t ∧ done t (softFwd s c p d)) ∧
    (fld i.word 7 0 = 0x33 → ∀ r, softBwd s c p d = some r → ∃ t, exec (.softmaxBwd c) s = .next t ∧ done t r) ∧
    (fld i.word 7 0 = 0x34 → ∃ t, exec (.statSave c) s = .next t ∧ done t (statSave s c p d)) ∧
    (fld i.word 7 0 = 0x35 → ∃ t, exec (.statLoad c) s = .next t ∧ done t (statLoad s c p d))

/-- The array opcodes with what selects each (R124, R198, R208, R209, R224 to R226). -/
def arrayRows : List ((TileD → Bool) × (Nat → Instr)) :=
  [(fun d => d.op == 0x10, .matrix), (fun d => d.op == 0x15, .wgrad), (fun d => d.op == 0x11, .conv),
   (fun d => d.op == 0x12 && d.geo.poolOp == 1, .poolMax), (fun d => d.op == 0x12 && d.geo.poolOp == 2, .poolAvgFull),
   (fun d => d.op == 0x12 && d.geo.poolOp == 3, .poolAvgValid), (fun d => d.op == 0x16, .convDx), (fun d => d.op == 0x17, .convWgrad)]

/-- An array descriptor accumulates its passes into its tile. For MATRIX, WGRAD, CONV, the three pools, CONV_DX
and CONV_WGRAD: when the tile can be opened or continued and its reads are free, the command answers a state
in which the tile holds the entries that its passes accumulate, its chain count has grown by 32 for each pass,
and its span is DRAINING exactly when the descriptor drains (else as before). No byte of memory and no other
cell changes; beside the cell only its counters do. -/
def Obligations.ArrayDescriptorsRun : Prop :=
  ∀ ctor ∈ arrayRows, ∀ (s : State) (c : Nat) (p : Piece) (i : Item) (e : Tile × Flags),
    c < cellCount → s.pieceOf c = some p → unitNext p .array = some i → ctor.1 (TileD.ofWord i.word) = true →
    arrayReady s c p i (TileD.ofWord i.word) = true → startTile s c p i (TileD.ofWord i.word) = some e →
    ∃ t, exec (ctor.2 c) s = .next t ∧ t = { s with cells := t.cells, cellCtr := t.cellCtr } ∧
      (∃ x ∈ (t.cell c).tiles, x.group = e.1.group ∧ x.slot = i.slot ∧
        x.chain = e.1.chain + 32 * (TileD.ofWord i.word).chunkCount * (TileD.ofWord i.word).passesPer ∧
        x.entries = (runEntries s (TileD.ofWord i.word) e.1.chain e.1.entries).1 ∧
        x.span = (if (TileD.ofWord i.word).drain then .draining else e.1.span)) ∧
      (∀ d, d ≠ c → t.cell d = s.cell d) ∧ t.mem = s.mem

/-- PRELOAD opens a tile, a drain frees it, an SLM add lands. PRELOAD with a free span answers a state with a new
OPEN tile of the preloaded entries and a chain count of 0; behind a queued drain it waits. The drain at the
head of the queue writes its rows and frees its span, and spans that wait for a place in the queue of four
take the free ones; of a gradient tile it hands the adds of its entries to the queue of the cell, with its
generations. The oldest SLM add waits while its cell or its slice does not serve it; else it is added to its
pair in the slice and leaves the queue; no other byte changes. -/
def Obligations.PreloadDrainAndSlmAddRun : Prop :=
  (∀ (s : State) (c : Nat) (p : Piece) (i : Item), c < cellCount → s.pieceOf c = some p → unitNext p .array = some i →
    i.stage = .queued → (TileD.ofWord i.word).chainIn = false → (TileD.ofWord i.word).preKind ≠ 0 →
    spanFree (s.cell c) (TileD.ofWord i.word) = true → readsFree s p i.slot (preRuns (TileD.ofWord i.word)) = true →
    ((s.cell c).drainQ ≠ [] → exec (.preload c) s = .next s) ∧
    ((s.cell c).drainQ = [] → ∃ t, exec (.preload c) s = .next t ∧ t = { s with cells := t.cells } ∧ (∀ d, d ≠ c → t.cell d = s.cell d) ∧
      newTile p i (TileD.ofWord i.word) (preEntries s (TileD.ofWord i.word)).1 ∈ (t.cell c).tiles)) ∧
  (∀ (s : State) (c : Nat) (p : Piece) (g : Nat) (rest : List Nat) (e : Tile), c < cellCount → s.pieceOf c = some p →
    (s.cell c).drainQ = g :: rest → (s.cell c).tiles.find? (fun t => t.group == g) = some e → 
    s.cellDown c = false → accHeld s c e.group e.groups = false →
    (e.piece = 0 → exec (.tileDrain c) s = .next (s.updCell c fun x =>
      refillDrains { x with drainQ := rest, slmAdds := x.slmAdds ++ slmAddsOf e e.ctx (s.reqGen c) })) ∧
    (e.piece ≠ 0 → readsFree s p e.slot (drainReads s (TileD.ofWord e.word)) = true → writesFree s p e.slot (drainWrites (TileD.ofWord e.word)) = true →
    ∃ t, exec (.tileDrain c) s = .next t ∧
      t = { s with mem := t.mem, poison := t.poison, od := t.od, cells := t.cells, snaps := t.snaps, cache := t.cache } ∧
      t.mem = (drainTile s (TileD.ofWord e.word) e.entries).1.mem ∧ (t.cell c).drainQ = rest ++ (s.cell c).drainWait.take (4 - rest.length) ∧
      (∀ x ∈ (t.cell c).tiles, x.group ≠ g))) ∧
  (∀ (s : State) (c : Nat) (a : SlmAdd) (rest : List SlmAdd), c < cellCount → (s.cell c).slmAdds = a :: rest →
    (s.reqServed c a.own (homeOf s a.addr) = false → exec (.slmAdd c) s = .next s) ∧
    (s.reqServed c a.own (homeOf s a.addr) = true → ∃ t, exec (.slmAdd c) s = .next t ∧
      t = { s with mem := t.mem, poison := t.poison, od := t.od, cells := t.cells, snaps := t.snaps, cache := t.cache, cellFlags := t.cellFlags } ∧
      (t.cell c).slmAdds = rest ∧ t.mem = (addStored s a.addr a.val a.poison).1.mem ∧ SameBytes s t [(a.addr, 8)]))

/-- The Harness operations that take effect at the piece commit (R57). -/
def stagedOps : List (SyncOp × (Nat → Instr)) :=
  [(.add, .harnessOpAdd), (.set, .harnessOpSet), (.eventSet, .harnessOpEventSet), (.eventClear, .harnessOpEventClear),
   (.arrive, .harnessOpArrive), (.post, .harnessOpPost)]

/-- The Harness operations that wait for what their operand names (R57). -/
def waitOps : List (SyncOp × (Nat → Instr) × (Nat → Wait)) :=
  [(.waitGe, .harnessOpWaitGe, fun v => .ge (v % 2 ^ 48)), (.eventWait, .harnessOpEventWait, fun _ => .event),
   (.barrierWait, .harnessOpBarrierWait, fun v => .phase (bit v 0))]

/-- ADD, SET, EVENT_SET, EVENT_CLEAR, ARRIVE and POST are staged until the commit. Each answers a state in which
the operation stands at the end of the piece's staged operations and its item is done. No sync object changes,
and nothing else of any cell or of the module. -/
def Obligations.StagedHarnessOpsWaitForTheCommit : Prop :=
  ∀ op ctor, (op, ctor) ∈ stagedOps → ∀ (s : State) (c : Nat) (p : Piece) (i : Item), HarnessRuns s c p i op →
    ∃ t q, exec (ctor c) s = .next t ∧ t = { s with cells := t.cells } ∧ (∀ d, d ≠ c → t.cell d = s.cell d) ∧
      t.cell c = { s.cell c with piece := some q } ∧ itemStage t c i.slot = some .done ∧
      q = { p with items := q.items, staged := { p.staged with
        ops := p.staged.ops ++ [{ obj := fld i.word 24 8, op := op.code, operand := fld i.word 191 128 }] } }

/-- READ, TRY_TAKE and TAKE answer at once. READ answers the state word of the object and changes no object.
TRY_TAKE answers 1 and takes a unit of a semaphore that has one, else 0 and takes none. TAKE of a unit that is
there, with no earlier taker waiting, takes it and answers the state word after the take. No other object
changes, and no byte but the result. -/
def Obligations.HarnessReadsAndTakes : Prop :=
  ∀ (s : State) (c : Nat) (p : Piece) (i : Item),
    (HarnessRuns s c p i .read → ∃ t, exec (.harnessOpRead c) s = .next t ∧
      t = { s with mem := t.mem, poison := t.poison, od := t.od, cells := t.cells, snaps := t.snaps, cache := t.cache } ∧
      HarnessAnswers s t c i (s.obj (fld i.word 24 8)).stateWord ∧ SameBytes s t (itemWrites i.word)) ∧
    (HarnessRuns s c p i .tryTake → ∃ t, exec (.harnessOpTryTake c) s = .next t ∧
      t = { s with mem := t.mem, poison := t.poison, od := t.od, cells := t.cells, snaps := t.snaps, cache := t.cache, sync := t.sync } ∧
      HarnessAnswers s t c i (if 0 < (s.obj (fld i.word 24 8)).value then 1 else 0) ∧ SameBytes s t (itemWrites i.word) ∧
      t.obj (fld i.word 24 8) = (if 0 < (s.obj (fld i.word 24 8)).value then (s.obj (fld i.word 24 8)).apply .take 0
        else s.obj (fld i.word 24 8)) ∧
      ∀ k, k ≠ fld i.word 24 8 → t.obj k = s.obj k) ∧
    (HarnessRuns s c p i .take → 0 < (s.obj (fld i.word 24 8)).value →
      (∀ w ∈ (s.obj (fld i.word 24 8)).waiters, w.wait ≠ .take) → ∃ t, exec (.harnessOpTake c) s = .next t ∧
      t = { s with mem := t.mem, poison := t.poison, od := t.od, cells := t.cells, snaps := t.snaps, cache := t.cache, sync := t.sync } ∧
      HarnessAnswers s t c i ((s.obj (fld i.word 24 8)).apply .take 0).stateWord ∧ SameBytes s t (itemWrites i.word) ∧
      t.obj (fld i.word 24 8) = (s.obj (fld i.word 24 8)).apply .take 0 ∧ ∀ k, k ≠ fld i.word 24 8 → t.obj k = s.obj k)

/-- Waits answer when their condition holds and wait otherwise. WAIT_GE, EVENT_WAIT and BARRIER_WAIT answer the
state word at once where the object already meets them, and otherwise join its waiters, in order, with the
item waiting. A TAKE that finds no unit, or others before it, waits. An ARRIVE_WAIT that is not the last of
its phase arrives once, is recorded by context and PIECE_ID, and waits for the phase to end. -/
def Obligations.HarnessWaitsJoinOrAnswer : Prop :=
  (∀ op ctor w, (op, ctor, w) ∈ waitOps → ∀ (s : State) (c : Nat) (p : Piece) (i : Item), HarnessRuns s c p i op →
    ∃ t, exec (ctor c) s = .next t ∧
      t = { s with mem := t.mem, poison := t.poison, od := t.od, cells := t.cells, snaps := t.snaps, cache := t.cache, sync := t.sync } ∧
      (if (s.obj (fld i.word 24 8)).holds (w (fld i.word 191 128)) then
        t.sync = s.sync ∧ HarnessAnswers s t c i (s.obj (fld i.word 24 8)).stateWord
       else t.mem = s.mem ∧ HarnessWaits s t c p i (w (fld i.word 191 128)))) ∧
  (∀ (s : State) (c : Nat) (p : Piece) (i : Item), HarnessRuns s c p i .take →
    ((s.obj (fld i.word 24 8)).value = 0 ∨ ∃ w ∈ (s.obj (fld i.word 24 8)).waiters, w.wait = .take) →
    ∃ t, exec (.harnessOpTake c) s = .next t ∧ t = { s with cells := t.cells, sync := t.sync } ∧ HarnessWaits s t c p i .take) ∧
  (∀ (s : State) (c : Nat) (p : Piece) (i : Item), HarnessRuns s c p i .arriveWait →
    (s.obj (fld i.word 24 8)).kind = .barrier → (s.obj (fld i.word 24 8)).far = false →
    (s.obj (fld i.word 24 8)).arrived.contains (pdCtx p.desc, pdId p.desc) = false →
    (s.obj (fld i.word 24 8)).value + 1 < (s.obj (fld i.word 24 8)).param → (s.obj (fld i.word 24 8)).waiters = [] →
    ∃ t, exec (.harnessOpArriveWait c) s = .next t ∧ t = { s with cells := t.cells, sync := t.sync } ∧
      HarnessWaits s t c p i (.phase (s.obj (fld i.word 24 8)).phase) ∧
      (t.obj (fld i.word 24 8)).value = (s.obj (fld i.word 24 8)).value + 1 ∧
      (t.obj (fld i.word 24 8)).arrived = (s.obj (fld i.word 24 8)).arrived ++ [(pdCtx p.desc, pdId p.desc)])

/-- A wait is released, a far object is updated, a frame is delivered once. The release of a waiting unit whose
reply has come counts the cycles, once for each distinct first cause that a unit of the cell other than its
stream queues waits for (SYNC_WAIT among them where the Harness port waits), and lets it go on. An update of a
far object adds to the mirror of a counter and sets that of an event, and no other object changes, but the
low-water event of a stream that an addition to its counter may set (R383). A Harness frame of one of the five
kinds, on a port whose Harness wavelength is in service, is delivered once when it has the expected sequence
number of its hop and kind; a repeated one is dropped and a later or damaged one is asked for again. -/
def Obligations.WaitReleaseFarUpdateAndFrames : Prop :=
  (∀ (s : State) (c u n : Nat) (p : Piece) (i : Item), c < cellCount → s.pieceOf c = some p →
    p.items.find? (fun i => decide (unitOf i.word = waitUnit u ∧ i.stage = .waiting) && i.reply.isSome) = some i →
    ∃ t, exec (.syncWaitRelease c u n) s = .next t ∧
      t = { s with mem := t.mem, poison := t.poison, od := t.od, cells := t.cells, snaps := t.snaps, cache := t.cache, cellCtr := t.cellCtr } ∧
      (∀ k, k < 8 → t.cellGet c k = if ((unitCauses s c p).filterMap firstCause).contains k then min (2 ^ 48 - 1) (s.cellGet c k + n)
        else s.cellGet c k) ∧
      (u = 16 → t.cellGet c 4 = min (2 ^ 48 - 1) (s.cellGet c 4 + n)) ∧
      (u = 16 → HarnessAnswers s t c i (i.reply.getD 0)) ∧
      (u ≠ 16 → ∃ g, itemStage t c i.slot = some g ∧ g ≠ .waiting)) ∧
  (∀ (s : State) (f n j : Nat), farObj s f = some j → (∀ w ∈ (s.obj j).waiters, w.wait ≠ .take) → ∃ t, exec (.farUpdate f n) s = .next t ∧
      t = { s with od := t.od, cells := t.cells, sync := t.sync, streams := t.streams, outbox := t.outbox } ∧
      (∀ k, k ≠ j → (∀ e ∈ s.streams, e.2.lowEvent ≠ k) → t.obj k = s.obj k) ∧
      ((∀ e ∈ s.streams, e.2.lowEvent ≠ j) → (s.obj j).kind = .counter → (t.obj j).value = min (2 ^ 48 - 1) ((s.obj j).value + n)) ∧
      ((∀ e ∈ s.streams, e.2.lowEvent ≠ j) → (s.obj j).kind = .event → (t.obj j).value = if n = 0 then (s.obj j).value else 1)) ∧
  (∀ (s : State) (port cls seq payload : Nat) (ok : Bool), port < 48 → 5 ≤ cls ∨ (s.port port).harness = false →
    exec (.harnessFrame port cls seq ok payload) s = .next s) ∧
  (∀ (s : State) (port cls seq payload : Nat), port < 48 → cls < 5 → (s.port port).harness = true →
    let k := port * 8 + cls
    let due := Sp.get 0 s.frameSeq k
    (seq = due → ∃ t, exec (.harnessFrame port cls seq true payload) s = .next t ∧
      t = { s with frameSeq := t.frameSeq, outbox := s.outbox ++ [.frame port cls payload] } ∧ Sp.get 0 t.frameSeq k = due + 1 ∧
      ∀ j, j ≠ k → Sp.get 0 t.frameSeq j = Sp.get 0 s.frameSeq j) ∧
    (seq < due → exec (.harnessFrame port cls seq true payload) s = .next s) ∧
    (∀ ok, ok = false ∨ due < seq → exec (.harnessFrame port cls seq ok payload) s =
      .next { s with outbox := s.outbox ++ [.frameRetry port cls due] }))

/-- The host's operations on sync objects (R444), by code. -/
def hostOps : List (Nat × (Nat → Instr)) :=
  [(0, .syncOpRead), (1, .syncOpAdd), (2, .syncOpSet), (3, .syncOpEventSet), (4, .syncOpEventClear), (5, .syncOpPost), (6, .syncOpArrive)]

/-- A SYNC_OP of the host that no check refuses is carried out and completes. For READ, ADD, SET, EVENT_SET,
EVENT_CLEAR, POST and ARRIVE, where R56 lists the operation for the kind of the object: the command answers a
state in which the operation has acted on its object (READ changes none), no other object has changed (but the
low-water event of a Tannery stream that an ADD to its counter may set, R383), and the command has completed
and is no longer held. -/
def Obligations.HostSyncOpsComplete : Prop :=
  ∀ code ctor, (code, ctor) ∈ hostOps → ∀ (s : State) (id : Nat) (c : Cmd) (op : SyncOp), s.cmd? id = some c → c.opcode = 0x17 →
    c.stage = .taken → fld c.entry 99 96 = code → hostOp code = some op →
    (s.obj (fld c.entry 80 64)).refuses c.ctx op (fld c.entry 191 128) = none →
    op.listed (s.obj (fld c.entry 80 64)).kind = true →
    ∃ t, exec (ctor id) s = .next t ∧ s.cmds.length = t.cmds.length + (s.cmds.filter fun e => e.id == id).length ∧ t.cmd? id = none ∧
      t = { s with mem := t.mem, poison := t.poison, od := t.od, cells := t.cells, snaps := t.snaps, cache := t.cache, sync := t.sync, ctxs := t.ctxs,
                   rings := t.rings, cmds := t.cmds, streams := t.streams, outbox := t.outbox } ∧
      (op = .read → t.sync = s.sync) ∧
      (∀ k, k ≠ fld c.entry 80 64 → (op = .add → ∀ e ∈ s.streams, e.2.lowEvent ≠ k) → t.obj k = s.obj k) ∧
      (op = .add → (∀ e ∈ s.streams, e.2.lowEvent ≠ fld c.entry 80 64) → (s.obj (fld c.entry 80 64)).kind = .counter → (s.obj (fld c.entry 80 64)).waiters = [] →
        t.obj (fld c.entry 80 64) = (s.obj (fld c.entry 80 64)).apply .add (fld c.entry 191 128))

/-- The cell may take a piece of a resident context that the pattern gives it to (R40). -/
abbrev MayPlace (s : State) (c ctx : Nat) (k : Ctx) : Prop :=
  s.power.rails = true ∧ c < cellCount ∧ cellMayTake s c = true ∧ givenTo s c = some ctx ∧ s.ctx? ctx = some k ∧ k.resident = true

/-- A piece at its start: nothing handed out, nothing staged (R41, R159). -/
def FreshPiece (s : State) (q : Piece) : Prop :=
  q.seq = s.serial + 1 ∧ q.next = 0 ∧ q.staged = Staged.empty ∧ q.units = [] ∧ q.runOn = 0 ∧ q.phase = .running ∧
    q.gridDone = false ∧ q.targetReset = false ∧ q.readPoison = false

/-- R139: the lease of a piece that starts, if it has one, notes the run; no other sync object changes. -/
def RunNoted (s t : State) (c : Nat) : Option LeaseRef → Prop
  | none => t.sync = s.sync
  | some l => t.obj l.obj = updLease (s.obj l.obj) l (fun y => { y with runs := y.runs ++ [(c, s.serial + 1)] }) ∧
      ∀ j, j ≠ l.obj → t.obj j = s.obj j

/-- R123, R137: a piece with more slots of its list fetched: those before stay, each new one is the 64 bytes of its place,
and none lies more than 32 beyond the oldest unretired. -/
def Fetches (s : State) (p q : Piece) : Prop :=
  q.raw.take p.raw.length = p.raw ∧ ∀ j, p.raw.length ≤ j → j < q.raw.length →
    q.raw[j]? = some (s.rd (pdList p.desc + 64 * j) 64) ∧ j ≤ oldestSlot q + 32 ∧ j < pdLen p.desc

/-- A piece starts on a free cell the pattern gives to its context. On a free cell given to a resident context,
the first such in logical order that would take it, within the guard band and with a budget that fits, the
piece at the head of the queue, the claimed grid tile, or the update piece starts: the cell holds it with a
new serial number, nothing handed out and nothing staged, its place leaves the queue, a lease notes the run
(its stores hold the index back, R144), and no other cell changes. -/
def Obligations.PieceStarts : Prop :=
  ∀ (s : State) (c x ctx : Nat) (k : Ctx), MayPlace s c ctx k →
    (∀ cmd no d lease again, (s.cell c).claim = none → headFor (s.cell c) k = some (.piece cmd no d lease again) →
      mayStart s x (pdBudget d) = true → revertPending s lease = false → firstFree s ctx k c (.piece cmd no d lease again) = true →
      pieceOk s ctx d lease.isSome = true →
      ∃ t q, exec (.pieceStart c x) s = .next t ∧
        t = { s with serial := s.serial + 1, offset := x, cells := t.cells, ctxs := t.ctxs, cmds := t.cmds, sync := t.sync } ∧
        RunNoted s t c lease ∧ (t.cell c).piece = some q ∧ FreshPiece s q ∧ q.cmd = cmd ∧ q.desc = d ∧ q.lease = lease ∧ q.items = [] ∧ (t.cell c).slack = 0 ∧
        (t.ctx? ctx).map (·.queue) = some (k.queue.erase (.piece cmd no d lease again)) ∧
        ∀ e, e ≠ c → t.cell e = s.cell e) ∧
    (∀ m, (s.cell c).claim = some m → mayStart s x (pdBudget m.desc) = true → pieceOk s ctx m.desc true = true →
      ∃ t q, exec (.pieceStart c x) s = .next t ∧
        t = { s with serial := s.serial + 1, offset := x, cells := t.cells, cmds := t.cmds, sync := t.sync } ∧
        RunNoted s t c (some m.lease) ∧ (t.cell c).piece = some q ∧ FreshPiece s q ∧ q.cmd = m.cmd ∧ q.desc = m.desc ∧ q.lease = some m.lease ∧ q.items = [] ∧
        (t.cell c).claim = none ∧ ∀ e, e ≠ c → t.cell e = s.cell e) ∧
    (∀ cmd sh first n b again, (s.cell c).claim = none → headFor (s.cell c) k = some (.update cmd sh first n b again) →
      mayStart s x b = true → k.step.isSome = true → firstFree s ctx k c (.update cmd sh first n b again) = true →
      ∃ t q, exec (.pieceStart c x) s = .next t ∧
        t = { s with serial := s.serial + 1, offset := x, cells := t.cells, ctxs := t.ctxs } ∧
        (t.cell c).piece = some q ∧ FreshPiece s q ∧ q.cmd = cmd ∧ q.upd = some (sh, first, n) ∧ q.items.length = 1 ∧
        ∀ e, e ≠ c → t.cell e = s.cell e)

/-- Descriptors are handed out, queue limits set, and a grid descriptor applied. A descriptor at the head of the
list that passes its checks joins the items of the piece. A QUEUE_CTL sets the outstanding limits of the
queues its mask names (in NATIVE mode; in PLEDUN mode it has no effect) and no others. A GRID descriptor that
is in order patches the list for the tile and lets the piece go on after it. Slots are fetched up to 32 beyond
the oldest unretired one. Nothing else of the cell or module changes. -/
def Obligations.DescriptorsAreHandedOut : Prop :=
  ∀ (s : State) (c : Nat) (p : Piece), c < cellCount → s.pieceOf c = some p →
    (mayHandOut p = true → inWindow p (p.next + headSlots p - 1) = true → headStatus s c p = none → fld (headWord p) 7 0 ≠ 0x41 →
      ∃ t, exec (.descriptorHandOut c) s = .next t ∧ t = { s with cells := t.cells } ∧ (∀ e, e ≠ c → t.cell e = s.cell e) ∧
        t.cell c = { s.cell c with piece := some (handedOut s p) }) ∧
    (mayHandOut p = true → inWindow p p.next = true → fld (headWord p) 7 0 = 0x41 → headStatus s c p = none →
      p.next + 1 < pdLen p.desc →
      ∃ t, exec (.queueCtl c) s = .next t ∧ t = { s with cells := t.cells } ∧ (∀ e, e ≠ c → t.cell e = s.cell e) ∧
        ∃ q, t.cell c = { s.cell c with piece := some q } ∧
          q = { p with next := p.next + 1, limits := q.limits, raw := q.raw, badSlots := q.badSlots, slots := q.slots } ∧
          Fetches s p q ∧ q.limits.length = p.limits.length ∧
          ∀ j, j < p.limits.length → q.limits[j]? =
            some (if bit (fld (headWord p) 23 8) j ∧ s.odGet 0x5010 0 = 0 then fld (headWord p) 30 24 else p.limits.getD j 0)) ∧
    (pdTileEn p.desc = true → p.gridDone = false → p.phase = .running → fld (joinSlots (p.slots.take 4)) 7 0 = 0x50 →
      4 ≤ pdLen p.desc → (∀ i ∈ p.badSlots, 4 ≤ i) → gridOk s p (joinSlots (p.slots.take 4)) = true →
      ∃ t q, exec (.gridDescriptor c) s = .next t ∧ t = { s with cells := t.cells } ∧ (∀ e, e ≠ c → t.cell e = s.cell e) ∧
        t.cell c = { s.cell c with piece := some q } ∧
        q = { p with gridDone := true, next := 4, raw := q.raw, badSlots := q.badSlots, slots := q.slots } ∧
        Fetches s p q ∧ (p.upd = none → q.slots = patchSlots q))

/-- A finished descriptor retires; the last one of a grid tile asks for its commit. The item of a finished
descriptor leaves the piece (or stays armed, for a persistent stream), its signal is staged, and further slots
of the list are fetched. The cycles in which units of the cell waited are counted once for each distinct first
cause; errors of the accumulator file, the Welt and the side memory that the cell reports come first. When the
piece is then finished and holds a lease, the cell sends COMMIT; a piece without one waits for its own commit.
No other cell changes. -/
def Obligations.DescriptorRetires : Prop :=
  (∀ (s : State) (c slot : Nat) (reports : List (Nat × Nat)) (p : Piece) (i : Item), c < cellCount → s.pieceOf c = some p →
    p.phase = .running → p.items.find? (fun i => i.slot == slot && i.finished) = some i →
    ((s.cell c).tiles.any fun t => decide (t.piece = p.seq ∧ t.span = .opened)) = false →
    ∃ t q, exec (.descriptorRetire c slot reports) s = .next t ∧
      t = { takeReports s c reports with cells := t.cells, outbox := t.outbox } ∧ (∀ e, e ≠ c → t.cell e = s.cell e) ∧
      t.cell c = { (takeReports s c reports).cell c with piece := some q } ∧
      q = { p with items := q.items, phase := q.phase, staged := { p.staged with ops := p.staged.ops ++ signalOf i },
                   raw := q.raw, badSlots := q.badSlots, slots := q.slots } ∧ Fetches s p q ∧
      (fld i.word 7 0 = 0x40 ∧ (MoveD.ofWord i.word).persist = true → q.items.length = p.items.length) ∧
      (fld i.word 7 0 ≠ 0x40 ∨ (MoveD.ofWord i.word).persist = false → q.items = p.items.erase i) ∧
      (q.finished = true → ∀ l, p.lease = some l → q.phase = .sent ∧ t.outbox = (s.send (.tileCommit c (s.reqGen c) l)).outbox) ∧
      (q.finished = false ∨ p.lease = none → q.phase = .running ∧ t.outbox = s.outbox)) ∧
  (∀ (s : State) (c n : Nat) (p : Piece), s.pieceOf c = some p →
    takeReports s c [(0, n)] = { s with cellCtr := (takeReports s c [(0, n)]).cellCtr } ∧
    ∀ k, k < 8 → (takeReports s c [(0, n)]).cellGet c k =
      if ((unitCauses s c p).filterMap firstCause).contains k then min (2 ^ 48 - 1) (s.cellGet c k + n) else s.cellGet c k) ∧
  (∀ (s : State) (c : Nat) (reports : List (Nat × Nat)), ∃ u, takeReports s c reports = u ∧
    u = { s with od := u.od, cells := u.cells, cellCtr := u.cellCtr, welt := u.welt, side := u.side, rowCorrections := u.rowCorrections,
                 flash := u.flash } ∧
    (∀ e, e ≠ c → u.cell e = s.cell e) ∧ u.cell c = { s.cell c with tiles := (u.cell c).tiles } ∧
    (u.cell c).tiles.length = (s.cell c).tiles.length)

/-- A piece commit releases what is staged and frees the cell. The commit of a finished piece (for a grid tile,
one whose COMMIT was accepted) frees its cell, keeps the slack it declares, frees its spans but for those that
wait for their SLM adds, ORs its staged flags into the word of the cell and of no other cell, and tells the
tile counter of a grid tile that it is done. A piece that staged nothing for the Welt leaves the Welt as it
was. -/
def Obligations.PieceCommits : Prop :=
  ∀ (s : State) (c : Nat) (p : Piece), c < cellCount → s.pieceOf c = some p → p.committing = true →
    ∃ t, exec (.pieceCommit c) s = .next t ∧ t = commitPiece s c p ∧
      t = { s with mem := t.mem, poison := t.poison, cache := t.cache, od := t.od, cells := t.cells, cellFlags := t.cellFlags, welt := t.welt, side := t.side,
                   sync := t.sync, ctxs := t.ctxs, rings := t.rings, cmds := t.cmds, snaps := t.snaps, streams := t.streams,
                   outbox := t.outbox } ∧
      (t.cell c).piece = none ∧ (t.cell c).slack = pdSlack p.desc ∧
      (∀ x ∈ (t.cell c).tiles, x.piece ≠ p.seq ∨ x.piece = 0) ∧
      Sp.get 0 t.cellFlags c &&& p.staged.flags = p.staged.flags ∧ (∀ e, e ≠ c → Sp.get 0 t.cellFlags e = Sp.get 0 s.cellFlags e) ∧
      (∀ l, p.lease = some l → .tileDone l ∈ t.outbox) ∧
      (p.staged.welt = [] → (∀ x ∈ (s.cell c).tiles, x.home ≠ .welt) → t.welt = s.welt)

/-- A tile is claimed, its COMMIT judged at the home node, and the answer taken. A free cell, the first in logical
order that would take it, whose context has a grid at the head of its queue claims the next tile with a lease,
where a start still fits. COMMIT of a lease that is current and not final makes it final and is accepted,
while the home node serves the cell that sent it (R549); any other is refused. A piece whose COMMIT was
accepted may commit; one refused ends, with nothing of it committed. The COMMIT of a piece that has been
aborted meanwhile is judged all the same, and an accepted one is answered by a REVERT. -/
def Obligations.TilesAreClaimedAndCommitted : Prop :=
  (∀ (s : State) (c i ctx cmd d idx g : Nat) (k : Ctx) (o : SyncObj), MayPlace s c ctx k → i < 131072 → (s.cell c).claim = none →
    headFor (s.cell c) k = some (.grid cmd d i) → mayStart s s.offset (pdBudget d) = true → firstFree s ctx k c (.grid cmd d i) = true →
    claimTile s i c = (o, .tile idx g) →
    ∃ t, exec (.tileClaim c i) s = .next t ∧ t = { s with cells := t.cells, sync := t.sync } ∧ t.obj i = o ∧
      (∀ j, j ≠ i → t.obj j = s.obj j) ∧ (∀ e, e ≠ c → t.cell e = s.cell e) ∧
      t.cell c = { s.cell c with claim := some { cmd := cmd, desc := d, lease := { obj := i, idx := idx, gen := g } } }) ∧
  (∀ (s : State) (c : Nat) (p : Piece) (g : ReqGen) (l : LeaseRef), c < cellCount → s.pieceOf c = some p → p.lease = some l →
    commitOf s c = some (g, l) → p.phase = .sent →
    let ok := s.reqServed c g (some (homeNode l.obj)) && (findLease (s.obj l.obj) l).any fun x => !x.final
    ∃ t, exec (.tileCommit c) s = .next t ∧ t = { s with cells := t.cells, sync := t.sync, outbox := s.outbox.erase (.tileCommit c g l) } ∧
      t.cell c = { s.cell c with piece := some { p with phase := .answered ok } } ∧ (∀ e, e ≠ c → t.cell e = s.cell e) ∧
      t.obj l.obj = (if ok then updLease (s.obj l.obj) l fun x => { x with final := true } else s.obj l.obj) ∧
      ∀ j, j ≠ l.obj → t.obj j = s.obj j) ∧
  (∀ (s : State) (c : Nat) (g : ReqGen) (l : LeaseRef), c < cellCount → commitOf s c = some (g, l) →
    (∀ p, s.pieceOf c = some p → p.lease ≠ some l ∨ p.phase ≠ .sent) →
    let ok := s.reqServed c g (some (homeNode l.obj)) && (findLease (s.obj l.obj) l).any fun x => !x.final
    ∃ t, exec (.tileCommit c) s = .next t ∧ t = { s with cells := t.cells, sync := t.sync, outbox := s.outbox.erase (.tileCommit c g l) } ∧
      t.cell c = { s.cell c with recalls := updFirst (fun r => r == (l, .sent)) (fun r => (r.1, .answered ok)) (s.cell c).recalls } ∧
      t.obj l.obj = (if ok then updLease (s.obj l.obj) l fun x => { x with final := true } else s.obj l.obj) ∧
      ∀ e, e ≠ c → t.cell e = s.cell e) ∧
  (∀ (s : State) (c : Nat) (l : LeaseRef) (ok : Bool), c < cellCount → (∀ p b, s.pieceOf c = some p → p.phase ≠ .answered b) →
    (s.cell c).recalls.find? (fun r => r.2 != .sent) = some (l, .answered ok) →
    ∃ t, exec (.tileCommitReply c) s = .next t ∧ t = { s with cells := t.cells, outbox := t.outbox } ∧
      t.outbox = (if ok then (s.send (.tileRevert l)).outbox else s.outbox) ∧
      t.cell c = { s.cell c with recalls := (s.cell c).recalls.erase (l, .answered ok) } ∧ ∀ e, e ≠ c → t.cell e = s.cell e) ∧
  (∀ (s : State) (c : Nat) (p : Piece), c < cellCount → s.pieceOf c = some p →
    (p.phase = .answered true → ∃ t, exec (.tileCommitReply c) s = .next t ∧ t = { s with cells := t.cells } ∧
      t.cell c = { s.cell c with piece := some { p with phase := .accepted } } ∧ ∀ e, e ≠ c → t.cell e = s.cell e) ∧
    (p.phase = .answered false → ∃ t, exec (.tileCommitReply c) s = .next t ∧ (t.cell c).piece = none ∧ t.mem = s.mem ∧ t.welt = s.welt ∧
      t.cellFlags = s.cellFlags))

/-- A lease ends when its tile is done, is reverted, is released, or ages out. DONE drops the lease and counts the
tile. REVERT makes a final lease current again. RELEASE of a current lease drops it and counts it; where no
cell holds it any more its index is issued again with the next generation, once the stores of the runs it had
are over. A lease older than the timeout of 0x5008 is released in the same way. No Welt, flag or other object
changes by it. -/
def Obligations.LeasesEndAndReturn : Prop :=
  (∀ (s : State) (i idx g : Nat), i < 131072 → Msg.tileDone { obj := i, idx := idx, gen := g } ∈ s.outbox →
    ∃ t, exec (.tileDone i idx g) s = .next t ∧ findLease (t.obj i) { obj := i, idx := idx, gen := g } = none ∧
      (t.obj i).doneCount = (s.obj i).doneCount + 1 ∧ (∀ j, j ≠ i → t.obj j = s.obj j) ∧
      t.outbox = s.outbox.erase (.tileDone { obj := i, idx := idx, gen := g })) ∧
  (∀ (s : State) (i idx g : Nat), i < 131072 → Msg.tileRevert { obj := i, idx := idx, gen := g } ∈ s.outbox →
    ∃ t, exec (.tileRevert i idx g) s = .next t ∧
      t = { s with sync := t.sync, outbox := s.outbox.erase (.tileRevert { obj := i, idx := idx, gen := g }) } ∧
      t.obj i = updLease (s.obj i) { obj := i, idx := idx, gen := g } (fun x => { x with final := false }) ∧
      ∀ j, j ≠ i → t.obj j = s.obj j) ∧
  (∀ (s : State) (i idx g : Nat) (x : Lease), i < 131072 → findLease (s.obj i) { obj := i, idx := idx, gen := g } = some x →
    x.final = false → g ≠ 0xFFFF → holdersOf s { obj := i, idx := idx, gen := g } = [] →
    (∀ c, ∀ q, Msg.tileCommit c q { obj := i, idx := idx, gen := g } ∉ s.outbox) →
    (∀ e ∈ s.cells, ∀ r ∈ e.2.recalls, r.1 ≠ { obj := i, idx := idx, gen := g }) →
    (∀ e ∈ s.ctxs, ∀ cmd no d again, .piece cmd no d (some { obj := i, idx := idx, gen := g }) again ∉ e.2.queue) →
    ∃ t, exec (.tileRelease i idx g) s = .next t ∧ t = { s with sync := t.sync, od := (s.odAdd 0x8030 0 1).od } ∧
      t.obj i = (let o := dropLease (s.obj i) { obj := i, idx := idx, gen := g }
        if x.runs.any (storesOut s) then { o with held := o.held ++ [{ idx := idx, gen := g + 1, runs := x.runs }] }
        else { o with reissue := o.reissue ++ [(idx, g + 1)] }) ∧
      ∀ j, j ≠ i → t.obj j = s.obj j) ∧
  (∀ (s : State) (i idx g : Nat) (x : Lease), i < 131072 → findLease (s.obj i) { obj := i, idx := idx, gen := g } = some x →
    x.final = false → ∃ t, exec (.tileRelease i idx g) s = .next t ∧ findLease (t.obj i) { obj := i, idx := idx, gen := g } = none ∧
      (g ≠ 0xFFFF → t.mem = s.mem) ∧ t.welt = s.welt ∧ t.cellFlags = s.cellFlags) ∧
  (∀ (s : State) (i idx : Nat) (x : Lease), i < 131072 → (s.obj i).leases.find? (fun x => x.idx == idx) = some x →
    s.odGet 0x5008 0 < x.age → x.final = false →
    ∃ t, exec (.leaseTimeout i idx) s = .next t ∧ exec (.tileRelease i idx x.gen) s = .next t ∧
      findLease (t.obj i) { obj := i, idx := idx, gen := x.gen } = none)

/-- The stream descriptors by what selects each (R282 to R284, R288). -/
def streamRows : List ((Item → Bool) × (Nat → Nat → Instr)) :=
  [(isMove 0, .moveCopy), (isMove 1, .moveEncode), (isMove 2, .moveDecode), (isMove 3, .moveRegroup), ((·.rearm), .rearm)]

/-- The reply of a transfer is current and wanted, and its targets are up (R290, R291, R297). -/
abbrev LandsHere (s : State) (c gen : Nat) (x : Xfer) : Prop :=
  replyCurrent s x gen = true ∧ (x.store = true ∨ ((s.pieceOf c).any fun p => p.seq == x.piece) = true) ∧
    (x.store = true → ∀ w ∈ x.writes, targetDown s w.1 = false)

/-- A stream descriptor begins or waits for its counter. COPY, ENCODE, DECODE, REGROUP and REARM, when next in a
queue that is not busy and free of earlier accesses, begin; one whose wait is enabled and not met joins the
waiters of its counter. No byte of memory, no other cell and no other object changes. -/
def Obligations.StreamDescriptorsStart : Prop :=
  ∀ row ∈ streamRows, ∀ (s : State) (c q : Nat) (p : Piece) (i : Item), c < cellCount → s.pieceOf c = some p →
    queueNext p q = some i → row.1 i = true → queueBusy p q = false →
    readsFree s p i.slot (MoveD.ofWord i.word).reads = true → writesFree s p i.slot (MoveD.ofWord i.word).writes = true →
    let d := MoveD.ofWord i.word
    ∃ t, exec (row.2 c q) s = .next t ∧ t = { s with cells := t.cells, sync := t.sync } ∧ (∀ e, e ≠ c → t.cell e = s.cell e) ∧
      (if d.waitEn = true ∧ (s.obj d.waitObj).holds (.ge d.waitValue) = false then
        itemStage t c i.slot = some .waiting ∧ (t.obj d.waitObj).waiters = (s.obj d.waitObj).waiters ++
          [{ cell := c, unit := q, piece := p.seq, wait := .ge d.waitValue }] ∧ ∀ k, k ≠ d.waitObj → t.obj k = s.obj k
       else t.sync = s.sync ∧ (itemStage t c i.slot = some .running ∨ itemStage t c i.slot = some .done))

/-- Transfers are issued in turn, land where they say, and stale replies are dropped. The stream engine issues the
next transfer of the next ready queue: it joins the outstanding ones under a fresh number with the bytes it
will write, and no memory changes yet. When its reply is current it lands: the transfer is outstanding no
more, exactly the bytes it writes change, and they hold its data where the targets serve the generations of
the cell (R549). One that a stack at level 3 or a segment under test holds back, or that comes before an older
store of its queue to a sector of its own, waits; what the cell reports is counted all the same. A reply whose
generation is no longer current is dropped and counted, and nothing lands. -/
def Obligations.TransfersIssueAndLand : Prop :=
  (∀ (s : State) (c q x : Nat) (r : Run) (p : Piece) (i : Item), c < cellCount → s.pieceOf c = some p →
    nextQueue s (s.cell c) p = some (q, i) → xferAt (MoveD.ofWord i.word) (MoveD.ofWord i.word).rowCount 0 i.issued = some (x, r) →
    ∃ t n, exec (.transferIssue c) s = .next t ∧
      t = { s with free := t.free, serial := s.serial + 1, od := t.od, cells := t.cells, cache := t.cache, mem := t.mem,
                   poison := t.poison } ∧
      (∀ e, e ≠ c → t.cell e = s.cell e) ∧
      (t.cell c).xfers = (s.cell c).xfers ++ [n] ∧ n.id = s.serial ∧ n.piece = p.seq ∧ n.queue = q ∧ n.slot = i.slot ∧ n.dropped = false ∧
      n.writes = (xferWork s (MoveD.ofWord i.word) x r (i.issued + 1 == xferCount (MoveD.ofWord i.word))).writes ∧
      SameBytes s t [] ∧ ((t.cell c).piece.map (·.lastQueue)) = some q) ∧
  (∀ (s : State) (c id gen : Nat) (stalls : List (Nat × Nat)) (x : Xfer), c < cellCount →
    (s.cell c).xfers.find? (fun t => t.id == id) = some x → LandsHere s c gen x → xferHeld s x = false → storeBefore s c x = false →
    ∃ t, exec (.transferLand c id gen stalls) s = .next t ∧
      t = { takeReports s c stalls with
        mem := t.mem, poison := t.poison, od := t.od, cells := t.cells, sync := t.sync, snaps := t.snaps, cache := t.cache } ∧
      (t.cell c).xfers = (s.cell c).xfers.erase x ∧ SameBytes s t (x.writes.map fun w => (w.1, w.2.1.length)) ∧
      ∀ a bs bad, x.writes = [(a, bs, bad)] → servedWrites s c x = x.writes → s.downIn a bs.length = false → ∀ i b, bs[i]? = some b → Sp.get (0 : Byte) t.mem (a + i) = b) ∧
  (∀ (s : State) (c id gen : Nat) (stalls : List (Nat × Nat)) (x : Xfer), c < cellCount →
    (s.cell c).xfers.find? (fun t => t.id == id) = some x → replyCurrent s x gen = true →
    xferHeld s x = true ∨ storeBefore s c x = true → exec (.transferLand c id gen stalls) s = .next (takeReports s c stalls)) ∧
  (∀ (s : State) (c id gen : Nat) (stalls : List (Nat × Nat)) (x : Xfer), c < cellCount →
    (s.cell c).xfers.find? (fun t => t.id == id) = some x → replyCurrent s x gen = false →
    ∃ t, exec (.transferLand c id gen stalls) s = .next t ∧ t = { s with od := (s.odAdd 0x8120 0 1).od, cells := t.cells } ∧
      (x.dropped = false → t.cells = s.cells))

/-- An access of a home slice stores or delivers its bytes; errors are corrected, counted and poisoned. An access
of bytes of one line that exist completes. A store leaves its bytes reading as the data stored, or as zero
where their sector was poisoned and is not covered whole; a sector it covers whole is clean. A load answers
the bytes and their poison. No byte outside the line changes, and without symbol errors none but those stored.
A corrected sector is counted and delivered clean; an uncorrectable one is counted, delivered as read with
poison, and poisoned. A scratchpad of a cell that is fenced or unmapped discards stores and answers poison,
and the journals of the module discard stores and answer zeros (R463). What a stack at level 3, or a segment
under test, holds back has no effect yet (the model's choice, assumption 130). -/
def Obligations.HomeSliceStoresAndLoads : Prop :=
  (∀ (s : State) (a : Nat) (data : List Byte) (errs : List (Nat × Nat)), data ≠ [] → s.power.rails = true → a / 256 = (a + data.length - 1) / 256 →
    s.backed a data.length = true → a < slmBase →
    (storeHeld s [(a, data.length)] = false → ∃ t, exec (.homeSliceAccess true a data errs) s = .next t ∧
      t = { s with mem := t.mem, poison := t.poison, od := t.od, cells := t.cells, snaps := t.snaps, cache := t.cache,
                   rowCorrections := t.rowCorrections, flash := t.flash } ∧
      (∀ k, k < data.length → t.byte (a + k) = if t.poisonAt (a + k) then 0 else data.getD k 0) ∧
      (∀ k, a ≤ 32 * k → 32 * k + 32 ≤ a + data.length → t.poisonAt (32 * k) = false) ∧
      SameBytes s t [(a / 256 * 256, 256)] ∧ (errs = [] → SameBytes s t [(a, data.length)])) ∧
    (loadHeld s [(a, data.length)] = false → ∃ t, exec (.homeSliceAccess false a data errs) s = .next t ∧
      t = { s with mem := t.mem, poison := t.poison, od := t.od, cache := t.cache, rowCorrections := t.rowCorrections, flash := t.flash,
                   outbox := t.outbox } ∧
      (∃ bs bad, t.outbox = s.outbox ++ [.sliceReply bs bad] ∧
        (errs = [] → bs = s.bytes a data.length ∧ bad = s.poisonIn a data.length)) ∧
      SameBytes s t [(a / 256 * 256, 256)] ∧ (errs = [] → SameBytes s t [])) ∧
    (storeHeld s [(a, data.length)] = true → exec (.homeSliceAccess true a data errs) s = .next s) ∧
    (loadHeld s [(a, data.length)] = true → exec (.homeSliceAccess false a data errs) s = .next s)) ∧
  (∀ (s : State) (a : Nat) (data : List Byte) (errs : List (Nat × Nat)), data ≠ [] → s.power.rails = true → a / 256 = (a + data.length - 1) / 256 →
    inSlm a data.length = true ∨ inSp a data.length = true →
    (((cellOfAddr a).any fun c => s.cellDown c) = true →
      exec (.homeSliceAccess true a data errs) s = .next (s.odAdd 0x8035 1 1) ∧
      ∃ bs, exec (.homeSliceAccess false a data errs) s =
        .next { s with free := s.free + 1, outbox := s.outbox ++ [.sliceReply bs true] } ∧ bs.length = data.length) ∧
    (((cellOfAddr a).any fun c => s.cellDown c) = false → segHeld s [(a, data.length)] = true → ∀ st,
      exec (.homeSliceAccess st a data errs) s = .next s) ∧
    (((cellOfAddr a).any fun c => s.cellDown c) = false → segHeld s [(a, data.length)] = false → s.meetsJournal a data.length = true →
      exec (.homeSliceAccess true a data errs) s = .next s ∧ exec (.homeSliceAccess false a data errs) s =
        .next { s with outbox := s.outbox ++ [.sliceReply (List.replicate data.length 0) false] }) ∧
    (((cellOfAddr a).any fun c => s.cellDown c) = false → segHeld s [(a, data.length)] = false → s.meetsJournal a data.length = false →
      (∃ t, exec (.homeSliceAccess true a data errs) s = .next t ∧
        t = { s with mem := t.mem, poison := t.poison, od := t.od, cells := t.cells, snaps := t.snaps, cache := t.cache,
                     rowCorrections := t.rowCorrections, flash := t.flash } ∧
        (∀ k, k < data.length → t.byte (a + k) = if t.poisonAt (a + k) then 0 else data.getD k 0) ∧
        (∀ k, a ≤ 32 * k → 32 * k + 32 ≤ a + data.length → t.poisonAt (32 * k) = false) ∧
        SameBytes s t [(a / 256 * 256, 256)] ∧ (errs = [] → SameBytes s t [(a, data.length)])) ∧
      ∃ t bs bad, exec (.homeSliceAccess false a data errs) s = .next t ∧
        t = { s with mem := t.mem, poison := t.poison, od := t.od, rowCorrections := t.rowCorrections, flash := t.flash,
                     outbox := s.outbox ++ [.sliceReply bs bad] } ∧
        SameBytes s t [(a / 256 * 256, 256)] ∧
        (errs = [] → t = { s with outbox := s.outbox ++ [.sliceReply (s.bytes a data.length) (s.poisonIn a data.length)] }))) ∧
  (∀ (s : State) (k ch cla a : Nat) (data : List Byte) (errs : List (Nat × Nat)), k < 12 → data ≠ [] → s.power.rails = true → a % 32 + data.length ≤ 32 →
    a < slmBase → s.backed a data.length = true → s.place a = some (k, ch, cla) → cachePolicy s a = 0 →
    loadHeld s [(a, data.length)] = false → sectorErrs errs (a / 32 % 8) ≠ [] →
    let w := Ecc.read (Ecc.flip (Ecc.stored (s.poisonAt a) (sectorData s a)) (sectorErrs errs (a / 32 % 8)))
    let cut (d : List Nat) : List Byte := ((fitBytes (d.map (BitVec.ofNat 8)) 32).drop (a % 32)).take data.length
    (∀ d, w = .corrected d → ∃ t, exec (.homeSliceAccess false a data errs) s = .next t ∧
      t.odGet 0x8050 (k + 1) = min (2 ^ 64 - 1) (s.odGet 0x8050 (k + 1) + 1) ∧ t.poisonAt a = false ∧
      t.outbox = s.outbox ++ [.sliceReply (cut d) false]) ∧
    (∀ d, w = .uncorrectable d → ∃ t, exec (.homeSliceAccess false a data errs) s = .next t ∧
      t.odGet 0x8051 (k + 1) = min (2 ^ 64 - 1) (s.odGet 0x8051 (k + 1) + 1) ∧ t.poisonAt a = true ∧
      t.outbox = s.outbox ++ [.sliceReply (cut d) true]))

/-- Patrol corrects a sector, counts it, and poisons what it cannot correct. A patrol read of a sector of the
stack that the cache does not hold: a corrected sector is counted in 0x8050 of its stack and left unpoisoned,
an uncorrectable one counted in 0x8051 and poisoned, no byte outside the sector changes. Beneath a copy in the
cache, clean or dirty, the word of the channel is read, counted, and turned to the poison form where it cannot
be corrected, while the copy serves on. A stack at level 3 is not read, and a word without errors stays as it
is. At the end of a patrol interval no corrections of the rows of the stack stay counted (those of on-chip
rows end with the interval of stack 0, the choice of assumption 144). -/
def Obligations.PatrolCorrectsAndCounts : Prop :=
  ∀ (s : State) (k a : Nat) (errs : List (Nat × Nat)) (wrap : Bool), k < 12 →
    let b := if channelBase ≤ a then channelBase + k * 2 ^ 36 + (a - channelBase) % 2 ^ 36 else a
    let m := b / 32 % 8
    let wrapped (u : State) : State := if wrap then { u with rowCorrections := u.rowCorrections.filter (fun e => !decide ((e.1 / 2 ^ 64 = 0x0A ∧ fld (e.1 / 2 ^ 48) 15 12 = k) ∨ (e.1 / 2 ^ 64 ≠ 0x0A ∧ k = 0))) } else u
    let counted (t : State) (e : Nat) : Prop := t.odGet e (k + 1) = min (2 ^ 64 - 1) (s.odGet e (k + 1) + 1)
    ((∀ ch cla, eccPlace s b ≠ some (.stack k ch cla)) ∨ (Sp.get StackSt.init s.stackSts k).level = 3 ∨ errs = [] →
      exec (.patrolScrub k a errs wrap) s = .next (wrapped s)) ∧
    (∀ ch cla, eccPlace s b = some (.stack k ch cla) → (Sp.get StackSt.init s.stackSts k).level ≠ 3 → errs ≠ [] →
      (cachedSector s b = none →
        let w := Ecc.read (Ecc.flip (Ecc.stored (s.poisonAt b) (sectorData s b)) errs)
        ∃ t, exec (.patrolScrub k a errs wrap) s = .next t ∧
          t = { s with mem := t.mem, poison := t.poison, od := t.od, rowCorrections := t.rowCorrections, flash := t.flash } ∧
          SameBytes s t [(b / 32 * 32, 32)] ∧ (∀ d, w = .corrected d → counted t 0x8050 ∧ t.poisonAt b = false) ∧
          (∀ d, w = .uncorrectable d → counted t 0x8051 ∧ t.poisonAt b = true)) ∧
      (∀ l u, cachedSector s b = some l → (l.keepUnder s m).beneath m = some u →
        let w := Ecc.read (Ecc.flip (Ecc.stored u.poison u.data) errs)
        ∃ t, exec (.patrolScrub k a errs wrap) s = .next t ∧
          t = { s with od := t.od, cache := t.cache, rowCorrections := t.rowCorrections, flash := t.flash } ∧
          (∀ d, w = .corrected d → counted t 0x8050) ∧
          (∀ d, w = .uncorrectable d → counted t 0x8051 ∧
            ((cacheLine t b).bind (·.beneath m)).map (·.poison) = some true))) ∧
    (wrap = true → ∃ t, exec (.patrolScrub k a errs wrap) s = .next t ∧
      ∀ e ∈ t.rowCorrections, ¬ ((e.1 / 2 ^ 64 = 0x0A ∧ fld (e.1 / 2 ^ 48) 15 12 = k) ∨ (e.1 / 2 ^ 64 ≠ 0x0A ∧ k = 0)))

/-- A context with a step open. -/
abbrev StepOf (s : State) (ctx : Nat) (x : Ctx) (t : Step) : Prop := ctx < 1024 ∧ s.ctx? ctx = some x ∧ x.step = some t

/-- Only the named context may differ, and in it only what f says. -/
abbrev OnlyCtx (s t : State) (ctx : Nat) : Prop := ∀ c, c ≠ ctx → t.ctx? c = s.ctx? c

/-- A step opens with its tables; the gather clears the Welt windows it has read. A STEP_OPEN that no check
refuses makes the step of its context current and its command active, and outside a STANDALONE job it tells
the other members the shards of this module. The gather of a step whose edge has come, and no part of whose
windows is under test (R531), marks it gathered, leaves the context with no dirty cell, zeroes every pair of
the windows its dirty cells hold (a context with its windows saved has none there) and leaves the Welts of all
other cells as they were. No other context changes. -/
def Obligations.TrainingStepsOpenAndGather : Prop :=
  (∀ (s : State) (id planes : Nat) (others : List (List Nat)) (c : Cmd) (x : Ctx) (t : Step), s.cmd? id = some c → c.id = id →
    s.ctx? c.ctx = some x → c.opcode = 0x12 → c.stage = .taken → x.step = none → openStep s c x others = .ok t →
    ∃ u, exec (.stepOpen id others planes) s = .next u ∧
      u = { s with free := u.free, mem := u.mem, poison := u.poison, od := u.od, cells := u.cells, ctxs := u.ctxs, cmds := u.cmds, ports := u.ports,
                   fab := u.fab, snaps := u.snaps, cache := u.cache, outbox := u.outbox } ∧
      (s.job.mode ≠ 2 → u.outbox = (tellShards s c).outbox ∧ u.ports = s.ports ∧ u.fab = s.fab) ∧
      u.ctx? c.ctx = some { x with step := some t } ∧ (u.cmd? id).map (·.stage) = some .active ∧ OnlyCtx s u c.ctx) ∧
  (∀ (s : State) (ctx : Nat) (x : Ctx) (t : Step), StepOf s ctx x t → t.due = true → t.gathered = false →
    (x.hot && x.dirty.any fun c => weltHeld s c x.weltOff x.weltSize) = false →
    ∃ u, exec (.gather ctx) s = .next u ∧
      u = { s with mem := u.mem, poison := u.poison, od := u.od, cells := u.cells, clusterFlags := u.clusterFlags, welt := u.welt,
                   ctxs := u.ctxs, snaps := u.snaps, cache := u.cache } ∧
      u.ctx? ctx = some { x with step := some { t with gathered := true }, dirty := [], weltLost := false } ∧ OnlyCtx s u ctx ∧
      (∀ k, x.dirty.contains (k / 32768) = false → Sp.get WeltPair.zero u.welt k = Sp.get WeltPair.zero s.welt k) ∧
      (∀ k, x.hot = true → x.dirty.contains (k / 32768) = true → x.weltOff ≤ 8 * (k % 32768) → 8 * (k % 32768) < x.weltOff + x.weltSize →
        Sp.get WeltPair.zero u.welt k = WeltPair.zero))

/-- The exchange, the all-gather and the mirrors of a step become fabric operations. After the gather the exchange
enters the fabric once, for all members of the job, with the number of the step; after a commit the all-gather
does, that of the oldest unlanded step first; a shard whose update is finished and that has a buddy is
mirrored, one operation per range of its new bank; start notices that came before their operation are taken
with it. The acknowledgement of a mirror removes its operations and is remembered. Where no notice waited
nothing else changes. -/
def Obligations.StepOperationsEnterTheFabric : Prop :=
  (∀ (s : State) (ctx : Nat) (x : Ctx) (t : Step), StepOf s ctx x t → t.gathered = true → t.exchanged = false →
    (∀ o ∈ s.fab, o.ctx ≠ ctx ∨ o.kind ≠ .exchange) →
    ∃ o, exec (.exchange ctx) s = .next (addFab s.fresh o) ∧ o.kind = .exchange ∧ o.ctx = ctx ∧ o.group = 0 ∧ o.seq = soStep t.entry ∧
      o.ranks = s.job.members ∧ o.started = false ∧ o.id = s.serial + 1 ∧ o.lined = true ∧
      o.count = ((allShards s t (myRank s)).map (·.2.2.2)).sum ∧ o.segs.map (·.owner) = (allShards s t (myRank s)).map (·.1) ∧
      ((∀ n ∈ s.notices, n.fits o = false) → addFab s.fresh o = { s with serial := s.serial + 1, fab := s.fab ++ [o] })) ∧
  (∀ (s : State) (ctx : Nat) (x : Ctx) (b : Nat) (t : Step) (rest : List (Nat × Step)), ctx < 1024 → s.ctx? ctx = some x →
    x.gathering = (b, t) :: rest → (∀ o ∈ s.fab, o.ctx ≠ ctx ∨ o.kind ≠ .stepGather) →
    ∃ o, exec (.stepGather ctx) s = .next (addFab s.fresh o) ∧ o.kind = .stepGather ∧ o.ctx = ctx ∧ o.group = 0 ∧ o.seq = soStep t.entry ∧
      o.ranks = s.job.members ∧ o.started = false ∧ o.id = s.serial + 1 ∧ o.lined = false ∧ o.segs = gatherSegs s t b (myRank s) ∧
      ((∀ n ∈ s.notices, n.fits o = false) → addFab s.fresh o = { s with serial := s.serial + 1, fab := s.fab ++ [o] })) ∧
  (∀ (s : State) (ctx k : Nat) (x : Ctx) (t : Step), StepOf s ctx x t → k < t.shards.length →
    shBuddy (t.shards.getD k 0) = true → t.mirrored.contains k = false →
    ((t.undone.find? fun e => e.1 == k).any fun e => e.2 == 0) = true →
    exec (.mirror ctx k) s = .next ((mirrorOps s ctx x t k).updCtx ctx fun x =>
      { x with step := x.step.map fun t => { t with mirrored := t.mirrored ++ [k] } }) ∧
    (s.notices = [] → mirrorOps s ctx x t k = { s with serial := (mirrorOps s ctx x t k).serial, fab := (mirrorOps s ctx x t k).fab } ∧
      (mirrorOps s ctx x t k).fab.length = s.fab.length + (bankRanges (optOf t (t.shards.getD k 0)) (t.shards.getD k 0) (1 - x.bank)).length)) ∧
  (∀ (s : State) (ctx k : Nat) (x : Ctx) (t : Step), StepOf s ctx x t → t.mirrored.contains k = true →
    ∃ u, exec (.mirrorAck ctx k) s = .next u ∧ u = { s with fab := u.fab, ctxs := u.ctxs } ∧
      u.ctx? ctx = some { x with step := some { t with acked := k :: t.acked } } ∧ OnlyCtx s u ctx ∧
      ∀ o ∈ u.fab, o ∈ s.fab ∧ ¬ (o.ctx = ctx ∧ o.kind = .mirror ∧ o.sender = true ∧ o.seq / 4 = k))

/-- Update pieces are placed, and votes are cast and tallied. The pieces of a landed shard join the queue of its
context, one for each length given. A vote that can be cast is kept with the step; a module in STITCH_LOST
sends none; another member sends it to the root with the step number and commit stitch, the module it calls
faulty, its flag word and its norm sums, and the root enters it in its tally. A yes may turn into a no, and no
other vote is cast again. A vote of a member for a commit stitch to come reaches the tally of the root and
replaces an earlier one of that member; one that comes after the deadline of its step, and any that another
module receives, is dropped. -/
def Obligations.UpdatesAndVotes : Prop :=
  (∀ (s : State) (ctx k : Nat) (lens : List Nat) (x : Ctx) (t : Step), StepOf s ctx x t → k < t.shards.length →
    t.placed.contains k = false → lens.sum = shCount (t.shards.getD k 0) → lens.contains 0 = false →
    shardLanded s ctx t (t.shards.getD k 0) = true →
    let v := { t with placed := t.placed ++ [k], undone := t.undone ++ [(k, shCount (t.shards.getD k 0))] }
    let es := lens.zipIdx.map fun n => QEntry.update t.cmd k ((lens.take n.2).sum) n.1 (updateCycles (optOf t (t.shards.getD k 0)) n.1) false
    ∃ u, exec (.updatePlacement ctx k lens) s = .next u ∧ u = { s with ctxs := u.ctxs } ∧ OnlyCtx s u ctx ∧
      u.ctx? ctx = some { x with queue := x.queue ++ es, step := some v }) ∧
  (∀ (s : State) (ctx : Nat) (x : Ctx) (t : Step), StepOf s ctx x t →
    (∀ v, t.deadline = false → s.schedDown = false → voteNow s ctx x t = some v →
      t.voted = none ∨ (∃ o, t.voted = some o ∧ o.yes = true ∧ v.yes = false) →
      ∃ u, exec (.voteCast ctx) s = .next u ∧ u = { s with ctxs := u.ctxs, outbox := u.outbox } ∧ OnlyCtx s u ctx ∧
        ((u.ctx? ctx).bind (·.step)) = some { t with voted := some v } ∧
        (s.stitch.lost = true → u.outbox = s.outbox) ∧
        (s.stitch.lost = false → isRoot s = false → u.outbox = (s.send (.vote ctx (ballot s x t v))).outbox) ∧
        (s.stitch.lost = false → isRoot s = true → u.outbox = s.outbox ∧ ∃ y, u.ctx? ctx = some y ∧
          y.tally = (x.tally.filter fun w => w.member != s.moduleId) ++ [ballot s x t v])) ∧
    (t.deadline = true ∨ s.schedDown = true ∨ voteNow s ctx x t = none ∨
      (∃ v o, voteNow s ctx x t = some v ∧ t.voted = some o ∧ (o.yes = false ∨ v.yes = true)) → exec (.voteCast ctx) s = .next s) ∧
    (stepPoison s ctx x t = false → t.ownFault = false → t.faulty ≠ some s.moduleId → t.updateBad = false → allUpdated t = true →
      allAcked t = true → voteNow s ctx x t = some { yes := true, reason := 0 }) ∧
    (stepPoison s ctx x t = true → voteNow s ctx x t = some { yes := false, reason := 1 })) ∧
  (∀ (s : State) (x : Ctx) (t : Step) (v : Vote), let w := ballot s x t v
    w.member = s.moduleId ∧ w.vote = v ∧ w.step = soStep t.entry ∧ w.tc = soTc t.entry ∧ w.faulty = t.faulty ∧ w.flags = (votedWord s).toNat ∧
      (t.gathered = true → w.norms = ownNorms s x t)) ∧
  (∀ (s : State) (ctx m st tc rs fl : Nat) (yes : Bool) (fa : Option Nat) (ns : List (List Nat)) (x : Ctx), ctx < 1024 →
    s.ctx? ctx = some x →
    let w : Tally := { member := m, vote := { yes := yes, reason := rs }, step := st, tc := tc, faulty := fa, flags := fl, norms := ns }
    (isRoot s = true → s.job.members.contains m = true → lateVote x w = false → s.stitch.count < tc →
      exec (.voteReceive ctx m st tc yes rs fa fl ns) s =
        .next (s.setCtx ctx { x with tally := (x.tally.filter fun u => u.member != m) ++ [w] })) ∧
    (isRoot s = false ∨ s.job.members.contains m = false ∨ lateVote x w = true ∨ tc ≤ s.stitch.count →
      exec (.voteReceive ctx m st tc yes rs fa fl ns) s = .next s))

/-- The deadline decides, the outcome is taken and applied at the commit stitch. At the deadline the open step has
a vote, the flag words that went with it start again from 0, once for each commit stitch (in a module in
STITCH_LOST they stay), and the root decides: committed exactly when no member fails, aborted otherwise; votes
for a step that the root does not have open leave its tally. An outcome that arrives for the commit stitch of
the open step is kept with its flags and failing voters, marked late when it comes in that stitch or after.
From the commit stitch on, at an edge after a late outcome came, a committed step swaps the bank, counts the
step and adds its all-gather to those that wait; an aborted one leaves bank and step number as they were;
either way the step is closed. A module that does not know the outcome asks for it, and one whose scheduler
core is down waits and marks the step late. -/
def Obligations.OutcomesAreDecidedAndApplied : Prop :=
  (∀ (s : State) (ctx : Nat) (x : Ctx) (t : Step), StepOf s ctx x t → t.deadline = false →
    (s.stitch.count + 1 < soTc t.entry → exec (.voteDeadline ctx) s = .next s) ∧
    (soTc t.entry ≤ s.stitch.count + 1 →
    let late : Vote := { yes := false, reason := if !s.schedDown && allUpdated t then 6 else 4 }
    let worded := s.stepWord.any fun w => w.1 == s.stitch.count
    ∃ u y, exec (.voteDeadline ctx) s = .next u ∧ u = { s with cellFlags := u.cellFlags, clusterFlags := u.clusterFlags, moduleFlags := u.moduleFlags, stepWord := u.stepWord, ctxs := u.ctxs, missing := u.missing, outbox := u.outbox } ∧
      OnlyCtx s u ctx ∧ ((u.ctx? ctx).bind (·.step)) = some y ∧ y.deadline = true ∧
      y.voted = some (t.voted.getD (if s.schedDown then late else (voteNow s ctx x t).getD late)) ∧
      (s.stitch.lost = false → worded = false → u.cellFlags = [] ∧ u.clusterFlags = [] ∧ u.moduleFlags = 0 ∧
        u.stepWord = some (s.stitch.count, moduleWord s)) ∧
      (s.stitch.lost = true ∨ worded = true → u.cellFlags = s.cellFlags ∧ u.clusterFlags = s.clusterFlags ∧ u.moduleFlags = s.moduleFlags ∧
        u.stepWord = s.stepWord) ∧
      (isRoot s = false → y.outcome = t.outcome ∧ u.missing = s.missing) ∧
      (isRoot s = true → y.outcome = (if y.fails.isEmpty then .committed else .aborted)))) ∧
  (∀ (s : State) (ctx : Nat) (x : Ctx), ctx < 1024 → s.ctx? ctx = some x → x.step.all (·.deadline) = true →
    (isRoot s = false → exec (.voteDeadline ctx) s = .next s) ∧
    (isRoot s = true → ∃ u, exec (.voteDeadline ctx) s = .next u ∧ u = { s with ctxs := u.ctxs, missing := u.missing, outbox := u.outbox } ∧
      u.ctx? ctx = some { x with tally := x.tally.filter fun v => !decide (v.tc ≤ s.stitch.count + 1) } ∧ OnlyCtx s u ctx)) ∧
  (∀ (s : State) (ctx flags : Nat) (commit : Bool) (fails : List (Nat × Nat)) (norms : List (List Nat)) (x : Ctx) (t : Step),
    StepOf s ctx x t → t.outcome = .unknown →
    let v := { t with outcome := if commit then .committed else .aborted, sysFlags := flags, fails := fails, norms := norms, late := if soTc t.entry ≤ s.stitch.count then some s.stitch.count else t.late }
    ∃ u, exec (.outcomeReceive ctx (soTc t.entry) commit flags fails norms) s = .next u ∧
      u = { s with ctxs := u.ctxs, missing := u.missing } ∧ OnlyCtx s u ctx ∧
      ((u.ctx? ctx).bind (·.step)) = some v ∧
      ∀ tc, tc ≠ soTc t.entry → exec (.outcomeReceive ctx tc commit flags fails norms) s = .next s) ∧
  (∀ (s : State) (ctx : Nat) (x : Ctx) (t : Step), StepOf s ctx x t → soTc t.entry ≤ s.stitch.count →
    (s.schedDown = true → ∃ u, exec (.stepOutcomeApply ctx) s = .next u ∧ u = { s with ctxs := u.ctxs } ∧ OnlyCtx s u ctx ∧
      u.ctx? ctx = some { x with step := some { t with late := some s.stitch.count } }) ∧
    (s.schedDown = false → t.outcome = .unknown → exec (.stepOutcomeApply ctx) s = .next (s.send (.askOutcome ctx (soTc t.entry)))) ∧
    (s.schedDown = false → t.outcome ≠ .unknown → t.late.any (fun k => decide (s.stitch.count ≤ k)) = true → exec (.stepOutcomeApply ctx) s = .next s) ∧
    (s.schedDown = false → t.outcome ≠ .unknown → t.late.any (fun k => decide (s.stitch.count ≤ k)) = false → ∃ u y, exec (.stepOutcomeApply ctx) s = .next u ∧
      u = { s with mem := u.mem, poison := u.poison, od := u.od, cells := u.cells, welt := u.welt, side := u.side, sync := u.sync, ctxs := u.ctxs,
                   rings := u.rings, cmds := u.cmds, fab := u.fab, snaps := u.snaps, streams := u.streams, cache := u.cache, outbox := u.outbox } ∧
      u.ctx? ctx = some y ∧ y.step = none ∧
      (t.outcome = .committed → y.bank = 1 - x.bank ∧ y.stepNo = x.stepNo + 1 ∧ y.gathering = x.gathering ++ [(1 - x.bank, t)]) ∧
      (t.outcome = .aborted → y.bank = x.bank ∧ y.stepNo = x.stepNo ∧ y.gathering = x.gathering)))

/-- A snapshot of an open step is registered, and sent once it is armed. A SNAPSHOT that no check refuses is
registered with the runs it covers, not armed and nothing copied, and its command becomes active. Once armed
and with its data readable it is sent: to the host as its signed container, its command completes and it is
registered no more; over a port that serves no more, or to a host that is away, it ends with nothing sent;
over one that serves it stays registered with what it sends until the last flit is acknowledged. -/
def Obligations.SnapshotsAreTakenAndSent : Prop :=
  (∀ (s : State) (id : Nat) (bm : Bool) (c : Cmd) (x : Ctx) (t : Step) (list : List Nat), s.cmd? id = some c →
    c.opcode = 0x14 → c.stage = .taken → s.ctx? c.ctx = some x → x.step = some t →
    let d := SnapD.ofWord c.entry
    let l := snapLayout (list.map fun e => t.gmap.getD e 0) 0
    d.entries ≠ 0 → d.entries ≤ 16384 → tableAt s d.list d.entries 4 true = some list → s.snaps.length < 2 → d.step = soStep t.entry →
    s.stitch.count < soTc t.entry → (∀ e ∈ list, e < t.gmap.length) → 20 ≤ d.chunkLog → d.chunkLog ≤ 28 → d.stage % 65536 = 0 →
    s.backed d.stage (d.stageMib * 2 ^ 20) = true → l.2 ≤ d.stageMib * 2 ^ 20 →
    containerBytes l.2 d.chunkLog d.entries ≤ d.destSize → (d.latigo = true → d.port < 48) → (d.latigo = false → bm = true ∧ s.pcieUp = true) →
    touchesAbsent s ((d.stage, l.2) :: l.1.map fun r => (r.1, r.2.1)) = false →
    ∃ u p, exec (.snapshot id bm) s = .next u ∧ u = { s with serial := s.serial + 1, cmds := u.cmds, snaps := s.snaps ++ [p], pcie := u.pcie } ∧
      (u.cmd? id).map (·.stage) = some .active ∧ p.cmd = id ∧ p.id = s.serial + 1 ∧ p.ctx = c.ctx ∧ p.runs = l.1 ∧ p.bytes = l.2 ∧ p.chunk = 2 ^ d.chunkLog ∧ p.stage = d.stage ∧
      p.armed = false ∧ p.copied = []) ∧
  (∀ (s : State) (id : Nat) (c : Cmd) (p : Snap), s.cmd? id = some c → s.snaps.find? (fun p => p.cmd == id) = some p → p.armed = true → p.sent = none →
    loadHeld s (p.runs.map fun r => (r.1, r.2.1)) = false →
    let d := SnapD.ofWord c.entry
    let lost := if d.latigo then bit (s.odGet 0x4013 0) d.port || !(s.port d.port).serves else !s.pcieUp
    ∃ u, exec (.snapshotSend id) s = .next u ∧
      u = { s with mem := u.mem, poison := u.poison, od := u.od, cells := u.cells, ctxs := u.ctxs, rings := u.rings, cmds := u.cmds, cache := u.cache,
                   ports := u.ports, snaps := u.snaps, outbox := u.outbox } ∧
      (d.latigo = false → lost = false → u.cmd? id = none ∧ (∀ q ∈ u.snaps, q.cmd ≠ id) ∧ u.ports = s.ports ∧
        .hostWrite d.dest (container s p (2 ^ d.chunkLog)) false ∈ u.outbox) ∧
      (d.latigo = true → lost = false → u.snaps.find? (fun q => q.cmd == id) = none ∨ ∃ q st, u.snaps.find? (fun q => q.cmd == id) = some q ∧
        q.sent = some (d.port, (container s p (2 ^ d.chunkLog)).length, ceilDiv p.bytes (2 ^ d.chunkLog), st)) ∧
      (lost = true → u.cmd? id = none ∧ (∀ q ∈ u.snaps, q.cmd ≠ id) ∧ u.ports = s.ports ∧ u.outbox = s.outbox))

/-- The five host fabric commands (R447), by KIND. -/
def fabricRows : List (Nat × (Nat → Instr)) :=
  [(0, .reduceScatter), (1, .allReduce), (2, .allGather), (3, .broadcast), (4, .put)]

/-- A flit of a kind arrives whole and in order on a port whose data wavelengths are in service (R336, R339). -/
abbrev FlitComes (s : State) (port header kind : Nat) (payload : List Byte) : Prop :=
  port < 48 ∧ (s.port port).data = true ∧ fld header 161 160 = kind ∧ crcOk header payload = true ∧
    (kind = 1 ∨ kind = 2 → fld header 187 176 = ((s.port port).rxSeq + 1) % 4096)

/-- The operation, rank and piece of its elements that a DATA or REDUCE flit for this module, on a plane not lost for data, belongs to. -/
abbrev FlitFor (s : State) (port header : Nat) (o : FabOp) (rank : Nat) (c : Chunk) : Prop :=
  fld header 223 206 = s.moduleId ∧ bit (s.odGet 0x4013 0) port = false ∧ opFrom s (fld header 205 188) (fld header 127 96) = some (o, rank) ∧
    s.fabOp? o.id = some o ∧ (o.planeChunks port)[fld header 95 64]? = some c

/-- Values as a place of a member's staging table keeps them for a rank. -/
def sentTo (plane idx : Nat) (vals : List (F32 × Nat)) (r : Nat) : Sent := { plane := plane, idx := idx, dest := r, vals := vals }

/-- The state after the hop has taken a flit that carries no data (acknowledgement, credits, counts). -/
def hopTaken (s : State) (port header fec : Nat) : State :=
  takeHop ((s.odAdd 0x4020 (port + 1) fec).odAdd 0x4021 (port + 1) 0) port header

/-- The five host fabric commands become operations, numbered within context and group. A REDUCE_SCATTER,
ALL_REDUCE, ALL_GATHER, BROADCAST or PUT that no check refuses becomes active and adds one operation of its
kind for its group, not started, with the next number of its context and group, which takes the start notices
that came before it. Where none did, no other command, no memory and nothing else of the module changes. -/
def Obligations.FabricCommandsBecomeOperations : Prop :=
  ∀ kind ctor, (kind, ctor) ∈ fabricRows → ∀ (s : State) (id : Nat) (c : Cmd), s.cmd? id = some c → c.opcode = 0x13 →
    c.stage = .taken → (FabD.ofWord c.entry).kind = kind → fabRefuse s c.ctx (FabD.ofWord c.entry) = none →
    let u := s.fresh.updCmd id fun c => { c with stage := .active, started := true }
    ∃ o, exec (ctor id) s = .next (addFab (bumpSeq u c.ctx o.group) o) ∧
      o.id = s.serial + 1 ∧ o.cmd = some id ∧ o.ctx = c.ctx ∧ o.kind.code = kind ∧ o.started = false ∧ o.landed = 0 ∧
      o.ranks = (groupRanks s (FabD.ofWord c.entry)).map (fun r => s.job.members.getD r 0) ∧
      o.group = digest32 (groupRanks s (FabD.ofWord c.entry)) ∧ o.seq = seqOf s c.ctx o.group ∧
      o.count = (FabD.ofWord c.entry).count ∧ o.dst = (FabD.ofWord c.entry).dst ∧ o.done = some (FabD.ofWord c.entry).doneCtr ∧
      ((∀ n ∈ s.notices, n.fits o = false) → let t := addFab (bumpSeq u c.ctx o.group) o
        t = { s with serial := s.serial + 1, cmds := t.cmds, fab := s.fab ++ [o], fabSeqs := t.fabSeqs } ∧
        (t.cmd? id).map (·.stage) = some .active ∧ (∀ k, k ≠ id → t.cmd? k = s.cmd? k) ∧ seqOf t c.ctx o.group = o.seq + 1)

/-- Fabric operations start over the usable planes, meet their notices, complete and time out. An operation whose
wait is satisfied and whose source can be read starts: its elements are split over the planes usable for data
and every other member is told; one that touches what belongs to an absent context ends NOT_RESIDENT. A start
notice that fits no operation is kept; one that fits is remembered with the operation and what was held for
its sender is let go; one of another kind, count or format ends the operation BAD_DESCRIPTOR, and the mirror
of another module begins here. An operation whose every part has landed, with every member told and no flit of
it still out, ends: a host command completes and adds 1 to its counter, an exchange is noted in its step; an
all-gather arms its snapshots and adds to its counter once every range has landed, and ends when it is whole.
A time-out ends an operation and its command. No other operation changes. -/
def Obligations.FabricOperationsStartAndEnd : Prop :=
  (∀ (s : State) (id : Nat) (o : FabOp), s.fabOp? id = some o → o.started = false → o.ready s = true → loadHeld s o.sending = false →
    (touchesAbsent s (o.landing ++ o.sending) = true → exec (.fabricOpStart id) s = .next (endFab s o St.notResident)) ∧
    (touchesAbsent s (o.landing ++ o.sending) = false → ∃ t p, exec (.fabricOpStart id) s = .next t ∧
      t = { s with free := t.free, mem := t.mem, poison := t.poison, od := t.od, cells := t.cells, ports := t.ports, fab := t.fab, snaps := t.snaps,
                   cache := t.cache, outbox := t.outbox } ∧
      t.fabOp? id = some p ∧ p.started = true ∧ (∀ k, k ≠ id → t.fabOp? k = s.fabOp? k) ∧
      p.stripes = cutStripes 0 (o.segs.map (·.count)).sum (if o.size ≤ 1 then [0] else splitPlanes s) ∧
      (1 < o.size → .started (ownNotice s o) ∈ t.outbox))) ∧
  (∀ (s : State) (n : Notice), s.power.rails = true →
    let notify : Instr := .fabricStartNotice n.ctx n.group n.seq n.sender n.op n.dst n.kind n.count n.fmt
    (n.kind = 18 → exec notify s = .next (mirrorIn s n)) ∧
    (n.kind ≠ 18 → (∀ o ∈ s.fab, n.fits o = false) → exec notify s = .next { s with notices := s.notices ++ [n] }) ∧
    (∀ o, n.kind ≠ 18 → s.fab.find? (fun o => n.fits o) = some o → s.fabOp? o.id = some o →
      (n.kind ≠ o.peerCode ∨ n.count ≠ o.count ∨ n.fmt ≠ o.fmt →
        exec notify s = .next (endFab (if o.started then s else s.send (.started (ownNotice s o))) o St.badDescriptor)) ∧
      (n.kind = o.peerCode → n.count = o.count → n.fmt = o.fmt → ∃ t p, exec notify s = .next t ∧
        t = { s with ports := t.ports, fab := t.fab, outbox := t.outbox } ∧ t.fabOp? o.id = some p ∧
        p = { o with starts := o.starts ++ [(n.sender, n.op, n.dst)], held := p.held } ∧
        p.held = (o.held.filter fun h => o.ranks.getD h.2.1 0 != n.sender) ∧ ∀ k, k ≠ o.id → t.fabOp? k = s.fabOp? k))) ∧
  (∀ (s : State) (id c k : Nat) (faulty : Option Nat) (o : FabOp), s.fabOp? id = some o → o.id = id → o.cmd = some c → o.done = some k →
    o.started = true → o.whole s = true → o.kind.code ≤ 4 →
    ∃ t, exec (.fabricOpComplete id faulty) s = .next t ∧
      t = { s with mem := t.mem, poison := t.poison, od := t.od, cells := t.cells, sync := t.sync, ctxs := t.ctxs, rings := t.rings,
                   cmds := t.cmds, fab := t.fab, snaps := t.snaps, streams := t.streams, cache := t.cache, outbox := t.outbox } ∧
      t.fabOp? id = none ∧ (∀ j, j ≠ id → t.fabOp? j = s.fabOp? j) ∧ t.cmd? c = none ∧
      ((s.obj k).kind = .counter → (s.obj k).waiters = [] → (∀ e ∈ s.streams, e.2.lowEvent ≠ k) → t.obj k = (s.obj k).apply .add 1)) ∧
  (∀ (s : State) (id : Nat) (faulty : Option Nat) (o : FabOp) (x : Ctx) (t : Step), s.fabOp? id = some o → o.id = id → o.started = true →
    o.whole s = true → o.kind = .exchange → StepOf s o.ctx x t →
    ∃ u v, exec (.fabricOpComplete id faulty) s = .next u ∧ u = { s with ctxs := u.ctxs, fab := u.fab } ∧
      u.ctx? o.ctx = some { x with step := some v } ∧ v.exchanged = true ∧ v.poison = (t.poison || o.poisoned) ∧ v.faulty = t.faulty.or (o.faulty.or faulty) ∧
      OnlyCtx s u o.ctx ∧ u.fabOp? id = none) ∧
  (∀ (s : State) (id : Nat) (faulty : Option Nat) (o : FabOp), s.fabOp? id = some o → o.id = id → o.started = true →
    o.kind = .stepGather → o.landedAll = true → exec (.fabricOpComplete id faulty) s =
      .next (if o.whole (gatherLanded s o) then dropFab (gatherLanded s o) id else gatherLanded s o)) ∧
  (∀ (s : State) (id : Nat) (o : FabOp), s.fabOp? id = some o → o.id = id →
    ∃ t, exec (.fabricTimeout id) s = .next t ∧
      t = { s with mem := t.mem, poison := t.poison, od := t.od, cells := t.cells, ctxs := t.ctxs, rings := t.rings, cmds := t.cmds, fab := t.fab, snaps := t.snaps,
                   cache := t.cache } ∧
      t.fabOp? id = none ∧ (∀ j, j ≠ id → t.fabOp? j = s.fabOp? j) ∧ ∀ c, o.cmd = some c → t.cmd? c = none)

/-- Flits are taken in: NULL, DATA, REDUCE, a resend and RETRY. A NULL flit acknowledges and gives credits back. A
DATA flit of a direct operation lands its payload at its address and nowhere else, poison with it. A REDUCE
flit with right residues that comes up is added to the partial sum of its place, which is kept until every
contribution is in and then goes on to the next member, and its flags are those of the host operation, or of
the step; one of a scatter that comes down goes on to the members below as it is. The first mismatch is
counted and asks for the flit again, and adds nothing. A request for a resend is counted, and the flit is
queued again with the values staged for it. RETRY replays every flit not acknowledged, counts it and notes it
with each flit. No flit for a stack that is held at level 3 is meant here. -/
def Obligations.FlitsAreTakenIn : Prop :=
  (∀ (s : State) (port header fec : Nat) (payload : List Byte), FlitComes s port header 0 payload →
    exec (.flitNull port header payload fec 0) s = .next (hopTaken s port header fec)) ∧
  (∀ (s : State) (port header fec poison rank : Nat) (payload : List Byte) (o : FabOp) (c : Chunk), FlitComes s port header 1 payload →
    flitHeld s port header = false → FlitFor s port header o rank c → o.direct = true → c.pSize = c.dSize →
    let h := hopTaken s port header fec
    let a := fld header 41 0
    let n := min (c.count * c.pSize) payload.length
    h.downIn a n = false → h.meetsJournal a n = false →
    ∃ t, exec (.flitData port header payload poison fec 0) s = .next t ∧
      t = { h with mem := t.mem, poison := t.poison, od := t.od, cells := t.cells, ports := t.ports, fab := t.fab, snaps := t.snaps,
                   cache := t.cache, outbox := t.outbox } ∧
      (t.port port).rxSeq = fld header 187 176 ∧
      (∀ i, i < n → t.byte (a + i) = (if t.poisonAt (a + i) then 0 else payload.getD i 0) ∧
        (bit poison (i / 32) = true → t.poisonAt (a + i) = true)) ∧
      SameBytes h t [(a, n)] ∧
      (o.kind = .put → (∀ k, k ≠ o.id → t.fabOp? k = s.fabOp? k) ∧ ∃ q, t.fabOp? o.id = some q ∧ q.landed = o.landed + n ∧
        q.past.contains (port, fld header 95 64) = true)) ∧
  (∀ (s : State) (port header fec rank : Nat) (payload : List Byte) (o : FabOp) (c : Chunk), FlitComes s port header 2 payload →
    flitHeld s port header = false → FlitFor s port header o rank c →
    let h := hopTaken s port header fec
    let idx := fld header 95 64
    let vals := parseReduce c.count payload
    let p := (o.parts.find? fun q => q.plane == port && q.idx == idx).getD { plane := port, idx := idx, got := [], vals := srcValues h o c }
    let sum := residueAdds vals p.vals
    (fromAbove s o rank port c = false → (kidsOf s o port c o.me).contains rank = true → p.got.contains rank = false →
      o.past.contains (port, idx) = false → vals.any residueBad = false →
      ∃ t q, exec (.flitReduce port header payload false fec 0) s = .next t ∧ t.fabOp? o.id = some q ∧
        (o.cmd.isSome = true → q.flags = o.flags ||| sum.2 ∧ t.moduleFlags = s.moduleFlags) ∧
        (o.cmd = none → q.flags = o.flags ∧ t.moduleFlags = s.moduleFlags ||| sum.2) ∧
        ((kidsOf s o port c o.me).all (rank :: p.got).contains = false → { p with got := rank :: p.got, vals := sum.1 } ∈ q.parts) ∧
        ((kidsOf s o port c o.me).all (rank :: p.got).contains = true → ∀ r, upOf s o port c o.me = some r →
          q.sent = o.sent ++ [sentTo port idx sum.1 r]) ∧
        ((kidsOf s o port c o.me).all (rank :: p.got).contains = false ∨ (upOf s o port c o.me).isSome = true →
          t = { h with free := t.free, mem := t.mem, poison := t.poison, od := t.od, cells := t.cells, moduleFlags := t.moduleFlags,
                       ports := t.ports, fab := t.fab, cache := t.cache, outbox := t.outbox })) ∧
    (fromAbove s o rank port c = true → o.me ≠ c.owner → o.past.contains (port, idx) = false → vals.any residueBad = false →
      ∃ t q, exec (.flitReduce port header payload false fec 0) s = .next t ∧ t.fabOp? o.id = some q ∧
        t = { h with ports := t.ports, fab := t.fab, outbox := t.outbox } ∧ q.past.contains (port, idx) = true ∧
        q.sent = o.sent ++ (downOf s o port c o.me).map (sentTo port idx vals)) ∧
    (∀ adderFault, (vals.any residueBad || adderFault) = true → o.suspects.contains (port, idx + rank * 2 ^ 32) = false →
      ∃ t q, exec (.flitReduce port header payload adderFault fec 0) s = .next t ∧
        t = { h with od := t.od, ports := t.ports, fab := t.fab, outbox := t.outbox } ∧
        t.odGet 0x4040 0 = min (2 ^ 64 - 1) (h.odGet 0x4040 0 + 1) ∧ t.fabOp? o.id = some q ∧
        q = { o with suspects := (port, idx + rank * 2 ^ 32) :: o.suspects })) ∧
  (∀ (s : State) (op plane idx member : Nat) (o : FabOp) (e : Sent), s.fabOp? op = some o → plane < 48 →
    o.sent.find? (fun e => decide (e.plane = plane ∧ e.idx = idx ∧ o.ranks.getD e.dest 0 = member)) = some e →
    ∃ t, exec (.residueResendRequest op plane idx member) s = .next t ∧
      t = { s with od := t.od, ports := t.ports, fab := t.fab, outbox := t.outbox } ∧
      t.odGet 0x4041 0 = min (2 ^ 64 - 1) (s.odGet 0x4041 0 + 1) ∧
      (o.starts.any (fun m => m.1 == member) = true → (s.port plane).data = false → t.outbox = s.outbox ∧
        ∃ f, (t.port plane).txq = (s.port plane).txq ++ [f] ∧ f.kind = 2 ∧ f.dst = member ∧ f.idx = idx ∧ f.op = op ∧
          f.payload = reducePayload e.vals)) ∧
  (∀ (s : State) (port header fec : Nat) (payload : List Byte), FlitComes s port header 3 payload →
    let h := hopTaken s port header fec
    let q := h.port port
    q.unacked ≠ [] → (∀ k ∈ q.replays, k + 1 < 8) →
    ∃ t, exec (.flitRetry port header payload fec 0) s = .next t ∧
      t = { h with od := t.od, ports := t.ports, outbox := t.outbox } ∧ t.port port = { q with replays := q.replays.map (· + 1) } ∧
      (∀ k, k ≠ port → t.port k = h.port k) ∧ t.odGet 0x4022 (port + 1) = min (2 ^ 64 - 1) (h.odGet 0x4022 (port + 1) + 1) ∧
      t.outbox.length = h.outbox.length + q.unacked.length)

/-- Ports train, lose light and lock, retrain and come back from calibration. Loss of light takes the 12 ports of
a receptacle that are not DISABLED to DARK, or only their Harness wavelength. Training that receives its own
plane number ends UP with the measured delay; another number, or a step past its limit, ends FAILED and is
logged. Lock lost on a data wavelength, or too many replays, fails an UP port and takes its plane out of the
job; the same of another member only takes the plane out. Loss and return of the Harness wavelength move
between UP and UP_NO_HARNESS. A FAILED or DARK port that is enabled trains again. The end of a calibration
slot gives the port, or the cluster, back, idle for the rest of the stitch. A port that trains tells the other
end its number and the module. No other port changes its state; a port or receptacle that the module does not
have faults. -/
def Obligations.PortsTrainFailAndRecover : Prop :=
  (∀ (s : State) (r : Nat), r < 4 → ∃ t, exec (.laserLightLoss r false) s = .next t ∧
      t = { s with free := t.free, mem := t.mem, poison := t.poison, od := t.od, cells := t.cells, ctxs := t.ctxs, rings := t.rings, cmds := t.cmds,
                   ports := t.ports, fab := t.fab, snaps := t.snaps, cache := t.cache, outbox := t.outbox } ∧
      ∀ p, p < 48 → (t.port p).state = if p / 12 = r ∧ (s.port p).state ≠ .disabled then .dark else (s.port p).state) ∧
  (∀ (s : State) (r : Nat), r < 4 → ∃ t, exec (.laserLightLoss r true) s = .next t ∧ t = { s with ports := t.ports } ∧
      ∀ p, p < 48 → t.port p = (if p / 12 = r ∧ (s.port p).state = .up then { s.port p with state := .upNoHarness }
        else if p / 12 = r then (match (s.port p).state with | .calibrating h _ => { s.port p with state := .calibrating h true } | _ => s.port p)
        else s.port p)) ∧
  (∀ (s : State) (p plane delay : Nat), p < 48 → (s.port p).state = .training → ∃ t, exec (.portTraining p plane delay) s = .next t ∧
      t.odGet 0x4012 (p + 1) = plane % 256 ∧
      (plane = p → t = { s with od := t.od, ports := t.ports, outbox := t.outbox } ∧ t.outbox = (s.send (.ident p s.moduleId)).outbox ∧ t.port p = { Port.init with state := .up, delay := delay } ∧
        ∀ q, q ≠ p → t.port q = s.port q) ∧
      (plane ≠ p → (t.port p).state = .failed ∧ ∀ q, q ≠ p → (t.port q).state = (s.port q).state)) ∧
  (∀ (s : State) (p k : Nat), p < 48 → (s.port p).state = .training → ∃ t, exec (.portTrainingTimeout p k) s = .next t ∧
      (t.port p).state = .failed ∧ (∀ q, q ≠ p → (t.port q).state = (s.port q).state) ∧
      t.odGet 0x8090 0 = min (2 ^ 64 - 1) (s.odGet 0x8090 0 + 1)) ∧
  (∀ (s : State) (p : Nat) (replays : Bool), p < 48 → (s.port p).state = .up ∨ (s.port p).state = .upNoHarness →
    ∃ t, exec (.portLockLoss p s.moduleId replays) s = .next t ∧ (t.port p).state = .failed ∧
      (∀ q, q ≠ p → (t.port q).state = (s.port q).state) ∧
      (s.job.state = .owned ∨ s.job.state = .opening → bit (t.odGet 0x4013 0) p = true)) ∧
  (∀ (s : State) (p m : Nat) (replays : Bool), p < 48 → m ≠ s.moduleId → s.job.members.contains m = true →
    s.job.state = .owned ∨ s.job.state = .opening → ∃ t, exec (.portLockLoss p m replays) s = .next t ∧ bit (t.odGet 0x4013 0) p = true ∧
      ∀ q, (t.port q).state = (s.port q).state) ∧
  (∀ (s : State) (p : Nat), p < 48 → ∃ t, exec (.harnessLockLoss p) s = .next t ∧ t = { s with ports := t.ports } ∧
      (∀ q, q ≠ p → t.port q = s.port q) ∧
      t.port p = if (s.port p).state = .up then { s.port p with state := .upNoHarness } else s.port p) ∧
  (∀ (s : State) (p : Nat), p < 48 → ∃ t, exec (.harnessLockRegained p) s = .next t ∧ t = { s with ports := t.ports } ∧
      (∀ q, q ≠ p → t.port q = s.port q) ∧
      t.port p = if (s.port p).state = .upNoHarness then { s.port p with state := .up } else s.port p) ∧
  (∀ (s : State) (p : Nat), p < 48 → s.power.rails = true → (s.port p).state = .failed ∨ (s.port p).state = .dark → s.odGet 0x4011 (p + 1) = 1 →
    ∃ t, exec (.portRetrain p) s = .next t ∧ t = { s with ports := t.ports } ∧ (∀ q, q ≠ p → t.port q = s.port q) ∧
      t.port p = { s.port p with state := .training }) ∧
  (∀ (s : State) (k : Nat), k < 128 → exec (.calibrationDone true k) s = .next { s with pllCal := s.pllCal.filter (· != k), pllIdle := if s.pllCal.contains k then k :: s.pllIdle else s.pllIdle }) ∧
  (∀ (s : State) (p : Nat) (h no : Bool), p < 48 → (s.port p).state = .calibrating h no →
    ∃ t, exec (.calibrationDone false p) s = .next t ∧ t = { s with ports := t.ports } ∧
      (∀ q, q ≠ p → t.port q = s.port q) ∧
      t.port p = { s.port p with state := if no then .upNoHarness else .up, idle := some h, both := false }) ∧
  (∀ (s : State) (n : Nat), (48 ≤ n → ∀ a b, exec (.portTraining n a b) s = .fault (.noSuchPort n)) ∧
    (4 ≤ n → ∀ h, exec (.laserLightLoss n h) s = .fault (.noSuchReceptacle n)))

/-- What slot i of batch k of a stream holds. -/
def slotAt (t : Stream) (k i : Nat) : Option SlotState := (t.batches.find? fun b => b.k == k).bind fun b => b.slots[i]?

/-- A running stream whose engine holds a sample for a slot. -/
abbrev Decodes (s : State) (n id : Nat) (d : Decode) (failed last : Nat) : Prop :=
  n < 64 ∧ (s.stream n).state = 1 ∧ (s.stream n).running.find? (fun d => d.id == id) = some d ∧ d.id = id ∧
    slotAt (s.stream n) d.batch d.slot = some (.busy id failed last)

/-- Only the named stream may differ. -/
abbrev OnlyStream (s t : State) (n : Nat) : Prop := ∀ m, m ≠ n → t.stream m = s.stream m

/-- Is every slot of a batch filled or left empty? -/
def batchReady (b : Batch) : Bool :=
  b.slots.all fun v =>
    match v with
    | .full _ _ _ | .empty _ => true
    | _ => false

/-- First address of the queue slot of batch k of a stream (R377). -/
def batchBase (t : Stream) (k : Nat) : Nat := Stream.queue t.record + k % Stream.slots t.record * Stream.slotBytes t.record

/-- The runs that sealing a batch stores to: the payload of each tensor, the valid vector, the manifest, the header. -/
def sealRuns (t : Stream) (b : Batch) : List Run :=
  let base := batchBase t b.k
  let n := Stream.batchSize t.record
  ((tensorPlaces n (tensorBytes (Stream.kind t.record) t.param) 0).1.flatMap fun pl =>
      (List.range b.slots.length).map fun i => (base + payloadOffset n + pl.1 + i * pl.2, pl.2)) ++
    [(base + validOffset n, b.slots.length), (base + 64, 32 * (b.slots.length + n + 64)), (base, 64)]

/-- A Tannery stream opens with its counters at zero, and closes with both commands completed. A STREAM_OPEN that
no check refuses makes its stream RUNNING with the record, the parameters and the merges it read, sets its two
counters to 0, clears its event and leaves its command active. A STREAM_CLOSE of a running stream of the same
context ends the stream, drops its batches and samples, and completes both commands. No other stream changes. -/
def Obligations.StreamsOpenAndClose : Prop :=
  (∀ (s : State) (id r p : Nat) (ms : List (Nat × Nat)) (c : Cmd) (x : Ctx), s.cmd? id = some c → c.opcode = 0x15 → c.stage = .taken →
    (s.block 0x81).fenced = false →
    s.ctx? c.ctx = some x → slmTable s (fld c.entry 105 64) 128 64 = some r → slmTable s (Stream.paramAddr r) 64 64 = some p →
    (if Stream.kind r = 3 then mergeTable s p else some []) = some ms → streamOk s c.ctx x r p = true →
    touchesAbsent s [queueRange r, (Stream.table r, 32 * Stream.entries r)] = false →
    let t := { Stream.init with state := 1, cmd := id, record := r, param := p, merges := ms }
    ∃ u, exec (.streamOpen id) s = .next u ∧
      u = { s with mem := u.mem, poison := u.poison, od := u.od, cells := u.cells, sync := u.sync, cmds := u.cmds, snaps := u.snaps, streams := u.streams } ∧
      u.stream (Stream.no r) = t ∧ OnlyStream s u (Stream.no r) ∧ (u.cmd? id).map (·.stage) = some .active ∧
      (u.obj t.readyCtr).value = 0 ∧ (u.obj t.consumedCtr).value = 0 ∧ (u.obj t.lowEvent).value = 0 ∧
      ∀ k, k ≠ t.readyCtr → k ≠ t.consumedCtr → k ≠ t.lowEvent → u.obj k = s.obj k) ∧
  (∀ (s : State) (id : Nat) (c : Cmd), s.cmd? id = some c → c.opcode = 0x16 → c.stage = .taken →
    let n := fld c.entry 69 64
    (s.stream n).state = 1 → Stream.ctx (s.stream n).record = c.ctx →
    ∃ u, exec (.streamClose id) s = .next u ∧
      u = { s with mem := u.mem, poison := u.poison, od := u.od, cells := u.cells, ctxs := u.ctxs, rings := u.rings, cmds := u.cmds, snaps := u.snaps, streams := u.streams,
                   cache := u.cache } ∧
      u.stream n = { s.stream n with state := 0, batches := [], running := [], parked := [], reserves := [] } ∧ OnlyStream s u n ∧
      u.cmd? id = none ∧ u.cmd? (s.stream n).cmd = none)

/-- Samples are assembled, decoded, replaced or parked, and batches are sealed. A running stream with room begins
its next batch, every slot waiting for its position. A free engine takes the next sample needed, with the
table entry it reads, and a HOST sample is asked for. A decode gives what the bytes of the file hold; one that
ends well fills its slot and enters the mean; a corrupt one is counted and, by policy, leaves the slot empty
or fails the stream (or draws a reserve). Over budget a sample leaves its slot for a reserve or an empty slot,
and a main sample may be parked. A whole oldest batch is sealed: the next batch number, one more on the ready
counter, and no byte outside the batch in its queue slot; after the last batch the stream is DONE and its
command completes. -/
def Obligations.SamplesPassThroughTheTannery : Prop :=
  (∀ (s : State) (n : Nat), n < 64 → (s.stream n).state = 1 → (s.stream n).batches.length < 3 →
    let k := (s.stream n).next + (s.stream n).batches.length
    hasBatch (s.stream n) k = true → k + 1 ≤ (s.obj (s.stream n).consumedCtr).value + Stream.slots (s.stream n).record →
    ∃ t b, exec (.batchAssemble n) s = .next t ∧ t = { s with streams := t.streams } ∧ OnlyStream s t n ∧
      t.stream n = { s.stream n with batches := (s.stream n).batches ++ [b] } ∧ b.k = k ∧ b.events = [] ∧
      b.slots.length = Stream.batchSize (s.stream n).record ∧
      ∀ i, i < b.slots.length → b.slots[i]? = some (.need (Stream.firstPos (s.stream n).record k + i) false 0 0)) ∧
  (∀ (s : State) (n k i pos failed reason : Nat) (rv : Bool), n < 64 → (s.stream n).state = 1 →
    nextNeed (s.stream n) = some (k, i, pos, rv, failed, reason) → slotAt (s.stream n) k i = some (.need pos rv failed reason) →
    let j := indexAt (s.stream n) (Stream.epochOf (s.stream n).record k) pos
    let w := s.rd (Stream.table (s.stream n).record + 32 * j) 32
    let a := Stream.table (s.stream n).record + 32 * j
    (∀ p, poolOf (w % 16) = some p → poolBusy s p.1 < poolLive s p ∧ servedBefore s n k p.1 = false) → loadHeld s [(a, 32)] = false →
    ∃ t d, exec (.sampleStart n) s = .next t ∧
      t = { s with serial := s.serial + 1, mem := t.mem, poison := t.poison, od := t.od, cache := t.cache, streams := t.streams, outbox := t.outbox } ∧ SameBytes s t [] ∧ OnlyStream s t n ∧
      d.entryPoison = s.poisonIn a 32 ∧ d.lost = (bit w 4 && !(s.pcie.bme && s.pcieUp)) ∧
      (s.poisonIn a 32 = false → bit w 4 = true → d.lost = false → entryReadable s w = true → .hostRead d.id (fld w 191 128) (fld w 127 96) ∈ t.outbox) ∧
      (t.stream n).running = (s.stream n).running ++ [d] ∧ d.id = s.serial + 1 ∧ d.batch = k ∧ d.slot = i ∧ d.index = j ∧ d.pos = pos ∧
      d.entry = w ∧ d.reserve = rv ∧ d.deadline = k + 2 ∧
      slotAt (t.stream n) k i = some (.busy d.id failed reason)) ∧
  (∀ (s : State) (n id us op failed last : Nat) (pf : Bool) (sizes : List Nat) (data : List (List Nat)) (d : Decode),
    Decodes s n id d failed last → loadHeld s (deviceRun s d) = false →
    let v := sliceLoads s (deviceRun s d)
    let m := decodedMedia s d pf data
    let r := corruptReason v (s.stream n) d m.reason pf m.dims m.data
    v = { s with mem := v.mem, poison := v.poison, od := v.od, cache := v.cache } ∧
    SameBytes s v [] ∧ ∃ t, exec (.sampleDecoded n id us op pf sizes data) s = .next t ∧ OnlyStream s t n ∧
      (∀ e ∈ (t.stream n).running, e ∈ (s.stream n).running ∧ e.id ≠ id) ∧
      (r = 0 → t = { v with od := t.od, streams := t.streams } ∧
        slotAt (t.stream n) d.batch d.slot = some (.full { d with done := true, dims := m.dims, data := decodedData v (s.stream n) d m.data } (if d.reserve then 1 else 0) last) ∧
        (t.stream n).means = setAt (s.stream n).means (d.entry % 16) (meanAfter ((s.stream n).means.getD (d.entry % 16) 0) us)) ∧
      (r ≠ 0 → t.odGet 0x8062 (n + 1) = min (2 ^ 64 - 1) (v.odGet 0x8062 (n + 1) + 1) ∧
        (Stream.corruptPolicy (s.stream n).record ≤ 1 → t = { v with od := t.od, streams := t.streams }) ∧
        (Stream.corruptPolicy (s.stream n).record = 1 → slotAt (t.stream n) d.batch d.slot = some (.empty r)) ∧
        (2 ≤ Stream.corruptPolicy (s.stream n).record → (t.stream n).state = 3 ∧ t.cmd? (s.stream n).cmd = none))) ∧
  (∀ (s : State) (n id us failed last : Nat) (d : Decode), Decodes s n id d failed last → Stream.slowPolicy (s.stream n).record ≠ 2 →
    decodeBudget s (s.stream n) (d.entry % 16) ≤ us * 2 ^ 20 →
    ∃ t, exec (.sampleOverBudget n id us) s = .next t ∧ t = { s with od := t.od, streams := t.streams } ∧ OnlyStream s t n ∧
      (t.stream n).running = ((s.stream n).running.filter fun e => e.id != id) ∧
      (t.stream n).parked = (if d.reserve = false ∧ Stream.slowPolicy (s.stream n).record = 0 ∧ (s.stream n).parked.length < 64 then (s.stream n).parked ++ [d] else (s.stream n).parked) ∧
      ((∃ p f, slotAt (t.stream n) d.batch d.slot = some (.need p true f slowReason)) ∨ slotAt (t.stream n) d.batch d.slot = some (.empty slowReason))) ∧
  (∀ (s : State) (n us : Nat) (b : Batch) (rest : List Batch), n < 64 → (s.stream n).state = 1 → (s.stream n).batches = b :: rest →
    batchReady b = true →
    let q := s.stream n
    ∃ t, exec (.batchSeal n us) s = .next t ∧ (t.stream n).next = q.next + 1 ∧
      (hasBatch q (b.k + 1) = false → (t.stream n).state = 2 ∧ t.cmd? q.cmd = none) ∧
      (hasBatch q (b.k + 1) = true → (t.stream n).state = 1 ∧ (t.stream n).batches = rest ∧
        t = { s with mem := t.mem, poison := t.poison, od := t.od, cells := t.cells, sync := t.sync, snaps := t.snaps, streams := t.streams,
                     cache := t.cache, outbox := t.outbox } ∧
        ((s.obj q.readyCtr).kind = .counter → (s.obj q.readyCtr).waiters = [] → (s.obj q.lowEvent).waiters = [] →
          q.lowEvent ≠ q.readyCtr → (∀ e ∈ s.streams, e.2.consumedCtr ≠ q.readyCtr) →
          t.obj q.readyCtr = (s.obj q.readyCtr).apply .add 1 ∧ (∀ k, k ≠ q.readyCtr → k ≠ q.lowEvent → t.obj k = s.obj k) ∧
          OnlyStream s t n ∧ SameBytes s t (sealRuns q b))))

/-- A taken command of an opcode. -/
abbrev Taken (s : State) (id opcode : Nat) (c : Cmd) : Prop := s.cmd? id = some c ∧ c.opcode = opcode ∧ c.stage = .taken

/-- A job is opened after its checks, ended by its close, and the module is scrubbed. A JOB_OPEN that no check
refuses adopts the member, region and cell tables and the pattern, clears the counters and flags of a job, and
waits for the first edge with the stitch number to be zeroed there. A JOB_CLOSE ends every command of the job,
every stream, step and piece, completes, and the module scrubs. The end of the scrub leaves no context, no
stream, no object, no Welt pair and no flag, its rings disabled and empty (those of the host and of the
dictionary stay, and their held records are written), the job gone, and is counted. -/
def Obligations.JobsOpenCloseAndScrub : Prop :=
  (∀ (s : State) (id : Nat) (c : Cmd) (p : Peers) (ms rs cs : List Nat) (pat : Pattern), Taken s id 0x01 c → s.job.openCmd = some id →
    openDenied s = false → openChecks s (JobD.ofWord c.entry) p = some (ms, rs, cs, pat) →
    ∃ t, exec (.jobOpen id p.period p.mode p.far p.members p.pattern p.planes) s = .next t ∧
      t = { s with od := t.od, stitch := t.stitch, job := t.job, cellCtr := t.cellCtr, cellFlags := [], clusterFlags := [], moduleFlags := 0,
                   cmds := t.cmds, fab := [], notices := [], fabSeqs := [], snaps := [], streams := [], side := [], stepWord := none, clock := t.clock, missing := [], outbox := t.outbox } ∧
      (s.odGet 0x5001 0 = 0 → t.outbox = s.outbox) ∧
      (t.cmd? id).map (·.stage) = some .active ∧ t.job.state = .opening ∧ t.job.id = (JobD.ofWord c.entry).id ∧ t.job.members = ms ∧
      t.job.regions = rs ∧ t.job.cellsets = cs ∧ t.job.pattern = some pat ∧ t.job.mode = s.odGet 0x5001 0 ∧ t.job.openCmd = some id ∧
      t.job.zeroAtEdge = true ∧ t.stitch.count = s.stitch.count ∧ t.stitch.root = s.odGet 0x5005 0 ∧ t.stitch.standby = s.odGet 0x5005 1 ∧
      t.stitch.lost = false ∧ t.job.budgetMHz = t.odGet 0x5007 0 ∧
      ∀ i ∈ jobCounters, ∀ sub, sub < 256 → t.odGet i sub = Od.dflt (Od.key i sub)) ∧
  (∀ (s : State) (id : Nat) (c : Cmd), Taken s id 0x02 c → s.job.state = .owned →
    ∃ t, exec (.jobClose id) s = .next t ∧
      t = { s with mem := t.mem, poison := t.poison, od := t.od, job := t.job, cells := t.cells, cellFlags := t.cellFlags, welt := t.welt,
                   side := t.side, sync := t.sync, ctxs := t.ctxs, rings := t.rings, cmds := t.cmds, fab := [], notices := [], snaps := [],
                   pllCal := [], pllIdle := [], hostReads := [], streams := t.streams, cache := t.cache, outbox := t.outbox } ∧
      t.job.state = .scrubbing ∧ t.cmd? id = none ∧ (∀ k ∈ s.cmds, k.ring ≠ 1025 → t.cmd? k.id = none) ∧
      (∀ n, (t.stream n).state ≠ 1) ∧ (∀ k, t.pieceOf k = none) ∧ (∀ k x, t.ctx? k = some x → x.step = none)) ∧
  (∀ (s : State) (fails : List (List Nat)) (bad : List Nat), s.job.state = .scrubbing →
    ∃ t, exec (.scrubComplete fails bad) s = .next t ∧ t.job = Job.none ∧ t.ctxs = [] ∧ t.streams = [] ∧ t.cellFlags = [] ∧
      t.clusterFlags = [] ∧ t.moduleFlags = 0 ∧ (s.snaps.all (!·.armed) = true → t.cache = []) ∧ t.side = [] ∧ t.testLevel = none ∧
      (∀ i, t.obj i = SyncObj.free) ∧ t.welt = [] ∧ (∀ c, t.pieceOf c = none) ∧
      (∀ n, (t.ring n).sqHead = 0 ∧ (n < 1024 → (t.ring n).cqTail = 0 ∧ (t.ring n).held = [] ∧ (t.ring n).state = .disabled)) ∧
      t.odGet 0x9030 0 = min (2 ^ 64 - 1) (s.odGet 0x9030 0 + 1))

/-- RUN and GRID put their pieces in the dispatch queue; a deferred class 2 command is refused. A RUN whose pieces
all name its context and no tile counter appends them in order to the queue of its context and becomes active
with that many pieces left. A GRID sets its tile counter to zero and appends the grid. A class 2 command that
has not started and was deferred CLASS2_LIMIT times completes and is no longer held. No other context changes. -/
def Obligations.PiecesAndGridsEnterTheQueue : Prop :=
  (∀ (s : State) (id : Nat) (c : Cmd) (x : Ctx) (ds : List Nat), Taken s id 0x10 c → c.id = id → s.ctx? c.ctx = some x →
    fld c.entry 143 128 ≠ 0 → slmEntries s (fld c.entry 105 64) (fld c.entry 143 128) 64 64 = some ds →
    (∀ d ∈ ds, pdCtx d = c.ctx ∧ pdTileEn d = false) →
    ∃ t k, exec (.run id) s = .next t ∧ t = { s with cmds := t.cmds, ctxs := t.ctxs } ∧ t.cmd? id = some k ∧ k.stage = .active ∧
      k.left = fld c.entry 143 128 ∧
      t.ctx? c.ctx = some { x with queue := x.queue ++ (ds.zipIdx).map fun d => QEntry.piece id d.2 d.1 none false } ∧ OnlyCtx s t c.ctx) ∧
  (∀ (s : State) (id d : Nat) (c : Cmd) (x : Ctx), Taken s id 0x11 c → s.ctx? c.ctx = some x →
    slmTable s (fld c.entry 105 64) 64 64 = some d → pdTileEn d = true → pdCtx d = c.ctx →
    let j := fld d 176 160
    (s.obj j).kind = .tileCounter → (s.obj j).ctx = c.ctx → (s.obj j).leases = [] → (s.obj j).reissue = [] → (s.obj j).held = [] →
    ∃ t, exec (.grid id) s = .next t ∧ t = { s with sync := t.sync, cmds := t.cmds, ctxs := t.ctxs } ∧
      t.ctx? c.ctx = some { x with queue := x.queue ++ [.grid id d j] } ∧ OnlyCtx s t c.ctx ∧ (t.cmd? id).map (·.stage) = some .active ∧
      t.obj j = { s.obj j with value := 0, doneCount := 0, failed := 0, reissue := [] } ∧ ∀ k, k ≠ j → t.obj k = s.obj k) ∧
  (∀ (s : State) (id : Nat) (c : Cmd), s.cmd? id = some c → c.onContext = true → classOf s c.ctx = 2 → c.started = false → s.odGet 0x5012 0 ≠ 0 →
    s.odGet 0x5012 0 ≤ c.k →
    ∃ t, exec (.class2Refuse id) s = .next t ∧ t.cmd? id = none ∧
      t = { s with mem := t.mem, poison := t.poison, od := t.od, cells := t.cells, ctxs := t.ctxs, rings := t.rings, cmds := t.cmds, snaps := t.snaps, cache := t.cache })

/-- Contexts are created, swapped and destroyed; a pattern is loaded and takes effect. A CONTEXT_CREATE that no
check refuses tells the other members its digest of far objects and gives the context its record and its
objects, not resident; it completes at once unless the context is pinned. A CONTEXT_DESTROY that is allowed
frees the objects of the context and removes it. A PATTERN_LOAD that passes its checks leaves the pattern
pending; when it takes effect it is the pattern of the job, its command completes, and no command that has not
started is left whose context has no share of it. At the end of its swap a loaded context is resident and a
saved one is not. -/
def Obligations.ContextsAndPatternsComeAndGo : Prop :=
  (∀ (s : State) (id root r : Nat) (c : Cmd) (os : List (Nat × SyncObj)), Taken s id 0x03 c → s.job.state = .owned →
    slmTable s (fld c.entry 105 64) 64 64 = some r →
    let x := Ctx.fresh r []
    fld r 9 0 = c.ctx → s.ctx? c.ctx = none → recordOk s x = true →
    (if x.objCount = 0 then some [] else slmEntries s x.objAddr x.objCount 16 16).bind (objectsOf s c.ctx) = some os →
    digestOk s (newFarDigest os) root = true → pinRefused s x = false →
    ∃ t, exec (.contextCreate id root) s = .next t ∧
      t = { s with mem := t.mem, poison := t.poison, od := t.od, cells := t.cells, sync := t.sync, ctxs := t.ctxs, rings := t.rings, cmds := t.cmds, snaps := t.snaps, cache := t.cache,
                   outbox := (tellDigest s (newFarDigest os)).outbox } ∧
      t.ctx? c.ctx = some { x with objs := os.map (·.1), createCmd := if x.pinned then some id else none } ∧ OnlyCtx s t c.ctx ∧
      (∀ o ∈ os, t.obj o.1 = o.2) ∧ (∀ k, k ∉ os.map (·.1) → t.obj k = s.obj k) ∧
      (x.pinned = false → t.cmd? id = none) ∧ (x.pinned = true → (t.cmd? id).map (·.stage) = some .active)) ∧
  (∀ (s : State) (id : Nat) (c : Cmd) (x : Ctx), Taken s id 0x04 c → s.job.state = .owned → s.ctx? c.ctx = some x →
    mayDestroy s c.ctx id x = true →
    ∃ t, exec (.contextDestroy id) s = .next t ∧
      t = { s with mem := t.mem, poison := t.poison, od := t.od, cells := t.cells, sync := t.sync, ctxs := t.ctxs, rings := t.rings, cmds := t.cmds, snaps := t.snaps, cache := t.cache } ∧
      t.ctx? c.ctx = none ∧ OnlyCtx s t c.ctx ∧ (∀ o ∈ x.objs, t.obj o = SyncObj.free) ∧ (∀ k, k ∉ x.objs → t.obj k = s.obj k) ∧
      t.cmd? id = none) ∧
  (∀ (s : State) (id root : Nat) (c : Cmd) (p : Pattern), Taken s id 0x05 c → s.job.state = .owned → 1 ≤ fld c.entry 140 128 →
    fld c.entry 140 128 ≤ 4096 → s.stitch.count + 2 ≤ fld c.entry 255 192 → s.job.pending = none →
    admitPattern s s.job.mode (fld c.entry 105 64) (fld c.entry 140 128) (fld c.entry 255 192) = some p →
    digestOk s (patternDigest p) root = true →
    ∃ t, exec (.patternLoad id root) s = .next t ∧ t = { s with job := { s.job with pending := some { pat := p, cmd := id } }, cmds := t.cmds,
                                                                outbox := (tellDigest s (patternDigest p)).outbox } ∧
      (t.cmd? id).map (·.stage) = some .active ∧ ∀ k, k ≠ id → t.cmd? k = s.cmd? k) ∧
  (∀ (s : State) (p : Pending), s.job.pending = some p → p.pat.start ≤ s.stitch.count + 1 →
    ∃ t, exec .patternTakeEffect s = .next t ∧ t.job = { s.job with pattern := some p.pat, pending := none } ∧ t.cmd? p.cmd = none ∧
      t = { s with mem := t.mem, poison := t.poison, od := t.od, job := t.job, cells := t.cells, ctxs := t.ctxs, rings := t.rings, cmds := t.cmds, snaps := t.snaps,
                   cache := t.cache } ∧
      ∀ k ∈ t.cmds, k.started = true ∨ k.onContext = false ∨ ∀ x, t.ctx? k.ctx = some x → hasShare t k.ctx x = true) ∧
  (∀ (s : State) (ctx n : Nat) (x : Ctx), ctx < 1024 → s.ctx? ctx = some x → x.swapEnd = some n → n ≤ s.stitch.count + 1 →
    (∀ id c, x.createCmd = some id → s.cmd? id = some c → c.ctx = ctx) →
    ∃ t y, exec (.swapComplete ctx) s = .next t ∧ t.ctx? ctx = some y ∧ y.swapEnd = none ∧ y.loading = false ∧ y.resident = x.loading ∧
      OnlyCtx s t ctx ∧ (∀ id, x.createCmd = some id → x.loading = true → t.cmd? id = none) ∧
      t = { s with mem := t.mem, poison := t.poison, od := t.od, cells := t.cells, ctxs := t.ctxs, rings := t.rings, cmds := t.cmds, snaps := t.snaps, cache := t.cache })

/-- HOST_COPY reads and writes host memory, and the completions of its reads land. A HOST_COPY toward the device
that nothing refuses sends its read and waits for it; one toward the host sends its bytes as writes of 32
bytes, those of a poisoned sector as zeros marked so, and completes. A completion of a read stores its bytes
at their place (which read as zero in a sector that stays poisoned; poisoned where the read failed) and no
other byte; the last one completes the command. -/
def Obligations.HostCopiesMoveData : Prop :=
  (∀ (s : State) (id : Nat) (bm : Bool) (c : Cmd), Taken s id 0x18 c →
    let d := CopyD.ofWord c.entry
    copyRefuses s d bm = none →
    (d.toHost = false → ∃ t, exec (.hostCopyToDevice id bm) s = .next t ∧
      t = { s with serial := s.serial + 1, cmds := t.cmds, pcie := t.pcie, hostReads := s.hostReads ++ [{ id := s.serial, cmd := id, addr := d.addr, bytes := d.bytes, left := d.bytes }],
                   outbox := s.outbox ++ [.hostRead s.serial d.host d.bytes] } ∧
      (t.cmd? id).map (·.stage) = some .active ∧ ∀ k, k ≠ id → t.cmd? k = s.cmd? k) ∧
    (d.toHost = true → loadHeld s [(d.addr, d.bytes)] = false → ∃ t, exec (.hostCopyToHost id bm) s = .next t ∧
      t = { s with free := t.free, mem := t.mem, poison := t.poison, od := t.od, cells := t.cells, ctxs := t.ctxs, rings := t.rings, cmds := t.cmds, snaps := t.snaps,
                   cache := t.cache, pcie := t.pcie, outbox := t.outbox } ∧
      t.cmd? id = none ∧
      t.outbox = s.outbox ++ (List.range (d.bytes / 32)).map fun i =>
        .hostWrite (d.host + 32 * i) (outSector s (d.addr + 32 * i)).1 (outSector s (d.addr + 32 * i)).2)) ∧
  (∀ (s : State) (id off : Nat) (data : List Byte) (fail : Bool) (r : HostRead), s.hostReads.find? (fun r => r.id == id) = some r → r.id = id →
    let bs := data.take (min r.left (r.bytes - off))
    storeHeld s [(r.addr + off, bs.length)] = false →
    ∃ t, exec (.pcieReadCompletion id off data fail) s = .next t ∧
      (r.left ≤ bs.length → t.cmd? r.cmd = none ∧ t.hostReads = s.hostReads.filter (fun q => q.id != id)) ∧
      (bs.length < r.left →
        t = { s with mem := t.mem, poison := t.poison, od := t.od, cells := t.cells, cmds := t.cmds, snaps := t.snaps, hostReads := t.hostReads,
                     cache := t.cache } ∧
        t.hostReads.find? (fun r => r.id == id) = some { r with left := r.left - bs.length } ∧ SameBytes s t [(r.addr + off, bs.length)] ∧
        ∀ i, i < bs.length → targetDown s (r.addr + off + i) = false → ¬ stagedAt s (r.addr + off + i) →
          t.byte (r.addr + off + i) = (if t.poisonAt (r.addr + off + i) then 0 else bs.getD i 0) ∧ (fail = true → t.poisonAt (r.addr + off + i) = true)))

/-- Ring entries are taken in turn; doorbells, heads and enables act or fault the ring. The next entry of the ring
served next is taken: its head moves by one and the command is held (an access of the object dictionary joins
its queue, or ends where its server is fenced; a JOB_OPEN taken while no job has the module makes its state
OPENING); one that breaks the entry rules completes at once and is not held. A legal SQ_TAIL or CQ_HEAD is
stored; an illegal one faults the ring with cause 2 or 3. Clearing ENABLE discards the records held and counts
them; setting it starts the ring with legal bases and sizes and faults it with cause 1 otherwise. No other
ring changes. -/
def Obligations.RingsTakeEntriesAndDoorbells : Prop :=
  (∀ (s : State) (n : Nat), s.secure.boot = 2 → s.schedDown = false → s.job.state ≠ .scrubbing → nextRing (markHeld s) = some n → s.cmd? s.serial = none →
    let m := markHeld s
    let w := entryWord m (nextEntryAddr (m.ring n))
    ∃ t, exec .ringEntryTake s = .next t ∧ t.serial = s.serial + 1 ∧ t.lastRing = roundPlace n + 1 ∧
      (t.ring n).sqHead = ((m.ring n).sqHead + 1) % 2 ^ (m.ring n).sqLog ∧ (∀ k, k ≠ n → t.ring k = m.ring k) ∧
      (n = 1025 → (s.block 0x84).fenced = true → t.cmd? s.serial = none ∧ t.odQueue = s.odQueue) ∧
      (n = 1025 → (s.block 0x84).fenced = false →
        t.cmds = s.cmds ++ [{ Cmd.fresh s.serial n (m.ring n).serial w.1 with stage := .active }] ∧ ∃ q, t.odQueue = s.odQueue ++ [q] ∧ q.who = .ring ∧ q.tag = s.serial ∧
        t = { s with serial := t.serial, rings := t.rings, cmds := t.cmds, lastRing := t.lastRing, odQueue := t.odQueue }) ∧
      (n < 1024 → w.2 = false → ringEntryOk s n w.1 = true → placesTaken s n < 256 → (∃ x, s.ctx? n = some x ∧ hasShare s n x = true) →
        t.cmds = s.cmds ++ [Cmd.fresh s.serial n (m.ring n).serial w.1] ∧
        t = { s with serial := t.serial, ctxs := t.ctxs, rings := t.rings, cmds := t.cmds, lastRing := t.lastRing }) ∧
      (n = 1024 → w.2 = false → ringEntryOk s n w.1 = true →
        t.cmds = s.cmds ++ [Cmd.fresh s.serial n (m.ring n).serial w.1] ∧
        t.job = (if fld w.1 7 0 = 1 ∧ s.job.state = .idle then { s.job with state := .opening, openCmd := some s.serial } else s.job)) ∧
      (n ≠ 1025 → (w.2 = true ∨ ringEntryOk s n w.1 = false) → ∀ c ∈ t.cmds, c ∈ s.cmds ∧ c.id ≠ s.serial)) ∧
  (∀ (s : State) (n v : Nat), n < 1026 → bar0Live s = true → (s.ring n).serves = true → s.job.state ≠ .scrubbing →
    let r := s.ring n
    (v < 2 ^ r.sqLog → (v + 2 ^ r.sqLog - r.sqTail) % 2 ^ r.sqLog ≤ r.sqFree → exec (.sqTail n v) s = .next (s.setRing n { r with sqTail := v })) ∧
    (2 ^ r.sqLog ≤ v ∨ r.sqFree < (v + 2 ^ r.sqLog - r.sqTail) % 2 ^ r.sqLog →
      exec (.sqTail n v) s = .next (s.setRing n { r with state := .fault, cause := 2 })) ∧
    (v < 2 ^ r.cqLog → (v + 2 ^ r.cqLog - r.cqHead) % 2 ^ r.cqLog ≤ (r.cqTail + 2 ^ r.cqLog - r.cqHead) % 2 ^ r.cqLog →
      ∃ t, exec (.cqHead n v) s = .next t ∧ (t.ring n).cqHead = v ∧ (∀ k, k ≠ n → t.ring k = s.ring k) ∧
        t = { s with mem := t.mem, poison := t.poison, od := t.od, cells := t.cells, rings := t.rings, snaps := t.snaps, cache := t.cache }) ∧
    (2 ^ r.cqLog ≤ v ∨ (r.cqTail + 2 ^ r.cqLog - r.cqHead) % 2 ^ r.cqLog < (v + 2 ^ r.cqLog - r.cqHead) % 2 ^ r.cqLog →
      exec (.cqHead n v) s = .next (s.setRing n { r with state := .fault, cause := 3 }))) ∧
  (∀ (s : State) (n sq cq sl cl : Nat), n < 1026 → bar0Live s = true →
    ∃ t, exec (.ringEnable n false sq cq sl cl) s = .next t ∧ t = { s with rings := t.rings } ∧ (∀ k, k ≠ n → t.ring k = s.ring k) ∧
      (t.ring n).enable = false ∧ (t.ring n).state = .disabled ∧ (t.ring n).held = [] ∧
      (t.ring n).cqDropped = ((s.ring n).cqDropped + (s.ring n).held.length) % 2 ^ 32) ∧
  (∀ (s : State) (n sq cq sl cl : Nat), n < 1026 → bar0Live s = true → (s.ring n).enable = false →
    let r := { s.ring n with sqBase := sq % 2 ^ 42, cqBase := cq % 2 ^ 42, sqLog := sl % 16, cqLog := cl % 16 }
    exec (.ringEnable n true sq cq sl cl) s =
      .next (s.setRing n (if ringConfigOk s r then ringStart r else { r with state := .fault, cause := 1 })))

/-- BAR2 moves its window, and reads and writes what lies behind it. A write of the window base takes effect where
the value is a multiple of the size. A read answers, byte by byte, the memory behind the window, zero for
poisoned sectors (and marked so) and zero where there is nothing. A write stores its bytes and no other, which
read back but in a sector that stays poisoned; a poisoned write stores none and marks the sectors it meets.
What a stack held at level 3 would have to serve is not meant here. A BAR2 that is not live does nothing. -/
def Obligations.Bar2ReadsAndWritesMemory : Prop :=
  (∀ (s : State) (v l : Nat), bar0Live s = true → 30 ≤ l → l ≤ 40 →
    exec (.bar2WindowBase v l) s = .next { s with bar2Log := l, bar2Base := if v % 2 ^ l = 0 then v else s.bar2Base }) ∧
  (∀ (s : State) (o n : Nat), bar0Live s = true → loadHeld s (bar2Runs s (s.bar2Base + o) n) = false →
    ∃ t bs ep, exec (.bar2Read o n) s = .next t ∧
      t = { s with free := s.free + 1, mem := t.mem, poison := t.poison, od := t.od, cache := t.cache, outbox := s.outbox ++ [.bar2Data bs ep] } ∧ SameBytes s t [] ∧ bs.length = n ∧
      ∀ i, i < n → (∀ a, viewAddr (s.bar2Base + o + i) = some a → bar2Reaches s a = true → targetDown s a = false →
          bs.getD i 0 = (if s.poisonAt a then 0 else s.byte a) ∧ (s.poisonAt a = true → ep = true)) ∧
        (viewAddr (s.bar2Base + o + i) = none → bs.getD i 0 = 0)) ∧
  (∀ (s : State) (o a : Nat) (data : List Byte), bar0Live s = true →
    (∀ i, i < data.length → viewAddr (s.bar2Base + o + i) = some (a + i) ∧ bar2Reaches s (a + i) = true ∧ targetDown s (a + i) = false) →
    storeHeld s (bar2Runs s (s.bar2Base + o) data.length) = false →
    (∃ t, exec (.bar2Write o data false) s = .next t ∧
      t = { s with mem := t.mem, poison := t.poison, od := t.od, cells := t.cells, snaps := t.snaps, cache := t.cache } ∧ SameBytes s t [(a, data.length)] ∧
      ∀ i, i < data.length → ¬ stagedAt s (a + i) →
        t.byte (a + i) = if t.poisonAt (a + i) then 0 else data.getD i 0) ∧
    (∃ t, exec (.bar2Write o data true) s = .next t ∧
      t = { s with mem := t.mem, poison := t.poison, od := t.od, cells := t.cells, snaps := t.snaps, cache := t.cache } ∧ SameBytes s t [(a, data.length)] ∧
      ∀ i, i < data.length → ¬ stagedAt s (a + i) → t.poisonAt (a + i) = true ∧ t.byte (a + i) = 0)) ∧
  (∀ (s : State) (o n : Nat) (data : List Byte) (ep : Bool), bar0Live s = false →
    exec (.bar2Read o n) s = .next s ∧ exec (.bar2Write o data ep) s = .next s)

/-- The state in which the server makes its next access: the oldest request is taken out of its queue (R485). -/
def served (s : State) (rest : List OdReq) : State := { s with odQueue := rest }

/-- The server's next request is for an entry that exists, through a row that serves it, and nothing stops the access
before the entry's own rules (R460, R485, R489, R492, R500). -/
abbrev OdTakes (s : State) (k : OdKind) (q : OdReq) (rest : List OdReq) (e : OdEntry) : Prop :=
  s.odQueue = q :: rest ∧ serverUp s = true ∧ (OdBlk.ofWord q.block).servedBy k = true ∧
    odStops q (OdBlk.ofWord q.block) (odData s q (OdBlk.ofWord q.block)).1 (odData s q (OdBlk.ofWord q.block)).2 = none ∧
    Od.entry? (OdBlk.ofWord q.block).index (OdBlk.ofWord q.block).sub = some e ∧
    (s.secure.boot = 3 → inRecovery (OdBlk.ofWord q.block).index = true) ∧ odDenied s q.who (OdBlk.ofWord q.block) = false

/-- A legal value for a non-DOMAIN entry that may be written now (R482, R483). -/
abbrev OdLegal (s : State) (e : OdEntry) (data : List Byte) : Prop :=
  e.right ≠ .ro ∧ e.right ≠ .const ∧ e.ty ≠ .domain ∧ (e.ty ≠ .vstr → data.length = e.ty.size) ∧ data.length ≤ 255 ∧
    (e.right = .rwi → s.job.state = .idle) ∧ e.admits (leNat data) = true

/-- A WRITE of a value to an entry, served by a row. -/
abbrev OdWrites (s : State) (k : OdKind) (q : OdReq) (rest : List OdReq) (e : OdEntry) (index sub v : Nat) : Prop :=
  OdTakes s k q rest e ∧ (OdBlk.ofWord q.block).op = 0x31 ∧ (OdBlk.ofWord q.block).index = index ∧
    (OdBlk.ofWord q.block).sub = sub ∧ OdLegal s e (odData s q (OdBlk.ofWord q.block)).1 ∧
    leNat (odData s q (OdBlk.ofWord q.block)).1 = v

/-- The entries that more happens at than the keeping of a value. -/
def ruledEntries : List Nat :=
  [0x3010, 0x4011, 0x7003, 0x7020, 0x7021, 0x7030, 0x7040, 0x7041, 0x7042, 0x8090, 0x9004, 0x9006, 0x9011, 0x9023]

/-- The command answers OK, with bytes and a length, and leaves the state t but for the answer itself. -/
abbrev OdDone (i : Instr) (s : State) (q : OdReq) (t : State) (data : List Byte) (total : Nat) : Prop :=
  exec i s = .next (odAnswer q (OdBlk.ofWord q.block) { st := t, res := OdRes.ok, data := data, total := total, reset := false })

/-- The rows that serve a SEG_WRITE. -/
def segWriteRows : List (OdKind × Instr) := [(.segWrite, .odSegWrite), (.stageData, .fwStageData), (.token, .debugToken)]

/-- A segment of a requester's open write transfer, in order and not too long (R487). -/
abbrev SegmentFits (s : State) (q : OdReq) (t : Transfer) : Prop :=
  s.transfers.find? (fun t => t.is q.who (OdBlk.ofWord q.block)) = some t ∧ t.moved = (OdBlk.ofWord q.block).off ∧
    t.total = (OdBlk.ofWord q.block).total ∧ t.moved + (odData s q (OdBlk.ofWord q.block)).1.length ≤ t.total

/-- The object-dictionary server reads and writes its entries one request at a time. A READ of a readable entry
whose value fits the buffer answers the value and changes nothing. A WRITE of a legal value keeps it in the
entry, and where the entry has a rule (cache partition, port enable, boot level, events read) does what the
rule says. A WRITE of a read-only entry answers READ_ONLY and changes nothing. Each takes exactly the oldest
request. -/
def Obligations.EntriesAreReadAndWritten : Prop :=
  (∀ (s : State) (q : OdReq) (rest : List OdReq) (e : OdEntry), OdTakes s .read q rest e → (OdBlk.ofWord q.block).op = 0x30 →
    e.right ≠ .wo → e.ty ≠ .domain →
    let v := odBytes (served s rest) e (OdBlk.ofWord q.block).index (OdBlk.ofWord q.block).sub
    v.length ≤ (OdBlk.ofWord q.block).len → OdDone .odRead s q (served s rest) v 0) ∧
  (∀ (s : State) (q : OdReq) (rest : List OdReq) (e : OdEntry) (index sub v : Nat), OdWrites s .write q rest e index sub v →
    (index ∉ ruledEntries → OdDone .odWrite s q ((served s rest).odSet index sub v) [] 0) ∧
    (index = 0x3010 → ringsClear ((served s rest).odSet index sub v) = true → OdDone .odWrite s q ((served s rest).odSet index sub v) [] 0) ∧
    (index = 0x4011 → ∃ t, OdDone .odWrite s q t [] 0 ∧ t.odGet 0x4011 sub = v ∧
      (t.port (sub - 1)).state = (if v = 0 then .disabled else if (s.port (sub - 1)).state = .disabled then .training else (s.port (sub - 1)).state)) ∧
    (index = 0x7003 → OdDone .odWrite s q { served s rest with flash := { s.flash with bootLevel := v } } [] 0) ∧
    (index = 0x8090 → v ≤ s.odGet 0x8090 0 → OdDone .odWrite s q ((served s rest).odSet index sub v) [] 0)) ∧
  (∀ (s : State) (q : OdReq) (rest : List OdReq) (e : OdEntry), OdTakes s .write q rest e → (OdBlk.ofWord q.block).op = 0x31 →
    e.right = .ro ∨ e.right = .const →
    exec .odWrite s = .next (odAnswer q (OdBlk.ofWord q.block) (OdAns.result (served s rest) OdRes.readOnly)))

/-- Segmented transfers read, stage, unlock, and end. A SEG_READ answers the next bytes of the copy taken at
offset 0 (the certificate or a fresh report) and moves the transfer on, or ends it with its last byte; other
transfers stay. A segment of a write joins its transfer. The first of a bundle erases the inactive slot; the
last programs it and verifies it. The last of a token unlocks its scopes or counts a refusal, and the
challenge changes either way. An abort or a time-out ends the transfer, and staging with it. -/
def Obligations.SegmentsMoveDomainValues : Prop :=
  (∀ k i, (k, i) ∈ [(OdKind.segRead, Instr.odSegRead), (.report, .attestReport)] →
    ∀ (s : State) (q : OdReq) (rest : List OdReq) (e : OdEntry), OdTakes s k q rest e → (OdBlk.ofWord q.block).op = 0x32 → e.right ≠ .wo →
    e.ty = .domain → ∀ d moved, ((OdBlk.ofWord q.block).off = 0 ∧ moved = 0 ∧ d = domainValue s q.who (OdBlk.ofWord q.block).index ∨
      (OdBlk.ofWord q.block).off ≠ 0 ∧ ∃ t, s.transfers.find? (fun t => t.is q.who (OdBlk.ofWord q.block)) = some t ∧ t.moved = (OdBlk.ofWord q.block).off ∧
        t.total = (OdBlk.ofWord q.block).total ∧ d = t.data ∧ moved = t.moved) →
    ∃ u, OdDone i s q u ((d.drop moved).take (OdBlk.ofWord q.block).len) d.length ∧ u = { s with odQueue := rest, transfers := u.transfers } ∧
      (∀ t ∈ u.transfers, t.is q.who (OdBlk.ofWord q.block) = true → t.data = d ∧ t.moved = moved + ((d.drop moved).take (OdBlk.ofWord q.block).len).length ∧ t.moved < d.length) ∧
      ∀ t ∈ s.transfers, t.is q.who (OdBlk.ofWord q.block) = false → t ∈ u.transfers) ∧
  (∀ k i, (k, i) ∈ segWriteRows → ∀ (s : State) (q : OdReq) (rest : List OdReq) (e : OdEntry) (t : Transfer), OdTakes s k q rest e →
    (OdBlk.ofWord q.block).op = 0x33 → e.right ≠ .ro → e.right ≠ .const → e.ty = .domain → SegmentFits s q t →
    let d := (odData s q (OdBlk.ofWord q.block)).1
    (t.moved + d.length < t.total → 0 < t.moved →
      OdDone i s q { served s rest with transfers := (s.transfers.filter fun x => !x.is q.who (OdBlk.ofWord q.block)) ++
        [{ t with moved := t.moved + d.length, data := t.data ++ d }] } [] 0) ∧
    (t.moved + d.length = t.total → 0 < t.moved → (OdBlk.ofWord q.block).index = 0x9002 →
      ∃ u, OdDone i s q u [] 0 ∧ u = { s with odQueue := rest, transfers := u.transfers, flash := u.flash, secure := { s.secure with stage := u.secure.stage } } ∧
        u.flash.slot (!s.secure.active) = t.data ++ d ∧ u.flash.slot s.secure.active = s.flash.slot s.secure.active ∧
        u.secure.stage = if slotOk u.flash (!s.secure.active) then 2 else 3) ∧
    (t.moved + d.length = t.total → (OdBlk.ofWord q.block).index = 0x9021 →
      ∃ u, exec i s = .next (odAnswer q (OdBlk.ofWord q.block) (OdAns.result u (if tokenOk s (t.data ++ d) then OdRes.ok else OdRes.state))) ∧
        u.secure.challenge = s.free ∧ u.free = s.free + 1 ∧
        u.secure.scope = (if tokenOk s (t.data ++ d) then s.secure.scope ||| fld (leNat ((t.data ++ d).take 128)) 703 672 else s.secure.scope) ∧
        u.secure.refusals = (if tokenOk s (t.data ++ d) then s.secure.refusals else s.secure.refusals + 1))) ∧
  (∀ (s : State) (q : OdReq) (rest : List OdReq) (e : OdEntry), OdTakes s .stageData q rest e → (OdBlk.ofWord q.block).op = 0x33 →
    (OdBlk.ofWord q.block).index = 0x9002 → e.right ≠ .ro → e.right ≠ .const → e.ty = .domain → (OdBlk.ofWord q.block).off = 0 →
    (∀ t ∈ s.transfers, t.index ≠ 0x9002) → (OdBlk.ofWord q.block).total ≤ bundleMax →
    (odData s q (OdBlk.ofWord q.block)).1.length < (OdBlk.ofWord q.block).total →
    ∃ u, OdDone .fwStageData s q u [] 0 ∧ u.flash.slot (!s.secure.active) = [] ∧ u.secure.stage = 1 ∧ u.transfers = s.transfers ++
      [{ who := q.who, write := true, index := 0x9002, sub := (OdBlk.ofWord q.block).sub, total := (OdBlk.ofWord q.block).total,
         moved := (odData s q (OdBlk.ofWord q.block)).1.length, data := (odData s q (OdBlk.ofWord q.block)).1 }]) ∧
  (∀ (s : State) (q : OdReq) (rest : List OdReq) (e : OdEntry) (t : Transfer), OdTakes s .segAbort q rest e → e.ty = .domain →
    (OdBlk.ofWord q.block).op = 0x34 → s.transfers.find? (fun t => t.is q.who (OdBlk.ofWord q.block)) = some t →
    ∃ u, OdDone .odSegAbort s q u [] 0 ∧ u.transfers = s.transfers.erase t ∧
      u = { s with odQueue := rest, transfers := u.transfers, flash := u.flash, secure := u.secure } ∧
      (t.index ≠ 0x9002 → u.flash = s.flash ∧ u.secure = s.secure) ∧
      (t.index = 0x9002 → s.secure.stage = 1 → u.secure.stage = 0 ∧ u.flash.slot (!s.secure.active) = [])) ∧
  (∀ (s : State) (n : Nat) (t : Transfer), s.transfers[n]? = some t →
    ∃ u, exec (.segTransferTimeout n) s = .next u ∧ u.transfers = s.transfers.erase t ∧
      u = { s with transfers := u.transfers, flash := u.flash, secure := u.secure } ∧
      (t.index = 0x9002 → s.secure.stage = 1 → u.secure.stage = 0))

/-- Entries with rules of their own act when they are written. FW_ACTIVATE with a verified bundle writes the
selector for a trial boot and resets the module. SVN_COMMIT raises FUSED_SVN to that of the active bundle and
rejects an older staged one. A nonce is kept for its requester alone. DEBUG_LOCK and the end of the lifetime
end the unlock and test mode, and a scrub follows one beyond BOUNDARY. Test requests start the scrub with
their level. CAL_REQUEST starts the slots of the ports or of the PLLs. TEST_MODE needs IDLE and its scope, and
answers STATE otherwise; in it STACK_PPR repairs once per row and BIST_UNIT lists what it finds of its unit;
an optical engine that it finds failed fails its port. -/
def Obligations.RuledEntriesAct : Prop :=
  (∀ (s : State) (q : OdReq) (rest : List OdReq) (e : OdEntry), OdWrites s .activate q rest e 0x9004 0 1 → s.secure.stage = 2 →
    ∃ t, exec .fwActivate s = .next t ∧ t.flash = s.flash.writeSelector (!s.secure.active) true ∧ t.secure.boot = 0 ∧ t.stitch.count = 0 ∧
      t.mem = [] ∧ t.odQueue = [] ∧ t.power.resetLow = true) ∧
  (∀ (s : State) (q : OdReq) (rest : List OdReq) (e : OdEntry), OdWrites s .svnCommit q rest e 0x9006 0 1 → svnMay s = true →
    ∃ t, OdDone .svnCommit s q t [] 0 ∧ t = { s with odQueue := rest, od := t.od, flash := t.flash, secure := t.secure } ∧
      t.flash.fusedSvn = min 128 (activeSvn s) ∧ s.flash.fusedSvn < t.flash.fusedSvn ∧
      (s.flash.slot (!s.secure.active) ≠ [] → Config.bundleSvn (s.flash.slot (!s.secure.active)) < t.flash.fusedSvn → t.secure.stage = 3)) ∧
  (∀ (s : State) (q : OdReq) (rest : List OdReq) (e : OdEntry) (v : Nat), OdWrites s .nonce q rest e 0x9011 0 v →
    ∃ t, OdDone .attestNonce s q t [] 0 ∧ t = { s with odQueue := rest, secure := t.secure } ∧ nonceOf t q.who = v ∧
      ∀ w, w ≠ q.who → nonceOf t w = nonceOf s w) ∧
  (∀ (s : State) (q : OdReq) (rest : List OdReq) (e : OdEntry), OdWrites s .lock q rest e 0x9023 0 1 →
    ∃ t, OdDone .debugLock s q t [] 0 ∧ t.secure.scope = 0 ∧ t.odGet 0x7040 0 = 0 ∧ (2 ≤ s.secure.scope → t.job.state = .scrubbing) ∧
      (s.secure.scope < 2 → t = { s with odQueue := rest, od := t.od, secure := t.secure })) ∧
  (∀ s : State, s.secure.scope ≠ 0 → ∃ t, exec .debugUnlockExpiry s = .next t ∧ t.secure.scope = 0 ∧ t.odGet 0x7040 0 = 0 ∧
      (2 ≤ s.secure.scope → t.job.state = .scrubbing) ∧ (s.secure.scope < 2 → t = { s with od := t.od, secure := t.secure })) ∧
  (∀ (s : State) (q : OdReq) (rest : List OdReq) (e : OdEntry) (v : Nat),
    (OdWrites s .bistRequest q rest e 0x7020 0 v → ∃ t, OdDone .bistRequest s q t [] 0 ∧ t.testLevel = some v ∧ t.job.state = .scrubbing ∧ t.odGet 0x7022 0 = 1) ∧
    (OdWrites s .bistForce q rest e 0x7021 0 v → ∃ t, OdDone .bistForce s q t [] 0 ∧ t.testLevel = some v ∧ t.job.state = .scrubbing ∧ t.odGet 0x7022 0 = 1) ∧
    (OdWrites s .calRequest q rest e 0x7030 0 v → ∃ t, OdDone .calRequest s q t [] 0 ∧
      t = { s with odQueue := rest, od := t.od, ports := t.ports, pllCal := t.pllCal } ∧
      (v = 1 → t.pllCal = s.pllCal ∧ ∀ p, p < 48 → (t.port p).state = (match (s.port p).state with | .up => .calibrating false false | .upNoHarness => .calibrating false true | x => x) ∧
        ((s.port p).state = .up ∨ (s.port p).state = .upNoHarness → (t.port p).both = true)) ∧
      (v ≠ 1 → t.ports = s.ports ∧ t.pllCal = List.range 128)) ∧
    (OdWrites s .testMode q rest e 0x7040 0 v → (v = 1 → s.job.state = .idle ∧ bit s.secure.scope 4 = true) →
      OdDone .testMode s q ((served s rest).odSet 0x7040 0 v) [] 0) ∧
    (OdWrites s .testMode q rest e 0x7040 0 v → v = 1 → s.job.state ≠ .idle ∨ bit s.secure.scope 4 = false →
      exec .testMode s = .next (odAnswer q (OdBlk.ofWord q.block) (OdAns.result (served s rest) OdRes.state))) ∧
    (OdWrites s .stackPpr q rest e 0x7041 0 v → s.odGet 0x7040 0 = 1 → s.flash.ppr.contains (pprKey v) = false → fld v 47 43 < 12 →
      ∃ t, OdDone .stackPpr s q t [] 0 ∧ t = { s with odQueue := rest, flash := { s.flash with ppr := t.flash.ppr, pprRows := s.flash.pprRows ++ [(pprKey v, fld v 31 0)] } } ∧
        ∀ k, k ∈ t.flash.ppr ↔ k = pprKey v ∨ k ∈ s.flash.ppr) ∧
    (∀ fails, OdWrites s .bistUnit q rest e 0x7042 0 v → s.odGet 0x7040 0 = 1 → 1 ≤ fld v 31 24 → fld v 31 24 ≤ 0x0D →
      let mine := (fails.map Fail.ofList).filter fun f => f.real && f.kind == fld v 31 24 && f.unit == fld v 15 0
      ∃ t, OdDone (.bistUnit fails) s q t [] 0 ∧ t.flash.pendingRepairs.length = s.flash.pendingRepairs.length + mine.length ∧
        (fld v 31 24 ≠ 0x0C ∨ mine = [] → t = { s with odQueue := rest, od := t.od, flash := t.flash }) ∧
        (fld v 31 24 = 0x0C → mine ≠ [] → fld v 15 0 < 48 → (t.port (fld v 15 0)).state = .failed)))

/-- The mailbox takes one request at a time, and answers go back over their carrier. A doorbell with the mailbox
free sets BUSY and puts the request last in the queue of the server; RESULT of the request reads 0, and
reserved bits that are set make it one that is refused. A doorbell while BUSY changes nothing. An answer to
the mailbox writes the data, LENGTH, RESULT and TAG and clears BUSY; one to the ring completes its command;
one to a session goes out as a datagram, kept as the last of its session. -/
def Obligations.RequestsArriveAndAnswersGoOut : Prop :=
  (∀ (s : State) (tag request : Nat) (data : List Byte), mailboxUp s = true → s.mailbox.busy = false →
    ∃ t q, exec (.mbDoorbell tag request data) s = .next t ∧ t = { s with mailbox := t.mailbox, odQueue := s.odQueue ++ [q] } ∧
      t.mailbox.busy = true ∧ q.who = .mailbox ∧ q.tag = tag % 256 ∧ q.block = setFld (request % 2 ^ 256) 47 40 0 ∧
      t.mailbox.request = q.block ∧ t.mailbox.tag = s.mailbox.tag ∧ t.mailbox.result = s.mailbox.result ∧ t.mailbox.length = s.mailbox.length ∧
      (q.refused = none ↔ blockRsvOk q.block = true) ∧ (data.length = 32768 → t.mailbox.data = data ∧ q.data = data.take (OdBlk.ofWord q.block).len)) ∧
  (∀ (s : State) (tag request : Nat) (data : List Byte), s.mailbox.busy = true → exec (.mbDoorbell tag request data) s = .next s) ∧
  (∀ (q : OdReq) (b : OdBlk) (a : OdAns), q.who = .mailbox →
    let t := odAnswer q b a
    t = { a.st with mailbox := t.mailbox } ∧ t.mailbox.busy = false ∧ t.mailbox.tag = q.tag ∧ t.mailbox.result = a.res ∧
      t.mailbox.length = a.data.length ∧ t.mailbox.data.take a.data.length = a.data) ∧
  (∀ (q : OdReq) (b : OdBlk) (a : OdAns), q.who = .ring → ∀ c, a.st.cmd? q.tag = some c →
    let t := odAnswer q b a
    t = { a.st with mem := t.mem, poison := t.poison, od := t.od, cells := t.cells, ctxs := t.ctxs, rings := t.rings, cmds := t.cmds, snaps := t.snaps,
                    cache := t.cache } ∧
      t.cmd? q.tag = none) ∧
  (∀ (q : OdReq) (b : OdBlk) (a : OdAns) (id : Nat) (x : Session), q.who = .session id → a.st.sessions.find? (fun x => x.id == id) = some x →
    let t := odAnswer q b a
    ∃ f, t = { a.st with sessions := t.sessions, outbox := a.st.outbox ++ [.datagram f] } ∧
      t.sessions.find? (fun x => x.id == id) = some { x with last := f })

/-- A tagged frame of a kind whose TAG is that of its session (R498, R501). -/
abbrev FrameComes (s : State) (bs : List Byte) (kind : Nat) (f : Frame) (x : Session) : Prop :=
  fieldUp s = true ∧ Frame.read bs kind 32 = some f ∧ frameSession s f = some x

/-- Field-network sessions open, serve each number once, and close; the network is answered. An OPEN that is
accepted with fewer than four sessions adds a session with a number no other has, and answers ACCEPT. A
REQUEST with a new number joins the queue of the server and is remembered; the same number again repeats the
stored response; a lower one is counted as a replay, and an unknown session or a wrong TAG as a bad tag. CLOSE
and an idle time-out end the session with its queued accesses, its transfers and its nonce. A module that is
up answers solicitations with its link-local and MAC addresses, and echo requests, and notes the PLCA beacon. -/
def Obligations.SessionsOpenServeAndClose : Prop :=
  (∀ (s : State) (bs : List Byte) (f : Frame) (full : Bool), fieldUp s = true → Frame.read bs 0x01 0 = some f → f.sid = 0 →
    openScope s f = some full → s.sessions.length < 4 →
    ∃ t x g, exec (.jaolpenOpen bs) s = .next t ∧
      t = { s with free := s.free + 1, od := t.od, sessions := s.sessions ++ [x], outbox := s.outbox ++ [.datagram g] } ∧
      x.full = full ∧ x.lastSeq = 0 ∧ x.last = [] ∧ (∀ y ∈ s.sessions, y.id ≠ x.id) ∧ t.odGet 0x8082 1 = min (2 ^ 64 - 1) (s.odGet 0x8082 1 + 1) ∧
      g.take 32 = frameHeader f.seq x.id 4429 0 0x02 ∧ g.length = 4461) ∧
  (∀ (s : State) (bs : List Byte) (f : Frame) (x : Session), FrameComes s bs 0x10 f x →
    (x.lastSeq < f.seq → ∃ t q, exec (.jaolpenRequest bs) s = .next t ∧
      t = { s with od := t.od, odQueue := s.odQueue ++ [q], sessions := t.sessions } ∧ q.who = .session x.id ∧ q.tag = f.seq ∧
      q.block = setFld (leNat (f.payload.take 32)) 47 40 0 ∧ q.data = f.payload.drop 32 ∧
      (q.refused = none ↔ 32 ≤ f.payload.length ∧ blockRsvOk (leNat (f.payload.take 32)) = true) ∧
      t.sessions.find? (fun y => y.id == x.id) = some { x with lastSeq := f.seq, last := [] } ∧
      t.odGet 0x8082 1 = min (2 ^ 64 - 1) (s.odGet 0x8082 1 + 1)) ∧
    (f.seq = x.lastSeq → x.last ≠ [] → exec (.jaolpenRequest bs) s = .next ((s.odAdd 0x8082 1 1).send (.datagram x.last))) ∧
    (f.seq < x.lastSeq → exec (.jaolpenRequest bs) s = .next (s.odAdd 0x8082 3 1))) ∧
  (∀ (s : State) (bs : List Byte) (f : Frame), fieldUp s = true → Frame.read bs 0x10 32 = some f → frameSession s f = none →
    exec (.jaolpenRequest bs) s = .next (s.odAdd 0x8082 2 1)) ∧
  (∀ (s : State) (bs : List Byte) (f : Frame) (x : Session), FrameComes s bs 0x03 f x → x.lastSeq < f.seq →
    ∃ t g, exec (.jaolpenClose bs) s = .next t ∧
      t = { s with od := t.od, odQueue := t.odQueue, transfers := t.transfers, sessions := s.sessions.filter (fun y => y.id != x.id),
                   flash := t.flash, secure := t.secure, outbox := s.outbox ++ [.datagram g] } ∧
      (∀ r ∈ t.odQueue, r ∈ s.odQueue ∧ r.who ≠ .session x.id) ∧ (∀ r ∈ t.transfers, r ∈ s.transfers ∧ r.who ≠ .session x.id) ∧
      nonceOf t (.session x.id) = 0 ∧ g.take 32 = frameHeader f.seq x.id 0 0 0x04) ∧
  (∀ (s : State) (id : Nat), (s.sessions.any fun x => x.id == id) = true →
    ∃ t, exec (.sessionIdleTimeout id) s = .next t ∧
      t = { s with odQueue := t.odQueue, transfers := t.transfers, sessions := s.sessions.filter (fun y => y.id != id), flash := t.flash, secure := t.secure } ∧
      (∀ r ∈ t.odQueue, r ∈ s.odQueue ∧ r.who ≠ .session id) ∧ (∀ r ∈ t.transfers, r ∈ s.transfers ∧ r.who ≠ .session id)) ∧
  (∀ (s : State) (data : List Byte), fieldUp s = true →
    exec .neighborSolicitation s = .next { s with outbox := s.outbox ++ [.neighborAdvert linkLocalAddress macAddress] } ∧
    exec (.echoRequest data) s = .next { s with outbox := s.outbox ++ [.echoReply data] }) ∧
  (∀ s : State, s.power.rails = true →
    (∃ t, exec .plcaBeaconTimeout s = .next t ∧ t = { s with od := t.od } ∧ t.odGet 0x1008 0 = 0) ∧
    (∃ t, exec .plcaBeaconReceived s = .next t ∧ t = { s with od := t.od } ∧ t.odGet 0x1008 0 = 1))

/-- What a fence may change of the module's state: everything but these. -/
abbrev FenceFrame (s t : State) : Prop :=
  t = { s with free := t.free, mem := t.mem, poison := t.poison, od := t.od, cells := t.cells, blocks := t.blocks, cellFlags := t.cellFlags,
               welt := t.welt, side := t.side, sync := t.sync, ctxs := t.ctxs, rings := t.rings, cmds := t.cmds, snaps := t.snaps,
               streams := t.streams, schedDown := t.schedDown, clock := t.clock, powerDown := t.powerDown, watchdogs := t.watchdogs, cache := t.cache,
               hostReads := t.hostReads, odQueue := t.odQueue, transfers := t.transfers, mailbox := t.mailbox, sessions := t.sessions,
               flash := t.flash, secure := t.secure, phys := t.phys, outbox := t.outbox }

/-- A hub block's fence cuts short what the block serves (R463, R464, R555). -/
def HubLost (t : State) (b : Nat) : Prop :=
  (b = 0x80 → t.hostReads = []) ∧ (b = 0x81 → ∀ n, (t.stream n).state ≠ 1) ∧ (b = 0x82 → t.schedDown = true) ∧
    (b = 0x83 → t.powerDown = true ∧ t.clock = 1000) ∧ (b = 0x84 → t.odQueue = [] ∧ t.transfers = [] ∧ t.mailbox.busy = false) ∧
    (b = 0x85 → t.sessions = [])

/-- Fences start, reach their targets, complete and end; PERST_N fences the PCI Express block. A fence of a unit
that is not fenced marks it, advances its generation, empties the Welts of its cells, cuts short what a hub
block serves, and is counted. A notice to a target not told yet cancels and counts the stores and SLM adds of
the unit toward it. The last acknowledgement completes the fence and logs it. A block whose fence is complete
and that may return is unfenced, logged and resumes. A failed cell is fenced at once, in a fenced cluster too.
PERST_N fences the PCI Express block, and its release lets it return. -/
def Obligations.FencesGoThroughTheirSteps : Prop :=
  (∀ (s : State) (isCell : Bool) (unit cause : Nat), s.power.rails = true → (FenceUnit.ofNat isCell unit).exists? = true → (FenceUnit.ofNat isCell unit).fenced s = false →
    let u := FenceUnit.ofNat isCell unit
    ∃ t f, exec (.fence isCell unit cause) s = .next t ∧ FenceFrame s t ∧ u.fenced t = true ∧ u.fencing t = some f ∧ f.cause = cause ∧
      f.told = [] ∧ f.acked = [] ∧ f.cancelled = 0 ∧ f.units = heldUnits s u.cells ∧
      (isCell = false → (t.block unit).gen = ((s.block unit).gen + 1) % 65536 ∧ HubLost t unit) ∧
      (isCell = true → (t.cell unit).gen = ((s.cell unit).gen + 1) % 256) ∧
      (∀ c ∈ u.cells, ∀ i, i < 32768 → Sp.get WeltPair.zero t.welt (32768 * c + i) = WeltPair.zero) ∧
      t.odGet 0x8122 0 = min (2 ^ 64 - 1) (s.odGet 0x8122 0 + 1)) ∧
  (∀ (s : State) (isCell : Bool) (unit target : Nat) (f : Fencing), (FenceUnit.ofNat isCell unit).exists? = true →
    (FenceUnit.ofNat isCell unit).fencing s = some f → target ∈ (FenceUnit.ofNat isCell unit).targets → target ∉ f.told →
    let u := FenceUnit.ofNat isCell unit
    ∃ t n, exec (.fenceNotice isCell unit target) s = .next t ∧
      t = { s with mem := t.mem, poison := t.poison, od := t.od, cells := t.cells, blocks := t.blocks, side := t.side, sync := t.sync, ctxs := t.ctxs,
                   rings := t.rings, cmds := t.cmds, snaps := t.snaps, streams := t.streams, cache := t.cache, outbox := t.outbox } ∧
      u.fencing t = some { f with told := f.told ++ [target], cancelled := f.cancelled + n } ∧
      t.odGet 0x8121 0 = min (2 ^ 64 - 1) (s.odGet 0x8121 0 + n) ∧
      ∀ c ∈ u.cells, (∀ x ∈ (t.cell c).xfers, x.store = true → x.dropped = false → ∀ w ∈ x.writes, homeOf s w.1 ≠ some target) ∧
        ∀ a ∈ (t.cell c).slmAdds, homeOf s a.addr ≠ some target) ∧
  (∀ (s : State) (isCell : Bool) (unit target : Nat) (f : Fencing), (FenceUnit.ofNat isCell unit).exists? = true →
    (FenceUnit.ofNat isCell unit).fencing s = some f → target ∈ f.told → target ∉ f.acked →
    let u := FenceUnit.ofNat isCell unit
    ∃ t, exec (.fenceAck isCell unit target) s = .next t ∧ t = { s with od := t.od, cells := t.cells, blocks := t.blocks } ∧
      ((u.targets).all (f.acked ++ [target]).contains = false → u.fencing t = some { f with acked := f.acked ++ [target] } ∧ t.od = s.od) ∧
      ((u.targets).all (f.acked ++ [target]).contains = true → u.fencing t = none ∧ u.fenced t = u.fenced s ∧
        t.odGet 0x8090 0 = min (2 ^ 64 - 1) (s.odGet 0x8090 0 + 1))) ∧
  (∀ (s : State) (b : Nat), isBlock b = true → mayUnfence s b = true → ∃ t, exec (.unfence b) s = .next t ∧
      t = { s with od := t.od, blocks := t.blocks, schedDown := t.schedDown, clock := t.clock, powerDown := t.powerDown } ∧
      (t.block b).fenced = false ∧ (∀ k, k ≠ b → t.block k = s.block k) ∧ (t.schedDown = if b = 0x82 then false else s.schedDown) ∧
      (t.powerDown = if b = 0x83 then false else s.powerDown) ∧ t.odGet 0x8090 0 = min (2 ^ 64 - 1) (s.odGet 0x8090 0 + 1)) ∧
  (∀ (s : State) (c : Nat), c < 8192 → s.job.state = .owned → (s.cell c).fenced = false → (s.cell c).served ≠ .unmapped → ∃ t, exec (.cellFault c) s = .next t ∧ FenceFrame s t ∧
      (t.cell c).fenced = true ∧ ∃ f, (t.cell c).fencing = some f ∧ f.cause = 3) ∧
  (∀ s : State, (mayUnfence s 0x82 = true → ∃ t, exec .schedulerResume s = .next t ∧ t.schedDown = false ∧ (t.block 0x82).fenced = false ∧
        t = { s with od := t.od, blocks := t.blocks, schedDown := false }) ∧
      (mayUnfence s 0x83 = true → ∃ t, exec .powerCoreResume s = .next t ∧ t.powerDown = false ∧ (t.block 0x83).fenced = false ∧
        t = { s with od := t.od, blocks := t.blocks, clock := t.clock, powerDown := false })) ∧
  (∀ (s : State) (ns : Nat), 150 < ns → s.power.perst = false → s.secure.boot ≠ 0 → (s.block 0x80).fenced = false →
    ∃ t, exec (.perstNAssert ns) s = .next t ∧ t.power.perst = true ∧ t.bar2Log = 40 ∧ (t.block 0x80).fenced = true ∧ t.hostReads = []) ∧
  (∀ s : State, ∃ t, exec .perstNDeassert s = .next t ∧ t = { s with od := t.od, blocks := t.blocks, power := { s.power with perst := false } } ∧
      (t.block 0x80).fenced = ((s.block 0x80).fenced && (s.block 0x80).fencing.isSome))

/-- Watchdogs fence their processors, a lost scheduler ends the job, a member is excluded. The expiry of a control
core, of the scheduler core and of the power-management core is counted for its processor and in
WATCHDOG_COUNT, and fences its block (the clock falls to 1.0 GHz with the power-management core; the scheduler
takes nothing more). A scheduler that does not resume ends the job and the module scrubs. A member absent too
long is taken out of the member list with its votes, the fabric operations of the job end, and the others are
told; the module that is excluded itself ends its job. -/
def Obligations.ProcessorsAndMembersAreLost : Prop :=
  (∀ (s : State) (k : Nat), k < 128 → s.secure.boot = 2 → ∃ t, exec (.controlCoreWatchdog k) s = .next t ∧ FenceFrame s t ∧
      (t.block k).fenced = true ∧ Sp.get 0 t.watchdogs k = Sp.get 0 s.watchdogs k + 1 ∧
      t.odGet 0x8080 1 = min (2 ^ 64 - 1) (s.odGet 0x8080 1 + 1) ∧
      (t.block k).expiries = (s.block k).expiries + (if s.job.state = .owned then 1 else 0)) ∧
  (∀ s : State, s.secure.boot = 2 → (s.block 0x82).fenced = false → ∃ t, exec .schedulerWatchdog s = .next t ∧ FenceFrame s t ∧
      t.schedDown = true ∧ (t.block 0x82).fenced = true ∧ Sp.get 0 t.watchdogs 128 = Sp.get 0 s.watchdogs 128 + 1 ∧
      t.odGet 0x8080 2 = min (2 ^ 64 - 1) (s.odGet 0x8080 2 + 1) ∧ t.cmds = s.cmds ∧ t.ctxs = s.ctxs ∧ t.mem = s.mem) ∧
  (∀ s : State, s.secure.boot = 1 ∨ s.secure.boot = 2 → (s.block 0x83).fenced = false → ∃ t, exec .powerWatchdog s = .next t ∧ FenceFrame s t ∧
      t.powerDown = true ∧ t.clock = 1000 ∧ (t.block 0x83).fenced = true ∧ Sp.get 0 t.watchdogs 129 = Sp.get 0 s.watchdogs 129 + 1 ∧
      t.odGet 0x8080 3 = min (2 ^ 64 - 1) (s.odGet 0x8080 3 + 1)) ∧
  (∀ s : State, s.schedDown = true → s.job.state = .owned ∨ s.job.state = .opening → ∃ t, exec .schedulerLost s = .next t ∧
      t.job.state = .scrubbing ∧ (∀ k ∈ s.cmds, k.ring ≠ 1025 → t.cmd? k.id = none) ∧ (∀ c, t.pieceOf c = none) ∧ t.fab = []) ∧
  (∀ (s : State) (m : Nat), m ≠ s.moduleId → excludable s m = true → ∃ t, exec (.memberExclude m) s = .next t ∧
      t.job = { s.job with members := s.job.members.filter (· != m) } ∧ t.fab = [] ∧ t.outbox = (s.send (.excluded m)).outbox ∧
      Sp.get 0 t.missing m = 0 ∧ (∀ k x, t.ctx? k = some x → ∀ w ∈ x.tally, w.member ≠ m) ∧
      (∀ o ∈ s.fab, ∀ c, o.cmd = some c → t.cmd? c = none) ∧ t.odGet 0x8090 0 = min (2 ^ 64 - 1) (s.odGet 0x8090 0 + 1)) ∧
  (∀ s : State, s.job.state = .owned → ∃ t, exec (.memberExclude s.moduleId) s = .next t ∧ t.job.state = .scrubbing ∧ t.fab = [])

/-- The state a module reset leaves: that of reset, but for flash, pins, and what the model itself keeps (R465, R507). -/
def resetOf (s : State) (flash : Flash) : State :=
  { State.reset with
    pending := s.pending, free := s.free, serial := s.serial, outbox := s.outbox, flash := flash
    power := { s.power with overCap := false, safeMs := 0, millis := 0, resetLow := true } }

/-- The flash after a reset that loses a staging in progress (R488). -/
def flashKept (s : State) : Flash := if s.secure.stage = 1 then s.flash.setSlot (!s.secure.active) [] else s.flash

/-- The memories are zeroed and nothing runs (R399, R458). -/
abbrev Zeroed (t : State) : Prop :=
  t.cache = [] ∧ t.welt = [] ∧ t.side = [] ∧ t.ctxs = [] ∧ t.streams = [] ∧ t.cellFlags = [] ∧ t.clusterFlags = [] ∧ t.moduleFlags = 0 ∧
    (∀ i, t.obj i = SyncObj.free) ∧ ∀ c, t.pieceOf c = none

/-- The module resets, boots the slot that is accepted, and becomes ready or recovers. The security watchdog and
RESET_N put the module into its reset state, but for flash, fuses, pins and what the model itself keeps (the
expiry is counted for the security core); a staging in progress is lost; a glitch on RESET_N below 50 ns does
nothing. Boot takes the selected slot if it is accepted, else the other, else enters RECOVERY; it zeroes every
memory. The processors ready, it runs, logs the boot and confirms a trial. If they are not ready in time the
other slot is tried once, which a further BOOT carries on from its self-test, then RECOVERY; a trial that
fails rewrites the selector. -/
def Obligations.TheModuleResetsAndBoots : Prop :=
  (∀ s : State, s.power.rails = true → ∃ t, exec .securityWatchdog s = .next t ∧
      t = { resetOf s (flashKept s) with od := t.od, watchdogs := t.watchdogs } ∧ Sp.get 0 t.watchdogs 130 = 1 ∧ t.odGet 0x8080 4 = 1) ∧
  (∀ (s : State) (ns : Nat), 150 < ns → s.power.pg = true → s.power.shutdown = .no →
    exec (.resetNAssert ns) s = .next { resetOf s (flashKept s) with free := s.free + 1 }) ∧
  (∀ (s : State) (ns : Nat), ns < 50 → exec (.resetNAssert ns) s = .next { s with free := s.free + 1 }) ∧
  (∀ (s : State) (straps : Nat) (fails : List (List Nat)) (bad : List Nat), s.secure.boot = 0 → s.power.rails = true → s.power.pg = true →
    s.power.perst = false → ∃ t, exec (.boot straps fails bad) s = .next t ∧
      t = { s with free := s.free + 1, mem := t.mem, poison := t.poison, od := t.od, cells := t.cells, blocks := t.blocks,
                   cellFlags := t.cellFlags, clusterFlags := t.clusterFlags, moduleFlags := t.moduleFlags, stepWord := t.stepWord, welt := t.welt,
                   side := t.side, sync := t.sync, ctxs := t.ctxs, streams := t.streams, clock := t.clock, watchdogs := [], cache := t.cache,
                   rowCorrections := t.rowCorrections, flash := t.flash, secure := t.secure,
                   power := { s.power with resetLow := false }, phys := t.phys } ∧ t.odGet 0x1005 0 = 1 + straps % 64 ∧
      t.secure.challenge = s.free ∧
      (bootSlot s.flash = none → let p := (s.flash.selector.map (·.slot)).getD false
        t.secure.boot = 3 ∧ t.secure.active = !p ∧ t.secure.fallback = true ∧
        t.flash = (if (s.flash.selector.map (·.trial)).getD false then s.flash.writeSelector (!p) false else s.flash)) ∧
      (∀ slot fell, bootSlot s.flash = some (slot, fell) → (∀ f ∈ fails.map Fail.ofList, f.kind ≠ 0x0D) →
        t.secure.boot = 1 ∧ t.secure.active = slot ∧ t.secure.fallback = fell ∧
        (t.secure.trial = true ↔ fell = false ∧ (s.flash.selector.map (·.trial)).getD false = true) ∧ Zeroed t ∧
        t.odGet 0x9030 0 = min (2 ^ 64 - 1) (s.odGet 0x9030 0 + 1))) ∧
  (∀ (s : State) (straps : Nat) (fails : List (List Nat)) (bad : List Nat), s.secure.boot = 1 → s.secure.retry = true →
    (∀ f ∈ fails.map Fail.ofList, f.kind ≠ 0x0D) → ∃ t, exec (.boot straps fails bad) s = .next t ∧ t.secure.boot = 1 ∧
      t.secure.retry = false ∧ t.secure.active = s.secure.active ∧ t.secure.fallback = s.secure.fallback ∧ Zeroed t ∧
      t.odGet 0x9030 0 = min (2 ^ 64 - 1) (s.odGet 0x9030 0 + 1)) ∧
  (∀ s : State, s.secure.boot = 1 → s.secure.retry = false → ∃ t, exec .processorReady s = .next t ∧
      t = { s with od := t.od, flash := t.flash, secure := t.secure } ∧
      t.secure.boot = 2 ∧ t.secure.trial = false ∧ t.odGet 0x8090 0 = min (2 ^ 64 - 1) (s.odGet 0x8090 0 + 1) ∧
      t.flash = (if s.secure.trial then s.flash.writeSelector s.secure.active false else s.flash)) ∧
  (∀ s : State, s.secure.boot = 1 → s.secure.retry = false → ∃ t, exec .bootReadyTimeout s = .next t ∧
      t = { s with flash := t.flash, secure := t.secure } ∧
      (s.secure.fallback = true → t.secure.boot = 3 ∧ t.flash = s.flash) ∧
      (s.secure.fallback = false → t.secure.active = (!s.secure.active) ∧ t.secure.fallback = true ∧
        t.flash = (if s.secure.trial then s.flash.writeSelector (!s.secure.active) false else s.flash) ∧
        (s.secure.trial = true → t.secure.stage = 4) ∧
        (slotOk s.flash (!s.secure.active) = false → t.secure.boot = 3) ∧
        (slotOk s.flash (!s.secure.active) = true → t.secure.boot = 1 ∧ t.secure.retry = true)))

/-- The pins and rails allow power-up (R575, R577). -/
def mayPowerUp (p : Power) : Bool := p.pwrEn && !p.holdoff && p.inputOk && !p.rails && decide (p.shutdown = .no)

/-- The state after the rails have gone off: only flash, the pins and what the model itself keeps survive (R507). -/
abbrev PoweredOff (s t : State) : Prop :=
  t = { State.reset with pending := s.pending, free := t.free, serial := s.serial, outbox := s.outbox, flash := t.flash, power := t.power } ∧
    (s.secure.stage ≠ 1 → t.flash = s.flash) ∧ t.power.rails = false ∧ t.power.pg = false ∧ t.power.resetLow = true

/-- The power pins after power-up where it may happen (R575). -/
def poweredUp (p : Power) : Power := if mayPowerUp p then { p with rails := true, pg := true, resetLow := false } else p

/-- Power comes up where pins and input allow it, and goes with PWR_EN, the input or a hot die. PWR_EN, the end of
its hold-off and a valid input each bring the rails up where all three allow it and no shutdown holds. Taking
PWR_EN away, an input out of range and a die at 105 degrees take the rails off: nothing but the flash
survives. PWR_EN removed starts the hold-off and ends a shutdown; a thermal shutdown holds THERM_TRIP_N. -/
def Obligations.PowerComesAndGoes : Prop :=
  (∀ (s : State) (ns : Nat), 150 < ns → exec (.pwrEnAssert ns) s =
    .next { s with free := s.free + 1, power := poweredUp { s.power with pwrEn := true } }) ∧
  (∀ s : State, exec .pwrEnHoldoffExpiry s = .next { s with power := poweredUp { s.power with holdoff := false } } ∧
    exec .inputVoltageValid s = .next { s with power := poweredUp { s.power with inputOk := true } }) ∧
  (∀ (s : State) (ns : Nat), 150 < ns → s.power.pwrEn = true → ∃ t, exec (.pwrEnDeassert ns) s = .next t ∧ PoweredOff s t ∧
      t.free = s.free + 1 ∧ t.power.pwrEn = false ∧ t.power.holdoff = true ∧ t.power.thermTrip = false ∧ t.power.shutdown = .no ∧
      t.power.inputOk = s.power.inputOk) ∧
  (∀ (s : State) (removed : Bool), s.power.rails = true → ∃ t, exec (.inputVoltageTrip removed) s = .next t ∧ PoweredOff s t ∧
      t.free = s.free ∧ t.power.inputOk = false ∧ t.power.shutdown = .voltage ∧ t.power.thermTrip = (s.power.thermTrip && !removed) ∧
      t.power.pwrEn = s.power.pwrEn) ∧
  (∀ s : State, s.power.rails = true → ∃ t, exec .thermalShutdown s = .next t ∧ PoweredOff s t ∧ t.free = s.free ∧
      t.power.thermTrip = true ∧ t.power.shutdown = .thermal ∧ t.power.pwrEn = s.power.pwrEn)

/-- The power loop, SAFE, droop and the stacks act on clock, counters and levels. A trip holds the clock at 1.0
GHz, is counted and logged; its end adds the time not counted yet and gives the clock back, where neither the
pattern nor a lost power-management core holds it. A tick of the loop counts its millisecond (of SAFE too),
keeps the monitors, counts a millisecond above the cap, and moves the clock 25 MHz down above the cap, 25 MHz
up with 3 per cent and 3 degrees in hand, or not at all, and never leaves it below the floor. A stretch is
counted for its cluster. A stack goes to the level its temperature reaches, down only 2 degrees below a
threshold, and the start of throttling is counted. -/
def Obligations.PowerLoopsAndTripsSetTheClock : Prop :=
  (∀ (s : State) (temp power : Bool), s.safeTrip = false → s.power.rails = true → ∃ t, exec (.safeTrip temp power) s = .next t ∧
      t = { s with od := t.od, clock := 1000, safeTrip := true, power := { s.power with safeMs := 0 } } ∧ t.odGet 0x8101 0 = min (2 ^ 64 - 1) (s.odGet 0x8101 0 + 1) ∧
      t.odGet 0x8090 0 = min (2 ^ 64 - 1) (s.odGet 0x8090 0 + 1)) ∧
  (∀ (s : State) (ms : Nat), s.safeTrip = true → ∃ t, exec (.safeExit ms) s = .next t ∧
      t = { s with od := t.od, clock := t.clock, safeTrip := false } ∧ t.odGet 0x8102 0 = min (2 ^ 64 - 1) (s.odGet 0x8102 0 + (ms - s.power.safeMs)) ∧
      t.clock = (if s.powerDown = true ∨ s.patternClock = true then s.clock else s.odGet 0x2201 0)) ∧
  (∀ (s : State) (mv ma watts : Nat) (tj : Int), s.power.rails = true → s.powerDown = false → s.powerCoreRuns = true →
    ∃ t, exec (.powerLoopTick mv ma watts tj) s = .next t ∧
      t = { s with od := t.od, clock := t.clock, power := { s.power with
        overCap := overCap s watts, millis := s.power.millis + 1, safeMs := s.power.safeMs + (if s.safeTrip then 1 else 0) } } ∧
      t.odGet 0x8102 0 = (if s.safeTrip then min (2 ^ 64 - 1) (s.odGet 0x8102 0 + 1) else s.odGet 0x8102 0) ∧
      t.odGet 0x2000 1 = mv ∧ t.odGet 0x2000 2 = ma ∧ t.odGet 0x2000 3 = watts ∧
      t.odGet 0x8100 0 = (if overCap s watts then min (2 ^ 64 - 1) (s.odGet 0x8100 0 + 1) else s.odGet 0x8100 0) ∧
      (s.safeTrip = true ∨ s.patternClock = true → t.clock = s.clock) ∧
      (s.safeTrip = false → s.patternClock = false →
        (s.odGet 0x2104 2 < watts → t.clock = max (s.odGet 0x2201 0) (s.clock - 25)) ∧
        (100 * watts ≤ 97 * s.odGet 0x2104 2 → tj ≤ sfld (s.odGet 0x2110 0) 31 0 - 3 → s.clock < opPoint s 0 → t.clock = max (s.odGet 0x2201 0) (s.clock + 25)) ∧
        (97 * s.odGet 0x2104 2 < 100 * watts → watts ≤ s.odGet 0x2104 2 → tj ≤ sfld (s.odGet 0x2110 0) 31 0 → t.clock = max (s.odGet 0x2201 0) s.clock))) ∧
  (∀ (s : State) (mv ma watts : Nat) (tj : Int), s.power.rails = true → s.powerDown = true ∨ s.powerCoreRuns = false →
    exec (.powerLoopTick mv ma watts tj) s = .next (safeTick { s with power := { s.power with millis := s.power.millis + 1 } })) ∧
  (∀ (s : State) (k n : Nat), k < 128 → s.power.rails = true → ∃ t, exec (.droopStretch k n) s = .next t ∧ t = { s with od := t.od } ∧
      t.odGet 0x8103 (k + 1) = min (2 ^ 64 - 1) (s.odGet 0x8103 (k + 1) + n)) ∧
  (∀ (s : State) (k : Nat) (temp limit : Int), k < 12 → s.power.rails = true → ∃ t, exec (.stackTempReport k temp limit) s = .next t ∧
      t = { s with od := t.od, stackSts := t.stackSts } ∧
      (let l0 := (Sp.get StackSt.init s.stackSts k).level
       let tl := min limit (sfld (s.odGet 0x3022 0) 31 0)
       let l := (Sp.get StackSt.init t.stackSts k).level
       (∀ j, j ≠ k → Sp.get StackSt.init t.stackSts j = Sp.get StackSt.init s.stackSts j) ∧
       (tl + 6 ≤ temp → l = 3 ∨ 3 < l0) ∧ (temp + 2 ≤ tl → l0 ≤ 3 → l = 0) ∧ (tl ≤ temp → 1 ≤ l) ∧
       (l0 ≤ l ∨ temp + 2 ≤ levelAt tl (l + 1)) ∧
       t.odGet 0x8054 (k + 1) = (if l0 = 0 ∧ 1 ≤ l then min (2 ^ 64 - 1) (s.odGet 0x8054 (k + 1) + 1) else s.odGet 0x8054 (k + 1))))

/-- In-service test slices start where they may, pass, or fence the cell and run again. A slice that may start
takes the next place of the cycle of its physical cell (or the failed one again); one that may not does
nothing. Its end is counted and the cycle moves on, and the end of a cycle notes its time; a pass notes the
stitch for each kind of unit it tested; what its save found uncorrectable is counted and poisoned; a first
failure fences the cell it serves and asks for a rerun; the end of the rerun confirms the failure or calls it
transient. -/
def Obligations.TestSlicesRunInService : Prop :=
  (∀ (s : State) (k p remain : Nat), k < 128 →
    (sliceMay s k p remain = false → exec (.bistSliceStart k p remain) s = .next s) ∧
    (sliceMay s k p remain = true → ∃ t, exec (.bistSliceStart k p remain) s = .next t ∧ t = { s with phys := t.phys } ∧
      t.physCell k p = { s.physCell k p with test := some ((s.physCell k p).rerun.getD (s.physCell k p).next) })) ∧
  (∀ (s : State) (k p n : Nat) (sigs : List Nat) (fails : List (List Nat)), k < 128 → p < 66 → (s.physCell k p).test = some n →
    let places := slicePlaces s n
    let bad := sliceFails s k p places sigs (fails.map Fail.ofList)
    ∃ t, exec (.bistSliceEnd k p sigs fails) s = .next t ∧ t.odGet 0x8110 0 = min (2 ^ 64 - 1) (s.odGet 0x8110 0 + 1) ∧
      (t.physCell k p).test = none ∧ (t.physCell k p).next = nextPlace places ∧
      (t.physCell k p).cycleAt = (if nextPlace places = 0 then s.power.millis else (s.physCell k p).cycleAt) ∧
      (bad = [] → ∀ m ∈ places, Sp.get 0 (t.physCell k p).lastPass (sliceKind m) = s.stitch.count) ∧
      (bad = [] ∨ (s.physCell k p).rerun.isSome = true →
        t = { s with poison := t.poison, od := t.od, cells := t.cells, welt := t.welt, rowCorrections := t.rowCorrections, flash := t.flash, phys := t.phys }) ∧
      (bad = [] → (s.physCell k p).rerun = none → (∀ f ∈ fails.map Fail.ofList, f.kind ≠ 0) → t = { s with od := t.od, phys := t.phys }) ∧
      (bad ≠ [] → (s.physCell k p).rerun = none → (t.physCell k p).rerun = some n ∧
        ∀ c, cellServed s k p = some c → s.cellDown c = false → (t.cell c).fenced = true) ∧
      ((s.physCell k p).rerun.isSome = true → (t.physCell k p).rerun = none ∧
        ((t.physCell k p).confirmed = true ↔ (s.physCell k p).confirmed = true ∨ bad ≠ [])))

/-- Heartbeats, markers, takeover, STITCH_IN and STITCH_LOST. The root sends its heartbeat on the ports that carry
the Harness; a heartbeat of the root ends the silence, one of the standby that may act makes it the root with
the next standby named, any other is discarded. A marker that comes on a port whose Harness wavelength is in
service is kept for its edge, which counts those more than 10 ns from the median of all; an edge without one
is in holdover. A standby that has heard nothing long enough takes over and sends the next marker, the number
unchanged. Holdover that lasts too long, or STITCH_IN silent, enters STITCH_LOST, which is logged; too long in
it ends the job and the module scrubs. An edge on STITCH_IN that comes early is counted and ignored; a late
one is counted. -/
def Obligations.StitchRootsAndMarkersAreFollowed : Prop :=
  (∀ s : State, s.job.mode ≠ 0 → s.job.state = .owned → s.stitch.root = s.moduleId →
    exec .rootHeartbeatSend s = .next (s.send (.heartbeat (harnessPorts s)))) ∧
  (∀ (s : State) (m : Nat), s.job.mode ≠ 0 → m ≠ s.moduleId →
    (m = s.stitch.root → exec (.rootHeartbeat m) s = .next { s with stitch := { s.stitch with quiet := 0 } }) ∧
    (m ≠ s.stitch.root → actsStandby s m = true → ∃ t, exec (.rootHeartbeat m) s = .next t ∧ t = { s with stitch := t.stitch } ∧
      t.stitch.root = m ∧ t.stitch.standby = newStandby s m s.stitch.root ∧ t.stitch.standbyIn = 4 ∧ t.stitch.count = s.stitch.count) ∧
    (m ≠ s.stitch.root → actsStandby s m = false → exec (.rootHeartbeat m) s = .next s)) ∧
  (∀ (s : State) (plane n : Nat) (t : Int), plane < 48 → s.job.mode ≠ 0 → s.stitch.root ≠ s.moduleId → s.stitch.count < n →
    ((s.port plane).harness = true → exec (.stitchMarker plane s.stitch.root n t) s =
      .next { s with stitch := { s.stitch with quiet := 0, markers := s.stitch.markers ++ [(n, t - (s.port plane).delay)] } }) ∧
    ((s.port plane).harness = false → exec (.stitchMarker plane s.stitch.root n t) s = .next s)) ∧
  (∀ s : State, s.power.rails = true → ¬ (s.odGet 0x5001 0 = 0 ∧ s.odGet 0x7010 0 = 1) → s.job.state ≠ .owned → (s.job.zeroAtEdge && adopted s) = false →
    s.stitch.lost = false → ∃ t, exec .stitchEdge s = .next t ∧
      t = { s with offset := 0, od := t.od, stitch := t.stitch, blocks := t.blocks, ports := t.ports, pllIdle := [], phys := t.phys,
                   outbox := t.outbox } ∧
      t.odGet 0x8014 0 = min (2 ^ 64 - 1) (s.odGet 0x8014 0 + (outliers s (s.stitch.count + 1)).length) ∧
      t.stitch.markers = (s.stitch.markers.filter fun m => decide (s.stitch.count + 1 < m.1)) ∧
      (t.stitch.holdover = true ↔ s.job.mode ≠ 0 ∧ s.stitch.root ≠ s.moduleId ∧ ∀ m ∈ s.stitch.markers, m.1 ≠ s.stitch.count + 1)) ∧
  (∀ (s : State) (us : Nat), s.job.state = .owned → actsStandby s s.moduleId = true → s.stitch.root ≠ s.moduleId →
    4 ≤ s.stitch.quiet ∨ 1000 ≤ us → ∃ t, exec (.standbyTakeover us) s = .next t ∧
      t = { s with stitch := t.stitch, outbox := t.outbox } ∧ t.outbox = (s.send (.marker (harnessPorts s) (s.stitch.count + 1))).outbox ∧ t.stitch.root = s.moduleId ∧
      t.stitch.standby = newStandby s s.moduleId s.stitch.root ∧ t.stitch.count = s.stitch.count ∧ t.stitch.lost = false ∧ t.stitch.holdover = false) ∧
  (∀ s : State, s.stitch.lost = false →
    (s.stitch.holdover = true → ∃ t, exec .stitchLost s = .next t ∧ t = { s with od := t.od, stitch := { s.stitch with lost := true } } ∧
      t.odGet 0x8090 0 = min (2 ^ 64 - 1) (s.odGet 0x8090 0 + 1)) ∧
    (s.odGet 0x5001 0 = 0 → s.odGet 0x7010 0 = 1 → ∃ t, exec .stitchInTimeout s = .next t ∧
      t = { s with od := t.od, stitch := { s.stitch with lost := true } } ∧ t.odGet 0x8090 0 = min (2 ^ 64 - 1) (s.odGet 0x8090 0 + 1))) ∧
  (∀ s : State, s.stitch.lost = true → s.job.state = .owned ∨ s.job.state = .opening → ∃ t, exec .stitchLostJobEnd s = .next t ∧
      t.job.state = .scrubbing ∧ (∀ k ∈ s.cmds, k.ring ≠ 1025 → t.cmd? k.id = none) ∧ (∀ c, t.pieceOf c = none) ∧ t.fab = []) ∧
  (∀ (s : State) (us : Nat), s.odGet 0x5001 0 = 0 → s.odGet 0x7010 0 = 1 →
    (us < s.periodUs → ∃ t, exec (.stitchInEdge us) s = .next t ∧ t = { s with od := t.od } ∧ t.odGet 0x8013 0 = min (2 ^ 64 - 1) (s.odGet 0x8013 0 + 1)) ∧
    (s.periodUs ≤ us → s.job.state ≠ .owned → (s.job.zeroAtEdge && adopted s) = false → ∃ t, exec (.stitchInEdge us) s = .next t ∧
      t = { s with offset := 0, od := t.od, blocks := t.blocks, stitch := t.stitch, ports := t.ports, pllIdle := [], phys := t.phys,
                   outbox := t.outbox } ∧ t.stitch.lost = false ∧
      t.odGet 0x8015 0 = (if s.periodUs < us then min (2 ^ 64 - 1) (s.odGet 0x8015 0 + 1) else s.odGet 0x8015 0)))

/-- The stitch number is 0 at the first edge of a job, counts every edge, and can be read. After a job open the
first edge at which all processors have adopted it (R24), of its own generator or on STITCH_IN, sets the
stitch number to 0; every later edge adds 1 to it; and 0x5006:00, U64 and RO, reads it. (A module that hears a
marker again in STITCH_LOST takes the number of the marker, R35.) -/
def Obligations.StitchNumberStartsAtZeroAndCountsEdges : Prop :=
  (∀ (s : State) (id : Nat) (c : Cmd) (p : Peers) (ms rs cs : List Nat) (pat : Pattern), Taken s id 0x01 c → s.job.openCmd = some id →
    openDenied s = false → openChecks s (JobD.ofWord c.entry) p = some (ms, rs, cs, pat) →
    ∃ t, exec (.jobOpen id p.period p.mode p.far p.members p.pattern p.planes) s = .next t ∧ t.job.zeroAtEdge = true ∧ (adopted t = adopted s) ∧
      (adopted s = true → s.power.rails = true → ¬ (t.odGet 0x5001 0 = 0 ∧ t.odGet 0x7010 0 = 1) → ∃ u, exec .stitchEdge t = .next u ∧ u.stitch.count = 0 ∧ u.job.zeroAtEdge = false) ∧
      (adopted s = true → t.odGet 0x5001 0 = 0 → t.odGet 0x7010 0 = 1 → ∀ us, t.periodUs ≤ us →
        ∃ u, exec (.stitchInEdge us) t = .next u ∧ u.stitch.count = 0 ∧ u.job.zeroAtEdge = false)) ∧
  (∀ s : State, (s.job.zeroAtEdge && adopted s) = false → s.stitch.lost = false ∨ s.stitch.markers = [] →
    (s.power.rails = true → ¬ (s.odGet 0x5001 0 = 0 ∧ s.odGet 0x7010 0 = 1) → ∃ t, exec .stitchEdge s = .next t ∧ t.stitch.count = s.stitch.count + 1) ∧
    (s.odGet 0x5001 0 = 0 → s.odGet 0x7010 0 = 1 → ∀ us, s.periodUs ≤ us →
      ∃ t, exec (.stitchInEdge us) s = .next t ∧ t.stitch.count = s.stitch.count + 1)) ∧
  (∃ e, Od.entry? 0x5006 0 = some e ∧ e.ty = .u 8 ∧ e.right = .ro ∧
    ∀ s : State, odBytes s e 0x5006 0 = leBytes 8 s.stitch.count)

/-- STITCH_PERIOD_US keeps its type, default and range, and so does LEASE_TIMEOUT. STITCH_PERIOD_US is U32 and
RWI, 250 by default, and sets the period; LEASE_TIMEOUT is U8 and RWI, 8 by default. While idle a legal value
is kept; a value outside 20 to 20,000, or 6 to 64, is refused and the entry keeps its value. -/
def Obligations.PeriodAndLeaseTimeoutKeepTheirRange : Prop :=
  ∀ index size dflt lo hi, (index, size, dflt, lo, hi) ∈ [(0x5002, 4, 250, 20, 20000), (0x5008, 1, 8, 6, 64)] →
    ∃ e, Od.entry? index 0 = some e ∧ e.ty = .u size ∧ e.right = .rwi ∧ Od.dflt (Od.key index 0) = dflt ∧ State.reset.odGet index 0 = dflt ∧
      (∀ v, e.admits v = true ↔ lo ≤ v ∧ v ≤ hi) ∧
      (∀ (s : State) (q : OdReq) (rest : List OdReq), OdTakes s .write q rest e → (OdBlk.ofWord q.block).op = 0x31 →
        (OdBlk.ofWord q.block).index = index → (OdBlk.ofWord q.block).sub = 0 → (odData s q (OdBlk.ofWord q.block)).1.length = size → s.job.state = .idle →
        let v := leNat (odData s q (OdBlk.ofWord q.block)).1
        (lo ≤ v ∧ v ≤ hi → OdDone .odWrite s q ((served s rest).odSet index 0 v) [] 0) ∧
        (v < lo ∨ hi < v → exec .odWrite s = .next (odAnswer q (OdBlk.ofWord q.block) (OdAns.result (served s rest) OdRes.outOfRange)))) ∧
      (index = 0x5002 → ∀ s : State, s.periodUs = s.odGet index 0)
end

