-- ==== Sys2Proof/Laws/Frame.lean ====
section
/-! SUPPORT. Frames: a state with chosen fields hidden, so that "nothing else changes" is one equation.
Bit k of a mask hides the k-th field of `State`, in its order of declaration. -/

namespace Sys2Proof.Machine

/-- The state with the fields of a mask set to their reset values. -/
def State.hide (s : State) (m : Nat) : State :=
  { pending := bif m.testBit 0 then State.reset.pending else s.pending, free := bif m.testBit 1 then State.reset.free else s.free,
    serial := bif m.testBit 2 then State.reset.serial else s.serial, offset := bif m.testBit 3 then State.reset.offset else s.offset,
    mem := bif m.testBit 4 then State.reset.mem else s.mem, poison := bif m.testBit 5 then State.reset.poison else s.poison,
    od := bif m.testBit 6 then State.reset.od else s.od, stitch := bif m.testBit 7 then State.reset.stitch else s.stitch,
    job := bif m.testBit 8 then State.reset.job else s.job, cells := bif m.testBit 9 then State.reset.cells else s.cells,
    blocks := bif m.testBit 10 then State.reset.blocks else s.blocks, cellCtr := bif m.testBit 11 then State.reset.cellCtr else s.cellCtr,
    cellFlags := bif m.testBit 12 then State.reset.cellFlags else s.cellFlags, clusterFlags := bif m.testBit 13 then State.reset.clusterFlags else s.clusterFlags,
    moduleFlags := bif m.testBit 14 then State.reset.moduleFlags else s.moduleFlags, stepWord := bif m.testBit 15 then State.reset.stepWord else s.stepWord,
    welt := bif m.testBit 16 then State.reset.welt else s.welt, side := bif m.testBit 17 then State.reset.side else s.side,
    sync := bif m.testBit 18 then State.reset.sync else s.sync, ctxs := bif m.testBit 19 then State.reset.ctxs else s.ctxs,
    rings := bif m.testBit 20 then State.reset.rings else s.rings, cmds := bif m.testBit 21 then State.reset.cmds else s.cmds,
    lastRing := bif m.testBit 22 then State.reset.lastRing else s.lastRing, frameSeq := bif m.testBit 23 then State.reset.frameSeq else s.frameSeq,
    ports := bif m.testBit 24 then State.reset.ports else s.ports, fab := bif m.testBit 25 then State.reset.fab else s.fab,
    notices := bif m.testBit 26 then State.reset.notices else s.notices, fabSeqs := bif m.testBit 27 then State.reset.fabSeqs else s.fabSeqs,
    snaps := bif m.testBit 28 then State.reset.snaps else s.snaps, pllCal := bif m.testBit 29 then State.reset.pllCal else s.pllCal,
    pllIdle := bif m.testBit 30 then State.reset.pllIdle else s.pllIdle, streams := bif m.testBit 31 then State.reset.streams else s.streams,
    schedDown := bif m.testBit 32 then State.reset.schedDown else s.schedDown, clock := bif m.testBit 33 then State.reset.clock else s.clock,
    safeTrip := bif m.testBit 34 then State.reset.safeTrip else s.safeTrip, powerDown := bif m.testBit 35 then State.reset.powerDown else s.powerDown,
    watchdogs := bif m.testBit 36 then State.reset.watchdogs else s.watchdogs, missing := bif m.testBit 37 then State.reset.missing else s.missing,
    cache := bif m.testBit 38 then State.reset.cache else s.cache, stackSts := bif m.testBit 39 then State.reset.stackSts else s.stackSts,
    rowCorrections := bif m.testBit 40 then State.reset.rowCorrections else s.rowCorrections, bar2Base := bif m.testBit 41 then State.reset.bar2Base else s.bar2Base,
    bar2Log := bif m.testBit 42 then State.reset.bar2Log else s.bar2Log, pcie := bif m.testBit 43 then State.reset.pcie else s.pcie,
    hostReads := bif m.testBit 44 then State.reset.hostReads else s.hostReads, odQueue := bif m.testBit 45 then State.reset.odQueue else s.odQueue,
    transfers := bif m.testBit 46 then State.reset.transfers else s.transfers, mailbox := bif m.testBit 47 then State.reset.mailbox else s.mailbox,
    sessions := bif m.testBit 48 then State.reset.sessions else s.sessions, flash := bif m.testBit 49 then State.reset.flash else s.flash,
    secure := bif m.testBit 50 then State.reset.secure else s.secure, power := bif m.testBit 51 then State.reset.power else s.power,
    phys := bif m.testBit 52 then State.reset.phys else s.phys, testLevel := bif m.testBit 53 then State.reset.testLevel else s.testLevel,
    outbox := bif m.testBit 54 then State.reset.outbox else s.outbox }

/-- Masks contained in a mask. -/
theorem sub_trans {a b c : Nat} (h : Nat.land a b = a) (k : Nat.land b c = b) : Nat.land a c = a := by
  change a &&& b = a at h
  change b &&& c = b at k
  change a &&& c = a
  rw [← h, Nat.and_assoc, k]

/-- A bit of a mask contained in another. -/
theorem sub_bit {a b k : Nat} (h : Nat.land a b = a) (e : a.testBit k = true) : b.testBit k = true := by
  change a &&& b = a at h
  rw [← h, Nat.testBit_and] at e
  simp at e
  exact e.2

/-- What agrees with fewer fields hidden agrees with more. -/
theorem State.hide_mono {s t : State} {a b : Nat} (h : Nat.land a b = a) (e : s.hide a = t.hide a) : s.hide b = t.hide b := by
  simp only [State.hide, State.mk.injEq] at e ⊢
  have k (n : Nat) (ha : b.testBit n = false) : a.testBit n = false := by
    cases hk : a.testBit n with
    | false => rfl
    | true => rw [sub_bit h hk] at ha; cases ha
  have up {α : Type} (n : Nat) (d x y : α) (e : (bif a.testBit n then d else x) = (bif a.testBit n then d else y)) :
      (bif b.testBit n then d else x) = (bif b.testBit n then d else y) := by
    cases hb : b.testBit n with
    | true => rfl
    | false => rw [k n hb] at e; exact e
  obtain ⟨e0, e1, e2, e3, e4, e5, e6, e7, e8, e9, e10, e11, e12, e13, e14, e15, e16, e17, e18, e19, e20, e21, e22, e23, e24, e25, e26, e27, e28, e29, e30, e31, e32, e33, e34, e35, e36, e37, e38, e39, e40, e41, e42, e43, e44, e45, e46, e47, e48, e49, e50, e51, e52, e53, e54⟩ := e
  exact ⟨up _ _ _ _ e0, up _ _ _ _ e1, up _ _ _ _ e2, up _ _ _ _ e3, up _ _ _ _ e4, up _ _ _ _ e5, up _ _ _ _ e6, up _ _ _ _ e7, up _ _ _ _ e8, up _ _ _ _ e9, up _ _ _ _ e10, up _ _ _ _ e11, up _ _ _ _ e12, up _ _ _ _ e13, up _ _ _ _ e14, up _ _ _ _ e15, up _ _ _ _ e16, up _ _ _ _ e17, up _ _ _ _ e18, up _ _ _ _ e19, up _ _ _ _ e20, up _ _ _ _ e21, up _ _ _ _ e22, up _ _ _ _ e23, up _ _ _ _ e24, up _ _ _ _ e25, up _ _ _ _ e26, up _ _ _ _ e27, up _ _ _ _ e28, up _ _ _ _ e29, up _ _ _ _ e30, up _ _ _ _ e31, up _ _ _ _ e32, up _ _ _ _ e33, up _ _ _ _ e34, up _ _ _ _ e35, up _ _ _ _ e36, up _ _ _ _ e37, up _ _ _ _ e38, up _ _ _ _ e39, up _ _ _ _ e40, up _ _ _ _ e41, up _ _ _ _ e42, up _ _ _ _ e43, up _ _ _ _ e44, up _ _ _ _ e45, up _ _ _ _ e46, up _ _ _ _ e47, up _ _ _ _ e48, up _ _ _ _ e49, up _ _ _ _ e50, up _ _ _ _ e51, up _ _ _ _ e52, up _ _ _ _ e53, up _ _ _ _ e54⟩

/-- Only the hidden change. -/
theorem State.hide_bar2Base {s : State} {M : Nat} {v0 : Nat}
    (k0 : M.testBit 41 = true) :
    ({ s with bar2Base := v0 } : State).hide M = s.hide M := by
  simp only [State.hide, k0, cond_true]

/-- Only the hidden change. -/
theorem State.hide_bar2Base_bar2Log {s : State} {M : Nat} {v0 : Nat} {v1 : Nat}
    (k0 : M.testBit 41 = true) (k1 : M.testBit 42 = true) :
    ({ s with bar2Base := v0, bar2Log := v1 } : State).hide M = s.hide M := by
  simp only [State.hide, k0, k1, cond_true]

/-- Only the hidden change. -/
theorem State.hide_bar2Log {s : State} {M : Nat} {v0 : Nat}
    (k0 : M.testBit 42 = true) :
    ({ s with bar2Log := v0 } : State).hide M = s.hide M := by
  simp only [State.hide, k0, cond_true]

/-- Only the hidden change. -/
theorem State.hide_bar2Log_pcie_power {s : State} {M : Nat} {v0 : Nat} {v1 : Pcie} {v2 : Power}
    (k0 : M.testBit 42 = true) (k1 : M.testBit 43 = true) (k2 : M.testBit 51 = true) :
    ({ s with bar2Log := v0, pcie := v1, power := v2 } : State).hide M = s.hide M := by
  simp only [State.hide, k0, k1, k2, cond_true]

/-- Only the hidden change. -/
theorem State.hide_blocks {s : State} {M : Nat} {v0 : Sparse Block}
    (k0 : M.testBit 10 = true) :
    ({ s with blocks := v0 } : State).hide M = s.hide M := by
  simp only [State.hide, k0, cond_true]

/-- Only the hidden change. -/
theorem State.hide_blocks_phys {s : State} {M : Nat} {v0 : Sparse Block} {v1 : Sparse Phys}
    (k0 : M.testBit 10 = true) (k1 : M.testBit 52 = true) :
    ({ s with blocks := v0, phys := v1 } : State).hide M = s.hide M := by
  simp only [State.hide, k0, k1, cond_true]

/-- Only the hidden change. -/
theorem State.hide_cache {s : State} {M : Nat} {v0 : Sparse (List CacheLine)}
    (k0 : M.testBit 38 = true) :
    ({ s with cache := v0 } : State).hide M = s.hide M := by
  simp only [State.hide, k0, cond_true]

/-- Only the hidden change. -/
theorem State.hide_cellCtr {s : State} {M : Nat} {v0 : Sparse Nat}
    (k0 : M.testBit 11 = true) :
    ({ s with cellCtr := v0 } : State).hide M = s.hide M := by
  simp only [State.hide, k0, cond_true]

/-- Only the hidden change. -/
theorem State.hide_cellFlags {s : State} {M : Nat} {v0 : Sparse Flags}
    (k0 : M.testBit 12 = true) :
    ({ s with cellFlags := v0 } : State).hide M = s.hide M := by
  simp only [State.hide, k0, cond_true]

/-- Only the hidden change. -/
theorem State.hide_cellFlags_clusterFlags_moduleFlags_stepWord {s : State} {M : Nat} {v0 : Sparse Flags} {v1 : Sparse Flags} {v2 : Flags} {v3 : Option (Nat × Flags)}
    (k0 : M.testBit 12 = true) (k1 : M.testBit 13 = true) (k2 : M.testBit 14 = true) (k3 : M.testBit 15 = true) :
    ({ s with cellFlags := v0, clusterFlags := v1, moduleFlags := v2, stepWord := v3 } : State).hide M = s.hide M := by
  simp only [State.hide, k0, k1, k2, k3, cond_true]

/-- Only the hidden change. -/
theorem State.hide_cells {s : State} {M : Nat} {v0 : Sparse Cell}
    (k0 : M.testBit 9 = true) :
    ({ s with cells := v0 } : State).hide M = s.hide M := by
  simp only [State.hide, k0, cond_true]

/-- Only the hidden change. -/
theorem State.hide_cells_blocks {s : State} {M : Nat} {v0 : Sparse Cell} {v1 : Sparse Block}
    (k0 : M.testBit 9 = true) (k1 : M.testBit 10 = true) :
    ({ s with cells := v0, blocks := v1 } : State).hide M = s.hide M := by
  simp only [State.hide, k0, k1, cond_true]

/-- Only the hidden change. -/
theorem State.hide_cells_blocks_phys {s : State} {M : Nat} {v0 : Sparse Cell} {v1 : Sparse Block} {v2 : Sparse Phys}
    (k0 : M.testBit 9 = true) (k1 : M.testBit 10 = true) (k2 : M.testBit 52 = true) :
    ({ s with cells := v0, blocks := v1, phys := v2 } : State).hide M = s.hide M := by
  simp only [State.hide, k0, k1, k2, cond_true]

/-- Only the hidden change. -/
theorem State.hide_cells_cellFlags_clusterFlags_moduleFlags_stepWord_welt_side_sync_ctxs_streams_cache {s : State} {M : Nat} {v0 : Sparse Cell} {v1 : Sparse Flags} {v2 : Sparse Flags} {v3 : Flags} {v4 : Option (Nat × Flags)} {v5 : Sparse WeltPair} {v6 : Sparse SideRec} {v7 : Sparse SyncObj} {v8 : Sparse Ctx} {v9 : Sparse Stream} {v10 : Sparse (List CacheLine)}
    (k0 : M.testBit 9 = true) (k1 : M.testBit 12 = true) (k2 : M.testBit 13 = true) (k3 : M.testBit 14 = true) (k4 : M.testBit 15 = true) (k5 : M.testBit 16 = true) (k6 : M.testBit 17 = true) (k7 : M.testBit 18 = true) (k8 : M.testBit 19 = true) (k9 : M.testBit 31 = true) (k10 : M.testBit 38 = true) :
    ({ s with cells := v0, cellFlags := v1, clusterFlags := v2, moduleFlags := v3, stepWord := v4, welt := v5, side := v6, sync := v7, ctxs := v8, streams := v9, cache := v10 } : State).hide M = s.hide M := by
  simp only [State.hide, k0, k1, k2, k3, k4, k5, k6, k7, k8, k9, k10, cond_true]

/-- Only the hidden change. -/
theorem State.hide_cells_phys {s : State} {M : Nat} {v0 : Sparse Cell} {v1 : Sparse Phys}
    (k0 : M.testBit 9 = true) (k1 : M.testBit 52 = true) :
    ({ s with cells := v0, phys := v1 } : State).hide M = s.hide M := by
  simp only [State.hide, k0, k1, cond_true]

/-- Only the hidden change. -/
theorem State.hide_clock {s : State} {M : Nat} {v0 : Nat}
    (k0 : M.testBit 33 = true) :
    ({ s with clock := v0 } : State).hide M = s.hide M := by
  simp only [State.hide, k0, cond_true]

/-- Only the hidden change. -/
theorem State.hide_clock_power {s : State} {M : Nat} {v0 : Nat} {v1 : Power}
    (k0 : M.testBit 33 = true) (k1 : M.testBit 51 = true) :
    ({ s with clock := v0, power := v1 } : State).hide M = s.hide M := by
  simp only [State.hide, k0, k1, cond_true]

/-- Only the hidden change. -/
theorem State.hide_clock_powerDown {s : State} {M : Nat} {v0 : Nat} {v1 : Bool}
    (k0 : M.testBit 33 = true) (k1 : M.testBit 35 = true) :
    ({ s with clock := v0, powerDown := v1 } : State).hide M = s.hide M := by
  simp only [State.hide, k0, k1, cond_true]

/-- Only the hidden change. -/
theorem State.hide_clock_safeTrip_power {s : State} {M : Nat} {v0 : Nat} {v1 : Bool} {v2 : Power}
    (k0 : M.testBit 33 = true) (k1 : M.testBit 34 = true) (k2 : M.testBit 51 = true) :
    ({ s with clock := v0, safeTrip := v1, power := v2 } : State).hide M = s.hide M := by
  simp only [State.hide, k0, k1, k2, cond_true]

/-- Only the hidden change. -/
theorem State.hide_clusterFlags {s : State} {M : Nat} {v0 : Sparse Flags}
    (k0 : M.testBit 13 = true) :
    ({ s with clusterFlags := v0 } : State).hide M = s.hide M := by
  simp only [State.hide, k0, cond_true]

/-- Only the hidden change. -/
theorem State.hide_cmds {s : State} {M : Nat} {v0 : List Cmd}
    (k0 : M.testBit 21 = true) :
    ({ s with cmds := v0 } : State).hide M = s.hide M := by
  simp only [State.hide, k0, cond_true]

/-- Only the hidden change. -/
theorem State.hide_cmds_lastRing {s : State} {M : Nat} {v0 : List Cmd} {v1 : Nat}
    (k0 : M.testBit 21 = true) (k1 : M.testBit 22 = true) :
    ({ s with cmds := v0, lastRing := v1 } : State).hide M = s.hide M := by
  simp only [State.hide, k0, k1, cond_true]

/-- Only the hidden change. -/
theorem State.hide_ctxs {s : State} {M : Nat} {v0 : Sparse Ctx}
    (k0 : M.testBit 19 = true) :
    ({ s with ctxs := v0 } : State).hide M = s.hide M := by
  simp only [State.hide, k0, cond_true]

/-- Only the hidden change. -/
theorem State.hide_fab {s : State} {M : Nat} {v0 : List FabOp}
    (k0 : M.testBit 25 = true) :
    ({ s with fab := v0 } : State).hide M = s.hide M := by
  simp only [State.hide, k0, cond_true]

/-- Only the hidden change. -/
theorem State.hide_fab_notices {s : State} {M : Nat} {v0 : List FabOp} {v1 : List Notice}
    (k0 : M.testBit 25 = true) (k1 : M.testBit 26 = true) :
    ({ s with fab := v0, notices := v1 } : State).hide M = s.hide M := by
  simp only [State.hide, k0, k1, cond_true]

/-- Only the hidden change. -/
theorem State.hide_fabSeqs {s : State} {M : Nat} {v0 : List (Nat × Nat × Nat)}
    (k0 : M.testBit 27 = true) :
    ({ s with fabSeqs := v0 } : State).hide M = s.hide M := by
  simp only [State.hide, k0, cond_true]

/-- Only the hidden change. -/
theorem State.hide_flash {s : State} {M : Nat} {v0 : Flash}
    (k0 : M.testBit 49 = true) :
    ({ s with flash := v0 } : State).hide M = s.hide M := by
  simp only [State.hide, k0, cond_true]

/-- Only the hidden change. -/
theorem State.hide_flash_secure {s : State} {M : Nat} {v0 : Flash} {v1 : Secure}
    (k0 : M.testBit 49 = true) (k1 : M.testBit 50 = true) :
    ({ s with flash := v0, secure := v1 } : State).hide M = s.hide M := by
  simp only [State.hide, k0, k1, cond_true]

/-- Only the hidden change. -/
theorem State.hide_frameSeq {s : State} {M : Nat} {v0 : Sparse Nat}
    (k0 : M.testBit 23 = true) :
    ({ s with frameSeq := v0 } : State).hide M = s.hide M := by
  simp only [State.hide, k0, cond_true]

/-- Only the hidden change. -/
theorem State.hide_free {s : State} {M : Nat} {v0 : Nat}
    (k0 : M.testBit 1 = true) :
    ({ s with free := v0 } : State).hide M = s.hide M := by
  simp only [State.hide, k0, cond_true]

/-- Only the hidden change. -/
theorem State.hide_hostReads {s : State} {M : Nat} {v0 : List HostRead}
    (k0 : M.testBit 44 = true) :
    ({ s with hostReads := v0 } : State).hide M = s.hide M := by
  simp only [State.hide, k0, cond_true]

/-- Only the hidden change. -/
theorem State.hide_job {s : State} {M : Nat} {v0 : Job}
    (k0 : M.testBit 8 = true) :
    ({ s with job := v0 } : State).hide M = s.hide M := by
  simp only [State.hide, k0, cond_true]

/-- Only the hidden change. -/
theorem State.hide_job_ctxs {s : State} {M : Nat} {v0 : Job} {v1 : Sparse Ctx}
    (k0 : M.testBit 8 = true) (k1 : M.testBit 19 = true) :
    ({ s with job := v0, ctxs := v1 } : State).hide M = s.hide M := by
  simp only [State.hide, k0, k1, cond_true]

/-- Only the hidden change. -/
theorem State.hide_job_ctxs_missing {s : State} {M : Nat} {v0 : Job} {v1 : Sparse Ctx} {v2 : Sparse Nat}
    (k0 : M.testBit 8 = true) (k1 : M.testBit 19 = true) (k2 : M.testBit 37 = true) :
    ({ s with job := v0, ctxs := v1, missing := v2 } : State).hide M = s.hide M := by
  simp only [State.hide, k0, k1, k2, cond_true]

/-- Only the hidden change. -/
theorem State.hide_job_fab_notices_snaps_pllCal_pllIdle_hostReads_outbox {s : State} {M : Nat} {v0 : Job} {v1 : List FabOp} {v2 : List Notice} {v3 : List Snap} {v4 : List Nat} {v5 : List Nat} {v6 : List HostRead} {v7 : List Msg}
    (k0 : M.testBit 8 = true) (k1 : M.testBit 25 = true) (k2 : M.testBit 26 = true) (k3 : M.testBit 28 = true) (k4 : M.testBit 29 = true) (k5 : M.testBit 30 = true) (k6 : M.testBit 44 = true) (k7 : M.testBit 54 = true) :
    ({ s with job := v0, fab := v1, notices := v2, snaps := v3, pllCal := v4, pllIdle := v5, hostReads := v6, outbox := v7 } : State).hide M = s.hide M := by
  simp only [State.hide, k0, k1, k2, k3, k4, k5, k6, k7, cond_true]

/-- Only the hidden change. -/
theorem State.hide_job_rings_cache_testLevel {s : State} {M : Nat} {v0 : Job} {v1 : Sparse Ring} {v2 : Sparse (List CacheLine)} {v3 : Option Nat}
    (k0 : M.testBit 8 = true) (k1 : M.testBit 20 = true) (k2 : M.testBit 38 = true) (k3 : M.testBit 53 = true) :
    ({ s with job := v0, rings := v1, cache := v2, testLevel := v3 } : State).hide M = s.hide M := by
  simp only [State.hide, k0, k1, k2, k3, cond_true]

/-- Only the hidden change. -/
theorem State.hide_mailbox {s : State} {M : Nat} {v0 : Mailbox}
    (k0 : M.testBit 47 = true) :
    ({ s with mailbox := v0 } : State).hide M = s.hide M := by
  simp only [State.hide, k0, cond_true]

/-- Only the hidden change. -/
theorem State.hide_mem {s : State} {M : Nat} {v0 : List Host.Cell}
    (k0 : M.testBit 4 = true) :
    ({ s with mem := v0 } : State).hide M = s.hide M := by
  simp only [State.hide, k0, cond_true]

/-- Only the hidden change. -/
theorem State.hide_mem_poison {s : State} {M : Nat} {v0 : List Host.Cell} {v1 : List Nat}
    (k0 : M.testBit 4 = true) (k1 : M.testBit 5 = true) :
    ({ s with mem := v0, poison := v1 } : State).hide M = s.hide M := by
  simp only [State.hide, k0, k1, cond_true]

/-- Only the hidden change. -/
theorem State.hide_missing {s : State} {M : Nat} {v0 : Sparse Nat}
    (k0 : M.testBit 37 = true) :
    ({ s with missing := v0 } : State).hide M = s.hide M := by
  simp only [State.hide, k0, cond_true]

/-- Only the hidden change. -/
theorem State.hide_moduleFlags {s : State} {M : Nat} {v0 : Flags}
    (k0 : M.testBit 14 = true) :
    ({ s with moduleFlags := v0 } : State).hide M = s.hide M := by
  simp only [State.hide, k0, cond_true]

/-- Only the hidden change. -/
theorem State.hide_notices {s : State} {M : Nat} {v0 : List Notice}
    (k0 : M.testBit 26 = true) :
    ({ s with notices := v0 } : State).hide M = s.hide M := by
  simp only [State.hide, k0, cond_true]

/-- Only the hidden change. -/
theorem State.hide_od {s : State} {M : Nat} {v0 : Sparse Nat}
    (k0 : M.testBit 6 = true) :
    ({ s with od := v0 } : State).hide M = s.hide M := by
  simp only [State.hide, k0, cond_true]

/-- Only the hidden change. -/
theorem State.hide_od_cellCtr_cellFlags_clusterFlags_moduleFlags_stepWord_missing {s : State} {M : Nat} {v0 : Sparse Nat} {v1 : Sparse Nat} {v2 : Sparse Flags} {v3 : Sparse Flags} {v4 : Flags} {v5 : Option (Nat × Flags)} {v6 : Sparse Nat}
    (k0 : M.testBit 6 = true) (k1 : M.testBit 11 = true) (k2 : M.testBit 12 = true) (k3 : M.testBit 13 = true) (k4 : M.testBit 14 = true) (k5 : M.testBit 15 = true) (k6 : M.testBit 37 = true) :
    ({ s with od := v0, cellCtr := v1, cellFlags := v2, clusterFlags := v3, moduleFlags := v4, stepWord := v5, missing := v6 } : State).hide M = s.hide M := by
  simp only [State.hide, k0, k1, k2, k3, k4, k5, k6, cond_true]

/-- Only the hidden change. -/
theorem State.hide_od_watchdogs {s : State} {M : Nat} {v0 : Sparse Nat} {v1 : Sparse Nat}
    (k0 : M.testBit 6 = true) (k1 : M.testBit 36 = true) :
    ({ s with od := v0, watchdogs := v1 } : State).hide M = s.hide M := by
  simp only [State.hide, k0, k1, cond_true]

/-- Only the hidden change. -/
theorem State.hide_odQueue {s : State} {M : Nat} {v0 : List OdReq}
    (k0 : M.testBit 45 = true) :
    ({ s with odQueue := v0 } : State).hide M = s.hide M := by
  simp only [State.hide, k0, cond_true]

/-- Only the hidden change. -/
theorem State.hide_odQueue_mailbox {s : State} {M : Nat} {v0 : List OdReq} {v1 : Mailbox}
    (k0 : M.testBit 45 = true) (k1 : M.testBit 47 = true) :
    ({ s with odQueue := v0, mailbox := v1 } : State).hide M = s.hide M := by
  simp only [State.hide, k0, k1, cond_true]

/-- Only the hidden change. -/
theorem State.hide_odQueue_sessions_secure {s : State} {M : Nat} {v0 : List OdReq} {v1 : List Session} {v2 : Secure}
    (k0 : M.testBit 45 = true) (k1 : M.testBit 48 = true) (k2 : M.testBit 50 = true) :
    ({ s with odQueue := v0, sessions := v1, secure := v2 } : State).hide M = s.hide M := by
  simp only [State.hide, k0, k1, k2, cond_true]

/-- Only the hidden change. -/
theorem State.hide_odQueue_transfers_mailbox {s : State} {M : Nat} {v0 : List OdReq} {v1 : List Transfer} {v2 : Mailbox}
    (k0 : M.testBit 45 = true) (k1 : M.testBit 46 = true) (k2 : M.testBit 47 = true) :
    ({ s with odQueue := v0, transfers := v1, mailbox := v2 } : State).hide M = s.hide M := by
  simp only [State.hide, k0, k1, k2, cond_true]

/-- Only the hidden change. -/
theorem State.hide_offset {s : State} {M : Nat} {v0 : Nat}
    (k0 : M.testBit 3 = true) :
    ({ s with offset := v0 } : State).hide M = s.hide M := by
  simp only [State.hide, k0, cond_true]

/-- Only the hidden change. -/
theorem State.hide_outbox {s : State} {M : Nat} {v0 : List Msg}
    (k0 : M.testBit 54 = true) :
    ({ s with outbox := v0 } : State).hide M = s.hide M := by
  simp only [State.hide, k0, cond_true]

/-- Only the hidden change. -/
theorem State.hide_pcie {s : State} {M : Nat} {v0 : Pcie}
    (k0 : M.testBit 43 = true) :
    ({ s with pcie := v0 } : State).hide M = s.hide M := by
  simp only [State.hide, k0, cond_true]

/-- Only the hidden change. -/
theorem State.hide_pending {s : State} {M : Nat} {v0 : List Instr}
    (k0 : M.testBit 0 = true) :
    ({ s with pending := v0 } : State).hide M = s.hide M := by
  simp only [State.hide, k0, cond_true]

/-- Only the hidden change. -/
theorem State.hide_phys {s : State} {M : Nat} {v0 : Sparse Phys}
    (k0 : M.testBit 52 = true) :
    ({ s with phys := v0 } : State).hide M = s.hide M := by
  simp only [State.hide, k0, cond_true]

/-- Only the hidden change. -/
theorem State.hide_pllCal {s : State} {M : Nat} {v0 : List Nat}
    (k0 : M.testBit 29 = true) :
    ({ s with pllCal := v0 } : State).hide M = s.hide M := by
  simp only [State.hide, k0, cond_true]

/-- Only the hidden change. -/
theorem State.hide_pllCal_pllIdle {s : State} {M : Nat} {v0 : List Nat} {v1 : List Nat}
    (k0 : M.testBit 29 = true) (k1 : M.testBit 30 = true) :
    ({ s with pllCal := v0, pllIdle := v1 } : State).hide M = s.hide M := by
  simp only [State.hide, k0, k1, cond_true]

/-- Only the hidden change. -/
theorem State.hide_pllIdle {s : State} {M : Nat} {v0 : List Nat}
    (k0 : M.testBit 30 = true) :
    ({ s with pllIdle := v0 } : State).hide M = s.hide M := by
  simp only [State.hide, k0, cond_true]

/-- Only the hidden change. -/
theorem State.hide_poison {s : State} {M : Nat} {v0 : List Nat}
    (k0 : M.testBit 5 = true) :
    ({ s with poison := v0 } : State).hide M = s.hide M := by
  simp only [State.hide, k0, cond_true]

/-- Only the hidden change. -/
theorem State.hide_ports {s : State} {M : Nat} {v0 : Sparse Port}
    (k0 : M.testBit 24 = true) :
    ({ s with ports := v0 } : State).hide M = s.hide M := by
  simp only [State.hide, k0, cond_true]

/-- Only the hidden change. -/
theorem State.hide_power {s : State} {M : Nat} {v0 : Power}
    (k0 : M.testBit 51 = true) :
    ({ s with power := v0 } : State).hide M = s.hide M := by
  simp only [State.hide, k0, cond_true]

/-- Only the hidden change. -/
theorem State.hide_powerDown {s : State} {M : Nat} {v0 : Bool}
    (k0 : M.testBit 35 = true) :
    ({ s with powerDown := v0 } : State).hide M = s.hide M := by
  simp only [State.hide, k0, cond_true]

/-- Only the hidden change. -/
theorem State.hide_rings {s : State} {M : Nat} {v0 : Sparse Ring}
    (k0 : M.testBit 20 = true) :
    ({ s with rings := v0 } : State).hide M = s.hide M := by
  simp only [State.hide, k0, cond_true]

/-- Only the hidden change. -/
theorem State.hide_rings_cache_testLevel {s : State} {M : Nat} {v0 : Sparse Ring} {v1 : Sparse (List CacheLine)} {v2 : Option Nat}
    (k0 : M.testBit 20 = true) (k1 : M.testBit 38 = true) (k2 : M.testBit 53 = true) :
    ({ s with rings := v0, cache := v1, testLevel := v2 } : State).hide M = s.hide M := by
  simp only [State.hide, k0, k1, k2, cond_true]

/-- Only the hidden change. -/
theorem State.hide_rowCorrections {s : State} {M : Nat} {v0 : Sparse Nat}
    (k0 : M.testBit 40 = true) :
    ({ s with rowCorrections := v0 } : State).hide M = s.hide M := by
  simp only [State.hide, k0, cond_true]

/-- Only the hidden change. -/
theorem State.hide_rowCorrections_flash {s : State} {M : Nat} {v0 : Sparse Nat} {v1 : Flash}
    (k0 : M.testBit 40 = true) (k1 : M.testBit 49 = true) :
    ({ s with rowCorrections := v0, flash := v1 } : State).hide M = s.hide M := by
  simp only [State.hide, k0, k1, cond_true]

/-- Only the hidden change. -/
theorem State.hide_safeTrip {s : State} {M : Nat} {v0 : Bool}
    (k0 : M.testBit 34 = true) :
    ({ s with safeTrip := v0 } : State).hide M = s.hide M := by
  simp only [State.hide, k0, cond_true]

/-- Only the hidden change. -/
theorem State.hide_schedDown {s : State} {M : Nat} {v0 : Bool}
    (k0 : M.testBit 32 = true) :
    ({ s with schedDown := v0 } : State).hide M = s.hide M := by
  simp only [State.hide, k0, cond_true]

/-- Only the hidden change. -/
theorem State.hide_schedDown_clock_powerDown {s : State} {M : Nat} {v0 : Bool} {v1 : Nat} {v2 : Bool}
    (k0 : M.testBit 32 = true) (k1 : M.testBit 33 = true) (k2 : M.testBit 35 = true) :
    ({ s with schedDown := v0, clock := v1, powerDown := v2 } : State).hide M = s.hide M := by
  simp only [State.hide, k0, k1, k2, cond_true]

/-- Only the hidden change. -/
theorem State.hide_schedDown_powerDown {s : State} {M : Nat} {v0 : Bool} {v1 : Bool}
    (k0 : M.testBit 32 = true) (k1 : M.testBit 35 = true) :
    ({ s with schedDown := v0, powerDown := v1 } : State).hide M = s.hide M := by
  simp only [State.hide, k0, k1, cond_true]

/-- Only the hidden change. -/
theorem State.hide_secure {s : State} {M : Nat} {v0 : Secure}
    (k0 : M.testBit 50 = true) :
    ({ s with secure := v0 } : State).hide M = s.hide M := by
  simp only [State.hide, k0, cond_true]

/-- Only the hidden change. -/
theorem State.hide_secure_power {s : State} {M : Nat} {v0 : Secure} {v1 : Power}
    (k0 : M.testBit 50 = true) (k1 : M.testBit 51 = true) :
    ({ s with secure := v0, power := v1 } : State).hide M = s.hide M := by
  simp only [State.hide, k0, k1, cond_true]

/-- Only the hidden change. -/
theorem State.hide_serial {s : State} {M : Nat} {v0 : Nat}
    (k0 : M.testBit 2 = true) :
    ({ s with serial := v0 } : State).hide M = s.hide M := by
  simp only [State.hide, k0, cond_true]

/-- Only the hidden change. -/
theorem State.hide_sessions {s : State} {M : Nat} {v0 : List Session}
    (k0 : M.testBit 48 = true) :
    ({ s with sessions := v0 } : State).hide M = s.hide M := by
  simp only [State.hide, k0, cond_true]

/-- Only the hidden change. -/
theorem State.hide_side {s : State} {M : Nat} {v0 : Sparse SideRec}
    (k0 : M.testBit 17 = true) :
    ({ s with side := v0 } : State).hide M = s.hide M := by
  simp only [State.hide, k0, cond_true]

/-- Only the hidden change. -/
theorem State.hide_snaps {s : State} {M : Nat} {v0 : List Snap}
    (k0 : M.testBit 28 = true) :
    ({ s with snaps := v0 } : State).hide M = s.hide M := by
  simp only [State.hide, k0, cond_true]

/-- Only the hidden change. -/
theorem State.hide_stackSts {s : State} {M : Nat} {v0 : Sparse StackSt}
    (k0 : M.testBit 39 = true) :
    ({ s with stackSts := v0 } : State).hide M = s.hide M := by
  simp only [State.hide, k0, cond_true]

/-- Only the hidden change. -/
theorem State.hide_stitch {s : State} {M : Nat} {v0 : Stitch}
    (k0 : M.testBit 7 = true) :
    ({ s with stitch := v0 } : State).hide M = s.hide M := by
  simp only [State.hide, k0, cond_true]

/-- Only the hidden change. -/
theorem State.hide_stitch_job_side_fab_notices_fabSeqs_snaps_streams_clock {s : State} {M : Nat} {v0 : Stitch} {v1 : Job} {v2 : Sparse SideRec} {v3 : List FabOp} {v4 : List Notice} {v5 : List (Nat × Nat × Nat)} {v6 : List Snap} {v7 : Sparse Stream} {v8 : Nat}
    (k0 : M.testBit 7 = true) (k1 : M.testBit 8 = true) (k2 : M.testBit 17 = true) (k3 : M.testBit 25 = true) (k4 : M.testBit 26 = true) (k5 : M.testBit 27 = true) (k6 : M.testBit 28 = true) (k7 : M.testBit 31 = true) (k8 : M.testBit 33 = true) :
    ({ s with stitch := v0, job := v1, side := v2, fab := v3, notices := v4, fabSeqs := v5, snaps := v6, streams := v7, clock := v8 } : State).hide M = s.hide M := by
  simp only [State.hide, k0, k1, k2, k3, k4, k5, k6, k7, k8, cond_true]

/-- Only the hidden change. -/
theorem State.hide_streams {s : State} {M : Nat} {v0 : Sparse Stream}
    (k0 : M.testBit 31 = true) :
    ({ s with streams := v0 } : State).hide M = s.hide M := by
  simp only [State.hide, k0, cond_true]

/-- Only the hidden change. -/
theorem State.hide_streams_hostReads {s : State} {M : Nat} {v0 : Sparse Stream} {v1 : List HostRead}
    (k0 : M.testBit 31 = true) (k1 : M.testBit 44 = true) :
    ({ s with streams := v0, hostReads := v1 } : State).hide M = s.hide M := by
  simp only [State.hide, k0, k1, cond_true]

/-- Only the hidden change. -/
theorem State.hide_sync {s : State} {M : Nat} {v0 : Sparse SyncObj}
    (k0 : M.testBit 18 = true) :
    ({ s with sync := v0 } : State).hide M = s.hide M := by
  simp only [State.hide, k0, cond_true]

/-- Only the hidden change. -/
theorem State.hide_testLevel {s : State} {M : Nat} {v0 : Option Nat}
    (k0 : M.testBit 53 = true) :
    ({ s with testLevel := v0 } : State).hide M = s.hide M := by
  simp only [State.hide, k0, cond_true]

/-- Only the hidden change. -/
theorem State.hide_transfers {s : State} {M : Nat} {v0 : List Transfer}
    (k0 : M.testBit 46 = true) :
    ({ s with transfers := v0 } : State).hide M = s.hide M := by
  simp only [State.hide, k0, cond_true]

/-- Only the hidden change. -/
theorem State.hide_watchdogs {s : State} {M : Nat} {v0 : Sparse Nat}
    (k0 : M.testBit 36 = true) :
    ({ s with watchdogs := v0 } : State).hide M = s.hide M := by
  simp only [State.hide, k0, cond_true]

/-- Only the hidden change. -/
theorem State.hide_welt {s : State} {M : Nat} {v0 : Sparse WeltPair}
    (k0 : M.testBit 16 = true) :
    ({ s with welt := v0 } : State).hide M = s.hide M := by
  simp only [State.hide, k0, cond_true]

/-- Only the hidden change. -/
theorem State.hide_welt_ctxs {s : State} {M : Nat} {v0 : Sparse WeltPair} {v1 : Sparse Ctx}
    (k0 : M.testBit 16 = true) (k1 : M.testBit 19 = true) :
    ({ s with welt := v0, ctxs := v1 } : State).hide M = s.hide M := by
  simp only [State.hide, k0, k1, cond_true]

/-- A run of operations that each keep what is not hidden. -/
theorem foldl_fr {β : Type} {f : State → β → State} {l : List β} {s z : State} {M : Nat}
    (h : s.hide M = z.hide M) (k : ∀ t a, t.hide M = z.hide M → (f t a).hide M = z.hide M) : (l.foldl f s).hide M = z.hide M := by
  induction l generalizing s with
  | nil => exact h
  | cons a r ih => exact ih (k s a h)

/-- A run that carries something beside the state. -/
theorem foldl_fr_fst {β γ : Type} {f : State × γ → β → State × γ} {l : List β} {a : State × γ} {z : State} {M : Nat}
    (h : a.1.hide M = z.hide M) (k : ∀ t b, t.1.hide M = z.hide M → (f t b).1.hide M = z.hide M) : (l.foldl f a).1.hide M = z.hide M := by
  induction l generalizing a with
  | nil => exact h
  | cons b r ih => exact ih (k a b h)

end Sys2Proof.Machine
end

