-- ==== Sys2Proof/Laws/FrameCells.lean ====
section
/-! SUPPORT. What each operation over the principal operations, the queues of a cell and the array engine can change:
the fields of its mask (`State.hide`), and nothing else. -/

namespace Sys2Proof.Machine

theorem State.odSet_fr {z : State} {M : Nat} (hM : Nat.land 0x40 M = 0x40) (s : State) (index sub v : Nat) (hs : s.hide M = z.hide M) :
    (State.odSet s index sub v).hide M = z.hide M := by
  unfold State.odSet
  have b0 : M.testBit 6 = true := sub_bit hM rfl
  repeat' (first | with_reducible assumption | simp only [State.hide_od b0])

theorem State.odAdd_fr {z : State} {M : Nat} (hM : Nat.land 0x40 M = 0x40) (s : State) (index sub n : Nat) (hs : s.hide M = z.hide M) :
    (State.odAdd s index sub n).hide M = z.hide M := by
  unfold State.odAdd
  have k0 : Nat.land 0x40 M = _ := sub_trans rfl hM
  repeat' (first | with_reducible assumption | with_reducible apply State.odSet_fr k0)

theorem State.setCell_fr {z : State} {M : Nat} (hM : Nat.land 0x200 M = 0x200) (s : State) (c : Nat) (v : Cell) (hs : s.hide M = z.hide M) :
    (State.setCell s c v).hide M = z.hide M := by
  unfold State.setCell
  have b0 : M.testBit 9 = true := sub_bit hM rfl
  repeat' (first | with_reducible assumption | simp only [State.hide_cells b0])

theorem State.updCell_fr {z : State} {M : Nat} (hM : Nat.land 0x200 M = 0x200) (s : State) (c : Nat) (f : Cell → Cell) (hs : s.hide M = z.hide M) :
    (State.updCell s c f).hide M = z.hide M := by
  unfold State.updCell
  have k0 : Nat.land 0x200 M = _ := sub_trans rfl hM
  repeat' (first | with_reducible assumption | with_reducible apply State.setCell_fr k0)

theorem State.updPiece_fr {z : State} {M : Nat} (hM : Nat.land 0x200 M = 0x200) (s : State) (c : Nat) (f : Piece → Piece) (hs : s.hide M = z.hide M) :
    (State.updPiece s c f).hide M = z.hide M := by
  unfold State.updPiece
  have k0 : Nat.land 0x200 M = _ := sub_trans rfl hM
  repeat' (first | with_reducible assumption | with_reducible apply State.updCell_fr k0)

theorem State.setBme_fr {z : State} {M : Nat} (hM : Nat.land 0x80000000000 M = 0x80000000000) (s : State) (on : Bool) (hs : s.hide M = z.hide M) :
    (State.setBme s on).hide M = z.hide M := by
  unfold State.setBme
  have b0 : M.testBit 43 = true := sub_bit hM rfl
  repeat' (first | with_reducible assumption | simp only [State.hide_pcie b0])

theorem State.updPhys_fr {z : State} {M : Nat} (hM : Nat.land 0x10000000000000 M = 0x10000000000000) (s : State) (cluster p : Nat) (f : Phys → Phys) (hs : s.hide M = z.hide M) :
    (State.updPhys s cluster p f).hide M = z.hide M := by
  unfold State.updPhys
  have b0 : M.testBit 52 = true := sub_bit hM rfl
  repeat' (first | with_reducible assumption | simp only [State.hide_phys b0])

theorem State.setBlock_fr {z : State} {M : Nat} (hM : Nat.land 0x400 M = 0x400) (s : State) (b : Nat) (v : Block) (hs : s.hide M = z.hide M) :
    (State.setBlock s b v).hide M = z.hide M := by
  unfold State.setBlock
  have b0 : M.testBit 10 = true := sub_bit hM rfl
  repeat' (first | with_reducible assumption | simp only [State.hide_blocks b0])

theorem State.cellAdd_fr {z : State} {M : Nat} (hM : Nat.land 0x800 M = 0x800) (s : State) (c k n : Nat) (hs : s.hide M = z.hide M) :
    (State.cellAdd s c k n).hide M = z.hide M := by
  unfold State.cellAdd
  have b0 : M.testBit 11 = true := sub_bit hM rfl
  repeat' (first | with_reducible assumption | simp only [State.hide_cellCtr b0])

theorem State.addPoison_fr {z : State} {M : Nat} (hM : Nat.land 0x20 M = 0x20) (s : State) (a : Nat) (hs : s.hide M = z.hide M) :
    (State.addPoison s a).hide M = z.hide M := by
  unfold State.addPoison
  have b0 : M.testBit 5 = true := sub_bit hM rfl
  repeat' (first | with_reducible assumption | simp only [State.hide_poison b0])

theorem State.wrByte_fr {z : State} {M : Nat} (hM : Nat.land 0x10 M = 0x10) (s : State) (a : Nat) (b : Byte) (h : s.hide M = z.hide M) : (s.wrByte a b).hide M = z.hide M :=
  (State.hide_mem (sub_bit hM rfl)).trans h

theorem State.noteWritten_fr {z : State} {M : Nat} (hM : Nat.land 0x200 M = 0x200) (s : State) (a n : Nat) (hs : s.hide M = z.hide M) :
    (State.noteWritten s a n).hide M = z.hide M := by
  unfold State.noteWritten
  have k0 : Nat.land 0x200 M = _ := sub_trans rfl hM
  repeat' (first | with_reducible assumption | with_reducible apply State.updCell_fr k0 | with_reducible apply foldl_fr | with_reducible apply foldl_fr_fst | (intro _ _ _) | split)

theorem State.wrBytes_fr {z : State} {M : Nat} (hM : Nat.land 0x10 M = 0x10) (s : State) (a : Nat) (bs : List Byte) (h : s.hide M = z.hide M) :
    (s.wrBytes a bs).hide M = z.hide M := by
  induction bs generalizing s a with
  | nil => exact h
  | cons b r ih => exact ih _ _ (State.wrByte_fr (sub_trans rfl hM) s a b h)

theorem State.markPoison_fr {z : State} {M : Nat} (hM : Nat.land 0x20 M = 0x20) (s : State) (a n : Nat) (bad : List Nat) (h : s.hide M = z.hide M) :
    (s.markPoison a n bad).hide M = z.hide M :=
  (State.hide_poison (sub_bit hM rfl)).trans h

theorem State.copyRange_fr {z : State} {M : Nat} (hM : Nat.land 0x30 M = 0x30) (s : State) (src dst n : Nat) (h : s.hide M = z.hide M) :
    (s.copyRange src dst n).hide M = z.hide M :=
  State.markPoison_fr (sub_trans rfl hM) _ _ _ _ ((State.hide_mem (sub_bit hM rfl)).trans h)

theorem State.clearMem_fr {z : State} {M : Nat} (hM : Nat.land 0x30 M = 0x30) (s : State) (h : s.hide M = z.hide M) : s.clearMem.hide M = z.hide M :=
  (State.hide_mem_poison (sub_bit hM rfl) (sub_bit hM rfl)).trans h

theorem State.stageFlags_fr {z : State} {M : Nat} (hM : Nat.land 0x200 M = 0x200) (s : State) (c : Nat) (f : Flags) (hs : s.hide M = z.hide M) :
    (State.stageFlags s c f).hide M = z.hide M := by
  unfold State.stageFlags
  have k0 : Nat.land 0x200 M = _ := sub_trans rfl hM
  repeat' (first | with_reducible assumption | with_reducible apply State.updPiece_fr k0)

theorem State.orCellFlags_fr {z : State} {M : Nat} (hM : Nat.land 0x1000 M = 0x1000) (s : State) (c : Nat) (f : Flags) (hs : s.hide M = z.hide M) :
    (State.orCellFlags s c f).hide M = z.hide M := by
  unfold State.orCellFlags
  have b0 : M.testBit 12 = true := sub_bit hM rfl
  repeat' (first | with_reducible assumption | simp only [State.hide_cellFlags b0])

theorem State.orClusterFlags_fr {z : State} {M : Nat} (hM : Nat.land 0x2000 M = 0x2000) (s : State) (k : Nat) (f : Flags) (hs : s.hide M = z.hide M) :
    (State.orClusterFlags s k f).hide M = z.hide M := by
  unfold State.orClusterFlags
  have b0 : M.testBit 13 = true := sub_bit hM rfl
  repeat' (first | with_reducible assumption | simp only [State.hide_clusterFlags b0])

theorem State.setObj_fr {z : State} {M : Nat} (hM : Nat.land 0x40000 M = 0x40000) (s : State) (i : Nat) (o : SyncObj) (hs : s.hide M = z.hide M) :
    (State.setObj s i o).hide M = z.hide M := by
  unfold State.setObj
  have b0 : M.testBit 18 = true := sub_bit hM rfl
  repeat' (first | with_reducible assumption | simp only [State.hide_sync b0])

theorem State.setCtx_fr {z : State} {M : Nat} (hM : Nat.land 0x80000 M = 0x80000) (s : State) (c : Nat) (v : Ctx) (hs : s.hide M = z.hide M) :
    (State.setCtx s c v).hide M = z.hide M := by
  unfold State.setCtx
  have b0 : M.testBit 19 = true := sub_bit hM rfl
  repeat' (first | with_reducible assumption | simp only [State.hide_ctxs b0])

theorem State.updCtx_fr {z : State} {M : Nat} (hM : Nat.land 0x80000 M = 0x80000) (s : State) (c : Nat) (f : Ctx → Ctx) (hs : s.hide M = z.hide M) :
    (State.updCtx s c f).hide M = z.hide M := by
  unfold State.updCtx
  have k0 : Nat.land 0x80000 M = _ := sub_trans rfl hM
  repeat' (first | with_reducible assumption | with_reducible apply State.setCtx_fr k0 | with_reducible apply foldl_fr | with_reducible apply foldl_fr_fst | (intro _ _ _) | split)

theorem State.setRing_fr {z : State} {M : Nat} (hM : Nat.land 0x100000 M = 0x100000) (s : State) (n : Nat) (r : Ring) (hs : s.hide M = z.hide M) :
    (State.setRing s n r).hide M = z.hide M := by
  unfold State.setRing
  have b0 : M.testBit 20 = true := sub_bit hM rfl
  repeat' (first | with_reducible assumption | simp only [State.hide_rings b0])

theorem State.updCmd_fr {z : State} {M : Nat} (hM : Nat.land 0x200000 M = 0x200000) (s : State) (id : Nat) (f : Cmd → Cmd) (hs : s.hide M = z.hide M) :
    (State.updCmd s id f).hide M = z.hide M := by
  unfold State.updCmd
  have b0 : M.testBit 21 = true := sub_bit hM rfl
  repeat' (first | with_reducible assumption | simp only [State.hide_cmds b0])

theorem State.setPort_fr {z : State} {M : Nat} (hM : Nat.land 0x1000000 M = 0x1000000) (s : State) (p : Nat) (v : Port) (hs : s.hide M = z.hide M) :
    (State.setPort s p v).hide M = z.hide M := by
  unfold State.setPort
  have b0 : M.testBit 24 = true := sub_bit hM rfl
  repeat' (first | with_reducible assumption | simp only [State.hide_ports b0])

theorem State.updPort_fr {z : State} {M : Nat} (hM : Nat.land 0x1000000 M = 0x1000000) (s : State) (p : Nat) (f : Port → Port) (hs : s.hide M = z.hide M) :
    (State.updPort s p f).hide M = z.hide M := by
  unfold State.updPort
  have k0 : Nat.land 0x1000000 M = _ := sub_trans rfl hM
  repeat' (first | with_reducible assumption | with_reducible apply State.setPort_fr k0)

theorem State.updFab_fr {z : State} {M : Nat} (hM : Nat.land 0x2000000 M = 0x2000000) (s : State) (id : Nat) (f : FabOp → FabOp) (hs : s.hide M = z.hide M) :
    (State.updFab s id f).hide M = z.hide M := by
  unfold State.updFab
  have b0 : M.testBit 25 = true := sub_bit hM rfl
  repeat' (first | with_reducible assumption | simp only [State.hide_fab b0])

theorem State.updStream_fr {z : State} {M : Nat} (hM : Nat.land 0x80000000 M = 0x80000000) (s : State) (n : Nat) (f : Stream → Stream) (hs : s.hide M = z.hide M) :
    (State.updStream s n f).hide M = z.hide M := by
  unfold State.updStream
  have b0 : M.testBit 31 = true := sub_bit hM rfl
  repeat' (first | with_reducible assumption | simp only [State.hide_streams b0])

theorem State.send_fr {z : State} {M : Nat} (hM : Nat.land 0x40000000000000 M = 0x40000000000000) (s : State) (m : Msg) (hs : s.hide M = z.hide M) :
    (State.send s m).hide M = z.hide M := by
  unfold State.send
  have b0 : M.testBit 54 = true := sub_bit hM rfl
  repeat' (first | with_reducible assumption | simp only [State.hide_outbox b0] | with_reducible apply foldl_fr | with_reducible apply foldl_fr_fst | (intro _ _ _) | split)

theorem State.takeMsg_fr {z : State} {M : Nat} (hM : Nat.land 0x40000000000000 M = 0x40000000000000) {s t : State} {m : Msg} (e : s.takeMsg m = some t) (h : s.hide M = z.hide M) :
    t.hide M = z.hide M := by
  unfold State.takeMsg at e
  split at e
  · cases e; exact (State.hide_outbox (sub_bit hM rfl)).trans h
  · cases e

theorem State.takeMsg_getD_fr {z : State} {M : Nat} (hM : Nat.land 0x40000000000000 M = 0x40000000000000) (s : State) (m : Msg) (h : s.hide M = z.hide M) :
    ((s.takeMsg m).getD s).hide M = z.hide M := by
  unfold State.takeMsg
  split
  · exact (State.hide_outbox (sub_bit hM rfl)).trans h
  · exact h

theorem State.fresh_fr {z : State} {M : Nat} (hM : Nat.land 0x4 M = 0x4) (s : State) (hs : s.hide M = z.hide M) :
    (State.fresh s).hide M = z.hide M := by
  unfold State.fresh
  have b0 : M.testBit 2 = true := sub_bit hM rfl
  repeat' (first | with_reducible assumption | simp only [State.hide_serial b0])

theorem State.draw_fr {z : State} {M : Nat} (hM : Nat.land 0x2 M = 0x2) (s : State) (hs : s.hide M = z.hide M) :
    (State.draw s).hide M = z.hide M := by
  unfold State.draw
  have b0 : M.testBit 1 = true := sub_bit hM rfl
  repeat' (first | with_reducible assumption | simp only [State.hide_free b0])

theorem whenPowered_fr {z : State} {M : Nat} (hM : Nat.land 0x0 M = 0x0) (s : State) (f : State → State) (h : s.hide M = z.hide M) (k : (f s).hide M = z.hide M) :
    (whenPowered s f).hide M = z.hide M := by
  unfold whenPowered
  split
  · exact k
  · exact h

theorem putLine_fr {z : State} {M : Nat} (hM : Nat.land 0x4000000000 M = 0x4000000000) (s : State) (a : Nat) (l : CacheLine) (hs : s.hide M = z.hide M) :
    (putLine s a l).hide M = z.hide M := by
  unfold putLine
  have b0 : M.testBit 38 = true := sub_bit hM rfl
  repeat' (first | with_reducible assumption | simp only [State.hide_cache b0])

theorem putSector_fr {z : State} {M : Nat} (hM : Nat.land 0x30 M = 0x30) (s : State) (a : Nat) (d : List Nat) (poison : Bool) (hs : s.hide M = z.hide M) :
    (putSector s a d poison).hide M = z.hide M := by
  unfold putSector
  have k0 : Nat.land 0x20 M = _ := sub_trans rfl hM
  have k1 : Nat.land 0x10 M = _ := sub_trans rfl hM
  have b2 : M.testBit 5 = true := sub_bit hM rfl
  repeat' (first | with_reducible assumption | simp only [State.hide_poison b2] | with_reducible apply State.addPoison_fr k0 | with_reducible apply State.wrBytes_fr k1 | with_reducible apply foldl_fr | with_reducible apply foldl_fr_fst | (intro _ _ _) | split)

theorem evictLine_fr {z : State} {M : Nat} (hM : Nat.land 0x30 M = 0x30) (s : State) (l : CacheLine) (hs : s.hide M = z.hide M) :
    (evictLine s l).hide M = z.hide M := by
  unfold evictLine
  have k0 : Nat.land 0x30 M = _ := sub_trans rfl hM
  repeat' (first | with_reducible assumption | with_reducible apply putSector_fr k0 | with_reducible apply foldl_fr | with_reducible apply foldl_fr_fst | (intro _ _ _) | split)

theorem touchLine_fr {z : State} {M : Nat} (hM : Nat.land 0x4000000030 M = 0x4000000030) (s : State) (a : Nat) (l : CacheLine) (hs : s.hide M = z.hide M) :
    (touchLine s a l).hide M = z.hide M := by
  unfold touchLine
  have k0 : Nat.land 0x30 M = _ := sub_trans rfl hM
  have b1 : M.testBit 38 = true := sub_bit hM rfl
  repeat' (first | with_reducible assumption | simp only [State.hide_cache b1] | with_reducible apply evictLine_fr k0 | with_reducible apply foldl_fr)

theorem loadLine_fr {z : State} {M : Nat} (hM : Nat.land 0x4000000070 M = 0x4000000070) (s : State) (a n : Nat) (hs : s.hide M = z.hide M) :
    (loadLine s a n).hide M = z.hide M := by
  unfold loadLine
  have k0 : Nat.land 0x40 M = _ := sub_trans rfl hM
  have k1 : Nat.land 0x4000000030 M = _ := sub_trans rfl hM
  repeat' (first | with_reducible assumption | with_reducible apply State.odAdd_fr k0 | with_reducible apply touchLine_fr k1 | with_reducible apply foldl_fr | with_reducible apply foldl_fr_fst | (intro _ _ _) | split)

theorem storeLine_fr {z : State} {M : Nat} (hM : Nat.land 0x4000000030 M = 0x4000000030) (s : State) (a n : Nat) (val : Nat → Byte) (hs : s.hide M = z.hide M) :
    (storeLine s a n val).hide M = z.hide M := by
  unfold storeLine
  have k0 : Nat.land 0x4000000030 M = _ := sub_trans rfl hM
  repeat' (first | with_reducible assumption | with_reducible apply touchLine_fr k0 | with_reducible apply foldl_fr | with_reducible apply foldl_fr_fst | (intro _ _ _) | split)

theorem sliceLoads_fr {z : State} {M : Nat} (hM : Nat.land 0x4000000070 M = 0x4000000070) (s : State) (rs : List (Nat × Nat)) (hs : s.hide M = z.hide M) :
    (sliceLoads s rs).hide M = z.hide M := by
  unfold sliceLoads
  have k0 : Nat.land 0x4000000070 M = _ := sub_trans rfl hM
  repeat' (first | with_reducible assumption | with_reducible apply loadLine_fr k0 | with_reducible apply foldl_fr | with_reducible apply foldl_fr_fst | (intro _ _ _))

theorem sliceStore_fr {z : State} {M : Nat} (hM : Nat.land 0x4000000030 M = 0x4000000030) (s : State) (a n : Nat) (val : Nat → Byte) (hs : s.hide M = z.hide M) :
    (sliceStore s a n val).hide M = z.hide M := by
  unfold sliceStore
  have k0 : Nat.land 0x4000000030 M = _ := sub_trans rfl hM
  repeat' (first | with_reducible assumption | with_reducible apply storeLine_fr k0 | with_reducible apply foldl_fr | with_reducible apply foldl_fr_fst | (intro _ _ _))

theorem sliceStores_fr {z : State} {M : Nat} (hM : Nat.land 0x4000000030 M = 0x4000000030) (s : State) (ws : List (Nat × List Byte)) (hs : s.hide M = z.hide M) :
    (sliceStores s ws).hide M = z.hide M := by
  unfold sliceStores
  have k0 : Nat.land 0x4000000030 M = _ := sub_trans rfl hM
  repeat' (first | with_reducible assumption | with_reducible apply sliceStore_fr k0 | with_reducible apply foldl_fr | with_reducible apply foldl_fr_fst | (intro _ _ _))

theorem State.moveRange_fr {z : State} {M : Nat} (hM : Nat.land 0x4000000070 M = 0x4000000070) (s : State) (src dst n : Nat) (hs : s.hide M = z.hide M) :
    (State.moveRange s src dst n).hide M = z.hide M := by
  unfold State.moveRange
  have k0 : Nat.land 0x30 M = _ := sub_trans rfl hM
  have k1 : Nat.land 0x4000000070 M = _ := sub_trans rfl hM
  have k2 : Nat.land 0x4000000030 M = _ := sub_trans rfl hM
  repeat' (first | with_reducible assumption | with_reducible apply State.copyRange_fr k0 | with_reducible apply sliceLoads_fr k1 | with_reducible apply sliceStore_fr k2)

theorem State.copyOnWrite_fr {z : State} {M : Nat} (hM : Nat.land 0x4010000070 M = 0x4010000070) (s : State) (a n : Nat) (hs : s.hide M = z.hide M) :
    (State.copyOnWrite s a n).hide M = z.hide M := by
  unfold State.copyOnWrite
  have k0 : Nat.land 0x4000000070 M = _ := sub_trans rfl hM
  have k1 : Nat.land 0x40 M = _ := sub_trans rfl hM
  have b2 : M.testBit 28 = true := sub_bit hM rfl
  repeat' (first | with_reducible assumption | simp only [State.hide_snaps b2] | with_reducible apply State.moveRange_fr k0 | with_reducible apply State.odAdd_fr k1 | with_reducible apply foldl_fr | with_reducible apply foldl_fr_fst | (intro _ _ _) | split)

theorem State.store_fr {z : State} {M : Nat} (hM : Nat.land 0x4010000270 M = 0x4010000270) (s : State) (a : Nat) (bs : List Byte) (bad : List Nat) (hs : s.hide M = z.hide M) :
    (State.store s a bs bad).hide M = z.hide M := by
  unfold State.store
  have k0 : Nat.land 0x20 M = _ := sub_trans rfl hM
  have k1 : Nat.land 0x200 M = _ := sub_trans rfl hM
  have k2 : Nat.land 0x4010000070 M = _ := sub_trans rfl hM
  have k3 : Nat.land 0x10 M = _ := sub_trans rfl hM
  repeat' (first | with_reducible assumption | with_reducible apply State.markPoison_fr k0 | with_reducible apply State.noteWritten_fr k1 | with_reducible apply State.copyOnWrite_fr k2 | with_reducible apply State.wrBytes_fr k3)

theorem State.storeP_fr {z : State} {M : Nat} (hM : Nat.land 0x4010000270 M = 0x4010000270) (s : State) (a : Nat) (bs : List Byte) (p : Bool) (hs : s.hide M = z.hide M) :
    (State.storeP s a bs p).hide M = z.hide M := by
  unfold State.storeP
  have k0 : Nat.land 0x4010000270 M = _ := sub_trans rfl hM
  repeat' (first | with_reducible assumption | with_reducible apply State.store_fr k0)

theorem State.wr_fr {z : State} {M : Nat} (hM : Nat.land 0x4010000270 M = 0x4010000270) (s : State) (a n v : Nat) (p : Bool) (hs : s.hide M = z.hide M) :
    (State.wr s a n v p).hide M = z.hide M := by
  unfold State.wr
  have k0 : Nat.land 0x4010000270 M = _ := sub_trans rfl hM
  repeat' (first | with_reducible assumption | with_reducible apply State.storeP_fr k0)

theorem State.reachStore_fr {z : State} {M : Nat} (hM : Nat.land 0x4010000270 M = 0x4010000270) (s : State) (a : Nat) (bs : List Byte) (p : Bool) (hs : s.hide M = z.hide M) :
    (State.reachStore s a bs p).hide M = z.hide M := by
  unfold State.reachStore
  have k0 : Nat.land 0x4000000030 M = _ := sub_trans rfl hM
  have k1 : Nat.land 0x4010000270 M = _ := sub_trans rfl hM
  repeat' (first | with_reducible assumption | with_reducible apply sliceStores_fr k0 | with_reducible apply State.storeP_fr k1 | with_reducible apply foldl_fr | with_reducible apply foldl_fr_fst | (intro _ _ _) | split)

theorem State.reachView_fr {z : State} {M : Nat} (hM : Nat.land 0x30 M = 0x30) (s : State) (rs : List (Nat × Nat)) (hs : s.hide M = z.hide M) :
    (State.reachView s rs).hide M = z.hide M := by
  unfold State.reachView
  have k0 : Nat.land 0x20 M = _ := sub_trans rfl hM
  have k1 : Nat.land 0x10 M = _ := sub_trans rfl hM
  repeat' (first | with_reducible assumption | with_reducible apply State.markPoison_fr k0 | with_reducible apply State.wrBytes_fr k1 | with_reducible apply foldl_fr | with_reducible apply foldl_fr_fst | (intro _ _ _) | split)

theorem State.swapRange_fr {z : State} {M : Nat} (hM : Nat.land 0x4010000070 M = 0x4010000070) (s : State) (src dst n : Nat) (hs : s.hide M = z.hide M) :
    (State.swapRange s src dst n).hide M = z.hide M := by
  unfold State.swapRange
  have k0 : Nat.land 0x4000000070 M = _ := sub_trans rfl hM
  have k1 : Nat.land 0x4010000070 M = _ := sub_trans rfl hM
  repeat' (first | with_reducible assumption | with_reducible apply State.moveRange_fr k0 | with_reducible apply State.copyOnWrite_fr k1)

theorem giveReply_fr {z : State} {M : Nat} (hM : Nat.land 0x200 M = 0x200) (s : State) (w : Waiter) (word objIdx : Nat) (hs : s.hide M = z.hide M) :
    (giveReply s w word objIdx).hide M = z.hide M := by
  unfold giveReply
  have k0 : Nat.land 0x200 M = _ := sub_trans rfl hM
  repeat' (first | with_reducible assumption | with_reducible apply State.updPiece_fr k0)

theorem settleObj_fr {z : State} {M : Nat} (hM : Nat.land 0x40200 M = 0x40200) (s : State) (i : Nat) (o : SyncObj) (hs : s.hide M = z.hide M) :
    (settleObj s i o).hide M = z.hide M := by
  unfold settleObj
  have k0 : Nat.land 0x200 M = _ := sub_trans rfl hM
  have k1 : Nat.land 0x40000 M = _ := sub_trans rfl hM
  repeat' (first | with_reducible assumption | with_reducible apply giveReply_fr k0 | with_reducible apply State.setObj_fr k1 | with_reducible apply foldl_fr | with_reducible apply foldl_fr_fst | (intro _ _ _))

theorem tellFar_fr {z : State} {M : Nat} (hM : Nat.land 0x40000000000000 M = 0x40000000000000) (s : State) (o : SyncObj) (op : SyncOp) (operand : Nat) (hs : s.hide M = z.hide M) :
    (tellFar s o op operand).hide M = z.hide M := by
  unfold tellFar
  have k0 : Nat.land 0x40000000000000 M = _ := sub_trans rfl hM
  repeat' (first | with_reducible assumption | with_reducible apply State.send_fr k0 | with_reducible apply foldl_fr | with_reducible apply foldl_fr_fst | (intro _ _ _) | split)

theorem lowWaterAt_fr {z : State} {M : Nat} (hM : Nat.land 0x40000080040240 M = 0x40000080040240) (s : State) (n before after : Nat) (hs : s.hide M = z.hide M) :
    (lowWaterAt s n before after).hide M = z.hide M := by
  unfold lowWaterAt
  have k0 : Nat.land 0x40 M = _ := sub_trans rfl hM
  have k1 : Nat.land 0x80000000 M = _ := sub_trans rfl hM
  have k2 : Nat.land 0x40200 M = _ := sub_trans rfl hM
  have k3 : Nat.land 0x40000000000000 M = _ := sub_trans rfl hM
  repeat' (first | with_reducible assumption | with_reducible apply State.odAdd_fr k0 | with_reducible apply State.updStream_fr k1 | with_reducible apply settleObj_fr k2 | with_reducible apply tellFar_fr k3 | with_reducible apply foldl_fr | with_reducible apply foldl_fr_fst | (intro _ _ _) | split | dsimp only)

theorem lowWater_fr {z : State} {M : Nat} (hM : Nat.land 0x40000080040240 M = 0x40000080040240) (s : State) (i before : Nat) (hs : s.hide M = z.hide M) :
    (lowWater s i before).hide M = z.hide M := by
  unfold lowWater
  have k0 : Nat.land 0x40000080040240 M = _ := sub_trans rfl hM
  repeat' (first | with_reducible assumption | with_reducible apply lowWaterAt_fr k0 | with_reducible apply foldl_fr | with_reducible apply foldl_fr_fst | (intro _ _ _))

theorem syncChange_fr {z : State} {M : Nat} (hM : Nat.land 0x40000080040240 M = 0x40000080040240) (s : State) (i : Nat) (op : SyncOp) (operand : Nat) (hs : s.hide M = z.hide M) :
    (syncChange s i op operand).hide M = z.hide M := by
  unfold syncChange
  have k0 : Nat.land 0x40000080040240 M = _ := sub_trans rfl hM
  have k1 : Nat.land 0x40200 M = _ := sub_trans rfl hM
  have k2 : Nat.land 0x40000000000000 M = _ := sub_trans rfl hM
  repeat' (first | with_reducible assumption | with_reducible apply lowWater_fr k0 | with_reducible apply settleObj_fr k1 | with_reducible apply tellFar_fr k2 | with_reducible apply foldl_fr | with_reducible apply foldl_fr_fst | (intro _ _ _) | split | dsimp only)

theorem returnUnits_fr {z : State} {M : Nat} (hM : Nat.land 0x40000080040240 M = 0x40000080040240) (s : State) (units : List Nat) (hs : s.hide M = z.hide M) :
    (returnUnits s units).hide M = z.hide M := by
  unfold returnUnits
  have k0 : Nat.land 0x40000080040240 M = _ := sub_trans rfl hM
  repeat' (first | with_reducible assumption | with_reducible apply syncChange_fr k0 | with_reducible apply foldl_fr | with_reducible apply foldl_fr_fst | (intro _ _ _))

theorem dropWaiters_fr {z : State} {M : Nat} (hM : Nat.land 0x40000 M = 0x40000) (s : State) (cell : Nat) (hs : s.hide M = z.hide M) :
    (dropWaiters s cell).hide M = z.hide M := by
  unfold dropWaiters
  have b0 : M.testBit 18 = true := sub_bit hM rfl
  repeat' (first | with_reducible assumption | simp only [State.hide_sync b0])

theorem writeRowStat_fr {z : State} {M : Nat} (hM : Nat.land 0x4010000270 M = 0x4010000270) (s : State) (d : TileD) (i : Nat) (els : List DrainEl) (hs : s.hide M = z.hide M) :
    (writeRowStat s d i els).1.hide M = z.hide M := by
  unfold writeRowStat
  have k0 : Nat.land 0x4010000270 M = _ := sub_trans rfl hM
  repeat' (first | with_reducible assumption | with_reducible apply State.wr_fr k0 | with_reducible apply foldl_fr | with_reducible apply foldl_fr_fst | (intro _ _ _) | split)

theorem storeRuns_fr {z : State} {M : Nat} (hM : Nat.land 0x4010000270 M = 0x4010000270) (s : State) (rs : List (Nat × List (Byte × Bool))) (hs : s.hide M = z.hide M) :
    (storeRuns s rs).hide M = z.hide M := by
  unfold storeRuns
  have k0 : Nat.land 0x4010000270 M = _ := sub_trans rfl hM
  repeat' (first | with_reducible assumption | with_reducible apply State.store_fr k0 | with_reducible apply foldl_fr | with_reducible apply foldl_fr_fst | (intro _ _ _))

theorem storeEls_fr {z : State} {M : Nat} (hM : Nat.land 0x4010000270 M = 0x4010000270) (s : State) (els : List (Nat × List Byte × Bool)) (hs : s.hide M = z.hide M) :
    (storeEls s els).hide M = z.hide M := by
  unfold storeEls
  have k0 : Nat.land 0x4010000270 M = _ := sub_trans rfl hM
  repeat' (first | with_reducible assumption | with_reducible apply storeRuns_fr k0)

theorem reachEls_fr {z : State} {M : Nat} (hM : Nat.land 0x4010000270 M = 0x4010000270) (s : State) (els : List (Nat × List Byte × Bool)) (hs : s.hide M = z.hide M) :
    (reachEls s els).hide M = z.hide M := by
  unfold reachEls
  have k0 : Nat.land 0x4000000030 M = _ := sub_trans rfl hM
  have k1 : Nat.land 0x4010000270 M = _ := sub_trans rfl hM
  repeat' (first | with_reducible assumption | with_reducible apply sliceStores_fr k0 | with_reducible apply storeEls_fr k1)

theorem upEls_fr {z : State} {M : Nat} (hM : Nat.land 0x4010000270 M = 0x4010000270) (s : State) (els : List (Nat × List Byte × Bool)) (hs : s.hide M = z.hide M) :
    (upEls s els).hide M = z.hide M := by
  unfold upEls
  have k0 : Nat.land 0x4010000270 M = _ := sub_trans rfl hM
  repeat' (first | with_reducible assumption | with_reducible apply reachEls_fr k0)

theorem writeRow_fr {z : State} {M : Nat} (hM : Nat.land 0x4010000270 M = 0x4010000270) (s : State) (f : Fmt) (ctl : Numctl) (seed : Nat) (addr : Nat → Nat) (blk : Nat → Nat × Nat) (vals : List (Val × Nat × Bool)) (hs : s.hide M = z.hide M) :
    (writeRow s f ctl seed addr blk vals).1.hide M = z.hide M := by
  unfold writeRow
  have k0 : Nat.land 0x4010000270 M = _ := sub_trans rfl hM
  repeat' (first | with_reducible assumption | with_reducible apply storeEls_fr k0 | with_reducible apply foldl_fr | with_reducible apply foldl_fr_fst | (intro _ _ _) | split)

theorem writeImageRow_fr {z : State} {M : Nat} (hM : Nat.land 0x4010000270 M = 0x4010000270) (s : State) (d : TileD) (i : Nat) (es : List AccEntry) (hs : s.hide M = z.hide M) :
    (writeImageRow s d i es).hide M = z.hide M := by
  unfold writeImageRow
  have k0 : Nat.land 0x4010000270 M = _ := sub_trans rfl hM
  repeat' (first | with_reducible assumption | with_reducible apply storeEls_fr k0)

theorem drainRow_fr {z : State} {M : Nat} (hM : Nat.land 0x4010000270 M = 0x4010000270) (d : TileD) (a : State × Flags) (i : Nat) (es : List AccEntry) (h : a.1.hide M = z.hide M) :
    (drainRow d a i es).1.hide M = z.hide M := by
  unfold drainRow
  split
  · exact writeImageRow_fr (sub_trans rfl hM) _ _ _ _ h
  · exact writeRow_fr (sub_trans rfl hM) _ _ _ _ _ _ _ (writeRowStat_fr (sub_trans rfl hM) _ _ _ _ h)

theorem drainTile_fr {z : State} {M : Nat} (hM : Nat.land 0x4010000270 M = 0x4010000270) (s : State) (d : TileD) (es : List AccEntry) (h : s.hide M = z.hide M) :
    (drainTile s d es).1.hide M = z.hide M :=
  foldl_fr_fst h fun _ _ ht => drainRow_fr (sub_trans rfl hM) _ _ _ _ ht

theorem flushHeld_fr {z : State} {M : Nat} (hM : Nat.land 0x4010100270 M = 0x4010100270) (s : State) (n k : Nat) (h : s.hide M = z.hide M) : (flushHeld s n k).hide M = z.hide M := by
  induction k generalizing s with
  | zero => exact h
  | succ k ih =>
    simp only [flushHeld]
    split
    · exact h
    · split
      · exact h
      · exact ih _ (State.setRing_fr (sub_trans rfl hM) _ _ _ (State.wr_fr (sub_trans rfl hM) _ _ _ _ _ h))

theorem flushRing_fr {z : State} {M : Nat} (hM : Nat.land 0x4010100270 M = 0x4010100270) (s : State) (n : Nat) (hs : s.hide M = z.hide M) :
    (flushRing s n).hide M = z.hide M := by
  unfold flushRing
  have k0 : Nat.land 0x4010100270 M = _ := sub_trans rfl hM
  repeat' (first | with_reducible assumption | with_reducible apply flushHeld_fr k0)

theorem postRecord_fr {z : State} {M : Nat} (hM : Nat.land 0x4010100270 M = 0x4010100270) (s : State) (n serial word : Nat) (hs : s.hide M = z.hide M) :
    (postRecord s n serial word).hide M = z.hide M := by
  unfold postRecord
  have k0 : Nat.land 0x4010100270 M = _ := sub_trans rfl hM
  have k1 : Nat.land 0x100000 M = _ := sub_trans rfl hM
  repeat' (first | with_reducible assumption | with_reducible apply flushRing_fr k0 | with_reducible apply State.setRing_fr k1 | with_reducible apply foldl_fr | with_reducible apply foldl_fr_fst | (intro _ _ _) | split | dsimp only)

theorem countRefused_fr {z : State} {M : Nat} (hM : Nat.land 0x40 M = 0x40) (s : State) (status : Nat) (hs : s.hide M = z.hide M) :
    (countRefused s status).hide M = z.hide M := by
  unfold countRefused
  have k0 : Nat.land 0x40 M = _ := sub_trans rfl hM
  repeat' (first | with_reducible assumption | with_reducible apply State.odAdd_fr k0 | with_reducible apply foldl_fr | with_reducible apply foldl_fr_fst | (intro _ _ _) | split)

theorem complete_fr {z : State} {M : Nat} (hM : Nat.land 0x4010380270 M = 0x4010380270) (s : State) (id status : Nat) (d : Details) (hs : s.hide M = z.hide M) :
    (complete s id status d).hide M = z.hide M := by
  unfold complete
  have k0 : Nat.land 0x40 M = _ := sub_trans rfl hM
  have k1 : Nat.land 0x4010100270 M = _ := sub_trans rfl hM
  have k2 : Nat.land 0x80000 M = _ := sub_trans rfl hM
  have b3 : M.testBit 21 = true := sub_bit hM rfl
  repeat' (first | with_reducible assumption | simp only [State.hide_cmds b3] | with_reducible apply countRefused_fr k0 | with_reducible apply postRecord_fr k1 | with_reducible apply State.updCtx_fr k2 | with_reducible apply foldl_fr | with_reducible apply foldl_fr_fst | (intro _ _ _) | split)

theorem runPieceEnded_fr {z : State} {M : Nat} (hM : Nat.land 0x4010380270 M = 0x4010380270) (s : State) (id pieceId status : Nat) (hs : s.hide M = z.hide M) :
    (runPieceEnded s id pieceId status).hide M = z.hide M := by
  unfold runPieceEnded
  have k0 : Nat.land 0x4010380270 M = _ := sub_trans rfl hM
  have k1 : Nat.land 0x200000 M = _ := sub_trans rfl hM
  repeat' (first | with_reducible assumption | with_reducible apply complete_fr k0 | with_reducible apply State.updCmd_fr k1 | with_reducible apply foldl_fr | with_reducible apply foldl_fr_fst | (intro _ _ _) | split | dsimp only)

theorem gridCheck_fr {z : State} {M : Nat} (hM : Nat.land 0x4010380270 M = 0x4010380270) (s : State) (id objIdx : Nat) (hs : s.hide M = z.hide M) :
    (gridCheck s id objIdx).hide M = z.hide M := by
  unfold gridCheck
  have k0 : Nat.land 0x4010380270 M = _ := sub_trans rfl hM
  repeat' (first | with_reducible assumption | with_reducible apply complete_fr k0 | with_reducible apply foldl_fr | with_reducible apply foldl_fr_fst | (intro _ _ _) | split | dsimp only)

theorem gridsCheck_fr {z : State} {M : Nat} (hM : Nat.land 0x4010380270 M = 0x4010380270) (s : State) (i : Nat) (f : Cmd → Cmd) (hs : s.hide M = z.hide M) :
    (gridsCheck s i f).hide M = z.hide M := by
  unfold gridsCheck
  have k0 : Nat.land 0x4010380270 M = _ := sub_trans rfl hM
  have k1 : Nat.land 0x200000 M = _ := sub_trans rfl hM
  repeat' (first | with_reducible assumption | with_reducible apply gridCheck_fr k0 | with_reducible apply State.updCmd_fr k1 | with_reducible apply foldl_fr | with_reducible apply foldl_fr_fst | (intro _ _ _))

theorem sideSettle_fr {z : State} {M : Nat} (hM : Nat.land 0x20000 M = 0x20000) (s : State) (c seq : Nat) (commit : Option Nat) (hs : s.hide M = z.hide M) :
    (sideSettle s c seq commit).hide M = z.hide M := by
  unfold sideSettle
  have b0 : M.testBit 17 = true := sub_bit hM rfl
  repeat' (first | with_reducible assumption | simp only [State.hide_side b0])

theorem leaveCell_fr {z : State} {M : Nat} (hM : Nat.land 0x40200 M = 0x40200) (s : State) (c : Nat) (p : Piece) (hs : s.hide M = z.hide M) :
    (leaveCell s c p).hide M = z.hide M := by
  unfold leaveCell
  have k0 : Nat.land 0x40000 M = _ := sub_trans rfl hM
  have k1 : Nat.land 0x200 M = _ := sub_trans rfl hM
  repeat' (first | with_reducible assumption | with_reducible apply dropWaiters_fr k0 | with_reducible apply State.updCell_fr k1)

theorem abandon_fr {z : State} {M : Nat} (hM : Nat.land 0x40000080060240 M = 0x40000080060240) (s : State) (c : Nat) (p : Piece) (hs : s.hide M = z.hide M) :
    (abandon s c p).hide M = z.hide M := by
  unfold abandon
  have k0 : Nat.land 0x40200 M = _ := sub_trans rfl hM
  have k1 : Nat.land 0x40000080040240 M = _ := sub_trans rfl hM
  have k2 : Nat.land 0x20000 M = _ := sub_trans rfl hM
  repeat' (first | with_reducible assumption | with_reducible apply leaveCell_fr k0 | with_reducible apply returnUnits_fr k1 | with_reducible apply sideSettle_fr k2)

theorem failTile_fr {z : State} {M : Nat} (hM : Nat.land 0x40103c0270 M = 0x40103c0270) (s : State) (cmd : Nat) (l : LeaseRef) (status : Nat) (hs : s.hide M = z.hide M) :
    (failTile s cmd l status).hide M = z.hide M := by
  unfold failTile
  have k0 : Nat.land 0x4010380270 M = _ := sub_trans rfl hM
  have k1 : Nat.land 0x40000 M = _ := sub_trans rfl hM
  have k2 : Nat.land 0x200000 M = _ := sub_trans rfl hM
  repeat' (first | with_reducible assumption | with_reducible apply gridsCheck_fr k0 | with_reducible apply State.setObj_fr k1 | with_reducible apply State.updCmd_fr k2)

theorem endWith_fr {z : State} {M : Nat} (hM : Nat.land 0x40103c0270 M = 0x40103c0270) (s : State) (cmd desc : Nat) (lease : Option LeaseRef) (status : Nat) (hs : s.hide M = z.hide M) :
    (endWith s cmd desc lease status).hide M = z.hide M := by
  unfold endWith
  have k0 : Nat.land 0x40103c0270 M = _ := sub_trans rfl hM
  have k1 : Nat.land 0x4010380270 M = _ := sub_trans rfl hM
  repeat' (first | with_reducible assumption | with_reducible apply failTile_fr k0 | with_reducible apply runPieceEnded_fr k1 | with_reducible apply foldl_fr | with_reducible apply foldl_fr_fst | (intro _ _ _) | split)

theorem failPiece_fr {z : State} {M : Nat} (hM : Nat.land 0x400040903e0270 M = 0x400040903e0270) (s : State) (c : Nat) (p : Piece) (status : Nat) (hs : s.hide M = z.hide M) :
    (failPiece s c p status).hide M = z.hide M := by
  unfold failPiece
  have k0 : Nat.land 0x40000080060240 M = _ := sub_trans rfl hM
  have k1 : Nat.land 0x40103c0270 M = _ := sub_trans rfl hM
  repeat' (first | with_reducible assumption | with_reducible apply abandon_fr k0 | with_reducible apply endWith_fr k1)

theorem stalePiece_fr {z : State} {M : Nat} (hM : Nat.land 0x40000080260240 M = 0x40000080260240) (s : State) (c : Nat) (p : Piece) (hs : s.hide M = z.hide M) :
    (stalePiece s c p).hide M = z.hide M := by
  unfold stalePiece
  have k0 : Nat.land 0x40000080060240 M = _ := sub_trans rfl hM
  have k1 : Nat.land 0x40 M = _ := sub_trans rfl hM
  have k2 : Nat.land 0x200000 M = _ := sub_trans rfl hM
  repeat' (first | with_reducible assumption | with_reducible apply abandon_fr k0 | with_reducible apply State.odAdd_fr k1 | with_reducible apply State.updCmd_fr k2)

theorem requeue_fr {z : State} {M : Nat} (hM : Nat.land 0x80000 M = 0x80000) (s : State) (ctx : Nat) (q : QEntry) (hs : s.hide M = z.hide M) :
    (requeue s ctx q).hide M = z.hide M := by
  unfold requeue
  have k0 : Nat.land 0x80000 M = _ := sub_trans rfl hM
  repeat' (first | with_reducible assumption | with_reducible apply State.updCtx_fr k0)

theorem recallCommit_fr {z : State} {M : Nat} (hM : Nat.land 0x200 M = 0x200) (s : State) (c : Nat) (p : Piece) (hs : s.hide M = z.hide M) :
    (recallCommit s c p).hide M = z.hide M := by
  unfold recallCommit
  have k0 : Nat.land 0x200 M = _ := sub_trans rfl hM
  repeat' (first | with_reducible assumption | with_reducible apply State.updCell_fr k0 | with_reducible apply foldl_fr | with_reducible apply foldl_fr_fst | (intro _ _ _) | split)

theorem overrunPiece_fr {z : State} {M : Nat} (hM : Nat.land 0x400000802e0a40 M = 0x400000802e0a40) (s : State) (c : Nat) (p : Piece) (hs : s.hide M = z.hide M) :
    (overrunPiece s c p).hide M = z.hide M := by
  unfold overrunPiece
  have k0 : Nat.land 0x40000080060240 M = _ := sub_trans rfl hM
  have k1 : Nat.land 0x40 M = _ := sub_trans rfl hM
  have k2 : Nat.land 0x200 M = _ := sub_trans rfl hM
  have k3 : Nat.land 0x80000 M = _ := sub_trans rfl hM
  have k4 : Nat.land 0x800 M = _ := sub_trans rfl hM
  have k5 : Nat.land 0x200000 M = _ := sub_trans rfl hM
  have k6 : Nat.land 0x40000080260240 M = _ := sub_trans rfl hM
  have k7 : Nat.land 0x80000 M = _ := sub_trans rfl hM
  repeat' (first | with_reducible assumption | with_reducible apply abandon_fr k0 | with_reducible apply State.odAdd_fr k1 | with_reducible apply recallCommit_fr k2 | with_reducible apply requeue_fr k3 | with_reducible apply State.cellAdd_fr k4 | with_reducible apply State.updCmd_fr k5 | with_reducible apply stalePiece_fr k6 | with_reducible apply State.updCtx_fr k7 | with_reducible apply foldl_fr | with_reducible apply foldl_fr_fst | (intro _ _ _) | split)

theorem fetchMore_fr {z : State} {M : Nat} (hM : Nat.land 0x200 M = 0x200) (s : State) (c : Nat) (hs : s.hide M = z.hide M) :
    (fetchMore s c).hide M = z.hide M := by
  unfold fetchMore
  have k0 : Nat.land 0x200 M = _ := sub_trans rfl hM
  repeat' (first | with_reducible assumption | with_reducible apply State.updPiece_fr k0)

theorem place_fr {z : State} {M : Nat} (hM : Nat.land 0x240204 M = 0x240204) (s : State) (c cmd no d : Nat) (lease : Option LeaseRef) (x : Ctx) (hs : s.hide M = z.hide M) :
    (place s c cmd no d lease x).hide M = z.hide M := by
  unfold place
  have k0 : Nat.land 0x4 M = _ := sub_trans rfl hM
  have k1 : Nat.land 0x40000 M = _ := sub_trans rfl hM
  have k2 : Nat.land 0x200 M = _ := sub_trans rfl hM
  have k3 : Nat.land 0x200000 M = _ := sub_trans rfl hM
  repeat' (first | with_reducible assumption | with_reducible apply State.fresh_fr k0 | with_reducible apply State.setObj_fr k1 | with_reducible apply State.updCell_fr k2 | with_reducible apply State.updCmd_fr k3 | with_reducible apply foldl_fr | with_reducible apply foldl_fr_fst | (intro _ _ _) | split)

theorem startOrFail_fr {z : State} {M : Nat} (hM : Nat.land 0x40103c0274 M = 0x40103c0274) (s : State) (c cmd no d : Nat) (lease : Option LeaseRef) (ctx : Nat) (x : Ctx) (hs : s.hide M = z.hide M) :
    (startOrFail s c cmd no d lease ctx x).hide M = z.hide M := by
  unfold startOrFail
  have k0 : Nat.land 0x40103c0270 M = _ := sub_trans rfl hM
  have k1 : Nat.land 0x240204 M = _ := sub_trans rfl hM
  have k2 : Nat.land 0x200 M = _ := sub_trans rfl hM
  repeat' (first | with_reducible assumption | with_reducible apply endWith_fr k0 | with_reducible apply place_fr k1 | with_reducible apply State.updCell_fr k2 | with_reducible apply foldl_fr | with_reducible apply foldl_fr_fst | (intro _ _ _) | split)

theorem placeUpdate_fr {z : State} {M : Nat} (hM : Nat.land 0x204 M = 0x204) (s : State) (c cmd shard first n budget ctx : Nat) (x : Ctx) (hs : s.hide M = z.hide M) :
    (placeUpdate s c cmd shard first n budget ctx x).hide M = z.hide M := by
  unfold placeUpdate
  have k0 : Nat.land 0x4 M = _ := sub_trans rfl hM
  have k1 : Nat.land 0x200 M = _ := sub_trans rfl hM
  repeat' (first | with_reducible assumption | with_reducible apply State.fresh_fr k0 | with_reducible apply State.updCell_fr k1 | with_reducible apply foldl_fr | with_reducible apply foldl_fr_fst | (intro _ _ _) | split)

theorem updateEnded_fr {z : State} {M : Nat} (hM : Nat.land 0x80000 M = 0x80000) (s : State) (ctx : Nat) (u : Nat × Nat × Nat) (status : Nat) (hs : s.hide M = z.hide M) :
    (updateEnded s ctx u status).hide M = z.hide M := by
  unfold updateEnded
  have k0 : Nat.land 0x80000 M = _ := sub_trans rfl hM
  repeat' (first | with_reducible assumption | with_reducible apply State.updCtx_fr k0)

theorem takePiece_fr {z : State} {M : Nat} (hM : Nat.land 0x40103c0274 M = 0x40103c0274) (s : State) (c x : Nat) (hs : s.hide M = z.hide M) :
    (takePiece s c x).hide M = z.hide M := by
  unfold takePiece
  have k0 : Nat.land 0x204 M = _ := sub_trans rfl hM
  have k1 : Nat.land 0x80000 M = _ := sub_trans rfl hM
  have k2 : Nat.land 0x40103c0274 M = _ := sub_trans rfl hM
  repeat' (first | with_reducible assumption | with_reducible apply placeUpdate_fr k0 | with_reducible apply State.setCtx_fr k1 | with_reducible apply startOrFail_fr k2 | with_reducible apply foldl_fr | with_reducible apply foldl_fr_fst | (intro _ _ _) | split)

theorem pieceStart_fr {z : State} {M : Nat} (hM : Nat.land 0x40103c027c M = 0x40103c027c) (s : State) (c x : Nat) (hs : s.hide M = z.hide M) :
    (pieceStart s c x).hide M = z.hide M := by
  unfold pieceStart
  have k0 : Nat.land 0x40103c0274 M = _ := sub_trans rfl hM
  have b1 : M.testBit 3 = true := sub_bit hM rfl
  repeat' (first | with_reducible assumption | simp only [State.hide_offset b1] | with_reducible apply takePiece_fr k0)

theorem tileClaim_fr {z : State} {M : Nat} (hM : Nat.land 0x40200 M = 0x40200) (s : State) (c i : Nat) (hs : s.hide M = z.hide M) :
    (tileClaim s c i).hide M = z.hide M := by
  unfold tileClaim
  have k0 : Nat.land 0x40000 M = _ := sub_trans rfl hM
  have k1 : Nat.land 0x200 M = _ := sub_trans rfl hM
  repeat' (first | with_reducible assumption | with_reducible apply State.setObj_fr k0 | with_reducible apply State.updCell_fr k1 | with_reducible apply foldl_fr | with_reducible apply foldl_fr_fst | (intro _ _ _) | split | dsimp only)

theorem updRecall_fr {z : State} {M : Nat} (hM : Nat.land 0x200 M = 0x200) (s : State) (c : Nat) (is : LeaseRef × CommitPhase → Bool) (f : LeaseRef × CommitPhase → LeaseRef × CommitPhase) (hs : s.hide M = z.hide M) :
    (updRecall s c is f).hide M = z.hide M := by
  unfold updRecall
  have k0 : Nat.land 0x200 M = _ := sub_trans rfl hM
  repeat' (first | with_reducible assumption | with_reducible apply State.updCell_fr k0)

theorem tileCommit_fr {z : State} {M : Nat} (hM : Nat.land 0x40000000040200 M = 0x40000000040200) (s : State) (c : Nat) (hs : s.hide M = z.hide M) :
    (tileCommit s c).hide M = z.hide M := by
  unfold tileCommit
  have k0 : Nat.land 0x40000 M = _ := sub_trans rfl hM
  have k1 : Nat.land 0x40000000000000 M = _ := sub_trans rfl hM
  have k2 : Nat.land 0x200 M = _ := sub_trans rfl hM
  have k3 : Nat.land 0x200 M = _ := sub_trans rfl hM
  repeat' (first | with_reducible assumption | with_reducible apply State.setObj_fr k0 | exact State.takeMsg_fr (sub_trans rfl hM) (by assumption) (by assumption) | with_reducible apply State.takeMsg_getD_fr k1 | with_reducible apply State.updPiece_fr k2 | with_reducible apply updRecall_fr k3 | with_reducible apply foldl_fr | with_reducible apply foldl_fr_fst | (intro _ _ _) | split | dsimp only)

theorem recallReply_fr {z : State} {M : Nat} (hM : Nat.land 0x40000000000200 M = 0x40000000000200) (s : State) (c : Nat) (hs : s.hide M = z.hide M) :
    (recallReply s c).hide M = z.hide M := by
  unfold recallReply
  have k0 : Nat.land 0x40000000000000 M = _ := sub_trans rfl hM
  have k1 : Nat.land 0x200 M = _ := sub_trans rfl hM
  repeat' (first | with_reducible assumption | with_reducible apply State.send_fr k0 | with_reducible apply State.updCell_fr k1 | with_reducible apply foldl_fr | with_reducible apply foldl_fr_fst | (intro _ _ _) | split)

theorem tileCommitReply_fr {z : State} {M : Nat} (hM : Nat.land 0x40000080260240 M = 0x40000080260240) (s : State) (c : Nat) (hs : s.hide M = z.hide M) :
    (tileCommitReply s c).hide M = z.hide M := by
  unfold tileCommitReply
  have k0 : Nat.land 0x40000000000200 M = _ := sub_trans rfl hM
  have k1 : Nat.land 0x200 M = _ := sub_trans rfl hM
  have k2 : Nat.land 0x40000080260240 M = _ := sub_trans rfl hM
  repeat' (first | with_reducible assumption | with_reducible apply recallReply_fr k0 | with_reducible apply State.updPiece_fr k1 | with_reducible apply stalePiece_fr k2 | with_reducible apply foldl_fr | with_reducible apply foldl_fr_fst | (intro _ _ _) | split)

theorem tileDone_fr {z : State} {M : Nat} (hM : Nat.land 0x400040103c0270 M = 0x400040103c0270) (s : State) (l : LeaseRef) (hs : s.hide M = z.hide M) :
    (tileDone s l).hide M = z.hide M := by
  unfold tileDone
  have k0 : Nat.land 0x4010380270 M = _ := sub_trans rfl hM
  have k1 : Nat.land 0x40000 M = _ := sub_trans rfl hM
  have k2 : Nat.land 0x40000000000000 M = _ := sub_trans rfl hM
  repeat' (first | with_reducible assumption | with_reducible apply gridsCheck_fr k0 | with_reducible apply State.setObj_fr k1 | exact State.takeMsg_fr (sub_trans rfl hM) (by assumption) (by assumption) | with_reducible apply State.takeMsg_getD_fr k2 | with_reducible apply foldl_fr | with_reducible apply foldl_fr_fst | (intro _ _ _) | split)

theorem tileRevert_fr {z : State} {M : Nat} (hM : Nat.land 0x40000000040000 M = 0x40000000040000) (s : State) (l : LeaseRef) (hs : s.hide M = z.hide M) :
    (tileRevert s l).hide M = z.hide M := by
  unfold tileRevert
  have k0 : Nat.land 0x40000 M = _ := sub_trans rfl hM
  have k1 : Nat.land 0x40000000000000 M = _ := sub_trans rfl hM
  repeat' (first | with_reducible assumption | with_reducible apply State.setObj_fr k0 | exact State.takeMsg_fr (sub_trans rfl hM) (by assumption) (by assumption) | with_reducible apply State.takeMsg_getD_fr k1 | with_reducible apply foldl_fr | with_reducible apply foldl_fr_fst | (intro _ _ _) | split)

theorem staleCommits_fr {z : State} {M : Nat} (hM : Nat.land 0x40000000000200 M = 0x40000000000200) (s : State) (l : LeaseRef) (hs : s.hide M = z.hide M) :
    (staleCommits s l).hide M = z.hide M := by
  unfold staleCommits
  have k0 : Nat.land 0x200 M = _ := sub_trans rfl hM
  have b1 : M.testBit 54 = true := sub_bit hM rfl
  repeat' (first | with_reducible assumption | simp only [State.hide_outbox b1] | with_reducible apply State.updCell_fr k0 | with_reducible fail | with_reducible apply foldl_fr | with_reducible apply foldl_fr_fst | (intro _ _ _))

theorem endHolders_fr {z : State} {M : Nat} (hM : Nat.land 0x400000802e0240 M = 0x400000802e0240) (s : State) (l : LeaseRef) (hs : s.hide M = z.hide M) :
    (endHolders s l).hide M = z.hide M := by
  unfold endHolders
  have k0 : Nat.land 0x40 M = _ := sub_trans rfl hM
  have k1 : Nat.land 0x200 M = _ := sub_trans rfl hM
  have k2 : Nat.land 0x80000 M = _ := sub_trans rfl hM
  have k3 : Nat.land 0x40000000000200 M = _ := sub_trans rfl hM
  have k4 : Nat.land 0x40000080260240 M = _ := sub_trans rfl hM
  have k5 : Nat.land 0x200000 M = _ := sub_trans rfl hM
  repeat' (first | with_reducible assumption | with_reducible apply State.odAdd_fr k0 | with_reducible apply State.updCell_fr k1 | with_reducible apply State.updCtx_fr k2 | with_reducible apply staleCommits_fr k3 | with_reducible apply stalePiece_fr k4 | with_reducible apply State.updCmd_fr k5 | with_reducible apply foldl_fr | with_reducible apply foldl_fr_fst | (intro _ _ _) | split | dsimp only)

theorem settleHeld_fr {z : State} {M : Nat} (hM : Nat.land 0x40000 M = 0x40000) (s : State) (hs : s.hide M = z.hide M) :
    (settleHeld s).hide M = z.hide M := by
  unfold settleHeld
  have b0 : M.testBit 18 = true := sub_bit hM rfl
  repeat' (first | with_reducible assumption | simp only [State.hide_sync b0])

theorem releaseLease_fr {z : State} {M : Nat} (hM : Nat.land 0x400040903e0270 M = 0x400040903e0270) (s : State) (l : LeaseRef) (hs : s.hide M = z.hide M) :
    (releaseLease s l).hide M = z.hide M := by
  unfold releaseLease
  have k0 : Nat.land 0x400000802e0240 M = _ := sub_trans rfl hM
  have k1 : Nat.land 0x4010380270 M = _ := sub_trans rfl hM
  have k2 : Nat.land 0x40 M = _ := sub_trans rfl hM
  have k3 : Nat.land 0x40000 M = _ := sub_trans rfl hM
  repeat' (first | with_reducible assumption | with_reducible apply endHolders_fr k0 | with_reducible apply gridsCheck_fr k1 | with_reducible apply State.odAdd_fr k2 | with_reducible apply State.setObj_fr k3 | with_reducible apply foldl_fr | with_reducible apply foldl_fr_fst | (intro _ _ _) | split | dsimp only)

theorem leaseTimeout_fr {z : State} {M : Nat} (hM : Nat.land 0x400040903e0270 M = 0x400040903e0270) (s : State) (i idx : Nat) (hs : s.hide M = z.hide M) :
    (leaseTimeout s i idx).hide M = z.hide M := by
  unfold leaseTimeout
  have k0 : Nat.land 0x400040903e0270 M = _ := sub_trans rfl hM
  repeat' (first | with_reducible assumption | with_reducible apply releaseLease_fr k0 | with_reducible apply foldl_fr | with_reducible apply foldl_fr_fst | (intro _ _ _) | split)

theorem gridDescriptor_fr {z : State} {M : Nat} (hM : Nat.land 0x400040903e0270 M = 0x400040903e0270) (s : State) (c : Nat) (hs : s.hide M = z.hide M) :
    (gridDescriptor s c).hide M = z.hide M := by
  unfold gridDescriptor
  have k0 : Nat.land 0x400040903e0270 M = _ := sub_trans rfl hM
  have k1 : Nat.land 0x200 M = _ := sub_trans rfl hM
  have k2 : Nat.land 0x200 M = _ := sub_trans rfl hM
  repeat' (first | with_reducible assumption | with_reducible apply failPiece_fr k0 | with_reducible apply fetchMore_fr k1 | with_reducible apply State.updPiece_fr k2 | with_reducible apply foldl_fr | with_reducible apply foldl_fr_fst | (intro _ _ _) | split | dsimp only)

theorem handOut_fr {z : State} {M : Nat} (hM : Nat.land 0x400040903e0270 M = 0x400040903e0270) (s : State) (c : Nat) (hs : s.hide M = z.hide M) :
    (handOut s c).hide M = z.hide M := by
  unfold handOut
  have k0 : Nat.land 0x400040903e0270 M = _ := sub_trans rfl hM
  have k1 : Nat.land 0x200 M = _ := sub_trans rfl hM
  repeat' (first | with_reducible assumption | with_reducible apply failPiece_fr k0 | with_reducible apply State.updPiece_fr k1 | with_reducible apply foldl_fr | with_reducible apply foldl_fr_fst | (intro _ _ _) | split)

theorem finishCheck_fr {z : State} {M : Nat} (hM : Nat.land 0x400040903e0270 M = 0x400040903e0270) (s : State) (c : Nat) (hs : s.hide M = z.hide M) :
    (finishCheck s c).hide M = z.hide M := by
  unfold finishCheck
  have k0 : Nat.land 0x400040903e0270 M = _ := sub_trans rfl hM
  have k1 : Nat.land 0x40000000000000 M = _ := sub_trans rfl hM
  have k2 : Nat.land 0x40000000040200 M = _ := sub_trans rfl hM
  have k3 : Nat.land 0x200 M = _ := sub_trans rfl hM
  repeat' (first | with_reducible assumption | with_reducible apply failPiece_fr k0 | with_reducible apply State.send_fr k1 | with_reducible apply tileCommit_fr k2 | with_reducible apply State.updPiece_fr k3 | with_reducible apply foldl_fr | with_reducible apply foldl_fr_fst | (intro _ _ _) | split)

theorem weltAdd_fr {z : State} {M : Nat} (hM : Nat.land 0x10000 M = 0x10000) (s : State) (c : Nat) (a : WeltAdd) (hs : s.hide M = z.hide M) :
    (weltAdd s c a).1.hide M = z.hide M := by
  unfold weltAdd
  have b0 : M.testBit 16 = true := sub_bit hM rfl
  repeat' (first | with_reducible assumption | simp only [State.hide_welt b0] | with_reducible apply foldl_fr | with_reducible apply foldl_fr_fst | (intro _ _ _) | split)

theorem addStored_fr {z : State} {M : Nat} (hM : Nat.land 0x4010000270 M = 0x4010000270) (s : State) (a : Nat) (v : Lined) (bad : Bool) (hs : s.hide M = z.hide M) :
    (addStored s a v bad).1.hide M = z.hide M := by
  unfold addStored
  have k0 : Nat.land 0x4010000270 M = _ := sub_trans rfl hM
  repeat' (first | with_reducible assumption | with_reducible apply State.store_fr k0)

theorem addNorm_fr {z : State} {M : Nat} (hM : Nat.land 0x4010000270 M = 0x4010000270) (s : State) (x : Ctx) (cluster : Nat) (n : NormAdd) (hs : s.hide M = z.hide M) :
    (addNorm s x cluster n).1.hide M = z.hide M := by
  unfold addNorm
  have k0 : Nat.land 0x4010000270 M = _ := sub_trans rfl hM
  repeat' (first | with_reducible assumption | with_reducible apply addStored_fr k0)

theorem release_fr {z : State} {M : Nat} (hM : Nat.land 0x400040900f1270 M = 0x400040900f1270) (s : State) (c : Nat) (p : Piece) (hs : s.hide M = z.hide M) :
    (release s c p).hide M = z.hide M := by
  unfold release
  have k0 : Nat.land 0x4010000270 M = _ := sub_trans rfl hM
  have k1 : Nat.land 0x1000 M = _ := sub_trans rfl hM
  have k2 : Nat.land 0x80000 M = _ := sub_trans rfl hM
  have k3 : Nat.land 0x20000 M = _ := sub_trans rfl hM
  have k4 : Nat.land 0x40000080040240 M = _ := sub_trans rfl hM
  have k5 : Nat.land 0x10000 M = _ := sub_trans rfl hM
  repeat' (first | with_reducible assumption | with_reducible apply addNorm_fr k0 | with_reducible apply State.orCellFlags_fr k1 | with_reducible apply State.updCtx_fr k2 | with_reducible apply sideSettle_fr k3 | with_reducible apply syncChange_fr k4 | with_reducible apply weltAdd_fr k5 | with_reducible apply foldl_fr | with_reducible apply foldl_fr_fst | (intro _ _ _) | split)

theorem freeSpans_fr {z : State} {M : Nat} (hM : Nat.land 0x200 M = 0x200) (s : State) (c seq : Nat) (hs : s.hide M = z.hide M) :
    (freeSpans s c seq).hide M = z.hide M := by
  unfold freeSpans
  have k0 : Nat.land 0x200 M = _ := sub_trans rfl hM
  repeat' (first | with_reducible assumption | with_reducible apply State.updCell_fr k0)

theorem commitPiece_fr {z : State} {M : Nat} (hM : Nat.land 0x400040903f1270 M = 0x400040903f1270) (s : State) (c : Nat) (p : Piece) (hs : s.hide M = z.hide M) :
    (commitPiece s c p).hide M = z.hide M := by
  unfold commitPiece
  have k0 : Nat.land 0x40000 M = _ := sub_trans rfl hM
  have k1 : Nat.land 0x200 M = _ := sub_trans rfl hM
  have k2 : Nat.land 0x400040900f1270 M = _ := sub_trans rfl hM
  have k3 : Nat.land 0x4010380270 M = _ := sub_trans rfl hM
  have k4 : Nat.land 0x200000 M = _ := sub_trans rfl hM
  have k5 : Nat.land 0x80000 M = _ := sub_trans rfl hM
  have k6 : Nat.land 0x40000000000000 M = _ := sub_trans rfl hM
  have k7 : Nat.land 0x400040103c0270 M = _ := sub_trans rfl hM
  have k8 : Nat.land 0x200 M = _ := sub_trans rfl hM
  have k9 : Nat.land 0x80000 M = _ := sub_trans rfl hM
  repeat' (first | with_reducible assumption | with_reducible apply dropWaiters_fr k0 | with_reducible apply freeSpans_fr k1 | with_reducible apply release_fr k2 | with_reducible apply runPieceEnded_fr k3 | with_reducible apply State.updCmd_fr k4 | with_reducible apply State.updCtx_fr k5 | with_reducible apply State.send_fr k6 | with_reducible apply tileDone_fr k7 | with_reducible apply State.updCell_fr k8 | with_reducible apply updateEnded_fr k9 | with_reducible apply foldl_fr | with_reducible apply foldl_fr_fst | (intro _ _ _) | split)

theorem updItem_fr {z : State} {M : Nat} (hM : Nat.land 0x200 M = 0x200) (s : State) (c slot : Nat) (f : Item → Item) (hs : s.hide M = z.hide M) :
    (updItem s c slot f).hide M = z.hide M := by
  unfold updItem
  have k0 : Nat.land 0x200 M = _ := sub_trans rfl hM
  repeat' (first | with_reducible assumption | with_reducible apply State.updPiece_fr k0)

theorem itemDone_fr {z : State} {M : Nat} (hM : Nat.land 0x200 M = 0x200) (s : State) (c slot : Nat) (hs : s.hide M = z.hide M) :
    (itemDone s c slot).hide M = z.hide M := by
  unfold itemDone
  have k0 : Nat.land 0x200 M = _ := sub_trans rfl hM
  repeat' (first | with_reducible assumption | with_reducible apply updItem_fr k0)

theorem runUnit_fr {z : State} {M : Nat} (hM : Nat.land 0x200 M = 0x200) (s : State) (c : Nat) (u : CellUnit) (is : Nat → Bool) (work : State → Piece → Item → State × Flags)
    (h : s.hide M = z.hide M) (k : ∀ p i, (work s p i).1.hide M = z.hide M) : (runUnit s c u is work).hide M = z.hide M := by
  unfold runUnit
  split
  · exact h
  · split
    · exact h
    · split
      · exact itemDone_fr (sub_trans rfl hM) _ _ _ (State.stageFlags_fr (sub_trans rfl hM) _ _ _ (k _ _))
      · exact h

theorem logEvent_fr {z : State} {M : Nat} (hM : Nat.land 0x40 M = 0x40) (s : State) (e : EventCode) (kind source d0 d1 : Nat) (hs : s.hide M = z.hide M) :
    (logEvent s e kind source d0 d1).hide M = z.hide M := by
  unfold logEvent
  have k0 : Nat.land 0x40 M = _ := sub_trans rfl hM
  have k1 : Nat.land 0x40 M = _ := sub_trans rfl hM
  repeat' (first | with_reducible assumption | with_reducible apply State.odAdd_fr k0 | with_reducible apply State.odSet_fr k1 | with_reducible apply foldl_fr | with_reducible apply foldl_fr_fst | (intro _ _ _) | split)

theorem keepRecord_fr {z : State} {M : Nat} (hM : Nat.land 0x2000000000040 M = 0x2000000000040) (s : State) (f : Fail) (word : Nat) (hs : s.hide M = z.hide M) :
    (keepRecord s f word).hide M = z.hide M := by
  unfold keepRecord
  have k0 : Nat.land 0x40 M = _ := sub_trans rfl hM
  have k1 : Nat.land 0x40 M = _ := sub_trans rfl hM
  have k2 : Nat.land 0x40 M = _ := sub_trans rfl hM
  have b3 : M.testBit 49 = true := sub_bit hM rfl
  repeat' (first | with_reducible assumption | simp only [State.hide_flash b3] | with_reducible apply logEvent_fr k0 | with_reducible apply State.odAdd_fr k1 | with_reducible apply State.odSet_fr k2)

theorem failUnit_fr {z : State} {M : Nat} (hM : Nat.land 0x2000000000000 M = 0x2000000000000) (s : State) (kind unit : Nat) (hs : s.hide M = z.hide M) :
    (failUnit s kind unit).hide M = z.hide M := by
  unfold failUnit
  have b0 : M.testBit 49 = true := sub_bit hM rfl
  repeat' (first | with_reducible assumption | simp only [State.hide_flash b0] | with_reducible apply foldl_fr | with_reducible apply foldl_fr_fst | (intro _ _ _) | split)

theorem useRow_fr {z : State} {M : Nat} (hM : Nat.land 0x2000000000000 M = 0x2000000000000) (s : State) (k : Nat) (hs : s.hide M = z.hide M) :
    (useRow s k).hide M = z.hide M := by
  unfold useRow
  have b0 : M.testBit 49 = true := sub_bit hM rfl
  repeat' (first | with_reducible assumption | simp only [State.hide_flash b0])

theorem useCol_fr {z : State} {M : Nat} (hM : Nat.land 0x2000000000000 M = 0x2000000000000) (s : State) (k : Nat) (hs : s.hide M = z.hide M) :
    (useCol s k).hide M = z.hide M := by
  unfold useCol
  have b0 : M.testBit 49 = true := sub_bit hM rfl
  repeat' (first | with_reducible assumption | simp only [State.hide_flash b0])

theorem useSpareRow_fr {z : State} {M : Nat} (hM : Nat.land 0x2000000000000 M = 0x2000000000000) (s : State) (k : Nat) (hs : s.hide M = z.hide M) :
    (useSpareRow s k).hide M = z.hide M := by
  unfold useSpareRow
  have b0 : M.testBit 49 = true := sub_bit hM rfl
  repeat' (first | with_reducible assumption | simp only [State.hide_flash b0])

theorem usePpr_fr {z : State} {M : Nat} (hM : Nat.land 0x2000000000000 M = 0x2000000000000) (s : State) (bank row : Nat) (hs : s.hide M = z.hide M) :
    (usePpr s bank row).hide M = z.hide M := by
  unfold usePpr
  have b0 : M.testBit 49 = true := sub_bit hM rfl
  repeat' (first | with_reducible assumption | simp only [State.hide_flash b0])

theorem repairRow_fr {z : State} {M : Nat} (hM : Nat.land 0x2000000000000 M = 0x2000000000000) (s : State) (f : Fail) (hs : s.hide M = z.hide M) :
    (repairRow s f).1.hide M = z.hide M := by
  unfold repairRow
  have k0 : Nat.land 0x2000000000000 M = _ := sub_trans rfl hM
  have k1 : Nat.land 0x2000000000000 M = _ := sub_trans rfl hM
  have k2 : Nat.land 0x2000000000000 M = _ := sub_trans rfl hM
  repeat' (first | with_reducible assumption | with_reducible apply failUnit_fr k0 | with_reducible apply usePpr_fr k1 | with_reducible apply useSpareRow_fr k2 | with_reducible apply foldl_fr | with_reducible apply foldl_fr_fst | (intro _ _ _) | split)

theorem repair_fr {z : State} {M : Nat} (hM : Nat.land 0x2000000000000 M = 0x2000000000000) (s : State) (all : List Fail) (f : Fail) (hs : s.hide M = z.hide M) :
    (repair s all f).1.hide M = z.hide M := by
  unfold repair
  have k0 : Nat.land 0x2000000000000 M = _ := sub_trans rfl hM
  have k1 : Nat.land 0x2000000000000 M = _ := sub_trans rfl hM
  have k2 : Nat.land 0x2000000000000 M = _ := sub_trans rfl hM
  have k3 : Nat.land 0x2000000000000 M = _ := sub_trans rfl hM
  repeat' (first | with_reducible assumption | with_reducible apply failUnit_fr k0 | with_reducible apply repairRow_fr k1 | with_reducible apply useCol_fr k2 | with_reducible apply useRow_fr k3 | with_reducible apply foldl_fr | with_reducible apply foldl_fr_fst | (intro _ _ _) | split | dsimp only)

theorem repairNext_fr {z : State} {M : Nat} (hM : Nat.land 0x2000000000000 M = 0x2000000000000) (all : List Fail) (a : State × List (Fail × Nat)) (f : Fail) (h : a.1.hide M = z.hide M) :
    (repairNext all a f).1.hide M = z.hide M := by
  unfold repairNext
  split
  · exact h
  · exact repair_fr (sub_trans rfl hM) _ _ _ h

theorem applyFails_fr {z : State} {M : Nat} (hM : Nat.land 0x2000000000040 M = 0x2000000000040) (s : State) (fs : List Fail) (hs : s.hide M = z.hide M) :
    (applyFails s fs).hide M = z.hide M := by
  unfold applyFails
  have k0 : Nat.land 0x2000000000040 M = _ := sub_trans rfl hM
  have k1 : Nat.land 0x2000000000000 M = _ := sub_trans rfl hM
  repeat' (first | with_reducible assumption | with_reducible apply keepRecord_fr k0 | with_reducible apply repairNext_fr k1 | with_reducible apply foldl_fr | with_reducible apply foldl_fr_fst | (intro _ _ _))

theorem listRepair_fr {z : State} {M : Nat} (hM : Nat.land 0x2000000000040 M = 0x2000000000040) (s : State) (f : Fail) (test : Nat) (confirmed : Bool) (h : s.hide M = z.hide M) :
    (listRepair s f test confirmed).hide M = z.hide M :=
  (State.hide_flash (sub_bit hM rfl)).trans (keepRecord_fr (sub_trans rfl hM) s f _ h)

theorem settleRecords_fr {z : State} {M : Nat} (hM : Nat.land 0x2000000000040 M = 0x2000000000040) (s : State) (words : List Nat) (confirmed : Bool) (hs : s.hide M = z.hide M) :
    (settleRecords s words confirmed).hide M = z.hide M := by
  unfold settleRecords
  have k0 : Nat.land 0x2000000000040 M = _ := sub_trans rfl hM
  have b1 : M.testBit 49 = true := sub_bit hM rfl
  repeat' (first | with_reducible assumption | simp only [State.hide_flash b1] | with_reducible apply keepRecord_fr k0 | with_reducible apply foldl_fr | with_reducible apply foldl_fr_fst | (intro _ _ _))

theorem applyPending_fr {z : State} {M : Nat} (hM : Nat.land 0x2010000000000 M = 0x2010000000000) (s : State) (hs : s.hide M = z.hide M) :
    (applyPending s).hide M = z.hide M := by
  unfold applyPending
  have k0 : Nat.land 0x2000000000000 M = _ := sub_trans rfl hM
  have b1 : M.testBit 40 = true := sub_bit hM rfl
  have b2 : M.testBit 49 = true := sub_bit hM rfl
  repeat' (first | with_reducible assumption | simp only [State.hide_rowCorrections_flash b1 b2] | with_reducible apply repairNext_fr k0 | with_reducible apply foldl_fr | with_reducible apply foldl_fr_fst)

theorem eccCount_fr {z : State} {M : Nat} (hM : Nat.land 0x40 M = 0x40) (s : State) (a : Nat) (bad : Bool) (p : EccPlace) (h : s.hide M = z.hide M) :
    (eccCount s a bad p).hide M = z.hide M := by
  have ho := sub_trans (a := 0x40) rfl hM
  cases p with
  | stack k ch cla =>
    have hs := State.odAdd_fr ho s (if bad then 0x8051 else 0x8050) (k + 1) 1 h
    cases bad with
    | false => exact hs
    | true => exact logEvent_fr ho _ _ _ _ _ _ hs
  | cached k =>
    have hs := State.odAdd_fr ho s 0x8052 (if bad then 2 else 1) 1 h
    cases bad with
    | false => exact hs
    | true => exact logEvent_fr ho _ _ _ _ _ _ hs
  | onChip code =>
    have hs := State.odAdd_fr ho s 0x8052 (if bad then 2 else 1) 1 h
    cases bad with
    | false => exact hs
    | true => exact logEvent_fr ho _ _ _ _ _ _ hs
  | inCell code b p =>
    have hs := State.odAdd_fr ho s 0x8052 (if bad then 2 else 1) 1 h
    cases bad with
    | false => exact hs
    | true => exact logEvent_fr ho _ _ _ _ _ _ hs

theorem noteRow_fr {z : State} {M : Nat} (hM : Nat.land 0x2010000000040 M = 0x2010000000040) (s : State) (a test : Nat) (bad : Bool) (p : EccPlace) (hs : s.hide M = z.hide M) :
    (noteRow s a test bad p).hide M = z.hide M := by
  unfold noteRow
  have k0 : Nat.land 0x2000000000040 M = _ := sub_trans rfl hM
  have b1 : M.testBit 40 = true := sub_bit hM rfl
  repeat' (first | with_reducible assumption | simp only [State.hide_rowCorrections b1] | with_reducible apply listRepair_fr k0 | with_reducible apply foldl_fr | with_reducible apply foldl_fr_fst | (intro _ _ _) | split)

theorem noteSector_fr {z : State} {M : Nat} (hM : Nat.land 0x2010000000040 M = 0x2010000000040) (s : State) (a test : Nat) (bad : Bool) (p : EccPlace) (hs : s.hide M = z.hide M) :
    (noteSector s a test bad p).hide M = z.hide M := by
  unfold noteSector
  have k0 : Nat.land 0x40 M = _ := sub_trans rfl hM
  have k1 : Nat.land 0x2010000000040 M = _ := sub_trans rfl hM
  repeat' (first | with_reducible assumption | with_reducible apply eccCount_fr k0 | with_reducible apply noteRow_fr k1)

theorem sectorReadAt_fr {z : State} {M : Nat} (hM : Nat.land 0x2010000000070 M = 0x2010000000070) (s : State) (a test : Nat) (errs : List (Nat × Nat)) (p : EccPlace) (hs : s.hide M = z.hide M) :
    (sectorReadAt s a test errs p).s.hide M = z.hide M := by
  unfold sectorReadAt
  have k0 : Nat.land 0x2010000000040 M = _ := sub_trans rfl hM
  have k1 : Nat.land 0x30 M = _ := sub_trans rfl hM
  repeat' (first | with_reducible assumption | with_reducible apply noteSector_fr k0 | with_reducible apply putSector_fr k1 | with_reducible apply foldl_fr | with_reducible apply foldl_fr_fst | (intro _ _ _) | split)

theorem eccRead_fr {z : State} {M : Nat} (hM : Nat.land 0x2014000000070 M = 0x2014000000070) (s : State) (a test : Nat) (errs : List (Nat × Nat)) (hs : s.hide M = z.hide M) :
    (eccRead s a test errs).s.hide M = z.hide M := by
  unfold eccRead
  have k0 : Nat.land 0x4000000000 M = _ := sub_trans rfl hM
  have k1 : Nat.land 0x2010000000070 M = _ := sub_trans rfl hM
  repeat' (first | with_reducible assumption | with_reducible apply putLine_fr k0 | with_reducible apply sectorReadAt_fr k1 | with_reducible apply foldl_fr | with_reducible apply foldl_fr_fst | (intro _ _ _) | split)

theorem channelRead_fr {z : State} {M : Nat} (hM : Nat.land 0x2014000000070 M = 0x2014000000070) (s : State) (a test : Nat) (errs : List (Nat × Nat)) (hs : s.hide M = z.hide M) :
    (channelRead s a test errs).hide M = z.hide M := by
  unfold channelRead
  have k0 : Nat.land 0x2010000000040 M = _ := sub_trans rfl hM
  have k1 : Nat.land 0x4000000000 M = _ := sub_trans rfl hM
  have k2 : Nat.land 0x2010000000070 M = _ := sub_trans rfl hM
  repeat' (first | with_reducible assumption | with_reducible apply noteSector_fr k0 | with_reducible apply putLine_fr k1 | with_reducible apply sectorReadAt_fr k2 | with_reducible apply foldl_fr | with_reducible apply foldl_fr_fst | (intro _ _ _) | split | dsimp only)

theorem channelSectors_fr {z : State} {M : Nat} (hM : Nat.land 0x2014000000070 M = 0x2014000000070) (s : State) (line mask test : Nat) (errs : List (Nat × Nat)) (hs : s.hide M = z.hide M) :
    (channelSectors s line mask test errs).hide M = z.hide M := by
  unfold channelSectors
  have k0 : Nat.land 0x2014000000070 M = _ := sub_trans rfl hM
  repeat' (first | with_reducible assumption | with_reducible apply channelRead_fr k0 | with_reducible apply foldl_fr | with_reducible apply foldl_fr_fst | (intro _ _ _) | split)

theorem eccLine_fr {z : State} {M : Nat} (hM : Nat.land 0x2014000000070 M = 0x2014000000070) (s : State) (line mask test : Nat) (errs : List (Nat × Nat)) (hs : s.hide M = z.hide M) :
    (eccLine s line mask test errs).1.hide M = z.hide M := by
  unfold eccLine
  have k0 : Nat.land 0x2014000000070 M = _ := sub_trans rfl hM
  repeat' (first | with_reducible assumption | with_reducible apply eccRead_fr k0 | with_reducible apply foldl_fr | with_reducible apply foldl_fr_fst | (intro _ _ _) | split)

theorem cacheLoad_fr {z : State} {M : Nat} (hM : Nat.land 0x2014000000070 M = 0x2014000000070) (s : State) (a n test : Nat) (errs : List (Nat × Nat)) (hs : s.hide M = z.hide M) :
    (cacheLoad s a n test errs).1.hide M = z.hide M := by
  unfold cacheLoad
  have k0 : Nat.land 0x2014000000070 M = _ := sub_trans rfl hM
  have k1 : Nat.land 0x4000000070 M = _ := sub_trans rfl hM
  repeat' (first | with_reducible assumption | with_reducible apply eccLine_fr k0 | with_reducible apply loadLine_fr k1)

theorem sliceStoreLine_fr {z : State} {M : Nat} (hM : Nat.land 0x2014000000070 M = 0x2014000000070) (s : State) (a : Nat) (bs : List Byte) (test : Nat) (errs : List (Nat × Nat)) (hs : s.hide M = z.hide M) :
    (sliceStoreLine s a bs test errs).hide M = z.hide M := by
  unfold sliceStoreLine
  have k0 : Nat.land 0x2014000000070 M = _ := sub_trans rfl hM
  have k1 : Nat.land 0x4000000030 M = _ := sub_trans rfl hM
  repeat' (first | with_reducible assumption | with_reducible apply channelSectors_fr k0 | with_reducible apply storeLine_fr k1)

theorem countWork_fr {z : State} {M : Nat} (hM : Nat.land 0x800 M = 0x800) (s : State) (c : Nat) (d : TileD) (hs : s.hide M = z.hide M) :
    (countWork s c d).hide M = z.hide M := by
  unfold countWork
  have k0 : Nat.land 0x800 M = _ := sub_trans rfl hM
  repeat' (first | with_reducible assumption | with_reducible apply State.cellAdd_fr k0)

theorem putTile_fr {z : State} {M : Nat} (hM : Nat.land 0x200 M = 0x200) (s : State) (c : Nat) (t : Tile) (hs : s.hide M = z.hide M) :
    (putTile s c t).hide M = z.hide M := by
  unfold putTile
  have k0 : Nat.land 0x200 M = _ := sub_trans rfl hM
  repeat' (first | with_reducible assumption | with_reducible apply State.updCell_fr k0)

theorem runArray_fr {z : State} {M : Nat} (hM : Nat.land 0xa00 M = 0xa00) (s : State) (c : Nat) (p : Piece) (i : Item) (d : TileD) (t : Tile × Flags) (hs : s.hide M = z.hide M) :
    (runArray s c p i d t).hide M = z.hide M := by
  unfold runArray
  have k0 : Nat.land 0x800 M = _ := sub_trans rfl hM
  have k1 : Nat.land 0x200 M = _ := sub_trans rfl hM
  have k2 : Nat.land 0x200 M = _ := sub_trans rfl hM
  have k3 : Nat.land 0x200 M = _ := sub_trans rfl hM
  have k4 : Nat.land 0x200 M = _ := sub_trans rfl hM
  have k5 : Nat.land 0x200 M = _ := sub_trans rfl hM
  repeat' (first | with_reducible assumption | with_reducible apply countWork_fr k0 | with_reducible apply itemDone_fr k1 | with_reducible apply putTile_fr k2 | with_reducible apply State.updCell_fr k3 | with_reducible apply State.stageFlags_fr k4 | with_reducible apply updItem_fr k5 | with_reducible apply foldl_fr | with_reducible apply foldl_fr_fst | (intro _ _ _) | split)

theorem arrayCmd_fr {z : State} {M : Nat} (hM : Nat.land 0xa00 M = 0xa00) (s : State) (c : Nat) (is : TileD → Bool) (hs : s.hide M = z.hide M) :
    (arrayCmd s c is).hide M = z.hide M := by
  unfold arrayCmd
  have k0 : Nat.land 0xa00 M = _ := sub_trans rfl hM
  repeat' (first | with_reducible assumption | with_reducible apply runArray_fr k0 | with_reducible apply foldl_fr | with_reducible apply foldl_fr_fst | (intro _ _ _) | split | dsimp only)

theorem preload_fr {z : State} {M : Nat} (hM : Nat.land 0x200 M = 0x200) (s : State) (c : Nat) (hs : s.hide M = z.hide M) :
    (preload s c).hide M = z.hide M := by
  unfold preload
  have k0 : Nat.land 0x200 M = _ := sub_trans rfl hM
  have k1 : Nat.land 0x200 M = _ := sub_trans rfl hM
  have k2 : Nat.land 0x200 M = _ := sub_trans rfl hM
  repeat' (first | with_reducible assumption | with_reducible apply putTile_fr k0 | with_reducible apply State.stageFlags_fr k1 | with_reducible apply updItem_fr k2 | with_reducible apply foldl_fr | with_reducible apply foldl_fr_fst | (intro _ _ _) | split | dsimp only)

theorem tileDrain_fr {z : State} {M : Nat} (hM : Nat.land 0x4010000270 M = 0x4010000270) (s : State) (c : Nat) (hs : s.hide M = z.hide M) :
    (tileDrain s c).hide M = z.hide M := by
  unfold tileDrain
  have k0 : Nat.land 0x4010000270 M = _ := sub_trans rfl hM
  have k1 : Nat.land 0x200 M = _ := sub_trans rfl hM
  have k2 : Nat.land 0x200 M = _ := sub_trans rfl hM
  have k3 : Nat.land 0x200 M = _ := sub_trans rfl hM
  repeat' (first | with_reducible assumption | with_reducible apply drainTile_fr k0 | with_reducible apply itemDone_fr k1 | with_reducible apply State.stageFlags_fr k2 | with_reducible apply State.updCell_fr k3 | with_reducible apply foldl_fr | with_reducible apply foldl_fr_fst | (intro _ _ _) | split | dsimp only)

theorem slmAdd_fr {z : State} {M : Nat} (hM : Nat.land 0x4010001270 M = 0x4010001270) (s : State) (c : Nat) (hs : s.hide M = z.hide M) :
    (slmAdd s c).hide M = z.hide M := by
  unfold slmAdd
  have k0 : Nat.land 0x4010000270 M = _ := sub_trans rfl hM
  have k1 : Nat.land 0x1000 M = _ := sub_trans rfl hM
  have k2 : Nat.land 0x200 M = _ := sub_trans rfl hM
  repeat' (first | with_reducible assumption | with_reducible apply addStored_fr k0 | with_reducible apply State.orCellFlags_fr k1 | with_reducible apply State.updCell_fr k2 | with_reducible apply foldl_fr | with_reducible apply foldl_fr_fst | (intro _ _ _) | split)

end Sys2Proof.Machine
end

