-- ==== Sys2Proof/Laws/FrameFabric.lean ====
section
/-! SUPPORT. What each operation over the event log, the ports, the fabric and the Tannery can change:
the fields of its mask (`State.hide`), and nothing else. -/

namespace Sys2Proof.Machine

theorem emit_fr {z : State} {M : Nat} (hM : Nat.land 0x40000000000000 M = 0x40000000000000) (s : State) (p seq crVl crRet : Nat) (f : Flit) (hs : s.hide M = z.hide M) :
    (emit s p seq crVl crRet f).hide M = z.hide M := by
  unfold emit
  have k0 : Nat.land 0x40000000000000 M = _ := sub_trans rfl hM
  repeat' (first | with_reducible assumption | with_reducible apply State.send_fr k0)

theorem sendRetry_fr {z : State} {M : Nat} (hM : Nat.land 0x40000000000000 M = 0x40000000000000) (s : State) (p : Nat) (hs : s.hide M = z.hide M) :
    (sendRetry s p).hide M = z.hide M := by
  unfold sendRetry
  have k0 : Nat.land 0x40000000000000 M = _ := sub_trans rfl hM
  repeat' (first | with_reducible assumption | with_reducible apply emit_fr k0)

theorem sendAck_fr {z : State} {M : Nat} (hM : Nat.land 0x40000000000000 M = 0x40000000000000) (s : State) (p vl : Nat) (hs : s.hide M = z.hide M) :
    (sendAck s p vl).hide M = z.hide M := by
  unfold sendAck
  have k0 : Nat.land 0x40000000000000 M = _ := sub_trans rfl hM
  repeat' (first | with_reducible assumption | with_reducible apply emit_fr k0)

theorem pumpN_fr {z : State} {M : Nat} (hM : Nat.land 0x40000001000000 M = 0x40000001000000) (s : State) (p k : Nat) (h : s.hide M = z.hide M) : (pumpN s p k).hide M = z.hide M := by
  induction k generalizing s with
  | zero => exact h
  | succ k ih =>
    simp only [pumpN]
    split
    · exact h
    · split
      · exact h
      · exact ih _ (emit_fr (sub_trans rfl hM) _ _ _ _ _ _ (State.setPort_fr (sub_trans rfl hM) _ _ _ h))

theorem pump_fr {z : State} {M : Nat} (hM : Nat.land 0x40000001000000 M = 0x40000001000000) (s : State) (p : Nat) (hs : s.hide M = z.hide M) :
    (pump s p).hide M = z.hide M := by
  unfold pump
  have k0 : Nat.land 0x40000001000000 M = _ := sub_trans rfl hM
  repeat' (first | with_reducible assumption | with_reducible apply pumpN_fr k0)

theorem enqueue_fr {z : State} {M : Nat} (hM : Nat.land 0x40000001000000 M = 0x40000001000000) (s : State) (p : Nat) (f : Flit) (hs : s.hide M = z.hide M) :
    (enqueue s p f).hide M = z.hide M := by
  unfold enqueue
  have k0 : Nat.land 0x40000001000000 M = _ := sub_trans rfl hM
  have k1 : Nat.land 0x1000000 M = _ := sub_trans rfl hM
  repeat' (first | with_reducible assumption | with_reducible apply pump_fr k0 | with_reducible apply State.updPort_fr k1)

theorem snapsSent_fr {z : State} {M : Nat} (hM : Nat.land 0x4010380270 M = 0x4010380270) (s : State) (p : Nat) (hs : s.hide M = z.hide M) :
    (snapsSent s p).hide M = z.hide M := by
  unfold snapsSent
  have k0 : Nat.land 0x4010380270 M = _ := sub_trans rfl hM
  have b1 : M.testBit 28 = true := sub_bit hM rfl
  repeat' (first | with_reducible assumption | simp only [State.hide_snaps b1] | with_reducible apply complete_fr k0 | with_reducible apply foldl_fr | with_reducible apply foldl_fr_fst | (intro _ _ _) | split)

theorem takeHop_fr {z : State} {M : Nat} (hM : Nat.land 0x40004011380270 M = 0x40004011380270) (s : State) (p header : Nat) (hs : s.hide M = z.hide M) :
    (takeHop s p header).hide M = z.hide M := by
  unfold takeHop
  have k0 : Nat.land 0x40000001000000 M = _ := sub_trans rfl hM
  have k1 : Nat.land 0x1000000 M = _ := sub_trans rfl hM
  have k2 : Nat.land 0x4010380270 M = _ := sub_trans rfl hM
  repeat' (first | with_reducible assumption | with_reducible apply pump_fr k0 | with_reducible apply State.updPort_fr k1 | with_reducible apply snapsSent_fr k2)

theorem receive_fr {z : State} {M : Nat} (hM : Nat.land 0x40004011380270 M = 0x40004011380270) (s : State) (p header kind fec unc : Nat) (payload : List Byte) (hs : s.hide M = z.hide M) :
    (receive s p header kind fec unc payload).1.hide M = z.hide M := by
  unfold receive
  have k0 : Nat.land 0x40 M = _ := sub_trans rfl hM
  have k1 : Nat.land 0x1000000 M = _ := sub_trans rfl hM
  have k2 : Nat.land 0x40000000000000 M = _ := sub_trans rfl hM
  have k3 : Nat.land 0x40000000000000 M = _ := sub_trans rfl hM
  have k4 : Nat.land 0x40004011380270 M = _ := sub_trans rfl hM
  repeat' (first | with_reducible assumption | with_reducible apply State.odAdd_fr k0 | with_reducible apply State.updPort_fr k1 | with_reducible apply sendAck_fr k2 | with_reducible apply sendRetry_fr k3 | with_reducible apply takeHop_fr k4 | with_reducible apply foldl_fr | with_reducible apply foldl_fr_fst | (intro _ _ _) | split | dsimp only)

theorem sendTo_fr {z : State} {M : Nat} (hM : Nat.land 0x40000003000000 M = 0x40000003000000) (s : State) (id plane rank : Nat) (f : Flit) (hs : s.hide M = z.hide M) :
    (sendTo s id plane rank f).hide M = z.hide M := by
  unfold sendTo
  have k0 : Nat.land 0x40000001000000 M = _ := sub_trans rfl hM
  have k1 : Nat.land 0x2000000 M = _ := sub_trans rfl hM
  repeat' (first | with_reducible assumption | with_reducible apply enqueue_fr k0 | with_reducible apply State.updFab_fr k1 | with_reducible apply foldl_fr | with_reducible apply foldl_fr_fst | (intro _ _ _) | split | dsimp only)

theorem sendReduce_fr {z : State} {M : Nat} (hM : Nat.land 0x40000003000000 M = 0x40000003000000) (s : State) (o : FabOp) (plane idx rank : Nat) (c : Chunk) (vals : List (F32 × Nat)) (hs : s.hide M = z.hide M) :
    (sendReduce s o plane idx rank c vals).hide M = z.hide M := by
  unfold sendReduce
  have k0 : Nat.land 0x2000000 M = _ := sub_trans rfl hM
  have k1 : Nat.land 0x40000003000000 M = _ := sub_trans rfl hM
  repeat' (first | with_reducible assumption | with_reducible apply State.updFab_fr k0 | with_reducible apply sendTo_fr k1)

theorem sendData_fr {z : State} {M : Nat} (hM : Nat.land 0x40000003000000 M = 0x40000003000000) (s : State) (o : FabOp) (plane idx : Nat) (ranks : List Nat) (c : Chunk) (payload : List Byte) (poison : Nat) (hs : s.hide M = z.hide M) :
    (sendData s o plane idx ranks c payload poison).hide M = z.hide M := by
  unfold sendData
  have k0 : Nat.land 0x40000003000000 M = _ := sub_trans rfl hM
  repeat' (first | with_reducible assumption | with_reducible apply sendTo_fr k0 | with_reducible apply foldl_fr | with_reducible apply foldl_fr_fst | (intro _ _ _))

theorem markOver_fr {z : State} {M : Nat} (hM : Nat.land 0x2000000 M = 0x2000000) (s : State) (id plane idx : Nat) (hs : s.hide M = z.hide M) :
    (markOver s id plane idx).hide M = z.hide M := by
  unfold markOver
  have k0 : Nat.land 0x2000000 M = _ := sub_trans rfl hM
  repeat' (first | with_reducible assumption | with_reducible apply State.updFab_fr k0)

theorem readSource_fr {z : State} {M : Nat} (hM : Nat.land 0x4002000072 M = 0x4002000072) (s : State) (id a n : Nat) (hs : s.hide M = z.hide M) :
    (readSource s id a n).hide M = z.hide M := by
  unfold readSource
  have k0 : Nat.land 0x2 M = _ := sub_trans rfl hM
  have k1 : Nat.land 0x2000000 M = _ := sub_trans rfl hM
  have k2 : Nat.land 0x4000000070 M = _ := sub_trans rfl hM
  repeat' (first | with_reducible assumption | with_reducible apply State.draw_fr k0 | with_reducible apply State.updFab_fr k1 | with_reducible apply sliceLoads_fr k2 | with_reducible apply foldl_fr | with_reducible apply foldl_fr_fst | (intro _ _ _) | split | dsimp only)

theorem landEls_fr {z : State} {M : Nat} (hM : Nat.land 0x4012000270 M = 0x4012000270) (s : State) (id n : Nat) (els : List (Nat × List Byte × Bool)) (hs : s.hide M = z.hide M) :
    (landEls s id n els).hide M = z.hide M := by
  unfold landEls
  have k0 : Nat.land 0x4010000270 M = _ := sub_trans rfl hM
  have k1 : Nat.land 0x2000000 M = _ := sub_trans rfl hM
  repeat' (first | with_reducible assumption | with_reducible apply reachEls_fr k0 | with_reducible apply State.updFab_fr k1)

theorem landBytes_fr {z : State} {M : Nat} (hM : Nat.land 0x4012000270 M = 0x4012000270) (s : State) (id a : Nat) (payload : List Byte) (poison : Nat) (hs : s.hide M = z.hide M) :
    (landBytes s id a payload poison).hide M = z.hide M := by
  unfold landBytes
  have k0 : Nat.land 0x4012000270 M = _ := sub_trans rfl hM
  repeat' (first | with_reducible assumption | with_reducible apply landEls_fr k0)

theorem landValues_fr {z : State} {M : Nat} (hM : Nat.land 0x4012000270 M = 0x4012000270) (s : State) (o : FabOp) (c : Chunk) (a : Nat) (vals : List (F32 × Bool)) (hs : s.hide M = z.hide M) :
    (landValues s o c a vals).hide M = z.hide M := by
  unfold landValues
  have k0 : Nat.land 0x4012000270 M = _ := sub_trans rfl hM
  repeat' (first | with_reducible assumption | with_reducible apply landEls_fr k0)

theorem landData_fr {z : State} {M : Nat} (hM : Nat.land 0x4012000270 M = 0x4012000270) (s : State) (o : FabOp) (c : Chunk) (a : Nat) (payload : List Byte) (poison : Nat) (hs : s.hide M = z.hide M) :
    (landData s o c a payload poison).hide M = z.hide M := by
  unfold landData
  have k0 : Nat.land 0x4012000270 M = _ := sub_trans rfl hM
  have k1 : Nat.land 0x4012000270 M = _ := sub_trans rfl hM
  repeat' (first | with_reducible assumption | with_reducible apply landBytes_fr k0 | with_reducible apply landValues_fr k1 | with_reducible apply foldl_fr | with_reducible apply foldl_fr_fst | (intro _ _ _) | split)

theorem finishReduce_fr {z : State} {M : Nat} (hM : Nat.land 0x40004013000270 M = 0x40004013000270) (s : State) (o : FabOp) (plane idx : Nat) (c : Chunk) (vals : List (F32 × Nat)) (hs : s.hide M = z.hide M) :
    (finishReduce s o plane idx c vals).hide M = z.hide M := by
  unfold finishReduce
  have k0 : Nat.land 0x4012000270 M = _ := sub_trans rfl hM
  have k1 : Nat.land 0x2000000 M = _ := sub_trans rfl hM
  have k2 : Nat.land 0x40000003000000 M = _ := sub_trans rfl hM
  have k3 : Nat.land 0x40000003000000 M = _ := sub_trans rfl hM
  repeat' (first | with_reducible assumption | with_reducible apply landValues_fr k0 | with_reducible apply markOver_fr k1 | with_reducible apply sendData_fr k2 | with_reducible apply sendReduce_fr k3 | with_reducible apply foldl_fr | with_reducible apply foldl_fr_fst | (intro _ _ _) | split)

theorem passSum_fr {z : State} {M : Nat} (hM : Nat.land 0x40004013000270 M = 0x40004013000270) (s : State) (o : FabOp) (plane idx : Nat) (c : Chunk) (vals : List (F32 × Nat)) (hs : s.hide M = z.hide M) :
    (passSum s o plane idx c vals).hide M = z.hide M := by
  unfold passSum
  have k0 : Nat.land 0x40004013000270 M = _ := sub_trans rfl hM
  have k1 : Nat.land 0x2000000 M = _ := sub_trans rfl hM
  have k2 : Nat.land 0x40000003000000 M = _ := sub_trans rfl hM
  repeat' (first | with_reducible assumption | with_reducible apply finishReduce_fr k0 | with_reducible apply markOver_fr k1 | with_reducible apply sendReduce_fr k2 | with_reducible apply foldl_fr | with_reducible apply foldl_fr_fst | (intro _ _ _) | split | dsimp only)

theorem startChunk_fr {z : State} {M : Nat} (hM : Nat.land 0x40004013000272 M = 0x40004013000272) (s : State) (o : FabOp) (plane idx : Nat) (c : Chunk) (hs : s.hide M = z.hide M) :
    (startChunk s o plane idx c).hide M = z.hide M := by
  unfold startChunk
  have k0 : Nat.land 0x4012000270 M = _ := sub_trans rfl hM
  have k1 : Nat.land 0x2000000 M = _ := sub_trans rfl hM
  have k2 : Nat.land 0x40004013000270 M = _ := sub_trans rfl hM
  have k3 : Nat.land 0x4002000072 M = _ := sub_trans rfl hM
  have k4 : Nat.land 0x40000003000000 M = _ := sub_trans rfl hM
  repeat' (first | with_reducible assumption | with_reducible apply landBytes_fr k0 | with_reducible apply markOver_fr k1 | with_reducible apply passSum_fr k2 | with_reducible apply readSource_fr k3 | with_reducible apply sendData_fr k4 | with_reducible apply foldl_fr | with_reducible apply foldl_fr_fst | (intro _ _ _) | split | dsimp only)

theorem startStripe_fr {z : State} {M : Nat} (hM : Nat.land 0x40004013000272 M = 0x40004013000272) (s : State) (id k : Nat) (hs : s.hide M = z.hide M) :
    (startStripe s id k).hide M = z.hide M := by
  unfold startStripe
  have k0 : Nat.land 0x40004013000272 M = _ := sub_trans rfl hM
  repeat' (first | with_reducible assumption | with_reducible apply startChunk_fr k0 | with_reducible apply foldl_fr | with_reducible apply foldl_fr_fst | (intro _ _ _) | split)

theorem startStripes_fr {z : State} {M : Nat} (hM : Nat.land 0x40004013000272 M = 0x40004013000272) (s : State) (id from_ : Nat) (hs : s.hide M = z.hide M) :
    (startStripes s id from_).hide M = z.hide M := by
  unfold startStripes
  have k0 : Nat.land 0x40004013000272 M = _ := sub_trans rfl hM
  repeat' (first | with_reducible assumption | with_reducible apply startStripe_fr k0 | with_reducible apply foldl_fr | with_reducible apply foldl_fr_fst | (intro _ _ _) | split)

theorem restripeOp_fr {z : State} {M : Nat} (hM : Nat.land 0x40004013000272 M = 0x40004013000272) (s : State) (id plane : Nat) (hs : s.hide M = z.hide M) :
    (restripeOp s id plane).hide M = z.hide M := by
  unfold restripeOp
  have k0 : Nat.land 0x2000000 M = _ := sub_trans rfl hM
  have k1 : Nat.land 0x40004013000272 M = _ := sub_trans rfl hM
  repeat' (first | with_reducible assumption | with_reducible apply State.updFab_fr k0 | with_reducible apply startStripes_fr k1 | with_reducible apply foldl_fr | with_reducible apply foldl_fr_fst | (intro _ _ _) | split)

theorem loseData_fr {z : State} {M : Nat} (hM : Nat.land 0x40004013380272 M = 0x40004013380272) (s : State) (plane : Nat) (hs : s.hide M = z.hide M) :
    (loseData s plane).hide M = z.hide M := by
  unfold loseData
  have k0 : Nat.land 0x4010380270 M = _ := sub_trans rfl hM
  have k1 : Nat.land 0x40004013000272 M = _ := sub_trans rfl hM
  have k2 : Nat.land 0x40 M = _ := sub_trans rfl hM
  have k3 : Nat.land 0x1000000 M = _ := sub_trans rfl hM
  have b4 : M.testBit 28 = true := sub_bit hM rfl
  repeat' (first | with_reducible assumption | simp only [State.hide_snaps b4] | with_reducible apply complete_fr k0 | with_reducible apply restripeOp_fr k1 | with_reducible apply State.odSet_fr k2 | with_reducible apply State.updPort_fr k3 | with_reducible apply foldl_fr | with_reducible apply foldl_fr_fst | (intro _ _ _) | split)

theorem dropFab_fr {z : State} {M : Nat} (hM : Nat.land 0x2000000 M = 0x2000000) (s : State) (id : Nat) (hs : s.hide M = z.hide M) :
    (dropFab s id).hide M = z.hide M := by
  unfold dropFab
  have b0 : M.testBit 25 = true := sub_bit hM rfl
  repeat' (first | with_reducible assumption | simp only [State.hide_fab b0])

theorem endFab_fr {z : State} {M : Nat} (hM : Nat.land 0x4012380270 M = 0x4012380270) (s : State) (o : FabOp) (status : Nat) (hs : s.hide M = z.hide M) :
    (endFab s o status).hide M = z.hide M := by
  unfold endFab
  have k0 : Nat.land 0x4010380270 M = _ := sub_trans rfl hM
  have k1 : Nat.land 0x2000000 M = _ := sub_trans rfl hM
  repeat' (first | with_reducible assumption | with_reducible apply complete_fr k0 | with_reducible apply dropFab_fr k1 | with_reducible apply foldl_fr | with_reducible apply foldl_fr_fst | (intro _ _ _) | split)

theorem takeNotice_fr {z : State} {M : Nat} (hM : Nat.land 0x40004013380270 M = 0x40004013380270) (s : State) (id : Nat) (n : Notice) (hs : s.hide M = z.hide M) :
    (takeNotice s id n).hide M = z.hide M := by
  unfold takeNotice
  have k0 : Nat.land 0x4012380270 M = _ := sub_trans rfl hM
  have k1 : Nat.land 0x40000000000000 M = _ := sub_trans rfl hM
  have k2 : Nat.land 0x2000000 M = _ := sub_trans rfl hM
  have k3 : Nat.land 0x40000003000000 M = _ := sub_trans rfl hM
  repeat' (first | with_reducible assumption | with_reducible apply endFab_fr k0 | with_reducible apply State.send_fr k1 | with_reducible apply State.updFab_fr k2 | with_reducible apply sendTo_fr k3 | with_reducible apply foldl_fr | with_reducible apply foldl_fr_fst | (intro _ _ _) | split)

theorem addFab_fr {z : State} {M : Nat} (hM : Nat.land 0x40004017380270 M = 0x40004017380270) (s : State) (o : FabOp) (hs : s.hide M = z.hide M) :
    (addFab s o).hide M = z.hide M := by
  unfold addFab
  have k0 : Nat.land 0x40004013380270 M = _ := sub_trans rfl hM
  have b1 : M.testBit 25 = true := sub_bit hM rfl
  have b2 : M.testBit 26 = true := sub_bit hM rfl
  repeat' (first | with_reducible assumption | simp only [State.hide_fab_notices b1 b2] | with_reducible apply takeNotice_fr k0 | with_reducible apply foldl_fr | with_reducible apply foldl_fr_fst | (intro _ _ _))

theorem fabStart_fr {z : State} {M : Nat} (hM : Nat.land 0x40004013380272 M = 0x40004013380272) (s : State) (id : Nat) (hs : s.hide M = z.hide M) :
    (fabStart s id).hide M = z.hide M := by
  unfold fabStart
  have k0 : Nat.land 0x4012380270 M = _ := sub_trans rfl hM
  have k1 : Nat.land 0x40000000000000 M = _ := sub_trans rfl hM
  have k2 : Nat.land 0x2000000 M = _ := sub_trans rfl hM
  have k3 : Nat.land 0x40004013000272 M = _ := sub_trans rfl hM
  repeat' (first | with_reducible assumption | with_reducible apply endFab_fr k0 | with_reducible apply State.send_fr k1 | with_reducible apply State.updFab_fr k2 | with_reducible apply startStripes_fr k3 | with_reducible apply foldl_fr | with_reducible apply foldl_fr_fst | (intro _ _ _) | split)

theorem mirrorIn_fr {z : State} {M : Nat} (hM : Nat.land 0x40004013380276 M = 0x40004013380276) (s : State) (n : Notice) (hs : s.hide M = z.hide M) :
    (mirrorIn s n).hide M = z.hide M := by
  unfold mirrorIn
  have k0 : Nat.land 0x40004013380272 M = _ := sub_trans rfl hM
  have k1 : Nat.land 0x4 M = _ := sub_trans rfl hM
  have b2 : M.testBit 25 = true := sub_bit hM rfl
  repeat' (first | with_reducible assumption | simp only [State.hide_fab b2] | with_reducible apply fabStart_fr k0 | with_reducible apply State.fresh_fr k1)

theorem startNotice_fr {z : State} {M : Nat} (hM : Nat.land 0x40004017380276 M = 0x40004017380276) (s : State) (n : Notice) (hs : s.hide M = z.hide M) :
    (startNotice s n).hide M = z.hide M := by
  unfold startNotice
  have k0 : Nat.land 0x40004013380276 M = _ := sub_trans rfl hM
  have k1 : Nat.land 0x40004013380270 M = _ := sub_trans rfl hM
  have b2 : M.testBit 26 = true := sub_bit hM rfl
  repeat' (first | with_reducible assumption | simp only [State.hide_notices b2] | with_reducible apply mirrorIn_fr k0 | with_reducible apply takeNotice_fr k1 | with_reducible apply foldl_fr | with_reducible apply foldl_fr_fst | (intro _ _ _) | split)

theorem mirrorCheck_fr {z : State} {M : Nat} (hM : Nat.land 0x40000002000000 M = 0x40000002000000) (s : State) (id : Nat) (hs : s.hide M = z.hide M) :
    (mirrorCheck s id).hide M = z.hide M := by
  unfold mirrorCheck
  have k0 : Nat.land 0x40000000000000 M = _ := sub_trans rfl hM
  have b1 : M.testBit 25 = true := sub_bit hM rfl
  repeat' (first | with_reducible assumption | simp only [State.hide_fab b1] | with_reducible apply State.send_fr k0 | with_reducible apply foldl_fr | with_reducible apply foldl_fr_fst | (intro _ _ _) | split)

theorem dataArrive_fr {z : State} {M : Nat} (hM : Nat.land 0x40004013000270 M = 0x40004013000270) (s : State) (o : FabOp) (sender plane idx addr : Nat) (c : Chunk) (payload : List Byte) (poison : Nat) (hs : s.hide M = z.hide M) :
    (dataArrive s o sender plane idx addr c payload poison).hide M = z.hide M := by
  unfold dataArrive
  have k0 : Nat.land 0x4012000270 M = _ := sub_trans rfl hM
  have k1 : Nat.land 0x2000000 M = _ := sub_trans rfl hM
  have k2 : Nat.land 0x40000002000000 M = _ := sub_trans rfl hM
  have k3 : Nat.land 0x40000003000000 M = _ := sub_trans rfl hM
  repeat' (first | with_reducible assumption | with_reducible fail | with_reducible apply landData_fr k0 | with_reducible apply markOver_fr k1 | with_reducible apply mirrorCheck_fr k2 | with_reducible apply sendData_fr k3 | with_reducible apply foldl_fr | with_reducible apply foldl_fr_fst | (intro _ _ _) | split | dsimp only)

theorem flitData_fr {z : State} {M : Nat} (hM : Nat.land 0x40004013380270 M = 0x40004013380270) (s : State) (port header : Nat) (payload : List Byte) (poison fec unc : Nat) (hs : s.hide M = z.hide M) :
    (flitData s port header payload poison fec unc).hide M = z.hide M := by
  unfold flitData
  have k0 : Nat.land 0x40004013000270 M = _ := sub_trans rfl hM
  have k1 : Nat.land 0x40004011380270 M = _ := sub_trans rfl hM
  repeat' (first | with_reducible assumption | with_reducible apply dataArrive_fr k0 | with_reducible apply receive_fr k1 | with_reducible apply foldl_fr | with_reducible apply foldl_fr_fst | (intro _ _ _) | split | dsimp only)

theorem raiseFab_fr {z : State} {M : Nat} (hM : Nat.land 0x2004000 M = 0x2004000) (s : State) (o : FabOp) (f : Flags) (hs : s.hide M = z.hide M) :
    (raiseFab s o f).hide M = z.hide M := by
  unfold raiseFab
  have k0 : Nat.land 0x2000000 M = _ := sub_trans rfl hM
  have b1 : M.testBit 14 = true := sub_bit hM rfl
  repeat' (first | with_reducible assumption | simp only [State.hide_moduleFlags b1] | with_reducible apply State.updFab_fr k0 | with_reducible apply foldl_fr | with_reducible apply foldl_fr_fst | (intro _ _ _) | split)

theorem addPart_fr {z : State} {M : Nat} (hM : Nat.land 0x40004013004272 M = 0x40004013004272) (s : State) (o : FabOp) (rank plane idx : Nat) (c : Chunk) (vals : List (F32 × Nat)) (hs : s.hide M = z.hide M) :
    (addPart s o rank plane idx c vals).hide M = z.hide M := by
  unfold addPart
  have k0 : Nat.land 0x40004013000270 M = _ := sub_trans rfl hM
  have k1 : Nat.land 0x40004013000270 M = _ := sub_trans rfl hM
  have k2 : Nat.land 0x2004000 M = _ := sub_trans rfl hM
  have k3 : Nat.land 0x4002000072 M = _ := sub_trans rfl hM
  have k4 : Nat.land 0x2000000 M = _ := sub_trans rfl hM
  repeat' (first | with_reducible assumption | with_reducible apply finishReduce_fr k0 | with_reducible apply passSum_fr k1 | with_reducible apply raiseFab_fr k2 | with_reducible apply readSource_fr k3 | with_reducible apply State.updFab_fr k4 | with_reducible apply foldl_fr | with_reducible apply foldl_fr_fst | (intro _ _ _) | split | dsimp only)

theorem markStep_fr {z : State} {M : Nat} (hM : Nat.land 0x80000 M = 0x80000) (s : State) (o : FabOp) (who : Nat) (hs : s.hide M = z.hide M) :
    (markStep s o who).hide M = z.hide M := by
  unfold markStep
  have k0 : Nat.land 0x80000 M = _ := sub_trans rfl hM
  repeat' (first | with_reducible assumption | with_reducible apply State.updCtx_fr k0 | with_reducible apply foldl_fr | with_reducible apply foldl_fr_fst | (intro _ _ _) | split)

theorem reduceArrive_fr {z : State} {M : Nat} (hM : Nat.land 0x40004013084272 M = 0x40004013084272) (s : State) (o : FabOp) (rank plane idx : Nat) (c : Chunk) (vals : List (F32 × Nat)) (adderFault : Bool) (hs : s.hide M = z.hide M) :
    (reduceArrive s o rank plane idx c vals adderFault).hide M = z.hide M := by
  unfold reduceArrive
  have k0 : Nat.land 0x40004013004272 M = _ := sub_trans rfl hM
  have k1 : Nat.land 0x40 M = _ := sub_trans rfl hM
  have k2 : Nat.land 0x80000 M = _ := sub_trans rfl hM
  have k3 : Nat.land 0x40 M = _ := sub_trans rfl hM
  have k4 : Nat.land 0x40000000000000 M = _ := sub_trans rfl hM
  have k5 : Nat.land 0x2000000 M = _ := sub_trans rfl hM
  repeat' (first | with_reducible assumption | with_reducible apply addPart_fr k0 | with_reducible apply logEvent_fr k1 | with_reducible apply markStep_fr k2 | with_reducible apply State.odAdd_fr k3 | with_reducible apply State.send_fr k4 | with_reducible apply State.updFab_fr k5 | with_reducible apply foldl_fr | with_reducible apply foldl_fr_fst | (intro _ _ _) | split | dsimp only)

theorem flitReduce_fr {z : State} {M : Nat} (hM : Nat.land 0x40004013384272 M = 0x40004013384272) (s : State) (port header : Nat) (payload : List Byte) (adderFault : Bool) (fec unc : Nat) (hs : s.hide M = z.hide M) :
    (flitReduce s port header payload adderFault fec unc).hide M = z.hide M := by
  unfold flitReduce
  have k0 : Nat.land 0x40004011380270 M = _ := sub_trans rfl hM
  have k1 : Nat.land 0x40004013084272 M = _ := sub_trans rfl hM
  repeat' (first | with_reducible assumption | with_reducible apply receive_fr k0 | with_reducible apply reduceArrive_fr k1 | with_reducible apply foldl_fr | with_reducible apply foldl_fr_fst | (intro _ _ _) | split | dsimp only)

theorem resendFlit_fr {z : State} {M : Nat} (hM : Nat.land 0x40000003000040 M = 0x40000003000040) (s : State) (op plane idx member : Nat) (hs : s.hide M = z.hide M) :
    (resendFlit s op plane idx member).hide M = z.hide M := by
  unfold resendFlit
  have k0 : Nat.land 0x40 M = _ := sub_trans rfl hM
  have k1 : Nat.land 0x40000003000000 M = _ := sub_trans rfl hM
  repeat' (first | with_reducible assumption | with_reducible apply State.odAdd_fr k0 | with_reducible apply sendTo_fr k1 | with_reducible apply foldl_fr | with_reducible apply foldl_fr_fst | (intro _ _ _) | split)

theorem fabComplete_fr {z : State} {M : Nat} (hM : Nat.land 0x400040923c0270 M = 0x400040923c0270) (s : State) (o : FabOp) (hs : s.hide M = z.hide M) :
    (fabComplete s o).hide M = z.hide M := by
  unfold fabComplete
  have k0 : Nat.land 0x4012380270 M = _ := sub_trans rfl hM
  have k1 : Nat.land 0x40000080040240 M = _ := sub_trans rfl hM
  repeat' (first | with_reducible assumption | with_reducible apply endFab_fr k0 | with_reducible apply syncChange_fr k1 | with_reducible apply foldl_fr | with_reducible apply foldl_fr_fst | (intro _ _ _) | split)

theorem clearObj_fr {z : State} {M : Nat} (hM : Nat.land 0x40200 M = 0x40200) (s : State) (i : Nat) (op : SyncOp) (hs : s.hide M = z.hide M) :
    (clearObj s i op).hide M = z.hide M := by
  unfold clearObj
  have k0 : Nat.land 0x40200 M = _ := sub_trans rfl hM
  repeat' (first | with_reducible assumption | with_reducible apply settleObj_fr k0)

theorem streamOpen_fr {z : State} {M : Nat} (hM : Nat.land 0x40903c0270 M = 0x40903c0270) (s : State) (id : Nat) (hs : s.hide M = z.hide M) :
    (streamOpen s id).hide M = z.hide M := by
  unfold streamOpen
  have k0 : Nat.land 0x40200 M = _ := sub_trans rfl hM
  have k1 : Nat.land 0x4010380270 M = _ := sub_trans rfl hM
  have k2 : Nat.land 0x200000 M = _ := sub_trans rfl hM
  have k3 : Nat.land 0x80000000 M = _ := sub_trans rfl hM
  repeat' (first | with_reducible assumption | with_reducible apply clearObj_fr k0 | with_reducible apply complete_fr k1 | with_reducible apply State.updCmd_fr k2 | with_reducible apply State.updStream_fr k3 | with_reducible apply foldl_fr | with_reducible apply foldl_fr_fst | (intro _ _ _) | split | dsimp only)

theorem endStream_fr {z : State} {M : Nat} (hM : Nat.land 0x4090380270 M = 0x4090380270) (s : State) (n state status : Nat) (hs : s.hide M = z.hide M) :
    (endStream s n state status).hide M = z.hide M := by
  unfold endStream
  have k0 : Nat.land 0x4010380270 M = _ := sub_trans rfl hM
  have k1 : Nat.land 0x80000000 M = _ := sub_trans rfl hM
  repeat' (first | with_reducible assumption | with_reducible apply complete_fr k0 | with_reducible apply State.updStream_fr k1 | with_reducible apply foldl_fr | with_reducible apply foldl_fr_fst | (intro _ _ _) | split | dsimp only)

theorem streamClose_fr {z : State} {M : Nat} (hM : Nat.land 0x4090380270 M = 0x4090380270) (s : State) (id : Nat) (hs : s.hide M = z.hide M) :
    (streamClose s id).hide M = z.hide M := by
  unfold streamClose
  have k0 : Nat.land 0x4010380270 M = _ := sub_trans rfl hM
  have k1 : Nat.land 0x4090380270 M = _ := sub_trans rfl hM
  repeat' (first | with_reducible assumption | with_reducible apply complete_fr k0 | with_reducible apply endStream_fr k1 | with_reducible apply foldl_fr | with_reducible apply foldl_fr_fst | (intro _ _ _) | split | dsimp only)

theorem batchAssemble_fr {z : State} {M : Nat} (hM : Nat.land 0x80000000 M = 0x80000000) (s : State) (n : Nat) (hs : s.hide M = z.hide M) :
    (batchAssemble s n).hide M = z.hide M := by
  unfold batchAssemble
  have k0 : Nat.land 0x80000000 M = _ := sub_trans rfl hM
  repeat' (first | with_reducible assumption | with_reducible apply State.updStream_fr k0 | with_reducible apply foldl_fr | with_reducible apply foldl_fr_fst | (intro _ _ _) | split | dsimp only)

theorem sampleStart_fr {z : State} {M : Nat} (hM : Nat.land 0x40004080000074 M = 0x40004080000074) (s : State) (n : Nat) (h : s.hide M = z.hide M) : (sampleStart s n).hide M = z.hide M := by
  unfold sampleStart
  extract_lets t
  split
  · exact h
  · extract_lets e idx a entry free poison s1 d s2
    clear_value d
    have h2 : s2.hide M = z.hide M := State.updStream_fr (sub_trans rfl hM) _ _ _ (State.fresh_fr (sub_trans rfl hM) _ (sliceLoads_fr (sub_trans rfl hM) _ _ h))
    split
    · exact h
    · split
      · exact State.send_fr (sub_trans rfl hM) _ _ h2
      · exact h2

theorem streamCount_fr {z : State} {M : Nat} (hM : Nat.land 0x40 M = 0x40) (s : State) (n index k : Nat) (hs : s.hide M = z.hide M) :
    (streamCount s n index k).hide M = z.hide M := by
  unfold streamCount
  have k0 : Nat.land 0x40 M = _ := sub_trans rfl hM
  repeat' (first | with_reducible assumption | with_reducible apply State.odAdd_fr k0)

theorem leaveEmpty_fr {z : State} {M : Nat} (hM : Nat.land 0x80000040 M = 0x80000040) (s : State) (n k i reason : Nat) (evs : List Nat) (hs : s.hide M = z.hide M) :
    (leaveEmpty s n k i reason evs).hide M = z.hide M := by
  unfold leaveEmpty
  have k0 : Nat.land 0x80000000 M = _ := sub_trans rfl hM
  have k1 : Nat.land 0x40 M = _ := sub_trans rfl hM
  repeat' (first | with_reducible assumption | with_reducible apply State.updStream_fr k0 | with_reducible apply streamCount_fr k1)

theorem takeReserve_fr {z : State} {M : Nat} (hM : Nat.land 0x80000040 M = 0x80000040) (s : State) (n k i failed reason : Nat) (evs : List Nat) (hs : s.hide M = z.hide M) :
    (takeReserve s n k i failed reason evs).hide M = z.hide M := by
  unfold takeReserve
  have k0 : Nat.land 0x80000040 M = _ := sub_trans rfl hM
  have k1 : Nat.land 0x80000000 M = _ := sub_trans rfl hM
  repeat' (first | with_reducible assumption | with_reducible apply leaveEmpty_fr k0 | with_reducible apply State.updStream_fr k1 | with_reducible apply foldl_fr | with_reducible apply foldl_fr_fst | (intro _ _ _) | split | dsimp only)

theorem slotCorrupt_fr {z : State} {M : Nat} (hM : Nat.land 0x4090380270 M = 0x4090380270) (s : State) (n : Nat) (d : Decode) (failed reason : Nat) (hs : s.hide M = z.hide M) :
    (slotCorrupt s n d failed reason).hide M = z.hide M := by
  unfold slotCorrupt
  have k0 : Nat.land 0x4090380270 M = _ := sub_trans rfl hM
  have k1 : Nat.land 0x80000040 M = _ := sub_trans rfl hM
  have k2 : Nat.land 0x40 M = _ := sub_trans rfl hM
  have k3 : Nat.land 0x80000000 M = _ := sub_trans rfl hM
  have k4 : Nat.land 0x40 M = _ := sub_trans rfl hM
  have k5 : Nat.land 0x80000040 M = _ := sub_trans rfl hM
  repeat' (first | with_reducible assumption | with_reducible apply endStream_fr k0 | with_reducible apply leaveEmpty_fr k1 | with_reducible apply logEvent_fr k2 | with_reducible apply State.updStream_fr k3 | with_reducible apply streamCount_fr k4 | with_reducible apply takeReserve_fr k5 | with_reducible apply foldl_fr | with_reducible apply foldl_fr_fst | (intro _ _ _) | split | dsimp only)

theorem slotDecoded_fr {z : State} {M : Nat} (hM : Nat.land 0x4090380270 M = 0x4090380270) (s : State) (n : Nat) (d : Decode) (us reason : Nat) (pcieFail : Bool) (dims : List Nat) (data : List (List Nat)) (hs : s.hide M = z.hide M) :
    (slotDecoded s n d us reason pcieFail dims data).hide M = z.hide M := by
  unfold slotDecoded
  have k0 : Nat.land 0x80000000 M = _ := sub_trans rfl hM
  have k1 : Nat.land 0x4090380270 M = _ := sub_trans rfl hM
  have k2 : Nat.land 0x40 M = _ := sub_trans rfl hM
  repeat' (first | with_reducible assumption | with_reducible apply State.updStream_fr k0 | with_reducible apply slotCorrupt_fr k1 | with_reducible apply streamCount_fr k2 | with_reducible apply foldl_fr | with_reducible apply foldl_fr_fst | (intro _ _ _) | split | dsimp only)

theorem parkedDecoded_fr {z : State} {M : Nat} (hM : Nat.land 0x80000040 M = 0x80000040) (s : State) (n : Nat) (d : Decode) (us reason : Nat) (pcieFail : Bool) (dims : List Nat) (data : List (List Nat)) (hs : s.hide M = z.hide M) :
    (parkedDecoded s n d us reason pcieFail dims data).hide M = z.hide M := by
  unfold parkedDecoded
  have k0 : Nat.land 0x80000000 M = _ := sub_trans rfl hM
  have k1 : Nat.land 0x40 M = _ := sub_trans rfl hM
  repeat' (first | with_reducible assumption | with_reducible apply State.updStream_fr k0 | with_reducible apply streamCount_fr k1 | with_reducible apply foldl_fr | with_reducible apply foldl_fr_fst | (intro _ _ _) | split | dsimp only)

theorem sampleDecoded_fr {z : State} {M : Nat} (hM : Nat.land 0x4090380270 M = 0x4090380270) (s : State) (n id us : Nat) (pcieFail : Bool) (data : List (List Nat)) (hs : s.hide M = z.hide M) :
    (sampleDecoded s n id us pcieFail data).hide M = z.hide M := by
  unfold sampleDecoded
  have k0 : Nat.land 0x80000040 M = _ := sub_trans rfl hM
  have k1 : Nat.land 0x4000000070 M = _ := sub_trans rfl hM
  have k2 : Nat.land 0x4090380270 M = _ := sub_trans rfl hM
  repeat' (first | with_reducible assumption | with_reducible apply parkedDecoded_fr k0 | with_reducible apply sliceLoads_fr k1 | with_reducible apply slotDecoded_fr k2 | with_reducible apply foldl_fr | with_reducible apply foldl_fr_fst | (intro _ _ _) | split | dsimp only)

theorem overBudget_fr {z : State} {M : Nat} (hM : Nat.land 0x80000040 M = 0x80000040) (s : State) (n id us : Nat) (hs : s.hide M = z.hide M) :
    (overBudget s n id us).hide M = z.hide M := by
  unfold overBudget
  have k0 : Nat.land 0x80000000 M = _ := sub_trans rfl hM
  have k1 : Nat.land 0x40 M = _ := sub_trans rfl hM
  have k2 : Nat.land 0x80000040 M = _ := sub_trans rfl hM
  repeat' (first | with_reducible assumption | with_reducible apply State.updStream_fr k0 | with_reducible apply streamCount_fr k1 | with_reducible apply takeReserve_fr k2 | with_reducible apply foldl_fr | with_reducible apply foldl_fr_fst | (intro _ _ _) | split | dsimp only)

theorem slotStore_fr {z : State} {M : Nat} (hM : Nat.land 0x4010000270 M = 0x4010000270) (s : State) (a : Nat) (bs : List Byte) (hs : s.hide M = z.hide M) :
    (slotStore s a bs).hide M = z.hide M := by
  unfold slotStore
  have k0 : Nat.land 0x4000000030 M = _ := sub_trans rfl hM
  have k1 : Nat.land 0x4010000270 M = _ := sub_trans rfl hM
  repeat' (first | with_reducible assumption | with_reducible apply sliceStores_fr k0 | with_reducible apply State.storeP_fr k1)

theorem writeBatch_fr {z : State} {M : Nat} (hM : Nat.land 0x4010000270 M = 0x4010000270) (s : State) (n k : Nat) (slots : List SlotState) (events : List Nat) (left : Nat) (hs : s.hide M = z.hide M) :
    (writeBatch s n k slots events left).hide M = z.hide M := by
  unfold writeBatch
  have k0 : Nat.land 0x4010000270 M = _ := sub_trans rfl hM
  repeat' (first | with_reducible assumption | with_reducible apply slotStore_fr k0 | with_reducible apply foldl_fr | with_reducible apply foldl_fr_fst | (intro _ _ _))

theorem sealLow_fr {z : State} {M : Nat} (hM : Nat.land 0x40000080040240 M = 0x40000080040240) (s : State) (n : Nat) (hs : s.hide M = z.hide M) :
    (sealLow s n).hide M = z.hide M := by
  unfold sealLow
  have k0 : Nat.land 0x80000000 M = _ := sub_trans rfl hM
  have k1 : Nat.land 0x40000080040240 M = _ := sub_trans rfl hM
  have k2 : Nat.land 0x40000080040240 M = _ := sub_trans rfl hM
  repeat' (first | with_reducible assumption | with_reducible apply State.updStream_fr k0 | with_reducible apply syncChange_fr k1 | with_reducible apply lowWater_fr k2 | with_reducible apply foldl_fr | with_reducible apply foldl_fr_fst | (intro _ _ _) | split | dsimp only)

theorem batchSeal_fr {z : State} {M : Nat} (hM : Nat.land 0x400040903c0270 M = 0x400040903c0270) (s : State) (n waitUs : Nat) (hs : s.hide M = z.hide M) :
    (batchSeal s n waitUs).hide M = z.hide M := by
  unfold batchSeal
  have k0 : Nat.land 0x4090380270 M = _ := sub_trans rfl hM
  have k1 : Nat.land 0x80000000 M = _ := sub_trans rfl hM
  have k2 : Nat.land 0x40000080040240 M = _ := sub_trans rfl hM
  have k3 : Nat.land 0x40 M = _ := sub_trans rfl hM
  have k4 : Nat.land 0x40000080040240 M = _ := sub_trans rfl hM
  have k5 : Nat.land 0x4010000270 M = _ := sub_trans rfl hM
  repeat' (first | with_reducible assumption | with_reducible apply endStream_fr k0 | with_reducible apply State.updStream_fr k1 | with_reducible apply sealLow_fr k2 | with_reducible apply streamCount_fr k3 | with_reducible apply syncChange_fr k4 | with_reducible apply writeBatch_fr k5 | with_reducible apply foldl_fr | with_reducible apply foldl_fr_fst | (intro _ _ _) | split | dsimp only)

theorem portDown_fr {z : State} {M : Nat} (hM : Nat.land 0x40004013380272 M = 0x40004013380272) (s : State) (p : Nat) (st : PortState) (hs : s.hide M = z.hide M) :
    (portDown s p st).hide M = z.hide M := by
  unfold portDown
  have k0 : Nat.land 0x40004013380272 M = _ := sub_trans rfl hM
  have k1 : Nat.land 0x40000000000000 M = _ := sub_trans rfl hM
  have k2 : Nat.land 0x1000000 M = _ := sub_trans rfl hM
  repeat' (first | with_reducible assumption | with_reducible apply loseData_fr k0 | with_reducible apply State.send_fr k1 | with_reducible apply State.updPort_fr k2 | with_reducible apply foldl_fr | with_reducible apply foldl_fr_fst | (intro _ _ _) | split)

theorem portFail_fr {z : State} {M : Nat} (hM : Nat.land 0x40004013380272 M = 0x40004013380272) (s : State) (p cause : Nat) (hs : s.hide M = z.hide M) :
    (portFail s p cause).hide M = z.hide M := by
  unfold portFail
  have k0 : Nat.land 0x40 M = _ := sub_trans rfl hM
  have k1 : Nat.land 0x40004013380272 M = _ := sub_trans rfl hM
  repeat' (first | with_reducible assumption | with_reducible apply logEvent_fr k0 | with_reducible apply portDown_fr k1)

theorem lightLoss_fr {z : State} {M : Nat} (hM : Nat.land 0x40004013380272 M = 0x40004013380272) (s : State) (r : Nat) (harnessOnly : Bool) (hs : s.hide M = z.hide M) :
    (lightLoss s r harnessOnly).hide M = z.hide M := by
  unfold lightLoss
  have k0 : Nat.land 0x40 M = _ := sub_trans rfl hM
  have k1 : Nat.land 0x40004013380272 M = _ := sub_trans rfl hM
  have k2 : Nat.land 0x1000000 M = _ := sub_trans rfl hM
  repeat' (first | with_reducible assumption | with_reducible apply logEvent_fr k0 | with_reducible apply portDown_fr k1 | with_reducible apply State.updPort_fr k2 | with_reducible apply foldl_fr | with_reducible apply foldl_fr_fst | (intro _ _ _) | split)

theorem sendIdent_fr {z : State} {M : Nat} (hM : Nat.land 0x40000000000000 M = 0x40000000000000) (s : State) (p : Nat) (hs : s.hide M = z.hide M) :
    (sendIdent s p).hide M = z.hide M := by
  unfold sendIdent
  have k0 : Nat.land 0x40000000000000 M = _ := sub_trans rfl hM
  repeat' (first | with_reducible assumption | with_reducible apply State.send_fr k0)

theorem portTraining_fr {z : State} {M : Nat} (hM : Nat.land 0x40004013380272 M = 0x40004013380272) (s : State) (p plane delay : Nat) (hs : s.hide M = z.hide M) :
    (portTraining s p plane delay).hide M = z.hide M := by
  unfold portTraining
  have k0 : Nat.land 0x40 M = _ := sub_trans rfl hM
  have k1 : Nat.land 0x40004013380272 M = _ := sub_trans rfl hM
  have k2 : Nat.land 0x1000000 M = _ := sub_trans rfl hM
  have k3 : Nat.land 0x40000000000000 M = _ := sub_trans rfl hM
  repeat' (first | with_reducible assumption | with_reducible apply State.odSet_fr k0 | with_reducible apply portFail_fr k1 | with_reducible apply State.setPort_fr k2 | with_reducible apply sendIdent_fr k3 | with_reducible apply foldl_fr | with_reducible apply foldl_fr_fst | (intro _ _ _) | split)

theorem portTrainingTimeout_fr {z : State} {M : Nat} (hM : Nat.land 0x40004013380272 M = 0x40004013380272) (s : State) (p step : Nat) (hs : s.hide M = z.hide M) :
    (portTrainingTimeout s p step).hide M = z.hide M := by
  unfold portTrainingTimeout
  have k0 : Nat.land 0x40004013380272 M = _ := sub_trans rfl hM
  have k1 : Nat.land 0x40 M = _ := sub_trans rfl hM
  have k2 : Nat.land 0x40000000000000 M = _ := sub_trans rfl hM
  repeat' (first | with_reducible assumption | with_reducible apply portFail_fr k0 | with_reducible apply State.odSet_fr k1 | with_reducible apply sendIdent_fr k2 | with_reducible apply foldl_fr | with_reducible apply foldl_fr_fst | (intro _ _ _) | split)

theorem lockLoss_fr {z : State} {M : Nat} (hM : Nat.land 0x40004013380272 M = 0x40004013380272) (s : State) (p member : Nat) (replays : Bool) (hs : s.hide M = z.hide M) :
    (lockLoss s p member replays).hide M = z.hide M := by
  unfold lockLoss
  have k0 : Nat.land 0x40004013380272 M = _ := sub_trans rfl hM
  have k1 : Nat.land 0x40004013380272 M = _ := sub_trans rfl hM
  repeat' (first | with_reducible assumption | with_reducible apply loseData_fr k0 | with_reducible apply portFail_fr k1 | with_reducible apply foldl_fr | with_reducible apply foldl_fr_fst | (intro _ _ _) | split)

theorem calibratePort_fr {z : State} {M : Nat} (hM : Nat.land 0x1000000 M = 0x1000000) (s : State) (p : Nat) (harness : Bool) (hs : s.hide M = z.hide M) :
    (calibratePort s p harness).hide M = z.hide M := by
  unfold calibratePort
  have k0 : Nat.land 0x1000000 M = _ := sub_trans rfl hM
  repeat' (first | with_reducible assumption | with_reducible apply State.updPort_fr k0)

theorem calibrateAll_fr {z : State} {M : Nat} (hM : Nat.land 0x1000000 M = 0x1000000) (s : State) (hs : s.hide M = z.hide M) :
    (calibrateAll s).hide M = z.hide M := by
  unfold calibrateAll
  have k0 : Nat.land 0x1000000 M = _ := sub_trans rfl hM
  have k1 : Nat.land 0x1000000 M = _ := sub_trans rfl hM
  repeat' (first | with_reducible assumption | with_reducible apply calibratePort_fr k0 | with_reducible apply State.updPort_fr k1 | with_reducible apply foldl_fr | with_reducible apply foldl_fr_fst | (intro _ _ _))

theorem calibrationDone_fr {z : State} {M : Nat} (hM : Nat.land 0x1000000 M = 0x1000000) (s : State) (p : Nat) (hs : s.hide M = z.hide M) :
    (calibrationDone s p).hide M = z.hide M := by
  unfold calibrationDone
  have k0 : Nat.land 0x1000000 M = _ := sub_trans rfl hM
  repeat' (first | with_reducible assumption | with_reducible apply State.updPort_fr k0 | with_reducible apply foldl_fr | with_reducible apply foldl_fr_fst | (intro _ _ _) | split)

theorem endIdle_fr {z : State} {M : Nat} (hM : Nat.land 0x41000000 M = 0x41000000) (s : State) (hs : s.hide M = z.hide M) :
    (endIdle s).hide M = z.hide M := by
  unfold endIdle
  have k0 : Nat.land 0x1000000 M = _ := sub_trans rfl hM
  have b1 : M.testBit 30 = true := sub_bit hM rfl
  repeat' (first | with_reducible assumption | simp only [State.hide_pllIdle b1] | with_reducible apply State.updPort_fr k0 | with_reducible apply foldl_fr | with_reducible apply foldl_fr_fst | (intro _ _ _) | split)

theorem resumePorts_fr {z : State} {M : Nat} (hM : Nat.land 0x40000001000000 M = 0x40000001000000) (s : State) (ps : List Nat) (hs : s.hide M = z.hide M) :
    (resumePorts s ps).hide M = z.hide M := by
  unfold resumePorts
  have k0 : Nat.land 0x40000001000000 M = _ := sub_trans rfl hM
  repeat' (first | with_reducible assumption | with_reducible apply pump_fr k0 | with_reducible apply foldl_fr)

theorem flitRetry_fr {z : State} {M : Nat} (hM : Nat.land 0x40004013380272 M = 0x40004013380272) (s : State) (port header : Nat) (payload : List Byte) (fec unc : Nat) (hs : s.hide M = z.hide M) :
    (flitRetry s port header payload fec unc).hide M = z.hide M := by
  unfold flitRetry
  have k0 : Nat.land 0x40000000000000 M = _ := sub_trans rfl hM
  have k1 : Nat.land 0x40004013380272 M = _ := sub_trans rfl hM
  have k2 : Nat.land 0x40 M = _ := sub_trans rfl hM
  have k3 : Nat.land 0x40004011380270 M = _ := sub_trans rfl hM
  have k4 : Nat.land 0x1000000 M = _ := sub_trans rfl hM
  repeat' (first | with_reducible assumption | with_reducible apply emit_fr k0 | with_reducible apply portFail_fr k1 | with_reducible apply State.odAdd_fr k2 | with_reducible apply receive_fr k3 | with_reducible apply State.setPort_fr k4 | with_reducible apply foldl_fr | with_reducible apply foldl_fr_fst | (intro _ _ _) | split | dsimp only)

theorem bumpSeq_fr {z : State} {M : Nat} (hM : Nat.land 0x8000000 M = 0x8000000) (s : State) (ctx group : Nat) (hs : s.hide M = z.hide M) :
    (bumpSeq s ctx group).hide M = z.hide M := by
  unfold bumpSeq
  have b0 : M.testBit 27 = true := sub_bit hM rfl
  repeat' (first | with_reducible assumption | simp only [State.hide_fabSeqs b0])

theorem fabCommand_fr {z : State} {M : Nat} (hM : Nat.land 0x4000401f380274 M = 0x4000401f380274) (s : State) (id kind : Nat) (hs : s.hide M = z.hide M) :
    (fabCommand s id kind).hide M = z.hide M := by
  unfold fabCommand
  have k0 : Nat.land 0x40004017380270 M = _ := sub_trans rfl hM
  have k1 : Nat.land 0x8000000 M = _ := sub_trans rfl hM
  have k2 : Nat.land 0x4010380270 M = _ := sub_trans rfl hM
  have k3 : Nat.land 0x4 M = _ := sub_trans rfl hM
  have k4 : Nat.land 0x200000 M = _ := sub_trans rfl hM
  repeat' (first | with_reducible assumption | with_reducible apply addFab_fr k0 | with_reducible apply bumpSeq_fr k1 | with_reducible apply complete_fr k2 | with_reducible apply State.fresh_fr k3 | with_reducible apply State.updCmd_fr k4 | with_reducible apply foldl_fr | with_reducible apply foldl_fr_fst | (intro _ _ _) | split | dsimp only)

theorem fabTimeout_fr {z : State} {M : Nat} (hM : Nat.land 0x4012380270 M = 0x4012380270) (s : State) (id : Nat) (hs : s.hide M = z.hide M) :
    (fabTimeout s id).hide M = z.hide M := by
  unfold fabTimeout
  have k0 : Nat.land 0x4012380270 M = _ := sub_trans rfl hM
  repeat' (first | with_reducible assumption | with_reducible apply endFab_fr k0 | with_reducible apply foldl_fr | with_reducible apply foldl_fr_fst | (intro _ _ _) | split)

end Sys2Proof.Machine
end

