-- ==== Sys2Proof/Laws/FrameJobs.lean ====
section
/-! SUPPORT. What each operation over training, snapshots, jobs, contexts and the vector unit can change:
the fields of its mask (`State.hide`), and nothing else. -/

namespace Sys2Proof.Machine

theorem clearNorms_fr {z : State} {M : Nat} (hM : Nat.land 0x4010000270 M = 0x4010000270) (s : State) (x : Ctx) (hs : s.hide M = z.hide M) :
    (clearNorms s x).hide M = z.hide M := by
  unfold clearNorms
  have k0 : Nat.land 0x4010000270 M = _ := sub_trans rfl hM
  repeat' (first | with_reducible assumption | with_reducible apply State.storeP_fr k0 | with_reducible apply foldl_fr | with_reducible apply foldl_fr_fst | (intro _ _ _))

theorem unpoisonStage_fr {z : State} {M : Nat} (hM : Nat.land 0x20 M = 0x20) (s : State) (ctx : Nat) (hs : s.hide M = z.hide M) :
    (unpoisonStage s ctx).hide M = z.hide M := by
  unfold unpoisonStage
  have b0 : M.testBit 5 = true := sub_bit hM rfl
  repeat' (first | with_reducible assumption | simp only [State.hide_poison b0])

theorem readmit_fr {z : State} {M : Nat} (hM : Nat.land 0x40004013000272 M = 0x40004013000272) (s : State) (planes : Nat) (hs : s.hide M = z.hide M) :
    (readmit s planes).hide M = z.hide M := by
  unfold readmit
  have k0 : Nat.land 0x40004013000272 M = _ := sub_trans rfl hM
  have k1 : Nat.land 0x40 M = _ := sub_trans rfl hM
  repeat' (first | with_reducible assumption | with_reducible apply restripeOp_fr k0 | with_reducible apply State.odSet_fr k1 | with_reducible apply foldl_fr | with_reducible apply foldl_fr_fst | (intro _ _ _) | split | dsimp only)

theorem tellShards_fr {z : State} {M : Nat} (hM : Nat.land 0x40000000000000 M = 0x40000000000000) (s : State) (c : Cmd) (hs : s.hide M = z.hide M) :
    (tellShards s c).hide M = z.hide M := by
  unfold tellShards
  have k0 : Nat.land 0x40000000000000 M = _ := sub_trans rfl hM
  repeat' (first | with_reducible assumption | with_reducible apply State.send_fr k0 | with_reducible apply foldl_fr | with_reducible apply foldl_fr_fst | (intro _ _ _) | split | dsimp only)

theorem stepOpen_fr {z : State} {M : Nat} (hM : Nat.land 0x40004013380272 M = 0x40004013380272) (s : State) (id : Nat) (others : List (List Nat)) (planes : Nat) (hs : s.hide M = z.hide M) :
    (stepOpen s id others planes).hide M = z.hide M := by
  unfold stepOpen
  have k0 : Nat.land 0x4010000270 M = _ := sub_trans rfl hM
  have k1 : Nat.land 0x4010380270 M = _ := sub_trans rfl hM
  have k2 : Nat.land 0x40004013000272 M = _ := sub_trans rfl hM
  have k3 : Nat.land 0x80000 M = _ := sub_trans rfl hM
  have k4 : Nat.land 0x4000000070 M = _ := sub_trans rfl hM
  have k5 : Nat.land 0x40000000000000 M = _ := sub_trans rfl hM
  have k6 : Nat.land 0x20 M = _ := sub_trans rfl hM
  have k7 : Nat.land 0x200000 M = _ := sub_trans rfl hM
  repeat' (first | with_reducible assumption | with_reducible apply clearNorms_fr k0 | with_reducible apply complete_fr k1 | with_reducible apply readmit_fr k2 | with_reducible apply State.updCtx_fr k3 | with_reducible apply sliceLoads_fr k4 | with_reducible apply tellShards_fr k5 | with_reducible apply unpoisonStage_fr k6 | with_reducible apply State.updCmd_fr k7 | with_reducible apply foldl_fr | with_reducible apply foldl_fr_fst | (intro _ _ _) | split | dsimp only)

theorem clearHomes_fr {z : State} {M : Nat} (hM : Nat.land 0x4010090270 M = 0x4010090270) (s : State) (ctx : Nat) (x : Ctx) (gmap : List Nat) (hs : s.hide M = z.hide M) :
    (clearHomes s ctx x gmap).hide M = z.hide M := by
  unfold clearHomes
  have k0 : Nat.land 0x4010000270 M = _ := sub_trans rfl hM
  have k1 : Nat.land 0x80000 M = _ := sub_trans rfl hM
  have b2 : M.testBit 16 = true := sub_bit hM rfl
  repeat' (first | with_reducible assumption | simp only [State.hide_welt b2] | with_reducible apply State.storeP_fr k0 | with_reducible apply State.updCtx_fr k1 | with_reducible apply foldl_fr | with_reducible apply foldl_fr_fst | (intro _ _ _))

theorem gatherEntry_fr {z : State} {M : Nat} (hM : Nat.land 0x4010002270 M = 0x4010002270) (s0 : State) (ctx : Nat) (x : Ctx) (gmap : List Nat) (s : State) (i e : Nat) (hs0 : s0.hide M = z.hide M) (hs : s.hide M = z.hide M) :
    (gatherEntry s0 ctx x gmap s i e).hide M = z.hide M := by
  unfold gatherEntry
  have k0 : Nat.land 0x4010000270 M = _ := sub_trans rfl hM
  have k1 : Nat.land 0x2000 M = _ := sub_trans rfl hM
  have k2 : Nat.land 0x4010000270 M = _ := sub_trans rfl hM
  repeat' (first | with_reducible assumption | with_reducible apply addStored_fr k0 | with_reducible apply State.orClusterFlags_fr k1 | with_reducible apply State.storeP_fr k2 | with_reducible apply foldl_fr | with_reducible apply foldl_fr_fst | (intro _ _ _) | split)

theorem noteGathers_fr {z : State} {M : Nat} (hM : Nat.land 0x80000 M = 0x80000) (s : State) (hs : s.hide M = z.hide M) :
    (noteGathers s).hide M = z.hide M := by
  unfold noteGathers
  have b0 : M.testBit 19 = true := sub_bit hM rfl
  repeat' (first | with_reducible assumption | simp only [State.hide_ctxs b0])

theorem gather_fr {z : State} {M : Nat} (hM : Nat.land 0x4010092270 M = 0x4010092270) (s : State) (ctx : Nat) (hs : s.hide M = z.hide M) :
    (gather s ctx).hide M = z.hide M := by
  unfold gather
  have k0 : Nat.land 0x4010090270 M = _ := sub_trans rfl hM
  have k1 : Nat.land 0x4010002270 M = _ := sub_trans rfl hM
  have k2 : Nat.land 0x80000 M = _ := sub_trans rfl hM
  repeat' (first | with_reducible assumption | with_reducible apply clearHomes_fr k0 | with_reducible apply gatherEntry_fr k1 | with_reducible apply State.updCtx_fr k2 | with_reducible apply foldl_fr | with_reducible apply foldl_fr_fst | (intro _ _ _) | split)

theorem updStep'_fr {z : State} {M : Nat} (hM : Nat.land 0x80000 M = 0x80000) (s : State) (ctx : Nat) (f : Step → Step) (hs : s.hide M = z.hide M) :
    (updStep' s ctx f).hide M = z.hide M := by
  unfold updStep'
  have k0 : Nat.land 0x80000 M = _ := sub_trans rfl hM
  repeat' (first | with_reducible assumption | with_reducible apply State.updCtx_fr k0)

theorem exchange_fr {z : State} {M : Nat} (hM : Nat.land 0x40004017380274 M = 0x40004017380274) (s : State) (ctx : Nat) (hs : s.hide M = z.hide M) :
    (exchange s ctx).hide M = z.hide M := by
  unfold exchange
  have k0 : Nat.land 0x40004017380270 M = _ := sub_trans rfl hM
  have k1 : Nat.land 0x4 M = _ := sub_trans rfl hM
  repeat' (first | with_reducible assumption | with_reducible apply addFab_fr k0 | with_reducible apply State.fresh_fr k1 | with_reducible apply foldl_fr | with_reducible apply foldl_fr_fst | (intro _ _ _) | split)

theorem updatePlacement_fr {z : State} {M : Nat} (hM : Nat.land 0x80000 M = 0x80000) (s : State) (ctx k : Nat) (lens : List Nat) (hs : s.hide M = z.hide M) :
    (updatePlacement s ctx k lens).hide M = z.hide M := by
  unfold updatePlacement
  have k0 : Nat.land 0x80000 M = _ := sub_trans rfl hM
  repeat' (first | with_reducible assumption | with_reducible apply State.setCtx_fr k0 | with_reducible apply foldl_fr | with_reducible apply foldl_fr_fst | (intro _ _ _) | split | dsimp only)

theorem putTally_fr {z : State} {M : Nat} (hM : Nat.land 0x80000 M = 0x80000) (s : State) (ctx : Nat) (v : Tally) (hs : s.hide M = z.hide M) :
    (putTally s ctx v).hide M = z.hide M := by
  unfold putTally
  have k0 : Nat.land 0x80000 M = _ := sub_trans rfl hM
  repeat' (first | with_reducible assumption | with_reducible apply State.updCtx_fr k0)

theorem castVote_fr {z : State} {M : Nat} (hM : Nat.land 0x40000000080000 M = 0x40000000080000) (s : State) (ctx : Nat) (x : Ctx) (t : Step) (v : Vote) (hs : s.hide M = z.hide M) :
    (castVote s ctx x t v).hide M = z.hide M := by
  unfold castVote
  have k0 : Nat.land 0x80000 M = _ := sub_trans rfl hM
  have k1 : Nat.land 0x40000000000000 M = _ := sub_trans rfl hM
  have k2 : Nat.land 0x80000 M = _ := sub_trans rfl hM
  repeat' (first | with_reducible assumption | with_reducible apply putTally_fr k0 | with_reducible apply State.send_fr k1 | with_reducible apply updStep'_fr k2 | with_reducible apply foldl_fr | with_reducible apply foldl_fr_fst | (intro _ _ _) | split | dsimp only)

theorem voteCast_fr {z : State} {M : Nat} (hM : Nat.land 0x40000000080000 M = 0x40000000080000) (s : State) (ctx : Nat) (hs : s.hide M = z.hide M) :
    (voteCast s ctx).hide M = z.hide M := by
  unfold voteCast
  have k0 : Nat.land 0x40000000080000 M = _ := sub_trans rfl hM
  repeat' (first | with_reducible assumption | with_reducible apply castVote_fr k0 | with_reducible apply foldl_fr | with_reducible apply foldl_fr_fst | (intro _ _ _) | split)

theorem voteReceive_fr {z : State} {M : Nat} (hM : Nat.land 0x80000 M = 0x80000) (s : State) (ctx : Nat) (v : Tally) (hs : s.hide M = z.hide M) :
    (voteReceive s ctx v).hide M = z.hide M := by
  unfold voteReceive
  have k0 : Nat.land 0x80000 M = _ := sub_trans rfl hM
  repeat' (first | with_reducible assumption | with_reducible apply putTally_fr k0 | with_reducible apply foldl_fr | with_reducible apply foldl_fr_fst | (intro _ _ _) | split)

theorem countMissing_fr {z : State} {M : Nat} (hM : Nat.land 0x2000000000 M = 0x2000000000) (s : State) (fails : List (Nat × Nat)) (hs : s.hide M = z.hide M) :
    (countMissing s fails).hide M = z.hide M := by
  unfold countMissing
  have b0 : M.testBit 37 = true := sub_bit hM rfl
  repeat' (first | with_reducible assumption | simp only [State.hide_missing b0])

theorem setOutcome_fr {z : State} {M : Nat} (hM : Nat.land 0x2000080000 M = 0x2000080000) (s : State) (ctx : Nat) (commit : Bool) (flags : Nat) (fails : List (Nat × Nat)) (norms : List (List Nat)) (hs : s.hide M = z.hide M) :
    (setOutcome s ctx commit flags fails norms).hide M = z.hide M := by
  unfold setOutcome
  have k0 : Nat.land 0x2000000000 M = _ := sub_trans rfl hM
  have k1 : Nat.land 0x80000 M = _ := sub_trans rfl hM
  repeat' (first | with_reducible assumption | with_reducible apply countMissing_fr k0 | with_reducible apply updStep'_fr k1)

theorem tallyVotes_fr {z : State} {M : Nat} (hM : Nat.land 0x40002000080000 M = 0x40002000080000) (s : State) (ctx : Nat) (hs : s.hide M = z.hide M) :
    (tallyVotes s ctx).hide M = z.hide M := by
  unfold tallyVotes
  have k0 : Nat.land 0x40000000000000 M = _ := sub_trans rfl hM
  have k1 : Nat.land 0x80000 M = _ := sub_trans rfl hM
  have k2 : Nat.land 0x2000080000 M = _ := sub_trans rfl hM
  repeat' (first | with_reducible assumption | with_reducible apply State.send_fr k0 | with_reducible apply State.updCtx_fr k1 | with_reducible apply setOutcome_fr k2 | with_reducible apply foldl_fr | with_reducible apply foldl_fr_fst | (intro _ _ _) | split | dsimp only)

theorem orphanVotes_fr {z : State} {M : Nat} (hM : Nat.land 0x40002000080000 M = 0x40002000080000) (s : State) (ctx : Nat) (x : Ctx) (hs : s.hide M = z.hide M) :
    (orphanVotes s ctx x).hide M = z.hide M := by
  unfold orphanVotes
  have k0 : Nat.land 0x2000000000 M = _ := sub_trans rfl hM
  have k1 : Nat.land 0x80000 M = _ := sub_trans rfl hM
  have k2 : Nat.land 0x40000000000000 M = _ := sub_trans rfl hM
  repeat' (first | with_reducible assumption | with_reducible apply countMissing_fr k0 | with_reducible apply State.updCtx_fr k1 | with_reducible apply State.send_fr k2 | with_reducible apply foldl_fr | with_reducible apply foldl_fr_fst | (intro _ _ _))

theorem clearWords_fr {z : State} {M : Nat} (hM : Nat.land 0xf000 M = 0xf000) (s : State) (hs : s.hide M = z.hide M) :
    (clearWords s).hide M = z.hide M := by
  unfold clearWords
  have b0 : M.testBit 12 = true := sub_bit hM rfl
  have b1 : M.testBit 13 = true := sub_bit hM rfl
  have b2 : M.testBit 14 = true := sub_bit hM rfl
  have b3 : M.testBit 15 = true := sub_bit hM rfl
  repeat' (first | with_reducible assumption | simp only [State.hide_cellFlags_clusterFlags_moduleFlags_stepWord b0 b1 b2 b3] | with_reducible apply foldl_fr | with_reducible apply foldl_fr_fst | (intro _ _ _) | split)

theorem voteDeadline_fr {z : State} {M : Nat} (hM : Nat.land 0x4000200008f000 M = 0x4000200008f000) (s : State) (ctx : Nat) (hs : s.hide M = z.hide M) :
    (voteDeadline s ctx).hide M = z.hide M := by
  unfold voteDeadline
  have k0 : Nat.land 0x40000000080000 M = _ := sub_trans rfl hM
  have k1 : Nat.land 0xf000 M = _ := sub_trans rfl hM
  have k2 : Nat.land 0x40002000080000 M = _ := sub_trans rfl hM
  have k3 : Nat.land 0x40002000080000 M = _ := sub_trans rfl hM
  have k4 : Nat.land 0x80000 M = _ := sub_trans rfl hM
  repeat' (first | with_reducible assumption | with_reducible apply castVote_fr k0 | with_reducible apply clearWords_fr k1 | with_reducible apply orphanVotes_fr k2 | with_reducible apply tallyVotes_fr k3 | with_reducible apply updStep'_fr k4 | with_reducible apply foldl_fr | with_reducible apply foldl_fr_fst | (intro _ _ _) | split | dsimp only)

theorem outcomeReceive_fr {z : State} {M : Nat} (hM : Nat.land 0x2000080000 M = 0x2000080000) (s : State) (ctx tc : Nat) (commit : Bool) (flags : Nat) (fails : List (Nat × Nat)) (norms : List (List Nat)) (hs : s.hide M = z.hide M) :
    (outcomeReceive s ctx tc commit flags fails norms).hide M = z.hide M := by
  unfold outcomeReceive
  have k0 : Nat.land 0x2000080000 M = _ := sub_trans rfl hM
  repeat' (first | with_reducible assumption | with_reducible apply setOutcome_fr k0 | with_reducible apply foldl_fr | with_reducible apply foldl_fr_fst | (intro _ _ _) | split)

theorem writeNorms_fr {z : State} {M : Nat} (hM : Nat.land 0x4010000270 M = 0x4010000270) (s : State) (t : Step) (hs : s.hide M = z.hide M) :
    (writeNorms s t).hide M = z.hide M := by
  unfold writeNorms
  have k0 : Nat.land 0x4010000270 M = _ := sub_trans rfl hM
  repeat' (first | with_reducible assumption | with_reducible apply State.reachStore_fr k0 | with_reducible apply foldl_fr | with_reducible apply foldl_fr_fst | (intro _ _ _))

theorem dropStep_fr {z : State} {M : Nat} (hM : Nat.land 0x40000082060240 M = 0x40000082060240) (s : State) (ctx : Nat) (cmd : Nat) (hs : s.hide M = z.hide M) :
    (dropStep s ctx cmd).hide M = z.hide M := by
  unfold dropStep
  have k0 : Nat.land 0x40000080060240 M = _ := sub_trans rfl hM
  have b1 : M.testBit 25 = true := sub_bit hM rfl
  repeat' (first | with_reducible assumption | simp only [State.hide_fab b1] | with_reducible apply abandon_fr k0 | with_reducible fail | with_reducible apply foldl_fr | with_reducible apply foldl_fr_fst | (intro _ _ _) | split)

theorem abortSnaps_fr {z : State} {M : Nat} (hM : Nat.land 0x4010380270 M = 0x4010380270) (s : State) (ctx step : Nat) (hs : s.hide M = z.hide M) :
    (abortSnaps s ctx step).hide M = z.hide M := by
  unfold abortSnaps
  have k0 : Nat.land 0x4010380270 M = _ := sub_trans rfl hM
  have b1 : M.testBit 28 = true := sub_bit hM rfl
  repeat' (first | with_reducible assumption | simp only [State.hide_snaps b1] | with_reducible apply complete_fr k0 | with_reducible apply foldl_fr | with_reducible apply foldl_fr_fst | (intro _ _ _))

theorem closeStep_fr {z : State} {M : Nat} (hM : Nat.land 0x4010380270 M = 0x4010380270) (s : State) (ctx : Nat) (t : Step) (bank status : Nat) (hs : s.hide M = z.hide M) :
    (closeStep s ctx t bank status).hide M = z.hide M := by
  unfold closeStep
  have k0 : Nat.land 0x4010380270 M = _ := sub_trans rfl hM
  have k1 : Nat.land 0x40 M = _ := sub_trans rfl hM
  have k2 : Nat.land 0x4010000270 M = _ := sub_trans rfl hM
  have k3 : Nat.land 0x80000 M = _ := sub_trans rfl hM
  have k4 : Nat.land 0x4010000270 M = _ := sub_trans rfl hM
  repeat' (first | with_reducible assumption | with_reducible apply complete_fr k0 | with_reducible apply State.odSet_fr k1 | with_reducible apply State.reachStore_fr k2 | with_reducible apply State.updCtx_fr k3 | with_reducible apply writeNorms_fr k4)

theorem applyOutcome_fr {z : State} {M : Nat} (hM : Nat.land 0x400040923f0270 M = 0x400040923f0270) (s : State) (ctx : Nat) (x : Ctx) (t : Step) (hs : s.hide M = z.hide M) :
    (applyOutcome s ctx x t).hide M = z.hide M := by
  unfold applyOutcome
  have k0 : Nat.land 0x4010380270 M = _ := sub_trans rfl hM
  have k1 : Nat.land 0x4010090270 M = _ := sub_trans rfl hM
  have k2 : Nat.land 0x4010380270 M = _ := sub_trans rfl hM
  have k3 : Nat.land 0x40000082060240 M = _ := sub_trans rfl hM
  have k4 : Nat.land 0x40 M = _ := sub_trans rfl hM
  have k5 : Nat.land 0x80000 M = _ := sub_trans rfl hM
  repeat' (first | with_reducible assumption | with_reducible apply abortSnaps_fr k0 | with_reducible apply clearHomes_fr k1 | with_reducible apply closeStep_fr k2 | with_reducible apply dropStep_fr k3 | with_reducible apply logEvent_fr k4 | with_reducible apply State.updCtx_fr k5 | with_reducible apply foldl_fr | with_reducible apply foldl_fr_fst | (intro _ _ _) | split)

theorem outcomeApply_fr {z : State} {M : Nat} (hM : Nat.land 0x400040923f0270 M = 0x400040923f0270) (s : State) (ctx : Nat) (hs : s.hide M = z.hide M) :
    (outcomeApply s ctx).hide M = z.hide M := by
  unfold outcomeApply
  have k0 : Nat.land 0x400040923f0270 M = _ := sub_trans rfl hM
  have k1 : Nat.land 0x40000000000000 M = _ := sub_trans rfl hM
  have k2 : Nat.land 0x80000 M = _ := sub_trans rfl hM
  repeat' (first | with_reducible assumption | with_reducible apply applyOutcome_fr k0 | with_reducible apply State.send_fr k1 | with_reducible apply updStep'_fr k2 | with_reducible apply foldl_fr | with_reducible apply foldl_fr_fst | (intro _ _ _) | split)

theorem stepGather_fr {z : State} {M : Nat} (hM : Nat.land 0x40004017380274 M = 0x40004017380274) (s : State) (ctx : Nat) (hs : s.hide M = z.hide M) :
    (stepGather s ctx).hide M = z.hide M := by
  unfold stepGather
  have k0 : Nat.land 0x40004017380270 M = _ := sub_trans rfl hM
  have k1 : Nat.land 0x4 M = _ := sub_trans rfl hM
  have k2 : Nat.land 0x40000000000000 M = _ := sub_trans rfl hM
  repeat' (first | with_reducible assumption | with_reducible apply addFab_fr k0 | with_reducible apply State.fresh_fr k1 | with_reducible apply State.send_fr k2 | with_reducible apply foldl_fr | with_reducible apply foldl_fr_fst | (intro _ _ _) | split)

theorem gatherLanded_fr {z : State} {M : Nat} (hM : Nat.land 0x400000900c0240 M = 0x400000900c0240) (s : State) (o : FabOp) (hs : s.hide M = z.hide M) :
    (gatherLanded s o).hide M = z.hide M := by
  unfold gatherLanded
  have k0 : Nat.land 0x80000 M = _ := sub_trans rfl hM
  have k1 : Nat.land 0x40000080040240 M = _ := sub_trans rfl hM
  have b2 : M.testBit 28 = true := sub_bit hM rfl
  repeat' (first | with_reducible assumption | simp only [State.hide_snaps b2] | with_reducible apply State.updCtx_fr k0 | with_reducible apply syncChange_fr k1 | with_reducible apply foldl_fr | with_reducible apply foldl_fr_fst | (intro _ _ _) | split)

theorem fabOpComplete_fr {z : State} {M : Nat} (hM : Nat.land 0x400040923c0270 M = 0x400040923c0270) (s : State) (id : Nat) (faulty : Option Nat) (hs : s.hide M = z.hide M) :
    (fabOpComplete s id faulty).hide M = z.hide M := by
  unfold fabOpComplete
  have k0 : Nat.land 0x2000000 M = _ := sub_trans rfl hM
  have k1 : Nat.land 0x400040923c0270 M = _ := sub_trans rfl hM
  have k2 : Nat.land 0x400000900c0240 M = _ := sub_trans rfl hM
  have k3 : Nat.land 0x80000 M = _ := sub_trans rfl hM
  repeat' (first | with_reducible assumption | with_reducible apply dropFab_fr k0 | with_reducible fail | with_reducible apply fabComplete_fr k1 | with_reducible apply gatherLanded_fr k2 | with_reducible fail | with_reducible apply updStep'_fr k3 | with_reducible apply foldl_fr | with_reducible apply foldl_fr_fst | (intro _ _ _) | split | dsimp only)

theorem mirrorOps_fr {z : State} {M : Nat} (hM : Nat.land 0x40004017380274 M = 0x40004017380274) (s : State) (ctx : Nat) (x : Ctx) (t : Step) (k : Nat) (hs : s.hide M = z.hide M) :
    (mirrorOps s ctx x t k).hide M = z.hide M := by
  unfold mirrorOps
  have k0 : Nat.land 0x40004017380270 M = _ := sub_trans rfl hM
  have k1 : Nat.land 0x4 M = _ := sub_trans rfl hM
  repeat' (first | with_reducible assumption | with_reducible apply addFab_fr k0 | with_reducible apply State.fresh_fr k1 | with_reducible apply foldl_fr | with_reducible apply foldl_fr_fst | (intro _ _ _))

theorem mirror_fr {z : State} {M : Nat} (hM : Nat.land 0x40004017380274 M = 0x40004017380274) (s : State) (ctx k : Nat) (hs : s.hide M = z.hide M) :
    (mirror s ctx k).hide M = z.hide M := by
  unfold mirror
  have k0 : Nat.land 0x40004017380274 M = _ := sub_trans rfl hM
  have k2 : Nat.land 0x80000 M = _ := sub_trans rfl hM
  repeat' (first | with_reducible assumption | with_reducible apply updStep'_fr k2 | with_reducible apply mirrorOps_fr k0 | with_reducible apply foldl_fr | with_reducible apply foldl_fr_fst | (intro _ _ _) | split | dsimp only)

theorem mirrorAck_fr {z : State} {M : Nat} (hM : Nat.land 0x2080000 M = 0x2080000) (s : State) (ctx k : Nat) (hs : s.hide M = z.hide M) :
    (mirrorAck s ctx k).hide M = z.hide M := by
  unfold mirrorAck
  have k0 : Nat.land 0x80000 M = _ := sub_trans rfl hM
  have b1 : M.testBit 25 = true := sub_bit hM rfl
  repeat' (first | with_reducible assumption | simp only [State.hide_fab b1] | with_reducible fail | with_reducible apply updStep'_fr k0 | with_reducible apply foldl_fr | with_reducible apply foldl_fr_fst | (intro _ _ _) | split)

theorem snapshot_fr {z : State} {M : Nat} (hM : Nat.land 0x84010380274 M = 0x84010380274) (s : State) (id : Nat) (busMaster : Bool) (hs : s.hide M = z.hide M) :
    (snapshot s id busMaster).hide M = z.hide M := by
  unfold snapshot
  have k0 : Nat.land 0x4010380270 M = _ := sub_trans rfl hM
  have k1 : Nat.land 0x4 M = _ := sub_trans rfl hM
  have k2 : Nat.land 0x200000 M = _ := sub_trans rfl hM
  have k3 : Nat.land 0x80000000000 M = _ := sub_trans rfl hM
  have b4 : M.testBit 28 = true := sub_bit hM rfl
  repeat' (first | with_reducible assumption | simp only [State.hide_snaps b4] | with_reducible apply complete_fr k0 | with_reducible apply State.fresh_fr k1 | with_reducible apply State.updCmd_fr k2 | with_reducible apply State.setBme_fr k3 | with_reducible apply foldl_fr | with_reducible apply foldl_fr_fst | (intro _ _ _) | split)

theorem sendFlits_fr {z : State} {M : Nat} (hM : Nat.land 0x40000001000000 M = 0x40000001000000) (s : State) (p : Snap) (d : SnapD) (bs : List Byte) (hs : s.hide M = z.hide M) :
    (sendFlits s p d bs).hide M = z.hide M := by
  unfold sendFlits
  have k0 : Nat.land 0x40000001000000 M = _ := sub_trans rfl hM
  repeat' (first | with_reducible assumption | with_reducible apply enqueue_fr k0 | with_reducible apply foldl_fr | with_reducible apply foldl_fr_fst | (intro _ _ _))

theorem snapshotSend_fr {z : State} {M : Nat} (hM : Nat.land 0x40004011380270 M = 0x40004011380270) (s : State) (id : Nat) (hs : s.hide M = z.hide M) :
    (snapshotSend s id).hide M = z.hide M := by
  unfold snapshotSend
  have k0 : Nat.land 0x4010380270 M = _ := sub_trans rfl hM
  have k1 : Nat.land 0x40000000000000 M = _ := sub_trans rfl hM
  have k2 : Nat.land 0x40000001000000 M = _ := sub_trans rfl hM
  have k3 : Nat.land 0x4000000070 M = _ := sub_trans rfl hM
  have k4 : Nat.land 0x4010380270 M = _ := sub_trans rfl hM
  have b5 : M.testBit 28 = true := sub_bit hM rfl
  repeat' (first | with_reducible assumption | simp only [State.hide_snaps b5] | with_reducible apply complete_fr k0 | with_reducible apply State.send_fr k1 | with_reducible apply sendFlits_fr k2 | with_reducible apply sliceLoads_fr k3 | with_reducible apply snapsSent_fr k4 | with_reducible apply foldl_fr | with_reducible apply foldl_fr_fst | (intro _ _ _) | split)

theorem tellDigest_fr {z : State} {M : Nat} (hM : Nat.land 0x40000000000000 M = 0x40000000000000) (s : State) (d : Nat) (hs : s.hide M = z.hide M) :
    (tellDigest s d).hide M = z.hide M := by
  unfold tellDigest
  have k0 : Nat.land 0x40000000000000 M = _ := sub_trans rfl hM
  repeat' (first | with_reducible assumption | with_reducible apply State.send_fr k0 | with_reducible apply foldl_fr | with_reducible apply foldl_fr_fst | (intro _ _ _) | split)

theorem takePattern_fr {z : State} {M : Nat} (hM : Nat.land 0x4010380370 M = 0x4010380370) (s : State) (hs : s.hide M = z.hide M) :
    (takePattern s).hide M = z.hide M := by
  unfold takePattern
  have k0 : Nat.land 0x4010380270 M = _ := sub_trans rfl hM
  have b1 : M.testBit 8 = true := sub_bit hM rfl
  repeat' (first | with_reducible assumption | simp only [State.hide_job b1] | with_reducible apply complete_fr k0 | with_reducible apply foldl_fr | with_reducible apply foldl_fr_fst | (intro _ _ _) | split)

theorem patternTakeEffect_fr {z : State} {M : Nat} (hM : Nat.land 0x4010380370 M = 0x4010380370) (s : State) (hs : s.hide M = z.hide M) :
    (patternTakeEffect s).hide M = z.hide M := by
  unfold patternTakeEffect
  have k0 : Nat.land 0x4010380370 M = _ := sub_trans rfl hM
  repeat' (first | with_reducible assumption | with_reducible apply takePattern_fr k0 | with_reducible apply foldl_fr | with_reducible apply foldl_fr_fst | (intro _ _ _) | split)

theorem patternLoad_fr {z : State} {M : Nat} (hM : Nat.land 0x40004010380370 M = 0x40004010380370) (s : State) (id rootDigest : Nat) (hs : s.hide M = z.hide M) :
    (patternLoad s id rootDigest).hide M = z.hide M := by
  unfold patternLoad
  have k0 : Nat.land 0x4010380270 M = _ := sub_trans rfl hM
  have k1 : Nat.land 0x200000 M = _ := sub_trans rfl hM
  have k2 : Nat.land 0x40000000000000 M = _ := sub_trans rfl hM
  have b3 : M.testBit 8 = true := sub_bit hM rfl
  repeat' (first | with_reducible assumption | simp only [State.hide_job b3] | with_reducible apply complete_fr k0 | with_reducible apply State.updCmd_fr k1 | with_reducible apply tellDigest_fr k2 | with_reducible apply foldl_fr | with_reducible apply foldl_fr_fst | (intro _ _ _) | split)

theorem runMap_fr {z : State} {M : Nat} (hM : Nat.land 0x4010000270 M = 0x4010000270) (s : State) (d : VecD) (hs : s.hide M = z.hide M) :
    (runMap s d).1.hide M = z.hide M := by
  unfold runMap
  have k0 : Nat.land 0x4010000270 M = _ := sub_trans rfl hM
  repeat' (first | with_reducible assumption | with_reducible apply writeRow_fr k0 | with_reducible apply foldl_fr | with_reducible apply foldl_fr_fst | (intro _ _ _))

theorem mapCmd_fr {z : State} {M : Nat} (hM : Nat.land 0x4010000270 M = 0x4010000270) (s : State) (c code : Nat) (h : s.hide M = z.hide M) : (mapCmd s c code).hide M = z.hide M :=
  runUnit_fr (sub_trans rfl hM) s c .vector _ _ h fun _ _ => runMap_fr (sub_trans rfl hM) _ _ h

theorem runReduction_fr {z : State} {M : Nat} (hM : Nat.land 0x4010000270 M = 0x4010000270) (s : State) (d : VecD) (hs : s.hide M = z.hide M) :
    (runReduction s d).1.hide M = z.hide M := by
  unfold runReduction
  have k0 : Nat.land 0x4010000270 M = _ := sub_trans rfl hM
  repeat' (first | with_reducible assumption | with_reducible apply storeEls_fr k0)

theorem redCmd_fr {z : State} {M : Nat} (hM : Nat.land 0x4010000270 M = 0x4010000270) (s : State) (c code : Nat) (h : s.hide M = z.hide M) : (redCmd s c code).hide M = z.hide M :=
  runUnit_fr (sub_trans rfl hM) s c .vector _ _ h fun _ _ => runReduction_fr (sub_trans rfl hM) _ _ h

theorem runUpdate_fr {z : State} {M : Nat} (hM : Nat.land 0x4010000272 M = 0x4010000272) (s : State) (c : Nat) (d : UpdD) (hs : s.hide M = z.hide M) :
    (runUpdate s c d).1.hide M = z.hide M := by
  unfold runUpdate
  have k0 : Nat.land 0x2 M = _ := sub_trans rfl hM
  have k1 : Nat.land 0x200 M = _ := sub_trans rfl hM
  have k2 : Nat.land 0x30 M = _ := sub_trans rfl hM
  have k3 : Nat.land 0x4000000070 M = _ := sub_trans rfl hM
  have k4 : Nat.land 0x4010000270 M = _ := sub_trans rfl hM
  repeat' (first | with_reducible assumption | with_reducible apply State.draw_fr k0 | with_reducible apply State.updPiece_fr k1 | with_reducible apply State.reachView_fr k2 | with_reducible apply sliceLoads_fr k3 | with_reducible apply upEls_fr k4 | with_reducible apply foldl_fr | with_reducible apply foldl_fr_fst | (intro _ _ _) | split | dsimp only)

theorem updCmdRow_fr {z : State} {M : Nat} (hM : Nat.land 0x4010000272 M = 0x4010000272) (s : State) (c algo : Nat) (h : s.hide M = z.hide M) : (updCmdRow s c algo).hide M = z.hide M := by
  unfold updCmdRow
  split
  · exact h
  · exact runUnit_fr (sub_trans rfl hM) s c .vector _ _ h fun _ _ => runUpdate_fr (sub_trans rfl hM) _ _ _ h

theorem packRow_fr {z : State} {M : Nat} (hM : Nat.land 0x4010000270 M = 0x4010000270) (d : StemD) (a : State × Flags) (i : Nat) (h : a.1.hide M = z.hide M) : (packRow d a i).1.hide M = z.hide M :=
  writeRow_fr (sub_trans rfl hM) _ _ _ _ _ _ _ h

theorem unpackRow_fr {z : State} {M : Nat} (hM : Nat.land 0x4010000270 M = 0x4010000270) (d : StemD) (a : State × Flags) (i : Nat) (h : a.1.hide M = z.hide M) : (unpackRow d a i).1.hide M = z.hide M :=
  storeEls_fr (sub_trans rfl hM) _ _ h

theorem countStalls_fr {z : State} {M : Nat} (hM : Nat.land 0x800 M = 0x800) (s : State) (c n : Nat) (hs : s.hide M = z.hide M) :
    (countStalls s c n).hide M = z.hide M := by
  unfold countStalls
  have k0 : Nat.land 0x800 M = _ := sub_trans rfl hM
  repeat' (first | with_reducible assumption | with_reducible apply State.cellAdd_fr k0 | with_reducible apply foldl_fr | with_reducible apply foldl_fr_fst | (intro _ _ _) | split)

theorem putAccSector_fr {z : State} {M : Nat} (hM : Nat.land 0x200 M = 0x200) (s : State) (c : Nat) (t : Tile) (k : Nat) (d : List Nat) (bad form : Bool) (hs : s.hide M = z.hide M) :
    (putAccSector s c t k d bad form).hide M = z.hide M := by
  unfold putAccSector
  have k0 : Nat.land 0x200 M = _ := sub_trans rfl hM
  repeat' (first | with_reducible assumption | with_reducible apply State.updCell_fr k0)

theorem accLose_fr {z : State} {M : Nat} (hM : Nat.land 0x2010000000240 M = 0x2010000000240) (s : State) (c sec test : Nat) (hs : s.hide M = z.hide M) :
    (accLose s c sec test).hide M = z.hide M := by
  unfold accLose
  have k0 : Nat.land 0x2010000000040 M = _ := sub_trans rfl hM
  have k1 : Nat.land 0x200 M = _ := sub_trans rfl hM
  repeat' (first | with_reducible assumption | with_reducible apply noteSector_fr k0 | with_reducible apply putAccSector_fr k1 | with_reducible apply foldl_fr | with_reducible apply foldl_fr_fst | (intro _ _ _) | split | dsimp only)

theorem accRead_fr {z : State} {M : Nat} (hM : Nat.land 0x2010000000240 M = 0x2010000000240) (s : State) (c sec : Nat) (errs : List (Nat × Nat)) (hs : s.hide M = z.hide M) :
    (accRead s c sec errs).hide M = z.hide M := by
  unfold accRead
  have k0 : Nat.land 0x2010000000040 M = _ := sub_trans rfl hM
  have k1 : Nat.land 0x200 M = _ := sub_trans rfl hM
  repeat' (first | with_reducible assumption | with_reducible apply noteSector_fr k0 | with_reducible apply putAccSector_fr k1 | with_reducible apply foldl_fr | with_reducible apply foldl_fr_fst | (intro _ _ _) | split | dsimp only)

theorem setWeltSector_fr {z : State} {M : Nat} (hM : Nat.land 0x10000 M = 0x10000) (s : State) (c sec : Nat) (d : List Nat) (bad : Bool) (hs : s.hide M = z.hide M) :
    (setWeltSector s c sec d bad).hide M = z.hide M := by
  unfold setWeltSector
  have b0 : M.testBit 16 = true := sub_bit hM rfl
  repeat' (first | with_reducible assumption | simp only [State.hide_welt b0])

theorem weltLose_fr {z : State} {M : Nat} (hM : Nat.land 0x2010000010040 M = 0x2010000010040) (s : State) (c sec test : Nat) (hs : s.hide M = z.hide M) :
    (weltLose s c sec test).hide M = z.hide M := by
  unfold weltLose
  have k0 : Nat.land 0x2010000000040 M = _ := sub_trans rfl hM
  have k1 : Nat.land 0x10000 M = _ := sub_trans rfl hM
  repeat' (first | with_reducible assumption | with_reducible apply noteSector_fr k0 | with_reducible apply setWeltSector_fr k1)

theorem weltRead_fr {z : State} {M : Nat} (hM : Nat.land 0x2010000010040 M = 0x2010000010040) (s : State) (c sec : Nat) (errs : List (Nat × Nat)) (hs : s.hide M = z.hide M) :
    (weltRead s c sec errs).hide M = z.hide M := by
  unfold weltRead
  have k0 : Nat.land 0x2010000000040 M = _ := sub_trans rfl hM
  have k1 : Nat.land 0x10000 M = _ := sub_trans rfl hM
  have k2 : Nat.land 0x2010000010040 M = _ := sub_trans rfl hM
  repeat' (first | with_reducible assumption | with_reducible apply noteSector_fr k0 | with_reducible apply setWeltSector_fr k1 | with_reducible apply weltLose_fr k2 | with_reducible apply foldl_fr | with_reducible apply foldl_fr_fst | (intro _ _ _) | split | dsimp only)

theorem upsetSide_fr {z : State} {M : Nat} (hM : Nat.land 0x20000 M = 0x20000) (s : State) (c row : Nat) (hs : s.hide M = z.hide M) :
    (upsetSide s c row).hide M = z.hide M := by
  unfold upsetSide
  have b0 : M.testBit 17 = true := sub_bit hM rfl
  repeat' (first | with_reducible assumption | simp only [State.hide_side b0])

theorem takeReports_fr {z : State} {M : Nat} (hM : Nat.land 0x2010000030a40 M = 0x2010000030a40) (s : State) (c : Nat) (rs : List (Nat × Nat)) (hs : s.hide M = z.hide M) :
    (takeReports s c rs).hide M = z.hide M := by
  unfold takeReports
  have k0 : Nat.land 0x2010000000240 M = _ := sub_trans rfl hM
  have k1 : Nat.land 0x800 M = _ := sub_trans rfl hM
  have k2 : Nat.land 0x20000 M = _ := sub_trans rfl hM
  have k3 : Nat.land 0x2010000010040 M = _ := sub_trans rfl hM
  repeat' (first | with_reducible assumption | with_reducible apply accRead_fr k0 | with_reducible apply countStalls_fr k1 | with_reducible apply upsetSide_fr k2 | with_reducible apply weltRead_fr k3 | with_reducible apply foldl_fr | with_reducible apply foldl_fr_fst | (intro _ _ _))

theorem retire_fr {z : State} {M : Nat} (hM : Nat.land 0x420140903f0a70 M = 0x420140903f0a70) (s : State) (c slot : Nat) (reports : List (Nat × Nat)) (hs : s.hide M = z.hide M) :
    (retire s c slot reports).hide M = z.hide M := by
  unfold retire
  have k0 : Nat.land 0x200 M = _ := sub_trans rfl hM
  have k1 : Nat.land 0x400040903e0270 M = _ := sub_trans rfl hM
  have k2 : Nat.land 0x200 M = _ := sub_trans rfl hM
  have k3 : Nat.land 0x2010000030a40 M = _ := sub_trans rfl hM
  repeat' (first | with_reducible assumption | with_reducible apply fetchMore_fr k0 | with_reducible apply finishCheck_fr k1 | with_reducible apply State.updPiece_fr k2 | with_reducible apply takeReports_fr k3 | with_reducible apply foldl_fr | with_reducible apply foldl_fr_fst | (intro _ _ _) | split | dsimp only)

theorem saveWelt_fr {z : State} {M : Nat} (hM : Nat.land 0x4010010270 M = 0x4010010270) (s : State) (x : Ctx) (c : Nat) (hs : s.hide M = z.hide M) :
    (saveWelt s x c).hide M = z.hide M := by
  unfold saveWelt
  have k0 : Nat.land 0x4010000270 M = _ := sub_trans rfl hM
  have b1 : M.testBit 16 = true := sub_bit hM rfl
  repeat' (first | with_reducible assumption | simp only [State.hide_welt b1] | with_reducible apply reachEls_fr k0)

theorem restoreWelt_fr {z : State} {M : Nat} (hM : Nat.land 0x10000 M = 0x10000) (s : State) (x : Ctx) (c : Nat) (hs : s.hide M = z.hide M) :
    (restoreWelt s x c).hide M = z.hide M := by
  unfold restoreWelt
  have b0 : M.testBit 16 = true := sub_bit hM rfl
  repeat' (first | with_reducible assumption | simp only [State.hide_welt b0] | with_reducible apply foldl_fr | with_reducible apply foldl_fr_fst | (intro _ _ _))

theorem saveCtx_fr {z : State} {M : Nat} (hM : Nat.land 0x4010090270 M = 0x4010090270) (s : State) (c : Nat) (x : Ctx) (hs : s.hide M = z.hide M) :
    (saveCtx s c x).hide M = z.hide M := by
  unfold saveCtx
  have k0 : Nat.land 0x4010000070 M = _ := sub_trans rfl hM
  have k1 : Nat.land 0x80000 M = _ := sub_trans rfl hM
  have k2 : Nat.land 0x4010010270 M = _ := sub_trans rfl hM
  repeat' (first | with_reducible assumption | with_reducible apply State.swapRange_fr k0 | with_reducible apply State.updCtx_fr k1 | with_reducible apply saveWelt_fr k2 | with_reducible apply foldl_fr | with_reducible apply foldl_fr_fst | (intro _ _ _))

theorem loadCtx_fr {z : State} {M : Nat} (hM : Nat.land 0x4010010070 M = 0x4010010070) (s : State) (x : Ctx) (hs : s.hide M = z.hide M) :
    (loadCtx s x).hide M = z.hide M := by
  unfold loadCtx
  have k0 : Nat.land 0x10000 M = _ := sub_trans rfl hM
  have k1 : Nat.land 0x4010000070 M = _ := sub_trans rfl hM
  repeat' (first | with_reducible assumption | with_reducible apply restoreWelt_fr k0 | with_reducible apply State.swapRange_fr k1 | with_reducible apply foldl_fr | with_reducible apply foldl_fr_fst | (intro _ _ _))

theorem markEvicted_fr {z : State} {M : Nat} (hM : Nat.land 0x200040 M = 0x200040) (s : State) (c : Nat) (x : Ctx) (hs : s.hide M = z.hide M) :
    (markEvicted s c x).hide M = z.hide M := by
  unfold markEvicted
  have k0 : Nat.land 0x40 M = _ := sub_trans rfl hM
  have b1 : M.testBit 21 = true := sub_bit hM rfl
  repeat' (first | with_reducible assumption | simp only [State.hide_cmds b1] | with_reducible apply State.odAdd_fr k0 | with_reducible apply foldl_fr | with_reducible apply foldl_fr_fst | (intro _ _ _) | split)

theorem tryLoad_fr {z : State} {M : Nat} (hM : Nat.land 0x4010290270 M = 0x4010290270) (p : SwapPlan) (e : Nat × Ctx) (h : p.s.hide M = z.hide M) : (tryLoad p e).s.hide M = z.hide M := by
  unfold tryLoad
  split
  · exact h
  · split
    · exact h
    · split
      · exact h
      · exact State.updCtx_fr (sub_trans rfl hM) _ _ _ (loadCtx_fr (sub_trans rfl hM) _ _ (foldl_fr h fun _ _ ht => saveCtx_fr (sub_trans rfl hM) _ _ _ (markEvicted_fr (sub_trans rfl hM) _ _ _ ht)))

theorem tryLoads_fr {z : State} {M : Nat} (hM : Nat.land 0x4010290270 M = 0x4010290270) (l : List (Nat × Ctx)) (p : SwapPlan) (h : p.s.hide M = z.hide M) :
    (l.foldl tryLoad p).s.hide M = z.hide M := by
  induction l generalizing p with
  | nil => exact h
  | cons e r ih => exact ih _ (tryLoad_fr (sub_trans rfl hM) p e h)

theorem hotSetEdge_fr {z : State} {M : Nat} (hM : Nat.land 0x4010290370 M = 0x4010290370) (s : State) (h : s.hide M = z.hide M) : (hotSetEdge s).hide M = z.hide M := by
  unfold hotSetEdge
  extract_lets ws p t d t1 j t2
  have hp : p.s.hide M = z.hide M := tryLoads_fr (sub_trans rfl hM) _ _ h
  have ht : t.hide M = z.hide M := by
    show (if p.blocked then p.s.odAdd 0x8073 0 1 else p.s).hide M = z.hide M
    split
    · exact State.odAdd_fr (sub_trans rfl hM) _ _ _ _ hp
    · exact hp
  split
  · exact ht
  · have h1 : t1.hide M = z.hide M := State.odAdd_fr (sub_trans rfl hM) _ _ _ _ ht
    exact foldl_fr ((State.hide_job (sub_bit hM rfl)).trans h1) fun _ _ hu => State.updCtx_fr (sub_trans rfl hM) _ _ _ hu

theorem swapDone_fr {z : State} {M : Nat} (hM : Nat.land 0x4010380270 M = 0x4010380270) (s : State) (c : Nat) (hs : s.hide M = z.hide M) :
    (swapDone s c).hide M = z.hide M := by
  unfold swapDone
  have k0 : Nat.land 0x4010380270 M = _ := sub_trans rfl hM
  have k1 : Nat.land 0x80000 M = _ := sub_trans rfl hM
  have k2 : Nat.land 0x80000 M = _ := sub_trans rfl hM
  repeat' (first | with_reducible assumption | with_reducible apply complete_fr k0 | with_reducible apply State.setCtx_fr k1 | with_reducible apply State.updCtx_fr k2 | with_reducible apply foldl_fr | with_reducible apply foldl_fr_fst | (intro _ _ _) | split)

theorem swapComplete_fr {z : State} {M : Nat} (hM : Nat.land 0x4010380270 M = 0x4010380270) (s : State) (c : Nat) (hs : s.hide M = z.hide M) :
    (swapComplete s c).hide M = z.hide M := by
  unfold swapComplete
  have k0 : Nat.land 0x4010380270 M = _ := sub_trans rfl hM
  repeat' (first | with_reducible assumption | with_reducible apply swapDone_fr k0 | with_reducible apply foldl_fr | with_reducible apply foldl_fr_fst | (intro _ _ _) | split)

theorem swapsDue_fr {z : State} {M : Nat} (hM : Nat.land 0x4010380270 M = 0x4010380270) (s : State) (hs : s.hide M = z.hide M) :
    (swapsDue s).hide M = z.hide M := by
  unfold swapsDue
  have k0 : Nat.land 0x4010380270 M = _ := sub_trans rfl hM
  repeat' (first | with_reducible assumption | with_reducible apply swapDone_fr k0 | with_reducible apply foldl_fr)

theorem countDeferral_fr {z : State} {M : Nat} (hM : Nat.land 0x200000 M = 0x200000) (s : State) (hs : s.hide M = z.hide M) :
    (countDeferral s).hide M = z.hide M := by
  unfold countDeferral
  have b0 : M.testBit 21 = true := sub_bit hM rfl
  repeat' (first | with_reducible assumption | simp only [State.hide_cmds b0])

theorem class2Refuse_fr {z : State} {M : Nat} (hM : Nat.land 0x4010380270 M = 0x4010380270) (s : State) (id : Nat) (hs : s.hide M = z.hide M) :
    (class2Refuse s id).hide M = z.hide M := by
  unfold class2Refuse
  have k0 : Nat.land 0x4010380270 M = _ := sub_trans rfl hM
  repeat' (first | with_reducible assumption | with_reducible apply complete_fr k0 | with_reducible apply foldl_fr | with_reducible apply foldl_fr_fst | (intro _ _ _) | split | dsimp only)

theorem refuseLate_fr {z : State} {M : Nat} (hM : Nat.land 0x4010380270 M = 0x4010380270) (s : State) (hs : s.hide M = z.hide M) :
    (refuseLate s).hide M = z.hide M := by
  unfold refuseLate
  have k0 : Nat.land 0x4010380270 M = _ := sub_trans rfl hM
  repeat' (first | with_reducible assumption | with_reducible apply class2Refuse_fr k0 | with_reducible apply foldl_fr)

theorem clearCounters_fr {z : State} {M : Nat} (hM : Nat.land 0x200000f840 M = 0x200000f840) (s : State) (hs : s.hide M = z.hide M) :
    (clearCounters s).hide M = z.hide M := by
  unfold clearCounters
  have b0 : M.testBit 6 = true := sub_bit hM rfl
  have b1 : M.testBit 11 = true := sub_bit hM rfl
  have b2 : M.testBit 12 = true := sub_bit hM rfl
  have b3 : M.testBit 13 = true := sub_bit hM rfl
  have b4 : M.testBit 14 = true := sub_bit hM rfl
  have b5 : M.testBit 15 = true := sub_bit hM rfl
  have b6 : M.testBit 37 = true := sub_bit hM rfl
  repeat' (first | with_reducible assumption | simp only [State.hide_od_cellCtr_cellFlags_clusterFlags_moduleFlags_stepWord_missing b0 b1 b2 b3 b4 b5 b6])

theorem adopt_fr {z : State} {M : Nat} (hM : Nat.land 0x4000229e22f9c0 M = 0x4000229e22f9c0) (s : State) (d : JobD) (p : Peers) (ms rs cs : List Nat) (pat : Pattern) (id : Nat) (hs : s.hide M = z.hide M) :
    (adopt s d p ms rs cs pat id).hide M = z.hide M := by
  unfold adopt
  have k0 : Nat.land 0x200000f840 M = _ := sub_trans rfl hM
  have k1 : Nat.land 0x40 M = _ := sub_trans rfl hM
  have k2 : Nat.land 0x40000000000000 M = _ := sub_trans rfl hM
  have k3 : Nat.land 0x200000 M = _ := sub_trans rfl hM
  have b4 : M.testBit 7 = true := sub_bit hM rfl
  have b5 : M.testBit 8 = true := sub_bit hM rfl
  have b6 : M.testBit 17 = true := sub_bit hM rfl
  have b7 : M.testBit 25 = true := sub_bit hM rfl
  have b8 : M.testBit 26 = true := sub_bit hM rfl
  have b9 : M.testBit 27 = true := sub_bit hM rfl
  have b10 : M.testBit 28 = true := sub_bit hM rfl
  have b11 : M.testBit 31 = true := sub_bit hM rfl
  have b12 : M.testBit 33 = true := sub_bit hM rfl
  repeat' (first | with_reducible assumption | simp only [State.hide_stitch_job_side_fab_notices_fabSeqs_snaps_streams_clock b4 b5 b6 b7 b8 b9 b10 b11 b12] | with_reducible apply clearCounters_fr k0 | with_reducible apply State.odSet_fr k1 | with_reducible apply State.send_fr k2 | with_reducible apply State.updCmd_fr k3 | with_reducible apply foldl_fr | with_reducible apply foldl_fr_fst | (intro _ _ _) | split)

theorem tellOpen_fr {z : State} {M : Nat} (hM : Nat.land 0x40000000000100 M = 0x40000000000100) (s : State) (d : JobD) (hs : s.hide M = z.hide M) :
    (tellOpen s d).hide M = z.hide M := by
  unfold tellOpen
  have k0 : Nat.land 0x40000000000000 M = _ := sub_trans rfl hM
  have b1 : M.testBit 8 = true := sub_bit hM rfl
  repeat' (first | with_reducible assumption | simp only [State.hide_job b1] | with_reducible apply tellDigest_fr k0 | with_reducible apply foldl_fr | with_reducible apply foldl_fr_fst | (intro _ _ _) | split)

theorem jobOpen_fr {z : State} {M : Nat} (hM : Nat.land 0x4000629e3afbf0 M = 0x4000629e3afbf0) (s : State) (id : Nat) (p : Peers) (hs : s.hide M = z.hide M) :
    (jobOpen s id p).hide M = z.hide M := by
  unfold jobOpen
  have k0 : Nat.land 0x4000229e22f9c0 M = _ := sub_trans rfl hM
  have k1 : Nat.land 0x4010380270 M = _ := sub_trans rfl hM
  have k2 : Nat.land 0x40000000000100 M = _ := sub_trans rfl hM
  have b3 : M.testBit 8 = true := sub_bit hM rfl
  repeat' (first | with_reducible assumption | simp only [State.hide_job b3] | with_reducible apply adopt_fr k0 | with_reducible apply complete_fr k1 | with_reducible apply tellOpen_fr k2 | with_reducible apply foldl_fr | with_reducible apply foldl_fr_fst | (intro _ _ _) | split)

theorem jobOwned_fr {z : State} {M : Nat} (hM : Nat.land 0x4010380370 M = 0x4010380370) (s : State) (hs : s.hide M = z.hide M) :
    (jobOwned s).hide M = z.hide M := by
  unfold jobOwned
  have k0 : Nat.land 0x4010380270 M = _ := sub_trans rfl hM
  have b1 : M.testBit 8 = true := sub_bit hM rfl
  repeat' (first | with_reducible assumption | simp only [State.hide_job b1] | with_reducible apply complete_fr k0 | with_reducible apply foldl_fr | with_reducible apply foldl_fr_fst | (intro _ _ _) | split)

theorem endCell_fr {z : State} {M : Nat} (hM : Nat.land 0x400040903f1270 M = 0x400040903f1270) (s : State) (c : Nat) (hs : s.hide M = z.hide M) :
    (endCell s c).hide M = z.hide M := by
  unfold endCell
  have k0 : Nat.land 0x40000080060240 M = _ := sub_trans rfl hM
  have k1 : Nat.land 0x400040903f1270 M = _ := sub_trans rfl hM
  have k2 : Nat.land 0x200 M = _ := sub_trans rfl hM
  repeat' (first | with_reducible assumption | with_reducible apply abandon_fr k0 | with_reducible apply commitPiece_fr k1 | with_reducible apply State.updCell_fr k2 | with_reducible apply foldl_fr | with_reducible apply foldl_fr_fst | (intro _ _ _) | split)

theorem endStep_fr {z : State} {M : Nat} (hM : Nat.land 0x4010380270 M = 0x4010380270) (s : State) (ctx : Nat) (hs : s.hide M = z.hide M) :
    (endStep s ctx).hide M = z.hide M := by
  unfold endStep
  have k0 : Nat.land 0x4010380270 M = _ := sub_trans rfl hM
  have k1 : Nat.land 0x80000 M = _ := sub_trans rfl hM
  repeat' (first | with_reducible assumption | with_reducible apply complete_fr k0 | with_reducible apply State.updCtx_fr k1 | with_reducible apply foldl_fr | with_reducible apply foldl_fr_fst | (intro _ _ _) | split)

theorem jobEnd_fr {z : State} {M : Nat} (hM : Nat.land 0x401040f63f1370 M = 0x401040f63f1370) (s : State) (closeCmd : Option Nat) (hs : s.hide M = z.hide M) :
    (jobEnd s closeCmd).hide M = z.hide M := by
  unfold jobEnd
  have k0 : Nat.land 0x4010380270 M = _ := sub_trans rfl hM
  have k1 : Nat.land 0x400040903f1270 M = _ := sub_trans rfl hM
  have k2 : Nat.land 0x4012380270 M = _ := sub_trans rfl hM
  have k3 : Nat.land 0x4010380270 M = _ := sub_trans rfl hM
  have k4 : Nat.land 0x4090380270 M = _ := sub_trans rfl hM
  have b5 : M.testBit 8 = true := sub_bit hM rfl
  have b6 : M.testBit 25 = true := sub_bit hM rfl
  have b7 : M.testBit 26 = true := sub_bit hM rfl
  have b8 : M.testBit 28 = true := sub_bit hM rfl
  have b9 : M.testBit 29 = true := sub_bit hM rfl
  have b10 : M.testBit 30 = true := sub_bit hM rfl
  have b11 : M.testBit 44 = true := sub_bit hM rfl
  have b12 : M.testBit 54 = true := sub_bit hM rfl
  repeat' (first | with_reducible assumption | simp only [State.hide_job b5] | simp only [State.hide_job_fab_notices_snaps_pllCal_pllIdle_hostReads_outbox b5 b6 b7 b8 b9 b10 b11 b12] | with_reducible apply complete_fr k0 | with_reducible apply endCell_fr k1 | with_reducible apply endFab_fr k2 | with_reducible apply endStep_fr k3 | with_reducible apply endStream_fr k4 | with_reducible apply foldl_fr | with_reducible apply foldl_fr_fst | (intro _ _ _) | split)

theorem closeJob_fr {z : State} {M : Nat} (hM : Nat.land 0x401040f63f1370 M = 0x401040f63f1370) (s : State) (closeCmd : Option Nat) (hs : s.hide M = z.hide M) :
    (closeJob s closeCmd).hide M = z.hide M := by
  unfold closeJob
  have k0 : Nat.land 0x401040f63f1370 M = _ := sub_trans rfl hM
  have b1 : M.testBit 8 = true := sub_bit hM rfl
  repeat' (first | with_reducible assumption | simp only [State.hide_job b1] | with_reducible apply jobEnd_fr k0)

theorem endJobFault_fr {z : State} {M : Nat} (hM : Nat.land 0x401040f63f1370 M = 0x401040f63f1370) (s : State) (rule : Nat) (hs : s.hide M = z.hide M) :
    (endJobFault s rule).hide M = z.hide M := by
  unfold endJobFault
  have k0 : Nat.land 0x401040f63f1370 M = _ := sub_trans rfl hM
  have k1 : Nat.land 0x40 M = _ := sub_trans rfl hM
  repeat' (first | with_reducible assumption | with_reducible apply closeJob_fr k0 | with_reducible apply logEvent_fr k1 | with_reducible apply foldl_fr | with_reducible apply foldl_fr_fst | (intro _ _ _) | split)

theorem jobClose_fr {z : State} {M : Nat} (hM : Nat.land 0x401040f63f1370 M = 0x401040f63f1370) (s : State) (id : Nat) (hs : s.hide M = z.hide M) :
    (jobClose s id).hide M = z.hide M := by
  unfold jobClose
  have k0 : Nat.land 0x401040f63f1370 M = _ := sub_trans rfl hM
  have k1 : Nat.land 0x4010380270 M = _ := sub_trans rfl hM
  repeat' (first | with_reducible assumption | with_reducible apply closeJob_fr k0 | with_reducible apply complete_fr k1 | with_reducible apply foldl_fr | with_reducible apply foldl_fr_fst | (intro _ _ _) | split)

theorem mapCell_fr {z : State} {M : Nat} (hM : Nat.land 0x240 M = 0x240) (s : State) (c : Nat) (hs : s.hide M = z.hide M) :
    (mapCell s c).hide M = z.hide M := by
  unfold mapCell
  have k0 : Nat.land 0x40 M = _ := sub_trans rfl hM
  have k1 : Nat.land 0x200 M = _ := sub_trans rfl hM
  repeat' (first | with_reducible assumption | with_reducible apply logEvent_fr k0 | with_reducible apply State.updCell_fr k1 | with_reducible apply foldl_fr | with_reducible apply foldl_fr_fst | (intro _ _ _) | split | dsimp only)

theorem rebuildMap_fr {z : State} {M : Nat} (hM : Nat.land 0x12010000000640 M = 0x12010000000640) (s : State) (hs : s.hide M = z.hide M) :
    (rebuildMap s).hide M = z.hide M := by
  unfold rebuildMap
  have k0 : Nat.land 0x2010000000000 M = _ := sub_trans rfl hM
  have k1 : Nat.land 0x2000000000000 M = _ := sub_trans rfl hM
  have k2 : Nat.land 0x240 M = _ := sub_trans rfl hM
  have k3 : Nat.land 0x2000000000040 M = _ := sub_trans rfl hM
  have b4 : M.testBit 52 = true := sub_bit hM rfl
  have b5 : M.testBit 9 = true := sub_bit hM rfl
  have b6 : M.testBit 10 = true := sub_bit hM rfl
  repeat' (first | with_reducible assumption | simp only [State.hide_phys b4] | simp only [State.hide_cells b5] | simp only [State.hide_blocks b6] | simp only [State.hide_cells_phys b5 b4] | simp only [State.hide_blocks_phys b6 b4] | simp only [State.hide_cells_blocks b5 b6] | simp only [State.hide_cells_blocks_phys b5 b6 b4] | with_reducible apply applyPending_fr k0 | with_reducible apply failUnit_fr k1 | with_reducible apply mapCell_fr k2 | with_reducible apply settleRecords_fr k3 | with_reducible apply foldl_fr | with_reducible apply foldl_fr_fst | (intro _ _ _))

theorem bootMap_fr {z : State} {M : Nat} (hM : Nat.land 0x12010000000640 M = 0x12010000000640) (s : State) (hs : s.hide M = z.hide M) :
    (bootMap s).hide M = z.hide M := by
  unfold bootMap
  have k0 : Nat.land 0x12010000000640 M = _ := sub_trans rfl hM
  have b1 : M.testBit 9 = true := sub_bit hM rfl
  repeat' (first | with_reducible assumption | simp only [State.hide_cells b1] | with_reducible apply rebuildMap_fr k0)

theorem unwritable_fr {z : State} {M : Nat} (hM : Nat.land 0x2000000000040 M = 0x2000000000040) (s : State) (a : Nat) (hs : s.hide M = z.hide M) :
    (unwritable s a).hide M = z.hide M := by
  unfold unwritable
  have k0 : Nat.land 0x2000000000000 M = _ := sub_trans rfl hM
  have k1 : Nat.land 0x40 M = _ := sub_trans rfl hM
  repeat' (first | with_reducible assumption | with_reducible apply failUnit_fr k0 | with_reducible apply logEvent_fr k1 | with_reducible apply foldl_fr | with_reducible apply foldl_fr_fst | (intro _ _ _) | split | dsimp only)

theorem scrubMemories_fr {z : State} {M : Nat} (hM : Nat.land 0x40800ff230 M = 0x40800ff230) (s : State) (hs : s.hide M = z.hide M) :
    (scrubMemories s).hide M = z.hide M := by
  unfold scrubMemories
  have k0 : Nat.land 0x30 M = _ := sub_trans rfl hM
  have b1 : M.testBit 9 = true := sub_bit hM rfl
  have b2 : M.testBit 12 = true := sub_bit hM rfl
  have b3 : M.testBit 13 = true := sub_bit hM rfl
  have b4 : M.testBit 14 = true := sub_bit hM rfl
  have b5 : M.testBit 15 = true := sub_bit hM rfl
  have b6 : M.testBit 16 = true := sub_bit hM rfl
  have b7 : M.testBit 17 = true := sub_bit hM rfl
  have b8 : M.testBit 18 = true := sub_bit hM rfl
  have b9 : M.testBit 19 = true := sub_bit hM rfl
  have b10 : M.testBit 31 = true := sub_bit hM rfl
  have b11 : M.testBit 38 = true := sub_bit hM rfl
  repeat' (first | with_reducible assumption | simp only [State.hide_cells_cellFlags_clusterFlags_moduleFlags_stepWord_welt_side_sync_ctxs_streams_cache b1 b2 b3 b4 b5 b6 b7 b8 b9 b10 b11] | with_reducible apply State.clearMem_fr k0)

theorem scrubComplete_fr {z : State} {M : Nat} (hM : Nat.land 0x320140901ff770 M = 0x320140901ff770) (s : State) (fails : List (List Nat)) (bad : List Nat) (hs : s.hide M = z.hide M) :
    (scrubComplete s fails bad).hide M = z.hide M := by
  unfold scrubComplete
  have k0 : Nat.land 0x2000000000040 M = _ := sub_trans rfl hM
  have k1 : Nat.land 0x4010100270 M = _ := sub_trans rfl hM
  have k2 : Nat.land 0x40 M = _ := sub_trans rfl hM
  have k3 : Nat.land 0x12010000000640 M = _ := sub_trans rfl hM
  have k4 : Nat.land 0x40 M = _ := sub_trans rfl hM
  have k5 : Nat.land 0x40800ff230 M = _ := sub_trans rfl hM
  have k6 : Nat.land 0x2000000000040 M = _ := sub_trans rfl hM
  have b7 : M.testBit 20 = true := sub_bit hM rfl
  have b8 : M.testBit 38 = true := sub_bit hM rfl
  have b9 : M.testBit 53 = true := sub_bit hM rfl
  have b10 : M.testBit 8 = true := sub_bit hM rfl
  repeat' (first | with_reducible assumption | simp only [State.hide_rings_cache_testLevel b7 b8 b9] | simp only [State.hide_job b10] | simp only [State.hide_job_rings_cache_testLevel b10 b7 b8 b9] | with_reducible apply applyFails_fr k0 | with_reducible apply flushRing_fr k1 | with_reducible apply State.odSet_fr k2 | with_reducible apply rebuildMap_fr k3 | with_reducible apply State.odAdd_fr k4 | with_reducible apply scrubMemories_fr k5 | with_reducible apply unwritable_fr k6 | with_reducible apply foldl_fr | with_reducible apply foldl_fr_fst | (intro _ _ _) | split)

theorem contextCreate_fr {z : State} {M : Nat} (hM : Nat.land 0x400040103c0270 M = 0x400040103c0270) (s : State) (id rootDigest : Nat) (hs : s.hide M = z.hide M) :
    (contextCreate s id rootDigest).hide M = z.hide M := by
  unfold contextCreate
  have k0 : Nat.land 0x4010380270 M = _ := sub_trans rfl hM
  have k1 : Nat.land 0x80000 M = _ := sub_trans rfl hM
  have k2 : Nat.land 0x40000 M = _ := sub_trans rfl hM
  have k3 : Nat.land 0x200000 M = _ := sub_trans rfl hM
  have k4 : Nat.land 0x40000000000000 M = _ := sub_trans rfl hM
  repeat' (first | with_reducible assumption | with_reducible fail | with_reducible apply complete_fr k0 | with_reducible apply State.setCtx_fr k1 | with_reducible apply State.setObj_fr k2 | with_reducible apply State.updCmd_fr k3 | with_reducible apply tellDigest_fr k4 | with_reducible apply foldl_fr | with_reducible apply foldl_fr_fst | (intro _ _ _) | split | dsimp only)

theorem contextDestroy_fr {z : State} {M : Nat} (hM : Nat.land 0x40103c0270 M = 0x40103c0270) (s : State) (id : Nat) (hs : s.hide M = z.hide M) :
    (contextDestroy s id).hide M = z.hide M := by
  unfold contextDestroy
  have k0 : Nat.land 0x4010380270 M = _ := sub_trans rfl hM
  have k1 : Nat.land 0x40000 M = _ := sub_trans rfl hM
  have b2 : M.testBit 19 = true := sub_bit hM rfl
  repeat' (first | with_reducible assumption | simp only [State.hide_ctxs b2] | with_reducible apply complete_fr k0 | with_reducible apply State.setObj_fr k1 | with_reducible apply foldl_fr | with_reducible apply foldl_fr_fst | (intro _ _ _) | split)

theorem beginCmd_fr {z : State} {M : Nat} (hM : Nat.land 0x200000 M = 0x200000) (s : State) (id : Nat) (hs : s.hide M = z.hide M) :
    (beginCmd s id).hide M = z.hide M := by
  unfold beginCmd
  have k0 : Nat.land 0x200000 M = _ := sub_trans rfl hM
  repeat' (first | with_reducible assumption | with_reducible apply State.updCmd_fr k0)

theorem runCommand_fr {z : State} {M : Nat} (hM : Nat.land 0x4010380270 M = 0x4010380270) (s : State) (id : Nat) (hs : s.hide M = z.hide M) :
    (runCommand s id).hide M = z.hide M := by
  unfold runCommand
  have k0 : Nat.land 0x4010380270 M = _ := sub_trans rfl hM
  have k1 : Nat.land 0x4010380270 M = _ := sub_trans rfl hM
  have k2 : Nat.land 0x200000 M = _ := sub_trans rfl hM
  have k3 : Nat.land 0x80000 M = _ := sub_trans rfl hM
  repeat' (first | with_reducible assumption | with_reducible apply complete_fr k0 | with_reducible apply runPieceEnded_fr k1 | with_reducible apply State.updCmd_fr k2 | with_reducible apply State.updCtx_fr k3 | with_reducible apply foldl_fr | with_reducible apply foldl_fr_fst | (intro _ _ _) | split | dsimp only)

theorem gridCommand_fr {z : State} {M : Nat} (hM : Nat.land 0x40103c0270 M = 0x40103c0270) (s : State) (id : Nat) (hs : s.hide M = z.hide M) :
    (gridCommand s id).hide M = z.hide M := by
  unfold gridCommand
  have k0 : Nat.land 0x4010380270 M = _ := sub_trans rfl hM
  have k1 : Nat.land 0x40000 M = _ := sub_trans rfl hM
  have k2 : Nat.land 0x80000 M = _ := sub_trans rfl hM
  have k3 : Nat.land 0x200000 M = _ := sub_trans rfl hM
  repeat' (first | with_reducible assumption | with_reducible apply complete_fr k0 | with_reducible apply State.setObj_fr k1 | with_reducible apply State.updCtx_fr k2 | with_reducible apply State.updCmd_fr k3 | with_reducible apply foldl_fr | with_reducible apply foldl_fr_fst | (intro _ _ _) | split | dsimp only)

theorem syncOpCommand_fr {z : State} {M : Nat} (hM : Nat.land 0x400040903c0270 M = 0x400040903c0270) (s : State) (id code : Nat) (hs : s.hide M = z.hide M) :
    (syncOpCommand s id code).hide M = z.hide M := by
  unfold syncOpCommand
  have k0 : Nat.land 0x4010380270 M = _ := sub_trans rfl hM
  have k1 : Nat.land 0x40000080040240 M = _ := sub_trans rfl hM
  repeat' (first | with_reducible assumption | with_reducible apply complete_fr k0 | with_reducible apply syncChange_fr k1 | with_reducible apply foldl_fr | with_reducible apply foldl_fr_fst | (intro _ _ _) | split | dsimp only)

theorem streamStart_fr {z : State} {M : Nat} (hM : Nat.land 0x40200 M = 0x40200) (s : State) (c q : Nat) (is : Item → Bool) (hs : s.hide M = z.hide M) :
    (streamStart s c q is).hide M = z.hide M := by
  unfold streamStart
  have k0 : Nat.land 0x40000 M = _ := sub_trans rfl hM
  have k1 : Nat.land 0x200 M = _ := sub_trans rfl hM
  have k2 : Nat.land 0x200 M = _ := sub_trans rfl hM
  repeat' (first | with_reducible assumption | with_reducible apply State.setObj_fr k0 | with_reducible apply State.updPiece_fr k1 | with_reducible apply updItem_fr k2 | with_reducible apply foldl_fr | with_reducible apply foldl_fr_fst | (intro _ _ _) | split | dsimp only)

theorem queueCtl_fr {z : State} {M : Nat} (hM : Nat.land 0x400040903e0270 M = 0x400040903e0270) (s : State) (c : Nat) (hs : s.hide M = z.hide M) :
    (queueCtl s c).hide M = z.hide M := by
  unfold queueCtl
  have k0 : Nat.land 0x400040903e0270 M = _ := sub_trans rfl hM
  have k1 : Nat.land 0x200 M = _ := sub_trans rfl hM
  have k2 : Nat.land 0x400040903e0270 M = _ := sub_trans rfl hM
  have k3 : Nat.land 0x200 M = _ := sub_trans rfl hM
  repeat' (first | with_reducible assumption | with_reducible apply failPiece_fr k0 | with_reducible apply fetchMore_fr k1 | with_reducible apply finishCheck_fr k2 | with_reducible apply State.updPiece_fr k3 | with_reducible apply foldl_fr | with_reducible apply foldl_fr_fst | (intro _ _ _) | split)

theorem transferIssue_fr {z : State} {M : Nat} (hM : Nat.land 0x4000000276 M = 0x4000000276) (s : State) (c : Nat) (hs : s.hide M = z.hide M) :
    (transferIssue s c).hide M = z.hide M := by
  unfold transferIssue
  have k0 : Nat.land 0x40 M = _ := sub_trans rfl hM
  have k1 : Nat.land 0x2 M = _ := sub_trans rfl hM
  have k2 : Nat.land 0x4 M = _ := sub_trans rfl hM
  have k3 : Nat.land 0x200 M = _ := sub_trans rfl hM
  have k4 : Nat.land 0x4000000070 M = _ := sub_trans rfl hM
  have k5 : Nat.land 0x200 M = _ := sub_trans rfl hM
  have k6 : Nat.land 0x200 M = _ := sub_trans rfl hM
  repeat' (first | with_reducible assumption | with_reducible apply State.odAdd_fr k0 | with_reducible apply State.draw_fr k1 | with_reducible apply State.fresh_fr k2 | with_reducible apply State.updPiece_fr k3 | with_reducible apply sliceLoads_fr k4 | with_reducible fail | with_reducible apply State.updCell_fr k5 | with_reducible apply updItem_fr k6 | with_reducible apply foldl_fr | with_reducible apply foldl_fr_fst | (intro _ _ _) | split | dsimp only)

theorem countLanded_fr {z : State} {M : Nat} (hM : Nat.land 0x200 M = 0x200) (s : State) (c : Nat) (t : Xfer) (hs : s.hide M = z.hide M) :
    (countLanded s c t).hide M = z.hide M := by
  unfold countLanded
  have k0 : Nat.land 0x200 M = _ := sub_trans rfl hM
  repeat' (first | with_reducible assumption | with_reducible apply updItem_fr k0 | with_reducible apply foldl_fr | with_reducible apply foldl_fr_fst | (intro _ _ _) | split)

theorem landWrites_fr {z : State} {M : Nat} (hM : Nat.land 0x4010000270 M = 0x4010000270) (s : State) (c : Nat) (t : Xfer) (hs : s.hide M = z.hide M) :
    (landWrites s c t).hide M = z.hide M := by
  unfold landWrites
  have k0 : Nat.land 0x4010000270 M = _ := sub_trans rfl hM
  have k1 : Nat.land 0x40 M = _ := sub_trans rfl hM
  have k2 : Nat.land 0x4010000270 M = _ := sub_trans rfl hM
  have k3 : Nat.land 0x200 M = _ := sub_trans rfl hM
  repeat' (first | with_reducible assumption | with_reducible apply reachEls_fr k0 | with_reducible apply State.odAdd_fr k1 | with_reducible apply State.store_fr k2 | with_reducible apply State.updPiece_fr k3 | with_reducible apply foldl_fr | with_reducible apply foldl_fr_fst | (intro _ _ _) | split | dsimp only)

theorem landXfer_fr {z : State} {M : Nat} (hM : Nat.land 0x4010040270 M = 0x4010040270) (s : State) (c : Nat) (t : Xfer) (hs : s.hide M = z.hide M) :
    (landXfer s c t).hide M = z.hide M := by
  unfold landXfer
  have k0 : Nat.land 0x200 M = _ := sub_trans rfl hM
  have k1 : Nat.land 0x4010000270 M = _ := sub_trans rfl hM
  have k2 : Nat.land 0x40 M = _ := sub_trans rfl hM
  have k3 : Nat.land 0x200 M = _ := sub_trans rfl hM
  have k4 : Nat.land 0x40000 M = _ := sub_trans rfl hM
  have k5 : Nat.land 0x4010000270 M = _ := sub_trans rfl hM
  repeat' (first | with_reducible assumption | with_reducible apply countLanded_fr k0 | with_reducible apply landWrites_fr k1 | with_reducible apply State.odAdd_fr k2 | with_reducible apply State.updCell_fr k3 | with_reducible apply settleHeld_fr k4 | with_reducible apply State.store_fr k5 | with_reducible apply foldl_fr | with_reducible apply foldl_fr_fst | (intro _ _ _) | split)

theorem transferLand_fr {z : State} {M : Nat} (hM : Nat.land 0x2014010070a70 M = 0x2014010070a70) (s : State) (c id gen : Nat) (stalls : List (Nat × Nat)) (hs : s.hide M = z.hide M) :
    (transferLand s c id gen stalls).hide M = z.hide M := by
  unfold transferLand
  have k0 : Nat.land 0x4010040270 M = _ := sub_trans rfl hM
  have k1 : Nat.land 0x40 M = _ := sub_trans rfl hM
  have k2 : Nat.land 0x200 M = _ := sub_trans rfl hM
  have k3 : Nat.land 0x2010000030a40 M = _ := sub_trans rfl hM
  repeat' (first | with_reducible assumption | with_reducible apply landXfer_fr k0 | with_reducible apply State.odAdd_fr k1 | with_reducible apply State.updCell_fr k2 | with_reducible apply takeReports_fr k3 | with_reducible apply foldl_fr | with_reducible apply foldl_fr_fst | (intro _ _ _) | split)

end Sys2Proof.Machine
end

