-- ==== Sys2Proof/Laws/FrameHost.lean ====
section
/-! SUPPORT. What each operation over the rings, the host memory, the stitch, fences and boot can change:
the fields of its mask (`State.hide`), and nothing else. -/

namespace Sys2Proof.Machine

theorem ringEnable_fr {z : State} {M : Nat} (hM : Nat.land 0x100000 M = 0x100000) (s : State) (n : Nat) (on : Bool) (sqBase cqBase sqLog cqLog : Nat) (hs : s.hide M = z.hide M) :
    (ringEnable s n on sqBase cqBase sqLog cqLog).hide M = z.hide M := by
  unfold ringEnable
  have k0 : Nat.land 0x100000 M = _ := sub_trans rfl hM
  repeat' (first | with_reducible assumption | with_reducible apply State.setRing_fr k0 | with_reducible apply foldl_fr | with_reducible apply foldl_fr_fst | (intro _ _ _) | split | dsimp only)

theorem sqTailWrite_fr {z : State} {M : Nat} (hM : Nat.land 0x100000 M = 0x100000) (s : State) (n v : Nat) (hs : s.hide M = z.hide M) :
    (sqTailWrite s n v).hide M = z.hide M := by
  unfold sqTailWrite
  have k0 : Nat.land 0x100000 M = _ := sub_trans rfl hM
  repeat' (first | with_reducible assumption | with_reducible apply State.setRing_fr k0 | with_reducible apply foldl_fr | with_reducible apply foldl_fr_fst | (intro _ _ _) | split | dsimp only)

theorem cqHeadWrite_fr {z : State} {M : Nat} (hM : Nat.land 0x4010100270 M = 0x4010100270) (s : State) (n v : Nat) (hs : s.hide M = z.hide M) :
    (cqHeadWrite s n v).hide M = z.hide M := by
  unfold cqHeadWrite
  have k0 : Nat.land 0x4010100270 M = _ := sub_trans rfl hM
  have k1 : Nat.land 0x100000 M = _ := sub_trans rfl hM
  repeat' (first | with_reducible assumption | with_reducible apply flushRing_fr k0 | with_reducible apply State.setRing_fr k1 | with_reducible apply foldl_fr | with_reducible apply foldl_fr_fst | (intro _ _ _) | split | dsimp only)

theorem markHeld_fr {z : State} {M : Nat} (hM : Nat.land 0x100000 M = 0x100000) (s : State) (hs : s.hide M = z.hide M) :
    (markHeld s).hide M = z.hide M := by
  unfold markHeld
  have b0 : M.testBit 20 = true := sub_bit hM rfl
  repeat' (first | with_reducible assumption | simp only [State.hide_rings b0])

theorem joinStep_fr {z : State} {M : Nat} (hM : Nat.land 0x80000 M = 0x80000) (s : State) (ctx id e : Nat) (hs : s.hide M = z.hide M) :
    (joinStep s ctx id e).hide M = z.hide M := by
  unfold joinStep
  have k0 : Nat.land 0x80000 M = _ := sub_trans rfl hM
  repeat' (first | with_reducible assumption | with_reducible apply State.updCtx_fr k0 | with_reducible apply foldl_fr | with_reducible apply foldl_fr_fst | (intro _ _ _) | split)

theorem takeOd_fr {z : State} {M : Nat} (hM : Nat.land 0x204010380270 M = 0x204010380270) (s : State) (id e : Nat) (bad : Bool) (hs : s.hide M = z.hide M) :
    (takeOd s id e bad).hide M = z.hide M := by
  unfold takeOd
  have k0 : Nat.land 0x4010380270 M = _ := sub_trans rfl hM
  have k1 : Nat.land 0x200000 M = _ := sub_trans rfl hM
  have b2 : M.testBit 45 = true := sub_bit hM rfl
  repeat' (first | with_reducible assumption | simp only [State.hide_odQueue b2] | with_reducible apply complete_fr k0 | with_reducible apply State.updCmd_fr k1 | with_reducible apply foldl_fr | with_reducible apply foldl_fr_fst | (intro _ _ _) | split)

theorem admitCmd_fr {z : State} {M : Nat} (hM : Nat.land 0x4010380370 M = 0x4010380370) (s : State) (n id e : Nat) (bad : Bool) (hs : s.hide M = z.hide M) :
    (admitCmd s n id e bad).hide M = z.hide M := by
  unfold admitCmd
  have k0 : Nat.land 0x4010380270 M = _ := sub_trans rfl hM
  have k1 : Nat.land 0x80000 M = _ := sub_trans rfl hM
  have b2 : M.testBit 8 = true := sub_bit hM rfl
  repeat' (first | with_reducible assumption | simp only [State.hide_job b2] | with_reducible apply complete_fr k0 | with_reducible apply joinStep_fr k1 | with_reducible apply foldl_fr | with_reducible apply foldl_fr_fst | (intro _ _ _) | split)

theorem ringEntryTake_fr {z : State} {M : Nat} (hM : Nat.land 0x204010780374 M = 0x204010780374) (s : State) (hs : s.hide M = z.hide M) :
    (ringEntryTake s).hide M = z.hide M := by
  unfold ringEntryTake
  have k0 : Nat.land 0x4 M = _ := sub_trans rfl hM
  have k1 : Nat.land 0x4010380370 M = _ := sub_trans rfl hM
  have k2 : Nat.land 0x100000 M = _ := sub_trans rfl hM
  have k3 : Nat.land 0x100000 M = _ := sub_trans rfl hM
  have k4 : Nat.land 0x204010380270 M = _ := sub_trans rfl hM
  have b5 : M.testBit 21 = true := sub_bit hM rfl
  have b6 : M.testBit 22 = true := sub_bit hM rfl
  repeat' (first | with_reducible assumption | simp only [State.hide_cmds_lastRing b5 b6] | with_reducible apply State.fresh_fr k0 | with_reducible apply admitCmd_fr k1 | with_reducible apply markHeld_fr k2 | with_reducible apply State.setRing_fr k3 | with_reducible apply takeOd_fr k4 | with_reducible apply foldl_fr | with_reducible apply foldl_fr_fst | (intro _ _ _) | split)

theorem storeUp_fr {z : State} {M : Nat} (hM : Nat.land 0x4010000270 M = 0x4010000270) (s : State) (a : Nat) (bs : List Byte) (p : Bool) (hs : s.hide M = z.hide M) :
    (storeUp s a bs p).hide M = z.hide M := by
  unfold storeUp
  have k0 : Nat.land 0x4000000030 M = _ := sub_trans rfl hM
  have k1 : Nat.land 0x4010000270 M = _ := sub_trans rfl hM
  repeat' (first | with_reducible assumption | with_reducible apply sliceStores_fr k0 | with_reducible apply State.storeP_fr k1 | with_reducible apply foldl_fr | with_reducible apply foldl_fr_fst | (intro _ _ _) | split)

theorem hostCopyIn_fr {z : State} {M : Nat} (hM : Nat.land 0x40184010380274 M = 0x40184010380274) (s : State) (id : Nat) (busMaster : Bool) (hs : s.hide M = z.hide M) :
    (hostCopyIn s id busMaster).hide M = z.hide M := by
  unfold hostCopyIn
  have k0 : Nat.land 0x200000 M = _ := sub_trans rfl hM
  have k1 : Nat.land 0x4010380270 M = _ := sub_trans rfl hM
  have k2 : Nat.land 0x4 M = _ := sub_trans rfl hM
  have k3 : Nat.land 0x80000000000 M = _ := sub_trans rfl hM
  have k4 : Nat.land 0x40000000000000 M = _ := sub_trans rfl hM
  have b5 : M.testBit 44 = true := sub_bit hM rfl
  repeat' (first | with_reducible assumption | simp only [State.hide_hostReads b5] | with_reducible apply beginCmd_fr k0 | with_reducible apply complete_fr k1 | with_reducible apply State.fresh_fr k2 | with_reducible apply State.setBme_fr k3 | with_reducible apply State.send_fr k4 | with_reducible apply foldl_fr | with_reducible apply foldl_fr_fst | (intro _ _ _) | split)

theorem hostCopyOut_fr {z : State} {M : Nat} (hM : Nat.land 0x40084010380272 M = 0x40084010380272) (s : State) (id : Nat) (busMaster : Bool) (hs : s.hide M = z.hide M) :
    (hostCopyOut s id busMaster).hide M = z.hide M := by
  unfold hostCopyOut
  have k0 : Nat.land 0x4010380270 M = _ := sub_trans rfl hM
  have k1 : Nat.land 0x2 M = _ := sub_trans rfl hM
  have k2 : Nat.land 0x80000000000 M = _ := sub_trans rfl hM
  have k3 : Nat.land 0x4000000070 M = _ := sub_trans rfl hM
  have b4 : M.testBit 54 = true := sub_bit hM rfl
  repeat' (first | with_reducible assumption | simp only [State.hide_outbox b4] | with_reducible apply complete_fr k0 | with_reducible apply State.draw_fr k1 | with_reducible apply State.setBme_fr k2 | with_reducible apply sliceLoads_fr k3 | with_reducible apply foldl_fr | with_reducible apply foldl_fr_fst | (intro _ _ _) | split)

theorem readCompletion_fr {z : State} {M : Nat} (hM : Nat.land 0x104010380270 M = 0x104010380270) (s : State) (id offset : Nat) (data : List Byte) (fail : Bool) (hs : s.hide M = z.hide M) :
    (readCompletion s id offset data fail).hide M = z.hide M := by
  unfold readCompletion
  have k0 : Nat.land 0x4010380270 M = _ := sub_trans rfl hM
  have k1 : Nat.land 0x200000 M = _ := sub_trans rfl hM
  have k2 : Nat.land 0x4010000270 M = _ := sub_trans rfl hM
  have b3 : M.testBit 44 = true := sub_bit hM rfl
  repeat' (first | with_reducible assumption | simp only [State.hide_hostReads b3] | with_reducible apply complete_fr k0 | with_reducible apply State.updCmd_fr k1 | with_reducible apply storeUp_fr k2 | with_reducible apply foldl_fr | with_reducible apply foldl_fr_fst | (intro _ _ _) | split)

theorem loseHostReads_fr {z : State} {M : Nat} (hM : Nat.land 0x104090380270 M = 0x104090380270) (s : State) (hs : s.hide M = z.hide M) :
    (loseHostReads s).hide M = z.hide M := by
  unfold loseHostReads
  have k0 : Nat.land 0x4010380270 M = _ := sub_trans rfl hM
  have b1 : M.testBit 31 = true := sub_bit hM rfl
  have b2 : M.testBit 44 = true := sub_bit hM rfl
  repeat' (first | with_reducible assumption | simp only [State.hide_streams_hostReads b1 b2] | with_reducible apply complete_fr k0 | with_reducible apply foldl_fr | with_reducible apply foldl_fr_fst | (intro _ _ _) | split)

theorem bar2WindowBase_fr {z : State} {M : Nat} (hM : Nat.land 0x60000000000 M = 0x60000000000) (s : State) (value sizeLog : Nat) (hs : s.hide M = z.hide M) :
    (bar2WindowBase s value sizeLog).hide M = z.hide M := by
  unfold bar2WindowBase
  have b0 : M.testBit 42 = true := sub_bit hM rfl
  have b1 : M.testBit 41 = true := sub_bit hM rfl
  repeat' (first | with_reducible assumption | simp only [State.hide_bar2Log b0] | simp only [State.hide_bar2Base b1] | simp only [State.hide_bar2Base_bar2Log b1 b0] | with_reducible apply foldl_fr | with_reducible apply foldl_fr_fst | (intro _ _ _) | split)

theorem bar2Read_fr {z : State} {M : Nat} (hM : Nat.land 0x40004000000072 M = 0x40004000000072) (s : State) (offset n : Nat) (hs : s.hide M = z.hide M) :
    (bar2Read s offset n).hide M = z.hide M := by
  unfold bar2Read
  have k0 : Nat.land 0x2 M = _ := sub_trans rfl hM
  have k1 : Nat.land 0x40000000000000 M = _ := sub_trans rfl hM
  have k2 : Nat.land 0x4000000070 M = _ := sub_trans rfl hM
  repeat' (first | with_reducible assumption | with_reducible apply State.draw_fr k0 | with_reducible apply State.send_fr k1 | with_reducible apply sliceLoads_fr k2 | with_reducible apply foldl_fr | with_reducible apply foldl_fr_fst | (intro _ _ _) | split)

theorem bar2Store_fr {z : State} {M : Nat} (hM : Nat.land 0x4010000270 M = 0x4010000270) (s : State) (o : Nat) (bs : List Byte) (ep : Bool) (hs : s.hide M = z.hide M) :
    (bar2Store s o bs ep).hide M = z.hide M := by
  unfold bar2Store
  have k0 : Nat.land 0x20 M = _ := sub_trans rfl hM
  have k1 : Nat.land 0x4010000070 M = _ := sub_trans rfl hM
  have k2 : Nat.land 0x4000000030 M = _ := sub_trans rfl hM
  have k3 : Nat.land 0x4010000270 M = _ := sub_trans rfl hM
  repeat' (first | with_reducible assumption | with_reducible apply State.addPoison_fr k0 | with_reducible apply State.copyOnWrite_fr k1 | with_reducible apply sliceStores_fr k2 | with_reducible apply State.storeP_fr k3 | with_reducible apply foldl_fr | with_reducible apply foldl_fr_fst | (intro _ _ _) | split)

theorem bar2Write_fr {z : State} {M : Nat} (hM : Nat.land 0x4010000270 M = 0x4010000270) (s : State) (offset : Nat) (data : List Byte) (ep : Bool) (hs : s.hide M = z.hide M) :
    (bar2Write s offset data ep).hide M = z.hide M := by
  unfold bar2Write
  have k0 : Nat.land 0x4010000270 M = _ := sub_trans rfl hM
  repeat' (first | with_reducible assumption | with_reducible apply bar2Store_fr k0 | with_reducible apply foldl_fr | with_reducible apply foldl_fr_fst | (intro _ _ _) | split)

theorem overrunDecide_fr {z : State} {M : Nat} (hM : Nat.land 0x400000802e0a40 M = 0x400000802e0a40) (s : State) (e : Nat × List Nat) (c : Nat) (hs : s.hide M = z.hide M) :
    (overrunDecide s e c).hide M = z.hide M := by
  unfold overrunDecide
  have k0 : Nat.land 0x800 M = _ := sub_trans rfl hM
  have k1 : Nat.land 0x400000802e0a40 M = _ := sub_trans rfl hM
  have k2 : Nat.land 0x40 M = _ := sub_trans rfl hM
  have k3 : Nat.land 0x80000 M = _ := sub_trans rfl hM
  have k4 : Nat.land 0x200 M = _ := sub_trans rfl hM
  have k5 : Nat.land 0x200000 M = _ := sub_trans rfl hM
  repeat' (first | with_reducible assumption | with_reducible apply State.cellAdd_fr k0 | with_reducible apply overrunPiece_fr k1 | with_reducible apply State.odAdd_fr k2 | with_reducible apply State.updCtx_fr k3 | with_reducible apply State.updPiece_fr k4 | with_reducible apply State.updCmd_fr k5 | with_reducible apply foldl_fr | with_reducible apply foldl_fr_fst | (intro _ _ _) | split)

theorem unclaim_fr {z : State} {M : Nat} (hM : Nat.land 0x80200 M = 0x80200) (s : State) (c : Nat) (hs : s.hide M = z.hide M) :
    (unclaim s c).hide M = z.hide M := by
  unfold unclaim
  have k0 : Nat.land 0x80000 M = _ := sub_trans rfl hM
  have k1 : Nat.land 0x200 M = _ := sub_trans rfl hM
  repeat' (first | with_reducible assumption | with_reducible apply requeue_fr k0 | with_reducible apply State.updCell_fr k1 | with_reducible apply foldl_fr | with_reducible apply foldl_fr_fst | (intro _ _ _) | split)

theorem dropSlices_fr {z : State} {M : Nat} (hM : Nat.land 0x10000000000000 M = 0x10000000000000) (s : State) (hs : s.hide M = z.hide M) :
    (dropSlices s).hide M = z.hide M := by
  unfold dropSlices
  have b0 : M.testBit 52 = true := sub_bit hM rfl
  repeat' (first | with_reducible assumption | simp only [State.hide_phys b0])

theorem ageLeases_fr {z : State} {M : Nat} (hM : Nat.land 0x40000 M = 0x40000) (s : State) (hs : s.hide M = z.hide M) :
    (ageLeases s).hide M = z.hide M := by
  unfold ageLeases
  have b0 : M.testBit 18 = true := sub_bit hM rfl
  repeat' (first | with_reducible assumption | simp only [State.hide_sync b0])

theorem startCalibrations_fr {z : State} {M : Nat} (hM : Nat.land 0x21000000 M = 0x21000000) (s : State) (p : Pattern) (hs : s.hide M = z.hide M) :
    (startCalibrations s p).hide M = z.hide M := by
  unfold startCalibrations
  have k0 : Nat.land 0x1000000 M = _ := sub_trans rfl hM
  have b1 : M.testBit 29 = true := sub_bit hM rfl
  repeat' (first | with_reducible assumption | simp only [State.hide_pllCal b1] | with_reducible apply calibratePort_fr k0 | with_reducible apply foldl_fr | with_reducible apply foldl_fr_fst | (intro _ _ _) | split)

theorem applyPoint_fr {z : State} {M : Nat} (hM : Nat.land 0x200000000 M = 0x200000000) (s : State) (e : Nat) (hs : s.hide M = z.hide M) :
    (applyPoint s e).hide M = z.hide M := by
  unfold applyPoint
  have b0 : M.testBit 33 = true := sub_bit hM rfl
  repeat' (first | with_reducible assumption | simp only [State.hide_clock b0] | with_reducible apply foldl_fr | with_reducible apply foldl_fr_fst | (intro _ _ _) | split)

theorem handOutCells_fr {z : State} {M : Nat} (hM : Nat.land 0x80100 M = 0x80100) (s : State) (e : Nat × List Nat) (hs : s.hide M = z.hide M) :
    (handOutCells s e).hide M = z.hide M := by
  unfold handOutCells
  have b0 : M.testBit 8 = true := sub_bit hM rfl
  have b1 : M.testBit 19 = true := sub_bit hM rfl
  repeat' (first | with_reducible assumption | simp only [State.hide_job b0] | simp only [State.hide_ctxs b1] | simp only [State.hide_job_ctxs b0 b1])

theorem jobEdge_fr {z : State} {M : Nat} (hM : Nat.land 0x400042b13f0b70 M = 0x400042b13f0b70) (s : State) (hs : s.hide M = z.hide M) :
    (jobEdge s).hide M = z.hide M := by
  unfold jobEdge
  have k0 : Nat.land 0x40000 M = _ := sub_trans rfl hM
  have k1 : Nat.land 0x200000000 M = _ := sub_trans rfl hM
  have k2 : Nat.land 0x200000 M = _ := sub_trans rfl hM
  have k3 : Nat.land 0x80100 M = _ := sub_trans rfl hM
  have k4 : Nat.land 0x4010290370 M = _ := sub_trans rfl hM
  have k5 : Nat.land 0x80000 M = _ := sub_trans rfl hM
  have k6 : Nat.land 0x400000802e0a40 M = _ := sub_trans rfl hM
  have k7 : Nat.land 0x4010380270 M = _ := sub_trans rfl hM
  have k8 : Nat.land 0x21000000 M = _ := sub_trans rfl hM
  have k9 : Nat.land 0x4010380270 M = _ := sub_trans rfl hM
  have k10 : Nat.land 0x4010380370 M = _ := sub_trans rfl hM
  have k11 : Nat.land 0x80200 M = _ := sub_trans rfl hM
  have b12 : M.testBit 19 = true := sub_bit hM rfl
  repeat' (first | with_reducible assumption | simp only [State.hide_ctxs b12] | with_reducible apply ageLeases_fr k0 | with_reducible apply applyPoint_fr k1 | with_reducible apply countDeferral_fr k2 | with_reducible apply handOutCells_fr k3 | with_reducible apply hotSetEdge_fr k4 | with_reducible apply noteGathers_fr k5 | with_reducible apply overrunDecide_fr k6 | with_reducible apply refuseLate_fr k7 | with_reducible apply startCalibrations_fr k8 | with_reducible apply swapsDue_fr k9 | with_reducible apply takePattern_fr k10 | with_reducible apply unclaim_fr k11 | with_reducible apply foldl_fr | with_reducible apply foldl_fr_fst | (intro _ _ _) | split)

theorem sendMarker_fr {z : State} {M : Nat} (hM : Nat.land 0x40000000000000 M = 0x40000000000000) (s : State) (hs : s.hide M = z.hide M) :
    (sendMarker s).hide M = z.hide M := by
  unfold sendMarker
  have k0 : Nat.land 0x40000000000000 M = _ := sub_trans rfl hM
  repeat' (first | with_reducible assumption | with_reducible apply State.send_fr k0)

theorem rootMarker_fr {z : State} {M : Nat} (hM : Nat.land 0x40000000000000 M = 0x40000000000000) (s : State) (hs : s.hide M = z.hide M) :
    (rootMarker s).hide M = z.hide M := by
  unfold rootMarker
  have k0 : Nat.land 0x40000000000000 M = _ := sub_trans rfl hM
  repeat' (first | with_reducible assumption | with_reducible apply sendMarker_fr k0 | with_reducible apply foldl_fr | with_reducible apply foldl_fr_fst | (intro _ _ _) | split)

theorem watchMarkers_fr {z : State} {M : Nat} (hM : Nat.land 0xc0 M = 0xc0) (s : State) (n : Nat) (hs : s.hide M = z.hide M) :
    (watchMarkers s n).hide M = z.hide M := by
  unfold watchMarkers
  have k0 : Nat.land 0x40 M = _ := sub_trans rfl hM
  have k1 : Nat.land 0x40 M = _ := sub_trans rfl hM
  have b2 : M.testBit 7 = true := sub_bit hM rfl
  repeat' (first | with_reducible assumption | simp only [State.hide_stitch b2] | with_reducible apply logEvent_fr k0 | with_reducible apply State.odAdd_fr k1 | with_reducible apply foldl_fr | with_reducible apply foldl_fr_fst | (intro _ _ _) | split)

theorem rejoinBlocks_fr {z : State} {M : Nat} (hM : Nat.land 0x400 M = 0x400) (s : State) (hs : s.hide M = z.hide M) :
    (rejoinBlocks s).hide M = z.hide M := by
  unfold rejoinBlocks
  have b0 : M.testBit 10 = true := sub_bit hM rfl
  repeat' (first | with_reducible assumption | simp only [State.hide_blocks b0])

theorem edge_fr {z : State} {M : Nat} (hM : Nat.land 0x500042f13f0ff8 M = 0x500042f13f0ff8) (s : State) (hs : s.hide M = z.hide M) :
    (edge s).hide M = z.hide M := by
  unfold edge
  have k0 : Nat.land 0x10000000000000 M = _ := sub_trans rfl hM
  have k1 : Nat.land 0x41000000 M = _ := sub_trans rfl hM
  have k2 : Nat.land 0x400042b13f0b70 M = _ := sub_trans rfl hM
  have k3 : Nat.land 0x4010380370 M = _ := sub_trans rfl hM
  have k4 : Nat.land 0x400 M = _ := sub_trans rfl hM
  have k5 : Nat.land 0x40000001000000 M = _ := sub_trans rfl hM
  have k6 : Nat.land 0x40000000000000 M = _ := sub_trans rfl hM
  have k7 : Nat.land 0xc0 M = _ := sub_trans rfl hM
  have b8 : M.testBit 3 = true := sub_bit hM rfl
  repeat' (first | with_reducible assumption | simp only [State.hide_offset b8] | with_reducible apply dropSlices_fr k0 | with_reducible apply endIdle_fr k1 | with_reducible apply jobEdge_fr k2 | with_reducible apply jobOwned_fr k3 | with_reducible apply rejoinBlocks_fr k4 | with_reducible apply resumePorts_fr k5 | with_reducible apply rootMarker_fr k6 | with_reducible apply watchMarkers_fr k7 | with_reducible apply foldl_fr | with_reducible apply foldl_fr_fst | (intro _ _ _) | split)

theorem stitchEdge_fr {z : State} {M : Nat} (hM : Nat.land 0x500042f13f0ff8 M = 0x500042f13f0ff8) (s : State) (hs : s.hide M = z.hide M) :
    (stitchEdge s).hide M = z.hide M := by
  unfold stitchEdge
  have k0 : Nat.land 0x500042f13f0ff8 M = _ := sub_trans rfl hM
  repeat' (first | with_reducible assumption | with_reducible apply edge_fr k0 | with_reducible apply foldl_fr | with_reducible apply foldl_fr_fst | (intro _ _ _) | split)

theorem stitchInEdge_fr {z : State} {M : Nat} (hM : Nat.land 0x500042f13f0ff8 M = 0x500042f13f0ff8) (s : State) (us : Nat) (hs : s.hide M = z.hide M) :
    (stitchInEdge s us).hide M = z.hide M := by
  unfold stitchInEdge
  have k0 : Nat.land 0x500042f13f0ff8 M = _ := sub_trans rfl hM
  have k1 : Nat.land 0x40 M = _ := sub_trans rfl hM
  have k2 : Nat.land 0x40 M = _ := sub_trans rfl hM
  have b3 : M.testBit 7 = true := sub_bit hM rfl
  repeat' (first | with_reducible assumption | simp only [State.hide_stitch b3] | with_reducible apply edge_fr k0 | with_reducible apply logEvent_fr k1 | with_reducible apply State.odAdd_fr k2 | with_reducible apply foldl_fr | with_reducible apply foldl_fr_fst | (intro _ _ _) | split)

theorem enterLost_fr {z : State} {M : Nat} (hM : Nat.land 0xc0 M = 0xc0) (s : State) (hs : s.hide M = z.hide M) :
    (enterLost s).hide M = z.hide M := by
  unfold enterLost
  have k0 : Nat.land 0x40 M = _ := sub_trans rfl hM
  have b1 : M.testBit 7 = true := sub_bit hM rfl
  repeat' (first | with_reducible assumption | simp only [State.hide_stitch b1] | with_reducible apply logEvent_fr k0 | with_reducible apply foldl_fr | with_reducible apply foldl_fr_fst | (intro _ _ _) | split)

theorem takeOver_fr {z : State} {M : Nat} (hM : Nat.land 0x80 M = 0x80) (s : State) (hs : s.hide M = z.hide M) :
    (takeOver s).hide M = z.hide M := by
  unfold takeOver
  have b0 : M.testBit 7 = true := sub_bit hM rfl
  repeat' (first | with_reducible assumption | simp only [State.hide_stitch b0])

theorem hearRoot_fr {z : State} {M : Nat} (hM : Nat.land 0x80 M = 0x80) {s t : State} {sender : Nat} (e : hearRoot s sender = some t) (h : s.hide M = z.hide M) :
    t.hide M = z.hide M := by
  unfold hearRoot at e
  split at e
  · cases e
  · split at e
    · cases e; exact (State.hide_stitch (sub_bit hM rfl)).trans h
    · split at e
      · cases e; exact takeOver_fr (sub_trans rfl hM) s h
      · cases e

theorem stitchMarker_fr {z : State} {M : Nat} (hM : Nat.land 0x80 M = 0x80) (s : State) (plane sender n : Nat) (t : Int) (hs : s.hide M = z.hide M) :
    (stitchMarker s plane sender n t).hide M = z.hide M := by
  unfold stitchMarker
  have b0 : M.testBit 7 = true := sub_bit hM rfl
  repeat' (first | with_reducible assumption | simp only [State.hide_stitch b0] | exact hearRoot_fr (sub_trans rfl hM) (by assumption) (by assumption) | with_reducible apply foldl_fr | with_reducible apply foldl_fr_fst | (intro _ _ _) | split)

theorem standbyTakeover_fr {z : State} {M : Nat} (hM : Nat.land 0x40000000000080 M = 0x40000000000080) (s : State) (us : Nat) (hs : s.hide M = z.hide M) :
    (standbyTakeover s us).hide M = z.hide M := by
  unfold standbyTakeover
  have k0 : Nat.land 0x40000000000000 M = _ := sub_trans rfl hM
  have k1 : Nat.land 0x80 M = _ := sub_trans rfl hM
  have b2 : M.testBit 7 = true := sub_bit hM rfl
  repeat' (first | with_reducible assumption | simp only [State.hide_stitch b2] | with_reducible apply sendMarker_fr k0 | with_reducible apply takeOver_fr k1 | with_reducible apply foldl_fr | with_reducible apply foldl_fr_fst | (intro _ _ _) | split)

theorem FenceUnit.updFencing_fr {z : State} {M : Nat} (hM : Nat.land 0x600 M = 0x600) (s : State) (f : Fencing → Fencing) (u : FenceUnit) (h : s.hide M = z.hide M) :
    (FenceUnit.updFencing s f u).hide M = z.hide M := by
  cases u
  · exact State.updCell_fr (sub_trans rfl hM) _ _ _ h
  · exact State.setBlock_fr (sub_trans rfl hM) _ _ _ h

theorem FenceUnit.advance_fr {z : State} {M : Nat} (hM : Nat.land 0x600 M = 0x600) (s : State) (cause : Nat) (units : List Nat) (u : FenceUnit) (h : s.hide M = z.hide M) :
    (FenceUnit.advance s cause units u).hide M = z.hide M := by
  cases u
  · exact State.updCell_fr (sub_trans rfl hM) _ _ _ h
  · simp only [FenceUnit.advance]
    split
    · exact foldl_fr (State.setBlock_fr (sub_trans rfl hM) _ _ _ h) fun _ _ ht => State.updCell_fr (sub_trans rfl hM) _ _ _ ht
    · exact State.setBlock_fr (sub_trans rfl hM) _ _ _ h

theorem poisonTile_fr {z : State} {M : Nat} (hM : Nat.land 0x20 M = 0x20) (s : State) (t : Tile) (hs : s.hide M = z.hide M) :
    (poisonTile s t).hide M = z.hide M := by
  unfold poisonTile
  have k0 : Nat.land 0x20 M = _ := sub_trans rfl hM
  repeat' (first | with_reducible assumption | with_reducible apply State.addPoison_fr k0 | with_reducible apply foldl_fr | with_reducible apply foldl_fr_fst | (intro _ _ _))

theorem loseWelt_fr {z : State} {M : Nat} (hM : Nat.land 0x90000 M = 0x90000) (s : State) (c : Nat) (hs : s.hide M = z.hide M) :
    (loseWelt s c).hide M = z.hide M := by
  unfold loseWelt
  have b0 : M.testBit 16 = true := sub_bit hM rfl
  have b1 : M.testBit 19 = true := sub_bit hM rfl
  repeat' (first | with_reducible assumption | simp only [State.hide_welt_ctxs b0 b1])

theorem loseCommits_fr {z : State} {M : Nat} (hM : Nat.land 0x40000000000200 M = 0x40000000000200) (s : State) (c : Nat) (hs : s.hide M = z.hide M) :
    (loseCommits s c).hide M = z.hide M := by
  unfold loseCommits
  have k0 : Nat.land 0x40000000000000 M = _ := sub_trans rfl hM
  have k1 : Nat.land 0x200 M = _ := sub_trans rfl hM
  have b2 : M.testBit 54 = true := sub_bit hM rfl
  repeat' (first | with_reducible assumption | simp only [State.hide_outbox b2] | with_reducible apply State.send_fr k0 | with_reducible apply State.updCell_fr k1 | with_reducible fail | with_reducible fail | with_reducible apply foldl_fr | with_reducible apply foldl_fr_fst | (intro _ _ _))

theorem stopCell_fr {z : State} {M : Nat} (hM : Nat.land 0x500040903f1270 M = 0x500040903f1270) (s : State) (c : Nat) (h : s.hide M = z.hide M) : (stopCell s c).hide M = z.hide M := by
  unfold stopCell
  extract_lets s1 s2 lost s3 s4
  have h1 : s1.hide M = z.hide M := by
    show (match s.pieceOf c with
      | none => dropWaiters s c
      | some p => _ : State).hide M = z.hide M
    split
    · exact dropWaiters_fr (sub_trans rfl hM) _ _ h
    · split
      · exact commitPiece_fr (sub_trans rfl hM) _ _ _ h
      · split
        · exact State.updPiece_fr (sub_trans rfl hM) _ _ _ (dropWaiters_fr (sub_trans rfl hM) _ _ h)
        · dsimp only
          split <;> exact requeue_fr (sub_trans rfl hM) _ _ _ (abandon_fr (sub_trans rfl hM) _ _ _ h)
  have h4 : s4.hide M = z.hide M := State.updCell_fr (sub_trans rfl hM) _ _ _ (foldl_fr (loseCommits_fr (sub_trans rfl hM) _ _ h1) fun _ _ ht => poisonTile_fr (sub_trans rfl hM) _ _ ht)
  split
  · exact loseWelt_fr (sub_trans rfl hM) _ _ (State.updPhys_fr (sub_trans rfl hM) _ _ _ _ h4)
  · exact loseWelt_fr (sub_trans rfl hM) _ _ h4

theorem loseLoad_fr {z : State} {M : Nat} (hM : Nat.land 0x4010000272 M = 0x4010000272) (s : State) (c : Nat) (t : Xfer) (hs : s.hide M = z.hide M) :
    (loseLoad s c t).hide M = z.hide M := by
  unfold loseLoad
  have k0 : Nat.land 0x200 M = _ := sub_trans rfl hM
  have k1 : Nat.land 0x2 M = _ := sub_trans rfl hM
  have k2 : Nat.land 0x200 M = _ := sub_trans rfl hM
  have k3 : Nat.land 0x4010000270 M = _ := sub_trans rfl hM
  have k4 : Nat.land 0x4010000270 M = _ := sub_trans rfl hM
  repeat' (first | with_reducible assumption | with_reducible apply countLanded_fr k0 | with_reducible apply State.draw_fr k1 | with_reducible apply State.updCell_fr k2 | with_reducible apply storeEls_fr k3 | with_reducible apply State.store_fr k4 | with_reducible apply foldl_fr | with_reducible apply foldl_fr_fst | (intro _ _ _) | split)

theorem loseStore_fr {z : State} {M : Nat} (hM : Nat.land 0x240 M = 0x240) (s : State) (c : Nat) (t : Xfer) (hs : s.hide M = z.hide M) :
    (loseStore s c t).hide M = z.hide M := by
  unfold loseStore
  have k0 : Nat.land 0x200 M = _ := sub_trans rfl hM
  have k1 : Nat.land 0x40 M = _ := sub_trans rfl hM
  have k2 : Nat.land 0x200 M = _ := sub_trans rfl hM
  repeat' (first | with_reducible assumption | with_reducible apply countLanded_fr k0 | with_reducible apply State.odAdd_fr k1 | with_reducible apply State.updCell_fr k2)

theorem loseXfer_fr {z : State} {M : Nat} (hM : Nat.land 0x4010040272 M = 0x4010040272) (s : State) (u : FenceUnit) (c : Nat) (t : Xfer) (hs : s.hide M = z.hide M) :
    (loseXfer s u c t).hide M = z.hide M := by
  unfold loseXfer
  have k0 : Nat.land 0x4010000272 M = _ := sub_trans rfl hM
  have k1 : Nat.land 0x240 M = _ := sub_trans rfl hM
  have k2 : Nat.land 0x200 M = _ := sub_trans rfl hM
  have k3 : Nat.land 0x40000 M = _ := sub_trans rfl hM
  repeat' (first | with_reducible assumption | with_reducible apply loseLoad_fr k0 | with_reducible apply loseStore_fr k1 | with_reducible apply State.updPiece_fr k2 | with_reducible apply settleHeld_fr k3 | with_reducible apply foldl_fr | with_reducible apply foldl_fr_fst | (intro _ _ _) | split)

theorem loseRequests_fr {z : State} {M : Nat} (hM : Nat.land 0x4010040272 M = 0x4010040272) (s : State) (u : FenceUnit) (hs : s.hide M = z.hide M) :
    (loseRequests s u).hide M = z.hide M := by
  unfold loseRequests
  have k0 : Nat.land 0x4010040272 M = _ := sub_trans rfl hM
  repeat' (first | with_reducible assumption | with_reducible apply loseXfer_fr k0 | with_reducible apply foldl_fr | with_reducible apply foldl_fr_fst | (intro _ _ _))

theorem stagingLost_fr {z : State} {M : Nat} (hM : Nat.land 0x6000000000000 M = 0x6000000000000) (s : State) (hs : s.hide M = z.hide M) :
    (stagingLost s).hide M = z.hide M := by
  unfold stagingLost
  have b0 : M.testBit 49 = true := sub_bit hM rfl
  have b1 : M.testBit 50 = true := sub_bit hM rfl
  repeat' (first | with_reducible assumption | simp only [State.hide_flash_secure b0 b1] | with_reducible apply foldl_fr | with_reducible apply foldl_fr_fst | (intro _ _ _) | split)

theorem endTransfers_fr {z : State} {M : Nat} (hM : Nat.land 0x6400000000000 M = 0x6400000000000) (s : State) (p : Transfer → Bool) (hs : s.hide M = z.hide M) :
    (endTransfers s p).hide M = z.hide M := by
  unfold endTransfers
  have k0 : Nat.land 0x6000000000000 M = _ := sub_trans rfl hM
  have b1 : M.testBit 46 = true := sub_bit hM rfl
  repeat' (first | with_reducible assumption | simp only [State.hide_transfers b1] | with_reducible apply stagingLost_fr k0 | with_reducible apply foldl_fr | with_reducible apply foldl_fr_fst | (intro _ _ _) | split)

theorem endSessions_fr {z : State} {M : Nat} (hM : Nat.land 0x7600000000000 M = 0x7600000000000) (s : State) (hs : s.hide M = z.hide M) :
    (endSessions s).hide M = z.hide M := by
  unfold endSessions
  have k0 : Nat.land 0x6400000000000 M = _ := sub_trans rfl hM
  have b1 : M.testBit 45 = true := sub_bit hM rfl
  have b2 : M.testBit 48 = true := sub_bit hM rfl
  have b3 : M.testBit 50 = true := sub_bit hM rfl
  repeat' (first | with_reducible assumption | simp only [State.hide_odQueue_sessions_secure b1 b2 b3] | with_reducible apply endTransfers_fr k0)

theorem loseOd_fr {z : State} {M : Nat} (hM : Nat.land 0x6e04010380270 M = 0x6e04010380270) (s : State) (hs : s.hide M = z.hide M) :
    (loseOd s).hide M = z.hide M := by
  unfold loseOd
  have k0 : Nat.land 0x4010380270 M = _ := sub_trans rfl hM
  have k1 : Nat.land 0x6000000000000 M = _ := sub_trans rfl hM
  have b2 : M.testBit 45 = true := sub_bit hM rfl
  have b3 : M.testBit 46 = true := sub_bit hM rfl
  have b4 : M.testBit 47 = true := sub_bit hM rfl
  repeat' (first | with_reducible assumption | simp only [State.hide_odQueue_transfers_mailbox b2 b3 b4] | with_reducible apply complete_fr k0 | with_reducible apply stagingLost_fr k1 | with_reducible apply foldl_fr | with_reducible apply foldl_fr_fst | (intro _ _ _) | split)

theorem loseHub_fr {z : State} {M : Nat} (hM : Nat.land 0x7f04b90380270 M = 0x7f04b90380270) (s : State) (b : Nat) (hs : s.hide M = z.hide M) :
    (loseHub s b).hide M = z.hide M := by
  unfold loseHub
  have k0 : Nat.land 0x7600000000000 M = _ := sub_trans rfl hM
  have k1 : Nat.land 0x4090380270 M = _ := sub_trans rfl hM
  have k2 : Nat.land 0x104090380270 M = _ := sub_trans rfl hM
  have k3 : Nat.land 0x6e04010380270 M = _ := sub_trans rfl hM
  have b4 : M.testBit 32 = true := sub_bit hM rfl
  have b5 : M.testBit 33 = true := sub_bit hM rfl
  have b6 : M.testBit 35 = true := sub_bit hM rfl
  repeat' (first | with_reducible assumption | simp only [State.hide_schedDown b4] | simp only [State.hide_clock_powerDown b5 b6] | simp only [State.hide_schedDown_clock_powerDown b4 b5 b6] | with_reducible apply endSessions_fr k0 | with_reducible apply endStream_fr k1 | with_reducible apply loseHostReads_fr k2 | with_reducible apply loseOd_fr k3 | with_reducible apply foldl_fr | with_reducible apply foldl_fr_fst | (intro _ _ _) | split)

theorem fence_fr {z : State} {M : Nat} (hM : Nat.land 0x57f04b903f1672 M = 0x57f04b903f1672) (s : State) (u : FenceUnit) (cause : Nat) (hs : s.hide M = z.hide M) :
    (fence s u cause).hide M = z.hide M := by
  unfold fence
  have k0 : Nat.land 0x7f04b90380270 M = _ := sub_trans rfl hM
  have k1 : Nat.land 0x4010040272 M = _ := sub_trans rfl hM
  have k2 : Nat.land 0x40 M = _ := sub_trans rfl hM
  have k3 : Nat.land 0x500040903f1270 M = _ := sub_trans rfl hM
  have k4 : Nat.land 0x600 M = _ := sub_trans rfl hM
  repeat' (first | with_reducible assumption | with_reducible apply loseHub_fr k0 | with_reducible apply loseRequests_fr k1 | with_reducible apply State.odAdd_fr k2 | with_reducible apply stopCell_fr k3 | with_reducible apply FenceUnit.advance_fr k4 | with_reducible apply foldl_fr | with_reducible apply foldl_fr_fst | (intro _ _ _) | split)

theorem cancelStores_fr {z : State} {M : Nat} (hM : Nat.land 0x200 M = 0x200) (s : State) (c target : Nat) (hs : s.hide M = z.hide M) :
    (cancelStores s c target).1.hide M = z.hide M := by
  unfold cancelStores
  have k0 : Nat.land 0x200 M = _ := sub_trans rfl hM
  repeat' (first | with_reducible assumption | with_reducible apply State.updCell_fr k0)

theorem cancelAdds_fr {z : State} {M : Nat} (hM : Nat.land 0x220 M = 0x220) (s : State) (c target : Nat) (hs : s.hide M = z.hide M) :
    (cancelAdds s c target).1.hide M = z.hide M := by
  unfold cancelAdds
  have k0 : Nat.land 0x20 M = _ := sub_trans rfl hM
  have k1 : Nat.land 0x200 M = _ := sub_trans rfl hM
  repeat' (first | with_reducible assumption | with_reducible apply poisonTile_fr k0 | with_reducible apply State.updCell_fr k1 | with_reducible apply foldl_fr)

theorem fenceNotice_fr {z : State} {M : Nat} (hM : Nat.land 0x400040903e0670 M = 0x400040903e0670) (s : State) (u : FenceUnit) (target : Nat) (hs : s.hide M = z.hide M) :
    (fenceNotice s u target).hide M = z.hide M := by
  unfold fenceNotice
  have k0 : Nat.land 0x220 M = _ := sub_trans rfl hM
  have k1 : Nat.land 0x200 M = _ := sub_trans rfl hM
  have k2 : Nat.land 0x400040903e0270 M = _ := sub_trans rfl hM
  have k3 : Nat.land 0x40000080040240 M = _ := sub_trans rfl hM
  have k4 : Nat.land 0x40 M = _ := sub_trans rfl hM
  have k5 : Nat.land 0x40000 M = _ := sub_trans rfl hM
  have k6 : Nat.land 0x600 M = _ := sub_trans rfl hM
  repeat' (first | with_reducible assumption | with_reducible apply cancelAdds_fr k0 | with_reducible apply cancelStores_fr k1 | with_reducible apply releaseLease_fr k2 | with_reducible apply returnUnits_fr k3 | with_reducible apply State.odAdd_fr k4 | with_reducible apply settleHeld_fr k5 | with_reducible apply FenceUnit.updFencing_fr k6 | with_reducible apply foldl_fr | with_reducible apply foldl_fr_fst | (intro _ _ _) | split)

theorem fenceEvent_fr {z : State} {M : Nat} (hM : Nat.land 0x40 M = 0x40) (s : State) (f : Fencing) (u : FenceUnit) (h : s.hide M = z.hide M) :
    (fenceEvent s f u).hide M = z.hide M := by
  cases u <;> exact logEvent_fr (sub_trans rfl hM) _ _ _ _ _ _ h

theorem fenceDone_fr {z : State} {M : Nat} (hM : Nat.land 0x600 M = 0x600) (s : State) (u : FenceUnit) (h : s.hide M = z.hide M) : (fenceDone s u).hide M = z.hide M := by
  cases u
  · exact State.updCell_fr (sub_trans rfl hM) _ _ _ h
  · exact State.setBlock_fr (sub_trans rfl hM) _ _ _ h

theorem fenceAck_fr {z : State} {M : Nat} (hM : Nat.land 0x640 M = 0x640) (s : State) (u : FenceUnit) (target : Nat) (hs : s.hide M = z.hide M) :
    (fenceAck s u target).hide M = z.hide M := by
  unfold fenceAck
  have k0 : Nat.land 0x600 M = _ := sub_trans rfl hM
  have k1 : Nat.land 0x40 M = _ := sub_trans rfl hM
  have k2 : Nat.land 0x600 M = _ := sub_trans rfl hM
  repeat' (first | with_reducible assumption | with_reducible apply fenceDone_fr k0 | with_reducible apply fenceEvent_fr k1 | with_reducible apply FenceUnit.updFencing_fr k2 | with_reducible apply foldl_fr | with_reducible apply foldl_fr_fst | (intro _ _ _) | split | dsimp only)

theorem resumeClock_fr {z : State} {M : Nat} (hM : Nat.land 0x200000000 M = 0x200000000) (s : State) (hs : s.hide M = z.hide M) :
    (resumeClock s).hide M = z.hide M := by
  unfold resumeClock
  have b0 : M.testBit 33 = true := sub_bit hM rfl
  repeat' (first | with_reducible assumption | simp only [State.hide_clock b0] | with_reducible apply foldl_fr | with_reducible apply foldl_fr_fst | (intro _ _ _) | split)

theorem resumeHub_fr {z : State} {M : Nat} (hM : Nat.land 0xb00000000 M = 0xb00000000) (s : State) (b : Nat) (hs : s.hide M = z.hide M) :
    (resumeHub s b).hide M = z.hide M := by
  unfold resumeHub
  have k0 : Nat.land 0x200000000 M = _ := sub_trans rfl hM
  have b1 : M.testBit 32 = true := sub_bit hM rfl
  have b2 : M.testBit 35 = true := sub_bit hM rfl
  repeat' (first | with_reducible assumption | simp only [State.hide_schedDown b1] | simp only [State.hide_powerDown b2] | simp only [State.hide_schedDown_powerDown b1 b2] | with_reducible apply resumeClock_fr k0 | with_reducible apply foldl_fr | with_reducible apply foldl_fr_fst | (intro _ _ _) | split)

theorem unfence_fr {z : State} {M : Nat} (hM : Nat.land 0xb00000440 M = 0xb00000440) (s : State) (b : Nat) (hs : s.hide M = z.hide M) :
    (unfence s b).hide M = z.hide M := by
  unfold unfence
  have k0 : Nat.land 0x40 M = _ := sub_trans rfl hM
  have k1 : Nat.land 0xb00000000 M = _ := sub_trans rfl hM
  have k2 : Nat.land 0x400 M = _ := sub_trans rfl hM
  repeat' (first | with_reducible assumption | with_reducible apply logEvent_fr k0 | with_reducible apply resumeHub_fr k1 | with_reducible apply State.setBlock_fr k2 | with_reducible apply foldl_fr | with_reducible apply foldl_fr_fst | (intro _ _ _) | split)

theorem failCell_fr {z : State} {M : Nat} (hM : Nat.land 0x57f04b903f1672 M = 0x57f04b903f1672) (s : State) (c cause : Nat) (hs : s.hide M = z.hide M) :
    (failCell s c cause).hide M = z.hide M := by
  unfold failCell
  have k0 : Nat.land 0x57f04b903f1672 M = _ := sub_trans rfl hM
  have k1 : Nat.land 0x400040903e0270 M = _ := sub_trans rfl hM
  repeat' (first | with_reducible assumption | with_reducible apply fence_fr k0 | with_reducible apply releaseLease_fr k1 | with_reducible apply foldl_fr | with_reducible apply foldl_fr_fst | (intro _ _ _) | split)

theorem memberExclude_fr {z : State} {M : Nat} (hM : Nat.land 0x401060f63f1370 M = 0x401060f63f1370) (s : State) (m : Nat) (hs : s.hide M = z.hide M) :
    (memberExclude s m).hide M = z.hide M := by
  unfold memberExclude
  have k0 : Nat.land 0x4012380270 M = _ := sub_trans rfl hM
  have k1 : Nat.land 0x401040f63f1370 M = _ := sub_trans rfl hM
  have k2 : Nat.land 0x40 M = _ := sub_trans rfl hM
  have k3 : Nat.land 0x40000000000000 M = _ := sub_trans rfl hM
  have b4 : M.testBit 8 = true := sub_bit hM rfl
  have b5 : M.testBit 19 = true := sub_bit hM rfl
  have b6 : M.testBit 37 = true := sub_bit hM rfl
  repeat' (first | with_reducible assumption | simp only [State.hide_job_ctxs_missing b4 b5 b6] | with_reducible apply endFab_fr k0 | with_reducible apply endJobFault_fr k1 | with_reducible apply logEvent_fr k2 | with_reducible apply State.send_fr k3 | with_reducible apply foldl_fr | with_reducible apply foldl_fr_fst | (intro _ _ _) | split)

theorem perstAssert_fr {z : State} {M : Nat} (hM : Nat.land 0x5ffc4b903f1672 M = 0x5ffc4b903f1672) (s : State) (hs : s.hide M = z.hide M) :
    (perstAssert s).hide M = z.hide M := by
  unfold perstAssert
  have k0 : Nat.land 0x57f04b903f1672 M = _ := sub_trans rfl hM
  have b1 : M.testBit 42 = true := sub_bit hM rfl
  have b2 : M.testBit 43 = true := sub_bit hM rfl
  have b3 : M.testBit 51 = true := sub_bit hM rfl
  repeat' (first | with_reducible assumption | simp only [State.hide_bar2Log_pcie_power b1 b2 b3] | with_reducible apply fence_fr k0 | with_reducible apply foldl_fr | with_reducible apply foldl_fr_fst | (intro _ _ _) | split)

theorem filtered_fr {z : State} {M : Nat} (hM : Nat.land 0x2 M = 0x2) (s : State) (ns : Nat) (f : State → State) (h : s.hide M = z.hide M)
    (k : ∀ t, t.hide M = z.hide M → (f t).hide M = z.hide M) : (filtered s ns f).hide M = z.hide M := by
  unfold filtered
  split
  · exact k _ (State.draw_fr (sub_trans rfl hM) s h)
  · exact State.draw_fr (sub_trans rfl hM) s h

theorem perstDeassert_fr {z : State} {M : Nat} (hM : Nat.land 0x8000b00000440 M = 0x8000b00000440) (s : State) (hs : s.hide M = z.hide M) :
    (perstDeassert s).hide M = z.hide M := by
  unfold perstDeassert
  have k0 : Nat.land 0xb00000440 M = _ := sub_trans rfl hM
  have b1 : M.testBit 51 = true := sub_bit hM rfl
  repeat' (first | with_reducible assumption | simp only [State.hide_power b1] | with_reducible apply unfence_fr k0)

theorem blank_fr {z : State} {M : Nat} (hM : Nat.land 0x7fffffffffffff M = 0x7fffffffffffff) (s : State) (h : s.hide M = z.hide M) : (blank s).hide M = z.hide M := by
  rw [← h]
  apply State.hide_mono hM
  rfl

theorem moduleReset_fr {z : State} {M : Nat} (hM : Nat.land 0x7fffffffffffff M = 0x7fffffffffffff) (s : State) (hs : s.hide M = z.hide M) :
    (moduleReset s).hide M = z.hide M := by
  unfold moduleReset
  have k0 : Nat.land 0x7fffffffffffff M = _ := sub_trans rfl hM
  have b1 : M.testBit 51 = true := sub_bit hM rfl
  repeat' (first | with_reducible assumption | simp only [State.hide_power b1] | with_reducible apply blank_fr k0)

theorem countExpiry_fr {z : State} {M : Nat} (hM : Nat.land 0x1000000040 M = 0x1000000040) (s : State) (sub processor : Nat) (hs : s.hide M = z.hide M) :
    (countExpiry s sub processor).hide M = z.hide M := by
  unfold countExpiry
  have k0 : Nat.land 0x40 M = _ := sub_trans rfl hM
  have k1 : Nat.land 0x40 M = _ := sub_trans rfl hM
  have b2 : M.testBit 36 = true := sub_bit hM rfl
  repeat' (first | with_reducible assumption | simp only [State.hide_watchdogs b2] | with_reducible apply logEvent_fr k0 | with_reducible apply State.odAdd_fr k1)

theorem resetAssert_fr {z : State} {M : Nat} (hM : Nat.land 0x7fffffffffffff M = 0x7fffffffffffff) (s : State) (hs : s.hide M = z.hide M) :
    (resetAssert s).hide M = z.hide M := by
  unfold resetAssert
  have k0 : Nat.land 0x7fffffffffffff M = _ := sub_trans rfl hM
  repeat' (first | with_reducible assumption | with_reducible apply moduleReset_fr k0 | with_reducible apply foldl_fr | with_reducible apply foldl_fr_fst | (intro _ _ _) | split)

theorem enterRecovery_fr {z : State} {M : Nat} (hM : Nat.land 0x4000000000000 M = 0x4000000000000) (s : State) (hs : s.hide M = z.hide M) :
    (enterRecovery s).hide M = z.hide M := by
  unfold enterRecovery
  have b0 : M.testBit 50 = true := sub_bit hM rfl
  repeat' (first | with_reducible assumption | simp only [State.hide_secure b0])

theorem trialFailed_fr {z : State} {M : Nat} (hM : Nat.land 0x6000000000000 M = 0x6000000000000) (s : State) (former : Bool) (hs : s.hide M = z.hide M) :
    (trialFailed s former).hide M = z.hide M := by
  unfold trialFailed
  have b0 : M.testBit 49 = true := sub_bit hM rfl
  have b1 : M.testBit 50 = true := sub_bit hM rfl
  repeat' (first | with_reducible assumption | simp only [State.hide_flash_secure b0 b1])

theorem bootTest_fr {z : State} {M : Nat} (hM : Nat.land 0x160142800ff670 M = 0x160142800ff670) (s : State) (fails : List (List Nat)) (bad : List Nat) (hs : s.hide M = z.hide M) :
    (bootTest s fails bad).hide M = z.hide M := by
  unfold bootTest
  have k0 : Nat.land 0x2000000000040 M = _ := sub_trans rfl hM
  have k1 : Nat.land 0x12010000000640 M = _ := sub_trans rfl hM
  have k2 : Nat.land 0x4000000000000 M = _ := sub_trans rfl hM
  have k3 : Nat.land 0x40 M = _ := sub_trans rfl hM
  have k4 : Nat.land 0x40800ff230 M = _ := sub_trans rfl hM
  have k5 : Nat.land 0x2000000000040 M = _ := sub_trans rfl hM
  have b6 : M.testBit 33 = true := sub_bit hM rfl
  repeat' (first | with_reducible assumption | simp only [State.hide_clock b6] | with_reducible apply applyFails_fr k0 | with_reducible apply bootMap_fr k1 | with_reducible apply enterRecovery_fr k2 | with_reducible apply State.odAdd_fr k3 | with_reducible apply scrubMemories_fr k4 | with_reducible apply unwritable_fr k5 | with_reducible apply foldl_fr | with_reducible apply foldl_fr_fst | (intro _ _ _) | split)

theorem bootFails_fr {z : State} {M : Nat} (hM : Nat.land 0x6000000000000 M = 0x6000000000000) (s : State) (preferred trial : Bool) (hs : s.hide M = z.hide M) :
    (bootFails s preferred trial).hide M = z.hide M := by
  unfold bootFails
  have k0 : Nat.land 0x4000000000000 M = _ := sub_trans rfl hM
  have k1 : Nat.land 0x6000000000000 M = _ := sub_trans rfl hM
  have b2 : M.testBit 50 = true := sub_bit hM rfl
  repeat' (first | with_reducible assumption | simp only [State.hide_secure b2] | with_reducible apply enterRecovery_fr k0 | with_reducible apply trialFailed_fr k1 | with_reducible apply foldl_fr | with_reducible apply foldl_fr_fst | (intro _ _ _) | split)

theorem clearLog_fr {z : State} {M : Nat} (hM : Nat.land 0x1000000040 M = 0x1000000040) (s : State) (hs : s.hide M = z.hide M) :
    (clearLog s).hide M = z.hide M := by
  unfold clearLog
  have b0 : M.testBit 6 = true := sub_bit hM rfl
  have b1 : M.testBit 36 = true := sub_bit hM rfl
  repeat' (first | with_reducible assumption | simp only [State.hide_od_watchdogs b0 b1])

theorem boot_fr {z : State} {M : Nat} (hM : Nat.land 0x1e0152800ff672 M = 0x1e0152800ff672) (s : State) (straps : Nat) (fails : List (List Nat)) (bad : List Nat) (hs : s.hide M = z.hide M) :
    (boot s straps fails bad).hide M = z.hide M := by
  unfold boot
  have k0 : Nat.land 0x6000000000000 M = _ := sub_trans rfl hM
  have k1 : Nat.land 0x160142800ff670 M = _ := sub_trans rfl hM
  have k2 : Nat.land 0x1000000040 M = _ := sub_trans rfl hM
  have k3 : Nat.land 0x2 M = _ := sub_trans rfl hM
  have k4 : Nat.land 0x40 M = _ := sub_trans rfl hM
  have k5 : Nat.land 0x6000000000000 M = _ := sub_trans rfl hM
  have b6 : M.testBit 50 = true := sub_bit hM rfl
  have b7 : M.testBit 51 = true := sub_bit hM rfl
  repeat' (first | with_reducible assumption | simp only [State.hide_secure b6] | simp only [State.hide_secure_power b6 b7] | with_reducible apply bootFails_fr k0 | with_reducible apply bootTest_fr k1 | with_reducible apply clearLog_fr k2 | with_reducible apply State.draw_fr k3 | with_reducible apply State.odSet_fr k4 | with_reducible apply trialFailed_fr k5 | with_reducible apply foldl_fr | with_reducible apply foldl_fr_fst | (intro _ _ _) | split)

theorem bootEvent_fr {z : State} {M : Nat} (hM : Nat.land 0x40 M = 0x40) (s : State) (hs : s.hide M = z.hide M) :
    (bootEvent s).hide M = z.hide M := by
  unfold bootEvent
  have k0 : Nat.land 0x40 M = _ := sub_trans rfl hM
  repeat' (first | with_reducible assumption | with_reducible fail | with_reducible apply logEvent_fr k0)

theorem processorReady_fr {z : State} {M : Nat} (hM : Nat.land 0x6000000000040 M = 0x6000000000040) (s : State) (hs : s.hide M = z.hide M) :
    (processorReady s).hide M = z.hide M := by
  unfold processorReady
  have k0 : Nat.land 0x40 M = _ := sub_trans rfl hM
  have b1 : M.testBit 50 = true := sub_bit hM rfl
  have b2 : M.testBit 49 = true := sub_bit hM rfl
  repeat' (first | with_reducible assumption | simp only [State.hide_secure b1] | simp only [State.hide_flash_secure b2 b1] | with_reducible fail | with_reducible apply bootEvent_fr k0 | with_reducible apply foldl_fr | with_reducible apply foldl_fr_fst | (intro _ _ _) | split)

theorem bootReadyTimeout_fr {z : State} {M : Nat} (hM : Nat.land 0x6000000000000 M = 0x6000000000000) (s : State) (hs : s.hide M = z.hide M) :
    (bootReadyTimeout s).hide M = z.hide M := by
  unfold bootReadyTimeout
  have k0 : Nat.land 0x6000000000000 M = _ := sub_trans rfl hM
  have k1 : Nat.land 0x4000000000000 M = _ := sub_trans rfl hM
  have k2 : Nat.land 0x6000000000000 M = _ := sub_trans rfl hM
  have b3 : M.testBit 50 = true := sub_bit hM rfl
  repeat' (first | with_reducible assumption | simp only [State.hide_secure b3] | with_reducible apply bootFails_fr k0 | with_reducible apply enterRecovery_fr k1 | with_reducible fail | with_reducible apply trialFailed_fr k2 | with_reducible apply foldl_fr | with_reducible apply foldl_fr_fst | (intro _ _ _) | split)

theorem controlWatchdog_fr {z : State} {M : Nat} (hM : Nat.land 0x57f05b903f1672 M = 0x57f05b903f1672) (s : State) (k : Nat) (hs : s.hide M = z.hide M) :
    (controlWatchdog s k).hide M = z.hide M := by
  unfold controlWatchdog
  have k0 : Nat.land 0x1000000040 M = _ := sub_trans rfl hM
  have k1 : Nat.land 0x57f04b903f1672 M = _ := sub_trans rfl hM
  have k2 : Nat.land 0x400 M = _ := sub_trans rfl hM
  repeat' (first | with_reducible assumption | with_reducible apply countExpiry_fr k0 | with_reducible apply fence_fr k1 | with_reducible apply State.setBlock_fr k2 | with_reducible apply foldl_fr | with_reducible apply foldl_fr_fst | (intro _ _ _) | split)

theorem whenRunning_fr {z : State} {M : Nat} (hM : Nat.land 0x0 M = 0x0) (s : State) (f : State → State) (h : s.hide M = z.hide M)
    (k : (f s).hide M = z.hide M) : (whenRunning s f).hide M = z.hide M := by
  unfold whenRunning
  split
  · exact k
  · exact h

theorem sliceAnswer_fr {z : State} {M : Nat} (hM : Nat.land 0x40000000000000 M = 0x40000000000000) (r : State × List (List Nat × Bool)) (a n : Nat) (h : r.1.hide M = z.hide M) :
    (sliceAnswer r a n).hide M = z.hide M :=
  State.send_fr (sub_trans rfl hM) _ _ h

theorem homeAccess_fr {z : State} {M : Nat} (hM : Nat.land 0x42014010000272 M = 0x42014010000272) (s : State) (store : Bool) (a : Nat) (data : List Byte) (errs : List (Nat × Nat)) (hs : s.hide M = z.hide M) :
    (homeAccess s store a data errs).hide M = z.hide M := by
  unfold homeAccess
  have k0 : Nat.land 0x2014000000070 M = _ := sub_trans rfl hM
  have k1 : Nat.land 0x2014000000070 M = _ := sub_trans rfl hM
  have k2 : Nat.land 0x2 M = _ := sub_trans rfl hM
  have k3 : Nat.land 0x40000000000000 M = _ := sub_trans rfl hM
  have k4 : Nat.land 0x40 M = _ := sub_trans rfl hM
  have k5 : Nat.land 0x40000000000000 M = _ := sub_trans rfl hM
  have k6 : Nat.land 0x2014000000070 M = _ := sub_trans rfl hM
  have k7 : Nat.land 0x4010000270 M = _ := sub_trans rfl hM
  have k8 : Nat.land 0x4010000270 M = _ := sub_trans rfl hM
  repeat' (first | with_reducible assumption | with_reducible apply cacheLoad_fr k0 | with_reducible apply eccLine_fr k1 | with_reducible apply State.draw_fr k2 | with_reducible apply State.send_fr k3 | with_reducible apply State.odAdd_fr k4 | with_reducible apply sliceAnswer_fr k5 | with_reducible apply sliceStoreLine_fr k6 | with_reducible apply State.store_fr k7 | with_reducible apply State.storeP_fr k8 | with_reducible apply foldl_fr | with_reducible apply foldl_fr_fst | (intro _ _ _) | split | dsimp only)

theorem patrolRead_fr {z : State} {M : Nat} (hM : Nat.land 0x2014000000070 M = 0x2014000000070) (s : State) (k a : Nat) (errs : List (Nat × Nat)) (h : s.hide M = z.hide M) :
    (patrolRead s k a errs).hide M = z.hide M := by
  unfold patrolRead
  extract_lets b
  clear_value b
  split
  · split
    · exact h
    · exact channelRead_fr (sub_trans rfl hM) _ _ _ _ h
  · exact h

theorem patrol_fr {z : State} {M : Nat} (hM : Nat.land 0x2014000000070 M = 0x2014000000070) (s : State) (k a : Nat) (errs : List (Nat × Nat)) (wrap : Bool) (hs : s.hide M = z.hide M) :
    (patrol s k a errs wrap).hide M = z.hide M := by
  unfold patrol
  have k0 : Nat.land 0x2014000000070 M = _ := sub_trans rfl hM
  have b1 : M.testBit 40 = true := sub_bit hM rfl
  repeat' (first | with_reducible assumption | simp only [State.hide_rowCorrections b1] | with_reducible apply patrolRead_fr k0 | with_reducible apply foldl_fr | with_reducible apply foldl_fr_fst | (intro _ _ _) | split)

end Sys2Proof.Machine
end

