-- ==== Sys2Proof/Laws/FrameService.lean ====
section
/-! SUPPORT. What each operation over the object dictionary, field service, power and the Skiver can change:
the fields of its mask (`State.hide`), and nothing else. -/

namespace Sys2Proof.Machine

theorem OdAns.result_fr {z : State} {M : Nat} (hM : Nat.land 0x0 M = 0x0) (s : State) (r : Nat) (h : s.hide M = z.hide M) : (OdAns.result s r).st.hide M = z.hide M := h

theorem startScrub_fr {z : State} {M : Nat} (hM : Nat.land 0x4010380370 M = 0x4010380370) (s : State) (hs : s.hide M = z.hide M) :
    (startScrub s).hide M = z.hide M := by
  unfold startScrub
  have k0 : Nat.land 0x4010380270 M = _ := sub_trans rfl hM
  have b1 : M.testBit 8 = true := sub_bit hM rfl
  repeat' (first | with_reducible assumption | simp only [State.hide_job b1] | with_reducible apply complete_fr k0 | with_reducible apply foldl_fr | with_reducible apply foldl_fr_fst | (intro _ _ _) | split)

theorem endUnlock_fr {z : State} {M : Nat} (hM : Nat.land 0x4004010380370 M = 0x4004010380370) (s : State) (hs : s.hide M = z.hide M) :
    (endUnlock s).hide M = z.hide M := by
  unfold endUnlock
  have k0 : Nat.land 0x40 M = _ := sub_trans rfl hM
  have k1 : Nat.land 0x4010380370 M = _ := sub_trans rfl hM
  have b2 : M.testBit 50 = true := sub_bit hM rfl
  repeat' (first | with_reducible assumption | simp only [State.hide_secure b2] | with_reducible apply State.odSet_fr k0 | with_reducible apply startScrub_fr k1 | with_reducible apply foldl_fr | with_reducible apply foldl_fr_fst | (intro _ _ _) | split)

theorem startTest_fr {z : State} {M : Nat} (hM : Nat.land 0x20004010380370 M = 0x20004010380370) (s : State) (level : Nat) (hs : s.hide M = z.hide M) :
    (startTest s level).hide M = z.hide M := by
  unfold startTest
  have k0 : Nat.land 0x40 M = _ := sub_trans rfl hM
  have k1 : Nat.land 0x4010380370 M = _ := sub_trans rfl hM
  have b2 : M.testBit 53 = true := sub_bit hM rfl
  repeat' (first | with_reducible assumption | simp only [State.hide_testLevel b2] | with_reducible apply State.odSet_fr k0 | with_reducible apply startScrub_fr k1)

theorem newChallenge_fr {z : State} {M : Nat} (hM : Nat.land 0x4000000000002 M = 0x4000000000002) (s : State) (hs : s.hide M = z.hide M) :
    (newChallenge s).hide M = z.hide M := by
  unfold newChallenge
  have k0 : Nat.land 0x2 M = _ := sub_trans rfl hM
  have b1 : M.testBit 50 = true := sub_bit hM rfl
  repeat' (first | with_reducible assumption | simp only [State.hide_secure b1] | with_reducible apply State.draw_fr k0)

theorem useToken_fr {z : State} {M : Nat} (hM : Nat.land 0x4000000000042 M = 0x4000000000042) (s : State) (bs : List Byte) (hs : s.hide M = z.hide M) :
    (useToken s bs).2.hide M = z.hide M := by
  unfold useToken
  have k0 : Nat.land 0x40 M = _ := sub_trans rfl hM
  have k1 : Nat.land 0x4000000000002 M = _ := sub_trans rfl hM
  have b2 : M.testBit 50 = true := sub_bit hM rfl
  repeat' (first | with_reducible assumption | simp only [State.hide_secure b2] | with_reducible apply logEvent_fr k0 | with_reducible apply newChallenge_fr k1 | with_reducible apply foldl_fr | with_reducible apply foldl_fr_fst | (intro _ _ _) | split)

theorem portEnable_fr {z : State} {M : Nat} (hM : Nat.land 0x40004013380272 M = 0x40004013380272) (s : State) (p v : Nat) (hs : s.hide M = z.hide M) :
    (portEnable s p v).hide M = z.hide M := by
  unfold portEnable
  have k0 : Nat.land 0x40004013380272 M = _ := sub_trans rfl hM
  have k1 : Nat.land 0x1000000 M = _ := sub_trans rfl hM
  repeat' (first | with_reducible assumption | with_reducible apply portDown_fr k0 | with_reducible apply State.updPort_fr k1 | with_reducible apply foldl_fr | with_reducible apply foldl_fr_fst | (intro _ _ _) | split)

theorem calRequest_fr {z : State} {M : Nat} (hM : Nat.land 0x21000000 M = 0x21000000) (s : State) (v : Nat) (hs : s.hide M = z.hide M) :
    (calRequest s v).hide M = z.hide M := by
  unfold calRequest
  have k0 : Nat.land 0x1000000 M = _ := sub_trans rfl hM
  have b1 : M.testBit 29 = true := sub_bit hM rfl
  repeat' (first | with_reducible assumption | simp only [State.hide_pllCal b1] | with_reducible apply calibrateAll_fr k0 | with_reducible apply foldl_fr | with_reducible apply foldl_fr_fst | (intro _ _ _) | split)

theorem activate_fr {z : State} {M : Nat} (hM : Nat.land 0x2000000000000 M = 0x2000000000000) (s : State) (hs : s.hide M = z.hide M) :
    (activate s).hide M = z.hide M := by
  unfold activate
  have b0 : M.testBit 49 = true := sub_bit hM rfl
  repeat' (first | with_reducible assumption | simp only [State.hide_flash b0])

theorem svnCommit_fr {z : State} {M : Nat} (hM : Nat.land 0x6000000000000 M = 0x6000000000000) (s : State) (hs : s.hide M = z.hide M) :
    (svnCommit s).hide M = z.hide M := by
  unfold svnCommit
  have b0 : M.testBit 49 = true := sub_bit hM rfl
  have b1 : M.testBit 50 = true := sub_bit hM rfl
  repeat' (first | with_reducible assumption | simp only [State.hide_flash b0] | simp only [State.hide_secure b1] | simp only [State.hide_flash_secure b0 b1] | with_reducible apply foldl_fr | with_reducible apply foldl_fr_fst | (intro _ _ _) | split)

theorem setNonce_fr {z : State} {M : Nat} (hM : Nat.land 0x4000000000000 M = 0x4000000000000) (s : State) (w : Who) (v : Nat) (hs : s.hide M = z.hide M) :
    (setNonce s w v).hide M = z.hide M := by
  unfold setNonce
  have b0 : M.testBit 50 = true := sub_bit hM rfl
  repeat' (first | with_reducible assumption | simp only [State.hide_secure b0])

theorem stackPpr_fr {z : State} {M : Nat} (hM : Nat.land 0x2000000000000 M = 0x2000000000000) (s : State) (v : Nat) (hs : s.hide M = z.hide M) :
    (stackPpr s v).2.hide M = z.hide M := by
  unfold stackPpr
  have k0 : Nat.land 0x2000000000000 M = _ := sub_trans rfl hM
  repeat' (first | with_reducible assumption | with_reducible apply usePpr_fr k0 | with_reducible apply foldl_fr | with_reducible apply foldl_fr_fst | (intro _ _ _) | split)

theorem bistUnit_fr {z : State} {M : Nat} (hM : Nat.land 0x42004013380272 M = 0x42004013380272) (s : State) (v : Nat) (fs : List Fail) (hs : s.hide M = z.hide M) :
    (bistUnit s v fs).2.hide M = z.hide M := by
  unfold bistUnit
  have k0 : Nat.land 0x2000000000040 M = _ := sub_trans rfl hM
  have k1 : Nat.land 0x40004013380272 M = _ := sub_trans rfl hM
  repeat' (first | with_reducible assumption | with_reducible apply listRepair_fr k0 | with_reducible apply portFail_fr k1 | with_reducible apply foldl_fr | with_reducible apply foldl_fr_fst | (intro _ _ _) | split | dsimp only)

theorem odApply_fr {z : State} {M : Nat} (hM : Nat.land 0x661040f73f1372 M = 0x661040f73f1372) (s : State) (w : Who) (index sub v : Nat) (fs : List Fail) (hs : s.hide M = z.hide M) :
    (odApply s w index sub v fs).2.hide M = z.hide M := by
  unfold odApply
  have k0 : Nat.land 0x2000000000000 M = _ := sub_trans rfl hM
  have k1 : Nat.land 0x42004013380272 M = _ := sub_trans rfl hM
  have k2 : Nat.land 0x21000000 M = _ := sub_trans rfl hM
  have k3 : Nat.land 0x401040f63f1370 M = _ := sub_trans rfl hM
  have k4 : Nat.land 0x4004010380370 M = _ := sub_trans rfl hM
  have k5 : Nat.land 0x40004013380272 M = _ := sub_trans rfl hM
  have k6 : Nat.land 0x40 M = _ := sub_trans rfl hM
  have k7 : Nat.land 0x4000000000000 M = _ := sub_trans rfl hM
  have k8 : Nat.land 0x2000000000000 M = _ := sub_trans rfl hM
  have k9 : Nat.land 0x20004010380370 M = _ := sub_trans rfl hM
  have k10 : Nat.land 0x6000000000000 M = _ := sub_trans rfl hM
  have b11 : M.testBit 49 = true := sub_bit hM rfl
  repeat' (first | with_reducible assumption | simp only [State.hide_flash b11] | with_reducible apply activate_fr k0 | with_reducible apply bistUnit_fr k1 | with_reducible apply calRequest_fr k2 | with_reducible apply endJobFault_fr k3 | with_reducible apply endUnlock_fr k4 | with_reducible apply portEnable_fr k5 | with_reducible apply State.odSet_fr k6 | with_reducible apply setNonce_fr k7 | with_reducible apply stackPpr_fr k8 | with_reducible apply startTest_fr k9 | with_reducible apply svnCommit_fr k10 | with_reducible apply foldl_fr | with_reducible apply foldl_fr_fst | (intro _ _ _) | split)

theorem odWrite_fr {z : State} {M : Nat} (hM : Nat.land 0x661040f73f1372 M = 0x661040f73f1372) (s : State) (w : Who) (b : OdBlk) (e : OdEntry) (data : List Byte) (fs : List Fail) (hs : s.hide M = z.hide M) :
    (odWrite s w b e data fs).st.hide M = z.hide M := by
  unfold odWrite
  have k0 : Nat.land 0x0 M = _ := sub_trans rfl hM
  have k1 : Nat.land 0x4010380370 M = _ := sub_trans rfl hM
  have k2 : Nat.land 0x661040f73f1372 M = _ := sub_trans rfl hM
  repeat' (first | with_reducible assumption | with_reducible apply OdAns.result_fr k0 | with_reducible apply jobOwned_fr k1 | with_reducible apply odApply_fr k2 | with_reducible apply foldl_fr | with_reducible apply foldl_fr_fst | (intro _ _ _) | split | dsimp only)

theorem odRead_fr {z : State} {M : Nat} (hM : Nat.land 0x0 M = 0x0) (s : State) (b : OdBlk) (e : OdEntry) (hs : s.hide M = z.hide M) :
    (odRead s b e).st.hide M = z.hide M := by
  unfold odRead
  have k0 : Nat.land 0x0 M = _ := sub_trans rfl hM
  repeat' (first | with_reducible assumption | with_reducible apply OdAns.result_fr k0 | with_reducible apply foldl_fr | with_reducible apply foldl_fr_fst | (intro _ _ _) | split | dsimp only)

theorem dropTransfer_fr {z : State} {M : Nat} (hM : Nat.land 0x400000000000 M = 0x400000000000) (s : State) (w : Who) (b : OdBlk) (hs : s.hide M = z.hide M) :
    (dropTransfer s w b).hide M = z.hide M := by
  unfold dropTransfer
  have b0 : M.testBit 46 = true := sub_bit hM rfl
  repeat' (first | with_reducible assumption | simp only [State.hide_transfers b0])

theorem putTransfer_fr {z : State} {M : Nat} (hM : Nat.land 0x400000000000 M = 0x400000000000) (s : State) (t : Transfer) (w : Who) (b : OdBlk) (hs : s.hide M = z.hide M) :
    (putTransfer s t w b).hide M = z.hide M := by
  unfold putTransfer
  have k0 : Nat.land 0x400000000000 M = _ := sub_trans rfl hM
  have b1 : M.testBit 46 = true := sub_bit hM rfl
  repeat' (first | with_reducible assumption | simp only [State.hide_transfers b1] | with_reducible apply dropTransfer_fr k0)

theorem serveSegment_fr {z : State} {M : Nat} (hM : Nat.land 0x400000000000 M = 0x400000000000) (s : State) (t : Transfer) (w : Who) (b : OdBlk) (hs : s.hide M = z.hide M) :
    (serveSegment s t w b).st.hide M = z.hide M := by
  unfold serveSegment
  have k0 : Nat.land 0x400000000000 M = _ := sub_trans rfl hM
  have k1 : Nat.land 0x400000000000 M = _ := sub_trans rfl hM
  repeat' (first | with_reducible assumption | with_reducible apply dropTransfer_fr k0 | with_reducible apply putTransfer_fr k1 | with_reducible apply foldl_fr | with_reducible apply foldl_fr_fst | (intro _ _ _) | split | dsimp only)

theorem odSegRead_fr {z : State} {M : Nat} (hM : Nat.land 0x400000000000 M = 0x400000000000) (s : State) (w : Who) (b : OdBlk) (e : OdEntry) (hs : s.hide M = z.hide M) :
    (odSegRead s w b e).st.hide M = z.hide M := by
  unfold odSegRead
  have k0 : Nat.land 0x0 M = _ := sub_trans rfl hM
  have k1 : Nat.land 0x400000000000 M = _ := sub_trans rfl hM
  repeat' (first | with_reducible assumption | with_reducible apply OdAns.result_fr k0 | with_reducible apply serveSegment_fr k1 | with_reducible apply foldl_fr | with_reducible apply foldl_fr_fst | (intro _ _ _) | split)

theorem stageBegin_fr {z : State} {M : Nat} (hM : Nat.land 0x6000000000000 M = 0x6000000000000) (s : State) (hs : s.hide M = z.hide M) :
    (stageBegin s).hide M = z.hide M := by
  unfold stageBegin
  have b0 : M.testBit 49 = true := sub_bit hM rfl
  have b1 : M.testBit 50 = true := sub_bit hM rfl
  repeat' (first | with_reducible assumption | simp only [State.hide_flash_secure b0 b1])

theorem stageEnd_fr {z : State} {M : Nat} (hM : Nat.land 0x6000000000000 M = 0x6000000000000) (s : State) (bs : List Byte) (hs : s.hide M = z.hide M) :
    (stageEnd s bs).hide M = z.hide M := by
  unfold stageEnd
  have b0 : M.testBit 49 = true := sub_bit hM rfl
  have b1 : M.testBit 50 = true := sub_bit hM rfl
  repeat' (first | with_reducible assumption | simp only [State.hide_flash b0] | simp only [State.hide_secure b1] | simp only [State.hide_flash_secure b0 b1])

theorem domainWritten_fr {z : State} {M : Nat} (hM : Nat.land 0x6000000000042 M = 0x6000000000042) (s : State) (b : OdBlk) (bs : List Byte) (hs : s.hide M = z.hide M) :
    (domainWritten s b bs).st.hide M = z.hide M := by
  unfold domainWritten
  have k0 : Nat.land 0x0 M = _ := sub_trans rfl hM
  have k1 : Nat.land 0x6000000000000 M = _ := sub_trans rfl hM
  have k2 : Nat.land 0x4000000000042 M = _ := sub_trans rfl hM
  repeat' (first | with_reducible assumption | with_reducible apply OdAns.result_fr k0 | with_reducible apply stageEnd_fr k1 | with_reducible apply useToken_fr k2 | with_reducible apply foldl_fr | with_reducible apply foldl_fr_fst | (intro _ _ _) | split)

theorem takeSegment_fr {z : State} {M : Nat} (hM : Nat.land 0x6400000000042 M = 0x6400000000042) (s : State) (t : Transfer) (w : Who) (b : OdBlk) (data : List Byte) (hs : s.hide M = z.hide M) :
    (takeSegment s t w b data).st.hide M = z.hide M := by
  unfold takeSegment
  have k0 : Nat.land 0x6000000000042 M = _ := sub_trans rfl hM
  have k1 : Nat.land 0x400000000000 M = _ := sub_trans rfl hM
  have k2 : Nat.land 0x400000000000 M = _ := sub_trans rfl hM
  have k3 : Nat.land 0x0 M = _ := sub_trans rfl hM
  have k4 : Nat.land 0x6000000000000 M = _ := sub_trans rfl hM
  repeat' (first | with_reducible assumption | with_reducible apply domainWritten_fr k0 | with_reducible apply dropTransfer_fr k1 | with_reducible apply putTransfer_fr k2 | with_reducible apply OdAns.result_fr k3 | with_reducible apply stageBegin_fr k4 | with_reducible apply foldl_fr | with_reducible apply foldl_fr_fst | (intro _ _ _) | split | dsimp only)

theorem odSegWrite_fr {z : State} {M : Nat} (hM : Nat.land 0x6400000000042 M = 0x6400000000042) (s : State) (w : Who) (b : OdBlk) (e : OdEntry) (data : List Byte) (hs : s.hide M = z.hide M) :
    (odSegWrite s w b e data).st.hide M = z.hide M := by
  unfold odSegWrite
  have k0 : Nat.land 0x0 M = _ := sub_trans rfl hM
  have k1 : Nat.land 0x6400000000042 M = _ := sub_trans rfl hM
  repeat' (first | with_reducible assumption | with_reducible apply OdAns.result_fr k0 | with_reducible apply takeSegment_fr k1 | with_reducible apply foldl_fr | with_reducible apply foldl_fr_fst | (intro _ _ _) | split)

theorem transferEnds_fr {z : State} {M : Nat} (hM : Nat.land 0x6400000000000 M = 0x6400000000000) (s : State) (t : Transfer) (hs : s.hide M = z.hide M) :
    (transferEnds s t).hide M = z.hide M := by
  unfold transferEnds
  have k0 : Nat.land 0x6000000000000 M = _ := sub_trans rfl hM
  have b1 : M.testBit 46 = true := sub_bit hM rfl
  repeat' (first | with_reducible assumption | simp only [State.hide_transfers b1] | with_reducible apply stagingLost_fr k0 | with_reducible apply foldl_fr | with_reducible apply foldl_fr_fst | (intro _ _ _) | split)

theorem odSegAbort_fr {z : State} {M : Nat} (hM : Nat.land 0x6400000000000 M = 0x6400000000000) (s : State) (w : Who) (b : OdBlk) (e : OdEntry) (hs : s.hide M = z.hide M) :
    (odSegAbort s w b e).st.hide M = z.hide M := by
  unfold odSegAbort
  have k0 : Nat.land 0x0 M = _ := sub_trans rfl hM
  have k1 : Nat.land 0x6400000000000 M = _ := sub_trans rfl hM
  repeat' (first | with_reducible assumption | with_reducible apply OdAns.result_fr k0 | with_reducible apply transferEnds_fr k1 | with_reducible apply foldl_fr | with_reducible apply foldl_fr_fst | (intro _ _ _) | split)

theorem odRun_fr {z : State} {M : Nat} (hM : Nat.land 0x665040f73f1372 M = 0x665040f73f1372) (s : State) (q : OdReq) (b : OdBlk) (e : OdEntry) (data : List Byte) (fs : List Fail) (hs : s.hide M = z.hide M) :
    (odRun s q b e data fs).st.hide M = z.hide M := by
  unfold odRun
  have k0 : Nat.land 0x0 M = _ := sub_trans rfl hM
  have k1 : Nat.land 0x6400000000000 M = _ := sub_trans rfl hM
  have k2 : Nat.land 0x400000000000 M = _ := sub_trans rfl hM
  have k3 : Nat.land 0x6400000000042 M = _ := sub_trans rfl hM
  have k4 : Nat.land 0x661040f73f1372 M = _ := sub_trans rfl hM
  have k5 : Nat.land 0x0 M = _ := sub_trans rfl hM
  repeat' (first | with_reducible assumption | with_reducible apply odRead_fr k0 | with_reducible apply odSegAbort_fr k1 | with_reducible apply odSegRead_fr k2 | with_reducible apply odSegWrite_fr k3 | with_reducible apply odWrite_fr k4 | with_reducible apply OdAns.result_fr k5 | with_reducible apply foldl_fr | with_reducible apply foldl_fr_fst | (intro _ _ _) | split)

theorem odAccess_fr {z : State} {M : Nat} (hM : Nat.land 0x665040f73f1372 M = 0x665040f73f1372) (s : State) (q : OdReq) (b : OdBlk) (fs : List Fail) (hs : s.hide M = z.hide M) :
    (odAccess s q b fs).st.hide M = z.hide M := by
  unfold odAccess
  have k0 : Nat.land 0x665040f73f1372 M = _ := sub_trans rfl hM
  have k1 : Nat.land 0x0 M = _ := sub_trans rfl hM
  repeat' (first | with_reducible assumption | with_reducible apply odRun_fr k0 | with_reducible apply OdAns.result_fr k1 | with_reducible fail | with_reducible apply foldl_fr | with_reducible apply foldl_fr_fst | (intro _ _ _) | split | dsimp only)

theorem answerRing_fr {z : State} {M : Nat} (hM : Nat.land 0x4010380270 M = 0x4010380270) (s : State) (id res total : Nat) (data : List Byte) (hs : s.hide M = z.hide M) :
    (answerRing s id res total data).hide M = z.hide M := by
  unfold answerRing
  have k0 : Nat.land 0x4010380270 M = _ := sub_trans rfl hM
  have k1 : Nat.land 0x4010000270 M = _ := sub_trans rfl hM
  repeat' (first | with_reducible assumption | with_reducible apply complete_fr k0 | with_reducible apply State.storeP_fr k1 | with_reducible apply foldl_fr | with_reducible apply foldl_fr_fst | (intro _ _ _) | split)

theorem answerMailbox_fr {z : State} {M : Nat} (hM : Nat.land 0x800000000000 M = 0x800000000000) (s : State) (tag block res : Nat) (data : List Byte) (hs : s.hide M = z.hide M) :
    (answerMailbox s tag block res data).hide M = z.hide M := by
  unfold answerMailbox
  have k0 : Nat.land 0x0 M = _ := sub_trans rfl hM
  have b1 : M.testBit 47 = true := sub_bit hM rfl
  repeat' (first | with_reducible assumption | simp only [State.hide_mailbox b1])

theorem answerSession_fr {z : State} {M : Nat} (hM : Nat.land 0x41000000000000 M = 0x41000000000000) (s : State) (id seq block : Nat) (data : List Byte) (hs : s.hide M = z.hide M) :
    (answerSession s id seq block data).hide M = z.hide M := by
  unfold answerSession
  have k0 : Nat.land 0x40000000000000 M = _ := sub_trans rfl hM
  have b1 : M.testBit 48 = true := sub_bit hM rfl
  repeat' (first | with_reducible assumption | simp only [State.hide_sessions b1] | with_reducible apply State.send_fr k0 | with_reducible apply foldl_fr | with_reducible apply foldl_fr_fst | (intro _ _ _) | split)

theorem odAnswer_fr {z : State} {M : Nat} (hM : Nat.land 0x41804010380270 M = 0x41804010380270) (q : OdReq) (b : OdBlk) (a : OdAns) (h : a.st.hide M = z.hide M) : (odAnswer q b a).hide M = z.hide M := by
  unfold odAnswer
  extract_lets block
  split
  · exact answerRing_fr (sub_trans rfl hM) _ _ _ _ _ h
  · exact answerMailbox_fr (sub_trans rfl hM) _ _ _ _ _ h
  · exact answerSession_fr (sub_trans rfl hM) _ _ _ _ _ h

theorem odServe_fr {z : State} {M : Nat} (hM : Nat.land 0x7fffffffffffff M = 0x7fffffffffffff) (s : State) (k : OdKind) (fs : List Fail) (h : s.hide M = z.hide M) : (odServe s k fs).hide M = z.hide M := by
  unfold odServe
  split
  · exact h
  · rename_i q rest _
    extract_lets b
    split
    · exact h
    · have ha : (odAnswer q (OdBlk.ofWord q.block) (odAccess { s with odQueue := rest } q (OdBlk.ofWord q.block) fs)).hide M = z.hide M :=
        odAnswer_fr (sub_trans rfl hM) _ _ _ (odAccess_fr (sub_trans rfl hM) _ _ _ _ ((State.hide_odQueue (sub_bit hM rfl)).trans h))
      split
      · exact moduleReset_fr (sub_trans rfl hM) _ ha
      · exact ha

theorem segTimeout_fr {z : State} {M : Nat} (hM : Nat.land 0x6400000000000 M = 0x6400000000000) (s : State) (n : Nat) (hs : s.hide M = z.hide M) :
    (segTimeout s n).hide M = z.hide M := by
  unfold segTimeout
  have k0 : Nat.land 0x6400000000000 M = _ := sub_trans rfl hM
  repeat' (first | with_reducible assumption | with_reducible apply transferEnds_fr k0 | with_reducible apply foldl_fr | with_reducible apply foldl_fr_fst | (intro _ _ _) | split)

theorem mbRequestWrite_fr {z : State} {M : Nat} (hM : Nat.land 0x800000000000 M = 0x800000000000) (s : State) (v : Nat) (hs : s.hide M = z.hide M) :
    (mbRequestWrite s v).hide M = z.hide M := by
  unfold mbRequestWrite
  have b0 : M.testBit 47 = true := sub_bit hM rfl
  repeat' (first | with_reducible assumption | simp only [State.hide_mailbox b0] | with_reducible apply foldl_fr | with_reducible apply foldl_fr_fst | (intro _ _ _) | split)

theorem mbDataWrite_fr {z : State} {M : Nat} (hM : Nat.land 0x800000000000 M = 0x800000000000) (s : State) (o : Nat) (data : List Byte) (hs : s.hide M = z.hide M) :
    (mbDataWrite s o data).hide M = z.hide M := by
  unfold mbDataWrite
  have b0 : M.testBit 47 = true := sub_bit hM rfl
  repeat' (first | with_reducible assumption | simp only [State.hide_mailbox b0] | with_reducible apply foldl_fr | with_reducible apply foldl_fr_fst | (intro _ _ _) | split)

theorem mbStart_fr {z : State} {M : Nat} (hM : Nat.land 0xa00000000000 M = 0xa00000000000) (s : State) (tag : Nat) (hs : s.hide M = z.hide M) :
    (mbStart s tag).hide M = z.hide M := by
  unfold mbStart
  have b0 : M.testBit 45 = true := sub_bit hM rfl
  have b1 : M.testBit 47 = true := sub_bit hM rfl
  repeat' (first | with_reducible assumption | simp only [State.hide_odQueue_mailbox b0 b1] | with_reducible apply foldl_fr | with_reducible apply foldl_fr_fst | (intro _ _ _) | split)

theorem mbDoorbell_fr {z : State} {M : Nat} (hM : Nat.land 0xa00000000000 M = 0xa00000000000) (s : State) (tag request : Nat) (data : List Byte) (hs : s.hide M = z.hide M) :
    (mbDoorbell s tag request data).hide M = z.hide M := by
  unfold mbDoorbell
  have k0 : Nat.land 0x800000000000 M = _ := sub_trans rfl hM
  have k1 : Nat.land 0x800000000000 M = _ := sub_trans rfl hM
  have k2 : Nat.land 0xa00000000000 M = _ := sub_trans rfl hM
  repeat' (first | with_reducible assumption | with_reducible apply mbDataWrite_fr k0 | with_reducible apply mbRequestWrite_fr k1 | with_reducible apply mbStart_fr k2)

theorem acceptOpen_fr {z : State} {M : Nat} (hM : Nat.land 0x41000000000002 M = 0x41000000000002) (s : State) (bs : List Byte) (f : Frame) (full : Bool) (hs : s.hide M = z.hide M) :
    (acceptOpen s bs f full).hide M = z.hide M := by
  unfold acceptOpen
  have k0 : Nat.land 0x2 M = _ := sub_trans rfl hM
  have k1 : Nat.land 0x40000000000000 M = _ := sub_trans rfl hM
  have b2 : M.testBit 48 = true := sub_bit hM rfl
  repeat' (first | with_reducible assumption | simp only [State.hide_sessions b2] | with_reducible apply State.draw_fr k0 | with_reducible apply State.send_fr k1)

theorem refuseOpen_fr {z : State} {M : Nat} (hM : Nat.land 0x40000000000002 M = 0x40000000000002) (s : State) (f : Frame) (hs : s.hide M = z.hide M) :
    (refuseOpen s f).hide M = z.hide M := by
  unfold refuseOpen
  have k0 : Nat.land 0x2 M = _ := sub_trans rfl hM
  have k1 : Nat.land 0x40000000000000 M = _ := sub_trans rfl hM
  repeat' (first | with_reducible assumption | with_reducible apply State.draw_fr k0 | with_reducible apply State.send_fr k1)

theorem jaolpenOpen_fr {z : State} {M : Nat} (hM : Nat.land 0x41000000000042 M = 0x41000000000042) (s : State) (bs : List Byte) (hs : s.hide M = z.hide M) :
    (jaolpenOpen s bs).hide M = z.hide M := by
  unfold jaolpenOpen
  have k0 : Nat.land 0x41000000000002 M = _ := sub_trans rfl hM
  have k1 : Nat.land 0x40000000000002 M = _ := sub_trans rfl hM
  have k2 : Nat.land 0x40 M = _ := sub_trans rfl hM
  repeat' (first | with_reducible assumption | with_reducible apply acceptOpen_fr k0 | with_reducible apply refuseOpen_fr k1 | with_reducible apply State.odAdd_fr k2 | with_reducible apply foldl_fr | with_reducible apply foldl_fr_fst | (intro _ _ _) | split | dsimp only)

theorem endSession_fr {z : State} {M : Nat} (hM : Nat.land 0x7600000000000 M = 0x7600000000000) (s : State) (id : Nat) (hs : s.hide M = z.hide M) :
    (endSession s id).hide M = z.hide M := by
  unfold endSession
  have k0 : Nat.land 0x6400000000000 M = _ := sub_trans rfl hM
  have b1 : M.testBit 45 = true := sub_bit hM rfl
  have b2 : M.testBit 48 = true := sub_bit hM rfl
  have b3 : M.testBit 50 = true := sub_bit hM rfl
  repeat' (first | with_reducible assumption | simp only [State.hide_odQueue_sessions_secure b1 b2 b3] | with_reducible apply transferEnds_fr k0 | with_reducible apply foldl_fr)

theorem acceptSeq_fr {z : State} {M : Nat} (hM : Nat.land 0x1000000000000 M = 0x1000000000000) (s : State) (id seq : Nat) (hs : s.hide M = z.hide M) :
    (acceptSeq s id seq).hide M = z.hide M := by
  unfold acceptSeq
  have b0 : M.testBit 48 = true := sub_bit hM rfl
  repeat' (first | with_reducible assumption | simp only [State.hide_sessions b0])

theorem queueRequest_fr {z : State} {M : Nat} (hM : Nat.land 0x1200000000000 M = 0x1200000000000) (s : State) (x : Session) (f : Frame) (hs : s.hide M = z.hide M) :
    (queueRequest s x f).hide M = z.hide M := by
  unfold queueRequest
  have k0 : Nat.land 0x1000000000000 M = _ := sub_trans rfl hM
  have b1 : M.testBit 45 = true := sub_bit hM rfl
  repeat' (first | with_reducible assumption | simp only [State.hide_odQueue b1] | with_reducible apply acceptSeq_fr k0)

theorem jaolpenRequest_fr {z : State} {M : Nat} (hM : Nat.land 0x41200000000040 M = 0x41200000000040) (s : State) (bs : List Byte) (hs : s.hide M = z.hide M) :
    (jaolpenRequest s bs).hide M = z.hide M := by
  unfold jaolpenRequest
  have k0 : Nat.land 0x1200000000000 M = _ := sub_trans rfl hM
  have k1 : Nat.land 0x40 M = _ := sub_trans rfl hM
  have k2 : Nat.land 0x40000000000000 M = _ := sub_trans rfl hM
  repeat' (first | with_reducible assumption | with_reducible apply queueRequest_fr k0 | with_reducible apply State.odAdd_fr k1 | with_reducible apply State.send_fr k2 | with_reducible apply foldl_fr | with_reducible apply foldl_fr_fst | (intro _ _ _) | split)

theorem jaolpenClose_fr {z : State} {M : Nat} (hM : Nat.land 0x47600000000040 M = 0x47600000000040) (s : State) (bs : List Byte) (hs : s.hide M = z.hide M) :
    (jaolpenClose s bs).hide M = z.hide M := by
  unfold jaolpenClose
  have k0 : Nat.land 0x7600000000000 M = _ := sub_trans rfl hM
  have k1 : Nat.land 0x40 M = _ := sub_trans rfl hM
  have k2 : Nat.land 0x40000000000000 M = _ := sub_trans rfl hM
  repeat' (first | with_reducible assumption | with_reducible apply endSession_fr k0 | with_reducible apply State.odAdd_fr k1 | with_reducible apply State.send_fr k2 | with_reducible apply foldl_fr | with_reducible apply foldl_fr_fst | (intro _ _ _) | split)

theorem sliceStart_fr {z : State} {M : Nat} (hM : Nat.land 0x10000000000000 M = 0x10000000000000) (s : State) (k p remain : Nat) (hs : s.hide M = z.hide M) :
    (sliceStart s k p remain).hide M = z.hide M := by
  unfold sliceStart
  have k0 : Nat.land 0x10000000000000 M = _ := sub_trans rfl hM
  repeat' (first | with_reducible assumption | with_reducible apply State.updPhys_fr k0 | with_reducible apply foldl_fr | with_reducible apply foldl_fr_fst | (intro _ _ _) | split)

theorem saveBad_fr {z : State} {M : Nat} (hM : Nat.land 0x2010000010260 M = 0x2010000010260) (s : State) (c kind off : Nat) (hs : s.hide M = z.hide M) :
    (saveBad s c kind off).hide M = z.hide M := by
  unfold saveBad
  have k0 : Nat.land 0x2010000000240 M = _ := sub_trans rfl hM
  have k1 : Nat.land 0x2010000000040 M = _ := sub_trans rfl hM
  have k2 : Nat.land 0x20 M = _ := sub_trans rfl hM
  have k3 : Nat.land 0x2010000010040 M = _ := sub_trans rfl hM
  repeat' (first | with_reducible assumption | with_reducible apply accLose_fr k0 | with_reducible apply noteSector_fr k1 | with_reducible apply State.addPoison_fr k2 | with_reducible apply weltLose_fr k3 | with_reducible apply foldl_fr | with_reducible apply foldl_fr_fst | (intro _ _ _) | split)

theorem savedBad_fr {z : State} {M : Nat} (hM : Nat.land 0x2010000010260 M = 0x2010000010260) (s : State) (k p : Nat) (places : List Nat) (found : List Fail) (hs : s.hide M = z.hide M) :
    (savedBad s k p places found).hide M = z.hide M := by
  unfold savedBad
  have k0 : Nat.land 0x2010000010260 M = _ := sub_trans rfl hM
  repeat' (first | with_reducible assumption | with_reducible apply saveBad_fr k0 | with_reducible apply foldl_fr | with_reducible apply foldl_fr_fst | (intro _ _ _) | split)

theorem slicePasses_fr {z : State} {M : Nat} (hM : Nat.land 0x10000000000000 M = 0x10000000000000) (s : State) (k p : Nat) (places : List Nat) (hs : s.hide M = z.hide M) :
    (slicePasses s k p places).hide M = z.hide M := by
  unfold slicePasses
  have k0 : Nat.land 0x10000000000000 M = _ := sub_trans rfl hM
  repeat' (first | with_reducible assumption | with_reducible apply State.updPhys_fr k0)

theorem rerunEnds_fr {z : State} {M : Nat} (hM : Nat.land 0x12000000000040 M = 0x12000000000040) (s : State) (k p : Nat) (bad : Bool) (hs : s.hide M = z.hide M) :
    (rerunEnds s k p bad).hide M = z.hide M := by
  unfold rerunEnds
  have k0 : Nat.land 0x10000000000000 M = _ := sub_trans rfl hM
  have k1 : Nat.land 0x2000000000040 M = _ := sub_trans rfl hM
  repeat' (first | with_reducible assumption | with_reducible apply State.updPhys_fr k0 | with_reducible apply settleRecords_fr k1)

theorem sliceFailed_fr {z : State} {M : Nat} (hM : Nat.land 0x57f04b903f1672 M = 0x57f04b903f1672) (s : State) (k p n : Nat) (fs : List Fail) (hs : s.hide M = z.hide M) :
    (sliceFailed s k p n fs).hide M = z.hide M := by
  unfold sliceFailed
  have k0 : Nat.land 0x57f04b903f1672 M = _ := sub_trans rfl hM
  have k1 : Nat.land 0x10000000000000 M = _ := sub_trans rfl hM
  repeat' (first | with_reducible assumption | with_reducible apply failCell_fr k0 | with_reducible apply State.updPhys_fr k1 | with_reducible apply foldl_fr | with_reducible apply foldl_fr_fst | (intro _ _ _) | split)

theorem sliceEnd_fr {z : State} {M : Nat} (hM : Nat.land 0x57f14b903f1672 M = 0x57f14b903f1672) (s : State) (k p : Nat) (sigs : List Nat) (found : List Fail) (hs : s.hide M = z.hide M) :
    (sliceEnd s k p sigs found).hide M = z.hide M := by
  unfold sliceEnd
  have k0 : Nat.land 0x12000000000040 M = _ := sub_trans rfl hM
  have k1 : Nat.land 0x40 M = _ := sub_trans rfl hM
  have k2 : Nat.land 0x10000000000000 M = _ := sub_trans rfl hM
  have k3 : Nat.land 0x2010000010260 M = _ := sub_trans rfl hM
  have k4 : Nat.land 0x57f04b903f1672 M = _ := sub_trans rfl hM
  have k5 : Nat.land 0x10000000000000 M = _ := sub_trans rfl hM
  repeat' (first | with_reducible assumption | with_reducible apply rerunEnds_fr k0 | with_reducible apply State.odAdd_fr k1 | with_reducible apply State.updPhys_fr k2 | with_reducible apply savedBad_fr k3 | with_reducible apply sliceFailed_fr k4 | with_reducible apply slicePasses_fr k5 | with_reducible apply foldl_fr | with_reducible apply foldl_fr_fst | (intro _ _ _) | split | dsimp only)

theorem powerUp_fr {z : State} {M : Nat} (hM : Nat.land 0x8000000000000 M = 0x8000000000000) (s : State) (hs : s.hide M = z.hide M) :
    (powerUp s).hide M = z.hide M := by
  unfold powerUp
  have b0 : M.testBit 51 = true := sub_bit hM rfl
  repeat' (first | with_reducible assumption | simp only [State.hide_power b0])

theorem tryPowerUp_fr {z : State} {M : Nat} (hM : Nat.land 0x8000000000000 M = 0x8000000000000) (s : State) (hs : s.hide M = z.hide M) :
    (tryPowerUp s).hide M = z.hide M := by
  unfold tryPowerUp
  have k0 : Nat.land 0x8000000000000 M = _ := sub_trans rfl hM
  repeat' (first | with_reducible assumption | with_reducible apply powerUp_fr k0 | with_reducible apply foldl_fr | with_reducible apply foldl_fr_fst | (intro _ _ _) | split | dsimp only)

theorem powerOff_fr {z : State} {M : Nat} (hM : Nat.land 0x7fffffffffffff M = 0x7fffffffffffff) (s : State) (hs : s.hide M = z.hide M) :
    (powerOff s).hide M = z.hide M := by
  unfold powerOff
  have k0 : Nat.land 0x7fffffffffffff M = _ := sub_trans rfl hM
  have b1 : M.testBit 51 = true := sub_bit hM rfl
  repeat' (first | with_reducible assumption | simp only [State.hide_power b1] | with_reducible apply blank_fr k0)

theorem pwrEnAssert_fr {z : State} {M : Nat} (hM : Nat.land 0x8000000000000 M = 0x8000000000000) (s : State) (hs : s.hide M = z.hide M) :
    (pwrEnAssert s).hide M = z.hide M := by
  unfold pwrEnAssert
  have k0 : Nat.land 0x8000000000000 M = _ := sub_trans rfl hM
  have b1 : M.testBit 51 = true := sub_bit hM rfl
  repeat' (first | with_reducible assumption | simp only [State.hide_power b1] | with_reducible apply tryPowerUp_fr k0)

theorem pwrEnDeassert_fr {z : State} {M : Nat} (hM : Nat.land 0x7fffffffffffff M = 0x7fffffffffffff) (s : State) (hs : s.hide M = z.hide M) :
    (pwrEnDeassert s).hide M = z.hide M := by
  unfold pwrEnDeassert
  have k0 : Nat.land 0x7fffffffffffff M = _ := sub_trans rfl hM
  have b1 : M.testBit 51 = true := sub_bit hM rfl
  repeat' (first | with_reducible assumption | simp only [State.hide_power b1] | with_reducible apply powerOff_fr k0 | with_reducible apply foldl_fr | with_reducible apply foldl_fr_fst | (intro _ _ _) | split)

theorem inputTrip_fr {z : State} {M : Nat} (hM : Nat.land 0x7fffffffffffff M = 0x7fffffffffffff) (s : State) (removed : Bool) (hs : s.hide M = z.hide M) :
    (inputTrip s removed).hide M = z.hide M := by
  unfold inputTrip
  have k0 : Nat.land 0x7fffffffffffff M = _ := sub_trans rfl hM
  have b1 : M.testBit 51 = true := sub_bit hM rfl
  repeat' (first | with_reducible assumption | simp only [State.hide_power b1] | with_reducible apply powerOff_fr k0 | with_reducible apply foldl_fr | with_reducible apply foldl_fr_fst | (intro _ _ _) | split)

theorem thermalShutdown_fr {z : State} {M : Nat} (hM : Nat.land 0x7fffffffffffff M = 0x7fffffffffffff) (s : State) (hs : s.hide M = z.hide M) :
    (thermalShutdown s).hide M = z.hide M := by
  unfold thermalShutdown
  have k0 : Nat.land 0x7fffffffffffff M = _ := sub_trans rfl hM
  have b1 : M.testBit 51 = true := sub_bit hM rfl
  repeat' (first | with_reducible assumption | simp only [State.hide_power b1] | with_reducible apply powerOff_fr k0 | with_reducible apply foldl_fr | with_reducible apply foldl_fr_fst | (intro _ _ _) | split)

theorem safeTrip_fr {z : State} {M : Nat} (hM : Nat.land 0x8000600000040 M = 0x8000600000040) (s : State) (temp power : Bool) (hs : s.hide M = z.hide M) :
    (safeTrip s temp power).hide M = z.hide M := by
  unfold safeTrip
  have k0 : Nat.land 0x40 M = _ := sub_trans rfl hM
  have k1 : Nat.land 0x40 M = _ := sub_trans rfl hM
  have b2 : M.testBit 33 = true := sub_bit hM rfl
  have b3 : M.testBit 34 = true := sub_bit hM rfl
  have b4 : M.testBit 51 = true := sub_bit hM rfl
  repeat' (first | with_reducible assumption | simp only [State.hide_clock_safeTrip_power b2 b3 b4] | with_reducible apply logEvent_fr k0 | with_reducible apply State.odAdd_fr k1 | with_reducible apply foldl_fr | with_reducible apply foldl_fr_fst | (intro _ _ _) | split)

theorem safeTick_fr {z : State} {M : Nat} (hM : Nat.land 0x8000000000040 M = 0x8000000000040) (s : State) (hs : s.hide M = z.hide M) :
    (safeTick s).hide M = z.hide M := by
  unfold safeTick
  have k0 : Nat.land 0x40 M = _ := sub_trans rfl hM
  have b1 : M.testBit 51 = true := sub_bit hM rfl
  repeat' (first | with_reducible assumption | simp only [State.hide_power b1] | with_reducible apply State.odAdd_fr k0 | with_reducible fail | with_reducible apply foldl_fr | with_reducible apply foldl_fr_fst | (intro _ _ _) | split)

theorem safeExit_fr {z : State} {M : Nat} (hM : Nat.land 0x600000040 M = 0x600000040) (s : State) (ms : Nat) (hs : s.hide M = z.hide M) :
    (safeExit s ms).hide M = z.hide M := by
  unfold safeExit
  have k0 : Nat.land 0x40 M = _ := sub_trans rfl hM
  have k1 : Nat.land 0x200000000 M = _ := sub_trans rfl hM
  have b2 : M.testBit 34 = true := sub_bit hM rfl
  repeat' (first | with_reducible assumption | simp only [State.hide_safeTrip b2] | with_reducible apply State.odAdd_fr k0 | with_reducible apply resumeClock_fr k1 | with_reducible fail | with_reducible apply foldl_fr | with_reducible apply foldl_fr_fst | (intro _ _ _) | split)

theorem powerTick_fr {z : State} {M : Nat} (hM : Nat.land 0x8000200000040 M = 0x8000200000040) (s : State) (mv ma watts : Nat) (tj : Int) (hs : s.hide M = z.hide M) :
    (powerTick s mv ma watts tj).hide M = z.hide M := by
  unfold powerTick
  have k0 : Nat.land 0x40 M = _ := sub_trans rfl hM
  have k1 : Nat.land 0x40 M = _ := sub_trans rfl hM
  have k2 : Nat.land 0x40 M = _ := sub_trans rfl hM
  have k3 : Nat.land 0x8000000000040 M = _ := sub_trans rfl hM
  have b4 : M.testBit 51 = true := sub_bit hM rfl
  have b5 : M.testBit 33 = true := sub_bit hM rfl
  repeat' (first | with_reducible assumption | simp only [State.hide_power b4] | simp only [State.hide_clock b5] | simp only [State.hide_clock_power b5 b4] | with_reducible apply logEvent_fr k0 | with_reducible apply State.odSet_fr k1 | with_reducible apply State.odAdd_fr k2 | with_reducible fail | with_reducible apply safeTick_fr k3 | with_reducible apply foldl_fr | with_reducible apply foldl_fr_fst | (intro _ _ _) | split)

theorem stackReport_fr {z : State} {M : Nat} (hM : Nat.land 0x8000000040 M = 0x8000000040) (s : State) (k : Nat) (t limit : Int) (hs : s.hide M = z.hide M) :
    (stackReport s k t limit).hide M = z.hide M := by
  unfold stackReport
  have k0 : Nat.land 0x40 M = _ := sub_trans rfl hM
  have k1 : Nat.land 0x40 M = _ := sub_trans rfl hM
  have k2 : Nat.land 0x40 M = _ := sub_trans rfl hM
  have b3 : M.testBit 39 = true := sub_bit hM rfl
  repeat' (first | with_reducible assumption | simp only [State.hide_stackSts b3] | with_reducible apply logEvent_fr k0 | with_reducible apply State.odSet_fr k1 | with_reducible apply State.odAdd_fr k2 | with_reducible apply foldl_fr | with_reducible apply foldl_fr_fst | (intro _ _ _) | split)

theorem setSide_fr {z : State} {M : Nat} (hM : Nat.land 0x20000 M = 0x20000) (s : State) (c r : Nat) (v : SideRec) (hs : s.hide M = z.hide M) :
    (setSide s c r v).hide M = z.hide M := by
  unfold setSide
  have b0 : M.testBit 17 = true := sub_bit hM rfl
  repeat' (first | with_reducible assumption | simp only [State.hide_side b0])

theorem clearValid_fr {z : State} {M : Nat} (hM : Nat.land 0x20000 M = 0x20000) (s : State) (c row n : Nat) (hs : s.hide M = z.hide M) :
    (clearValid s c row n).hide M = z.hide M := by
  unfold clearValid
  have k0 : Nat.land 0x20000 M = _ := sub_trans rfl hM
  repeat' (first | with_reducible assumption | with_reducible apply setSide_fr k0 | with_reducible apply foldl_fr | with_reducible apply foldl_fr_fst | (intro _ _ _))

theorem writeSide_fr {z : State} {M : Nat} (hM : Nat.land 0x20000 M = 0x20000) (s : State) (c row : Nat) (p : Piece) (tag : Nat) (v : StatRec) (hs : s.hide M = z.hide M) :
    (writeSide s c row p tag v).hide M = z.hide M := by
  unfold writeSide
  have k0 : Nat.land 0x20000 M = _ := sub_trans rfl hM
  repeat' (first | with_reducible assumption | with_reducible apply setSide_fr k0)

theorem readSide_fr {z : State} {M : Nat} (hM : Nat.land 0x800 M = 0x800) (s : State) (c row : Nat) (hs : s.hide M = z.hide M) :
    (readSide s c row).2.hide M = z.hide M := by
  unfold readSide
  have k0 : Nat.land 0x800 M = _ := sub_trans rfl hM
  repeat' (first | with_reducible assumption | with_reducible apply State.cellAdd_fr k0 | with_reducible apply foldl_fr | with_reducible apply foldl_fr_fst | (intro _ _ _) | split | dsimp only)

theorem writeMemRec_fr {z : State} {M : Nat} (hM : Nat.land 0x4010000270 M = 0x4010000270) (s : State) (stat i : Nat) (v : StatRec) (hs : s.hide M = z.hide M) :
    (writeMemRec s stat i v).hide M = z.hide M := by
  unfold writeMemRec
  have k0 : Nat.land 0x4010000270 M = _ := sub_trans rfl hM
  repeat' (first | with_reducible assumption | with_reducible apply State.storeP_fr k0)

theorem statRaw_fr {z : State} {M : Nat} (hM : Nat.land 0x800 M = 0x800) {s : State} {c : Nat} {p : Piece} {d : SkD} {i : Nat} {r : StatRec × State} (e : statRaw s c p d i = some r)
    (h : s.hide M = z.hide M) : r.2.hide M = z.hide M := by
  unfold statRaw at e
  extract_lets hit rd at e
  have hs : (readSide s c (d.sideRow + i)).2.hide M = z.hide M := readSide_fr (sub_trans rfl hM) s c _ h
  split at e
  · split at e
    · rw [← Option.some.inj e]; exact State.cellAdd_fr (sub_trans rfl hM) _ _ _ _ hs
    · cases e
  · rw [← Option.some.inj e]; exact h
  · have e2 := Option.some.inj e
    rw [← e2]
    split
    · exact State.cellAdd_fr (sub_trans rfl hM) _ _ _ _ hs
    · exact State.cellAdd_fr (sub_trans rfl hM) _ _ _ _ h

theorem statOf_fr {z : State} {M : Nat} (hM : Nat.land 0x800 M = 0x800) {s : State} {c : Nat} {p : Piece} {d : SkD} {i : Nat} {r : StatRec × Flags × State} (e : statOf s c p d i = some r)
    (h : s.hide M = z.hide M) : r.2.2.hide M = z.hide M := by
  simp only [statOf, Option.map_eq_some_iff] at e
  obtain ⟨q, hq, e⟩ := e
  rw [← e]
  exact statRaw_fr (sub_trans rfl hM) hq h

theorem putStat_fr {z : State} {M : Nat} (hM : Nat.land 0x4010020270 M = 0x4010020270) (s : State) (c : Nat) (p : Piece) (d : SkD) (i : Nat) (v : StatRec) (hs : s.hide M = z.hide M) :
    (putStat s c p d i v).1.hide M = z.hide M := by
  unfold putStat
  have k0 : Nat.land 0x4010000270 M = _ := sub_trans rfl hM
  have k1 : Nat.land 0x20000 M = _ := sub_trans rfl hM
  repeat' (first | with_reducible assumption | with_reducible apply writeMemRec_fr k0 | with_reducible apply writeSide_fr k1 | with_reducible apply foldl_fr | with_reducible apply foldl_fr_fst | (intro _ _ _) | split)

theorem writeSk_fr {z : State} {M : Nat} (hM : Nat.land 0x4010000270 M = 0x4010000270) (s : State) (d : SkD) (i : Nat) (r : RowOut) (hs : s.hide M = z.hide M) :
    (writeSk s d i r).1.hide M = z.hide M := by
  unfold writeSk
  have k0 : Nat.land 0x4010000270 M = _ := sub_trans rfl hM
  repeat' (first | with_reducible assumption | with_reducible apply writeRow_fr k0)

theorem normFwd_fr {z : State} {M : Nat} (hM : Nat.land 0x4010020270 M = 0x4010020270) (s : State) (c : Nat) (p : Piece) (d : SkD) (hs : s.hide M = z.hide M) :
    (normFwd s c p d).1.hide M = z.hide M := by
  unfold normFwd
  have k0 : Nat.land 0x20000 M = _ := sub_trans rfl hM
  have k1 : Nat.land 0x4010020270 M = _ := sub_trans rfl hM
  have k2 : Nat.land 0x4010000270 M = _ := sub_trans rfl hM
  repeat' (first | with_reducible assumption | with_reducible apply clearValid_fr k0 | with_reducible apply putStat_fr k1 | with_reducible apply writeSk_fr k2 | with_reducible apply foldl_fr | with_reducible apply foldl_fr_fst | (intro _ _ _) | split | dsimp only)

theorem stageCols_fr {z : State} {M : Nat} (hM : Nat.land 0x200 M = 0x200) (s : State) (c slot : Nat) (d : SkD) (t : ColSums) (hs : s.hide M = z.hide M) :
    (stageCols s c slot d t).hide M = z.hide M := by
  unfold stageCols
  have k0 : Nat.land 0x200 M = _ := sub_trans rfl hM
  repeat' (first | with_reducible assumption | with_reducible apply State.updPiece_fr k0)

theorem normBwd_fr {z : State} {M : Nat} (hM : Nat.land 0x4010000a70 M = 0x4010000a70) {s : State} {c : Nat} {p : Piece} {slot : Nat} {d : SkD} {r : State × Flags} (e : normBwd s c p slot d = some r)
    (h : s.hide M = z.hide M) : r.1.hide M = z.hide M := by
  have key : ∀ (l : List Nat) (a b : Option (State × Flags × ColSums)), (∀ x, a = some x → x.1.hide M = z.hide M) →
      l.foldl (fun (a : Option (State × Flags × ColSums)) i =>
        match a with
        | none => none
        | some (s, f, t) =>
          (statOf s c p d i).map fun st =>
            let q := normBwdRow st.2.2 d i st.1
            let w := writeSk st.2.2 d i q.1
            let cg := addCols t.g q.2.1
            let cb := if d.affine = 2 then addCols t.b q.2.2 else (t.b, 0)
            (w.1, f ||| st.2.1 ||| w.2, { g := cg.1, b := cb.1, f := t.f ||| cg.2 ||| cb.2 })) a = b →
      ∀ x, b = some x → x.1.hide M = z.hide M := by
    intro l
    induction l with
    | nil => intro a b ha hb; subst hb; exact ha
    | cons i l ih =>
      intro a b ha hb
      refine ih _ b ?_ hb
      intro x hx
      cases a with
      | none => simp at hx
      | some q =>
        obtain ⟨t, f, u⟩ := q
        dsimp only at hx
        cases hst : statOf t c p d i with
        | none => simp [hst] at hx
        | some st =>
          simp only [hst, Option.map_some, Option.some.injEq] at hx
          subst hx
          exact writeSk_fr (sub_trans rfl hM) _ _ _ _ (statOf_fr (sub_trans rfl hM) hst (ha _ rfl))
  unfold normBwd at e
  simp only [Option.map_eq_some_iff] at e
  obtain ⟨x, hx, hr⟩ := e
  have hm := key _ _ _ (fun x hx => by cases hx; exact h) hx x rfl
  subst hr
  split
  · exact stageCols_fr (sub_trans rfl hM) _ _ _ _ _ hm
  · exact hm

theorem softFwd_fr {z : State} {M : Nat} (hM : Nat.land 0x4010020270 M = 0x4010020270) (s : State) (c : Nat) (p : Piece) (d : SkD) (hs : s.hide M = z.hide M) :
    (softFwd s c p d).1.hide M = z.hide M := by
  unfold softFwd
  have k0 : Nat.land 0x20000 M = _ := sub_trans rfl hM
  have k1 : Nat.land 0x4010020270 M = _ := sub_trans rfl hM
  have k2 : Nat.land 0x4010000270 M = _ := sub_trans rfl hM
  repeat' (first | with_reducible assumption | with_reducible apply clearValid_fr k0 | with_reducible apply putStat_fr k1 | with_reducible apply writeSk_fr k2 | with_reducible apply foldl_fr | with_reducible apply foldl_fr_fst | (intro _ _ _) | split | dsimp only)

theorem softBwdY_fr {z : State} {M : Nat} (hM : Nat.land 0x800 M = 0x800) {s : State} {c : Nat} {p : Piece} {d : SkD} {i : Nat} {r : SoftY × State}
    (e : softBwdY s c p d i = some r) (h : s.hide M = z.hide M) : r.2.hide M = z.hide M := by
  unfold softBwdY at e
  split at e
  · cases e; exact h
  · simp only [Option.map_eq_some_iff] at e
    obtain ⟨st, hst, hr⟩ := e
    subst hr
    exact statOf_fr (sub_trans rfl hM) hst h

theorem softBwd_fr {z : State} {M : Nat} (hM : Nat.land 0x4010000a70 M = 0x4010000a70) {s : State} {c : Nat} {p : Piece} {d : SkD} {r : State × Flags} (e : softBwd s c p d = some r)
    (h : s.hide M = z.hide M) : r.1.hide M = z.hide M := by
  have key : ∀ (l : List Nat) (a b : Option (State × Flags)), (∀ x, a = some x → x.1.hide M = z.hide M) →
      l.foldl (fun (a : Option (State × Flags)) i =>
        match a with
        | none => none
        | some (s, f) =>
          (softBwdY s c p d i).map fun y =>
            let w := writeSk y.2 d i (softBwdRow y.2 d i y.1)
            (w.1, f ||| w.2)) a = b →
      ∀ x, b = some x → x.1.hide M = z.hide M := by
    intro l
    induction l with
    | nil => intro a b ha hb; subst hb; exact ha
    | cons i l ih =>
      intro a b ha hb
      refine ih _ b ?_ hb
      intro x hx
      cases a with
      | none => simp at hx
      | some q =>
        obtain ⟨t, f⟩ := q
        dsimp only at hx
        cases hst : softBwdY t c p d i with
        | none => simp [hst] at hx
        | some st =>
          simp only [hst, Option.map_some, Option.some.injEq] at hx
          subst hx
          exact writeSk_fr (sub_trans rfl hM) _ _ _ _ (softBwdY_fr (sub_trans rfl hM) hst (ha _ rfl))
  unfold softBwd at e
  exact key _ _ _ (fun x hx => by cases hx; exact h) e r rfl

theorem statSave_fr {z : State} {M : Nat} (hM : Nat.land 0x4010000a70 M = 0x4010000a70) (s : State) (c : Nat) (p : Piece) (d : SkD) (hs : s.hide M = z.hide M) :
    (statSave s c p d).1.hide M = z.hide M := by
  unfold statSave
  have k0 : Nat.land 0x800 M = _ := sub_trans rfl hM
  have k1 : Nat.land 0x4010000270 M = _ := sub_trans rfl hM
  repeat' (first | with_reducible assumption | with_reducible apply readSide_fr k0 | with_reducible apply writeMemRec_fr k1 | with_reducible apply foldl_fr | with_reducible apply foldl_fr_fst | (intro _ _ _) | split)

theorem statLoad_fr {z : State} {M : Nat} (hM : Nat.land 0x20000 M = 0x20000) (s : State) (c : Nat) (p : Piece) (d : SkD) (hs : s.hide M = z.hide M) :
    (statLoad s c p d).1.hide M = z.hide M := by
  unfold statLoad
  have k0 : Nat.land 0x20000 M = _ := sub_trans rfl hM
  have k1 : Nat.land 0x20000 M = _ := sub_trans rfl hM
  repeat' (first | with_reducible assumption | with_reducible apply clearValid_fr k0 | with_reducible apply writeSide_fr k1 | with_reducible apply foldl_fr | with_reducible apply foldl_fr_fst | (intro _ _ _))

theorem skCmd_fr {z : State} {M : Nat} (hM : Nat.land 0x400040903e0270 M = 0x400040903e0270) (s : State) (c op : Nat) (work : State → Piece → Nat → SkD → Option (State × Flags)) (h : s.hide M = z.hide M)
    (k : ∀ p n d r, work s p n d = some r → r.1.hide M = z.hide M) : (skCmd s c op work).hide M = z.hide M := by
  unfold skCmd
  split
  · exact h
  · split
    · exact h
    · split
      · split
        · rename_i r hr; exact itemDone_fr (sub_trans rfl hM) _ _ _ (State.stageFlags_fr (sub_trans rfl hM) _ _ _ (k _ _ _ r hr))
        · exact failPiece_fr (sub_trans rfl hM) _ _ _ _ h
      · exact h

theorem harnessResult_fr {z : State} {M : Nat} (hM : Nat.land 0x4010000270 M = 0x4010000270) (s : State) (c : Nat) (i : Item) (v : Nat) (hs : s.hide M = z.hide M) :
    (harnessResult s c i v).hide M = z.hide M := by
  unfold harnessResult
  have k0 : Nat.land 0x200 M = _ := sub_trans rfl hM
  have k1 : Nat.land 0x4010000270 M = _ := sub_trans rfl hM
  repeat' (first | with_reducible assumption | with_reducible apply itemDone_fr k0 | with_reducible apply State.wr_fr k1 | with_reducible apply foldl_fr | with_reducible apply foldl_fr_fst | (intro _ _ _) | split)

theorem joinWait_fr {z : State} {M : Nat} (hM : Nat.land 0x40200 M = 0x40200) (s : State) (c : Nat) (p : Piece) (i : Item) (k : Nat) (w : Wait) (hs : s.hide M = z.hide M) :
    (joinWait s c p i k w).hide M = z.hide M := by
  unfold joinWait
  have k0 : Nat.land 0x40000 M = _ := sub_trans rfl hM
  have k1 : Nat.land 0x200 M = _ := sub_trans rfl hM
  repeat' (first | with_reducible assumption | with_reducible apply State.setObj_fr k0 | with_reducible apply updItem_fr k1)

theorem waitFor_fr {z : State} {M : Nat} (hM : Nat.land 0x4010040270 M = 0x4010040270) (s : State) (c : Nat) (p : Piece) (i : Item) (k : Nat) (w : Wait) (hs : s.hide M = z.hide M) :
    (waitFor s c p i k w).hide M = z.hide M := by
  unfold waitFor
  have k0 : Nat.land 0x4010000270 M = _ := sub_trans rfl hM
  have k1 : Nat.land 0x40200 M = _ := sub_trans rfl hM
  repeat' (first | with_reducible assumption | with_reducible apply harnessResult_fr k0 | with_reducible apply joinWait_fr k1 | with_reducible apply foldl_fr | with_reducible apply foldl_fr_fst | (intro _ _ _) | split | dsimp only)

theorem takeUnit_fr {z : State} {M : Nat} (hM : Nat.land 0x40200 M = 0x40200) (s : State) (c k : Nat) (hs : s.hide M = z.hide M) :
    (takeUnit s c k).hide M = z.hide M := by
  unfold takeUnit
  have k0 : Nat.land 0x40000 M = _ := sub_trans rfl hM
  have k1 : Nat.land 0x200 M = _ := sub_trans rfl hM
  repeat' (first | with_reducible assumption | with_reducible apply State.setObj_fr k0 | with_reducible apply State.updPiece_fr k1)

theorem arriveWait_fr {z : State} {M : Nat} (hM : Nat.land 0x40004090040270 M = 0x40004090040270) (s : State) (c : Nat) (p : Piece) (i : Item) (k : Nat) (hs : s.hide M = z.hide M) :
    (arriveWait s c p i k).hide M = z.hide M := by
  unfold arriveWait
  have k0 : Nat.land 0x40000 M = _ := sub_trans rfl hM
  have k1 : Nat.land 0x40000080040240 M = _ := sub_trans rfl hM
  have k2 : Nat.land 0x4010040270 M = _ := sub_trans rfl hM
  repeat' (first | with_reducible assumption | with_reducible apply State.setObj_fr k0 | with_reducible apply syncChange_fr k1 | with_reducible apply waitFor_fr k2 | with_reducible apply foldl_fr | with_reducible apply foldl_fr_fst | (intro _ _ _) | split)

theorem harnessWork_fr {z : State} {M : Nat} (hM : Nat.land 0x40004090040270 M = 0x40004090040270) (s : State) (c : Nat) (p : Piece) (i : Item) (op : SyncOp) (hs : s.hide M = z.hide M) :
    (harnessWork s c p i op).hide M = z.hide M := by
  unfold harnessWork
  have k0 : Nat.land 0x40004090040270 M = _ := sub_trans rfl hM
  have k1 : Nat.land 0x4010000270 M = _ := sub_trans rfl hM
  have k2 : Nat.land 0x200 M = _ := sub_trans rfl hM
  have k3 : Nat.land 0x40200 M = _ := sub_trans rfl hM
  have k4 : Nat.land 0x200 M = _ := sub_trans rfl hM
  have k5 : Nat.land 0x40200 M = _ := sub_trans rfl hM
  have k6 : Nat.land 0x4010040270 M = _ := sub_trans rfl hM
  repeat' (first | with_reducible assumption | with_reducible apply arriveWait_fr k0 | with_reducible apply harnessResult_fr k1 | with_reducible apply itemDone_fr k2 | with_reducible apply joinWait_fr k3 | with_reducible apply State.updPiece_fr k4 | with_reducible apply takeUnit_fr k5 | with_reducible apply waitFor_fr k6 | with_reducible apply foldl_fr | with_reducible apply foldl_fr_fst | (intro _ _ _) | split | dsimp only)

theorem harnessCmd_fr {z : State} {M : Nat} (hM : Nat.land 0x40004090040270 M = 0x40004090040270) (s : State) (c : Nat) (op : SyncOp) (hs : s.hide M = z.hide M) :
    (harnessCmd s c op).hide M = z.hide M := by
  unfold harnessCmd
  have k0 : Nat.land 0x40004090040270 M = _ := sub_trans rfl hM
  repeat' (first | with_reducible assumption | with_reducible apply harnessWork_fr k0 | with_reducible apply foldl_fr | with_reducible apply foldl_fr_fst | (intro _ _ _) | split)

theorem waitRelease_fr {z : State} {M : Nat} (hM : Nat.land 0x4010000a70 M = 0x4010000a70) (s : State) (c unit cycles : Nat) (hs : s.hide M = z.hide M) :
    (waitRelease s c unit cycles).hide M = z.hide M := by
  unfold waitRelease
  have k0 : Nat.land 0x800 M = _ := sub_trans rfl hM
  have k1 : Nat.land 0x4010000270 M = _ := sub_trans rfl hM
  have k2 : Nat.land 0x200 M = _ := sub_trans rfl hM
  repeat' (first | with_reducible assumption | with_reducible apply countStalls_fr k0 | with_reducible apply harnessResult_fr k1 | with_reducible apply updItem_fr k2 | with_reducible apply foldl_fr | with_reducible apply foldl_fr_fst | (intro _ _ _) | split)

theorem farUpdate_fr {z : State} {M : Nat} (hM : Nat.land 0x40000080040240 M = 0x40000080040240) (s : State) (far amount : Nat) (hs : s.hide M = z.hide M) :
    (farUpdate s far amount).hide M = z.hide M := by
  unfold farUpdate
  have k0 : Nat.land 0x40000080040240 M = _ := sub_trans rfl hM
  have k1 : Nat.land 0x40200 M = _ := sub_trans rfl hM
  repeat' (first | with_reducible assumption | with_reducible apply lowWater_fr k0 | with_reducible apply settleObj_fr k1 | with_reducible apply foldl_fr | with_reducible apply foldl_fr_fst | (intro _ _ _) | split)

theorem harnessFrame_fr {z : State} {M : Nat} (hM : Nat.land 0x40000000800000 M = 0x40000000800000) (s : State) (port cls seq : Nat) (crcOk : Bool) (payload : Nat) (hs : s.hide M = z.hide M) :
    (harnessFrame s port cls seq crcOk payload).hide M = z.hide M := by
  unfold harnessFrame
  have k0 : Nat.land 0x40000000000000 M = _ := sub_trans rfl hM
  have b1 : M.testBit 23 = true := sub_bit hM rfl
  repeat' (first | with_reducible assumption | simp only [State.hide_frameSeq b1] | with_reducible apply State.send_fr k0 | with_reducible apply foldl_fr | with_reducible apply foldl_fr_fst | (intro _ _ _) | split)

end Sys2Proof.Machine
end

