-- ==== Sys2Proof/Laws/Sparse.lean ====
section
/-! SUPPORT. Laws of sparse maps: what a read after a write gives, and that writes keep the canonical form. -/
namespace Sys2Proof.Machine.Sp
variable {α : Type}

theorem get_ins_same (d : α) (m : Sparse α) (i : Nat) (v : α) : get d (ins m i v) i = v := by
  induction m with
  | nil => simp [ins, get]
  | cons e r ih =>
    obtain ⟨k, w⟩ := e
    simp only [ins]
    split
    · simp [get]
    · split
      · simp [get]
      · rename_i h1 h2; simp [get, h2, ih]

theorem get_ins_other (d : α) (m : Sparse α) (i j : Nat) (v : α) (h : j ≠ i) : get d (ins m i v) j = get d m j := by
  induction m with
  | nil => simp [ins, get, h]
  | cons e r ih =>
    obtain ⟨k, w⟩ := e
    simp only [ins]
    split
    · simp [get, h]
    · split
      · rename_i h2; subst h2; simp [get, h]
      · simp [get, ih]

theorem get_del_other (d : α) (m : Sparse α) (i j : Nat) (h : j ≠ i) : get d (del m i) j = get d m j := by
  induction m with
  | nil => rfl
  | cons e r ih =>
    obtain ⟨k, w⟩ := e
    simp only [del]
    split
    · rename_i h2; subst h2; simp [get, h, ih]
    · simp [get, ih]

/-- Every listed key is above b. -/
def above (b : Nat) (m : Sparse α) : Prop := ∀ e ∈ m, b < e.1

theorem rising_cons (k : Nat) (v : α) (m : Sparse α) : rising ((k, v) :: m) = true ↔ above k m ∧ rising m = true := by
  induction m generalizing k v with
  | nil => simp [rising, above]
  | cons e r ih =>
    obtain ⟨j, w⟩ := e
    constructor
    · intro h
      simp only [rising, Bool.and_eq_true, decide_eq_true_eq] at h
      refine ⟨?_, h.2⟩
      intro e he
      simp only [List.mem_cons] at he
      rcases he with rfl | he
      · exact h.1
      · exact Nat.lt_trans h.1 (((ih j w).mp h.2).1 e he)
    · rintro ⟨h1, h2⟩
      simp only [rising, Bool.and_eq_true, decide_eq_true_eq]
      exact ⟨h1 _ (List.mem_cons_self ..), h2⟩

theorem get_above (d : α) (m : Sparse α) (i : Nat) (h : above i m) : get d m i = d := by
  induction m with
  | nil => rfl
  | cons e r ih =>
    obtain ⟨k, w⟩ := e
    have hk : i < k := h (k, w) (List.mem_cons_self ..)
    simp only [get, if_neg (Nat.ne_of_lt hk)]
    exact ih fun e he => h e (List.mem_cons_of_mem _ he)

theorem get_del_same (d : α) (m : Sparse α) (i : Nat) : get d (del m i) i = d := by
  induction m with
  | nil => rfl
  | cons e r ih =>
    obtain ⟨k, w⟩ := e
    simp only [del]
    split
    · exact ih
    · rename_i hk; simp only [get, if_neg hk]; exact ih

theorem mem_ins (m : Sparse α) (i : Nat) (v : α) (e : Nat × α) (he : e ∈ ins m i v) : e = (i, v) ∨ e ∈ m := by
  induction m with
  | nil => simp only [ins, List.mem_singleton] at he; exact .inl he
  | cons e' r ih =>
    obtain ⟨k, w⟩ := e'
    simp only [ins] at he
    split at he
    · simpa using he
    · split at he
      · simp only [List.mem_cons] at he ⊢
        rcases he with h | h
        · exact .inl h
        · exact .inr (.inr h)
      · simp only [List.mem_cons] at he ⊢
        rcases he with rfl | he
        · exact .inr (.inl rfl)
        · rcases ih he with h | h
          · exact .inl h
          · exact .inr (.inr h)

theorem mem_del (m : Sparse α) (i : Nat) (e : Nat × α) (he : e ∈ del m i) : e ∈ m := by
  induction m with
  | nil => simp [del] at he
  | cons e' r ih =>
    obtain ⟨k, w⟩ := e'
    simp only [del] at he
    split at he
    · exact List.mem_cons_of_mem _ (ih he)
    · simp only [List.mem_cons] at he ⊢
      rcases he with rfl | he
      · exact .inl rfl
      · exact .inr (ih he)

theorem rising_ins (m : Sparse α) (i : Nat) (v : α) (h : rising m = true) : rising (ins m i v) = true := by
  induction m with
  | nil => rfl
  | cons e r ih =>
    obtain ⟨k, w⟩ := e
    have hr := (rising_cons k w r).mp h
    simp only [ins]
    split
    · rename_i hik
      rw [rising_cons]
      refine ⟨?_, h⟩
      intro e he
      simp only [List.mem_cons] at he
      rcases he with rfl | he
      · exact hik
      · exact Nat.lt_trans hik (hr.1 e he)
    · split
      · rename_i hik; subst hik; rw [rising_cons]; exact hr
      · rename_i h1 h2
        rw [rising_cons]
        refine ⟨?_, ih hr.2⟩
        intro e he
        rcases mem_ins r i v e he with rfl | he
        · simp only; omega
        · exact hr.1 e he

theorem rising_del (m : Sparse α) (i : Nat) (h : rising m = true) : rising (del m i) = true := by
  induction m with
  | nil => rfl
  | cons e r ih =>
    obtain ⟨k, w⟩ := e
    have hr := (rising_cons k w r).mp h
    simp only [del]
    split
    · exact ih hr.2
    · rw [rising_cons]
      exact ⟨fun e he => hr.1 e (mem_del r i e he), ih hr.2⟩

theorem rising_filter (p : Nat × α → Bool) (m : Sparse α) (h : rising m = true) : rising (m.filter p) = true := by
  induction m with
  | nil => rfl
  | cons e r ih =>
    obtain ⟨k, w⟩ := e
    have hr := (rising_cons k w r).mp h
    by_cases hp : p (k, w) = true
    · rw [List.filter_cons_of_pos hp, rising_cons]
      exact ⟨fun e he => hr.1 e (List.mem_filter.mp he).1, ih hr.2⟩
    · rw [List.filter_cons_of_neg hp]; exact ih hr.2

variable [DecidableEq α]

theorem wf_iff (d : α) (m : Sparse α) : wf d m = true ↔ rising m = true ∧ ∀ e ∈ m, e.2 ≠ d := by
  simp [wf, List.all_eq_true]

/-- A read after a write of the same key. -/
theorem get_set_same (d : α) (m : Sparse α) (i : Nat) (v : α) : get d (set d m i v) i = v := by
  unfold set
  split
  · rename_i hv; rw [get_del_same d m i, hv]
  · exact get_ins_same d m i v

/-- A write leaves every other key alone. -/
theorem get_set_other (d : α) (m : Sparse α) (i j : Nat) (v : α) (h : j ≠ i) : get d (set d m i v) j = get d m j := by
  unfold set
  split
  · exact get_del_other d m i j h
  · exact get_ins_other d m i j v h

/-- A write keeps the canonical form. -/
theorem wf_set (d : α) (m : Sparse α) (i : Nat) (v : α) (h : wf d m = true) : wf d (set d m i v) = true := by
  rw [wf_iff] at h ⊢
  unfold set
  split
  · exact ⟨rising_del m i h.1, fun e he => h.2 e (mem_del m i e he)⟩
  · rename_i hv
    refine ⟨rising_ins m i v h.1, fun e he => ?_⟩
    rcases mem_ins m i v e he with rfl | he
    · exact hv
    · exact h.2 e he

/-- Leaving entries out keeps the canonical form. -/
theorem wf_filter (d : α) (p : Nat × α → Bool) (m : Sparse α) (h : wf d m = true) : wf d (m.filter p) = true := by
  rw [wf_iff] at h ⊢
  exact ⟨rising_filter p m h.1, fun e he => h.2 e (List.mem_filter.mp he).1⟩

end Sys2Proof.Machine.Sp
end

