-- ==== Sys2Proof/Laws/Memory.lean ====
section
/-! SUPPORT. Every operation over the principal operations, the queues of a cell and the array engine keeps the memory in its canonical form
(one lemma per operation, by composition of its callees). -/

namespace Sys2Proof.Machine

/-- A run of operations each of which keeps the form. -/
theorem foldl_wf {β : Type} {f : State → β → State} {l : List β} {s : State}
    (h : Memory.wf s.mem = true) (k : ∀ t a, Memory.wf t.mem = true → Memory.wf (f t a).mem = true) : Memory.wf (l.foldl f s).mem = true := by
  induction l generalizing s with
  | nil => exact h
  | cons a r ih => exact ih (k s a h)

/-- A run that carries something beside the state. -/
theorem foldl_wf_fst {β γ : Type} {f : State × γ → β → State × γ} {l : List β} {a : State × γ}
    (h : Memory.wf a.1.mem = true) (k : ∀ t b, Memory.wf t.1.mem = true → Memory.wf (f t b).1.mem = true) : Memory.wf (l.foldl f a).1.mem = true := by
  induction l generalizing a with
  | nil => exact h
  | cons b r ih => exact ih (k a b h)


theorem State.odSet_wf (s : State) (index sub v : Nat) (hs : Memory.wf s.mem = true) :
    Memory.wf (State.odSet s index sub v).mem = true := by
  unfold State.odSet
  repeat' (first | with_reducible assumption)

theorem State.odAdd_wf (s : State) (index sub n : Nat) (hs : Memory.wf s.mem = true) :
    Memory.wf (State.odAdd s index sub n).mem = true := by
  unfold State.odAdd
  repeat' (first | with_reducible assumption | with_reducible apply State.odSet_wf)

theorem State.setCell_wf (s : State) (c : Nat) (v : Cell) (hs : Memory.wf s.mem = true) :
    Memory.wf (State.setCell s c v).mem = true := by
  unfold State.setCell
  repeat' (first | with_reducible assumption)

theorem State.updCell_wf (s : State) (c : Nat) (f : Cell → Cell) (hs : Memory.wf s.mem = true) :
    Memory.wf (State.updCell s c f).mem = true := by
  unfold State.updCell
  repeat' (first | with_reducible assumption | with_reducible apply State.setCell_wf)

theorem State.updPiece_wf (s : State) (c : Nat) (f : Piece → Piece) (hs : Memory.wf s.mem = true) :
    Memory.wf (State.updPiece s c f).mem = true := by
  unfold State.updPiece
  repeat' (first | with_reducible assumption | with_reducible apply State.updCell_wf)

theorem State.setBme_wf (s : State) (on : Bool) (hs : Memory.wf s.mem = true) :
    Memory.wf (State.setBme s on).mem = true := by
  unfold State.setBme
  repeat' (first | with_reducible assumption)

theorem State.updPhys_wf (s : State) (cluster p : Nat) (f : Phys → Phys) (hs : Memory.wf s.mem = true) :
    Memory.wf (State.updPhys s cluster p f).mem = true := by
  unfold State.updPhys
  repeat' (first | with_reducible assumption)

theorem State.setBlock_wf (s : State) (b : Nat) (v : Block) (hs : Memory.wf s.mem = true) :
    Memory.wf (State.setBlock s b v).mem = true := by
  unfold State.setBlock
  repeat' (first | with_reducible assumption)

theorem State.cellAdd_wf (s : State) (c k n : Nat) (hs : Memory.wf s.mem = true) :
    Memory.wf (State.cellAdd s c k n).mem = true := by
  unfold State.cellAdd
  repeat' (first | with_reducible assumption)

theorem State.addPoison_wf (s : State) (a : Nat) (hs : Memory.wf s.mem = true) :
    Memory.wf (State.addPoison s a).mem = true := by
  unfold State.addPoison
  repeat' (first | with_reducible assumption)

theorem State.wrByte_wf (s : State) (a : Nat) (b : Byte) (h : Memory.wf s.mem = true) : Memory.wf (s.wrByte a b).mem = true :=
  Sp.wf_set 0 s.mem a b h

theorem State.noteWritten_wf (s : State) (a n : Nat) (hs : Memory.wf s.mem = true) :
    Memory.wf (State.noteWritten s a n).mem = true := by
  unfold State.noteWritten
  repeat' (first | with_reducible assumption | with_reducible apply State.updCell_wf | with_reducible apply foldl_wf | with_reducible apply foldl_wf_fst | (intro _ _ _) | split)

theorem State.wrBytes_wf (s : State) (a : Nat) (bs : List Byte) (h : Memory.wf s.mem = true) :
    Memory.wf (s.wrBytes a bs).mem = true := by
  induction bs generalizing s a with
  | nil => exact h
  | cons b r ih => exact ih _ _ (State.wrByte_wf s a b h)

theorem State.markPoison_wf (s : State) (a n : Nat) (bad : List Nat) (h : Memory.wf s.mem = true) :
    Memory.wf (s.markPoison a n bad).mem = true := h

theorem State.copyRange_wf (s : State) (src dst n : Nat) (h : Memory.wf s.mem = true) :
    Memory.wf (s.copyRange src dst n).mem = true := by
  have step : ∀ (l : List Host.Cell) (m : List Host.Cell), Memory.wf m = true →
      Memory.wf (l.foldl (fun m (e : Nat × Byte) => Sp.set (0 : Byte) m (e.1 - src + dst) e.2) m) = true := by
    intro l
    induction l with
    | nil => exact fun _ hm => hm
    | cons e r ih => exact fun m hm => ih _ (Sp.wf_set 0 m _ _ hm)
  exact step _ _ (Sp.wf_filter 0 _ s.mem h)

theorem State.clearMem_wf (s : State) : Memory.wf s.clearMem.mem = true := rfl

theorem State.stageFlags_wf (s : State) (c : Nat) (f : Flags) (hs : Memory.wf s.mem = true) :
    Memory.wf (State.stageFlags s c f).mem = true := by
  unfold State.stageFlags
  repeat' (first | with_reducible assumption | with_reducible apply State.updPiece_wf)

theorem State.orCellFlags_wf (s : State) (c : Nat) (f : Flags) (hs : Memory.wf s.mem = true) :
    Memory.wf (State.orCellFlags s c f).mem = true := by
  unfold State.orCellFlags
  repeat' (first | with_reducible assumption)

theorem State.orClusterFlags_wf (s : State) (k : Nat) (f : Flags) (hs : Memory.wf s.mem = true) :
    Memory.wf (State.orClusterFlags s k f).mem = true := by
  unfold State.orClusterFlags
  repeat' (first | with_reducible assumption)

theorem State.setObj_wf (s : State) (i : Nat) (o : SyncObj) (hs : Memory.wf s.mem = true) :
    Memory.wf (State.setObj s i o).mem = true := by
  unfold State.setObj
  repeat' (first | with_reducible assumption)

theorem State.setCtx_wf (s : State) (c : Nat) (v : Ctx) (hs : Memory.wf s.mem = true) :
    Memory.wf (State.setCtx s c v).mem = true := by
  unfold State.setCtx
  repeat' (first | with_reducible assumption)

theorem State.updCtx_wf (s : State) (c : Nat) (f : Ctx → Ctx) (hs : Memory.wf s.mem = true) :
    Memory.wf (State.updCtx s c f).mem = true := by
  unfold State.updCtx
  repeat' (first | with_reducible assumption | with_reducible apply State.setCtx_wf | with_reducible apply foldl_wf | with_reducible apply foldl_wf_fst | (intro _ _ _) | split)

theorem State.setRing_wf (s : State) (n : Nat) (r : Ring) (hs : Memory.wf s.mem = true) :
    Memory.wf (State.setRing s n r).mem = true := by
  unfold State.setRing
  repeat' (first | with_reducible assumption)

theorem State.updCmd_wf (s : State) (id : Nat) (f : Cmd → Cmd) (hs : Memory.wf s.mem = true) :
    Memory.wf (State.updCmd s id f).mem = true := by
  unfold State.updCmd
  repeat' (first | with_reducible assumption)

theorem State.setPort_wf (s : State) (p : Nat) (v : Port) (hs : Memory.wf s.mem = true) :
    Memory.wf (State.setPort s p v).mem = true := by
  unfold State.setPort
  repeat' (first | with_reducible assumption)

theorem State.updPort_wf (s : State) (p : Nat) (f : Port → Port) (hs : Memory.wf s.mem = true) :
    Memory.wf (State.updPort s p f).mem = true := by
  unfold State.updPort
  repeat' (first | with_reducible assumption | with_reducible apply State.setPort_wf)

theorem State.updFab_wf (s : State) (id : Nat) (f : FabOp → FabOp) (hs : Memory.wf s.mem = true) :
    Memory.wf (State.updFab s id f).mem = true := by
  unfold State.updFab
  repeat' (first | with_reducible assumption)

theorem State.updStream_wf (s : State) (n : Nat) (f : Stream → Stream) (hs : Memory.wf s.mem = true) :
    Memory.wf (State.updStream s n f).mem = true := by
  unfold State.updStream
  repeat' (first | with_reducible assumption)

theorem State.send_wf (s : State) (m : Msg) (hs : Memory.wf s.mem = true) :
    Memory.wf (State.send s m).mem = true := by
  unfold State.send
  repeat' (first | with_reducible assumption | with_reducible apply foldl_wf | with_reducible apply foldl_wf_fst | (intro _ _ _) | split)

theorem State.takeMsg_wf {s t : State} {m : Msg} (e : s.takeMsg m = some t) (h : Memory.wf s.mem = true) :
    Memory.wf t.mem = true := by
  unfold State.takeMsg at e
  split at e
  · cases e; exact h
  · cases e

theorem State.takeMsg_getD_wf (s : State) (m : Msg) (h : Memory.wf s.mem = true) :
    Memory.wf ((s.takeMsg m).getD s).mem = true := by
  unfold State.takeMsg
  split <;> exact h

theorem State.fresh_wf (s : State) (hs : Memory.wf s.mem = true) :
    Memory.wf (State.fresh s).mem = true := by
  unfold State.fresh
  repeat' (first | with_reducible assumption)

theorem State.draw_wf (s : State) (hs : Memory.wf s.mem = true) :
    Memory.wf (State.draw s).mem = true := by
  unfold State.draw
  repeat' (first | with_reducible assumption)

theorem whenPowered_wf (s : State) (f : State → State) (h : Memory.wf s.mem = true) (k : Memory.wf (f s).mem = true) :
    Memory.wf (whenPowered s f).mem = true := by
  unfold whenPowered
  split
  · exact k
  · exact h

theorem putLine_wf (s : State) (a : Nat) (l : CacheLine) (hs : Memory.wf s.mem = true) :
    Memory.wf (putLine s a l).mem = true := by
  unfold putLine
  repeat' (first | with_reducible assumption)

theorem putSector_wf (s : State) (a : Nat) (d : List Nat) (poison : Bool) (hs : Memory.wf s.mem = true) :
    Memory.wf (putSector s a d poison).mem = true := by
  unfold putSector
  repeat' (first | with_reducible assumption | with_reducible apply State.addPoison_wf | with_reducible apply State.wrBytes_wf | with_reducible apply foldl_wf | with_reducible apply foldl_wf_fst | (intro _ _ _) | split)

theorem evictLine_wf (s : State) (l : CacheLine) (hs : Memory.wf s.mem = true) :
    Memory.wf (evictLine s l).mem = true := by
  unfold evictLine
  repeat' (first | with_reducible assumption | with_reducible apply putSector_wf | with_reducible apply foldl_wf | with_reducible apply foldl_wf_fst | (intro _ _ _) | split)

theorem touchLine_wf (s : State) (a : Nat) (l : CacheLine) (hs : Memory.wf s.mem = true) :
    Memory.wf (touchLine s a l).mem = true := by
  unfold touchLine
  repeat' (first | with_reducible assumption | with_reducible apply evictLine_wf | with_reducible apply foldl_wf)

theorem loadLine_wf (s : State) (a n : Nat) (hs : Memory.wf s.mem = true) :
    Memory.wf (loadLine s a n).mem = true := by
  unfold loadLine
  repeat' (first | with_reducible assumption | with_reducible apply State.odAdd_wf | with_reducible apply touchLine_wf | with_reducible apply foldl_wf | with_reducible apply foldl_wf_fst | (intro _ _ _) | split)

theorem storeLine_wf (s : State) (a n : Nat) (val : Nat → Byte) (hs : Memory.wf s.mem = true) :
    Memory.wf (storeLine s a n val).mem = true := by
  unfold storeLine
  repeat' (first | with_reducible assumption | with_reducible apply touchLine_wf | with_reducible apply foldl_wf | with_reducible apply foldl_wf_fst | (intro _ _ _) | split)

theorem sliceLoads_wf (s : State) (rs : List (Nat × Nat)) (hs : Memory.wf s.mem = true) :
    Memory.wf (sliceLoads s rs).mem = true := by
  unfold sliceLoads
  repeat' (first | with_reducible assumption | with_reducible apply loadLine_wf | with_reducible apply foldl_wf | with_reducible apply foldl_wf_fst | (intro _ _ _))

theorem sliceStore_wf (s : State) (a n : Nat) (val : Nat → Byte) (hs : Memory.wf s.mem = true) :
    Memory.wf (sliceStore s a n val).mem = true := by
  unfold sliceStore
  repeat' (first | with_reducible assumption | with_reducible apply storeLine_wf | with_reducible apply foldl_wf | with_reducible apply foldl_wf_fst | (intro _ _ _))

theorem sliceStores_wf (s : State) (ws : List (Nat × List Byte)) (hs : Memory.wf s.mem = true) :
    Memory.wf (sliceStores s ws).mem = true := by
  unfold sliceStores
  repeat' (first | with_reducible assumption | with_reducible apply sliceStore_wf | with_reducible apply foldl_wf | with_reducible apply foldl_wf_fst | (intro _ _ _))

theorem State.moveRange_wf (s : State) (src dst n : Nat) (hs : Memory.wf s.mem = true) :
    Memory.wf (State.moveRange s src dst n).mem = true := by
  unfold State.moveRange
  repeat' (first | with_reducible assumption | with_reducible apply State.copyRange_wf | with_reducible apply sliceLoads_wf | with_reducible apply sliceStore_wf)

theorem State.copyOnWrite_wf (s : State) (a n : Nat) (hs : Memory.wf s.mem = true) :
    Memory.wf (State.copyOnWrite s a n).mem = true := by
  unfold State.copyOnWrite
  repeat' (first | with_reducible assumption | with_reducible apply State.moveRange_wf | with_reducible apply State.odAdd_wf | with_reducible apply foldl_wf | with_reducible apply foldl_wf_fst | (intro _ _ _) | split | dsimp only)

theorem State.store_wf (s : State) (a : Nat) (bs : List Byte) (bad : List Nat) (hs : Memory.wf s.mem = true) :
    Memory.wf (State.store s a bs bad).mem = true := by
  unfold State.store
  repeat' (first | with_reducible assumption | with_reducible apply State.markPoison_wf | with_reducible apply State.noteWritten_wf | with_reducible apply State.copyOnWrite_wf | with_reducible apply State.wrBytes_wf)

theorem State.storeP_wf (s : State) (a : Nat) (bs : List Byte) (p : Bool) (hs : Memory.wf s.mem = true) :
    Memory.wf (State.storeP s a bs p).mem = true := by
  unfold State.storeP
  repeat' (first | with_reducible assumption | with_reducible apply State.store_wf)

theorem State.wr_wf (s : State) (a n v : Nat) (p : Bool) (hs : Memory.wf s.mem = true) :
    Memory.wf (State.wr s a n v p).mem = true := by
  unfold State.wr
  repeat' (first | with_reducible assumption | with_reducible apply State.storeP_wf)

theorem State.reachStore_wf (s : State) (a : Nat) (bs : List Byte) (p : Bool) (hs : Memory.wf s.mem = true) :
    Memory.wf (State.reachStore s a bs p).mem = true := by
  unfold State.reachStore
  repeat' (first | with_reducible assumption | with_reducible apply sliceStores_wf | with_reducible apply State.storeP_wf | with_reducible apply foldl_wf | with_reducible apply foldl_wf_fst | (intro _ _ _) | split)

theorem State.reachView_wf (s : State) (rs : List (Nat × Nat)) (hs : Memory.wf s.mem = true) :
    Memory.wf (State.reachView s rs).mem = true := by
  unfold State.reachView
  repeat' (first | with_reducible assumption | with_reducible apply State.markPoison_wf | with_reducible apply State.wrBytes_wf | with_reducible apply foldl_wf | with_reducible apply foldl_wf_fst | (intro _ _ _) | split)

theorem State.swapRange_wf (s : State) (src dst n : Nat) (hs : Memory.wf s.mem = true) :
    Memory.wf (State.swapRange s src dst n).mem = true := by
  unfold State.swapRange
  repeat' (first | with_reducible assumption | with_reducible apply State.moveRange_wf | with_reducible apply State.copyOnWrite_wf)

theorem giveReply_wf (s : State) (w : Waiter) (word objIdx : Nat) (hs : Memory.wf s.mem = true) :
    Memory.wf (giveReply s w word objIdx).mem = true := by
  unfold giveReply
  repeat' (first | with_reducible assumption | with_reducible apply State.updPiece_wf)

theorem settleObj_wf (s : State) (i : Nat) (o : SyncObj) (hs : Memory.wf s.mem = true) :
    Memory.wf (settleObj s i o).mem = true := by
  unfold settleObj
  repeat' (first | with_reducible assumption | with_reducible apply giveReply_wf | with_reducible apply State.setObj_wf | with_reducible apply foldl_wf | with_reducible apply foldl_wf_fst | (intro _ _ _))

theorem tellFar_wf (s : State) (o : SyncObj) (op : SyncOp) (operand : Nat) (hs : Memory.wf s.mem = true) :
    Memory.wf (tellFar s o op operand).mem = true := by
  unfold tellFar
  repeat' (first | with_reducible assumption | with_reducible apply State.send_wf | with_reducible apply foldl_wf | with_reducible apply foldl_wf_fst | (intro _ _ _) | split)

theorem lowWaterAt_wf (s : State) (n before after : Nat) (hs : Memory.wf s.mem = true) :
    Memory.wf (lowWaterAt s n before after).mem = true := by
  unfold lowWaterAt
  repeat' (first | with_reducible assumption | with_reducible apply State.odAdd_wf | with_reducible apply State.updStream_wf | with_reducible apply settleObj_wf | with_reducible apply tellFar_wf | with_reducible apply foldl_wf | with_reducible apply foldl_wf_fst | (intro _ _ _) | split | dsimp only)

theorem lowWater_wf (s : State) (i before : Nat) (hs : Memory.wf s.mem = true) :
    Memory.wf (lowWater s i before).mem = true := by
  unfold lowWater
  repeat' (first | with_reducible assumption | with_reducible apply lowWaterAt_wf | with_reducible apply foldl_wf | with_reducible apply foldl_wf_fst | (intro _ _ _))

theorem syncChange_wf (s : State) (i : Nat) (op : SyncOp) (operand : Nat) (hs : Memory.wf s.mem = true) :
    Memory.wf (syncChange s i op operand).mem = true := by
  unfold syncChange
  repeat' (first | with_reducible assumption | with_reducible apply lowWater_wf | with_reducible apply settleObj_wf | with_reducible apply tellFar_wf | with_reducible apply foldl_wf | with_reducible apply foldl_wf_fst | (intro _ _ _) | split | dsimp only)

theorem returnUnits_wf (s : State) (units : List Nat) (hs : Memory.wf s.mem = true) :
    Memory.wf (returnUnits s units).mem = true := by
  unfold returnUnits
  repeat' (first | with_reducible assumption | with_reducible apply syncChange_wf | with_reducible apply foldl_wf | with_reducible apply foldl_wf_fst | (intro _ _ _))

theorem dropWaiters_wf (s : State) (cell : Nat) (hs : Memory.wf s.mem = true) :
    Memory.wf (dropWaiters s cell).mem = true := by
  unfold dropWaiters
  repeat' (first | with_reducible assumption)

theorem writeRowStat_wf (s : State) (d : TileD) (i : Nat) (els : List DrainEl) (hs : Memory.wf s.mem = true) :
    Memory.wf (writeRowStat s d i els).1.mem = true := by
  unfold writeRowStat
  repeat' (first | with_reducible assumption | with_reducible apply State.wr_wf | with_reducible apply foldl_wf | with_reducible apply foldl_wf_fst | (intro _ _ _) | split)

theorem storeRuns_wf (s : State) (rs : List (Nat × List (Byte × Bool))) (hs : Memory.wf s.mem = true) :
    Memory.wf (storeRuns s rs).mem = true := by
  unfold storeRuns
  repeat' (first | with_reducible assumption | with_reducible apply State.store_wf | with_reducible apply foldl_wf | with_reducible apply foldl_wf_fst | (intro _ _ _))

theorem storeEls_wf (s : State) (els : List (Nat × List Byte × Bool)) (hs : Memory.wf s.mem = true) :
    Memory.wf (storeEls s els).mem = true := by
  unfold storeEls
  repeat' (first | with_reducible assumption | with_reducible apply storeRuns_wf)

theorem reachEls_wf (s : State) (els : List (Nat × List Byte × Bool)) (hs : Memory.wf s.mem = true) :
    Memory.wf (reachEls s els).mem = true := by
  unfold reachEls
  repeat' (first | with_reducible assumption | with_reducible apply sliceStores_wf | with_reducible apply storeEls_wf)

theorem upEls_wf (s : State) (els : List (Nat × List Byte × Bool)) (hs : Memory.wf s.mem = true) :
    Memory.wf (upEls s els).mem = true := by
  unfold upEls
  repeat' (first | with_reducible assumption | with_reducible apply reachEls_wf)

theorem writeRow_wf (s : State) (f : Fmt) (ctl : Numctl) (seed : Nat) (addr : Nat → Nat) (blk : Nat → Nat × Nat) (vals : List (Val × Nat × Bool)) (hs : Memory.wf s.mem = true) :
    Memory.wf (writeRow s f ctl seed addr blk vals).1.mem = true := by
  unfold writeRow
  repeat' (first | with_reducible assumption | with_reducible apply storeEls_wf | with_reducible apply foldl_wf | with_reducible apply foldl_wf_fst | (intro _ _ _) | split)

theorem writeImageRow_wf (s : State) (d : TileD) (i : Nat) (es : List AccEntry) (hs : Memory.wf s.mem = true) :
    Memory.wf (writeImageRow s d i es).mem = true := by
  unfold writeImageRow
  repeat' (first | with_reducible assumption | with_reducible apply storeEls_wf)

theorem drainRow_wf (d : TileD) (a : State × Flags) (i : Nat) (es : List AccEntry) (h : Memory.wf a.1.mem = true) :
    Memory.wf (drainRow d a i es).1.mem = true := by
  unfold drainRow
  split
  · exact writeImageRow_wf _ _ _ _ h
  · exact writeRow_wf _ _ _ _ _ _ _ (writeRowStat_wf _ _ _ _ h)

theorem drainTile_wf (s : State) (d : TileD) (es : List AccEntry) (h : Memory.wf s.mem = true) :
    Memory.wf (drainTile s d es).1.mem = true :=
  foldl_wf_fst h fun _ _ ht => drainRow_wf _ _ _ _ ht

theorem flushHeld_wf (s : State) (n k : Nat) (h : Memory.wf s.mem = true) : Memory.wf (flushHeld s n k).mem = true := by
  induction k generalizing s with
  | zero => exact h
  | succ k ih =>
    simp only [flushHeld]
    split
    · exact h
    · split
      · exact h
      · exact ih _ (State.setRing_wf _ _ _ (State.wr_wf _ _ _ _ _ h))

theorem flushRing_wf (s : State) (n : Nat) (hs : Memory.wf s.mem = true) :
    Memory.wf (flushRing s n).mem = true := by
  unfold flushRing
  repeat' (first | with_reducible assumption | with_reducible apply flushHeld_wf)

theorem postRecord_wf (s : State) (n serial word : Nat) (hs : Memory.wf s.mem = true) :
    Memory.wf (postRecord s n serial word).mem = true := by
  unfold postRecord
  repeat' (first | with_reducible assumption | with_reducible apply flushRing_wf | with_reducible apply State.setRing_wf | with_reducible apply foldl_wf | with_reducible apply foldl_wf_fst | (intro _ _ _) | split | dsimp only)

theorem countRefused_wf (s : State) (status : Nat) (hs : Memory.wf s.mem = true) :
    Memory.wf (countRefused s status).mem = true := by
  unfold countRefused
  repeat' (first | with_reducible assumption | with_reducible apply State.odAdd_wf | with_reducible apply foldl_wf | with_reducible apply foldl_wf_fst | (intro _ _ _) | split)

theorem complete_wf (s : State) (id status : Nat) (d : Details) (hs : Memory.wf s.mem = true) :
    Memory.wf (complete s id status d).mem = true := by
  unfold complete
  repeat' (first | with_reducible assumption | with_reducible apply countRefused_wf | with_reducible apply postRecord_wf | with_reducible apply State.updCtx_wf | with_reducible apply foldl_wf | with_reducible apply foldl_wf_fst | (intro _ _ _) | split)

theorem runPieceEnded_wf (s : State) (id pieceId status : Nat) (hs : Memory.wf s.mem = true) :
    Memory.wf (runPieceEnded s id pieceId status).mem = true := by
  unfold runPieceEnded
  repeat' (first | with_reducible assumption | with_reducible apply complete_wf | with_reducible apply State.updCmd_wf | with_reducible apply foldl_wf | with_reducible apply foldl_wf_fst | (intro _ _ _) | split | dsimp only)

theorem gridCheck_wf (s : State) (id objIdx : Nat) (hs : Memory.wf s.mem = true) :
    Memory.wf (gridCheck s id objIdx).mem = true := by
  unfold gridCheck
  repeat' (first | with_reducible assumption | with_reducible apply complete_wf | with_reducible apply foldl_wf | with_reducible apply foldl_wf_fst | (intro _ _ _) | split | dsimp only)

theorem gridsCheck_wf (s : State) (i : Nat) (f : Cmd → Cmd) (hs : Memory.wf s.mem = true) :
    Memory.wf (gridsCheck s i f).mem = true := by
  unfold gridsCheck
  repeat' (first | with_reducible assumption | with_reducible apply gridCheck_wf | with_reducible apply State.updCmd_wf | with_reducible apply foldl_wf | with_reducible apply foldl_wf_fst | (intro _ _ _))

theorem sideSettle_wf (s : State) (c seq : Nat) (commit : Option Nat) (hs : Memory.wf s.mem = true) :
    Memory.wf (sideSettle s c seq commit).mem = true := by
  unfold sideSettle
  repeat' (first | with_reducible assumption)

theorem leaveCell_wf (s : State) (c : Nat) (p : Piece) (hs : Memory.wf s.mem = true) :
    Memory.wf (leaveCell s c p).mem = true := by
  unfold leaveCell
  repeat' (first | with_reducible assumption | with_reducible apply dropWaiters_wf | with_reducible apply State.updCell_wf)

theorem abandon_wf (s : State) (c : Nat) (p : Piece) (hs : Memory.wf s.mem = true) :
    Memory.wf (abandon s c p).mem = true := by
  unfold abandon
  repeat' (first | with_reducible assumption | with_reducible apply leaveCell_wf | with_reducible apply returnUnits_wf | with_reducible apply sideSettle_wf)

theorem failTile_wf (s : State) (cmd : Nat) (l : LeaseRef) (status : Nat) (hs : Memory.wf s.mem = true) :
    Memory.wf (failTile s cmd l status).mem = true := by
  unfold failTile
  repeat' (first | with_reducible assumption | with_reducible apply gridsCheck_wf | with_reducible apply State.setObj_wf | with_reducible apply State.updCmd_wf)

theorem endWith_wf (s : State) (cmd desc : Nat) (lease : Option LeaseRef) (status : Nat) (hs : Memory.wf s.mem = true) :
    Memory.wf (endWith s cmd desc lease status).mem = true := by
  unfold endWith
  repeat' (first | with_reducible assumption | with_reducible apply failTile_wf | with_reducible apply runPieceEnded_wf | with_reducible apply foldl_wf | with_reducible apply foldl_wf_fst | (intro _ _ _) | split)

theorem failPiece_wf (s : State) (c : Nat) (p : Piece) (status : Nat) (hs : Memory.wf s.mem = true) :
    Memory.wf (failPiece s c p status).mem = true := by
  unfold failPiece
  repeat' (first | with_reducible assumption | with_reducible apply abandon_wf | with_reducible apply endWith_wf)

theorem stalePiece_wf (s : State) (c : Nat) (p : Piece) (hs : Memory.wf s.mem = true) :
    Memory.wf (stalePiece s c p).mem = true := by
  unfold stalePiece
  repeat' (first | with_reducible assumption | with_reducible apply abandon_wf | with_reducible apply State.odAdd_wf | with_reducible apply State.updCmd_wf)

theorem requeue_wf (s : State) (ctx : Nat) (q : QEntry) (hs : Memory.wf s.mem = true) :
    Memory.wf (requeue s ctx q).mem = true := by
  unfold requeue
  repeat' (first | with_reducible assumption | with_reducible apply State.updCtx_wf)

theorem recallCommit_wf (s : State) (c : Nat) (p : Piece) (hs : Memory.wf s.mem = true) :
    Memory.wf (recallCommit s c p).mem = true := by
  unfold recallCommit
  repeat' (first | with_reducible assumption | with_reducible apply State.updCell_wf | with_reducible apply foldl_wf | with_reducible apply foldl_wf_fst | (intro _ _ _) | split)

theorem overrunPiece_wf (s : State) (c : Nat) (p : Piece) (hs : Memory.wf s.mem = true) :
    Memory.wf (overrunPiece s c p).mem = true := by
  unfold overrunPiece
  repeat' (first | with_reducible assumption | with_reducible apply abandon_wf | with_reducible apply State.odAdd_wf | with_reducible apply recallCommit_wf | with_reducible apply requeue_wf | with_reducible apply State.cellAdd_wf | with_reducible apply State.updCmd_wf | with_reducible apply stalePiece_wf | with_reducible apply State.updCtx_wf | with_reducible apply foldl_wf | with_reducible apply foldl_wf_fst | (intro _ _ _) | split)

theorem fetchMore_wf (s : State) (c : Nat) (hs : Memory.wf s.mem = true) :
    Memory.wf (fetchMore s c).mem = true := by
  unfold fetchMore
  repeat' (first | with_reducible assumption | with_reducible apply State.updPiece_wf)

theorem place_wf (s : State) (c cmd no d : Nat) (lease : Option LeaseRef) (x : Ctx) (hs : Memory.wf s.mem = true) :
    Memory.wf (place s c cmd no d lease x).mem = true := by
  unfold place
  repeat' (first | with_reducible assumption | with_reducible apply State.fresh_wf | with_reducible apply State.setObj_wf | with_reducible apply State.updCell_wf | with_reducible apply State.updCmd_wf | with_reducible apply foldl_wf | with_reducible apply foldl_wf_fst | (intro _ _ _) | split)

theorem startOrFail_wf (s : State) (c cmd no d : Nat) (lease : Option LeaseRef) (ctx : Nat) (x : Ctx) (hs : Memory.wf s.mem = true) :
    Memory.wf (startOrFail s c cmd no d lease ctx x).mem = true := by
  unfold startOrFail
  repeat' (first | with_reducible assumption | with_reducible apply endWith_wf | with_reducible apply place_wf | with_reducible apply State.updCell_wf | with_reducible apply foldl_wf | with_reducible apply foldl_wf_fst | (intro _ _ _) | split)

theorem placeUpdate_wf (s : State) (c cmd shard first n budget ctx : Nat) (x : Ctx) (hs : Memory.wf s.mem = true) :
    Memory.wf (placeUpdate s c cmd shard first n budget ctx x).mem = true := by
  unfold placeUpdate
  repeat' (first | with_reducible assumption | with_reducible apply State.fresh_wf | with_reducible apply State.updCell_wf | with_reducible apply foldl_wf | with_reducible apply foldl_wf_fst | (intro _ _ _) | split)

theorem updateEnded_wf (s : State) (ctx : Nat) (u : Nat × Nat × Nat) (status : Nat) (hs : Memory.wf s.mem = true) :
    Memory.wf (updateEnded s ctx u status).mem = true := by
  unfold updateEnded
  repeat' (first | with_reducible assumption | with_reducible apply State.updCtx_wf)

theorem takePiece_wf (s : State) (c x : Nat) (hs : Memory.wf s.mem = true) :
    Memory.wf (takePiece s c x).mem = true := by
  unfold takePiece
  repeat' (first | with_reducible assumption | with_reducible apply placeUpdate_wf | with_reducible apply State.setCtx_wf | with_reducible apply startOrFail_wf | with_reducible apply foldl_wf | with_reducible apply foldl_wf_fst | (intro _ _ _) | split)

theorem pieceStart_wf (s : State) (c x : Nat) (hs : Memory.wf s.mem = true) :
    Memory.wf (pieceStart s c x).mem = true := by
  unfold pieceStart
  repeat' (first | with_reducible assumption | with_reducible apply takePiece_wf)

theorem tileClaim_wf (s : State) (c i : Nat) (hs : Memory.wf s.mem = true) :
    Memory.wf (tileClaim s c i).mem = true := by
  unfold tileClaim
  repeat' (first | with_reducible assumption | with_reducible apply State.setObj_wf | with_reducible apply State.updCell_wf | with_reducible apply foldl_wf | with_reducible apply foldl_wf_fst | (intro _ _ _) | split | dsimp only)

theorem updRecall_wf (s : State) (c : Nat) (is : LeaseRef × CommitPhase → Bool) (f : LeaseRef × CommitPhase → LeaseRef × CommitPhase) (hs : Memory.wf s.mem = true) :
    Memory.wf (updRecall s c is f).mem = true := by
  unfold updRecall
  repeat' (first | with_reducible assumption | with_reducible apply State.updCell_wf)

theorem tileCommit_wf (s : State) (c : Nat) (hs : Memory.wf s.mem = true) :
    Memory.wf (tileCommit s c).mem = true := by
  unfold tileCommit
  repeat' (first | with_reducible assumption | with_reducible apply State.setObj_wf | exact State.takeMsg_wf (by assumption) (by assumption) | with_reducible apply State.takeMsg_getD_wf | with_reducible apply State.updPiece_wf | with_reducible apply updRecall_wf | with_reducible apply foldl_wf | with_reducible apply foldl_wf_fst | (intro _ _ _) | split | dsimp only)

theorem recallReply_wf (s : State) (c : Nat) (hs : Memory.wf s.mem = true) :
    Memory.wf (recallReply s c).mem = true := by
  unfold recallReply
  repeat' (first | with_reducible assumption | with_reducible apply State.send_wf | with_reducible apply State.updCell_wf | with_reducible apply foldl_wf | with_reducible apply foldl_wf_fst | (intro _ _ _) | split)

theorem tileCommitReply_wf (s : State) (c : Nat) (hs : Memory.wf s.mem = true) :
    Memory.wf (tileCommitReply s c).mem = true := by
  unfold tileCommitReply
  repeat' (first | with_reducible assumption | with_reducible apply recallReply_wf | with_reducible apply State.updPiece_wf | with_reducible apply stalePiece_wf | with_reducible apply foldl_wf | with_reducible apply foldl_wf_fst | (intro _ _ _) | split)

theorem tileDone_wf (s : State) (l : LeaseRef) (hs : Memory.wf s.mem = true) :
    Memory.wf (tileDone s l).mem = true := by
  unfold tileDone
  repeat' (first | with_reducible assumption | with_reducible apply gridsCheck_wf | with_reducible apply State.setObj_wf | exact State.takeMsg_wf (by assumption) (by assumption) | with_reducible apply State.takeMsg_getD_wf | with_reducible apply foldl_wf | with_reducible apply foldl_wf_fst | (intro _ _ _) | split)

theorem tileRevert_wf (s : State) (l : LeaseRef) (hs : Memory.wf s.mem = true) :
    Memory.wf (tileRevert s l).mem = true := by
  unfold tileRevert
  repeat' (first | with_reducible assumption | with_reducible apply State.setObj_wf | exact State.takeMsg_wf (by assumption) (by assumption) | with_reducible apply State.takeMsg_getD_wf | with_reducible apply foldl_wf | with_reducible apply foldl_wf_fst | (intro _ _ _) | split)

theorem staleCommits_wf (s : State) (l : LeaseRef) (hs : Memory.wf s.mem = true) :
    Memory.wf (staleCommits s l).mem = true := by
  unfold staleCommits
  repeat' (first | with_reducible assumption | with_reducible apply State.updCell_wf | with_reducible apply tileCommit_wf | with_reducible apply foldl_wf | with_reducible apply foldl_wf_fst | (intro _ _ _))

theorem endHolders_wf (s : State) (l : LeaseRef) (hs : Memory.wf s.mem = true) :
    Memory.wf (endHolders s l).mem = true := by
  unfold endHolders
  repeat' (first | with_reducible assumption | with_reducible apply State.odAdd_wf | with_reducible apply State.updCell_wf | with_reducible apply State.updCtx_wf | with_reducible apply staleCommits_wf | with_reducible apply stalePiece_wf | with_reducible apply State.updCmd_wf | with_reducible apply foldl_wf | with_reducible apply foldl_wf_fst | (intro _ _ _) | split | dsimp only)

theorem settleHeld_wf (s : State) (hs : Memory.wf s.mem = true) :
    Memory.wf (settleHeld s).mem = true := by
  unfold settleHeld
  repeat' (first | with_reducible assumption)

theorem releaseLease_wf (s : State) (l : LeaseRef) (hs : Memory.wf s.mem = true) :
    Memory.wf (releaseLease s l).mem = true := by
  unfold releaseLease
  repeat' (first | with_reducible assumption | with_reducible apply endHolders_wf | with_reducible apply gridsCheck_wf | with_reducible apply State.odAdd_wf | with_reducible apply State.setObj_wf | with_reducible apply foldl_wf | with_reducible apply foldl_wf_fst | (intro _ _ _) | split | dsimp only)

theorem leaseTimeout_wf (s : State) (i idx : Nat) (hs : Memory.wf s.mem = true) :
    Memory.wf (leaseTimeout s i idx).mem = true := by
  unfold leaseTimeout
  repeat' (first | with_reducible assumption | with_reducible apply releaseLease_wf | with_reducible apply foldl_wf | with_reducible apply foldl_wf_fst | (intro _ _ _) | split)

theorem gridDescriptor_wf (s : State) (c : Nat) (hs : Memory.wf s.mem = true) :
    Memory.wf (gridDescriptor s c).mem = true := by
  unfold gridDescriptor
  repeat' (first | with_reducible assumption | with_reducible apply failPiece_wf | with_reducible apply fetchMore_wf | with_reducible apply State.updPiece_wf | with_reducible apply foldl_wf | with_reducible apply foldl_wf_fst | (intro _ _ _) | split | dsimp only)

theorem handOut_wf (s : State) (c : Nat) (hs : Memory.wf s.mem = true) :
    Memory.wf (handOut s c).mem = true := by
  unfold handOut
  repeat' (first | with_reducible assumption | with_reducible apply failPiece_wf | with_reducible apply State.updPiece_wf | with_reducible apply foldl_wf | with_reducible apply foldl_wf_fst | (intro _ _ _) | split)

theorem finishCheck_wf (s : State) (c : Nat) (hs : Memory.wf s.mem = true) :
    Memory.wf (finishCheck s c).mem = true := by
  unfold finishCheck
  repeat' (first | with_reducible assumption | with_reducible apply failPiece_wf | with_reducible apply State.send_wf | with_reducible apply tileCommit_wf | with_reducible apply State.updPiece_wf | with_reducible apply foldl_wf | with_reducible apply foldl_wf_fst | (intro _ _ _) | split)

theorem weltAdd_wf (s : State) (c : Nat) (a : WeltAdd) (hs : Memory.wf s.mem = true) :
    Memory.wf (weltAdd s c a).1.mem = true := by
  unfold weltAdd
  repeat' (first | with_reducible assumption | with_reducible apply foldl_wf | with_reducible apply foldl_wf_fst | (intro _ _ _) | split)

theorem addStored_wf (s : State) (a : Nat) (v : Lined) (bad : Bool) (hs : Memory.wf s.mem = true) :
    Memory.wf (addStored s a v bad).1.mem = true := by
  unfold addStored
  repeat' (first | with_reducible assumption | with_reducible apply State.store_wf)

theorem addNorm_wf (s : State) (x : Ctx) (cluster : Nat) (n : NormAdd) (hs : Memory.wf s.mem = true) :
    Memory.wf (addNorm s x cluster n).1.mem = true := by
  unfold addNorm
  repeat' (first | with_reducible assumption | with_reducible apply addStored_wf)

theorem release_wf (s : State) (c : Nat) (p : Piece) (hs : Memory.wf s.mem = true) :
    Memory.wf (release s c p).mem = true := by
  unfold release
  repeat' (first | with_reducible assumption | with_reducible apply addNorm_wf | with_reducible apply State.orCellFlags_wf | with_reducible apply State.updCtx_wf | with_reducible apply sideSettle_wf | with_reducible apply syncChange_wf | with_reducible apply weltAdd_wf | with_reducible apply foldl_wf | with_reducible apply foldl_wf_fst | (intro _ _ _) | split)

theorem freeSpans_wf (s : State) (c seq : Nat) (hs : Memory.wf s.mem = true) :
    Memory.wf (freeSpans s c seq).mem = true := by
  unfold freeSpans
  repeat' (first | with_reducible assumption | with_reducible apply State.updCell_wf)

theorem commitPiece_wf (s : State) (c : Nat) (p : Piece) (hs : Memory.wf s.mem = true) :
    Memory.wf (commitPiece s c p).mem = true := by
  unfold commitPiece
  repeat' (first | with_reducible assumption | with_reducible apply dropWaiters_wf | with_reducible apply freeSpans_wf | with_reducible apply release_wf | with_reducible apply runPieceEnded_wf | with_reducible apply State.updCmd_wf | with_reducible apply State.updCtx_wf | with_reducible apply State.send_wf | with_reducible apply tileDone_wf | with_reducible apply State.updCell_wf | with_reducible apply updateEnded_wf | with_reducible apply foldl_wf | with_reducible apply foldl_wf_fst | (intro _ _ _) | split)

theorem updItem_wf (s : State) (c slot : Nat) (f : Item → Item) (hs : Memory.wf s.mem = true) :
    Memory.wf (updItem s c slot f).mem = true := by
  unfold updItem
  repeat' (first | with_reducible assumption | with_reducible apply State.updPiece_wf)

theorem itemDone_wf (s : State) (c slot : Nat) (hs : Memory.wf s.mem = true) :
    Memory.wf (itemDone s c slot).mem = true := by
  unfold itemDone
  repeat' (first | with_reducible assumption | with_reducible apply updItem_wf)

theorem runUnit_wf (s : State) (c : Nat) (u : CellUnit) (is : Nat → Bool) (work : State → Piece → Item → State × Flags)
    (h : Memory.wf s.mem = true) (k : ∀ p i, Memory.wf (work s p i).1.mem = true) : Memory.wf (runUnit s c u is work).mem = true := by
  unfold runUnit
  split
  · exact h
  · split
    · exact h
    · split
      · exact itemDone_wf _ _ _ (State.stageFlags_wf _ _ _ (k _ _))
      · exact h

theorem logEvent_wf (s : State) (e : EventCode) (kind source d0 d1 : Nat) (hs : Memory.wf s.mem = true) :
    Memory.wf (logEvent s e kind source d0 d1).mem = true := by
  unfold logEvent
  repeat' (first | with_reducible assumption | with_reducible apply State.odAdd_wf | with_reducible apply State.odSet_wf | with_reducible apply foldl_wf | with_reducible apply foldl_wf_fst | (intro _ _ _) | split)

theorem keepRecord_wf (s : State) (f : Fail) (word : Nat) (hs : Memory.wf s.mem = true) :
    Memory.wf (keepRecord s f word).mem = true := by
  unfold keepRecord
  repeat' (first | with_reducible assumption | with_reducible apply logEvent_wf | with_reducible apply State.odAdd_wf | with_reducible apply State.odSet_wf)

theorem failUnit_wf (s : State) (kind unit : Nat) (hs : Memory.wf s.mem = true) :
    Memory.wf (failUnit s kind unit).mem = true := by
  unfold failUnit
  repeat' (first | with_reducible assumption | with_reducible apply foldl_wf | with_reducible apply foldl_wf_fst | (intro _ _ _) | split)

theorem useRow_wf (s : State) (k : Nat) (hs : Memory.wf s.mem = true) :
    Memory.wf (useRow s k).mem = true := by
  unfold useRow
  repeat' (first | with_reducible assumption)

theorem useCol_wf (s : State) (k : Nat) (hs : Memory.wf s.mem = true) :
    Memory.wf (useCol s k).mem = true := by
  unfold useCol
  repeat' (first | with_reducible assumption)

theorem useSpareRow_wf (s : State) (k : Nat) (hs : Memory.wf s.mem = true) :
    Memory.wf (useSpareRow s k).mem = true := by
  unfold useSpareRow
  repeat' (first | with_reducible assumption)

theorem usePpr_wf (s : State) (bank row : Nat) (hs : Memory.wf s.mem = true) :
    Memory.wf (usePpr s bank row).mem = true := by
  unfold usePpr
  repeat' (first | with_reducible assumption)

theorem repairRow_wf (s : State) (f : Fail) (hs : Memory.wf s.mem = true) :
    Memory.wf (repairRow s f).1.mem = true := by
  unfold repairRow
  repeat' (first | with_reducible assumption | with_reducible apply failUnit_wf | with_reducible apply usePpr_wf | with_reducible apply useSpareRow_wf | with_reducible apply foldl_wf | with_reducible apply foldl_wf_fst | (intro _ _ _) | split)

theorem repair_wf (s : State) (all : List Fail) (f : Fail) (hs : Memory.wf s.mem = true) :
    Memory.wf (repair s all f).1.mem = true := by
  unfold repair
  repeat' (first | with_reducible assumption | with_reducible apply failUnit_wf | with_reducible apply repairRow_wf | with_reducible apply useCol_wf | with_reducible apply useRow_wf | with_reducible apply foldl_wf | with_reducible apply foldl_wf_fst | (intro _ _ _) | split | dsimp only)

theorem repairNext_wf (all : List Fail) (a : State × List (Fail × Nat)) (f : Fail) (h : Memory.wf a.1.mem = true) :
    Memory.wf (repairNext all a f).1.mem = true := by
  unfold repairNext
  split
  · exact h
  · exact repair_wf _ _ _ h

theorem applyFails_wf (s : State) (fs : List Fail) (hs : Memory.wf s.mem = true) :
    Memory.wf (applyFails s fs).mem = true := by
  unfold applyFails
  repeat' (first | with_reducible assumption | with_reducible apply keepRecord_wf | with_reducible apply repairNext_wf | with_reducible apply foldl_wf | with_reducible apply foldl_wf_fst | (intro _ _ _))

theorem pendingRepair_wf (t : State) (w : Nat) (h : Memory.wf t.mem = true) :
    Memory.wf ({ t with flash := { t.flash with pendingRepairs := t.flash.pendingRepairs ++ [w] } } : State).mem = true := h

theorem listRepair_wf (s : State) (f : Fail) (test : Nat) (confirmed : Bool) (h : Memory.wf s.mem = true) :
    Memory.wf (listRepair s f test confirmed).mem = true := by
  unfold listRepair
  exact pendingRepair_wf _ _ (keepRecord_wf s f _ h)

theorem settleRecords_wf (s : State) (words : List Nat) (confirmed : Bool) (hs : Memory.wf s.mem = true) :
    Memory.wf (settleRecords s words confirmed).mem = true := by
  unfold settleRecords
  repeat' (first | with_reducible assumption | with_reducible apply keepRecord_wf | with_reducible apply foldl_wf | with_reducible apply foldl_wf_fst | (intro _ _ _))

theorem applyPending_wf (s : State) (hs : Memory.wf s.mem = true) :
    Memory.wf (applyPending s).mem = true := by
  unfold applyPending
  repeat' (first | with_reducible assumption | with_reducible apply repairNext_wf | with_reducible apply foldl_wf | with_reducible apply foldl_wf_fst)

theorem eccCount_wf (s : State) (a : Nat) (bad : Bool) (p : EccPlace) (h : Memory.wf s.mem = true) :
    Memory.wf (eccCount s a bad p).mem = true := by
  cases p with
  | stack k ch cla =>
    rw [eccCount]
    have hs := State.odAdd_wf s (if bad then 0x8051 else 0x8050) (k + 1) 1 h
    split
    · with_reducible apply logEvent_wf
      exact hs
    · exact hs
  | cached k =>
    rw [eccCount]
    have hs := State.odAdd_wf s 0x8052 (if bad then 2 else 1) 1 h
    split
    · with_reducible apply logEvent_wf
      exact hs
    · exact hs
  | onChip code =>
    rw [eccCount]
    have hs := State.odAdd_wf s 0x8052 (if bad then 2 else 1) 1 h
    split
    · with_reducible apply logEvent_wf
      exact hs
    · exact hs
  | inCell code b p =>
    rw [eccCount]
    have hs := State.odAdd_wf s 0x8052 (if bad then 2 else 1) 1 h
    split
    · with_reducible apply logEvent_wf
      exact hs
    · exact hs

theorem noteRow_wf (s : State) (a test : Nat) (bad : Bool) (p : EccPlace) (hs : Memory.wf s.mem = true) :
    Memory.wf (noteRow s a test bad p).mem = true := by
  unfold noteRow
  repeat' (first | with_reducible assumption | with_reducible apply listRepair_wf | with_reducible apply foldl_wf | with_reducible apply foldl_wf_fst | (intro _ _ _) | split | dsimp only)

theorem noteSector_wf (s : State) (a test : Nat) (bad : Bool) (p : EccPlace) (hs : Memory.wf s.mem = true) :
    Memory.wf (noteSector s a test bad p).mem = true := by
  unfold noteSector
  repeat' (first | with_reducible assumption | with_reducible apply eccCount_wf | with_reducible apply noteRow_wf)

theorem sectorReadAt_wf (s : State) (a test : Nat) (errs : List (Nat × Nat)) (p : EccPlace) (hs : Memory.wf s.mem = true) :
    Memory.wf (sectorReadAt s a test errs p).s.mem = true := by
  unfold sectorReadAt
  repeat' (first | with_reducible assumption | with_reducible apply noteSector_wf | with_reducible apply putSector_wf | with_reducible apply foldl_wf | with_reducible apply foldl_wf_fst | (intro _ _ _) | split)

theorem eccRead_wf (s : State) (a test : Nat) (errs : List (Nat × Nat)) (hs : Memory.wf s.mem = true) :
    Memory.wf (eccRead s a test errs).s.mem = true := by
  unfold eccRead
  repeat' (first | with_reducible assumption | with_reducible apply putLine_wf | with_reducible apply sectorReadAt_wf | with_reducible apply foldl_wf | with_reducible apply foldl_wf_fst | (intro _ _ _) | split)

theorem channelRead_wf (s : State) (a test : Nat) (errs : List (Nat × Nat)) (hs : Memory.wf s.mem = true) :
    Memory.wf (channelRead s a test errs).mem = true := by
  unfold channelRead
  repeat' (first | with_reducible assumption | with_reducible apply noteSector_wf | with_reducible apply putLine_wf | with_reducible apply sectorReadAt_wf | with_reducible apply foldl_wf | with_reducible apply foldl_wf_fst | (intro _ _ _) | split | dsimp only)

theorem channelSectors_wf (s : State) (line mask test : Nat) (errs : List (Nat × Nat)) (hs : Memory.wf s.mem = true) :
    Memory.wf (channelSectors s line mask test errs).mem = true := by
  unfold channelSectors
  repeat' (first | with_reducible assumption | with_reducible apply channelRead_wf | with_reducible apply foldl_wf | with_reducible apply foldl_wf_fst | (intro _ _ _) | split)

theorem eccLine_wf (s : State) (line mask test : Nat) (errs : List (Nat × Nat)) (hs : Memory.wf s.mem = true) :
    Memory.wf (eccLine s line mask test errs).1.mem = true := by
  unfold eccLine
  repeat' (first | with_reducible assumption | with_reducible apply eccRead_wf | with_reducible apply foldl_wf | with_reducible apply foldl_wf_fst | (intro _ _ _) | split)

theorem cacheLoad_wf (s : State) (a n test : Nat) (errs : List (Nat × Nat)) (hs : Memory.wf s.mem = true) :
    Memory.wf (cacheLoad s a n test errs).1.mem = true := by
  unfold cacheLoad
  repeat' (first | with_reducible assumption | with_reducible apply eccLine_wf | with_reducible apply loadLine_wf)

theorem sliceStoreLine_wf (s : State) (a : Nat) (bs : List Byte) (test : Nat) (errs : List (Nat × Nat)) (hs : Memory.wf s.mem = true) :
    Memory.wf (sliceStoreLine s a bs test errs).mem = true := by
  unfold sliceStoreLine
  repeat' (first | with_reducible assumption | with_reducible apply channelSectors_wf | with_reducible apply storeLine_wf)

theorem countWork_wf (s : State) (c : Nat) (d : TileD) (hs : Memory.wf s.mem = true) :
    Memory.wf (countWork s c d).mem = true := by
  unfold countWork
  repeat' (first | with_reducible assumption | with_reducible apply State.cellAdd_wf)

theorem putTile_wf (s : State) (c : Nat) (t : Tile) (hs : Memory.wf s.mem = true) :
    Memory.wf (putTile s c t).mem = true := by
  unfold putTile
  repeat' (first | with_reducible assumption | with_reducible apply State.updCell_wf)

theorem runArray_wf (s : State) (c : Nat) (p : Piece) (i : Item) (d : TileD) (t : Tile × Flags) (hs : Memory.wf s.mem = true) :
    Memory.wf (runArray s c p i d t).mem = true := by
  unfold runArray
  repeat' (first | with_reducible assumption | with_reducible apply countWork_wf | with_reducible apply itemDone_wf | with_reducible apply putTile_wf | with_reducible apply State.updCell_wf | with_reducible apply State.stageFlags_wf | with_reducible apply updItem_wf | with_reducible apply foldl_wf | with_reducible apply foldl_wf_fst | (intro _ _ _) | split)

theorem arrayCmd_wf (s : State) (c : Nat) (is : TileD → Bool) (hs : Memory.wf s.mem = true) :
    Memory.wf (arrayCmd s c is).mem = true := by
  unfold arrayCmd
  repeat' (first | with_reducible assumption | with_reducible apply runArray_wf | with_reducible apply foldl_wf | with_reducible apply foldl_wf_fst | (intro _ _ _) | split | dsimp only)

theorem preload_wf (s : State) (c : Nat) (hs : Memory.wf s.mem = true) :
    Memory.wf (preload s c).mem = true := by
  unfold preload
  repeat' (first | with_reducible assumption | with_reducible apply putTile_wf | with_reducible apply State.stageFlags_wf | with_reducible apply updItem_wf | with_reducible apply foldl_wf | with_reducible apply foldl_wf_fst | (intro _ _ _) | split | dsimp only)

theorem tileDrain_wf (s : State) (c : Nat) (hs : Memory.wf s.mem = true) :
    Memory.wf (tileDrain s c).mem = true := by
  unfold tileDrain
  repeat' (first | with_reducible assumption | with_reducible apply drainTile_wf | with_reducible apply itemDone_wf | with_reducible apply State.stageFlags_wf | with_reducible apply State.updCell_wf | with_reducible apply foldl_wf | with_reducible apply foldl_wf_fst | (intro _ _ _) | split | dsimp only)

theorem slmAdd_wf (s : State) (c : Nat) (hs : Memory.wf s.mem = true) :
    Memory.wf (slmAdd s c).mem = true := by
  unfold slmAdd
  repeat' (first | with_reducible assumption | with_reducible apply addStored_wf | with_reducible apply State.orCellFlags_wf | with_reducible apply State.updCell_wf | with_reducible apply foldl_wf | with_reducible apply foldl_wf_fst | (intro _ _ _) | split)

end Sys2Proof.Machine
end

