-- ==== Sys2Proof/Laws/MemoryFabric.lean ====
section
/-! SUPPORT. Every operation over the event log, the ports, the fabric and the Tannery keeps the memory in its canonical form
(one lemma per operation, by composition of its callees). -/

namespace Sys2Proof.Machine

theorem emit_wf (s : State) (p seq crVl crRet : Nat) (f : Flit) (hs : Memory.wf s.mem = true) :
    Memory.wf (emit s p seq crVl crRet f).mem = true := by
  unfold emit
  repeat' (first | with_reducible assumption | with_reducible apply State.send_wf)

theorem sendRetry_wf (s : State) (p : Nat) (hs : Memory.wf s.mem = true) :
    Memory.wf (sendRetry s p).mem = true := by
  unfold sendRetry
  repeat' (first | with_reducible assumption | with_reducible apply emit_wf)

theorem sendAck_wf (s : State) (p vl : Nat) (hs : Memory.wf s.mem = true) :
    Memory.wf (sendAck s p vl).mem = true := by
  unfold sendAck
  repeat' (first | with_reducible assumption | with_reducible apply emit_wf)

theorem pumpN_wf (s : State) (p k : Nat) (h : Memory.wf s.mem = true) : Memory.wf (pumpN s p k).mem = true := by
  induction k generalizing s with
  | zero => exact h
  | succ k ih =>
    simp only [pumpN]
    split
    · exact h
    · split
      · exact h
      · exact ih _ (emit_wf _ _ _ _ _ _ (State.setPort_wf _ _ _ h))

theorem pump_wf (s : State) (p : Nat) (hs : Memory.wf s.mem = true) :
    Memory.wf (pump s p).mem = true := by
  unfold pump
  repeat' (first | with_reducible assumption | with_reducible apply pumpN_wf)

theorem enqueue_wf (s : State) (p : Nat) (f : Flit) (hs : Memory.wf s.mem = true) :
    Memory.wf (enqueue s p f).mem = true := by
  unfold enqueue
  repeat' (first | with_reducible assumption | with_reducible apply pump_wf | with_reducible apply State.updPort_wf)

theorem snapsSent_wf (s : State) (p : Nat) (hs : Memory.wf s.mem = true) :
    Memory.wf (snapsSent s p).mem = true := by
  unfold snapsSent
  repeat' (first | with_reducible assumption | with_reducible apply complete_wf | with_reducible apply foldl_wf | with_reducible apply foldl_wf_fst | (intro _ _ _) | split)

theorem takeHop_wf (s : State) (p header : Nat) (hs : Memory.wf s.mem = true) :
    Memory.wf (takeHop s p header).mem = true := by
  unfold takeHop
  repeat' (first | with_reducible assumption | with_reducible apply pump_wf | with_reducible apply State.updPort_wf | with_reducible apply snapsSent_wf)

theorem receive_wf (s : State) (p header kind fec unc : Nat) (payload : List Byte) (hs : Memory.wf s.mem = true) :
    Memory.wf (receive s p header kind fec unc payload).1.mem = true := by
  unfold receive
  repeat' (first | with_reducible assumption | with_reducible apply State.odAdd_wf | with_reducible apply State.updPort_wf | with_reducible apply sendAck_wf | with_reducible apply sendRetry_wf | with_reducible apply takeHop_wf | with_reducible apply foldl_wf | with_reducible apply foldl_wf_fst | (intro _ _ _) | split | dsimp only)

theorem sendTo_wf (s : State) (id plane rank : Nat) (f : Flit) (hs : Memory.wf s.mem = true) :
    Memory.wf (sendTo s id plane rank f).mem = true := by
  unfold sendTo
  repeat' (first | with_reducible assumption | with_reducible apply enqueue_wf | with_reducible apply State.updFab_wf | with_reducible apply foldl_wf | with_reducible apply foldl_wf_fst | (intro _ _ _) | split | dsimp only)

theorem sendReduce_wf (s : State) (o : FabOp) (plane idx rank : Nat) (c : Chunk) (vals : List (F32 × Nat)) (hs : Memory.wf s.mem = true) :
    Memory.wf (sendReduce s o plane idx rank c vals).mem = true := by
  unfold sendReduce
  repeat' (first | with_reducible assumption | with_reducible apply State.updFab_wf | with_reducible apply sendTo_wf)

theorem sendData_wf (s : State) (o : FabOp) (plane idx : Nat) (ranks : List Nat) (c : Chunk) (payload : List Byte) (poison : Nat) (hs : Memory.wf s.mem = true) :
    Memory.wf (sendData s o plane idx ranks c payload poison).mem = true := by
  unfold sendData
  repeat' (first | with_reducible assumption | with_reducible apply sendTo_wf | with_reducible apply foldl_wf | with_reducible apply foldl_wf_fst | (intro _ _ _))

theorem markOver_wf (s : State) (id plane idx : Nat) (hs : Memory.wf s.mem = true) :
    Memory.wf (markOver s id plane idx).mem = true := by
  unfold markOver
  repeat' (first | with_reducible assumption | with_reducible apply State.updFab_wf)

theorem readSource_wf (s : State) (id a n : Nat) (hs : Memory.wf s.mem = true) :
    Memory.wf (readSource s id a n).mem = true := by
  unfold readSource
  repeat' (first | with_reducible assumption | with_reducible apply State.draw_wf | with_reducible apply State.updFab_wf | with_reducible apply sliceLoads_wf | with_reducible apply foldl_wf | with_reducible apply foldl_wf_fst | (intro _ _ _) | split | dsimp only)

theorem landEls_wf (s : State) (id n : Nat) (els : List (Nat × List Byte × Bool)) (hs : Memory.wf s.mem = true) :
    Memory.wf (landEls s id n els).mem = true := by
  unfold landEls
  repeat' (first | with_reducible assumption | with_reducible apply reachEls_wf | with_reducible apply State.updFab_wf)

theorem landBytes_wf (s : State) (id a : Nat) (payload : List Byte) (poison : Nat) (hs : Memory.wf s.mem = true) :
    Memory.wf (landBytes s id a payload poison).mem = true := by
  unfold landBytes
  repeat' (first | with_reducible assumption | with_reducible apply landEls_wf)

theorem landValues_wf (s : State) (o : FabOp) (c : Chunk) (a : Nat) (vals : List (F32 × Bool)) (hs : Memory.wf s.mem = true) :
    Memory.wf (landValues s o c a vals).mem = true := by
  unfold landValues
  repeat' (first | with_reducible assumption | with_reducible apply landEls_wf)

theorem landData_wf (s : State) (o : FabOp) (c : Chunk) (a : Nat) (payload : List Byte) (poison : Nat) (hs : Memory.wf s.mem = true) :
    Memory.wf (landData s o c a payload poison).mem = true := by
  unfold landData
  repeat' (first | with_reducible assumption | with_reducible apply landBytes_wf | with_reducible apply landValues_wf | with_reducible apply foldl_wf | with_reducible apply foldl_wf_fst | (intro _ _ _) | split)

theorem finishReduce_wf (s : State) (o : FabOp) (plane idx : Nat) (c : Chunk) (vals : List (F32 × Nat)) (hs : Memory.wf s.mem = true) :
    Memory.wf (finishReduce s o plane idx c vals).mem = true := by
  unfold finishReduce
  repeat' (first | with_reducible assumption | with_reducible apply landValues_wf | with_reducible apply markOver_wf | with_reducible apply sendData_wf | with_reducible apply sendReduce_wf | with_reducible apply foldl_wf | with_reducible apply foldl_wf_fst | (intro _ _ _) | split)

theorem passSum_wf (s : State) (o : FabOp) (plane idx : Nat) (c : Chunk) (vals : List (F32 × Nat)) (hs : Memory.wf s.mem = true) :
    Memory.wf (passSum s o plane idx c vals).mem = true := by
  unfold passSum
  repeat' (first | with_reducible assumption | with_reducible apply finishReduce_wf | with_reducible apply markOver_wf | with_reducible apply sendReduce_wf | with_reducible apply foldl_wf | with_reducible apply foldl_wf_fst | (intro _ _ _) | split | dsimp only)

theorem startChunk_wf (s : State) (o : FabOp) (plane idx : Nat) (c : Chunk) (hs : Memory.wf s.mem = true) :
    Memory.wf (startChunk s o plane idx c).mem = true := by
  unfold startChunk
  repeat' (first | with_reducible assumption | with_reducible apply landBytes_wf | with_reducible apply markOver_wf | with_reducible apply passSum_wf | with_reducible apply readSource_wf | with_reducible apply sendData_wf | with_reducible apply foldl_wf | with_reducible apply foldl_wf_fst | (intro _ _ _) | split | dsimp only)

theorem startStripe_wf (s : State) (id k : Nat) (hs : Memory.wf s.mem = true) :
    Memory.wf (startStripe s id k).mem = true := by
  unfold startStripe
  repeat' (first | with_reducible assumption | with_reducible apply startChunk_wf | with_reducible apply foldl_wf | with_reducible apply foldl_wf_fst | (intro _ _ _) | split)

theorem startStripes_wf (s : State) (id from_ : Nat) (hs : Memory.wf s.mem = true) :
    Memory.wf (startStripes s id from_).mem = true := by
  unfold startStripes
  repeat' (first | with_reducible assumption | with_reducible apply startStripe_wf | with_reducible apply foldl_wf | with_reducible apply foldl_wf_fst | (intro _ _ _) | split)

theorem restripeOp_wf (s : State) (id plane : Nat) (hs : Memory.wf s.mem = true) :
    Memory.wf (restripeOp s id plane).mem = true := by
  unfold restripeOp
  repeat' (first | with_reducible assumption | with_reducible apply State.updFab_wf | with_reducible apply startStripes_wf | with_reducible apply foldl_wf | with_reducible apply foldl_wf_fst | (intro _ _ _) | split)

theorem loseData_wf (s : State) (plane : Nat) (hs : Memory.wf s.mem = true) :
    Memory.wf (loseData s plane).mem = true := by
  unfold loseData
  repeat' (first | with_reducible assumption | with_reducible apply complete_wf | with_reducible apply restripeOp_wf | with_reducible apply State.odSet_wf | with_reducible apply State.updPort_wf | with_reducible apply foldl_wf | with_reducible apply foldl_wf_fst | (intro _ _ _) | split)

theorem dropFab_wf (s : State) (id : Nat) (hs : Memory.wf s.mem = true) :
    Memory.wf (dropFab s id).mem = true := by
  unfold dropFab
  repeat' (first | with_reducible assumption)

theorem endFab_wf (s : State) (o : FabOp) (status : Nat) (hs : Memory.wf s.mem = true) :
    Memory.wf (endFab s o status).mem = true := by
  unfold endFab
  repeat' (first | with_reducible assumption | with_reducible apply complete_wf | with_reducible apply dropFab_wf | with_reducible apply foldl_wf | with_reducible apply foldl_wf_fst | (intro _ _ _) | split)

theorem takeNotice_wf (s : State) (id : Nat) (n : Notice) (hs : Memory.wf s.mem = true) :
    Memory.wf (takeNotice s id n).mem = true := by
  unfold takeNotice
  repeat' (first | with_reducible assumption | with_reducible apply endFab_wf | with_reducible apply State.send_wf | with_reducible apply State.updFab_wf | with_reducible apply sendTo_wf | with_reducible apply foldl_wf | with_reducible apply foldl_wf_fst | (intro _ _ _) | split)

theorem addFab_wf (s : State) (o : FabOp) (hs : Memory.wf s.mem = true) :
    Memory.wf (addFab s o).mem = true := by
  unfold addFab
  repeat' (first | with_reducible assumption | with_reducible apply takeNotice_wf | with_reducible apply foldl_wf | with_reducible apply foldl_wf_fst | (intro _ _ _))

theorem fabStart_wf (s : State) (id : Nat) (hs : Memory.wf s.mem = true) :
    Memory.wf (fabStart s id).mem = true := by
  unfold fabStart
  repeat' (first | with_reducible assumption | with_reducible apply endFab_wf | with_reducible apply State.send_wf | with_reducible apply State.updFab_wf | with_reducible apply startStripes_wf | with_reducible apply foldl_wf | with_reducible apply foldl_wf_fst | (intro _ _ _) | split)

theorem mirrorIn_wf (s : State) (n : Notice) (hs : Memory.wf s.mem = true) :
    Memory.wf (mirrorIn s n).mem = true := by
  unfold mirrorIn
  repeat' (first | with_reducible assumption | with_reducible apply fabStart_wf | with_reducible apply State.fresh_wf)

theorem startNotice_wf (s : State) (n : Notice) (hs : Memory.wf s.mem = true) :
    Memory.wf (startNotice s n).mem = true := by
  unfold startNotice
  repeat' (first | with_reducible assumption | with_reducible apply mirrorIn_wf | with_reducible apply takeNotice_wf | with_reducible apply foldl_wf | with_reducible apply foldl_wf_fst | (intro _ _ _) | split)

theorem mirrorCheck_wf (s : State) (id : Nat) (hs : Memory.wf s.mem = true) :
    Memory.wf (mirrorCheck s id).mem = true := by
  unfold mirrorCheck
  repeat' (first | with_reducible assumption | with_reducible apply State.send_wf | with_reducible apply foldl_wf | with_reducible apply foldl_wf_fst | (intro _ _ _) | split | dsimp only)

theorem dataArrive_wf (s : State) (o : FabOp) (sender plane idx addr : Nat) (c : Chunk) (payload : List Byte) (poison : Nat) (hs : Memory.wf s.mem = true) :
    Memory.wf (dataArrive s o sender plane idx addr c payload poison).mem = true := by
  unfold dataArrive
  repeat' (first | with_reducible assumption | with_reducible apply State.fresh_wf | with_reducible apply landData_wf | with_reducible apply markOver_wf | with_reducible apply mirrorCheck_wf | with_reducible apply sendData_wf | with_reducible apply foldl_wf | with_reducible apply foldl_wf_fst | (intro _ _ _) | split | dsimp only)

theorem flitData_wf (s : State) (port header : Nat) (payload : List Byte) (poison fec unc : Nat) (hs : Memory.wf s.mem = true) :
    Memory.wf (flitData s port header payload poison fec unc).mem = true := by
  unfold flitData
  repeat' (first | with_reducible assumption | with_reducible apply dataArrive_wf | with_reducible apply receive_wf | with_reducible apply foldl_wf | with_reducible apply foldl_wf_fst | (intro _ _ _) | split | dsimp only)

theorem raiseFab_wf (s : State) (o : FabOp) (f : Flags) (hs : Memory.wf s.mem = true) :
    Memory.wf (raiseFab s o f).mem = true := by
  unfold raiseFab
  repeat' (first | with_reducible assumption | with_reducible apply State.updFab_wf | with_reducible apply foldl_wf | with_reducible apply foldl_wf_fst | (intro _ _ _) | split)

theorem addPart_wf (s : State) (o : FabOp) (rank plane idx : Nat) (c : Chunk) (vals : List (F32 × Nat)) (hs : Memory.wf s.mem = true) :
    Memory.wf (addPart s o rank plane idx c vals).mem = true := by
  unfold addPart
  repeat' (first | with_reducible assumption | with_reducible apply finishReduce_wf | with_reducible apply passSum_wf | with_reducible apply raiseFab_wf | with_reducible apply readSource_wf | with_reducible apply State.updFab_wf | with_reducible apply foldl_wf | with_reducible apply foldl_wf_fst | (intro _ _ _) | split | dsimp only)

theorem markStep_wf (s : State) (o : FabOp) (who : Nat) (hs : Memory.wf s.mem = true) :
    Memory.wf (markStep s o who).mem = true := by
  unfold markStep
  repeat' (first | with_reducible assumption | with_reducible apply State.updCtx_wf | with_reducible apply foldl_wf | with_reducible apply foldl_wf_fst | (intro _ _ _) | split)

theorem reduceArrive_wf (s : State) (o : FabOp) (rank plane idx : Nat) (c : Chunk) (vals : List (F32 × Nat)) (adderFault : Bool) (hs : Memory.wf s.mem = true) :
    Memory.wf (reduceArrive s o rank plane idx c vals adderFault).mem = true := by
  unfold reduceArrive
  repeat' (first | with_reducible assumption | with_reducible apply addPart_wf | with_reducible apply logEvent_wf | with_reducible apply markStep_wf | with_reducible apply State.odAdd_wf | with_reducible apply State.send_wf | with_reducible apply State.updFab_wf | with_reducible apply foldl_wf | with_reducible apply foldl_wf_fst | (intro _ _ _) | split | dsimp only)

theorem flitReduce_wf (s : State) (port header : Nat) (payload : List Byte) (adderFault : Bool) (fec unc : Nat) (hs : Memory.wf s.mem = true) :
    Memory.wf (flitReduce s port header payload adderFault fec unc).mem = true := by
  unfold flitReduce
  repeat' (first | with_reducible assumption | with_reducible apply receive_wf | with_reducible apply reduceArrive_wf | with_reducible apply foldl_wf | with_reducible apply foldl_wf_fst | (intro _ _ _) | split | dsimp only)

theorem resendFlit_wf (s : State) (op plane idx member : Nat) (hs : Memory.wf s.mem = true) :
    Memory.wf (resendFlit s op plane idx member).mem = true := by
  unfold resendFlit
  repeat' (first | with_reducible assumption | with_reducible apply State.odAdd_wf | with_reducible apply sendTo_wf | with_reducible apply foldl_wf | with_reducible apply foldl_wf_fst | (intro _ _ _) | split)

theorem fabComplete_wf (s : State) (o : FabOp) (hs : Memory.wf s.mem = true) :
    Memory.wf (fabComplete s o).mem = true := by
  unfold fabComplete
  repeat' (first | with_reducible assumption | with_reducible apply endFab_wf | with_reducible apply syncChange_wf | with_reducible apply foldl_wf | with_reducible apply foldl_wf_fst | (intro _ _ _) | split)

theorem clearObj_wf (s : State) (i : Nat) (op : SyncOp) (hs : Memory.wf s.mem = true) :
    Memory.wf (clearObj s i op).mem = true := by
  unfold clearObj
  repeat' (first | with_reducible assumption | with_reducible apply settleObj_wf)

theorem streamOpen_wf (s : State) (id : Nat) (hs : Memory.wf s.mem = true) :
    Memory.wf (streamOpen s id).mem = true := by
  unfold streamOpen
  repeat' (first | with_reducible assumption | with_reducible apply clearObj_wf | with_reducible apply complete_wf | with_reducible apply State.updCmd_wf | with_reducible apply State.updStream_wf | with_reducible apply foldl_wf | with_reducible apply foldl_wf_fst | (intro _ _ _) | split | dsimp only)

theorem endStream_wf (s : State) (n state status : Nat) (hs : Memory.wf s.mem = true) :
    Memory.wf (endStream s n state status).mem = true := by
  unfold endStream
  repeat' (first | with_reducible assumption | with_reducible apply complete_wf | with_reducible apply State.updStream_wf | with_reducible apply foldl_wf | with_reducible apply foldl_wf_fst | (intro _ _ _) | split | dsimp only)

theorem streamClose_wf (s : State) (id : Nat) (hs : Memory.wf s.mem = true) :
    Memory.wf (streamClose s id).mem = true := by
  unfold streamClose
  repeat' (first | with_reducible assumption | with_reducible apply complete_wf | with_reducible apply endStream_wf | with_reducible apply foldl_wf | with_reducible apply foldl_wf_fst | (intro _ _ _) | split | dsimp only)

theorem batchAssemble_wf (s : State) (n : Nat) (hs : Memory.wf s.mem = true) :
    Memory.wf (batchAssemble s n).mem = true := by
  unfold batchAssemble
  repeat' (first | with_reducible assumption | with_reducible apply State.updStream_wf | with_reducible apply foldl_wf | with_reducible apply foldl_wf_fst | (intro _ _ _) | split | dsimp only)

theorem sampleStart_wf (s : State) (n : Nat) (h : Memory.wf s.mem = true) : Memory.wf (sampleStart s n).mem = true := by
  unfold sampleStart
  extract_lets t
  split
  · exact h
  · extract_lets e idx a entry free poison s1 d s2
    clear_value d
    have h2 : Memory.wf s2.mem = true := State.updStream_wf _ _ _ (State.fresh_wf _ (sliceLoads_wf _ _ h))
    split
    · exact h
    · split
      · exact State.send_wf _ _ h2
      · exact h2

theorem streamCount_wf (s : State) (n index k : Nat) (hs : Memory.wf s.mem = true) :
    Memory.wf (streamCount s n index k).mem = true := by
  unfold streamCount
  repeat' (first | with_reducible assumption | with_reducible apply State.odAdd_wf)

theorem leaveEmpty_wf (s : State) (n k i reason : Nat) (evs : List Nat) (hs : Memory.wf s.mem = true) :
    Memory.wf (leaveEmpty s n k i reason evs).mem = true := by
  unfold leaveEmpty
  repeat' (first | with_reducible assumption | with_reducible apply State.updStream_wf | with_reducible apply streamCount_wf)

theorem takeReserve_wf (s : State) (n k i failed reason : Nat) (evs : List Nat) (hs : Memory.wf s.mem = true) :
    Memory.wf (takeReserve s n k i failed reason evs).mem = true := by
  unfold takeReserve
  repeat' (first | with_reducible assumption | with_reducible apply leaveEmpty_wf | with_reducible apply State.updStream_wf | with_reducible apply foldl_wf | with_reducible apply foldl_wf_fst | (intro _ _ _) | split | dsimp only)

theorem slotCorrupt_wf (s : State) (n : Nat) (d : Decode) (failed reason : Nat) (hs : Memory.wf s.mem = true) :
    Memory.wf (slotCorrupt s n d failed reason).mem = true := by
  unfold slotCorrupt
  repeat' (first | with_reducible assumption | with_reducible apply endStream_wf | with_reducible apply leaveEmpty_wf | with_reducible apply logEvent_wf | with_reducible apply State.updStream_wf | with_reducible apply streamCount_wf | with_reducible apply takeReserve_wf | with_reducible apply foldl_wf | with_reducible apply foldl_wf_fst | (intro _ _ _) | split | dsimp only)

theorem slotDecoded_wf (s : State) (n : Nat) (d : Decode) (us reason : Nat) (pcieFail : Bool) (dims : List Nat) (data : List (List Nat)) (hs : Memory.wf s.mem = true) :
    Memory.wf (slotDecoded s n d us reason pcieFail dims data).mem = true := by
  unfold slotDecoded
  repeat' (first | with_reducible assumption | with_reducible apply State.updStream_wf | with_reducible apply slotCorrupt_wf | with_reducible apply streamCount_wf | with_reducible apply foldl_wf | with_reducible apply foldl_wf_fst | (intro _ _ _) | split | dsimp only)

theorem parkedDecoded_wf (s : State) (n : Nat) (d : Decode) (us reason : Nat) (pcieFail : Bool) (dims : List Nat) (data : List (List Nat)) (hs : Memory.wf s.mem = true) :
    Memory.wf (parkedDecoded s n d us reason pcieFail dims data).mem = true := by
  unfold parkedDecoded
  repeat' (first | with_reducible assumption | with_reducible apply State.updStream_wf | with_reducible apply streamCount_wf | with_reducible apply foldl_wf | with_reducible apply foldl_wf_fst | (intro _ _ _) | split | dsimp only)

theorem sampleDecoded_wf (s : State) (n id us : Nat) (pcieFail : Bool) (data : List (List Nat)) (hs : Memory.wf s.mem = true) :
    Memory.wf (sampleDecoded s n id us pcieFail data).mem = true := by
  unfold sampleDecoded
  repeat' (first | with_reducible assumption | with_reducible apply parkedDecoded_wf | with_reducible apply sliceLoads_wf | with_reducible apply slotDecoded_wf | with_reducible apply foldl_wf | with_reducible apply foldl_wf_fst | (intro _ _ _) | split | dsimp only)

theorem overBudget_wf (s : State) (n id us : Nat) (hs : Memory.wf s.mem = true) :
    Memory.wf (overBudget s n id us).mem = true := by
  unfold overBudget
  repeat' (first | with_reducible assumption | with_reducible apply State.updStream_wf | with_reducible apply streamCount_wf | with_reducible apply takeReserve_wf | with_reducible apply foldl_wf | with_reducible apply foldl_wf_fst | (intro _ _ _) | split | dsimp only)

theorem slotStore_wf (s : State) (a : Nat) (bs : List Byte) (hs : Memory.wf s.mem = true) :
    Memory.wf (slotStore s a bs).mem = true := by
  unfold slotStore
  repeat' (first | with_reducible assumption | with_reducible apply sliceStores_wf | with_reducible apply State.storeP_wf)

theorem writeBatch_wf (s : State) (n k : Nat) (slots : List SlotState) (events : List Nat) (left : Nat) (hs : Memory.wf s.mem = true) :
    Memory.wf (writeBatch s n k slots events left).mem = true := by
  unfold writeBatch
  repeat' (first | with_reducible assumption | with_reducible apply slotStore_wf | with_reducible apply foldl_wf | with_reducible apply foldl_wf_fst | (intro _ _ _))

theorem sealLow_wf (s : State) (n : Nat) (hs : Memory.wf s.mem = true) :
    Memory.wf (sealLow s n).mem = true := by
  unfold sealLow
  repeat' (first | with_reducible assumption | with_reducible apply State.updStream_wf | with_reducible apply syncChange_wf | with_reducible apply lowWater_wf | with_reducible apply foldl_wf | with_reducible apply foldl_wf_fst | (intro _ _ _) | split | dsimp only)

theorem batchSeal_wf (s : State) (n waitUs : Nat) (hs : Memory.wf s.mem = true) :
    Memory.wf (batchSeal s n waitUs).mem = true := by
  unfold batchSeal
  repeat' (first | with_reducible assumption | with_reducible apply endStream_wf | with_reducible apply State.updStream_wf | with_reducible apply sealLow_wf | with_reducible apply streamCount_wf | with_reducible apply syncChange_wf | with_reducible apply writeBatch_wf | with_reducible apply foldl_wf | with_reducible apply foldl_wf_fst | (intro _ _ _) | split | dsimp only)

theorem portDown_wf (s : State) (p : Nat) (st : PortState) (hs : Memory.wf s.mem = true) :
    Memory.wf (portDown s p st).mem = true := by
  unfold portDown
  repeat' (first | with_reducible assumption | with_reducible apply loseData_wf | with_reducible apply State.send_wf | with_reducible apply State.updPort_wf | with_reducible apply foldl_wf | with_reducible apply foldl_wf_fst | (intro _ _ _) | split)

theorem portFail_wf (s : State) (p cause : Nat) (hs : Memory.wf s.mem = true) :
    Memory.wf (portFail s p cause).mem = true := by
  unfold portFail
  repeat' (first | with_reducible assumption | with_reducible apply logEvent_wf | with_reducible apply portDown_wf)

theorem lightLoss_wf (s : State) (r : Nat) (harnessOnly : Bool) (hs : Memory.wf s.mem = true) :
    Memory.wf (lightLoss s r harnessOnly).mem = true := by
  unfold lightLoss
  repeat' (first | with_reducible assumption | with_reducible apply logEvent_wf | with_reducible apply portDown_wf | with_reducible apply State.updPort_wf | with_reducible apply foldl_wf | with_reducible apply foldl_wf_fst | (intro _ _ _) | split)

theorem sendIdent_wf (s : State) (p : Nat) (hs : Memory.wf s.mem = true) :
    Memory.wf (sendIdent s p).mem = true := by
  unfold sendIdent
  repeat' (first | with_reducible assumption | with_reducible apply State.send_wf)

theorem portTraining_wf (s : State) (p plane delay : Nat) (hs : Memory.wf s.mem = true) :
    Memory.wf (portTraining s p plane delay).mem = true := by
  unfold portTraining
  repeat' (first | with_reducible assumption | with_reducible apply State.odSet_wf | with_reducible apply portFail_wf | with_reducible apply State.setPort_wf | with_reducible apply sendIdent_wf | with_reducible apply foldl_wf | with_reducible apply foldl_wf_fst | (intro _ _ _) | split)

theorem portTrainingTimeout_wf (s : State) (p step : Nat) (hs : Memory.wf s.mem = true) :
    Memory.wf (portTrainingTimeout s p step).mem = true := by
  unfold portTrainingTimeout
  repeat' (first | with_reducible assumption | with_reducible apply portFail_wf | with_reducible apply State.odSet_wf | with_reducible apply sendIdent_wf | with_reducible apply foldl_wf | with_reducible apply foldl_wf_fst | (intro _ _ _) | split)

theorem lockLoss_wf (s : State) (p member : Nat) (replays : Bool) (hs : Memory.wf s.mem = true) :
    Memory.wf (lockLoss s p member replays).mem = true := by
  unfold lockLoss
  repeat' (first | with_reducible assumption | with_reducible apply loseData_wf | with_reducible apply portFail_wf | with_reducible apply foldl_wf | with_reducible apply foldl_wf_fst | (intro _ _ _) | split)

theorem calibratePort_wf (s : State) (p : Nat) (harness : Bool) (hs : Memory.wf s.mem = true) :
    Memory.wf (calibratePort s p harness).mem = true := by
  unfold calibratePort
  repeat' (first | with_reducible assumption | with_reducible apply State.updPort_wf)

theorem calibrateAll_wf (s : State) (hs : Memory.wf s.mem = true) :
    Memory.wf (calibrateAll s).mem = true := by
  unfold calibrateAll
  repeat' (first | with_reducible assumption | with_reducible apply calibratePort_wf | with_reducible apply State.updPort_wf | with_reducible apply foldl_wf | with_reducible apply foldl_wf_fst | (intro _ _ _))

theorem calibrationDone_wf (s : State) (p : Nat) (hs : Memory.wf s.mem = true) :
    Memory.wf (calibrationDone s p).mem = true := by
  unfold calibrationDone
  repeat' (first | with_reducible assumption | with_reducible apply State.updPort_wf | with_reducible apply foldl_wf | with_reducible apply foldl_wf_fst | (intro _ _ _) | split)

theorem endIdle_wf (s : State) (hs : Memory.wf s.mem = true) :
    Memory.wf (endIdle s).mem = true := by
  unfold endIdle
  repeat' (first | with_reducible assumption | with_reducible apply State.updPort_wf | with_reducible apply foldl_wf | with_reducible apply foldl_wf_fst | (intro _ _ _) | split)

theorem resumePorts_wf (s : State) (ps : List Nat) (hs : Memory.wf s.mem = true) :
    Memory.wf (resumePorts s ps).mem = true := by
  unfold resumePorts
  repeat' (first | with_reducible assumption | with_reducible apply pump_wf | with_reducible apply foldl_wf)

theorem flitRetry_wf (s : State) (port header : Nat) (payload : List Byte) (fec unc : Nat) (hs : Memory.wf s.mem = true) :
    Memory.wf (flitRetry s port header payload fec unc).mem = true := by
  unfold flitRetry
  repeat' (first | with_reducible assumption | with_reducible apply emit_wf | with_reducible apply portFail_wf | with_reducible apply State.odAdd_wf | with_reducible apply receive_wf | with_reducible apply State.setPort_wf | with_reducible apply foldl_wf | with_reducible apply foldl_wf_fst | (intro _ _ _) | split | dsimp only)

theorem bumpSeq_wf (s : State) (ctx group : Nat) (hs : Memory.wf s.mem = true) :
    Memory.wf (bumpSeq s ctx group).mem = true := by
  unfold bumpSeq
  repeat' (first | with_reducible assumption)

theorem fabCommand_wf (s : State) (id kind : Nat) (hs : Memory.wf s.mem = true) :
    Memory.wf (fabCommand s id kind).mem = true := by
  unfold fabCommand
  repeat' (first | with_reducible assumption | with_reducible apply addFab_wf | with_reducible apply bumpSeq_wf | with_reducible apply complete_wf | with_reducible apply State.fresh_wf | with_reducible apply State.updCmd_wf | with_reducible apply foldl_wf | with_reducible apply foldl_wf_fst | (intro _ _ _) | split | dsimp only)

theorem fabTimeout_wf (s : State) (id : Nat) (hs : Memory.wf s.mem = true) :
    Memory.wf (fabTimeout s id).mem = true := by
  unfold fabTimeout
  repeat' (first | with_reducible assumption | with_reducible apply endFab_wf | with_reducible apply foldl_wf | with_reducible apply foldl_wf_fst | (intro _ _ _) | split)

end Sys2Proof.Machine
end

