-- ==== Sys2Proof/Laws/MemoryJobs.lean ====
section
/-! SUPPORT. Every operation over training, snapshots, jobs, contexts and the vector unit keeps the memory in its canonical form
(one lemma per operation, by composition of its callees). -/

namespace Sys2Proof.Machine

theorem clearNorms_wf (s : State) (x : Ctx) (hs : Memory.wf s.mem = true) :
    Memory.wf (clearNorms s x).mem = true := by
  unfold clearNorms
  repeat' (first | with_reducible assumption | with_reducible apply State.storeP_wf | with_reducible apply foldl_wf | with_reducible apply foldl_wf_fst | (intro _ _ _))

theorem unpoisonStage_wf (s : State) (ctx : Nat) (hs : Memory.wf s.mem = true) :
    Memory.wf (unpoisonStage s ctx).mem = true := by
  unfold unpoisonStage
  repeat' (first | with_reducible assumption)

theorem readmit_wf (s : State) (planes : Nat) (hs : Memory.wf s.mem = true) :
    Memory.wf (readmit s planes).mem = true := by
  unfold readmit
  repeat' (first | with_reducible assumption | with_reducible apply restripeOp_wf | with_reducible apply State.odSet_wf | with_reducible apply foldl_wf | with_reducible apply foldl_wf_fst | (intro _ _ _) | split | dsimp only)

theorem tellShards_wf (s : State) (c : Cmd) (hs : Memory.wf s.mem = true) :
    Memory.wf (tellShards s c).mem = true := by
  unfold tellShards
  repeat' (first | with_reducible assumption | with_reducible apply State.send_wf | with_reducible apply foldl_wf | with_reducible apply foldl_wf_fst | (intro _ _ _) | split | dsimp only)

theorem stepOpen_wf (s : State) (id : Nat) (others : List (List Nat)) (planes : Nat) (hs : Memory.wf s.mem = true) :
    Memory.wf (stepOpen s id others planes).mem = true := by
  unfold stepOpen
  repeat' (first | with_reducible assumption | with_reducible apply clearNorms_wf | with_reducible apply complete_wf | with_reducible apply readmit_wf | with_reducible apply State.updCtx_wf | with_reducible apply sliceLoads_wf | with_reducible apply tellShards_wf | with_reducible apply unpoisonStage_wf | with_reducible apply State.updCmd_wf | with_reducible apply foldl_wf | with_reducible apply foldl_wf_fst | (intro _ _ _) | split | dsimp only)

theorem clearHomes_wf (s : State) (ctx : Nat) (x : Ctx) (gmap : List Nat) (hs : Memory.wf s.mem = true) :
    Memory.wf (clearHomes s ctx x gmap).mem = true := by
  unfold clearHomes
  repeat' (first | with_reducible assumption | with_reducible apply State.storeP_wf | with_reducible apply State.updCtx_wf | with_reducible apply foldl_wf | with_reducible apply foldl_wf_fst | (intro _ _ _))

theorem gatherEntry_wf (s0 : State) (ctx : Nat) (x : Ctx) (gmap : List Nat) (s : State) (i e : Nat) (hs0 : Memory.wf s0.mem = true) (hs : Memory.wf s.mem = true) :
    Memory.wf (gatherEntry s0 ctx x gmap s i e).mem = true := by
  unfold gatherEntry
  repeat' (first | with_reducible assumption | with_reducible apply addStored_wf | with_reducible apply State.orClusterFlags_wf | with_reducible apply State.storeP_wf | with_reducible apply foldl_wf | with_reducible apply foldl_wf_fst | (intro _ _ _) | split)

theorem noteGathers_wf (s : State) (hs : Memory.wf s.mem = true) :
    Memory.wf (noteGathers s).mem = true := by
  unfold noteGathers
  repeat' (first | with_reducible assumption)

theorem gather_wf (s : State) (ctx : Nat) (hs : Memory.wf s.mem = true) :
    Memory.wf (gather s ctx).mem = true := by
  unfold gather
  repeat' (first | with_reducible assumption | with_reducible apply clearHomes_wf | with_reducible apply gatherEntry_wf | with_reducible apply State.updCtx_wf | with_reducible apply foldl_wf | with_reducible apply foldl_wf_fst | (intro _ _ _) | split)

theorem updStep'_wf (s : State) (ctx : Nat) (f : Step → Step) (hs : Memory.wf s.mem = true) :
    Memory.wf (updStep' s ctx f).mem = true := by
  unfold updStep'
  repeat' (first | with_reducible assumption | with_reducible apply State.updCtx_wf)

theorem exchange_wf (s : State) (ctx : Nat) (hs : Memory.wf s.mem = true) :
    Memory.wf (exchange s ctx).mem = true := by
  unfold exchange
  repeat' (first | with_reducible assumption | with_reducible apply addFab_wf | with_reducible apply State.fresh_wf | with_reducible apply foldl_wf | with_reducible apply foldl_wf_fst | (intro _ _ _) | split)

theorem updatePlacement_wf (s : State) (ctx k : Nat) (lens : List Nat) (hs : Memory.wf s.mem = true) :
    Memory.wf (updatePlacement s ctx k lens).mem = true := by
  unfold updatePlacement
  repeat' (first | with_reducible assumption | with_reducible apply State.setCtx_wf | with_reducible apply foldl_wf | with_reducible apply foldl_wf_fst | (intro _ _ _) | split | dsimp only)

theorem putTally_wf (s : State) (ctx : Nat) (v : Tally) (hs : Memory.wf s.mem = true) :
    Memory.wf (putTally s ctx v).mem = true := by
  unfold putTally
  repeat' (first | with_reducible assumption | with_reducible apply State.updCtx_wf)

theorem castVote_wf (s : State) (ctx : Nat) (x : Ctx) (t : Step) (v : Vote) (hs : Memory.wf s.mem = true) :
    Memory.wf (castVote s ctx x t v).mem = true := by
  unfold castVote
  repeat' (first | with_reducible assumption | with_reducible apply putTally_wf | with_reducible apply State.send_wf | with_reducible apply updStep'_wf | with_reducible apply foldl_wf | with_reducible apply foldl_wf_fst | (intro _ _ _) | split | dsimp only)

theorem voteCast_wf (s : State) (ctx : Nat) (hs : Memory.wf s.mem = true) :
    Memory.wf (voteCast s ctx).mem = true := by
  unfold voteCast
  repeat' (first | with_reducible assumption | with_reducible apply castVote_wf | with_reducible apply foldl_wf | with_reducible apply foldl_wf_fst | (intro _ _ _) | split)

theorem voteReceive_wf (s : State) (ctx : Nat) (v : Tally) (hs : Memory.wf s.mem = true) :
    Memory.wf (voteReceive s ctx v).mem = true := by
  unfold voteReceive
  repeat' (first | with_reducible assumption | with_reducible apply putTally_wf | with_reducible apply foldl_wf | with_reducible apply foldl_wf_fst | (intro _ _ _) | split)

theorem countMissing_wf (s : State) (fails : List (Nat × Nat)) (hs : Memory.wf s.mem = true) :
    Memory.wf (countMissing s fails).mem = true := by
  unfold countMissing
  repeat' (first | with_reducible assumption)

theorem setOutcome_wf (s : State) (ctx : Nat) (commit : Bool) (flags : Nat) (fails : List (Nat × Nat)) (norms : List (List Nat)) (hs : Memory.wf s.mem = true) :
    Memory.wf (setOutcome s ctx commit flags fails norms).mem = true := by
  unfold setOutcome
  repeat' (first | with_reducible assumption | with_reducible apply countMissing_wf | with_reducible apply updStep'_wf)

theorem tallyVotes_wf (s : State) (ctx : Nat) (hs : Memory.wf s.mem = true) :
    Memory.wf (tallyVotes s ctx).mem = true := by
  unfold tallyVotes
  repeat' (first | with_reducible assumption | with_reducible apply State.send_wf | with_reducible apply State.updCtx_wf | with_reducible apply setOutcome_wf | with_reducible apply foldl_wf | with_reducible apply foldl_wf_fst | (intro _ _ _) | split | dsimp only)

theorem orphanVotes_wf (s : State) (ctx : Nat) (x : Ctx) (hs : Memory.wf s.mem = true) :
    Memory.wf (orphanVotes s ctx x).mem = true := by
  unfold orphanVotes
  repeat' (first | with_reducible assumption | with_reducible apply countMissing_wf | with_reducible apply State.updCtx_wf | with_reducible apply State.send_wf | with_reducible apply foldl_wf | with_reducible apply foldl_wf_fst | (intro _ _ _))

theorem clearWords_wf (s : State) (hs : Memory.wf s.mem = true) :
    Memory.wf (clearWords s).mem = true := by
  unfold clearWords
  repeat' (first | with_reducible assumption | with_reducible apply foldl_wf | with_reducible apply foldl_wf_fst | (intro _ _ _) | split)

theorem voteDeadline_wf (s : State) (ctx : Nat) (hs : Memory.wf s.mem = true) :
    Memory.wf (voteDeadline s ctx).mem = true := by
  unfold voteDeadline
  repeat' (first | with_reducible assumption | with_reducible apply castVote_wf | with_reducible apply clearWords_wf | with_reducible apply orphanVotes_wf | with_reducible apply tallyVotes_wf | with_reducible apply updStep'_wf | with_reducible apply foldl_wf | with_reducible apply foldl_wf_fst | (intro _ _ _) | split | dsimp only)

theorem outcomeReceive_wf (s : State) (ctx tc : Nat) (commit : Bool) (flags : Nat) (fails : List (Nat × Nat)) (norms : List (List Nat)) (hs : Memory.wf s.mem = true) :
    Memory.wf (outcomeReceive s ctx tc commit flags fails norms).mem = true := by
  unfold outcomeReceive
  repeat' (first | with_reducible assumption | with_reducible apply setOutcome_wf | with_reducible apply foldl_wf | with_reducible apply foldl_wf_fst | (intro _ _ _) | split)

theorem writeNorms_wf (s : State) (t : Step) (hs : Memory.wf s.mem = true) :
    Memory.wf (writeNorms s t).mem = true := by
  unfold writeNorms
  repeat' (first | with_reducible assumption | with_reducible apply State.reachStore_wf | with_reducible apply foldl_wf | with_reducible apply foldl_wf_fst | (intro _ _ _))

theorem dropStep_wf (s : State) (ctx : Nat) (cmd : Nat) (hs : Memory.wf s.mem = true) :
    Memory.wf (dropStep s ctx cmd).mem = true := by
  unfold dropStep
  repeat' (first | with_reducible assumption | with_reducible apply abandon_wf | with_reducible apply exchange_wf | with_reducible apply foldl_wf | with_reducible apply foldl_wf_fst | (intro _ _ _) | split)

theorem abortSnaps_wf (s : State) (ctx step : Nat) (hs : Memory.wf s.mem = true) :
    Memory.wf (abortSnaps s ctx step).mem = true := by
  unfold abortSnaps
  repeat' (first | with_reducible assumption | with_reducible apply complete_wf | with_reducible apply foldl_wf | with_reducible apply foldl_wf_fst | (intro _ _ _))

theorem closeStep_wf (s : State) (ctx : Nat) (t : Step) (bank status : Nat) (hs : Memory.wf s.mem = true) :
    Memory.wf (closeStep s ctx t bank status).mem = true := by
  unfold closeStep
  repeat' (first | with_reducible assumption | with_reducible apply complete_wf | with_reducible apply State.odSet_wf | with_reducible apply State.reachStore_wf | with_reducible apply State.updCtx_wf | with_reducible apply writeNorms_wf)

theorem applyOutcome_wf (s : State) (ctx : Nat) (x : Ctx) (t : Step) (hs : Memory.wf s.mem = true) :
    Memory.wf (applyOutcome s ctx x t).mem = true := by
  unfold applyOutcome
  repeat' (first | with_reducible assumption | with_reducible apply abortSnaps_wf | with_reducible apply clearHomes_wf | with_reducible apply closeStep_wf | with_reducible apply dropStep_wf | with_reducible apply logEvent_wf | with_reducible apply State.updCtx_wf | with_reducible apply foldl_wf | with_reducible apply foldl_wf_fst | (intro _ _ _) | split)

theorem outcomeApply_wf (s : State) (ctx : Nat) (hs : Memory.wf s.mem = true) :
    Memory.wf (outcomeApply s ctx).mem = true := by
  unfold outcomeApply
  repeat' (first | with_reducible assumption | with_reducible apply applyOutcome_wf | with_reducible apply State.send_wf | with_reducible apply updStep'_wf | with_reducible apply foldl_wf | with_reducible apply foldl_wf_fst | (intro _ _ _) | split)

theorem stepGather_wf (s : State) (ctx : Nat) (hs : Memory.wf s.mem = true) :
    Memory.wf (stepGather s ctx).mem = true := by
  unfold stepGather
  repeat' (first | with_reducible assumption | with_reducible apply addFab_wf | with_reducible apply State.fresh_wf | with_reducible apply State.send_wf | with_reducible apply foldl_wf | with_reducible apply foldl_wf_fst | (intro _ _ _) | split)

theorem gatherLanded_wf (s : State) (o : FabOp) (hs : Memory.wf s.mem = true) :
    Memory.wf (gatherLanded s o).mem = true := by
  unfold gatherLanded
  repeat' (first | with_reducible assumption | with_reducible apply State.updCtx_wf | with_reducible apply syncChange_wf | with_reducible apply foldl_wf | with_reducible apply foldl_wf_fst | (intro _ _ _) | split)

theorem fabOpComplete_wf (s : State) (id : Nat) (faulty : Option Nat) (hs : Memory.wf s.mem = true) :
    Memory.wf (fabOpComplete s id faulty).mem = true := by
  unfold fabOpComplete
  repeat' (first | with_reducible assumption | with_reducible apply dropFab_wf | with_reducible apply exchange_wf | with_reducible apply fabComplete_wf | with_reducible apply gatherLanded_wf | with_reducible apply stepGather_wf | with_reducible apply updStep'_wf | with_reducible apply foldl_wf | with_reducible apply foldl_wf_fst | (intro _ _ _) | split | dsimp only)

theorem mirrorOps_wf (s : State) (ctx : Nat) (x : Ctx) (t : Step) (k : Nat) (hs : Memory.wf s.mem = true) :
    Memory.wf (mirrorOps s ctx x t k).mem = true := by
  unfold mirrorOps
  repeat' (first | with_reducible assumption | with_reducible apply addFab_wf | with_reducible apply State.fresh_wf | with_reducible apply foldl_wf | with_reducible apply foldl_wf_fst | (intro _ _ _))

theorem mirror_wf (s : State) (ctx k : Nat) (hs : Memory.wf s.mem = true) :
    Memory.wf (mirror s ctx k).mem = true := by
  unfold mirror
  repeat' (first | with_reducible assumption | with_reducible apply mirrorOps_wf | with_reducible apply updStep'_wf | with_reducible apply foldl_wf | with_reducible apply foldl_wf_fst | (intro _ _ _) | split | dsimp only)

theorem mirrorAck_wf (s : State) (ctx k : Nat) (hs : Memory.wf s.mem = true) :
    Memory.wf (mirrorAck s ctx k).mem = true := by
  unfold mirrorAck
  repeat' (first | with_reducible assumption | with_reducible apply mirror_wf | with_reducible apply updStep'_wf | with_reducible apply foldl_wf | with_reducible apply foldl_wf_fst | (intro _ _ _) | split)

theorem snapshot_wf (s : State) (id : Nat) (busMaster : Bool) (hs : Memory.wf s.mem = true) :
    Memory.wf (snapshot s id busMaster).mem = true := by
  unfold snapshot
  repeat' (first | with_reducible assumption | with_reducible apply complete_wf | with_reducible apply State.fresh_wf | with_reducible apply State.updCmd_wf | with_reducible apply State.setBme_wf | with_reducible apply foldl_wf | with_reducible apply foldl_wf_fst | (intro _ _ _) | split | dsimp only)

theorem sendFlits_wf (s : State) (p : Snap) (d : SnapD) (bs : List Byte) (hs : Memory.wf s.mem = true) :
    Memory.wf (sendFlits s p d bs).mem = true := by
  unfold sendFlits
  repeat' (first | with_reducible assumption | with_reducible apply enqueue_wf | with_reducible apply foldl_wf | with_reducible apply foldl_wf_fst | (intro _ _ _))

theorem snapshotSend_wf (s : State) (id : Nat) (hs : Memory.wf s.mem = true) :
    Memory.wf (snapshotSend s id).mem = true := by
  unfold snapshotSend
  repeat' (first | with_reducible assumption | with_reducible apply complete_wf | with_reducible apply State.send_wf | with_reducible apply sendFlits_wf | with_reducible apply sliceLoads_wf | with_reducible apply snapsSent_wf | with_reducible apply foldl_wf | with_reducible apply foldl_wf_fst | (intro _ _ _) | split | dsimp only)

theorem tellDigest_wf (s : State) (d : Nat) (hs : Memory.wf s.mem = true) :
    Memory.wf (tellDigest s d).mem = true := by
  unfold tellDigest
  repeat' (first | with_reducible assumption | with_reducible apply State.send_wf | with_reducible apply foldl_wf | with_reducible apply foldl_wf_fst | (intro _ _ _) | split)

theorem takePattern_wf (s : State) (hs : Memory.wf s.mem = true) :
    Memory.wf (takePattern s).mem = true := by
  unfold takePattern
  repeat' (first | with_reducible assumption | with_reducible apply complete_wf | with_reducible apply foldl_wf | with_reducible apply foldl_wf_fst | (intro _ _ _) | split)

theorem patternTakeEffect_wf (s : State) (hs : Memory.wf s.mem = true) :
    Memory.wf (patternTakeEffect s).mem = true := by
  unfold patternTakeEffect
  repeat' (first | with_reducible assumption | with_reducible apply takePattern_wf | with_reducible apply foldl_wf | with_reducible apply foldl_wf_fst | (intro _ _ _) | split)

theorem patternLoad_wf (s : State) (id rootDigest : Nat) (hs : Memory.wf s.mem = true) :
    Memory.wf (patternLoad s id rootDigest).mem = true := by
  unfold patternLoad
  repeat' (first | with_reducible assumption | with_reducible apply complete_wf | with_reducible apply State.updCmd_wf | with_reducible apply tellDigest_wf | with_reducible apply foldl_wf | with_reducible apply foldl_wf_fst | (intro _ _ _) | split | dsimp only)

theorem runMap_wf (s : State) (d : VecD) (hs : Memory.wf s.mem = true) :
    Memory.wf (runMap s d).1.mem = true := by
  unfold runMap
  repeat' (first | with_reducible assumption | with_reducible apply writeRow_wf | with_reducible apply foldl_wf | with_reducible apply foldl_wf_fst | (intro _ _ _))

theorem mapCmd_wf (s : State) (c code : Nat) (h : Memory.wf s.mem = true) : Memory.wf (mapCmd s c code).mem = true :=
  runUnit_wf s c .vector _ _ h fun _ _ => runMap_wf _ _ h

theorem runReduction_wf (s : State) (d : VecD) (hs : Memory.wf s.mem = true) :
    Memory.wf (runReduction s d).1.mem = true := by
  unfold runReduction
  repeat' (first | with_reducible assumption | with_reducible apply storeEls_wf)

theorem redCmd_wf (s : State) (c code : Nat) (h : Memory.wf s.mem = true) : Memory.wf (redCmd s c code).mem = true :=
  runUnit_wf s c .vector _ _ h fun _ _ => runReduction_wf _ _ h

theorem runUpdate_wf (s : State) (c : Nat) (d : UpdD) (hs : Memory.wf s.mem = true) :
    Memory.wf (runUpdate s c d).1.mem = true := by
  unfold runUpdate
  repeat' (first | with_reducible assumption | with_reducible apply State.draw_wf | with_reducible apply State.updPiece_wf | with_reducible apply State.reachView_wf | with_reducible apply sliceLoads_wf | with_reducible apply upEls_wf | with_reducible apply foldl_wf | with_reducible apply foldl_wf_fst | (intro _ _ _) | split | dsimp only)

theorem updCmdRow_wf (s : State) (c algo : Nat) (h : Memory.wf s.mem = true) : Memory.wf (updCmdRow s c algo).mem = true := by
  unfold updCmdRow
  split
  · exact h
  · exact runUnit_wf s c .vector _ _ h fun _ _ => runUpdate_wf _ _ _ h

theorem packRow_wf (d : StemD) (a : State × Flags) (i : Nat) (h : Memory.wf a.1.mem = true) : Memory.wf (packRow d a i).1.mem = true :=
  writeRow_wf _ _ _ _ _ _ _ h

theorem unpackRow_wf (d : StemD) (a : State × Flags) (i : Nat) (h : Memory.wf a.1.mem = true) : Memory.wf (unpackRow d a i).1.mem = true :=
  storeEls_wf _ _ h

theorem countStalls_wf (s : State) (c n : Nat) (hs : Memory.wf s.mem = true) :
    Memory.wf (countStalls s c n).mem = true := by
  unfold countStalls
  repeat' (first | with_reducible assumption | with_reducible apply State.cellAdd_wf | with_reducible apply foldl_wf | with_reducible apply foldl_wf_fst | (intro _ _ _) | split)

theorem putAccSector_wf (s : State) (c : Nat) (t : Tile) (k : Nat) (d : List Nat) (bad form : Bool) (hs : Memory.wf s.mem = true) :
    Memory.wf (putAccSector s c t k d bad form).mem = true := by
  unfold putAccSector
  repeat' (first | with_reducible assumption | with_reducible apply State.updCell_wf)

theorem accLose_wf (s : State) (c sec test : Nat) (hs : Memory.wf s.mem = true) :
    Memory.wf (accLose s c sec test).mem = true := by
  unfold accLose
  repeat' (first | with_reducible assumption | with_reducible apply noteSector_wf | with_reducible apply putAccSector_wf | with_reducible apply foldl_wf | with_reducible apply foldl_wf_fst | (intro _ _ _) | split | dsimp only)

theorem accRead_wf (s : State) (c sec : Nat) (errs : List (Nat × Nat)) (hs : Memory.wf s.mem = true) :
    Memory.wf (accRead s c sec errs).mem = true := by
  unfold accRead
  repeat' (first | with_reducible assumption | with_reducible apply noteSector_wf | with_reducible apply putAccSector_wf | with_reducible apply foldl_wf | with_reducible apply foldl_wf_fst | (intro _ _ _) | split | dsimp only)

theorem setWeltSector_wf (s : State) (c sec : Nat) (d : List Nat) (bad : Bool) (hs : Memory.wf s.mem = true) :
    Memory.wf (setWeltSector s c sec d bad).mem = true := by
  unfold setWeltSector
  repeat' (first | with_reducible assumption)

theorem weltLose_wf (s : State) (c sec test : Nat) (hs : Memory.wf s.mem = true) :
    Memory.wf (weltLose s c sec test).mem = true := by
  unfold weltLose
  repeat' (first | with_reducible assumption | with_reducible apply noteSector_wf | with_reducible apply setWeltSector_wf)

theorem weltRead_wf (s : State) (c sec : Nat) (errs : List (Nat × Nat)) (hs : Memory.wf s.mem = true) :
    Memory.wf (weltRead s c sec errs).mem = true := by
  unfold weltRead
  repeat' (first | with_reducible assumption | with_reducible apply noteSector_wf | with_reducible apply setWeltSector_wf | with_reducible apply weltLose_wf | with_reducible apply foldl_wf | with_reducible apply foldl_wf_fst | (intro _ _ _) | split | dsimp only)

theorem upsetSide_wf (s : State) (c row : Nat) (hs : Memory.wf s.mem = true) :
    Memory.wf (upsetSide s c row).mem = true := by
  unfold upsetSide
  repeat' (first | with_reducible assumption)

theorem takeReports_wf (s : State) (c : Nat) (rs : List (Nat × Nat)) (hs : Memory.wf s.mem = true) :
    Memory.wf (takeReports s c rs).mem = true := by
  unfold takeReports
  repeat' (first | with_reducible assumption | with_reducible apply accRead_wf | with_reducible apply countStalls_wf | with_reducible apply upsetSide_wf | with_reducible apply weltRead_wf | with_reducible apply foldl_wf | with_reducible apply foldl_wf_fst | (intro _ _ _))

theorem retire_wf (s : State) (c slot : Nat) (reports : List (Nat × Nat)) (hs : Memory.wf s.mem = true) :
    Memory.wf (retire s c slot reports).mem = true := by
  unfold retire
  repeat' (first | with_reducible assumption | with_reducible apply fetchMore_wf | with_reducible apply finishCheck_wf | with_reducible apply State.updPiece_wf | with_reducible apply takeReports_wf | with_reducible apply foldl_wf | with_reducible apply foldl_wf_fst | (intro _ _ _) | split | dsimp only)

theorem saveWelt_wf (s : State) (x : Ctx) (c : Nat) (hs : Memory.wf s.mem = true) :
    Memory.wf (saveWelt s x c).mem = true := by
  unfold saveWelt
  repeat' (first | with_reducible assumption | with_reducible apply reachEls_wf)

theorem restoreWelt_wf (s : State) (x : Ctx) (c : Nat) (hs : Memory.wf s.mem = true) :
    Memory.wf (restoreWelt s x c).mem = true := by
  unfold restoreWelt
  repeat' (first | with_reducible assumption | with_reducible apply foldl_wf | with_reducible apply foldl_wf_fst | (intro _ _ _))

theorem saveCtx_wf (s : State) (c : Nat) (x : Ctx) (hs : Memory.wf s.mem = true) :
    Memory.wf (saveCtx s c x).mem = true := by
  unfold saveCtx
  repeat' (first | with_reducible assumption | with_reducible apply State.swapRange_wf | with_reducible apply State.updCtx_wf | with_reducible apply saveWelt_wf | with_reducible apply foldl_wf | with_reducible apply foldl_wf_fst | (intro _ _ _))

theorem loadCtx_wf (s : State) (x : Ctx) (hs : Memory.wf s.mem = true) :
    Memory.wf (loadCtx s x).mem = true := by
  unfold loadCtx
  repeat' (first | with_reducible assumption | with_reducible apply restoreWelt_wf | with_reducible apply State.swapRange_wf | with_reducible apply foldl_wf | with_reducible apply foldl_wf_fst | (intro _ _ _))

theorem markEvicted_wf (s : State) (c : Nat) (x : Ctx) (hs : Memory.wf s.mem = true) :
    Memory.wf (markEvicted s c x).mem = true := by
  unfold markEvicted
  repeat' (first | with_reducible assumption | with_reducible apply State.odAdd_wf | with_reducible apply foldl_wf | with_reducible apply foldl_wf_fst | (intro _ _ _) | split)

theorem tryLoad_wf (p : SwapPlan) (e : Nat × Ctx) (h : Memory.wf p.s.mem = true) : Memory.wf (tryLoad p e).s.mem = true := by
  unfold tryLoad
  split
  · exact h
  · split
    · exact h
    · split
      · exact h
      · exact State.updCtx_wf _ _ _ (loadCtx_wf _ _ (foldl_wf h fun _ _ ht => saveCtx_wf _ _ _ (markEvicted_wf _ _ _ ht)))

theorem tryLoads_wf (l : List (Nat × Ctx)) (p : SwapPlan) (h : Memory.wf p.s.mem = true) :
    Memory.wf (l.foldl tryLoad p).s.mem = true := by
  induction l generalizing p with
  | nil => exact h
  | cons e r ih => exact ih _ (tryLoad_wf p e h)

theorem hotSetEdge_wf (s : State) (h : Memory.wf s.mem = true) : Memory.wf (hotSetEdge s).mem = true := by
  unfold hotSetEdge
  extract_lets ws p t d t1 j t2
  have hp : Memory.wf p.s.mem = true := tryLoads_wf _ _ h
  have ht : Memory.wf t.mem = true := by
    show Memory.wf (if p.blocked then p.s.odAdd 0x8073 0 1 else p.s).mem = true
    split
    · exact State.odAdd_wf _ _ _ _ hp
    · exact hp
  split
  · exact ht
  · have h1 : Memory.wf t1.mem = true := State.odAdd_wf _ _ _ _ ht
    exact foldl_wf (s := t2) h1 fun _ _ hu => State.updCtx_wf _ _ _ hu

theorem swapDone_wf (s : State) (c : Nat) (hs : Memory.wf s.mem = true) :
    Memory.wf (swapDone s c).mem = true := by
  unfold swapDone
  repeat' (first | with_reducible assumption | with_reducible apply complete_wf | with_reducible apply State.setCtx_wf | with_reducible apply State.updCtx_wf | with_reducible apply foldl_wf | with_reducible apply foldl_wf_fst | (intro _ _ _) | split)

theorem swapComplete_wf (s : State) (c : Nat) (hs : Memory.wf s.mem = true) :
    Memory.wf (swapComplete s c).mem = true := by
  unfold swapComplete
  repeat' (first | with_reducible assumption | with_reducible apply swapDone_wf | with_reducible apply foldl_wf | with_reducible apply foldl_wf_fst | (intro _ _ _) | split)

theorem swapsDue_wf (s : State) (hs : Memory.wf s.mem = true) :
    Memory.wf (swapsDue s).mem = true := by
  unfold swapsDue
  repeat' (first | with_reducible assumption | with_reducible apply swapDone_wf | with_reducible apply foldl_wf)

theorem countDeferral_wf (s : State) (hs : Memory.wf s.mem = true) :
    Memory.wf (countDeferral s).mem = true := by
  unfold countDeferral
  repeat' (first | with_reducible assumption)

theorem class2Refuse_wf (s : State) (id : Nat) (hs : Memory.wf s.mem = true) :
    Memory.wf (class2Refuse s id).mem = true := by
  unfold class2Refuse
  repeat' (first | with_reducible assumption | with_reducible apply complete_wf | with_reducible apply foldl_wf | with_reducible apply foldl_wf_fst | (intro _ _ _) | split | dsimp only)

theorem refuseLate_wf (s : State) (hs : Memory.wf s.mem = true) :
    Memory.wf (refuseLate s).mem = true := by
  unfold refuseLate
  repeat' (first | with_reducible assumption | with_reducible apply class2Refuse_wf | with_reducible apply foldl_wf)

theorem clearCounters_wf (s : State) (hs : Memory.wf s.mem = true) :
    Memory.wf (clearCounters s).mem = true := by
  unfold clearCounters
  repeat' (first | with_reducible assumption)

theorem adopt_wf (s : State) (d : JobD) (p : Peers) (ms rs cs : List Nat) (pat : Pattern) (id : Nat) (hs : Memory.wf s.mem = true) :
    Memory.wf (adopt s d p ms rs cs pat id).mem = true := by
  unfold adopt
  repeat' (first | with_reducible assumption | with_reducible apply clearCounters_wf | with_reducible apply State.odSet_wf | with_reducible apply State.send_wf | with_reducible apply State.updCmd_wf | with_reducible apply foldl_wf | with_reducible apply foldl_wf_fst | (intro _ _ _) | split | dsimp only)

theorem tellOpen_wf (s : State) (d : JobD) (hs : Memory.wf s.mem = true) :
    Memory.wf (tellOpen s d).mem = true := by
  unfold tellOpen
  repeat' (first | with_reducible assumption | with_reducible apply tellDigest_wf | with_reducible apply foldl_wf | with_reducible apply foldl_wf_fst | (intro _ _ _) | split | dsimp only)

theorem jobOpen_wf (s : State) (id : Nat) (p : Peers) (hs : Memory.wf s.mem = true) :
    Memory.wf (jobOpen s id p).mem = true := by
  unfold jobOpen
  repeat' (first | with_reducible assumption | with_reducible apply adopt_wf | with_reducible apply complete_wf | with_reducible apply tellOpen_wf | with_reducible apply foldl_wf | with_reducible apply foldl_wf_fst | (intro _ _ _) | split | dsimp only)

theorem jobOwned_wf (s : State) (hs : Memory.wf s.mem = true) :
    Memory.wf (jobOwned s).mem = true := by
  unfold jobOwned
  repeat' (first | with_reducible assumption | with_reducible apply complete_wf | with_reducible apply foldl_wf | with_reducible apply foldl_wf_fst | (intro _ _ _) | split)

theorem endCell_wf (s : State) (c : Nat) (hs : Memory.wf s.mem = true) :
    Memory.wf (endCell s c).mem = true := by
  unfold endCell
  repeat' (first | with_reducible assumption | with_reducible apply abandon_wf | with_reducible apply commitPiece_wf | with_reducible apply State.updCell_wf | with_reducible apply foldl_wf | with_reducible apply foldl_wf_fst | (intro _ _ _) | split)

theorem endStep_wf (s : State) (ctx : Nat) (hs : Memory.wf s.mem = true) :
    Memory.wf (endStep s ctx).mem = true := by
  unfold endStep
  repeat' (first | with_reducible assumption | with_reducible apply complete_wf | with_reducible apply State.updCtx_wf | with_reducible apply foldl_wf | with_reducible apply foldl_wf_fst | (intro _ _ _) | split)

theorem jobEnd_wf (s : State) (closeCmd : Option Nat) (hs : Memory.wf s.mem = true) :
    Memory.wf (jobEnd s closeCmd).mem = true := by
  unfold jobEnd
  repeat' (first | with_reducible assumption | with_reducible apply complete_wf | with_reducible apply endCell_wf | with_reducible apply endFab_wf | with_reducible apply endStep_wf | with_reducible apply endStream_wf | with_reducible apply foldl_wf | with_reducible apply foldl_wf_fst | (intro _ _ _) | split)

theorem closeJob_wf (s : State) (closeCmd : Option Nat) (hs : Memory.wf s.mem = true) :
    Memory.wf (closeJob s closeCmd).mem = true := by
  unfold closeJob
  repeat' (first | with_reducible assumption | with_reducible apply jobEnd_wf)

theorem endJobFault_wf (s : State) (rule : Nat) (hs : Memory.wf s.mem = true) :
    Memory.wf (endJobFault s rule).mem = true := by
  unfold endJobFault
  repeat' (first | with_reducible assumption | with_reducible apply closeJob_wf | with_reducible apply logEvent_wf | with_reducible apply foldl_wf | with_reducible apply foldl_wf_fst | (intro _ _ _) | split)

theorem jobClose_wf (s : State) (id : Nat) (hs : Memory.wf s.mem = true) :
    Memory.wf (jobClose s id).mem = true := by
  unfold jobClose
  repeat' (first | with_reducible assumption | with_reducible apply closeJob_wf | with_reducible apply complete_wf | with_reducible apply foldl_wf | with_reducible apply foldl_wf_fst | (intro _ _ _) | split)

theorem mapCell_wf (s : State) (c : Nat) (hs : Memory.wf s.mem = true) :
    Memory.wf (mapCell s c).mem = true := by
  unfold mapCell
  repeat' (first | with_reducible assumption | with_reducible apply logEvent_wf | with_reducible apply State.updCell_wf | with_reducible apply foldl_wf | with_reducible apply foldl_wf_fst | (intro _ _ _) | split | dsimp only)

theorem rebuildMap_wf (s : State) (hs : Memory.wf s.mem = true) :
    Memory.wf (rebuildMap s).mem = true := by
  unfold rebuildMap
  repeat' (first | with_reducible assumption | with_reducible apply applyPending_wf | with_reducible apply failUnit_wf | with_reducible apply mapCell_wf | with_reducible apply settleRecords_wf | with_reducible apply foldl_wf | with_reducible apply foldl_wf_fst | (intro _ _ _))

theorem bootMap_wf (s : State) (hs : Memory.wf s.mem = true) :
    Memory.wf (bootMap s).mem = true := by
  unfold bootMap
  repeat' (first | with_reducible assumption | with_reducible apply rebuildMap_wf)

theorem unwritable_wf (s : State) (a : Nat) (hs : Memory.wf s.mem = true) :
    Memory.wf (unwritable s a).mem = true := by
  unfold unwritable
  repeat' (first | with_reducible assumption | with_reducible apply failUnit_wf | with_reducible apply logEvent_wf | with_reducible apply foldl_wf | with_reducible apply foldl_wf_fst | (intro _ _ _) | split | dsimp only)

theorem scrubMemories_wf (s : State) (hs : Memory.wf s.mem = true) :
    Memory.wf (scrubMemories s).mem = true := by
  unfold scrubMemories
  repeat' (first | with_reducible assumption | with_reducible apply State.clearMem_wf)

theorem scrubComplete_wf (s : State) (fails : List (List Nat)) (bad : List Nat) (hs : Memory.wf s.mem = true) :
    Memory.wf (scrubComplete s fails bad).mem = true := by
  unfold scrubComplete
  repeat' (first | with_reducible assumption | with_reducible apply applyFails_wf | with_reducible apply flushRing_wf | with_reducible apply State.odSet_wf | with_reducible apply rebuildMap_wf | with_reducible apply State.odAdd_wf | with_reducible apply scrubMemories_wf | with_reducible apply unwritable_wf | with_reducible apply foldl_wf | with_reducible apply foldl_wf_fst | (intro _ _ _) | split)

theorem contextCreate_wf (s : State) (id rootDigest : Nat) (hs : Memory.wf s.mem = true) :
    Memory.wf (contextCreate s id rootDigest).mem = true := by
  unfold contextCreate
  repeat' (first | with_reducible assumption | with_reducible apply State.fresh_wf | with_reducible apply complete_wf | with_reducible apply State.setCtx_wf | with_reducible apply State.setObj_wf | with_reducible apply State.updCmd_wf | with_reducible apply tellDigest_wf | with_reducible apply foldl_wf | with_reducible apply foldl_wf_fst | (intro _ _ _) | split | dsimp only)

theorem contextDestroy_wf (s : State) (id : Nat) (hs : Memory.wf s.mem = true) :
    Memory.wf (contextDestroy s id).mem = true := by
  unfold contextDestroy
  repeat' (first | with_reducible assumption | with_reducible apply complete_wf | with_reducible apply State.setObj_wf | with_reducible apply foldl_wf | with_reducible apply foldl_wf_fst | (intro _ _ _) | split)

theorem beginCmd_wf (s : State) (id : Nat) (hs : Memory.wf s.mem = true) :
    Memory.wf (beginCmd s id).mem = true := by
  unfold beginCmd
  repeat' (first | with_reducible assumption | with_reducible apply State.updCmd_wf)

theorem runCommand_wf (s : State) (id : Nat) (hs : Memory.wf s.mem = true) :
    Memory.wf (runCommand s id).mem = true := by
  unfold runCommand
  repeat' (first | with_reducible assumption | with_reducible apply complete_wf | with_reducible apply runPieceEnded_wf | with_reducible apply State.updCmd_wf | with_reducible apply State.updCtx_wf | with_reducible apply foldl_wf | with_reducible apply foldl_wf_fst | (intro _ _ _) | split | dsimp only)

theorem gridCommand_wf (s : State) (id : Nat) (hs : Memory.wf s.mem = true) :
    Memory.wf (gridCommand s id).mem = true := by
  unfold gridCommand
  repeat' (first | with_reducible assumption | with_reducible apply complete_wf | with_reducible apply State.setObj_wf | with_reducible apply State.updCtx_wf | with_reducible apply State.updCmd_wf | with_reducible apply foldl_wf | with_reducible apply foldl_wf_fst | (intro _ _ _) | split | dsimp only)

theorem syncOpCommand_wf (s : State) (id code : Nat) (hs : Memory.wf s.mem = true) :
    Memory.wf (syncOpCommand s id code).mem = true := by
  unfold syncOpCommand
  repeat' (first | with_reducible assumption | with_reducible apply complete_wf | with_reducible apply syncChange_wf | with_reducible apply foldl_wf | with_reducible apply foldl_wf_fst | (intro _ _ _) | split | dsimp only)

theorem streamStart_wf (s : State) (c q : Nat) (is : Item → Bool) (hs : Memory.wf s.mem = true) :
    Memory.wf (streamStart s c q is).mem = true := by
  unfold streamStart
  repeat' (first | with_reducible assumption | with_reducible apply State.setObj_wf | with_reducible apply State.updPiece_wf | with_reducible apply updItem_wf | with_reducible apply foldl_wf | with_reducible apply foldl_wf_fst | (intro _ _ _) | split | dsimp only)

theorem queueCtl_wf (s : State) (c : Nat) (hs : Memory.wf s.mem = true) :
    Memory.wf (queueCtl s c).mem = true := by
  unfold queueCtl
  repeat' (first | with_reducible assumption | with_reducible apply failPiece_wf | with_reducible apply fetchMore_wf | with_reducible apply finishCheck_wf | with_reducible apply State.updPiece_wf | with_reducible apply foldl_wf | with_reducible apply foldl_wf_fst | (intro _ _ _) | split)

theorem transferIssue_wf (s : State) (c : Nat) (hs : Memory.wf s.mem = true) :
    Memory.wf (transferIssue s c).mem = true := by
  unfold transferIssue
  repeat' (first | with_reducible assumption | with_reducible apply State.odAdd_wf | with_reducible apply State.draw_wf | with_reducible apply State.fresh_wf | with_reducible apply State.updPiece_wf | with_reducible apply sliceLoads_wf | with_reducible apply State.store_wf | with_reducible apply State.updCell_wf | with_reducible apply updItem_wf | with_reducible apply foldl_wf | with_reducible apply foldl_wf_fst | (intro _ _ _) | split | dsimp only)

theorem countLanded_wf (s : State) (c : Nat) (t : Xfer) (hs : Memory.wf s.mem = true) :
    Memory.wf (countLanded s c t).mem = true := by
  unfold countLanded
  repeat' (first | with_reducible assumption | with_reducible apply updItem_wf | with_reducible apply foldl_wf | with_reducible apply foldl_wf_fst | (intro _ _ _) | split)

theorem landWrites_wf (s : State) (c : Nat) (t : Xfer) (hs : Memory.wf s.mem = true) :
    Memory.wf (landWrites s c t).mem = true := by
  unfold landWrites
  repeat' (first | with_reducible assumption | with_reducible apply reachEls_wf | with_reducible apply State.odAdd_wf | with_reducible apply State.store_wf | with_reducible apply State.updPiece_wf | with_reducible apply foldl_wf | with_reducible apply foldl_wf_fst | (intro _ _ _) | split | dsimp only)

theorem landXfer_wf (s : State) (c : Nat) (t : Xfer) (hs : Memory.wf s.mem = true) :
    Memory.wf (landXfer s c t).mem = true := by
  unfold landXfer
  repeat' (first | with_reducible assumption | with_reducible apply countLanded_wf | with_reducible apply landWrites_wf | with_reducible apply State.odAdd_wf | with_reducible apply State.updCell_wf | with_reducible apply settleHeld_wf | with_reducible apply State.store_wf | with_reducible apply foldl_wf | with_reducible apply foldl_wf_fst | (intro _ _ _) | split)

theorem transferLand_wf (s : State) (c id gen : Nat) (stalls : List (Nat × Nat)) (hs : Memory.wf s.mem = true) :
    Memory.wf (transferLand s c id gen stalls).mem = true := by
  unfold transferLand
  repeat' (first | with_reducible assumption | with_reducible apply landXfer_wf | with_reducible apply State.odAdd_wf | with_reducible apply State.updCell_wf | with_reducible apply takeReports_wf | with_reducible apply foldl_wf | with_reducible apply foldl_wf_fst | (intro _ _ _) | split)

end Sys2Proof.Machine
end

