-- ==== Sys2Proof/Laws/MemoryHost.lean ====
section
/-! SUPPORT. Every operation over the rings, the host memory, the stitch, fences and boot keeps the memory in its canonical form
(one lemma per operation, by composition of its callees). -/

namespace Sys2Proof.Machine

theorem ringEnable_wf (s : State) (n : Nat) (on : Bool) (sqBase cqBase sqLog cqLog : Nat) (hs : Memory.wf s.mem = true) :
    Memory.wf (ringEnable s n on sqBase cqBase sqLog cqLog).mem = true := by
  unfold ringEnable
  repeat' (first | with_reducible assumption | with_reducible apply State.setRing_wf | with_reducible apply foldl_wf | with_reducible apply foldl_wf_fst | (intro _ _ _) | split | dsimp only)

theorem sqTailWrite_wf (s : State) (n v : Nat) (hs : Memory.wf s.mem = true) :
    Memory.wf (sqTailWrite s n v).mem = true := by
  unfold sqTailWrite
  repeat' (first | with_reducible assumption | with_reducible apply State.setRing_wf | with_reducible apply foldl_wf | with_reducible apply foldl_wf_fst | (intro _ _ _) | split | dsimp only)

theorem cqHeadWrite_wf (s : State) (n v : Nat) (hs : Memory.wf s.mem = true) :
    Memory.wf (cqHeadWrite s n v).mem = true := by
  unfold cqHeadWrite
  repeat' (first | with_reducible assumption | with_reducible apply flushRing_wf | with_reducible apply State.setRing_wf | with_reducible apply foldl_wf | with_reducible apply foldl_wf_fst | (intro _ _ _) | split | dsimp only)

theorem markHeld_wf (s : State) (hs : Memory.wf s.mem = true) :
    Memory.wf (markHeld s).mem = true := by
  unfold markHeld
  repeat' (first | with_reducible assumption)

theorem joinStep_wf (s : State) (ctx id e : Nat) (hs : Memory.wf s.mem = true) :
    Memory.wf (joinStep s ctx id e).mem = true := by
  unfold joinStep
  repeat' (first | with_reducible assumption | with_reducible apply State.updCtx_wf | with_reducible apply foldl_wf | with_reducible apply foldl_wf_fst | (intro _ _ _) | split)

theorem takeOd_wf (s : State) (id e : Nat) (bad : Bool) (hs : Memory.wf s.mem = true) :
    Memory.wf (takeOd s id e bad).mem = true := by
  unfold takeOd
  repeat' (first | with_reducible assumption | with_reducible apply complete_wf | with_reducible apply State.updCmd_wf | with_reducible apply foldl_wf | with_reducible apply foldl_wf_fst | (intro _ _ _) | split)

theorem admitCmd_wf (s : State) (n id e : Nat) (bad : Bool) (hs : Memory.wf s.mem = true) :
    Memory.wf (admitCmd s n id e bad).mem = true := by
  unfold admitCmd
  repeat' (first | with_reducible assumption | with_reducible apply complete_wf | with_reducible apply joinStep_wf | with_reducible apply foldl_wf | with_reducible apply foldl_wf_fst | (intro _ _ _) | split | dsimp only)

theorem ringEntryTake_wf (s : State) (hs : Memory.wf s.mem = true) :
    Memory.wf (ringEntryTake s).mem = true := by
  unfold ringEntryTake
  repeat' (first | with_reducible assumption | with_reducible apply State.fresh_wf | with_reducible apply admitCmd_wf | with_reducible apply markHeld_wf | with_reducible apply State.setRing_wf | with_reducible apply takeOd_wf | with_reducible apply foldl_wf | with_reducible apply foldl_wf_fst | (intro _ _ _) | split | dsimp only)

theorem storeUp_wf (s : State) (a : Nat) (bs : List Byte) (p : Bool) (hs : Memory.wf s.mem = true) :
    Memory.wf (storeUp s a bs p).mem = true := by
  unfold storeUp
  repeat' (first | with_reducible assumption | with_reducible apply sliceStores_wf | with_reducible apply State.storeP_wf | with_reducible apply foldl_wf | with_reducible apply foldl_wf_fst | (intro _ _ _) | split)

theorem hostCopyIn_wf (s : State) (id : Nat) (busMaster : Bool) (hs : Memory.wf s.mem = true) :
    Memory.wf (hostCopyIn s id busMaster).mem = true := by
  unfold hostCopyIn
  repeat' (first | with_reducible assumption | with_reducible apply beginCmd_wf | with_reducible apply complete_wf | with_reducible apply State.fresh_wf | with_reducible apply State.setBme_wf | with_reducible apply State.send_wf | with_reducible apply foldl_wf | with_reducible apply foldl_wf_fst | (intro _ _ _) | split | dsimp only)

theorem hostCopyOut_wf (s : State) (id : Nat) (busMaster : Bool) (hs : Memory.wf s.mem = true) :
    Memory.wf (hostCopyOut s id busMaster).mem = true := by
  unfold hostCopyOut
  repeat' (first | with_reducible assumption | with_reducible apply complete_wf | with_reducible apply State.draw_wf | with_reducible apply State.setBme_wf | with_reducible apply sliceLoads_wf | with_reducible apply foldl_wf | with_reducible apply foldl_wf_fst | (intro _ _ _) | split | dsimp only)

theorem readCompletion_wf (s : State) (id offset : Nat) (data : List Byte) (fail : Bool) (hs : Memory.wf s.mem = true) :
    Memory.wf (readCompletion s id offset data fail).mem = true := by
  unfold readCompletion
  repeat' (first | with_reducible assumption | with_reducible apply complete_wf | with_reducible apply State.updCmd_wf | with_reducible apply storeUp_wf | with_reducible apply foldl_wf | with_reducible apply foldl_wf_fst | (intro _ _ _) | split | dsimp only)

theorem loseHostReads_wf (s : State) (hs : Memory.wf s.mem = true) :
    Memory.wf (loseHostReads s).mem = true := by
  unfold loseHostReads
  repeat' (first | with_reducible assumption | with_reducible apply complete_wf | with_reducible apply foldl_wf | with_reducible apply foldl_wf_fst | (intro _ _ _) | split)

theorem bar2WindowBase_wf (s : State) (value sizeLog : Nat) (hs : Memory.wf s.mem = true) :
    Memory.wf (bar2WindowBase s value sizeLog).mem = true := by
  unfold bar2WindowBase
  repeat' (first | with_reducible assumption | with_reducible apply foldl_wf | with_reducible apply foldl_wf_fst | (intro _ _ _) | split)

theorem bar2Read_wf (s : State) (offset n : Nat) (hs : Memory.wf s.mem = true) :
    Memory.wf (bar2Read s offset n).mem = true := by
  unfold bar2Read
  repeat' (first | with_reducible assumption | with_reducible apply State.draw_wf | with_reducible apply State.send_wf | with_reducible apply sliceLoads_wf | with_reducible apply foldl_wf | with_reducible apply foldl_wf_fst | (intro _ _ _) | split)

theorem bar2Store_wf (s : State) (o : Nat) (bs : List Byte) (ep : Bool) (hs : Memory.wf s.mem = true) :
    Memory.wf (bar2Store s o bs ep).mem = true := by
  unfold bar2Store
  repeat' (first | with_reducible assumption | with_reducible apply State.addPoison_wf | with_reducible apply State.copyOnWrite_wf | with_reducible apply sliceStores_wf | with_reducible apply State.storeP_wf | with_reducible apply foldl_wf | with_reducible apply foldl_wf_fst | (intro _ _ _) | split)

theorem bar2Write_wf (s : State) (offset : Nat) (data : List Byte) (ep : Bool) (hs : Memory.wf s.mem = true) :
    Memory.wf (bar2Write s offset data ep).mem = true := by
  unfold bar2Write
  repeat' (first | with_reducible assumption | with_reducible apply bar2Store_wf | with_reducible apply foldl_wf | with_reducible apply foldl_wf_fst | (intro _ _ _) | split)

theorem overrunDecide_wf (s : State) (e : Nat × List Nat) (c : Nat) (hs : Memory.wf s.mem = true) :
    Memory.wf (overrunDecide s e c).mem = true := by
  unfold overrunDecide
  repeat' (first | with_reducible assumption | with_reducible apply State.cellAdd_wf | with_reducible apply overrunPiece_wf | with_reducible apply State.odAdd_wf | with_reducible apply State.updCtx_wf | with_reducible apply State.updPiece_wf | with_reducible apply State.updCmd_wf | with_reducible apply foldl_wf | with_reducible apply foldl_wf_fst | (intro _ _ _) | split)

theorem unclaim_wf (s : State) (c : Nat) (hs : Memory.wf s.mem = true) :
    Memory.wf (unclaim s c).mem = true := by
  unfold unclaim
  repeat' (first | with_reducible assumption | with_reducible apply requeue_wf | with_reducible apply State.updCell_wf | with_reducible apply foldl_wf | with_reducible apply foldl_wf_fst | (intro _ _ _) | split)

theorem dropSlices_wf (s : State) (hs : Memory.wf s.mem = true) :
    Memory.wf (dropSlices s).mem = true := by
  unfold dropSlices
  repeat' (first | with_reducible assumption)

theorem ageLeases_wf (s : State) (hs : Memory.wf s.mem = true) :
    Memory.wf (ageLeases s).mem = true := by
  unfold ageLeases
  repeat' (first | with_reducible assumption)

theorem startCalibrations_wf (s : State) (p : Pattern) (hs : Memory.wf s.mem = true) :
    Memory.wf (startCalibrations s p).mem = true := by
  unfold startCalibrations
  repeat' (first | with_reducible assumption | with_reducible apply calibratePort_wf | with_reducible apply foldl_wf | with_reducible apply foldl_wf_fst | (intro _ _ _) | split | dsimp only)

theorem applyPoint_wf (s : State) (e : Nat) (hs : Memory.wf s.mem = true) :
    Memory.wf (applyPoint s e).mem = true := by
  unfold applyPoint
  repeat' (first | with_reducible assumption | with_reducible apply foldl_wf | with_reducible apply foldl_wf_fst | (intro _ _ _) | split)

theorem handOutCells_wf (s : State) (e : Nat × List Nat) (hs : Memory.wf s.mem = true) :
    Memory.wf (handOutCells s e).mem = true := by
  unfold handOutCells
  repeat' (first | with_reducible assumption)

theorem jobEdge_wf (s : State) (hs : Memory.wf s.mem = true) :
    Memory.wf (jobEdge s).mem = true := by
  unfold jobEdge
  repeat' (first | with_reducible assumption | with_reducible apply ageLeases_wf | with_reducible apply applyPoint_wf | with_reducible apply countDeferral_wf | with_reducible apply handOutCells_wf | with_reducible apply hotSetEdge_wf | with_reducible apply noteGathers_wf | with_reducible apply overrunDecide_wf | with_reducible apply refuseLate_wf | with_reducible apply startCalibrations_wf | with_reducible apply swapsDue_wf | with_reducible apply takePattern_wf | with_reducible apply unclaim_wf | with_reducible apply foldl_wf | with_reducible apply foldl_wf_fst | (intro _ _ _) | split | dsimp only)

theorem sendMarker_wf (s : State) (hs : Memory.wf s.mem = true) :
    Memory.wf (sendMarker s).mem = true := by
  unfold sendMarker
  repeat' (first | with_reducible assumption | with_reducible apply State.send_wf)

theorem rootMarker_wf (s : State) (hs : Memory.wf s.mem = true) :
    Memory.wf (rootMarker s).mem = true := by
  unfold rootMarker
  repeat' (first | with_reducible assumption | with_reducible apply sendMarker_wf | with_reducible apply foldl_wf | with_reducible apply foldl_wf_fst | (intro _ _ _) | split)

theorem watchMarkers_wf (s : State) (n : Nat) (hs : Memory.wf s.mem = true) :
    Memory.wf (watchMarkers s n).mem = true := by
  unfold watchMarkers
  repeat' (first | with_reducible assumption | with_reducible apply logEvent_wf | with_reducible apply State.odAdd_wf | with_reducible apply foldl_wf | with_reducible apply foldl_wf_fst | (intro _ _ _) | split | dsimp only)

theorem rejoinBlocks_wf (s : State) (hs : Memory.wf s.mem = true) :
    Memory.wf (rejoinBlocks s).mem = true := by
  unfold rejoinBlocks
  repeat' (first | with_reducible assumption)

theorem edge_wf (s : State) (hs : Memory.wf s.mem = true) :
    Memory.wf (edge s).mem = true := by
  unfold edge
  repeat' (first | with_reducible assumption | with_reducible apply dropSlices_wf | with_reducible apply endIdle_wf | with_reducible apply jobEdge_wf | with_reducible apply jobOwned_wf | with_reducible apply rejoinBlocks_wf | with_reducible apply resumePorts_wf | with_reducible apply rootMarker_wf | with_reducible apply watchMarkers_wf | with_reducible apply foldl_wf | with_reducible apply foldl_wf_fst | (intro _ _ _) | split)

theorem stitchEdge_wf (s : State) (hs : Memory.wf s.mem = true) :
    Memory.wf (stitchEdge s).mem = true := by
  unfold stitchEdge
  repeat' (first | with_reducible assumption | with_reducible apply edge_wf | with_reducible apply foldl_wf | with_reducible apply foldl_wf_fst | (intro _ _ _) | split)

theorem stitchInEdge_wf (s : State) (us : Nat) (hs : Memory.wf s.mem = true) :
    Memory.wf (stitchInEdge s us).mem = true := by
  unfold stitchInEdge
  repeat' (first | with_reducible assumption | with_reducible apply edge_wf | with_reducible apply logEvent_wf | with_reducible apply State.odAdd_wf | with_reducible apply foldl_wf | with_reducible apply foldl_wf_fst | (intro _ _ _) | split | dsimp only)

theorem enterLost_wf (s : State) (hs : Memory.wf s.mem = true) :
    Memory.wf (enterLost s).mem = true := by
  unfold enterLost
  repeat' (first | with_reducible assumption | with_reducible apply logEvent_wf | with_reducible apply foldl_wf | with_reducible apply foldl_wf_fst | (intro _ _ _) | split)

theorem takeOver_wf (s : State) (hs : Memory.wf s.mem = true) :
    Memory.wf (takeOver s).mem = true := by
  unfold takeOver
  repeat' (first | with_reducible assumption)

theorem hearRoot_wf {s t : State} {sender : Nat} (e : hearRoot s sender = some t) (h : Memory.wf s.mem = true) :
    Memory.wf t.mem = true := by
  unfold hearRoot at e
  split at e
  · cases e
  · split at e
    · cases e; exact h
    · split at e
      · cases e; exact takeOver_wf s h
      · cases e

theorem stitchMarker_wf (s : State) (plane sender n : Nat) (t : Int) (hs : Memory.wf s.mem = true) :
    Memory.wf (stitchMarker s plane sender n t).mem = true := by
  unfold stitchMarker
  repeat' (first | with_reducible assumption | exact hearRoot_wf (by assumption) (by assumption) | with_reducible apply foldl_wf | with_reducible apply foldl_wf_fst | (intro _ _ _) | split | dsimp only)

theorem standbyTakeover_wf (s : State) (us : Nat) (hs : Memory.wf s.mem = true) :
    Memory.wf (standbyTakeover s us).mem = true := by
  unfold standbyTakeover
  repeat' (first | with_reducible assumption | with_reducible apply sendMarker_wf | with_reducible apply takeOver_wf | with_reducible apply foldl_wf | with_reducible apply foldl_wf_fst | (intro _ _ _) | split)

theorem FenceUnit.updFencing_wf (s : State) (f : Fencing → Fencing) (u : FenceUnit) (h : Memory.wf s.mem = true) :
    Memory.wf (FenceUnit.updFencing s f u).mem = true := by
  cases u
  · exact State.updCell_wf _ _ _ h
  · exact State.setBlock_wf _ _ _ h

theorem FenceUnit.advance_wf (s : State) (cause : Nat) (units : List Nat) (u : FenceUnit) (h : Memory.wf s.mem = true) :
    Memory.wf (FenceUnit.advance s cause units u).mem = true := by
  cases u
  · exact State.updCell_wf _ _ _ h
  · simp only [FenceUnit.advance]
    split
    · exact foldl_wf (State.setBlock_wf _ _ _ h) fun _ _ ht => State.updCell_wf _ _ _ ht
    · exact State.setBlock_wf _ _ _ h

theorem poisonTile_wf (s : State) (t : Tile) (hs : Memory.wf s.mem = true) :
    Memory.wf (poisonTile s t).mem = true := by
  unfold poisonTile
  repeat' (first | with_reducible assumption | with_reducible apply State.addPoison_wf | with_reducible apply foldl_wf | with_reducible apply foldl_wf_fst | (intro _ _ _))

theorem loseWelt_wf (s : State) (c : Nat) (hs : Memory.wf s.mem = true) :
    Memory.wf (loseWelt s c).mem = true := by
  unfold loseWelt
  repeat' (first | with_reducible assumption)

theorem loseCommits_wf (s : State) (c : Nat) (hs : Memory.wf s.mem = true) :
    Memory.wf (loseCommits s c).mem = true := by
  unfold loseCommits
  repeat' (first | with_reducible assumption | with_reducible apply State.send_wf | with_reducible apply State.updCell_wf | with_reducible apply tileCommit_wf | with_reducible apply tileRevert_wf | with_reducible apply foldl_wf | with_reducible apply foldl_wf_fst | (intro _ _ _))

theorem stopCell_wf (s : State) (c : Nat) (h : Memory.wf s.mem = true) : Memory.wf (stopCell s c).mem = true := by
  unfold stopCell
  extract_lets s1 s2 lost s3 s4
  have h1 : Memory.wf s1.mem = true := by
    show Memory.wf (match s.pieceOf c with
      | none => dropWaiters s c
      | some p => _ : State).mem = true
    split
    · exact dropWaiters_wf _ _ h
    · split
      · exact commitPiece_wf _ _ _ h
      · split
        · exact State.updPiece_wf _ _ _ (dropWaiters_wf _ _ h)
        · dsimp only
          split <;> exact requeue_wf _ _ _ (abandon_wf _ _ _ h)
  have h4 : Memory.wf s4.mem = true := State.updCell_wf _ _ _ (foldl_wf (loseCommits_wf _ _ h1) fun _ _ ht => poisonTile_wf _ _ ht)
  split
  · exact loseWelt_wf _ _ (State.updPhys_wf _ _ _ _ h4)
  · exact loseWelt_wf _ _ h4

theorem loseLoad_wf (s : State) (c : Nat) (t : Xfer) (hs : Memory.wf s.mem = true) :
    Memory.wf (loseLoad s c t).mem = true := by
  unfold loseLoad
  repeat' (first | with_reducible assumption | with_reducible apply countLanded_wf | with_reducible apply State.draw_wf | with_reducible apply State.updCell_wf | with_reducible apply storeEls_wf | with_reducible apply State.store_wf | with_reducible apply foldl_wf | with_reducible apply foldl_wf_fst | (intro _ _ _) | split)

theorem loseStore_wf (s : State) (c : Nat) (t : Xfer) (hs : Memory.wf s.mem = true) :
    Memory.wf (loseStore s c t).mem = true := by
  unfold loseStore
  repeat' (first | with_reducible assumption | with_reducible apply countLanded_wf | with_reducible apply State.odAdd_wf | with_reducible apply State.updCell_wf)

theorem loseXfer_wf (s : State) (u : FenceUnit) (c : Nat) (t : Xfer) (hs : Memory.wf s.mem = true) :
    Memory.wf (loseXfer s u c t).mem = true := by
  unfold loseXfer
  repeat' (first | with_reducible assumption | with_reducible apply loseLoad_wf | with_reducible apply loseStore_wf | with_reducible apply State.updPiece_wf | with_reducible apply settleHeld_wf | with_reducible apply foldl_wf | with_reducible apply foldl_wf_fst | (intro _ _ _) | split)

theorem loseRequests_wf (s : State) (u : FenceUnit) (hs : Memory.wf s.mem = true) :
    Memory.wf (loseRequests s u).mem = true := by
  unfold loseRequests
  repeat' (first | with_reducible assumption | with_reducible apply loseXfer_wf | with_reducible apply foldl_wf | with_reducible apply foldl_wf_fst | (intro _ _ _))

theorem stagingLost_wf (s : State) (hs : Memory.wf s.mem = true) :
    Memory.wf (stagingLost s).mem = true := by
  unfold stagingLost
  repeat' (first | with_reducible assumption | with_reducible apply foldl_wf | with_reducible apply foldl_wf_fst | (intro _ _ _) | split)

theorem endTransfers_wf (s : State) (p : Transfer → Bool) (hs : Memory.wf s.mem = true) :
    Memory.wf (endTransfers s p).mem = true := by
  unfold endTransfers
  repeat' (first | with_reducible assumption | with_reducible apply stagingLost_wf | with_reducible apply foldl_wf | with_reducible apply foldl_wf_fst | (intro _ _ _) | split)

theorem endSessions_wf (s : State) (hs : Memory.wf s.mem = true) :
    Memory.wf (endSessions s).mem = true := by
  unfold endSessions
  repeat' (first | with_reducible assumption | with_reducible apply endTransfers_wf)

theorem loseOd_wf (s : State) (hs : Memory.wf s.mem = true) :
    Memory.wf (loseOd s).mem = true := by
  unfold loseOd
  repeat' (first | with_reducible assumption | with_reducible apply complete_wf | with_reducible apply stagingLost_wf | with_reducible apply foldl_wf | with_reducible apply foldl_wf_fst | (intro _ _ _) | split)

theorem loseHub_wf (s : State) (b : Nat) (hs : Memory.wf s.mem = true) :
    Memory.wf (loseHub s b).mem = true := by
  unfold loseHub
  repeat' (first | with_reducible assumption | with_reducible apply endSessions_wf | with_reducible apply endStream_wf | with_reducible apply loseHostReads_wf | with_reducible apply loseOd_wf | with_reducible apply foldl_wf | with_reducible apply foldl_wf_fst | (intro _ _ _) | split)

theorem fence_wf (s : State) (u : FenceUnit) (cause : Nat) (hs : Memory.wf s.mem = true) :
    Memory.wf (fence s u cause).mem = true := by
  unfold fence
  repeat' (first | with_reducible assumption | with_reducible apply loseHub_wf | with_reducible apply loseRequests_wf | with_reducible apply State.odAdd_wf | with_reducible apply stopCell_wf | with_reducible apply FenceUnit.advance_wf | with_reducible apply foldl_wf | with_reducible apply foldl_wf_fst | (intro _ _ _) | split)

theorem cancelStores_wf (s : State) (c target : Nat) (hs : Memory.wf s.mem = true) :
    Memory.wf (cancelStores s c target).1.mem = true := by
  unfold cancelStores
  repeat' (first | with_reducible assumption | with_reducible apply State.updCell_wf)

theorem cancelAdds_wf (s : State) (c target : Nat) (hs : Memory.wf s.mem = true) :
    Memory.wf (cancelAdds s c target).1.mem = true := by
  unfold cancelAdds
  repeat' (first | with_reducible assumption | with_reducible apply poisonTile_wf | with_reducible apply State.updCell_wf | with_reducible apply foldl_wf)

theorem fenceNotice_wf (s : State) (u : FenceUnit) (target : Nat) (hs : Memory.wf s.mem = true) :
    Memory.wf (fenceNotice s u target).mem = true := by
  unfold fenceNotice
  repeat' (first | with_reducible assumption | with_reducible apply cancelAdds_wf | with_reducible apply cancelStores_wf | with_reducible apply releaseLease_wf | with_reducible apply returnUnits_wf | with_reducible apply State.odAdd_wf | with_reducible apply settleHeld_wf | with_reducible apply FenceUnit.updFencing_wf | with_reducible apply foldl_wf | with_reducible apply foldl_wf_fst | (intro _ _ _) | split)

theorem fenceEvent_wf (s : State) (f : Fencing) (u : FenceUnit) (h : Memory.wf s.mem = true) :
    Memory.wf (fenceEvent s f u).mem = true := by
  cases u <;> exact logEvent_wf _ _ _ _ _ _ h

theorem fenceDone_wf (s : State) (u : FenceUnit) (h : Memory.wf s.mem = true) : Memory.wf (fenceDone s u).mem = true := by
  cases u
  · exact State.updCell_wf _ _ _ h
  · exact State.setBlock_wf _ _ _ h

theorem fenceAck_wf (s : State) (u : FenceUnit) (target : Nat) (hs : Memory.wf s.mem = true) :
    Memory.wf (fenceAck s u target).mem = true := by
  unfold fenceAck
  repeat' (first | with_reducible assumption | with_reducible apply fenceDone_wf | with_reducible apply fenceEvent_wf | with_reducible apply FenceUnit.updFencing_wf | with_reducible apply foldl_wf | with_reducible apply foldl_wf_fst | (intro _ _ _) | split | dsimp only)

theorem resumeClock_wf (s : State) (hs : Memory.wf s.mem = true) :
    Memory.wf (resumeClock s).mem = true := by
  unfold resumeClock
  repeat' (first | with_reducible assumption | with_reducible apply foldl_wf | with_reducible apply foldl_wf_fst | (intro _ _ _) | split)

theorem resumeHub_wf (s : State) (b : Nat) (hs : Memory.wf s.mem = true) :
    Memory.wf (resumeHub s b).mem = true := by
  unfold resumeHub
  repeat' (first | with_reducible assumption | with_reducible apply resumeClock_wf | with_reducible apply foldl_wf | with_reducible apply foldl_wf_fst | (intro _ _ _) | split)

theorem unfence_wf (s : State) (b : Nat) (hs : Memory.wf s.mem = true) :
    Memory.wf (unfence s b).mem = true := by
  unfold unfence
  repeat' (first | with_reducible assumption | with_reducible apply logEvent_wf | with_reducible apply resumeHub_wf | with_reducible apply State.setBlock_wf | with_reducible apply foldl_wf | with_reducible apply foldl_wf_fst | (intro _ _ _) | split)

theorem failCell_wf (s : State) (c cause : Nat) (hs : Memory.wf s.mem = true) :
    Memory.wf (failCell s c cause).mem = true := by
  unfold failCell
  repeat' (first | with_reducible assumption | with_reducible apply fence_wf | with_reducible apply releaseLease_wf | with_reducible apply foldl_wf | with_reducible apply foldl_wf_fst | (intro _ _ _) | split)

theorem memberExclude_wf (s : State) (m : Nat) (hs : Memory.wf s.mem = true) :
    Memory.wf (memberExclude s m).mem = true := by
  unfold memberExclude
  repeat' (first | with_reducible assumption | with_reducible apply endFab_wf | with_reducible apply endJobFault_wf | with_reducible apply logEvent_wf | with_reducible apply State.send_wf | with_reducible apply foldl_wf | with_reducible apply foldl_wf_fst | (intro _ _ _) | split)

theorem perstAssert_wf (s : State) (hs : Memory.wf s.mem = true) :
    Memory.wf (perstAssert s).mem = true := by
  unfold perstAssert
  repeat' (first | with_reducible assumption | with_reducible apply fence_wf | with_reducible apply foldl_wf | with_reducible apply foldl_wf_fst | (intro _ _ _) | split | dsimp only)

theorem filtered_wf (s : State) (ns : Nat) (f : State → State) (h : Memory.wf s.mem = true)
    (k : ∀ t, Memory.wf t.mem = true → Memory.wf (f t).mem = true) : Memory.wf (filtered s ns f).mem = true := by
  unfold filtered
  split
  · exact k _ (State.draw_wf s h)
  · exact State.draw_wf s h

theorem perstDeassert_wf (s : State) (hs : Memory.wf s.mem = true) :
    Memory.wf (perstDeassert s).mem = true := by
  unfold perstDeassert
  repeat' (first | with_reducible assumption | with_reducible apply unfence_wf)

theorem blank_wf (s : State) : Memory.wf (blank s).mem = true := rfl

theorem moduleReset_wf (s : State) (hs : Memory.wf s.mem = true) :
    Memory.wf (moduleReset s).mem = true := by
  unfold moduleReset
  repeat' (first | with_reducible assumption | with_reducible apply blank_wf)

theorem countExpiry_wf (s : State) (sub processor : Nat) (hs : Memory.wf s.mem = true) :
    Memory.wf (countExpiry s sub processor).mem = true := by
  unfold countExpiry
  repeat' (first | with_reducible assumption | with_reducible apply logEvent_wf | with_reducible apply State.odAdd_wf)

theorem resetAssert_wf (s : State) (hs : Memory.wf s.mem = true) :
    Memory.wf (resetAssert s).mem = true := by
  unfold resetAssert
  repeat' (first | with_reducible assumption | with_reducible apply moduleReset_wf | with_reducible apply foldl_wf | with_reducible apply foldl_wf_fst | (intro _ _ _) | split)

theorem enterRecovery_wf (s : State) (hs : Memory.wf s.mem = true) :
    Memory.wf (enterRecovery s).mem = true := by
  unfold enterRecovery
  repeat' (first | with_reducible assumption)

theorem trialFailed_wf (s : State) (former : Bool) (hs : Memory.wf s.mem = true) :
    Memory.wf (trialFailed s former).mem = true := by
  unfold trialFailed
  repeat' (first | with_reducible assumption)

theorem bootTest_wf (s : State) (fails : List (List Nat)) (bad : List Nat) (hs : Memory.wf s.mem = true) :
    Memory.wf (bootTest s fails bad).mem = true := by
  unfold bootTest
  repeat' (first | with_reducible assumption | with_reducible apply applyFails_wf | with_reducible apply bootMap_wf | with_reducible apply enterRecovery_wf | with_reducible apply State.odAdd_wf | with_reducible apply scrubMemories_wf | with_reducible apply unwritable_wf | with_reducible apply foldl_wf | with_reducible apply foldl_wf_fst | (intro _ _ _) | split | dsimp only)

theorem bootFails_wf (s : State) (preferred trial : Bool) (hs : Memory.wf s.mem = true) :
    Memory.wf (bootFails s preferred trial).mem = true := by
  unfold bootFails
  repeat' (first | with_reducible assumption | with_reducible apply enterRecovery_wf | with_reducible apply trialFailed_wf | with_reducible apply foldl_wf | with_reducible apply foldl_wf_fst | (intro _ _ _) | split)

theorem clearLog_wf (s : State) (hs : Memory.wf s.mem = true) :
    Memory.wf (clearLog s).mem = true := by
  unfold clearLog
  repeat' (first | with_reducible assumption)

theorem boot_wf (s : State) (straps : Nat) (fails : List (List Nat)) (bad : List Nat) (hs : Memory.wf s.mem = true) :
    Memory.wf (boot s straps fails bad).mem = true := by
  unfold boot
  repeat' (first | with_reducible assumption | with_reducible apply bootFails_wf | with_reducible apply bootTest_wf | with_reducible apply clearLog_wf | with_reducible apply State.draw_wf | with_reducible apply State.odSet_wf | with_reducible apply trialFailed_wf | with_reducible apply foldl_wf | with_reducible apply foldl_wf_fst | (intro _ _ _) | split | dsimp only)

theorem bootEvent_wf (s : State) (hs : Memory.wf s.mem = true) :
    Memory.wf (bootEvent s).mem = true := by
  unfold bootEvent
  repeat' (first | with_reducible assumption | with_reducible apply boot_wf | with_reducible apply logEvent_wf)

theorem processorReady_wf (s : State) (hs : Memory.wf s.mem = true) :
    Memory.wf (processorReady s).mem = true := by
  unfold processorReady
  repeat' (first | with_reducible assumption | with_reducible apply boot_wf | with_reducible apply bootEvent_wf | with_reducible apply foldl_wf | with_reducible apply foldl_wf_fst | (intro _ _ _) | split | dsimp only)

theorem bootReadyTimeout_wf (s : State) (hs : Memory.wf s.mem = true) :
    Memory.wf (bootReadyTimeout s).mem = true := by
  unfold bootReadyTimeout
  repeat' (first | with_reducible assumption | with_reducible apply bootFails_wf | with_reducible apply enterRecovery_wf | with_reducible apply boot_wf | with_reducible apply trialFailed_wf | with_reducible apply foldl_wf | with_reducible apply foldl_wf_fst | (intro _ _ _) | split)

theorem controlWatchdog_wf (s : State) (k : Nat) (hs : Memory.wf s.mem = true) :
    Memory.wf (controlWatchdog s k).mem = true := by
  unfold controlWatchdog
  repeat' (first | with_reducible assumption | with_reducible apply countExpiry_wf | with_reducible apply fence_wf | with_reducible apply State.setBlock_wf | with_reducible apply foldl_wf | with_reducible apply foldl_wf_fst | (intro _ _ _) | split)

theorem whenRunning_wf (s : State) (f : State → State) (h : Memory.wf s.mem = true)
    (k : Memory.wf (f s).mem = true) : Memory.wf (whenRunning s f).mem = true := by
  unfold whenRunning
  split
  · exact k
  · exact h

theorem sliceAnswer_wf (r : State × List (List Nat × Bool)) (a n : Nat) (h : Memory.wf r.1.mem = true) :
    Memory.wf (sliceAnswer r a n).mem = true := h

theorem homeAccess_wf (s : State) (store : Bool) (a : Nat) (data : List Byte) (errs : List (Nat × Nat)) (hs : Memory.wf s.mem = true) :
    Memory.wf (homeAccess s store a data errs).mem = true := by
  unfold homeAccess
  repeat' (first | with_reducible assumption | with_reducible apply cacheLoad_wf | with_reducible apply eccLine_wf | with_reducible apply State.draw_wf | with_reducible apply State.send_wf | with_reducible apply State.odAdd_wf | with_reducible apply sliceAnswer_wf | with_reducible apply sliceStoreLine_wf | with_reducible apply State.store_wf | with_reducible apply State.storeP_wf | with_reducible apply foldl_wf | with_reducible apply foldl_wf_fst | (intro _ _ _) | split | dsimp only)

theorem patrolRead_wf (s : State) (k a : Nat) (errs : List (Nat × Nat)) (h : Memory.wf s.mem = true) :
    Memory.wf (patrolRead s k a errs).mem = true := by
  unfold patrolRead
  extract_lets b
  clear_value b
  split
  · split
    · exact h
    · exact channelRead_wf _ _ _ _ h
  · exact h

theorem patrol_wf (s : State) (k a : Nat) (errs : List (Nat × Nat)) (wrap : Bool) (hs : Memory.wf s.mem = true) :
    Memory.wf (patrol s k a errs wrap).mem = true := by
  unfold patrol
  repeat' (first | with_reducible assumption | with_reducible apply patrolRead_wf | with_reducible apply foldl_wf | with_reducible apply foldl_wf_fst | (intro _ _ _) | split)

end Sys2Proof.Machine
end

