-- ==== Sys2Proof/Laws/MemoryService.lean ====
section
/-! SUPPORT. Every operation over the object dictionary, field service, power and the Skiver keeps the memory in its canonical form
(one lemma per operation, by composition of its callees). -/

namespace Sys2Proof.Machine

theorem OdAns.result_wf (s : State) (r : Nat) (h : Memory.wf s.mem = true) : Memory.wf (OdAns.result s r).st.mem = true := h

theorem startScrub_wf (s : State) (hs : Memory.wf s.mem = true) :
    Memory.wf (startScrub s).mem = true := by
  unfold startScrub
  repeat' (first | with_reducible assumption | with_reducible apply complete_wf | with_reducible apply foldl_wf | with_reducible apply foldl_wf_fst | (intro _ _ _) | split)

theorem endUnlock_wf (s : State) (hs : Memory.wf s.mem = true) :
    Memory.wf (endUnlock s).mem = true := by
  unfold endUnlock
  repeat' (first | with_reducible assumption | with_reducible apply State.odSet_wf | with_reducible apply startScrub_wf | with_reducible apply foldl_wf | with_reducible apply foldl_wf_fst | (intro _ _ _) | split | dsimp only)

theorem startTest_wf (s : State) (level : Nat) (hs : Memory.wf s.mem = true) :
    Memory.wf (startTest s level).mem = true := by
  unfold startTest
  repeat' (first | with_reducible assumption | with_reducible apply State.odSet_wf | with_reducible apply startScrub_wf)

theorem newChallenge_wf (s : State) (hs : Memory.wf s.mem = true) :
    Memory.wf (newChallenge s).mem = true := by
  unfold newChallenge
  repeat' (first | with_reducible assumption | with_reducible apply State.draw_wf)

theorem useToken_wf (s : State) (bs : List Byte) (hs : Memory.wf s.mem = true) :
    Memory.wf (useToken s bs).2.mem = true := by
  unfold useToken
  repeat' (first | with_reducible assumption | with_reducible apply logEvent_wf | with_reducible apply newChallenge_wf | with_reducible apply foldl_wf | with_reducible apply foldl_wf_fst | (intro _ _ _) | split)

theorem portEnable_wf (s : State) (p v : Nat) (hs : Memory.wf s.mem = true) :
    Memory.wf (portEnable s p v).mem = true := by
  unfold portEnable
  repeat' (first | with_reducible assumption | with_reducible apply portDown_wf | with_reducible apply State.updPort_wf | with_reducible apply foldl_wf | with_reducible apply foldl_wf_fst | (intro _ _ _) | split)

theorem calRequest_wf (s : State) (v : Nat) (hs : Memory.wf s.mem = true) :
    Memory.wf (calRequest s v).mem = true := by
  unfold calRequest
  repeat' (first | with_reducible assumption | with_reducible apply calibrateAll_wf | with_reducible apply foldl_wf | with_reducible apply foldl_wf_fst | (intro _ _ _) | split)

theorem activate_wf (s : State) (hs : Memory.wf s.mem = true) :
    Memory.wf (activate s).mem = true := by
  unfold activate
  repeat' (first | with_reducible assumption)

theorem svnCommit_wf (s : State) (hs : Memory.wf s.mem = true) :
    Memory.wf (svnCommit s).mem = true := by
  unfold svnCommit
  repeat' (first | with_reducible assumption | with_reducible apply foldl_wf | with_reducible apply foldl_wf_fst | (intro _ _ _) | split | dsimp only)

theorem setNonce_wf (s : State) (w : Who) (v : Nat) (hs : Memory.wf s.mem = true) :
    Memory.wf (setNonce s w v).mem = true := by
  unfold setNonce
  repeat' (first | with_reducible assumption)

theorem stackPpr_wf (s : State) (v : Nat) (hs : Memory.wf s.mem = true) :
    Memory.wf (stackPpr s v).2.mem = true := by
  unfold stackPpr
  repeat' (first | with_reducible assumption | with_reducible apply usePpr_wf | with_reducible apply foldl_wf | with_reducible apply foldl_wf_fst | (intro _ _ _) | split)

theorem bistUnit_wf (s : State) (v : Nat) (fs : List Fail) (hs : Memory.wf s.mem = true) :
    Memory.wf (bistUnit s v fs).2.mem = true := by
  unfold bistUnit
  repeat' (first | with_reducible assumption | with_reducible apply listRepair_wf | with_reducible apply portFail_wf | with_reducible apply foldl_wf | with_reducible apply foldl_wf_fst | (intro _ _ _) | split | dsimp only)

theorem odApply_wf (s : State) (w : Who) (index sub v : Nat) (fs : List Fail) (hs : Memory.wf s.mem = true) :
    Memory.wf (odApply s w index sub v fs).2.mem = true := by
  unfold odApply
  repeat' (first | with_reducible assumption | with_reducible apply activate_wf | with_reducible apply bistUnit_wf | with_reducible apply calRequest_wf | with_reducible apply endJobFault_wf | with_reducible apply endUnlock_wf | with_reducible apply portEnable_wf | with_reducible apply State.odSet_wf | with_reducible apply setNonce_wf | with_reducible apply stackPpr_wf | with_reducible apply startTest_wf | with_reducible apply svnCommit_wf | with_reducible apply foldl_wf | with_reducible apply foldl_wf_fst | (intro _ _ _) | split | dsimp only)

theorem odWrite_wf (s : State) (w : Who) (b : OdBlk) (e : OdEntry) (data : List Byte) (fs : List Fail) (hs : Memory.wf s.mem = true) :
    Memory.wf (odWrite s w b e data fs).st.mem = true := by
  unfold odWrite
  repeat' (first | with_reducible assumption | with_reducible apply OdAns.result_wf | with_reducible apply jobOwned_wf | with_reducible apply odApply_wf | with_reducible apply foldl_wf | with_reducible apply foldl_wf_fst | (intro _ _ _) | split | dsimp only)

theorem odRead_wf (s : State) (b : OdBlk) (e : OdEntry) (hs : Memory.wf s.mem = true) :
    Memory.wf (odRead s b e).st.mem = true := by
  unfold odRead
  repeat' (first | with_reducible assumption | with_reducible apply OdAns.result_wf | with_reducible apply foldl_wf | with_reducible apply foldl_wf_fst | (intro _ _ _) | split | dsimp only)

theorem dropTransfer_wf (s : State) (w : Who) (b : OdBlk) (hs : Memory.wf s.mem = true) :
    Memory.wf (dropTransfer s w b).mem = true := by
  unfold dropTransfer
  repeat' (first | with_reducible assumption)

theorem putTransfer_wf (s : State) (t : Transfer) (w : Who) (b : OdBlk) (hs : Memory.wf s.mem = true) :
    Memory.wf (putTransfer s t w b).mem = true := by
  unfold putTransfer
  repeat' (first | with_reducible assumption | with_reducible apply dropTransfer_wf)

theorem serveSegment_wf (s : State) (t : Transfer) (w : Who) (b : OdBlk) (hs : Memory.wf s.mem = true) :
    Memory.wf (serveSegment s t w b).st.mem = true := by
  unfold serveSegment
  repeat' (first | with_reducible assumption | with_reducible apply dropTransfer_wf | with_reducible apply putTransfer_wf | with_reducible apply foldl_wf | with_reducible apply foldl_wf_fst | (intro _ _ _) | split | dsimp only)

theorem odSegRead_wf (s : State) (w : Who) (b : OdBlk) (e : OdEntry) (hs : Memory.wf s.mem = true) :
    Memory.wf (odSegRead s w b e).st.mem = true := by
  unfold odSegRead
  repeat' (first | with_reducible assumption | with_reducible apply OdAns.result_wf | with_reducible apply serveSegment_wf | with_reducible apply foldl_wf | with_reducible apply foldl_wf_fst | (intro _ _ _) | split)

theorem stageBegin_wf (s : State) (hs : Memory.wf s.mem = true) :
    Memory.wf (stageBegin s).mem = true := by
  unfold stageBegin
  repeat' (first | with_reducible assumption)

theorem stageEnd_wf (s : State) (bs : List Byte) (hs : Memory.wf s.mem = true) :
    Memory.wf (stageEnd s bs).mem = true := by
  unfold stageEnd
  repeat' (first | with_reducible assumption)

theorem domainWritten_wf (s : State) (b : OdBlk) (bs : List Byte) (hs : Memory.wf s.mem = true) :
    Memory.wf (domainWritten s b bs).st.mem = true := by
  unfold domainWritten
  repeat' (first | with_reducible assumption | with_reducible apply OdAns.result_wf | with_reducible apply stageEnd_wf | with_reducible apply useToken_wf | with_reducible apply foldl_wf | with_reducible apply foldl_wf_fst | (intro _ _ _) | split)

theorem takeSegment_wf (s : State) (t : Transfer) (w : Who) (b : OdBlk) (data : List Byte) (hs : Memory.wf s.mem = true) :
    Memory.wf (takeSegment s t w b data).st.mem = true := by
  unfold takeSegment
  repeat' (first | with_reducible assumption | with_reducible apply domainWritten_wf | with_reducible apply dropTransfer_wf | with_reducible apply putTransfer_wf | with_reducible apply OdAns.result_wf | with_reducible apply stageBegin_wf | with_reducible apply foldl_wf | with_reducible apply foldl_wf_fst | (intro _ _ _) | split | dsimp only)

theorem odSegWrite_wf (s : State) (w : Who) (b : OdBlk) (e : OdEntry) (data : List Byte) (hs : Memory.wf s.mem = true) :
    Memory.wf (odSegWrite s w b e data).st.mem = true := by
  unfold odSegWrite
  repeat' (first | with_reducible assumption | with_reducible apply OdAns.result_wf | with_reducible apply takeSegment_wf | with_reducible apply foldl_wf | with_reducible apply foldl_wf_fst | (intro _ _ _) | split)

theorem transferEnds_wf (s : State) (t : Transfer) (hs : Memory.wf s.mem = true) :
    Memory.wf (transferEnds s t).mem = true := by
  unfold transferEnds
  repeat' (first | with_reducible assumption | with_reducible apply stagingLost_wf | with_reducible apply foldl_wf | with_reducible apply foldl_wf_fst | (intro _ _ _) | split)

theorem odSegAbort_wf (s : State) (w : Who) (b : OdBlk) (e : OdEntry) (hs : Memory.wf s.mem = true) :
    Memory.wf (odSegAbort s w b e).st.mem = true := by
  unfold odSegAbort
  repeat' (first | with_reducible assumption | with_reducible apply OdAns.result_wf | with_reducible apply transferEnds_wf | with_reducible apply foldl_wf | with_reducible apply foldl_wf_fst | (intro _ _ _) | split)

theorem odRun_wf (s : State) (q : OdReq) (b : OdBlk) (e : OdEntry) (data : List Byte) (fs : List Fail) (hs : Memory.wf s.mem = true) :
    Memory.wf (odRun s q b e data fs).st.mem = true := by
  unfold odRun
  repeat' (first | with_reducible assumption | with_reducible apply odRead_wf | with_reducible apply odSegAbort_wf | with_reducible apply odSegRead_wf | with_reducible apply odSegWrite_wf | with_reducible apply odWrite_wf | with_reducible apply OdAns.result_wf | with_reducible apply foldl_wf | with_reducible apply foldl_wf_fst | (intro _ _ _) | split)

theorem odAccess_wf (s : State) (q : OdReq) (b : OdBlk) (fs : List Fail) (hs : Memory.wf s.mem = true) :
    Memory.wf (odAccess s q b fs).st.mem = true := by
  unfold odAccess
  repeat' (first | with_reducible assumption | with_reducible apply odRun_wf | with_reducible apply OdAns.result_wf | with_reducible apply boot_wf | with_reducible apply foldl_wf | with_reducible apply foldl_wf_fst | (intro _ _ _) | split | dsimp only)

theorem answerRing_wf (s : State) (id res total : Nat) (data : List Byte) (hs : Memory.wf s.mem = true) :
    Memory.wf (answerRing s id res total data).mem = true := by
  unfold answerRing
  repeat' (first | with_reducible assumption | with_reducible apply complete_wf | with_reducible apply State.storeP_wf | with_reducible apply foldl_wf | with_reducible apply foldl_wf_fst | (intro _ _ _) | split)

theorem answerMailbox_wf (s : State) (tag block res : Nat) (data : List Byte) (hs : Memory.wf s.mem = true) :
    Memory.wf (answerMailbox s tag block res data).mem = true := by
  unfold answerMailbox
  repeat' (first | with_reducible assumption)

theorem answerSession_wf (s : State) (id seq block : Nat) (data : List Byte) (hs : Memory.wf s.mem = true) :
    Memory.wf (answerSession s id seq block data).mem = true := by
  unfold answerSession
  repeat' (first | with_reducible assumption | with_reducible apply State.send_wf | with_reducible apply foldl_wf | with_reducible apply foldl_wf_fst | (intro _ _ _) | split)

theorem odAnswer_wf (q : OdReq) (b : OdBlk) (a : OdAns) (h : Memory.wf a.st.mem = true) : Memory.wf (odAnswer q b a).mem = true := by
  unfold odAnswer
  extract_lets block
  split
  · exact answerRing_wf _ _ _ _ _ h
  · exact answerMailbox_wf _ _ _ _ _ h
  · exact answerSession_wf _ _ _ _ _ h

theorem odServe_wf (s : State) (k : OdKind) (fs : List Fail) (h : Memory.wf s.mem = true) : Memory.wf (odServe s k fs).mem = true := by
  unfold odServe
  split
  · exact h
  · rename_i q rest _
    extract_lets b
    split
    · exact h
    · have ha : Memory.wf (odAnswer q (OdBlk.ofWord q.block) (odAccess { s with odQueue := rest } q (OdBlk.ofWord q.block) fs)).mem = true :=
        odAnswer_wf _ _ _ (odAccess_wf _ _ _ _ h)
      split
      · exact moduleReset_wf _ ha
      · exact ha

theorem segTimeout_wf (s : State) (n : Nat) (hs : Memory.wf s.mem = true) :
    Memory.wf (segTimeout s n).mem = true := by
  unfold segTimeout
  repeat' (first | with_reducible assumption | with_reducible apply transferEnds_wf | with_reducible apply foldl_wf | with_reducible apply foldl_wf_fst | (intro _ _ _) | split)

theorem mbRequestWrite_wf (s : State) (v : Nat) (hs : Memory.wf s.mem = true) :
    Memory.wf (mbRequestWrite s v).mem = true := by
  unfold mbRequestWrite
  repeat' (first | with_reducible assumption | with_reducible apply foldl_wf | with_reducible apply foldl_wf_fst | (intro _ _ _) | split)

theorem mbDataWrite_wf (s : State) (o : Nat) (data : List Byte) (hs : Memory.wf s.mem = true) :
    Memory.wf (mbDataWrite s o data).mem = true := by
  unfold mbDataWrite
  repeat' (first | with_reducible assumption | with_reducible apply foldl_wf | with_reducible apply foldl_wf_fst | (intro _ _ _) | split)

theorem mbStart_wf (s : State) (tag : Nat) (hs : Memory.wf s.mem = true) :
    Memory.wf (mbStart s tag).mem = true := by
  unfold mbStart
  repeat' (first | with_reducible assumption | with_reducible apply foldl_wf | with_reducible apply foldl_wf_fst | (intro _ _ _) | split)

theorem mbDoorbell_wf (s : State) (tag request : Nat) (data : List Byte) (hs : Memory.wf s.mem = true) :
    Memory.wf (mbDoorbell s tag request data).mem = true := by
  unfold mbDoorbell
  repeat' (first | with_reducible assumption | with_reducible apply mbDataWrite_wf | with_reducible apply mbRequestWrite_wf | with_reducible apply mbStart_wf)

theorem acceptOpen_wf (s : State) (bs : List Byte) (f : Frame) (full : Bool) (hs : Memory.wf s.mem = true) :
    Memory.wf (acceptOpen s bs f full).mem = true := by
  unfold acceptOpen
  repeat' (first | with_reducible assumption | with_reducible apply State.draw_wf | with_reducible apply State.send_wf)

theorem refuseOpen_wf (s : State) (f : Frame) (hs : Memory.wf s.mem = true) :
    Memory.wf (refuseOpen s f).mem = true := by
  unfold refuseOpen
  repeat' (first | with_reducible assumption | with_reducible apply State.draw_wf | with_reducible apply State.send_wf)

theorem jaolpenOpen_wf (s : State) (bs : List Byte) (hs : Memory.wf s.mem = true) :
    Memory.wf (jaolpenOpen s bs).mem = true := by
  unfold jaolpenOpen
  repeat' (first | with_reducible assumption | with_reducible apply acceptOpen_wf | with_reducible apply refuseOpen_wf | with_reducible apply State.odAdd_wf | with_reducible apply foldl_wf | with_reducible apply foldl_wf_fst | (intro _ _ _) | split | dsimp only)

theorem endSession_wf (s : State) (id : Nat) (hs : Memory.wf s.mem = true) :
    Memory.wf (endSession s id).mem = true := by
  unfold endSession
  repeat' (first | with_reducible assumption | with_reducible apply transferEnds_wf | with_reducible apply foldl_wf)

theorem acceptSeq_wf (s : State) (id seq : Nat) (hs : Memory.wf s.mem = true) :
    Memory.wf (acceptSeq s id seq).mem = true := by
  unfold acceptSeq
  repeat' (first | with_reducible assumption)

theorem queueRequest_wf (s : State) (x : Session) (f : Frame) (hs : Memory.wf s.mem = true) :
    Memory.wf (queueRequest s x f).mem = true := by
  unfold queueRequest
  repeat' (first | with_reducible assumption | with_reducible apply acceptSeq_wf)

theorem jaolpenRequest_wf (s : State) (bs : List Byte) (hs : Memory.wf s.mem = true) :
    Memory.wf (jaolpenRequest s bs).mem = true := by
  unfold jaolpenRequest
  repeat' (first | with_reducible assumption | with_reducible apply queueRequest_wf | with_reducible apply State.odAdd_wf | with_reducible apply State.send_wf | with_reducible apply foldl_wf | with_reducible apply foldl_wf_fst | (intro _ _ _) | split)

theorem jaolpenClose_wf (s : State) (bs : List Byte) (hs : Memory.wf s.mem = true) :
    Memory.wf (jaolpenClose s bs).mem = true := by
  unfold jaolpenClose
  repeat' (first | with_reducible assumption | with_reducible apply endSession_wf | with_reducible apply State.odAdd_wf | with_reducible apply State.send_wf | with_reducible apply foldl_wf | with_reducible apply foldl_wf_fst | (intro _ _ _) | split)

theorem sliceStart_wf (s : State) (k p remain : Nat) (hs : Memory.wf s.mem = true) :
    Memory.wf (sliceStart s k p remain).mem = true := by
  unfold sliceStart
  repeat' (first | with_reducible assumption | with_reducible apply State.updPhys_wf | with_reducible apply foldl_wf | with_reducible apply foldl_wf_fst | (intro _ _ _) | split)

theorem saveBad_wf (s : State) (c kind off : Nat) (hs : Memory.wf s.mem = true) :
    Memory.wf (saveBad s c kind off).mem = true := by
  unfold saveBad
  repeat' (first | with_reducible assumption | with_reducible apply accLose_wf | with_reducible apply noteSector_wf | with_reducible apply State.addPoison_wf | with_reducible apply weltLose_wf | with_reducible apply foldl_wf | with_reducible apply foldl_wf_fst | (intro _ _ _) | split)

theorem savedBad_wf (s : State) (k p : Nat) (places : List Nat) (found : List Fail) (hs : Memory.wf s.mem = true) :
    Memory.wf (savedBad s k p places found).mem = true := by
  unfold savedBad
  repeat' (first | with_reducible assumption | with_reducible apply saveBad_wf | with_reducible apply foldl_wf | with_reducible apply foldl_wf_fst | (intro _ _ _) | split)

theorem slicePasses_wf (s : State) (k p : Nat) (places : List Nat) (hs : Memory.wf s.mem = true) :
    Memory.wf (slicePasses s k p places).mem = true := by
  unfold slicePasses
  repeat' (first | with_reducible assumption | with_reducible apply State.updPhys_wf)

theorem rerunEnds_wf (s : State) (k p : Nat) (bad : Bool) (hs : Memory.wf s.mem = true) :
    Memory.wf (rerunEnds s k p bad).mem = true := by
  unfold rerunEnds
  repeat' (first | with_reducible assumption | with_reducible apply State.updPhys_wf | with_reducible apply settleRecords_wf)

theorem sliceFailed_wf (s : State) (k p n : Nat) (fs : List Fail) (hs : Memory.wf s.mem = true) :
    Memory.wf (sliceFailed s k p n fs).mem = true := by
  unfold sliceFailed
  repeat' (first | with_reducible assumption | with_reducible apply failCell_wf | with_reducible apply State.updPhys_wf | with_reducible apply foldl_wf | with_reducible apply foldl_wf_fst | (intro _ _ _) | split)

theorem sliceEnd_wf (s : State) (k p : Nat) (sigs : List Nat) (found : List Fail) (hs : Memory.wf s.mem = true) :
    Memory.wf (sliceEnd s k p sigs found).mem = true := by
  unfold sliceEnd
  repeat' (first | with_reducible assumption | with_reducible apply rerunEnds_wf | with_reducible apply State.odAdd_wf | with_reducible apply State.updPhys_wf | with_reducible apply savedBad_wf | with_reducible apply sliceFailed_wf | with_reducible apply slicePasses_wf | with_reducible apply foldl_wf | with_reducible apply foldl_wf_fst | (intro _ _ _) | split | dsimp only)

theorem powerUp_wf (s : State) (hs : Memory.wf s.mem = true) :
    Memory.wf (powerUp s).mem = true := by
  unfold powerUp
  repeat' (first | with_reducible assumption)

theorem tryPowerUp_wf (s : State) (hs : Memory.wf s.mem = true) :
    Memory.wf (tryPowerUp s).mem = true := by
  unfold tryPowerUp
  repeat' (first | with_reducible assumption | with_reducible apply powerUp_wf | with_reducible apply foldl_wf | with_reducible apply foldl_wf_fst | (intro _ _ _) | split | dsimp only)

theorem powerOff_wf (s : State) (hs : Memory.wf s.mem = true) :
    Memory.wf (powerOff s).mem = true := by
  unfold powerOff
  repeat' (first | with_reducible assumption | with_reducible apply blank_wf)

theorem pwrEnAssert_wf (s : State) (hs : Memory.wf s.mem = true) :
    Memory.wf (pwrEnAssert s).mem = true := by
  unfold pwrEnAssert
  repeat' (first | with_reducible assumption | with_reducible apply tryPowerUp_wf)

theorem pwrEnDeassert_wf (s : State) (hs : Memory.wf s.mem = true) :
    Memory.wf (pwrEnDeassert s).mem = true := by
  unfold pwrEnDeassert
  repeat' (first | with_reducible assumption | with_reducible apply powerOff_wf | with_reducible apply foldl_wf | with_reducible apply foldl_wf_fst | (intro _ _ _) | split)

theorem inputTrip_wf (s : State) (removed : Bool) (hs : Memory.wf s.mem = true) :
    Memory.wf (inputTrip s removed).mem = true := by
  unfold inputTrip
  repeat' (first | with_reducible assumption | with_reducible apply powerOff_wf | with_reducible apply foldl_wf | with_reducible apply foldl_wf_fst | (intro _ _ _) | split | dsimp only)

theorem thermalShutdown_wf (s : State) (hs : Memory.wf s.mem = true) :
    Memory.wf (thermalShutdown s).mem = true := by
  unfold thermalShutdown
  repeat' (first | with_reducible assumption | with_reducible apply powerOff_wf | with_reducible apply foldl_wf | with_reducible apply foldl_wf_fst | (intro _ _ _) | split)

theorem safeTrip_wf (s : State) (temp power : Bool) (hs : Memory.wf s.mem = true) :
    Memory.wf (safeTrip s temp power).mem = true := by
  unfold safeTrip
  repeat' (first | with_reducible assumption | with_reducible apply logEvent_wf | with_reducible apply State.odAdd_wf | with_reducible apply foldl_wf | with_reducible apply foldl_wf_fst | (intro _ _ _) | split)

theorem safeTick_wf (s : State) (hs : Memory.wf s.mem = true) :
    Memory.wf (safeTick s).mem = true := by
  unfold safeTick
  repeat' (first | with_reducible assumption | with_reducible apply State.odAdd_wf | with_reducible apply safeTrip_wf | with_reducible apply foldl_wf | with_reducible apply foldl_wf_fst | (intro _ _ _) | split)

theorem safeExit_wf (s : State) (ms : Nat) (hs : Memory.wf s.mem = true) :
    Memory.wf (safeExit s ms).mem = true := by
  unfold safeExit
  repeat' (first | with_reducible assumption | with_reducible apply State.odAdd_wf | with_reducible apply resumeClock_wf | with_reducible apply safeTrip_wf | with_reducible apply foldl_wf | with_reducible apply foldl_wf_fst | (intro _ _ _) | split)

theorem powerTick_wf (s : State) (mv ma watts : Nat) (tj : Int) (hs : Memory.wf s.mem = true) :
    Memory.wf (powerTick s mv ma watts tj).mem = true := by
  unfold powerTick
  repeat' (first | with_reducible assumption | with_reducible apply logEvent_wf | with_reducible apply State.odSet_wf | with_reducible apply State.odAdd_wf | with_reducible apply safeTrip_wf | with_reducible apply safeTick_wf | with_reducible apply foldl_wf | with_reducible apply foldl_wf_fst | (intro _ _ _) | split | dsimp only)

theorem stackReport_wf (s : State) (k : Nat) (t limit : Int) (hs : Memory.wf s.mem = true) :
    Memory.wf (stackReport s k t limit).mem = true := by
  unfold stackReport
  repeat' (first | with_reducible assumption | with_reducible apply logEvent_wf | with_reducible apply State.odSet_wf | with_reducible apply State.odAdd_wf | with_reducible apply foldl_wf | with_reducible apply foldl_wf_fst | (intro _ _ _) | split | dsimp only)

theorem setSide_wf (s : State) (c r : Nat) (v : SideRec) (hs : Memory.wf s.mem = true) :
    Memory.wf (setSide s c r v).mem = true := by
  unfold setSide
  repeat' (first | with_reducible assumption)

theorem clearValid_wf (s : State) (c row n : Nat) (hs : Memory.wf s.mem = true) :
    Memory.wf (clearValid s c row n).mem = true := by
  unfold clearValid
  repeat' (first | with_reducible assumption | with_reducible apply setSide_wf | with_reducible apply foldl_wf | with_reducible apply foldl_wf_fst | (intro _ _ _))

theorem writeSide_wf (s : State) (c row : Nat) (p : Piece) (tag : Nat) (v : StatRec) (hs : Memory.wf s.mem = true) :
    Memory.wf (writeSide s c row p tag v).mem = true := by
  unfold writeSide
  repeat' (first | with_reducible assumption | with_reducible apply setSide_wf)

theorem readSide_wf (s : State) (c row : Nat) (hs : Memory.wf s.mem = true) :
    Memory.wf (readSide s c row).2.mem = true := by
  unfold readSide
  repeat' (first | with_reducible assumption | with_reducible apply State.cellAdd_wf | with_reducible apply foldl_wf | with_reducible apply foldl_wf_fst | (intro _ _ _) | split | dsimp only)

theorem writeMemRec_wf (s : State) (stat i : Nat) (v : StatRec) (hs : Memory.wf s.mem = true) :
    Memory.wf (writeMemRec s stat i v).mem = true := by
  unfold writeMemRec
  repeat' (first | with_reducible assumption | with_reducible apply State.storeP_wf)

theorem statRaw_wf {s : State} {c : Nat} {p : Piece} {d : SkD} {i : Nat} {r : StatRec × State} (e : statRaw s c p d i = some r)
    (h : Memory.wf s.mem = true) : Memory.wf r.2.mem = true := by
  unfold statRaw at e
  extract_lets hit rd at e
  have hs : Memory.wf (readSide s c (d.sideRow + i)).2.mem = true := readSide_wf s c _ h
  split at e
  · split at e
    · rw [← Option.some.inj e]; exact State.cellAdd_wf _ _ _ _ hs
    · cases e
  · rw [← Option.some.inj e]; exact h
  · have e2 := Option.some.inj e
    rw [← e2]
    split
    · exact State.cellAdd_wf _ _ _ _ hs
    · exact State.cellAdd_wf _ _ _ _ h

theorem statOf_wf {s : State} {c : Nat} {p : Piece} {d : SkD} {i : Nat} {r : StatRec × Flags × State} (e : statOf s c p d i = some r)
    (h : Memory.wf s.mem = true) : Memory.wf r.2.2.mem = true := by
  simp only [statOf, Option.map_eq_some_iff] at e
  obtain ⟨q, hq, e⟩ := e
  rw [← e]
  exact statRaw_wf hq h

theorem putStat_wf (s : State) (c : Nat) (p : Piece) (d : SkD) (i : Nat) (v : StatRec) (hs : Memory.wf s.mem = true) :
    Memory.wf (putStat s c p d i v).1.mem = true := by
  unfold putStat
  repeat' (first | with_reducible assumption | with_reducible apply writeMemRec_wf | with_reducible apply writeSide_wf | with_reducible apply foldl_wf | with_reducible apply foldl_wf_fst | (intro _ _ _) | split)

theorem writeSk_wf (s : State) (d : SkD) (i : Nat) (r : RowOut) (hs : Memory.wf s.mem = true) :
    Memory.wf (writeSk s d i r).1.mem = true := by
  unfold writeSk
  repeat' (first | with_reducible assumption | with_reducible apply writeRow_wf)

theorem normFwd_wf (s : State) (c : Nat) (p : Piece) (d : SkD) (hs : Memory.wf s.mem = true) :
    Memory.wf (normFwd s c p d).1.mem = true := by
  unfold normFwd
  repeat' (first | with_reducible assumption | with_reducible apply clearValid_wf | with_reducible apply putStat_wf | with_reducible apply writeSk_wf | with_reducible apply foldl_wf | with_reducible apply foldl_wf_fst | (intro _ _ _) | split)

theorem stageCols_wf (s : State) (c slot : Nat) (d : SkD) (t : ColSums) (hs : Memory.wf s.mem = true) :
    Memory.wf (stageCols s c slot d t).mem = true := by
  unfold stageCols
  repeat' (first | with_reducible assumption | with_reducible apply State.updPiece_wf)

theorem normBwd_wf {s : State} {c : Nat} {p : Piece} {slot : Nat} {d : SkD} {r : State × Flags} (e : normBwd s c p slot d = some r)
    (h : Memory.wf s.mem = true) : Memory.wf r.1.mem = true := by
  have key : ∀ (l : List Nat) (a b : Option (State × Flags × ColSums)), (∀ x, a = some x → Memory.wf x.1.mem = true) →
      l.foldl (fun (a : Option (State × Flags × ColSums)) i =>
        match a with
        | none => none
        | some (s, f, t) =>
          (statOf s c p d i).map fun st =>
            let q := normBwdRow st.2.2 d i st.1
            let w := writeSk st.2.2 d i q.1
            let cg := addCols t.g q.2.1
            let cb := if d.affine = 2 then addCols t.b q.2.2 else (t.b, 0)
            (w.1, f ||| st.2.1 ||| w.2, { g := cg.1, b := cb.1, f := t.f ||| cg.2 ||| cb.2 })) a = b →
      ∀ x, b = some x → Memory.wf x.1.mem = true := by
    intro l
    induction l with
    | nil => intro a b ha hb; subst hb; exact ha
    | cons i l ih =>
      intro a b ha hb
      refine ih _ b ?_ hb
      intro x hx
      cases a with
      | none => simp at hx
      | some q =>
        obtain ⟨t, f, u⟩ := q
        dsimp only at hx
        cases hst : statOf t c p d i with
        | none => simp [hst] at hx
        | some st =>
          simp only [hst, Option.map_some, Option.some.injEq] at hx
          subst hx
          exact writeSk_wf _ _ _ _ (statOf_wf hst (ha _ rfl))
  unfold normBwd at e
  simp only [Option.map_eq_some_iff] at e
  obtain ⟨x, hx, hr⟩ := e
  have hm := key _ _ _ (fun x hx => by cases hx; exact h) hx x rfl
  subst hr
  split
  · exact stageCols_wf _ _ _ _ _ hm
  · exact hm

theorem softFwd_wf (s : State) (c : Nat) (p : Piece) (d : SkD) (hs : Memory.wf s.mem = true) :
    Memory.wf (softFwd s c p d).1.mem = true := by
  unfold softFwd
  repeat' (first | with_reducible assumption | with_reducible apply clearValid_wf | with_reducible apply putStat_wf | with_reducible apply writeSk_wf | with_reducible apply foldl_wf | with_reducible apply foldl_wf_fst | (intro _ _ _) | split)

theorem softBwdY_wf {s : State} {c : Nat} {p : Piece} {d : SkD} {i : Nat} {r : SoftY × State}
    (e : softBwdY s c p d i = some r) (h : Memory.wf s.mem = true) : Memory.wf r.2.mem = true := by
  unfold softBwdY at e
  split at e
  · cases e; exact h
  · simp only [Option.map_eq_some_iff] at e
    obtain ⟨st, hst, hr⟩ := e
    subst hr
    exact statOf_wf hst h

theorem softBwd_wf {s : State} {c : Nat} {p : Piece} {d : SkD} {r : State × Flags} (e : softBwd s c p d = some r)
    (h : Memory.wf s.mem = true) : Memory.wf r.1.mem = true := by
  have key : ∀ (l : List Nat) (a b : Option (State × Flags)), (∀ x, a = some x → Memory.wf x.1.mem = true) →
      l.foldl (fun (a : Option (State × Flags)) i =>
        match a with
        | none => none
        | some (s, f) =>
          (softBwdY s c p d i).map fun y =>
            let w := writeSk y.2 d i (softBwdRow y.2 d i y.1)
            (w.1, f ||| w.2)) a = b →
      ∀ x, b = some x → Memory.wf x.1.mem = true := by
    intro l
    induction l with
    | nil => intro a b ha hb; subst hb; exact ha
    | cons i l ih =>
      intro a b ha hb
      refine ih _ b ?_ hb
      intro x hx
      cases a with
      | none => simp at hx
      | some q =>
        obtain ⟨t, f⟩ := q
        dsimp only at hx
        cases hst : softBwdY t c p d i with
        | none => simp [hst] at hx
        | some st =>
          simp only [hst, Option.map_some, Option.some.injEq] at hx
          subst hx
          exact writeSk_wf _ _ _ _ (softBwdY_wf hst (ha _ rfl))
  unfold softBwd at e
  exact key _ _ _ (fun x hx => by cases hx; exact h) e r rfl

theorem statSave_wf (s : State) (c : Nat) (p : Piece) (d : SkD) (hs : Memory.wf s.mem = true) :
    Memory.wf (statSave s c p d).1.mem = true := by
  unfold statSave
  repeat' (first | with_reducible assumption | with_reducible apply readSide_wf | with_reducible apply writeMemRec_wf | with_reducible apply foldl_wf | with_reducible apply foldl_wf_fst | (intro _ _ _) | split)

theorem statLoad_wf (s : State) (c : Nat) (p : Piece) (d : SkD) (hs : Memory.wf s.mem = true) :
    Memory.wf (statLoad s c p d).1.mem = true := by
  unfold statLoad
  repeat' (first | with_reducible assumption | with_reducible apply clearValid_wf | with_reducible apply writeSide_wf | with_reducible apply foldl_wf | with_reducible apply foldl_wf_fst | (intro _ _ _))

theorem skCmd_wf (s : State) (c op : Nat) (work : State → Piece → Nat → SkD → Option (State × Flags)) (h : Memory.wf s.mem = true)
    (k : ∀ p n d r, work s p n d = some r → Memory.wf r.1.mem = true) : Memory.wf (skCmd s c op work).mem = true := by
  unfold skCmd
  split
  · exact h
  · split
    · exact h
    · split
      · split
        · rename_i r hr; exact itemDone_wf _ _ _ (State.stageFlags_wf _ _ _ (k _ _ _ r hr))
        · exact failPiece_wf _ _ _ _ h
      · exact h

theorem harnessResult_wf (s : State) (c : Nat) (i : Item) (v : Nat) (hs : Memory.wf s.mem = true) :
    Memory.wf (harnessResult s c i v).mem = true := by
  unfold harnessResult
  repeat' (first | with_reducible assumption | with_reducible apply itemDone_wf | with_reducible apply State.wr_wf | with_reducible apply foldl_wf | with_reducible apply foldl_wf_fst | (intro _ _ _) | split)

theorem joinWait_wf (s : State) (c : Nat) (p : Piece) (i : Item) (k : Nat) (w : Wait) (hs : Memory.wf s.mem = true) :
    Memory.wf (joinWait s c p i k w).mem = true := by
  unfold joinWait
  repeat' (first | with_reducible assumption | with_reducible apply State.setObj_wf | with_reducible apply updItem_wf)

theorem waitFor_wf (s : State) (c : Nat) (p : Piece) (i : Item) (k : Nat) (w : Wait) (hs : Memory.wf s.mem = true) :
    Memory.wf (waitFor s c p i k w).mem = true := by
  unfold waitFor
  repeat' (first | with_reducible assumption | with_reducible apply harnessResult_wf | with_reducible apply joinWait_wf | with_reducible apply foldl_wf | with_reducible apply foldl_wf_fst | (intro _ _ _) | split | dsimp only)

theorem takeUnit_wf (s : State) (c k : Nat) (hs : Memory.wf s.mem = true) :
    Memory.wf (takeUnit s c k).mem = true := by
  unfold takeUnit
  repeat' (first | with_reducible assumption | with_reducible apply State.setObj_wf | with_reducible apply State.updPiece_wf)

theorem arriveWait_wf (s : State) (c : Nat) (p : Piece) (i : Item) (k : Nat) (hs : Memory.wf s.mem = true) :
    Memory.wf (arriveWait s c p i k).mem = true := by
  unfold arriveWait
  repeat' (first | with_reducible assumption | with_reducible apply State.setObj_wf | with_reducible apply syncChange_wf | with_reducible apply waitFor_wf | with_reducible apply foldl_wf | with_reducible apply foldl_wf_fst | (intro _ _ _) | split)

theorem harnessWork_wf (s : State) (c : Nat) (p : Piece) (i : Item) (op : SyncOp) (hs : Memory.wf s.mem = true) :
    Memory.wf (harnessWork s c p i op).mem = true := by
  unfold harnessWork
  repeat' (first | with_reducible assumption | with_reducible apply arriveWait_wf | with_reducible apply harnessResult_wf | with_reducible apply itemDone_wf | with_reducible apply joinWait_wf | with_reducible apply State.updPiece_wf | with_reducible apply takeUnit_wf | with_reducible apply waitFor_wf | with_reducible apply foldl_wf | with_reducible apply foldl_wf_fst | (intro _ _ _) | split | dsimp only)

theorem harnessCmd_wf (s : State) (c : Nat) (op : SyncOp) (hs : Memory.wf s.mem = true) :
    Memory.wf (harnessCmd s c op).mem = true := by
  unfold harnessCmd
  repeat' (first | with_reducible assumption | with_reducible apply harnessWork_wf | with_reducible apply foldl_wf | with_reducible apply foldl_wf_fst | (intro _ _ _) | split)

theorem waitRelease_wf (s : State) (c unit cycles : Nat) (hs : Memory.wf s.mem = true) :
    Memory.wf (waitRelease s c unit cycles).mem = true := by
  unfold waitRelease
  repeat' (first | with_reducible assumption | with_reducible apply countStalls_wf | with_reducible apply harnessResult_wf | with_reducible apply updItem_wf | with_reducible apply foldl_wf | with_reducible apply foldl_wf_fst | (intro _ _ _) | split)

theorem farUpdate_wf (s : State) (far amount : Nat) (hs : Memory.wf s.mem = true) :
    Memory.wf (farUpdate s far amount).mem = true := by
  unfold farUpdate
  repeat' (first | with_reducible assumption | with_reducible apply lowWater_wf | with_reducible apply settleObj_wf | with_reducible apply foldl_wf | with_reducible apply foldl_wf_fst | (intro _ _ _) | split)

theorem harnessFrame_wf (s : State) (port cls seq : Nat) (crcOk : Bool) (payload : Nat) (hs : Memory.wf s.mem = true) :
    Memory.wf (harnessFrame s port cls seq crcOk payload).mem = true := by
  unfold harnessFrame
  repeat' (first | with_reducible assumption | with_reducible apply State.send_wf | with_reducible apply foldl_wf | with_reducible apply foldl_wf_fst | (intro _ _ _) | split | dsimp only)

end Sys2Proof.Machine
end

