-- ==== Sys2Proof/Laws/State.lean ====
section
/-! SUPPORT. What the principal updates leave alone, field by field, and reads after writes. -/

namespace Sys2Proof.Machine
namespace State

@[simp] theorem odSet_pending (s : State) (i j v : Nat) : (s.odSet i j v).pending = s.pending := rfl
@[simp] theorem odSet_offset (s : State) (i j v : Nat) : (s.odSet i j v).offset = s.offset := rfl
@[simp] theorem odSet_pllIdle (s : State) (i j v : Nat) : (s.odSet i j v).pllIdle = s.pllIdle := rfl
@[simp] theorem odSet_mem (s : State) (i j v : Nat) : (s.odSet i j v).mem = s.mem := rfl
@[simp] theorem odSet_poison (s : State) (i j v : Nat) : (s.odSet i j v).poison = s.poison := rfl
@[simp] theorem odSet_stitch (s : State) (i j v : Nat) : (s.odSet i j v).stitch = s.stitch := rfl
@[simp] theorem odSet_job (s : State) (i j v : Nat) : (s.odSet i j v).job = s.job := rfl
@[simp] theorem odSet_cells (s : State) (i j v : Nat) : (s.odSet i j v).cells = s.cells := rfl
@[simp] theorem odSet_sync (s : State) (i j v : Nat) : (s.odSet i j v).sync = s.sync := rfl
@[simp] theorem odSet_ctxs (s : State) (i j v : Nat) : (s.odSet i j v).ctxs = s.ctxs := rfl
@[simp] theorem odSet_rings (s : State) (i j v : Nat) : (s.odSet i j v).rings = s.rings := rfl
@[simp] theorem odSet_cmds (s : State) (i j v : Nat) : (s.odSet i j v).cmds = s.cmds := rfl
@[simp] theorem odSet_ports (s : State) (i j v : Nat) : (s.odSet i j v).ports = s.ports := rfl
@[simp] theorem odSet_streams (s : State) (i j v : Nat) : (s.odSet i j v).streams = s.streams := rfl
@[simp] theorem odSet_flash (s : State) (i j v : Nat) : (s.odSet i j v).flash = s.flash := rfl
@[simp] theorem odSet_secure (s : State) (i j v : Nat) : (s.odSet i j v).secure = s.secure := rfl
@[simp] theorem odSet_power (s : State) (i j v : Nat) : (s.odSet i j v).power = s.power := rfl
@[simp] theorem odSet_snaps (s : State) (i j v : Nat) : (s.odSet i j v).snaps = s.snaps := rfl
@[simp] theorem odSet_outbox (s : State) (i j v : Nat) : (s.odSet i j v).outbox = s.outbox := rfl

@[simp] theorem odAdd_pending (s : State) (i j n : Nat) : (s.odAdd i j n).pending = s.pending := rfl
@[simp] theorem odAdd_offset (s : State) (i j n : Nat) : (s.odAdd i j n).offset = s.offset := rfl
@[simp] theorem odAdd_pllIdle (s : State) (i j n : Nat) : (s.odAdd i j n).pllIdle = s.pllIdle := rfl
@[simp] theorem odAdd_mem (s : State) (i j n : Nat) : (s.odAdd i j n).mem = s.mem := rfl
@[simp] theorem odAdd_poison (s : State) (i j n : Nat) : (s.odAdd i j n).poison = s.poison := rfl
@[simp] theorem odAdd_stitch (s : State) (i j n : Nat) : (s.odAdd i j n).stitch = s.stitch := rfl
@[simp] theorem odAdd_job (s : State) (i j n : Nat) : (s.odAdd i j n).job = s.job := rfl
@[simp] theorem odAdd_cells (s : State) (i j n : Nat) : (s.odAdd i j n).cells = s.cells := rfl
@[simp] theorem odAdd_sync (s : State) (i j n : Nat) : (s.odAdd i j n).sync = s.sync := rfl
@[simp] theorem odAdd_ctxs (s : State) (i j n : Nat) : (s.odAdd i j n).ctxs = s.ctxs := rfl
@[simp] theorem odAdd_rings (s : State) (i j n : Nat) : (s.odAdd i j n).rings = s.rings := rfl
@[simp] theorem odAdd_cmds (s : State) (i j n : Nat) : (s.odAdd i j n).cmds = s.cmds := rfl
@[simp] theorem odAdd_ports (s : State) (i j n : Nat) : (s.odAdd i j n).ports = s.ports := rfl
@[simp] theorem odAdd_streams (s : State) (i j n : Nat) : (s.odAdd i j n).streams = s.streams := rfl
@[simp] theorem odAdd_flash (s : State) (i j n : Nat) : (s.odAdd i j n).flash = s.flash := rfl
@[simp] theorem odAdd_secure (s : State) (i j n : Nat) : (s.odAdd i j n).secure = s.secure := rfl
@[simp] theorem odAdd_power (s : State) (i j n : Nat) : (s.odAdd i j n).power = s.power := rfl
@[simp] theorem odAdd_snaps (s : State) (i j n : Nat) : (s.odAdd i j n).snaps = s.snaps := rfl
@[simp] theorem odAdd_outbox (s : State) (i j n : Nat) : (s.odAdd i j n).outbox = s.outbox := rfl

@[simp] theorem setCell_pending (s : State) (c : Nat) (v : Cell) : (s.setCell c v).pending = s.pending := rfl
@[simp] theorem setCell_offset (s : State) (c : Nat) (v : Cell) : (s.setCell c v).offset = s.offset := rfl
@[simp] theorem setCell_pllIdle (s : State) (c : Nat) (v : Cell) : (s.setCell c v).pllIdle = s.pllIdle := rfl
@[simp] theorem setCell_mem (s : State) (c : Nat) (v : Cell) : (s.setCell c v).mem = s.mem := rfl
@[simp] theorem setCell_poison (s : State) (c : Nat) (v : Cell) : (s.setCell c v).poison = s.poison := rfl
@[simp] theorem setCell_od (s : State) (c : Nat) (v : Cell) : (s.setCell c v).od = s.od := rfl
@[simp] theorem setCell_stitch (s : State) (c : Nat) (v : Cell) : (s.setCell c v).stitch = s.stitch := rfl
@[simp] theorem setCell_job (s : State) (c : Nat) (v : Cell) : (s.setCell c v).job = s.job := rfl
@[simp] theorem setCell_sync (s : State) (c : Nat) (v : Cell) : (s.setCell c v).sync = s.sync := rfl
@[simp] theorem setCell_ctxs (s : State) (c : Nat) (v : Cell) : (s.setCell c v).ctxs = s.ctxs := rfl
@[simp] theorem setCell_rings (s : State) (c : Nat) (v : Cell) : (s.setCell c v).rings = s.rings := rfl
@[simp] theorem setCell_cmds (s : State) (c : Nat) (v : Cell) : (s.setCell c v).cmds = s.cmds := rfl
@[simp] theorem setCell_ports (s : State) (c : Nat) (v : Cell) : (s.setCell c v).ports = s.ports := rfl
@[simp] theorem setCell_streams (s : State) (c : Nat) (v : Cell) : (s.setCell c v).streams = s.streams := rfl
@[simp] theorem setCell_flash (s : State) (c : Nat) (v : Cell) : (s.setCell c v).flash = s.flash := rfl
@[simp] theorem setCell_secure (s : State) (c : Nat) (v : Cell) : (s.setCell c v).secure = s.secure := rfl
@[simp] theorem setCell_power (s : State) (c : Nat) (v : Cell) : (s.setCell c v).power = s.power := rfl
@[simp] theorem setCell_snaps (s : State) (c : Nat) (v : Cell) : (s.setCell c v).snaps = s.snaps := rfl
@[simp] theorem setCell_outbox (s : State) (c : Nat) (v : Cell) : (s.setCell c v).outbox = s.outbox := rfl

@[simp] theorem updCell_pending (s : State) (c : Nat) (f : Cell → Cell) : (s.updCell c f).pending = s.pending := rfl
@[simp] theorem updCell_offset (s : State) (c : Nat) (f : Cell → Cell) : (s.updCell c f).offset = s.offset := rfl
@[simp] theorem updCell_pllIdle (s : State) (c : Nat) (f : Cell → Cell) : (s.updCell c f).pllIdle = s.pllIdle := rfl
@[simp] theorem updCell_mem (s : State) (c : Nat) (f : Cell → Cell) : (s.updCell c f).mem = s.mem := rfl
@[simp] theorem updCell_poison (s : State) (c : Nat) (f : Cell → Cell) : (s.updCell c f).poison = s.poison := rfl
@[simp] theorem updCell_od (s : State) (c : Nat) (f : Cell → Cell) : (s.updCell c f).od = s.od := rfl
@[simp] theorem updCell_stitch (s : State) (c : Nat) (f : Cell → Cell) : (s.updCell c f).stitch = s.stitch := rfl
@[simp] theorem updCell_job (s : State) (c : Nat) (f : Cell → Cell) : (s.updCell c f).job = s.job := rfl
@[simp] theorem updCell_sync (s : State) (c : Nat) (f : Cell → Cell) : (s.updCell c f).sync = s.sync := rfl
@[simp] theorem updCell_ctxs (s : State) (c : Nat) (f : Cell → Cell) : (s.updCell c f).ctxs = s.ctxs := rfl
@[simp] theorem updCell_rings (s : State) (c : Nat) (f : Cell → Cell) : (s.updCell c f).rings = s.rings := rfl
@[simp] theorem updCell_cmds (s : State) (c : Nat) (f : Cell → Cell) : (s.updCell c f).cmds = s.cmds := rfl
@[simp] theorem updCell_ports (s : State) (c : Nat) (f : Cell → Cell) : (s.updCell c f).ports = s.ports := rfl
@[simp] theorem updCell_streams (s : State) (c : Nat) (f : Cell → Cell) : (s.updCell c f).streams = s.streams := rfl
@[simp] theorem updCell_flash (s : State) (c : Nat) (f : Cell → Cell) : (s.updCell c f).flash = s.flash := rfl
@[simp] theorem updCell_secure (s : State) (c : Nat) (f : Cell → Cell) : (s.updCell c f).secure = s.secure := rfl
@[simp] theorem updCell_power (s : State) (c : Nat) (f : Cell → Cell) : (s.updCell c f).power = s.power := rfl
@[simp] theorem updCell_snaps (s : State) (c : Nat) (f : Cell → Cell) : (s.updCell c f).snaps = s.snaps := rfl
@[simp] theorem updCell_outbox (s : State) (c : Nat) (f : Cell → Cell) : (s.updCell c f).outbox = s.outbox := rfl

@[simp] theorem updPiece_pending (s : State) (c : Nat) (f : Piece → Piece) : (s.updPiece c f).pending = s.pending := rfl
@[simp] theorem updPiece_offset (s : State) (c : Nat) (f : Piece → Piece) : (s.updPiece c f).offset = s.offset := rfl
@[simp] theorem updPiece_pllIdle (s : State) (c : Nat) (f : Piece → Piece) : (s.updPiece c f).pllIdle = s.pllIdle := rfl
@[simp] theorem updPiece_mem (s : State) (c : Nat) (f : Piece → Piece) : (s.updPiece c f).mem = s.mem := rfl
@[simp] theorem updPiece_poison (s : State) (c : Nat) (f : Piece → Piece) : (s.updPiece c f).poison = s.poison := rfl
@[simp] theorem updPiece_od (s : State) (c : Nat) (f : Piece → Piece) : (s.updPiece c f).od = s.od := rfl
@[simp] theorem updPiece_stitch (s : State) (c : Nat) (f : Piece → Piece) : (s.updPiece c f).stitch = s.stitch := rfl
@[simp] theorem updPiece_job (s : State) (c : Nat) (f : Piece → Piece) : (s.updPiece c f).job = s.job := rfl
@[simp] theorem updPiece_sync (s : State) (c : Nat) (f : Piece → Piece) : (s.updPiece c f).sync = s.sync := rfl
@[simp] theorem updPiece_ctxs (s : State) (c : Nat) (f : Piece → Piece) : (s.updPiece c f).ctxs = s.ctxs := rfl
@[simp] theorem updPiece_rings (s : State) (c : Nat) (f : Piece → Piece) : (s.updPiece c f).rings = s.rings := rfl
@[simp] theorem updPiece_cmds (s : State) (c : Nat) (f : Piece → Piece) : (s.updPiece c f).cmds = s.cmds := rfl
@[simp] theorem updPiece_ports (s : State) (c : Nat) (f : Piece → Piece) : (s.updPiece c f).ports = s.ports := rfl
@[simp] theorem updPiece_streams (s : State) (c : Nat) (f : Piece → Piece) : (s.updPiece c f).streams = s.streams := rfl
@[simp] theorem updPiece_flash (s : State) (c : Nat) (f : Piece → Piece) : (s.updPiece c f).flash = s.flash := rfl
@[simp] theorem updPiece_secure (s : State) (c : Nat) (f : Piece → Piece) : (s.updPiece c f).secure = s.secure := rfl
@[simp] theorem updPiece_power (s : State) (c : Nat) (f : Piece → Piece) : (s.updPiece c f).power = s.power := rfl
@[simp] theorem updPiece_snaps (s : State) (c : Nat) (f : Piece → Piece) : (s.updPiece c f).snaps = s.snaps := rfl
@[simp] theorem updPiece_outbox (s : State) (c : Nat) (f : Piece → Piece) : (s.updPiece c f).outbox = s.outbox := rfl

@[simp] theorem setBlock_pending (s : State) (b : Nat) (v : Block) : (s.setBlock b v).pending = s.pending := rfl
@[simp] theorem setBlock_offset (s : State) (b : Nat) (v : Block) : (s.setBlock b v).offset = s.offset := rfl
@[simp] theorem setBlock_pllIdle (s : State) (b : Nat) (v : Block) : (s.setBlock b v).pllIdle = s.pllIdle := rfl
@[simp] theorem setBlock_mem (s : State) (b : Nat) (v : Block) : (s.setBlock b v).mem = s.mem := rfl
@[simp] theorem setBlock_poison (s : State) (b : Nat) (v : Block) : (s.setBlock b v).poison = s.poison := rfl
@[simp] theorem setBlock_od (s : State) (b : Nat) (v : Block) : (s.setBlock b v).od = s.od := rfl
@[simp] theorem setBlock_stitch (s : State) (b : Nat) (v : Block) : (s.setBlock b v).stitch = s.stitch := rfl
@[simp] theorem setBlock_job (s : State) (b : Nat) (v : Block) : (s.setBlock b v).job = s.job := rfl
@[simp] theorem setBlock_cells (s : State) (b : Nat) (v : Block) : (s.setBlock b v).cells = s.cells := rfl
@[simp] theorem setBlock_sync (s : State) (b : Nat) (v : Block) : (s.setBlock b v).sync = s.sync := rfl
@[simp] theorem setBlock_ctxs (s : State) (b : Nat) (v : Block) : (s.setBlock b v).ctxs = s.ctxs := rfl
@[simp] theorem setBlock_rings (s : State) (b : Nat) (v : Block) : (s.setBlock b v).rings = s.rings := rfl
@[simp] theorem setBlock_cmds (s : State) (b : Nat) (v : Block) : (s.setBlock b v).cmds = s.cmds := rfl
@[simp] theorem setBlock_ports (s : State) (b : Nat) (v : Block) : (s.setBlock b v).ports = s.ports := rfl
@[simp] theorem setBlock_streams (s : State) (b : Nat) (v : Block) : (s.setBlock b v).streams = s.streams := rfl
@[simp] theorem setBlock_flash (s : State) (b : Nat) (v : Block) : (s.setBlock b v).flash = s.flash := rfl
@[simp] theorem setBlock_secure (s : State) (b : Nat) (v : Block) : (s.setBlock b v).secure = s.secure := rfl
@[simp] theorem setBlock_power (s : State) (b : Nat) (v : Block) : (s.setBlock b v).power = s.power := rfl
@[simp] theorem setBlock_snaps (s : State) (b : Nat) (v : Block) : (s.setBlock b v).snaps = s.snaps := rfl
@[simp] theorem setBlock_outbox (s : State) (b : Nat) (v : Block) : (s.setBlock b v).outbox = s.outbox := rfl

@[simp] theorem updPhys_pending (s : State) (k p : Nat) (f : Phys → Phys) : (s.updPhys k p f).pending = s.pending := rfl
@[simp] theorem updPhys_offset (s : State) (k p : Nat) (f : Phys → Phys) : (s.updPhys k p f).offset = s.offset := rfl
@[simp] theorem updPhys_pllIdle (s : State) (k p : Nat) (f : Phys → Phys) : (s.updPhys k p f).pllIdle = s.pllIdle := rfl
@[simp] theorem updPhys_mem (s : State) (k p : Nat) (f : Phys → Phys) : (s.updPhys k p f).mem = s.mem := rfl
@[simp] theorem updPhys_poison (s : State) (k p : Nat) (f : Phys → Phys) : (s.updPhys k p f).poison = s.poison := rfl
@[simp] theorem updPhys_od (s : State) (k p : Nat) (f : Phys → Phys) : (s.updPhys k p f).od = s.od := rfl
@[simp] theorem updPhys_stitch (s : State) (k p : Nat) (f : Phys → Phys) : (s.updPhys k p f).stitch = s.stitch := rfl
@[simp] theorem updPhys_job (s : State) (k p : Nat) (f : Phys → Phys) : (s.updPhys k p f).job = s.job := rfl
@[simp] theorem updPhys_cells (s : State) (k p : Nat) (f : Phys → Phys) : (s.updPhys k p f).cells = s.cells := rfl
@[simp] theorem updPhys_sync (s : State) (k p : Nat) (f : Phys → Phys) : (s.updPhys k p f).sync = s.sync := rfl
@[simp] theorem updPhys_ctxs (s : State) (k p : Nat) (f : Phys → Phys) : (s.updPhys k p f).ctxs = s.ctxs := rfl
@[simp] theorem updPhys_rings (s : State) (k p : Nat) (f : Phys → Phys) : (s.updPhys k p f).rings = s.rings := rfl
@[simp] theorem updPhys_cmds (s : State) (k p : Nat) (f : Phys → Phys) : (s.updPhys k p f).cmds = s.cmds := rfl
@[simp] theorem updPhys_ports (s : State) (k p : Nat) (f : Phys → Phys) : (s.updPhys k p f).ports = s.ports := rfl
@[simp] theorem updPhys_streams (s : State) (k p : Nat) (f : Phys → Phys) : (s.updPhys k p f).streams = s.streams := rfl
@[simp] theorem updPhys_flash (s : State) (k p : Nat) (f : Phys → Phys) : (s.updPhys k p f).flash = s.flash := rfl
@[simp] theorem updPhys_secure (s : State) (k p : Nat) (f : Phys → Phys) : (s.updPhys k p f).secure = s.secure := rfl
@[simp] theorem updPhys_power (s : State) (k p : Nat) (f : Phys → Phys) : (s.updPhys k p f).power = s.power := rfl
@[simp] theorem updPhys_snaps (s : State) (k p : Nat) (f : Phys → Phys) : (s.updPhys k p f).snaps = s.snaps := rfl
@[simp] theorem updPhys_outbox (s : State) (k p : Nat) (f : Phys → Phys) : (s.updPhys k p f).outbox = s.outbox := rfl

@[simp] theorem cellAdd_pending (s : State) (c k n : Nat) : (s.cellAdd c k n).pending = s.pending := rfl
@[simp] theorem cellAdd_offset (s : State) (c k n : Nat) : (s.cellAdd c k n).offset = s.offset := rfl
@[simp] theorem cellAdd_pllIdle (s : State) (c k n : Nat) : (s.cellAdd c k n).pllIdle = s.pllIdle := rfl
@[simp] theorem cellAdd_mem (s : State) (c k n : Nat) : (s.cellAdd c k n).mem = s.mem := rfl
@[simp] theorem cellAdd_poison (s : State) (c k n : Nat) : (s.cellAdd c k n).poison = s.poison := rfl
@[simp] theorem cellAdd_od (s : State) (c k n : Nat) : (s.cellAdd c k n).od = s.od := rfl
@[simp] theorem cellAdd_stitch (s : State) (c k n : Nat) : (s.cellAdd c k n).stitch = s.stitch := rfl
@[simp] theorem cellAdd_job (s : State) (c k n : Nat) : (s.cellAdd c k n).job = s.job := rfl
@[simp] theorem cellAdd_cells (s : State) (c k n : Nat) : (s.cellAdd c k n).cells = s.cells := rfl
@[simp] theorem cellAdd_sync (s : State) (c k n : Nat) : (s.cellAdd c k n).sync = s.sync := rfl
@[simp] theorem cellAdd_ctxs (s : State) (c k n : Nat) : (s.cellAdd c k n).ctxs = s.ctxs := rfl
@[simp] theorem cellAdd_rings (s : State) (c k n : Nat) : (s.cellAdd c k n).rings = s.rings := rfl
@[simp] theorem cellAdd_cmds (s : State) (c k n : Nat) : (s.cellAdd c k n).cmds = s.cmds := rfl
@[simp] theorem cellAdd_ports (s : State) (c k n : Nat) : (s.cellAdd c k n).ports = s.ports := rfl
@[simp] theorem cellAdd_streams (s : State) (c k n : Nat) : (s.cellAdd c k n).streams = s.streams := rfl
@[simp] theorem cellAdd_flash (s : State) (c k n : Nat) : (s.cellAdd c k n).flash = s.flash := rfl
@[simp] theorem cellAdd_secure (s : State) (c k n : Nat) : (s.cellAdd c k n).secure = s.secure := rfl
@[simp] theorem cellAdd_power (s : State) (c k n : Nat) : (s.cellAdd c k n).power = s.power := rfl
@[simp] theorem cellAdd_snaps (s : State) (c k n : Nat) : (s.cellAdd c k n).snaps = s.snaps := rfl
@[simp] theorem cellAdd_outbox (s : State) (c k n : Nat) : (s.cellAdd c k n).outbox = s.outbox := rfl

@[simp] theorem wrByte_pending (s : State) (a : Nat) (b : Byte) : (s.wrByte a b).pending = s.pending := rfl
@[simp] theorem wrByte_offset (s : State) (a : Nat) (b : Byte) : (s.wrByte a b).offset = s.offset := rfl
@[simp] theorem wrByte_pllIdle (s : State) (a : Nat) (b : Byte) : (s.wrByte a b).pllIdle = s.pllIdle := rfl
@[simp] theorem wrByte_poison (s : State) (a : Nat) (b : Byte) : (s.wrByte a b).poison = s.poison := rfl
@[simp] theorem wrByte_od (s : State) (a : Nat) (b : Byte) : (s.wrByte a b).od = s.od := rfl
@[simp] theorem wrByte_stitch (s : State) (a : Nat) (b : Byte) : (s.wrByte a b).stitch = s.stitch := rfl
@[simp] theorem wrByte_job (s : State) (a : Nat) (b : Byte) : (s.wrByte a b).job = s.job := rfl
@[simp] theorem wrByte_cells (s : State) (a : Nat) (b : Byte) : (s.wrByte a b).cells = s.cells := rfl
@[simp] theorem wrByte_sync (s : State) (a : Nat) (b : Byte) : (s.wrByte a b).sync = s.sync := rfl
@[simp] theorem wrByte_ctxs (s : State) (a : Nat) (b : Byte) : (s.wrByte a b).ctxs = s.ctxs := rfl
@[simp] theorem wrByte_rings (s : State) (a : Nat) (b : Byte) : (s.wrByte a b).rings = s.rings := rfl
@[simp] theorem wrByte_cmds (s : State) (a : Nat) (b : Byte) : (s.wrByte a b).cmds = s.cmds := rfl
@[simp] theorem wrByte_ports (s : State) (a : Nat) (b : Byte) : (s.wrByte a b).ports = s.ports := rfl
@[simp] theorem wrByte_streams (s : State) (a : Nat) (b : Byte) : (s.wrByte a b).streams = s.streams := rfl
@[simp] theorem wrByte_flash (s : State) (a : Nat) (b : Byte) : (s.wrByte a b).flash = s.flash := rfl
@[simp] theorem wrByte_secure (s : State) (a : Nat) (b : Byte) : (s.wrByte a b).secure = s.secure := rfl
@[simp] theorem wrByte_power (s : State) (a : Nat) (b : Byte) : (s.wrByte a b).power = s.power := rfl
@[simp] theorem wrByte_snaps (s : State) (a : Nat) (b : Byte) : (s.wrByte a b).snaps = s.snaps := rfl
@[simp] theorem wrByte_outbox (s : State) (a : Nat) (b : Byte) : (s.wrByte a b).outbox = s.outbox := rfl

@[simp] theorem markPoison_pending (s : State) (a n : Nat) (bad : List Nat) : (s.markPoison a n bad).pending = s.pending := rfl
@[simp] theorem markPoison_offset (s : State) (a n : Nat) (bad : List Nat) : (s.markPoison a n bad).offset = s.offset := rfl
@[simp] theorem markPoison_pllIdle (s : State) (a n : Nat) (bad : List Nat) : (s.markPoison a n bad).pllIdle = s.pllIdle := rfl
@[simp] theorem markPoison_mem (s : State) (a n : Nat) (bad : List Nat) : (s.markPoison a n bad).mem = s.mem := rfl
@[simp] theorem markPoison_od (s : State) (a n : Nat) (bad : List Nat) : (s.markPoison a n bad).od = s.od := rfl
@[simp] theorem markPoison_stitch (s : State) (a n : Nat) (bad : List Nat) : (s.markPoison a n bad).stitch = s.stitch := rfl
@[simp] theorem markPoison_job (s : State) (a n : Nat) (bad : List Nat) : (s.markPoison a n bad).job = s.job := rfl
@[simp] theorem markPoison_cells (s : State) (a n : Nat) (bad : List Nat) : (s.markPoison a n bad).cells = s.cells := rfl
@[simp] theorem markPoison_sync (s : State) (a n : Nat) (bad : List Nat) : (s.markPoison a n bad).sync = s.sync := rfl
@[simp] theorem markPoison_ctxs (s : State) (a n : Nat) (bad : List Nat) : (s.markPoison a n bad).ctxs = s.ctxs := rfl
@[simp] theorem markPoison_rings (s : State) (a n : Nat) (bad : List Nat) : (s.markPoison a n bad).rings = s.rings := rfl
@[simp] theorem markPoison_cmds (s : State) (a n : Nat) (bad : List Nat) : (s.markPoison a n bad).cmds = s.cmds := rfl
@[simp] theorem markPoison_ports (s : State) (a n : Nat) (bad : List Nat) : (s.markPoison a n bad).ports = s.ports := rfl
@[simp] theorem markPoison_streams (s : State) (a n : Nat) (bad : List Nat) : (s.markPoison a n bad).streams = s.streams := rfl
@[simp] theorem markPoison_flash (s : State) (a n : Nat) (bad : List Nat) : (s.markPoison a n bad).flash = s.flash := rfl
@[simp] theorem markPoison_secure (s : State) (a n : Nat) (bad : List Nat) : (s.markPoison a n bad).secure = s.secure := rfl
@[simp] theorem markPoison_power (s : State) (a n : Nat) (bad : List Nat) : (s.markPoison a n bad).power = s.power := rfl
@[simp] theorem markPoison_snaps (s : State) (a n : Nat) (bad : List Nat) : (s.markPoison a n bad).snaps = s.snaps := rfl
@[simp] theorem markPoison_outbox (s : State) (a n : Nat) (bad : List Nat) : (s.markPoison a n bad).outbox = s.outbox := rfl

@[simp] theorem stageFlags_pending (s : State) (c : Nat) (f : Flags) : (s.stageFlags c f).pending = s.pending := rfl
@[simp] theorem stageFlags_offset (s : State) (c : Nat) (f : Flags) : (s.stageFlags c f).offset = s.offset := rfl
@[simp] theorem stageFlags_pllIdle (s : State) (c : Nat) (f : Flags) : (s.stageFlags c f).pllIdle = s.pllIdle := rfl
@[simp] theorem stageFlags_mem (s : State) (c : Nat) (f : Flags) : (s.stageFlags c f).mem = s.mem := rfl
@[simp] theorem stageFlags_poison (s : State) (c : Nat) (f : Flags) : (s.stageFlags c f).poison = s.poison := rfl
@[simp] theorem stageFlags_od (s : State) (c : Nat) (f : Flags) : (s.stageFlags c f).od = s.od := rfl
@[simp] theorem stageFlags_stitch (s : State) (c : Nat) (f : Flags) : (s.stageFlags c f).stitch = s.stitch := rfl
@[simp] theorem stageFlags_job (s : State) (c : Nat) (f : Flags) : (s.stageFlags c f).job = s.job := rfl
@[simp] theorem stageFlags_sync (s : State) (c : Nat) (f : Flags) : (s.stageFlags c f).sync = s.sync := rfl
@[simp] theorem stageFlags_ctxs (s : State) (c : Nat) (f : Flags) : (s.stageFlags c f).ctxs = s.ctxs := rfl
@[simp] theorem stageFlags_rings (s : State) (c : Nat) (f : Flags) : (s.stageFlags c f).rings = s.rings := rfl
@[simp] theorem stageFlags_cmds (s : State) (c : Nat) (f : Flags) : (s.stageFlags c f).cmds = s.cmds := rfl
@[simp] theorem stageFlags_ports (s : State) (c : Nat) (f : Flags) : (s.stageFlags c f).ports = s.ports := rfl
@[simp] theorem stageFlags_streams (s : State) (c : Nat) (f : Flags) : (s.stageFlags c f).streams = s.streams := rfl
@[simp] theorem stageFlags_flash (s : State) (c : Nat) (f : Flags) : (s.stageFlags c f).flash = s.flash := rfl
@[simp] theorem stageFlags_secure (s : State) (c : Nat) (f : Flags) : (s.stageFlags c f).secure = s.secure := rfl
@[simp] theorem stageFlags_power (s : State) (c : Nat) (f : Flags) : (s.stageFlags c f).power = s.power := rfl
@[simp] theorem stageFlags_snaps (s : State) (c : Nat) (f : Flags) : (s.stageFlags c f).snaps = s.snaps := rfl
@[simp] theorem stageFlags_outbox (s : State) (c : Nat) (f : Flags) : (s.stageFlags c f).outbox = s.outbox := rfl

@[simp] theorem orCellFlags_pending (s : State) (c : Nat) (f : Flags) : (s.orCellFlags c f).pending = s.pending := rfl
@[simp] theorem orCellFlags_offset (s : State) (c : Nat) (f : Flags) : (s.orCellFlags c f).offset = s.offset := rfl
@[simp] theorem orCellFlags_pllIdle (s : State) (c : Nat) (f : Flags) : (s.orCellFlags c f).pllIdle = s.pllIdle := rfl
@[simp] theorem orCellFlags_mem (s : State) (c : Nat) (f : Flags) : (s.orCellFlags c f).mem = s.mem := rfl
@[simp] theorem orCellFlags_poison (s : State) (c : Nat) (f : Flags) : (s.orCellFlags c f).poison = s.poison := rfl
@[simp] theorem orCellFlags_od (s : State) (c : Nat) (f : Flags) : (s.orCellFlags c f).od = s.od := rfl
@[simp] theorem orCellFlags_stitch (s : State) (c : Nat) (f : Flags) : (s.orCellFlags c f).stitch = s.stitch := rfl
@[simp] theorem orCellFlags_job (s : State) (c : Nat) (f : Flags) : (s.orCellFlags c f).job = s.job := rfl
@[simp] theorem orCellFlags_cells (s : State) (c : Nat) (f : Flags) : (s.orCellFlags c f).cells = s.cells := rfl
@[simp] theorem orCellFlags_sync (s : State) (c : Nat) (f : Flags) : (s.orCellFlags c f).sync = s.sync := rfl
@[simp] theorem orCellFlags_ctxs (s : State) (c : Nat) (f : Flags) : (s.orCellFlags c f).ctxs = s.ctxs := rfl
@[simp] theorem orCellFlags_rings (s : State) (c : Nat) (f : Flags) : (s.orCellFlags c f).rings = s.rings := rfl
@[simp] theorem orCellFlags_cmds (s : State) (c : Nat) (f : Flags) : (s.orCellFlags c f).cmds = s.cmds := rfl
@[simp] theorem orCellFlags_ports (s : State) (c : Nat) (f : Flags) : (s.orCellFlags c f).ports = s.ports := rfl
@[simp] theorem orCellFlags_streams (s : State) (c : Nat) (f : Flags) : (s.orCellFlags c f).streams = s.streams := rfl
@[simp] theorem orCellFlags_flash (s : State) (c : Nat) (f : Flags) : (s.orCellFlags c f).flash = s.flash := rfl
@[simp] theorem orCellFlags_secure (s : State) (c : Nat) (f : Flags) : (s.orCellFlags c f).secure = s.secure := rfl
@[simp] theorem orCellFlags_power (s : State) (c : Nat) (f : Flags) : (s.orCellFlags c f).power = s.power := rfl
@[simp] theorem orCellFlags_snaps (s : State) (c : Nat) (f : Flags) : (s.orCellFlags c f).snaps = s.snaps := rfl
@[simp] theorem orCellFlags_outbox (s : State) (c : Nat) (f : Flags) : (s.orCellFlags c f).outbox = s.outbox := rfl

@[simp] theorem setObj_pending (s : State) (i : Nat) (o : SyncObj) : (s.setObj i o).pending = s.pending := rfl
@[simp] theorem setObj_offset (s : State) (i : Nat) (o : SyncObj) : (s.setObj i o).offset = s.offset := rfl
@[simp] theorem setObj_pllIdle (s : State) (i : Nat) (o : SyncObj) : (s.setObj i o).pllIdle = s.pllIdle := rfl
@[simp] theorem setObj_mem (s : State) (i : Nat) (o : SyncObj) : (s.setObj i o).mem = s.mem := rfl
@[simp] theorem setObj_poison (s : State) (i : Nat) (o : SyncObj) : (s.setObj i o).poison = s.poison := rfl
@[simp] theorem setObj_od (s : State) (i : Nat) (o : SyncObj) : (s.setObj i o).od = s.od := rfl
@[simp] theorem setObj_stitch (s : State) (i : Nat) (o : SyncObj) : (s.setObj i o).stitch = s.stitch := rfl
@[simp] theorem setObj_job (s : State) (i : Nat) (o : SyncObj) : (s.setObj i o).job = s.job := rfl
@[simp] theorem setObj_cells (s : State) (i : Nat) (o : SyncObj) : (s.setObj i o).cells = s.cells := rfl
@[simp] theorem setObj_ctxs (s : State) (i : Nat) (o : SyncObj) : (s.setObj i o).ctxs = s.ctxs := rfl
@[simp] theorem setObj_rings (s : State) (i : Nat) (o : SyncObj) : (s.setObj i o).rings = s.rings := rfl
@[simp] theorem setObj_cmds (s : State) (i : Nat) (o : SyncObj) : (s.setObj i o).cmds = s.cmds := rfl
@[simp] theorem setObj_ports (s : State) (i : Nat) (o : SyncObj) : (s.setObj i o).ports = s.ports := rfl
@[simp] theorem setObj_streams (s : State) (i : Nat) (o : SyncObj) : (s.setObj i o).streams = s.streams := rfl
@[simp] theorem setObj_flash (s : State) (i : Nat) (o : SyncObj) : (s.setObj i o).flash = s.flash := rfl
@[simp] theorem setObj_secure (s : State) (i : Nat) (o : SyncObj) : (s.setObj i o).secure = s.secure := rfl
@[simp] theorem setObj_power (s : State) (i : Nat) (o : SyncObj) : (s.setObj i o).power = s.power := rfl
@[simp] theorem setObj_snaps (s : State) (i : Nat) (o : SyncObj) : (s.setObj i o).snaps = s.snaps := rfl
@[simp] theorem setObj_outbox (s : State) (i : Nat) (o : SyncObj) : (s.setObj i o).outbox = s.outbox := rfl

@[simp] theorem setCtx_pending (s : State) (c : Nat) (v : Ctx) : (s.setCtx c v).pending = s.pending := rfl
@[simp] theorem setCtx_offset (s : State) (c : Nat) (v : Ctx) : (s.setCtx c v).offset = s.offset := rfl
@[simp] theorem setCtx_pllIdle (s : State) (c : Nat) (v : Ctx) : (s.setCtx c v).pllIdle = s.pllIdle := rfl
@[simp] theorem setCtx_mem (s : State) (c : Nat) (v : Ctx) : (s.setCtx c v).mem = s.mem := rfl
@[simp] theorem setCtx_poison (s : State) (c : Nat) (v : Ctx) : (s.setCtx c v).poison = s.poison := rfl
@[simp] theorem setCtx_od (s : State) (c : Nat) (v : Ctx) : (s.setCtx c v).od = s.od := rfl
@[simp] theorem setCtx_stitch (s : State) (c : Nat) (v : Ctx) : (s.setCtx c v).stitch = s.stitch := rfl
@[simp] theorem setCtx_job (s : State) (c : Nat) (v : Ctx) : (s.setCtx c v).job = s.job := rfl
@[simp] theorem setCtx_cells (s : State) (c : Nat) (v : Ctx) : (s.setCtx c v).cells = s.cells := rfl
@[simp] theorem setCtx_sync (s : State) (c : Nat) (v : Ctx) : (s.setCtx c v).sync = s.sync := rfl
@[simp] theorem setCtx_rings (s : State) (c : Nat) (v : Ctx) : (s.setCtx c v).rings = s.rings := rfl
@[simp] theorem setCtx_cmds (s : State) (c : Nat) (v : Ctx) : (s.setCtx c v).cmds = s.cmds := rfl
@[simp] theorem setCtx_ports (s : State) (c : Nat) (v : Ctx) : (s.setCtx c v).ports = s.ports := rfl
@[simp] theorem setCtx_streams (s : State) (c : Nat) (v : Ctx) : (s.setCtx c v).streams = s.streams := rfl
@[simp] theorem setCtx_flash (s : State) (c : Nat) (v : Ctx) : (s.setCtx c v).flash = s.flash := rfl
@[simp] theorem setCtx_secure (s : State) (c : Nat) (v : Ctx) : (s.setCtx c v).secure = s.secure := rfl
@[simp] theorem setCtx_power (s : State) (c : Nat) (v : Ctx) : (s.setCtx c v).power = s.power := rfl
@[simp] theorem setCtx_snaps (s : State) (c : Nat) (v : Ctx) : (s.setCtx c v).snaps = s.snaps := rfl
@[simp] theorem setCtx_outbox (s : State) (c : Nat) (v : Ctx) : (s.setCtx c v).outbox = s.outbox := rfl

@[simp] theorem setRing_pending (s : State) (n : Nat) (r : Ring) : (s.setRing n r).pending = s.pending := rfl
@[simp] theorem setRing_offset (s : State) (n : Nat) (r : Ring) : (s.setRing n r).offset = s.offset := rfl
@[simp] theorem setRing_pllIdle (s : State) (n : Nat) (r : Ring) : (s.setRing n r).pllIdle = s.pllIdle := rfl
@[simp] theorem setRing_mem (s : State) (n : Nat) (r : Ring) : (s.setRing n r).mem = s.mem := rfl
@[simp] theorem setRing_poison (s : State) (n : Nat) (r : Ring) : (s.setRing n r).poison = s.poison := rfl
@[simp] theorem setRing_od (s : State) (n : Nat) (r : Ring) : (s.setRing n r).od = s.od := rfl
@[simp] theorem setRing_stitch (s : State) (n : Nat) (r : Ring) : (s.setRing n r).stitch = s.stitch := rfl
@[simp] theorem setRing_job (s : State) (n : Nat) (r : Ring) : (s.setRing n r).job = s.job := rfl
@[simp] theorem setRing_cells (s : State) (n : Nat) (r : Ring) : (s.setRing n r).cells = s.cells := rfl
@[simp] theorem setRing_sync (s : State) (n : Nat) (r : Ring) : (s.setRing n r).sync = s.sync := rfl
@[simp] theorem setRing_ctxs (s : State) (n : Nat) (r : Ring) : (s.setRing n r).ctxs = s.ctxs := rfl
@[simp] theorem setRing_cmds (s : State) (n : Nat) (r : Ring) : (s.setRing n r).cmds = s.cmds := rfl
@[simp] theorem setRing_ports (s : State) (n : Nat) (r : Ring) : (s.setRing n r).ports = s.ports := rfl
@[simp] theorem setRing_streams (s : State) (n : Nat) (r : Ring) : (s.setRing n r).streams = s.streams := rfl
@[simp] theorem setRing_flash (s : State) (n : Nat) (r : Ring) : (s.setRing n r).flash = s.flash := rfl
@[simp] theorem setRing_secure (s : State) (n : Nat) (r : Ring) : (s.setRing n r).secure = s.secure := rfl
@[simp] theorem setRing_power (s : State) (n : Nat) (r : Ring) : (s.setRing n r).power = s.power := rfl
@[simp] theorem setRing_snaps (s : State) (n : Nat) (r : Ring) : (s.setRing n r).snaps = s.snaps := rfl
@[simp] theorem setRing_outbox (s : State) (n : Nat) (r : Ring) : (s.setRing n r).outbox = s.outbox := rfl

@[simp] theorem updCmd_pending (s : State) (id : Nat) (f : Cmd → Cmd) : (s.updCmd id f).pending = s.pending := rfl
@[simp] theorem updCmd_offset (s : State) (id : Nat) (f : Cmd → Cmd) : (s.updCmd id f).offset = s.offset := rfl
@[simp] theorem updCmd_pllIdle (s : State) (id : Nat) (f : Cmd → Cmd) : (s.updCmd id f).pllIdle = s.pllIdle := rfl
@[simp] theorem updCmd_mem (s : State) (id : Nat) (f : Cmd → Cmd) : (s.updCmd id f).mem = s.mem := rfl
@[simp] theorem updCmd_poison (s : State) (id : Nat) (f : Cmd → Cmd) : (s.updCmd id f).poison = s.poison := rfl
@[simp] theorem updCmd_od (s : State) (id : Nat) (f : Cmd → Cmd) : (s.updCmd id f).od = s.od := rfl
@[simp] theorem updCmd_stitch (s : State) (id : Nat) (f : Cmd → Cmd) : (s.updCmd id f).stitch = s.stitch := rfl
@[simp] theorem updCmd_job (s : State) (id : Nat) (f : Cmd → Cmd) : (s.updCmd id f).job = s.job := rfl
@[simp] theorem updCmd_cells (s : State) (id : Nat) (f : Cmd → Cmd) : (s.updCmd id f).cells = s.cells := rfl
@[simp] theorem updCmd_sync (s : State) (id : Nat) (f : Cmd → Cmd) : (s.updCmd id f).sync = s.sync := rfl
@[simp] theorem updCmd_ctxs (s : State) (id : Nat) (f : Cmd → Cmd) : (s.updCmd id f).ctxs = s.ctxs := rfl
@[simp] theorem updCmd_rings (s : State) (id : Nat) (f : Cmd → Cmd) : (s.updCmd id f).rings = s.rings := rfl
@[simp] theorem updCmd_ports (s : State) (id : Nat) (f : Cmd → Cmd) : (s.updCmd id f).ports = s.ports := rfl
@[simp] theorem updCmd_streams (s : State) (id : Nat) (f : Cmd → Cmd) : (s.updCmd id f).streams = s.streams := rfl
@[simp] theorem updCmd_flash (s : State) (id : Nat) (f : Cmd → Cmd) : (s.updCmd id f).flash = s.flash := rfl
@[simp] theorem updCmd_secure (s : State) (id : Nat) (f : Cmd → Cmd) : (s.updCmd id f).secure = s.secure := rfl
@[simp] theorem updCmd_power (s : State) (id : Nat) (f : Cmd → Cmd) : (s.updCmd id f).power = s.power := rfl
@[simp] theorem updCmd_snaps (s : State) (id : Nat) (f : Cmd → Cmd) : (s.updCmd id f).snaps = s.snaps := rfl
@[simp] theorem updCmd_outbox (s : State) (id : Nat) (f : Cmd → Cmd) : (s.updCmd id f).outbox = s.outbox := rfl

@[simp] theorem setPort_pending (s : State) (p : Nat) (v : Port) : (s.setPort p v).pending = s.pending := rfl
@[simp] theorem setPort_offset (s : State) (p : Nat) (v : Port) : (s.setPort p v).offset = s.offset := rfl
@[simp] theorem setPort_pllIdle (s : State) (p : Nat) (v : Port) : (s.setPort p v).pllIdle = s.pllIdle := rfl
@[simp] theorem setPort_mem (s : State) (p : Nat) (v : Port) : (s.setPort p v).mem = s.mem := rfl
@[simp] theorem setPort_poison (s : State) (p : Nat) (v : Port) : (s.setPort p v).poison = s.poison := rfl
@[simp] theorem setPort_od (s : State) (p : Nat) (v : Port) : (s.setPort p v).od = s.od := rfl
@[simp] theorem setPort_stitch (s : State) (p : Nat) (v : Port) : (s.setPort p v).stitch = s.stitch := rfl
@[simp] theorem setPort_job (s : State) (p : Nat) (v : Port) : (s.setPort p v).job = s.job := rfl
@[simp] theorem setPort_cells (s : State) (p : Nat) (v : Port) : (s.setPort p v).cells = s.cells := rfl
@[simp] theorem setPort_sync (s : State) (p : Nat) (v : Port) : (s.setPort p v).sync = s.sync := rfl
@[simp] theorem setPort_ctxs (s : State) (p : Nat) (v : Port) : (s.setPort p v).ctxs = s.ctxs := rfl
@[simp] theorem setPort_rings (s : State) (p : Nat) (v : Port) : (s.setPort p v).rings = s.rings := rfl
@[simp] theorem setPort_cmds (s : State) (p : Nat) (v : Port) : (s.setPort p v).cmds = s.cmds := rfl
@[simp] theorem setPort_streams (s : State) (p : Nat) (v : Port) : (s.setPort p v).streams = s.streams := rfl
@[simp] theorem setPort_flash (s : State) (p : Nat) (v : Port) : (s.setPort p v).flash = s.flash := rfl
@[simp] theorem setPort_secure (s : State) (p : Nat) (v : Port) : (s.setPort p v).secure = s.secure := rfl
@[simp] theorem setPort_power (s : State) (p : Nat) (v : Port) : (s.setPort p v).power = s.power := rfl
@[simp] theorem setPort_snaps (s : State) (p : Nat) (v : Port) : (s.setPort p v).snaps = s.snaps := rfl
@[simp] theorem setPort_outbox (s : State) (p : Nat) (v : Port) : (s.setPort p v).outbox = s.outbox := rfl

@[simp] theorem updPort_pending (s : State) (p : Nat) (f : Port → Port) : (s.updPort p f).pending = s.pending := rfl
@[simp] theorem updPort_offset (s : State) (p : Nat) (f : Port → Port) : (s.updPort p f).offset = s.offset := rfl
@[simp] theorem updPort_pllIdle (s : State) (p : Nat) (f : Port → Port) : (s.updPort p f).pllIdle = s.pllIdle := rfl
@[simp] theorem updPort_mem (s : State) (p : Nat) (f : Port → Port) : (s.updPort p f).mem = s.mem := rfl
@[simp] theorem updPort_poison (s : State) (p : Nat) (f : Port → Port) : (s.updPort p f).poison = s.poison := rfl
@[simp] theorem updPort_od (s : State) (p : Nat) (f : Port → Port) : (s.updPort p f).od = s.od := rfl
@[simp] theorem updPort_stitch (s : State) (p : Nat) (f : Port → Port) : (s.updPort p f).stitch = s.stitch := rfl
@[simp] theorem updPort_job (s : State) (p : Nat) (f : Port → Port) : (s.updPort p f).job = s.job := rfl
@[simp] theorem updPort_cells (s : State) (p : Nat) (f : Port → Port) : (s.updPort p f).cells = s.cells := rfl
@[simp] theorem updPort_sync (s : State) (p : Nat) (f : Port → Port) : (s.updPort p f).sync = s.sync := rfl
@[simp] theorem updPort_ctxs (s : State) (p : Nat) (f : Port → Port) : (s.updPort p f).ctxs = s.ctxs := rfl
@[simp] theorem updPort_rings (s : State) (p : Nat) (f : Port → Port) : (s.updPort p f).rings = s.rings := rfl
@[simp] theorem updPort_cmds (s : State) (p : Nat) (f : Port → Port) : (s.updPort p f).cmds = s.cmds := rfl
@[simp] theorem updPort_streams (s : State) (p : Nat) (f : Port → Port) : (s.updPort p f).streams = s.streams := rfl
@[simp] theorem updPort_flash (s : State) (p : Nat) (f : Port → Port) : (s.updPort p f).flash = s.flash := rfl
@[simp] theorem updPort_secure (s : State) (p : Nat) (f : Port → Port) : (s.updPort p f).secure = s.secure := rfl
@[simp] theorem updPort_power (s : State) (p : Nat) (f : Port → Port) : (s.updPort p f).power = s.power := rfl
@[simp] theorem updPort_snaps (s : State) (p : Nat) (f : Port → Port) : (s.updPort p f).snaps = s.snaps := rfl
@[simp] theorem updPort_outbox (s : State) (p : Nat) (f : Port → Port) : (s.updPort p f).outbox = s.outbox := rfl

@[simp] theorem updFab_pending (s : State) (id : Nat) (f : FabOp → FabOp) : (s.updFab id f).pending = s.pending := rfl
@[simp] theorem updFab_offset (s : State) (id : Nat) (f : FabOp → FabOp) : (s.updFab id f).offset = s.offset := rfl
@[simp] theorem updFab_pllIdle (s : State) (id : Nat) (f : FabOp → FabOp) : (s.updFab id f).pllIdle = s.pllIdle := rfl
@[simp] theorem updFab_mem (s : State) (id : Nat) (f : FabOp → FabOp) : (s.updFab id f).mem = s.mem := rfl
@[simp] theorem updFab_poison (s : State) (id : Nat) (f : FabOp → FabOp) : (s.updFab id f).poison = s.poison := rfl
@[simp] theorem updFab_od (s : State) (id : Nat) (f : FabOp → FabOp) : (s.updFab id f).od = s.od := rfl
@[simp] theorem updFab_stitch (s : State) (id : Nat) (f : FabOp → FabOp) : (s.updFab id f).stitch = s.stitch := rfl
@[simp] theorem updFab_job (s : State) (id : Nat) (f : FabOp → FabOp) : (s.updFab id f).job = s.job := rfl
@[simp] theorem updFab_cells (s : State) (id : Nat) (f : FabOp → FabOp) : (s.updFab id f).cells = s.cells := rfl
@[simp] theorem updFab_sync (s : State) (id : Nat) (f : FabOp → FabOp) : (s.updFab id f).sync = s.sync := rfl
@[simp] theorem updFab_ctxs (s : State) (id : Nat) (f : FabOp → FabOp) : (s.updFab id f).ctxs = s.ctxs := rfl
@[simp] theorem updFab_rings (s : State) (id : Nat) (f : FabOp → FabOp) : (s.updFab id f).rings = s.rings := rfl
@[simp] theorem updFab_cmds (s : State) (id : Nat) (f : FabOp → FabOp) : (s.updFab id f).cmds = s.cmds := rfl
@[simp] theorem updFab_ports (s : State) (id : Nat) (f : FabOp → FabOp) : (s.updFab id f).ports = s.ports := rfl
@[simp] theorem updFab_streams (s : State) (id : Nat) (f : FabOp → FabOp) : (s.updFab id f).streams = s.streams := rfl
@[simp] theorem updFab_flash (s : State) (id : Nat) (f : FabOp → FabOp) : (s.updFab id f).flash = s.flash := rfl
@[simp] theorem updFab_secure (s : State) (id : Nat) (f : FabOp → FabOp) : (s.updFab id f).secure = s.secure := rfl
@[simp] theorem updFab_power (s : State) (id : Nat) (f : FabOp → FabOp) : (s.updFab id f).power = s.power := rfl
@[simp] theorem updFab_snaps (s : State) (id : Nat) (f : FabOp → FabOp) : (s.updFab id f).snaps = s.snaps := rfl
@[simp] theorem updFab_outbox (s : State) (id : Nat) (f : FabOp → FabOp) : (s.updFab id f).outbox = s.outbox := rfl

@[simp] theorem updStream_pending (s : State) (n : Nat) (f : Stream → Stream) : (s.updStream n f).pending = s.pending := rfl
@[simp] theorem updStream_offset (s : State) (n : Nat) (f : Stream → Stream) : (s.updStream n f).offset = s.offset := rfl
@[simp] theorem updStream_pllIdle (s : State) (n : Nat) (f : Stream → Stream) : (s.updStream n f).pllIdle = s.pllIdle := rfl
@[simp] theorem updStream_mem (s : State) (n : Nat) (f : Stream → Stream) : (s.updStream n f).mem = s.mem := rfl
@[simp] theorem updStream_poison (s : State) (n : Nat) (f : Stream → Stream) : (s.updStream n f).poison = s.poison := rfl
@[simp] theorem updStream_od (s : State) (n : Nat) (f : Stream → Stream) : (s.updStream n f).od = s.od := rfl
@[simp] theorem updStream_stitch (s : State) (n : Nat) (f : Stream → Stream) : (s.updStream n f).stitch = s.stitch := rfl
@[simp] theorem updStream_job (s : State) (n : Nat) (f : Stream → Stream) : (s.updStream n f).job = s.job := rfl
@[simp] theorem updStream_cells (s : State) (n : Nat) (f : Stream → Stream) : (s.updStream n f).cells = s.cells := rfl
@[simp] theorem updStream_sync (s : State) (n : Nat) (f : Stream → Stream) : (s.updStream n f).sync = s.sync := rfl
@[simp] theorem updStream_ctxs (s : State) (n : Nat) (f : Stream → Stream) : (s.updStream n f).ctxs = s.ctxs := rfl
@[simp] theorem updStream_rings (s : State) (n : Nat) (f : Stream → Stream) : (s.updStream n f).rings = s.rings := rfl
@[simp] theorem updStream_cmds (s : State) (n : Nat) (f : Stream → Stream) : (s.updStream n f).cmds = s.cmds := rfl
@[simp] theorem updStream_ports (s : State) (n : Nat) (f : Stream → Stream) : (s.updStream n f).ports = s.ports := rfl
@[simp] theorem updStream_flash (s : State) (n : Nat) (f : Stream → Stream) : (s.updStream n f).flash = s.flash := rfl
@[simp] theorem updStream_secure (s : State) (n : Nat) (f : Stream → Stream) : (s.updStream n f).secure = s.secure := rfl
@[simp] theorem updStream_power (s : State) (n : Nat) (f : Stream → Stream) : (s.updStream n f).power = s.power := rfl
@[simp] theorem updStream_snaps (s : State) (n : Nat) (f : Stream → Stream) : (s.updStream n f).snaps = s.snaps := rfl
@[simp] theorem updStream_outbox (s : State) (n : Nat) (f : Stream → Stream) : (s.updStream n f).outbox = s.outbox := rfl

@[simp] theorem send_pending (s : State) (m : Msg) : (s.send m).pending = s.pending := by unfold send; split <;> rfl
@[simp] theorem send_offset (s : State) (m : Msg) : (s.send m).offset = s.offset := by unfold send; split <;> rfl
@[simp] theorem send_pllIdle (s : State) (m : Msg) : (s.send m).pllIdle = s.pllIdle := by unfold send; split <;> rfl
@[simp] theorem send_mem (s : State) (m : Msg) : (s.send m).mem = s.mem := by unfold send; split <;> rfl
@[simp] theorem send_poison (s : State) (m : Msg) : (s.send m).poison = s.poison := by unfold send; split <;> rfl
@[simp] theorem send_od (s : State) (m : Msg) : (s.send m).od = s.od := by unfold send; split <;> rfl
@[simp] theorem send_stitch (s : State) (m : Msg) : (s.send m).stitch = s.stitch := by unfold send; split <;> rfl
@[simp] theorem send_job (s : State) (m : Msg) : (s.send m).job = s.job := by unfold send; split <;> rfl
@[simp] theorem send_cells (s : State) (m : Msg) : (s.send m).cells = s.cells := by unfold send; split <;> rfl
@[simp] theorem send_sync (s : State) (m : Msg) : (s.send m).sync = s.sync := by unfold send; split <;> rfl
@[simp] theorem send_ctxs (s : State) (m : Msg) : (s.send m).ctxs = s.ctxs := by unfold send; split <;> rfl
@[simp] theorem send_rings (s : State) (m : Msg) : (s.send m).rings = s.rings := by unfold send; split <;> rfl
@[simp] theorem send_cmds (s : State) (m : Msg) : (s.send m).cmds = s.cmds := by unfold send; split <;> rfl
@[simp] theorem send_ports (s : State) (m : Msg) : (s.send m).ports = s.ports := by unfold send; split <;> rfl
@[simp] theorem send_streams (s : State) (m : Msg) : (s.send m).streams = s.streams := by unfold send; split <;> rfl
@[simp] theorem send_flash (s : State) (m : Msg) : (s.send m).flash = s.flash := by unfold send; split <;> rfl
@[simp] theorem send_secure (s : State) (m : Msg) : (s.send m).secure = s.secure := by unfold send; split <;> rfl
@[simp] theorem send_power (s : State) (m : Msg) : (s.send m).power = s.power := by unfold send; split <;> rfl
@[simp] theorem send_snaps (s : State) (m : Msg) : (s.send m).snaps = s.snaps := by unfold send; split <;> rfl

@[simp] theorem fresh_pending (s : State)  : (s.fresh).pending = s.pending := rfl
@[simp] theorem fresh_offset (s : State)  : (s.fresh).offset = s.offset := rfl
@[simp] theorem fresh_pllIdle (s : State)  : (s.fresh).pllIdle = s.pllIdle := rfl
@[simp] theorem fresh_mem (s : State)  : (s.fresh).mem = s.mem := rfl
@[simp] theorem fresh_poison (s : State)  : (s.fresh).poison = s.poison := rfl
@[simp] theorem fresh_od (s : State)  : (s.fresh).od = s.od := rfl
@[simp] theorem fresh_stitch (s : State)  : (s.fresh).stitch = s.stitch := rfl
@[simp] theorem fresh_job (s : State)  : (s.fresh).job = s.job := rfl
@[simp] theorem fresh_cells (s : State)  : (s.fresh).cells = s.cells := rfl
@[simp] theorem fresh_sync (s : State)  : (s.fresh).sync = s.sync := rfl
@[simp] theorem fresh_ctxs (s : State)  : (s.fresh).ctxs = s.ctxs := rfl
@[simp] theorem fresh_rings (s : State)  : (s.fresh).rings = s.rings := rfl
@[simp] theorem fresh_cmds (s : State)  : (s.fresh).cmds = s.cmds := rfl
@[simp] theorem fresh_ports (s : State)  : (s.fresh).ports = s.ports := rfl
@[simp] theorem fresh_streams (s : State)  : (s.fresh).streams = s.streams := rfl
@[simp] theorem fresh_flash (s : State)  : (s.fresh).flash = s.flash := rfl
@[simp] theorem fresh_secure (s : State)  : (s.fresh).secure = s.secure := rfl
@[simp] theorem fresh_power (s : State)  : (s.fresh).power = s.power := rfl
@[simp] theorem fresh_snaps (s : State)  : (s.fresh).snaps = s.snaps := rfl
@[simp] theorem fresh_outbox (s : State)  : (s.fresh).outbox = s.outbox := rfl

@[simp] theorem draw_pending (s : State)  : (s.draw).pending = s.pending := rfl
@[simp] theorem draw_offset (s : State)  : (s.draw).offset = s.offset := rfl
@[simp] theorem draw_pllIdle (s : State)  : (s.draw).pllIdle = s.pllIdle := rfl
@[simp] theorem draw_mem (s : State)  : (s.draw).mem = s.mem := rfl
@[simp] theorem draw_poison (s : State)  : (s.draw).poison = s.poison := rfl
@[simp] theorem draw_od (s : State)  : (s.draw).od = s.od := rfl
@[simp] theorem draw_stitch (s : State)  : (s.draw).stitch = s.stitch := rfl
@[simp] theorem draw_job (s : State)  : (s.draw).job = s.job := rfl
@[simp] theorem draw_cells (s : State)  : (s.draw).cells = s.cells := rfl
@[simp] theorem draw_sync (s : State)  : (s.draw).sync = s.sync := rfl
@[simp] theorem draw_ctxs (s : State)  : (s.draw).ctxs = s.ctxs := rfl
@[simp] theorem draw_rings (s : State)  : (s.draw).rings = s.rings := rfl
@[simp] theorem draw_cmds (s : State)  : (s.draw).cmds = s.cmds := rfl
@[simp] theorem draw_ports (s : State)  : (s.draw).ports = s.ports := rfl
@[simp] theorem draw_streams (s : State)  : (s.draw).streams = s.streams := rfl
@[simp] theorem draw_flash (s : State)  : (s.draw).flash = s.flash := rfl
@[simp] theorem draw_secure (s : State)  : (s.draw).secure = s.secure := rfl
@[simp] theorem draw_power (s : State)  : (s.draw).power = s.power := rfl
@[simp] theorem draw_snaps (s : State)  : (s.draw).snaps = s.snaps := rfl
@[simp] theorem draw_outbox (s : State)  : (s.draw).outbox = s.outbox := rfl

/-- A dictionary value after it is set. -/
@[simp] theorem odGet_odSet_same (s : State) (i j v : Nat) : (s.odSet i j v).odGet i j = v :=
  Sp.get_set_same _ _ _ _

/-- Setting a dictionary value leaves the others. -/
theorem odGet_odSet_other (s : State) (i j k l v : Nat) (h : Od.key k l ≠ Od.key i j) : (s.odSet i j v).odGet k l = s.odGet k l := by
  unfold odGet odSet Sp.set
  split
  · exact Sp.get_del_other _ _ _ _ h
  · exact Sp.get_ins_other _ _ _ _ _ h

/-- A counter after an addition. -/
@[simp] theorem odGet_odAdd_same (s : State) (i j n : Nat) :
    (s.odAdd i j n).odGet i j = min (2 ^ 64 - 1) (s.odGet i j + n) := by
  unfold odAdd
  exact odGet_odSet_same _ _ _ _

@[simp] theorem cell_setCell_same (s : State) (c : Nat) (v : Cell) : (s.setCell c v).cell c = v :=
  Sp.get_set_same _ _ _ _

theorem cell_setCell_other (s : State) (c d : Nat) (v : Cell) (h : d ≠ c) : (s.setCell c v).cell d = s.cell d :=
  Sp.get_set_other _ _ _ _ _ h

@[simp] theorem cell_updCell_same (s : State) (c : Nat) (f : Cell → Cell) : (s.updCell c f).cell c = f (s.cell c) :=
  Sp.get_set_same _ _ _ _

theorem cell_updCell_other (s : State) (c d : Nat) (f : Cell → Cell) (h : d ≠ c) : (s.updCell c f).cell d = s.cell d :=
  Sp.get_set_other _ _ _ _ _ h

@[simp] theorem obj_setObj_same (s : State) (i : Nat) (o : SyncObj) : (s.setObj i o).obj i = o :=
  Sp.get_set_same _ _ _ _

theorem obj_setObj_other (s : State) (i j : Nat) (o : SyncObj) (h : j ≠ i) : (s.setObj i o).obj j = s.obj j :=
  Sp.get_set_other _ _ _ _ _ h

@[simp] theorem port_setPort_same (s : State) (p : Nat) (v : Port) : (s.setPort p v).port p = v :=
  Sp.get_set_same _ _ _ _

theorem port_setPort_other (s : State) (p q : Nat) (v : Port) (h : q ≠ p) : (s.setPort p v).port q = s.port q :=
  Sp.get_set_other _ _ _ _ _ h

@[simp] theorem port_updPort_same (s : State) (p : Nat) (f : Port → Port) : (s.updPort p f).port p = f (s.port p) :=
  Sp.get_set_same _ _ _ _

theorem port_updPort_other (s : State) (p q : Nat) (f : Port → Port) (h : q ≠ p) : (s.updPort p f).port q = s.port q :=
  Sp.get_set_other _ _ _ _ _ h

@[simp] theorem ring_setRing_same (s : State) (n : Nat) (r : Ring) : (s.setRing n r).ring n = r :=
  Sp.get_set_same _ _ _ _

theorem ring_setRing_other (s : State) (n m : Nat) (r : Ring) (h : m ≠ n) : (s.setRing n r).ring m = s.ring m :=
  Sp.get_set_other _ _ _ _ _ h

@[simp] theorem block_setBlock_same (s : State) (b : Nat) (v : Block) : (s.setBlock b v).block b = v :=
  Sp.get_set_same _ _ _ _

@[simp] theorem stream_updStream_same (s : State) (n : Nat) (f : Stream → Stream) :
    (s.updStream n f).stream n = f (s.stream n) :=
  Sp.get_set_same _ _ _ _

/-- What is sent joins what leaves the module; where it stands among the waiting is R53's order, and nothing is dropped. -/
theorem mem_send_outbox (s : State) (m x : Msg) : x ∈ (s.send m).outbox ↔ x = m ∨ x ∈ s.outbox := by
  unfold send
  split
  · simp [or_comm]
  · rename_i k _
    have e : x ∈ s.outbox ↔ x ∈ s.outbox.takeWhile (fun x => !s.givesWayTo k x) ∨ x ∈ s.outbox.dropWhile fun x => !s.givesWayTo k x := by
      rw [← List.mem_append, List.takeWhile_append_dropWhile]
    rw [e]
    simp only [List.mem_append, List.mem_cons]
    exact or_left_comm

/-- A message that is no Harness frame goes behind all that waits. -/
theorem send_outbox_of_none {s : State} {m : Msg} (h : s.harnessRank m = none) : (s.send m).outbox = s.outbox ++ [m] := by
  simp [send, h]

end State
end Sys2Proof.Machine
end

