-- ==== Sys2Proof/Machine/Bar0.lean ====
section
/-! DEFINITION. What the host sees of the PCI Express function and of BAR0 as a whole (R428, R431, R432, R436, R493, R495):
the function's identity and capabilities, and every offset of BAR0 read and written through the registers that lie there. -/
namespace Sys2Proof.Machine

/-! ## The function (R428) -/

/-- R428: the capabilities of the function. -/
inductive PciCap where
  | pciExpress
  | powerManagement
  | resizableBar
  | advancedErrorReporting
  | dataLinkFeature
  | physicalLayer64
  | physicalLayer128
  deriving DecidableEq, Repr

/-- R428, R431, R433: what the configuration space of the one physical function shows. -/
structure PciFunction where
  vendor : Nat
  device : Nat
  classCode : Nat
  interruptPin : Nat
  caps : List PciCap
  bar0Log : Nat
  bar2Log : Nat
  bme : Bool
  d3hot : Bool
  deriving DecidableEq, Repr

/-- R428. -/
def pciFunction (s : State) : PciFunction :=
  { vendor := odNumber s 0x1001 0, device := odNumber s 0x1001 1, classCode := 0x120000, interruptPin := 0
    caps := [.pciExpress, .powerManagement, .resizableBar, .advancedErrorReporting, .dataLinkFeature, .physicalLayer64, .physicalLayer128]
    bar0Log := 26, bar2Log := s.bar2Log, bme := s.pcie.bme, d3hot := s.pcie.d3hot }

/-! ## Reads (R431) -/

/-- The answer to a BAR0 read: none where the interface or the module does not answer, an Unsupported Request, data. -/
inductive Bar0Answer where
  | silent
  | unsupported
  | data (v : Nat)
  deriving DecidableEq, Repr

/-- R294: the eight stall counters of a cell. -/
def stallLine (s : State) (c : Nat) : Nat :=
  (List.range 8).foldl (fun w k => w + s.cellGet c k % 2 ^ 64 * 2 ^ (64 * k)) 0

/-- R431: the 64 bytes of BAR0 at 64 × k, as a number; zero where the layout has nothing, and in MB_DOORBELL, which is WO. -/
def bar0Line (s : State) (k : Nat) : Nat :=
  if k = 0 then statusBlock s
  else if 4 ≤ k ∧ k < 8 then cqPendingMap s / 2 ^ (512 * (k - 4)) % 2 ^ 512
  else if k = 0x40 then s.bar2Base
  else if 0x4000 ≤ k ∧ k < 0x14080 then (if k % 64 = 0 then ringBlock s (k / 64 - 256) else 0)
  else if k = 0x20000 then s.mailbox.request % 2 ^ 256 + mbStatus s.mailbox * 2 ^ 320
  else if 0x20200 ≤ k ∧ k < 0x20400 then leNat (fitBytes (s.mailbox.data.drop (64 * (k - 0x20200))) 64)
  else if 0x40000 ≤ k ∧ k < 0x60000 then (s.obj (k - 0x40000)).window
  else if 0x60000 ≤ k ∧ k < 0x62000 then stallLine s (k - 0x60000)
  else 0

/-- R431: BAR0 accepts aligned accesses of 4 and 8 bytes. -/
def bar0Fits (off size : Nat) : Bool := (size == 4 || size == 8) && off % size == 0

/-- R430, R431, R460: a read of BAR0. -/
def bar0Read (s : State) (off size : Nat) : Bar0Answer :=
  if s.secure.boot < 2 ∨ !s.pcieUp ∨ s.pcie.d3hot then .silent
  else if !bar0Fits off size then .unsupported
  else .data (bar0Line s (off / 64) / 2 ^ (8 * (off % 64)) % 2 ^ (8 * size))

/-! ## Writes (R431) -/

/-- R436 to R439: a write into the 64 bytes of a ring pair, whose first changed byte is o and which read w with it done. -/
def bar0RingWrite (s : State) (n o w : Nat) : State :=
  if o < 16 then
    if !bar0Live s ∨ (s.ring n).enable then s
    else s.setRing n { s.ring n with sqBase := fld w 41 0, cqBase := fld w 105 64 }
  else if o = 16 then ringEnable s n (bit w 136) (fld w 41 0) (fld w 105 64) (fld w 131 128) (fld w 135 132)
  else if o = 24 then sqTailWrite s n (fld w 207 192)
  else if o = 48 then cqHeadWrite s n (fld w 399 384)
  else s

/-- R431: a write of BAR0; an Unsupported Request, a write of an undefined offset and of an RO field change nothing. -/
def bar0Write (s : State) (off size v : Nat) : State :=
  let k := off / 64
  let o := off % 64
  let w := setFld (bar0Line s k) (8 * (o + size) - 1) (8 * o) v
  if !bar0Fits off size then s
  else if k = 0x40 ∧ o < 8 then bar2WindowBase s (fld w 63 0) s.bar2Log
  else if 0x4000 ≤ k ∧ k < 0x14080 ∧ k % 64 = 0 then bar0RingWrite s (k / 64 - 256) o w
  else if k = 0x20000 ∧ o < 32 then mbRequestWrite s w
  else if k = 0x20000 ∧ o = 32 then mbStart s v
  else if 0x20200 ≤ k ∧ k < 0x20400 then mbDataWrite s (64 * (k - 0x20200) + o) (leBytes size v)
  else s

end Sys2Proof.Machine
end

