-- ==== Sys2Proof/Tests/Slice0.lean ====
section
/-! SUPPORT. Tests: ill-formed commands, units that do not exist, small steps, and states that meet the hypotheses of
the statements. -/
namespace Sys2Proof.Tests

-- One theorem after the other: the proofs here are evaluations that need much memory.
set_option Elab.async false

open Sys2Proof Sys2Proof.Machine

/-! ## Helpers -/

/-- A number from fields: lowest bit and value. -/
def word (fs : List (Nat × Nat)) : Nat := fs.foldl (fun a f => a + f.2 <<< f.1) 0

/-- Memory of little-endian numbers at rising places: address, bytes, value. -/
def image (fs : List (Nat × Nat × Nat)) : List Host.Cell :=
  fs.flatMap fun f => ((leBytes f.2.1 f.2.2).zipIdx.filter fun b => b.1 != 0).map fun b => (f.1 + b.2, b.1)

/-- A module that runs, owned by a job of its own. -/
def wOwned : State :=
  { State.reset with secure := { Secure.init with boot := 2 }, job := { Job.none with state := .owned, members := [0x3FFFF], cellsets := [2 ^ 64 - 1] } }

/-- A handed-out descriptor in its unit's queue. -/
def wItem (slot w : Nat) : Item := { slot := slot, word := w, rearm := false, stage := .queued, issued := 0, landed := 0, reply := none }

/-- A piece of context 1 with these descriptors handed out. -/
def wPiece (items : List Item) : Piece :=
  { seq := 7, cmd := 3, no := 0, desc := word [(8, 1)], lease := none, raw := [], slots := [], badSlots := [], gridDone := false, next := 0, items := items,
    lastQueue := 0, limits := [], staged := Staged.empty, pairs := 0, units := [], runOn := 0, phase := .running, targetReset := false,
    readPoison := false, upd := none }

/-- Cell 5 holds a piece. -/
def wRun (p : Piece) : State := { wOwned with cells := [(5, { Cell.init with piece := some p })] }

/-- A place in the scratchpad of cell 5. -/
def sp5 (n : Nat) : Nat := 0x20000000000 + 5 * 1572864 + n

/-! ## Descriptors of a running piece: the hypotheses can be met -/

/-- A vector descriptor of one FP32 element in the scratchpad of cell 5. -/
def wVec (op code : Nat) : Nat :=
  word [(0, op), (32, code), (576, sp5 0), (640, sp5 64), (704, sp5 128), (768, sp5 256), (384, 1), (416, 1)]

/-- Cell 5 runs one descriptor. -/
def wOne (w : Nat) : State := wRun (wPiece [wItem 0 w])

theorem witness_ElementwiseOperationsRun :
    ∀ r ∈ mapRows, UnitRuns (wOne (wVec 0x20 r.1)) 5 .vector (wPiece [wItem 0 (wVec 0x20 r.1)]) (wItem 0 (wVec 0x20 r.1)) ∧
      fld (wVec 0x20 r.1) 7 0 = 0x20 ∧ fld (wVec 0x20 r.1) 39 32 = r.1 := by decide +kernel

theorem witness_ElementwiseResultIsStored :
    (VecD.ofWord (wVec 0x20 1)).rows = 1 ∧ (VecD.ofWord (wVec 0x20 1)).cols = 1 ∧ fmtOf (VecD.ofWord (wVec 0x20 1)).fmtD = .fp32 ∧
      inOwnSp 5 (VecD.ofWord (wVec 0x20 1)).dAddr 4 = true := by decide +kernel

theorem witness_reductions :
    ∀ r ∈ reductionRows, UnitRuns (wOne (wVec 0x21 r.1)) 5 .vector (wPiece [wItem 0 (wVec 0x21 r.1)]) (wItem 0 (wVec 0x21 r.1)) ∧
      fld (wVec 0x21 r.1) 7 0 = 0x21 ∧ fld (wVec 0x21 r.1) 39 32 = r.1 := by decide +kernel

/-- An UPDATE of two elements. -/
def wUpd (k : Nat) : Nat :=
  word [(0, 0x22), (16, k), (96, 2), (512, sp5 0), (576, sp5 64), (640, sp5 128), (704, sp5 192), (768, sp5 256), (832, sp5 320), (896, sp5 384)]

theorem witness_updates :
    ∀ r ∈ updateRows, UnitRuns (wOne (wUpd r.1)) 5 .vector (wPiece [wItem 0 (wUpd r.1)]) (wItem 0 (wUpd r.1)) ∧
      fld (wUpd r.1) 7 0 = 0x22 ∧ fld (wUpd r.1) 17 16 = r.1 := by decide +kernel

/-- A STEM descriptor of one FP32 row of one pixel. -/
def wStem (op : Nat) : Nat :=
  word [(0, op), (42, 0), (46, 0), (96, 1), (112, 1), (128, 1), (144, 1), (160, 1), (176, 1), (256, sp5 0), (320, sp5 4096), (384, 4), (416, 4)]

theorem witness_StemPackAndUnpackRun :
    ∀ op ∈ [0x13, 0x14], UnitRuns (wOne (wStem op)) 5 .stem (wPiece [wItem 0 (wStem op)]) (wItem 0 (wStem op)) ∧
      (fmtOf (StemD.ofWord (wStem op)).fmtD).isMx = false ∧ fld (wStem op) 7 0 = op := by decide +kernel

/-- A Skiver descriptor of one row of one FP32 element, its statistics in the scratchpad. -/
def wSk (op : Nat) : Nat :=
  word [(0, op), (34, 2), (128, 1), (160, 1), (352, 4), (384, 4), (416, 4), (576, sp5 0), (640, sp5 64), (704, sp5 128), (768, sp5 192), (832, sp5 256)]

theorem witness_SkiverDescriptorsRun :
    ∀ op ∈ [0x30, 0x31, 0x32, 0x33, 0x34, 0x35], UnitRuns (wOne (wSk op)) 5 .skiver (wPiece [wItem 0 (wSk op)]) (wItem 0 (wSk op)) ∧
      (fmtOf (SkD.ofWord (wSk op)).fmtOut).isMx = false ∧ fld (wSk op) 7 0 = op := by decide +kernel

theorem witness_SkiverDescriptorsRun_backward :
    (normBwd (wOne (wSk 0x31)) 5 (wPiece [wItem 0 (wSk 0x31)]) 0 (SkD.ofWord (wSk 0x31))).isSome = true ∧
      (softBwd (wOne (wSk 0x33)) 5 (wPiece [wItem 0 (wSk 0x33)]) (SkD.ofWord (wSk 0x33))).isSome = true := by decide +kernel


/-- Array descriptors of one FP32 element, A at 0 and B at 64 of the scratchpad of cell 5. -/
def wMat (op : Nat) : Nat :=
  word [(0, op), (64, 1), (73, 1), (96, 1), (128, sp5 0), (192, sp5 64), (256, sp5 256), (704, 4), (736, 4), (768, 4)]
def wCnv (op pool : Nat) : Nat :=
  word [(0, op), (54, pool), (56, 1), (65, 1), (160, 1), (176, 1), (192, 1), (208, 1), (224, 1), (240, 1), (256, 1), (352, 1),
    (480, sp5 0), (522, if op = 0x17 then 0 else sp5 64), (564, sp5 256), (858, 4)]
def wArr (w : Nat) : State := { wOne w with mem := image [(sp5 0, 4, 0x40000000), (sp5 64, 4, 0x40400000)] }
def arrayWords : List Nat :=
  [wMat 0x10, wMat 0x15, wCnv 0x11 0, wCnv 0x12 1, wCnv 0x12 2, wCnv 0x12 3, wCnv 0x16 0, wCnv 0x17 0]

theorem witness_ArrayDescriptorsRun :
    ∀ e ∈ arrayRows.zip arrayWords, e.1.1 (TileD.ofWord e.2) = true ∧ (wArr e.2).pieceOf 5 = some (wPiece [wItem 0 e.2]) ∧
      unitNext (wPiece [wItem 0 e.2]) .array = some (wItem 0 e.2) ∧ arrayReady (wArr e.2) 5 (wPiece [wItem 0 e.2]) (wItem 0 e.2) (TileD.ofWord e.2) = true ∧
      (startTile (wArr e.2) 5 (wPiece [wItem 0 e.2]) (wItem 0 e.2) (TileD.ofWord e.2)).isSome = true := by decide +kernel

-- R88, R94: two times three, in the six passes of FP32.
theorem test_matrix :
    (match exec (.matrix 5) (wArr (wMat 0x10)) with
     | .next t => (t.cell 5).tiles.map fun x => (x.entries.map (·.p.v), x.chain)
     | _ => []) = [([0x40C00000], 192)] := by decide +kernel

theorem witness_PreloadDrainAndSlmAddRun_preload :
    (let w := wMat 0x10 + word [(34, 1), (320, sp5 64), (800, 4)]
     unitNext (wPiece [wItem 0 w]) .array = some (wItem 0 w) ∧ (TileD.ofWord w).chainIn = false ∧ (TileD.ofWord w).preKind ≠ 0 ∧
       spanFree ((wArr w).cell 5) (TileD.ofWord w) = true ∧ readsFree (wArr w) (wPiece [wItem 0 w]) 0 (preRuns (TileD.ofWord w)) = true) := by decide +kernel

/-- Cell 5 with one drained tile, its descriptor's word, and a value. -/
def wTile (w : Nat) : Tile :=
  { group := 0, groups := 1, m := 1, n := 1, acc := .plain, chain := 32, span := .draining, slot := 0, word := w, ctx := 1, piece := 7, home := .output,
    target := 0, pitch := 0, entries := [{ p := Lined.zero, poison := false }], bad := [] }
def wDrain : State :=
  { wOwned with cells := [(5, { Cell.init with piece := some (wPiece []), tiles := [wTile (wMat 0x10 + 2 ^ 37)], drainQ := [0],
                                               slmAdds := [{ addr := slmBase + 8, val := Lined.zero, poison := false, ctx := 1, own := wOwned.reqGen 5, group := 3, last := true }] })] }
theorem witness_PreloadDrainAndSlmAddRun_drain :
    wDrain.pieceOf 5 = some (wPiece []) ∧ (wDrain.cell 5).tiles.find? (fun t => t.group == 0) = some (wTile (wMat 0x10 + 2 ^ 37)) ∧
    readsFree wDrain (wPiece []) 0 (drainReads wDrain (TileD.ofWord (wMat 0x10 + 2 ^ 37))) = true ∧
    writesFree wDrain (wPiece []) 0 (drainWrites (TileD.ofWord (wMat 0x10 + 2 ^ 37))) = true := by decide +kernel

/-! ## The Harness -/

/-- What a command leaves where it goes on. -/
def gives (c : Instr) (s : State) (p : State → Bool) : Bool :=
  match exec c s with
  | .next t => p t
  | _ => false

/-- Does a command stop with a fault? -/
def stops (c : Instr) (s : State) (f : Fault) : Bool :=
  match exec c s with
  | .fault g => decide (g = f)
  | _ => false

/-- A HARNESS_OP on object 9, its result at 512 of the scratchpad of cell 5. -/
def wHop (code operand : Nat) : Nat := word [(0, 0x51), (8, 9), (25, code), (30, 1), (32, sp5 512), (128, operand)]

/-- Cell 5 runs a HARNESS_OP on an object of context 1. -/
def wHar (code operand : Nat) (o : SyncObj) : State :=
  { wOne (wHop code operand) with sync := [(9, { o with ctx := 1 })] }

/-- A counter, an event, a barrier of three and a semaphore of context 1. -/
def oCounter (v : Nat) : SyncObj := { SyncObj.free with kind := .counter, value := v }
def oEvent (v : Nat) : SyncObj := { SyncObj.free with kind := .event, value := v }
def oBarrier (v : Nat) : SyncObj := { SyncObj.free with kind := .barrier, param := 3, value := v }
def oSema (v : Nat) : SyncObj := { SyncObj.free with kind := .semaphore, param := 4, value := v }

/-- The piece and the item of these states. -/
abbrev hRuns (code operand : Nat) (o : SyncObj) (op : SyncOp) : Prop :=
  HarnessRuns (wHar code operand o) 5 (wPiece [wItem 0 (wHop code operand)]) (wItem 0 (wHop code operand)) op

theorem witness_StagedHarnessOpsWaitForTheCommit :
    ∀ e ∈ stagedOps, hRuns e.1.code 1 (oCounter 4) e.1 ∧ gives (e.2 5) (wHar e.1.code 1 (oCounter 4)) (fun t =>
      decide (t.sync = (wHar e.1.code 1 (oCounter 4)).sync ∧ itemStage t 5 0 = some .done ∧
        (t.pieceOf 5).map (·.staged.ops) = some [{ obj := 9, op := e.1.code, operand := 1 }])) = true := by decide +kernel

theorem witness_HarnessReadsAndTakes_read : hRuns 0 0 (oCounter 4) .read ∧
    gives (.harnessOpRead 5) (wHar 0 0 (oCounter 4)) (fun t => decide (itemStage t 5 0 = some .done ∧ t.rd (sp5 512) 8 = 4)) = true := by
  decide +kernel
theorem witness_HarnessReadsAndTakes_tryTake : hRuns 12 0 (oSema 1) .tryTake ∧ hRuns 12 0 (oSema 0) .tryTake ∧
    gives (.harnessOpTryTake 5) (wHar 12 0 (oSema 1)) (fun t => decide (t.rd (sp5 512) 8 = 1 ∧ (t.obj 9).value = 0)) = true ∧
    gives (.harnessOpTryTake 5) (wHar 12 0 (oSema 0)) (fun t => decide (t.rd (sp5 512) 8 = 0 ∧ (t.obj 9).value = 0)) = true := by
  decide +kernel
theorem witness_HarnessReadsAndTakes_take : hRuns 11 0 (oSema 1) .take ∧ 0 < ((wHar 11 0 (oSema 1)).obj 9).value ∧
    (∀ w ∈ ((wHar 11 0 (oSema 1)).obj 9).waiters, w.wait ≠ .take) ∧
    gives (.harnessOpTake 5) (wHar 11 0 (oSema 1)) (fun t => decide (itemStage t 5 0 = some .done ∧ (t.obj 9).value = 0)) = true := by
  decide +kernel

theorem witness_HarnessWaits_ge : hRuns 3 4 (oCounter 4) .waitGe ∧ hRuns 3 5 (oCounter 4) .waitGe ∧
    ((wHar 3 4 (oCounter 4)).obj 9).holds (.ge 4) = true ∧ ((wHar 3 5 (oCounter 4)).obj 9).holds (.ge 5) = false ∧
    gives (.harnessOpWaitGe 5) (wHar 3 4 (oCounter 4)) (fun t => itemStage t 5 0 == some .done) = true ∧
    gives (.harnessOpWaitGe 5) (wHar 3 5 (oCounter 4)) (fun t => itemStage t 5 0 == some .waiting) = true := by decide +kernel
theorem witness_HarnessWaits_event : hRuns 6 0 (oEvent 1) .eventWait ∧ hRuns 6 0 (oEvent 0) .eventWait := by decide +kernel
theorem witness_HarnessWaits_barrier : hRuns 8 1 (oBarrier 0) .barrierWait ∧ hRuns 8 0 (oBarrier 0) .barrierWait := by decide +kernel
theorem witness_HarnessWaits_take : hRuns 11 0 (oSema 0) .take ∧ ((wHar 11 0 (oSema 0)).obj 9).value = 0 := by decide +kernel
theorem witness_HarnessWaits_arriveWait : hRuns 9 0 (oBarrier 1) .arriveWait ∧ ((wHar 9 0 (oBarrier 1)).obj 9).value + 1 < 3 ∧
    ((wHar 9 0 (oBarrier 1)).obj 9).waiters = [] ∧
    gives (.harnessOpArriveWait 5) (wHar 9 0 (oBarrier 1)) (fun t =>
      decide (itemStage t 5 0 = some .waiting ∧ (t.obj 9).value = 2 ∧ (t.obj 9).waiters.length = 1)) = true := by decide +kernel

/-- A wait of the Harness port, or of the MOVE of queue 2, whose answer has come. -/
def wAnswered (w : Nat) : State := wRun (wPiece [{ wItem 0 w with stage := .waiting, reply := some 77 }])

theorem witness_syncWaitRelease :
    ((wAnswered (wHop 3 5)).pieceOf 5).isSome = true ∧
    gives (.syncWaitRelease 5 16 100) (wAnswered (wHop 3 5)) (fun t =>
      decide (itemStage t 5 0 = some .done ∧ t.rd (sp5 512) 8 = 77 ∧ t.cellGet 5 4 = 100)) = true ∧
    gives (.syncWaitRelease 5 2 100) (wAnswered (word [(0, 0x40), (8, 2)])) (fun t =>
      decide (itemStage t 5 0 ≠ some .waiting ∧ t.cellGet 5 4 = 0)) = true := by decide +kernel

/-- A far counter and a far event. -/
def wFar : State :=
  { wOwned with sync := [(9, { oCounter 4 with far := true, farIndex := 3 }), (10, { oEvent 0 with far := true, farIndex := 4 })] }

theorem witness_farUpdate : farObj wFar 3 = some 9 ∧ farObj wFar 4 = some 10 ∧
    gives (.farUpdate 3 6) wFar (fun t => (t.obj 9).value == 10) = true ∧
    gives (.farUpdate 4 1) wFar (fun t => (t.obj 10).value == 1) = true := by decide +kernel

/-- Port 47 is up. -/
def wPort47 : State := { wOwned with ports := [(47, { Port.init with state := .up })] }

theorem witness_harnessFrame :
    gives (.harnessFrame 47 4 0 true 5) wPort47 (fun t => decide (t.outbox = [.frame 47 4 5] ∧ Sp.get 0 t.frameSeq (47 * 8 + 4) = 1)) = true ∧
    gives (.harnessFrame 47 4 1 true 5) wPort47 (fun t => decide (t.outbox = [.frameRetry 47 4 0])) = true ∧
    stops (.harnessFrame 48 0 0 true 0) wOwned (.noSuchPort 48) = true := by decide +kernel

/-- A SYNC_OP of context 1 that ring 1 gave. -/
def wCmd (entry : Nat) : Cmd :=
  { id := 3, ring := 1, entry := entry, stage := .taken, k := 0, evicted := false, started := false, serial := 0, left := 0, okCount := 0,
    overruns := 0, runOns := 0, stale := 0, firstBad := none, worst := 0, tileFailed := false, bytes := 0 }

/-- A state that holds a SYNC_OP on object 9. -/
def wHost (code operand : Nat) (o : SyncObj) : State :=
  { wOwned with sync := [(9, { o with ctx := 1 })], cmds := [wCmd (word [(0, 0x17), (8, 1), (64, 9), (96, code), (128, operand)])] }

/-- An object that an operation of the host fits. -/
def oFor (code : Nat) : SyncObj := if code = 5 then oSema 1 else if code = 6 then oBarrier 0 else if code = 3 ∨ code = 4 then oEvent 0 else oCounter 4

theorem witness_HostSyncOpsComplete :
    ∀ e ∈ hostOps, (let s := wHost e.1 1 (oFor e.1)
      (s.cmd? 3).isSome = true ∧ (∀ c, s.cmd? 3 = some c → c.opcode = 0x17 ∧ c.stage = .taken ∧ fld c.entry 99 96 = e.1 ∧
        (hostOp e.1).any (fun op => ((s.obj (fld c.entry 80 64)).refuses c.ctx op (fld c.entry 191 128)).isNone) = true) ∧
      gives (e.2 3) s (fun t => t.cmds.isEmpty) = true) := by decide +kernel

/-! ## Pieces, descriptors and tiles -/

/-- A context that holds cells, with this queue. -/
def wCtx (q : List QEntry) : Ctx :=
  { record := 0, resident := true, swapEnd := none, loading := false, queue := q, lastRan := none, held := 0, holding := true, retired := false,
    stalled := false, createCmd := none, objs := [9], dirty := [], step := none, stepNo := 0, bank := 0, gathering := [], weltLost := false,
    tally := [], runOns := 0, aborts := 0 }

/-- The descriptor of a piece of context 1: slots in its list, at the start of the SLM, and a grid's bit. -/
def wDesc (len tile : Nat) : Nat := word [(0, 1), (8, 1), (18, len), (32, 1000), (64, slmBase), (160, 9), (177, tile)]

/-- Cell 5 is given to context 1, whose queue is q. -/
def wGiven (q : List QEntry) : State :=
  { wOwned with job := { wOwned.job with budgetMHz := 1800, given := [{ ctx := 1, mask := 2 ^ 5, reserved := false }] }, ctxs := [(1, wCtx q)] }

theorem witness_PieceStarts_piece : MayPlace (wGiven [.piece 3 0 (wDesc 1 0) none false]) 5 1 (wCtx [.piece 3 0 (wDesc 1 0) none false]) ∧
    ((wGiven [.piece 3 0 (wDesc 1 0) none false]).cell 5).claim = none ∧ mayStart (wGiven []) 0 (pdBudget (wDesc 1 0)) = true ∧
    pieceOk (wGiven []) 1 (wDesc 1 0) false = true ∧
    revertPending (wGiven [.piece 3 0 (wDesc 1 0) none false]) none = false ∧
    firstFree (wGiven [.piece 3 0 (wDesc 1 0) none false]) 1 (wCtx [.piece 3 0 (wDesc 1 0) none false]) 5 (.piece 3 0 (wDesc 1 0) none false) = true ∧
    gives (.pieceStart 5 0) (wGiven [.piece 3 0 (wDesc 1 0) none false]) (fun t => (t.pieceOf 5).any fun q => q.cmd == 3) = true := by
  decide +kernel

/-- A claim of cell 5 and the state that holds it. -/
def wLease : LeaseRef := { obj := 9, idx := 0, gen := 0 }
def wClaimed : State :=
  { wGiven [] with cells := [(5, { Cell.init with claim := some { cmd := 3, desc := wDesc 4 1, lease := wLease } })] }

theorem witness_PieceStarts_claim : MayPlace wClaimed 5 1 (wCtx []) ∧ mayStart wClaimed 0 (pdBudget (wDesc 4 1)) = true ∧
    pieceOk wClaimed 1 (wDesc 4 1) true = true ∧
    gives (.pieceStart 5 0) wClaimed (fun t => (t.pieceOf 5).any fun q => q.lease == some wLease) = true := by decide +kernel

/-- An open step. -/
def wStep : Step :=
  { cmd := 3, entry := 0, gmap := [], shards := [], opts := [], others := [], lastTaken := false, cmdsLeft := [], due := false, gathered := false,
    exchanged := false, placed := [], undone := [], mirrored := [], acked := [], updateBad := false, poison := false, faulty := none, ownFault := false,
    voted := none, deadline := false, outcome := .unknown, late := none, sysFlags := 0, fails := [], norms := [] }

/-- Context 1 with an open step and an update piece to place. -/
def wUpdate : State := { wGiven [] with ctxs := [(1, { wCtx [.update 3 0 0 64 500 false] with step := some wStep })] }

theorem witness_PieceStarts_update :
    MayPlace wUpdate 5 1 { wCtx [.update 3 0 0 64 500 false] with step := some wStep } ∧ mayStart wUpdate 0 500 = true ∧
    firstFree wUpdate 1 { wCtx [.update 3 0 0 64 500 false] with step := some wStep } 5 (.update 3 0 0 64 500 false) = true ∧
    gives (.pieceStart 5 0) wUpdate (fun t => (t.pieceOf 5).any fun q => q.upd == some (0, 0, 64)) = true := by decide +kernel

/-- A piece whose list is these slots. -/
def wList (slots : List Nat) : Piece := { wPiece [] with desc := wDesc slots.length 0, raw := slots, slots := slots, limits := List.replicate 16 16 }

/-- A READ of object 9 without a result, and a QUEUE_CTL of queues 0 and 15. -/
def wRead : Nat := word [(0, 0x51), (8, 9)]
def wCtl : Nat := word [(0, 0x41), (8, 0x8001), (24, 64)]

/-- Cell 5 runs such a piece; object 9 is a counter of its context. -/
def wHands (slots : List Nat) : State := { wRun (wList slots) with sync := [(9, { oCounter 4 with ctx := 1 })], ctxs := [(1, wCtx [])] }

theorem witness_DescriptorsAreHandedOut_item : mayHandOut (wList [wRead]) = true ∧
    inWindow (wList [wRead]) ((wList [wRead]).next + headSlots (wList [wRead]) - 1) = true ∧
    headStatus (wHands [wRead]) 5 (wList [wRead]) = none ∧ fld (headWord (wList [wRead])) 7 0 = 0x51 ∧
    gives (.descriptorHandOut 5) (wHands [wRead]) (fun t => (t.pieceOf 5).any fun q => q.items.length == 1) = true := by decide +kernel

theorem witness_DescriptorsAreHandedOut_queueCtl : mayHandOut (wList [wCtl, wRead]) = true ∧
    headStatus (wHands [wCtl, wRead]) 5 (wList [wCtl, wRead]) = none ∧ fld (headWord (wList [wCtl, wRead])) 7 0 = 0x41 ∧
    gives (.queueCtl 5) (wHands [wCtl, wRead]) (fun t => (t.pieceOf 5).any fun q =>
      decide (q.limits.getD 0 0 = 64 ∧ q.limits.getD 1 0 = 16 ∧ q.limits.getD 15 0 = 64)) = true := by decide +kernel

/-- A GRID of 2 × 2 tiles of 16 × 16, and a piece of it. -/
def wGrid : Nat := word [(0, 0x50), (32, 16), (41, 16), (64, 32), (96, 32), (128, 1)]
def wGridPiece : Piece := { wPiece [] with desc := wDesc 5 1, raw := splitSlots 4 wGrid ++ [wRead], slots := splitSlots 4 wGrid ++ [wRead], lease := some wLease }
def wGridRun : State := { wRun wGridPiece with sync := [(9, { SyncObj.free with kind := .tileCounter, ctx := 1, param := 4 })] }

theorem witness_DescriptorsAreHandedOut_grid : pdTileEn wGridPiece.desc = true ∧ gridOk wGridRun wGridPiece (joinSlots (wGridPiece.slots.take 4)) = true ∧
    fld (joinSlots (wGridPiece.slots.take 4)) 7 0 = 0x50 ∧ 4 ≤ pdLen wGridPiece.desc ∧
    gives (.gridDescriptor 5) wGridRun (fun t => (t.pieceOf 5).any fun q => q.gridDone && q.next == 4) = true := by decide +kernel

/-- The last descriptor of a piece is done; of a grid piece with a lease, too. -/
def wDone (l : Option LeaseRef) : Piece :=
  { wPiece [{ wItem 0 wRead with stage := .done }] with desc := wDesc 1 (if l.isSome then 1 else 0), gridDone := true, next := 1, lease := l }

theorem witness_DescriptorRetires :
    ((wDone none).items.find? fun i => i.slot == 0 && i.finished).isSome = true ∧
    gives (.descriptorRetire 5 0 []) (wRun (wDone none)) (fun t => (t.pieceOf 5).any Piece.finished) = true ∧
    gives (.descriptorRetire 5 0 [(0, 7)]) (wRun { wDone none with items := [{ wItem 0 wRead with stage := .done }, { wItem 1 wRead with stage := .waiting }] })
      (fun t => decide ((t.pieceOf 5).map (·.items.length) = some 1 ∧ t.cellGet 5 4 = 7)) = true ∧
    gives (.descriptorRetire 5 0 []) (wRun (wDone (some wLease))) (fun t => decide (t.outbox = [.tileCommit 5 (wOwned.reqGen 5) wLease])) = true := by decide +kernel

/-- A piece that may commit, with a staged flag and a staged addition to a Welt. -/
def wCommit : Piece :=
  { wDone none with items := [], staged := { Staged.empty with flags := Flag.inexact, welt := [{ slot := 0, idx := 3, val := Lined.zero, poison := true }] } }

theorem witness_PieceCommits : wCommit.committing = true ∧
    gives (.pieceCommit 5) (wRun wCommit) (fun t =>
      decide ((t.cell 5).piece = none ∧ Sp.get 0 t.cellFlags 5 = Flag.inexact ∧ (Sp.get WeltPair.zero t.welt (5 * 32768 + 3)).poison = true)) = true := by
  decide +kernel

/-- A cell whose context has a grid at the head, and the tile counter. -/
def wTaking : State := { wGiven [.grid 3 (wDesc 4 1) 9] with sync := [(9, { SyncObj.free with kind := .tileCounter, ctx := 1, param := 4 })] }

theorem witness_TilesAreClaimed : MayPlace wTaking 5 1 (wCtx [.grid 3 (wDesc 4 1) 9]) ∧ (claimTile wTaking 9 5).2 = .tile 0 0 ∧ mayStart wTaking wTaking.offset (pdBudget (wDesc 4 1)) = true ∧
    firstFree wTaking 1 (wCtx [.grid 3 (wDesc 4 1) 9]) 5 (.grid 3 (wDesc 4 1) 9) = true ∧
    gives (.tileClaim 5 9) wTaking (fun t => decide ((t.cell 5).claim = some { cmd := 3, desc := wDesc 4 1, lease := wLease })) = true := by
  decide +kernel

/-- A tile counter with a lease of cell 5. -/
def oLeased : SyncObj :=
  { SyncObj.free with kind := .tileCounter, ctx := 1, param := 4, value := 1, leases := [{ idx := 0, gen := 0, holder := 5, final := false, age := 2000, runs := [] }] }

/-- A grid piece that has sent COMMIT, its lease held at the home node. -/
def wSent (phase : CommitPhase) : State :=
  { wRun { wDone (some wLease) with phase := phase } with
    sync := [(9, oLeased)],
    outbox := [.tileCommit 5 (wOwned.reqGen 5) wLease, .tileDone wLease, .tileRevert wLease] }

theorem witness_TilesAreCommitted :
    gives (.tileCommit 5) (wSent .sent) (fun t => (t.pieceOf 5).any fun q => q.phase == .answered true) = true ∧
    gives (.tileCommitReply 5) (wSent (.answered true)) (fun t => (t.pieceOf 5).any fun q => q.phase == .accepted) = true ∧
    gives (.tileCommitReply 5) (wSent (.answered false)) (fun t => (t.cell 5).piece == none) = true := by decide +kernel

theorem witness_LeasesEndAndReturn :
    gives (.tileDone 9 0 0) (wSent .accepted) (fun t => decide ((t.obj 9).leases = [] ∧ (t.obj 9).doneCount = 1)) = true ∧
    gives (.tileRevert 9 0 0) (wSent .accepted) (fun t => decide (findLease (t.obj 9) wLease ≠ none)) = true ∧
    holdersOf { wSent .sent with cells := [] } wLease = [] ∧
    gives (.tileRelease 9 0 0) { wSent .sent with cells := [] } (fun t => decide ((t.obj 9).leases = [] ∧ (t.obj 9).reissue = [(0, 1)])) = true ∧
    (wSent .sent).odGet 0x5008 0 < 2000 ∧
    gives (.leaseTimeout 9 0) (wSent .sent) (fun t => decide (findLease (t.obj 9) wLease = none ∧ (t.cell 5).piece = none)) = true := by
  decide +kernel

/-! ## Streams and memory -/

/-- A COPY of one row of 32 bytes of the scratchpad of cell 5 on queue 2, or another form of MOVE. -/
def wMove (xform : Nat) : Nat :=
  word [(0, 0x40), (8, 2), (14, xform), (32, 1), (64, 32), (96, 1), (128, sp5 0), (192, sp5 1024), (256, 32), (288, 32)]

/-- Cell 5 runs such a MOVE. -/
def wStream (i : Item) : State := { wRun { wPiece [i] with limits := List.replicate 16 16, lastQueue := 15 } with sync := [(9, { oCounter 4 with ctx := 1 })] }

/-- It waits for the counter to reach v. -/
def wWaits (v : Nat) : Nat := wMove 0 + word [(23, 1), (416, v), (448, 9)]

theorem witness_StreamDescriptorsStart :
    ∀ w ∈ [wMove 0, wMove 1, wMove 2, wMove 3], (let p := wPiece [wItem 0 w]
      queueNext p 2 = some (wItem 0 w) ∧ queueBusy p 2 = false ∧ isMove (fld w 16 14) (wItem 0 w) = true ∧
        readsFree (wStream (wItem 0 w)) p 0 (MoveD.ofWord w).reads = true ∧ writesFree (wStream (wItem 0 w)) p 0 (MoveD.ofWord w).writes = true) := by
  decide +kernel

theorem witness_StreamDescriptorsStart_waits : (MoveD.ofWord (wWaits 5)).waitEn = true ∧
    gives (.moveCopy 5 2) (wStream (wItem 0 (wWaits 4))) (fun t => itemStage t 5 0 == some .running) = true ∧
    gives (.moveCopy 5 2) (wStream (wItem 0 (wWaits 5))) (fun t => decide (itemStage t 5 0 = some .waiting ∧ (t.obj 9).waiters.length = 1)) = true ∧
    gives (.rearm 5 2) (wStream { wItem 0 (wMove 0) with rearm := true }) (fun t => itemStage t 5 0 == some .running) = true := by decide +kernel

/-- The MOVE runs, and its source holds data. -/
def wIssues : State :=
  { wStream { wItem 0 (wMove 0) with stage := .running } with mem := [(sp5 0, 7), (sp5 31, 9)] }

theorem witness_transferIssue : ((wIssues.pieceOf 5).bind fun p => nextQueue wIssues (wIssues.cell 5) p).isSome = true ∧
    xferAt (MoveD.ofWord (wMove 0)) (MoveD.ofWord (wMove 0)).rowCount 0 0 ≠ none ∧
    gives (.transferIssue 5) wIssues (fun t => decide ((t.cell 5).xfers.map (fun x => (x.id, x.piece, x.queue)) = [(0, 7, 2)] ∧ t.mem = wIssues.mem ∧
      t.serial = 1 ∧ (t.cell 5).piece.map (·.lastQueue) = some 2)) = true := by decide +kernel

/-- A transfer on its way, to cell 5 from cell 7 or to cell 7. -/
def wXfer (store : Bool) : Xfer :=
  { id := 4, piece := 7, queue := 2, slot := 0, store := store, writes := [(if store then 0x20000000000 + 7 * 1572864 else sp5 1024, [1, 2, 0], false)],
    loads := [], miss := false, server := if store then none else some 7, target := if store then some 7 else none, gen := 3, own := { wOwned.reqGen 5 with gen := 3 }, dropped := false }

/-- Cell 5 with that transfer out; the cluster of cell 7 has generation 3. -/
def wLands (store : Bool) : State :=
  { wOwned with
    cells := [(5, { Cell.init with piece := some { wPiece [{ wItem 0 (wMove 0) with stage := .running }] with limits := List.replicate 16 16 }, xfers := [wXfer store] })],
    blocks := [(0, { Block.init with gen := 3 })] }

theorem witness_transferLand : LandsHere (wLands false) 5 3 (wXfer false) ∧ LandsHere (wLands true) 5 3 (wXfer true) ∧
    replyCurrent (wLands true) (wXfer true) 2 = false ∧ xferHeld (wLands true) (wXfer true) = false ∧ storeBefore (wLands true) 5 (wXfer true) = false ∧
    xferHeld (wLands false) (wXfer false) = false ∧ storeBefore (wLands false) 5 (wXfer false) = false ∧
    gives (.transferLand 5 4 3 []) (wLands false) (fun t => decide ((t.cell 5).xfers = [] ∧ t.bytes (sp5 1024) 3 = [1, 2, 0] ∧ itemStage t 5 0 = some .done)) = true ∧
    gives (.transferLand 5 4 3 []) (wLands true) (fun t => decide ((t.cell 5).xfers = [] ∧ t.bytes (0x20000000000 + 7 * 1572864) 3 = [1, 2, 0])) = true ∧
    gives (.transferLand 5 4 2 []) (wLands true) (fun t => decide ((t.cell 5).xfers.length = 1 ∧ t.mem = [])) = true := by decide +kernel

/-- A module with a region that backs the low stack memory. -/
def wBacked : State := { wOwned with job := { wOwned.job with regions := [] } }

theorem witness_HomeSliceStoresAndLoads :
    (slmBase + 200) / 256 = (slmBase + 200 + ([1, 2, 3] : List Byte).length - 1) / 256 ∧ inSlm (slmBase + 200) 3 = true ∧
    ((cellOfAddr (slmBase + 200)).any fun c => wOwned.cellDown c) = false ∧ segHeld wOwned [(slmBase + 200, 3)] = false ∧
    gives (.homeSliceAccess true (slmBase + 200) [1, 2, 3] []) wOwned (fun t => decide (t.bytes (slmBase + 200) 3 = [1, 2, 3])) = true ∧
    gives (.homeSliceAccess false (slmBase + 200) [1, 2, 3] [(216, 1)]) wOwned (fun t => decide (t.odGet 0x8052 1 = 1)) = true := by decide +kernel

theorem witness_HomeSlice_stack : wOwned.backed 0 3 = true ∧ storeHeld wOwned [(0, 3)] = false ∧ loadHeld wOwned [(0, 3)] = false ∧
    gives (.homeSliceAccess false 0 [0] [(0, 1)]) wOwned (fun t => decide (t.odGet 0x8050 1 = 1 ∧ t.outbox = [.sliceReply [0] false])) = true ∧
    gives (.homeSliceAccess true 0 [1, 2, 3] []) wOwned (fun t => decide (t.bytes 0 3 = [1, 2, 3])) = true := by decide +kernel

theorem witness_PatrolCorrectsAndCounts : wOwned.place 0 = some (0, 0, 0) ∧
    ((cacheLine wOwned 0).any fun l => maskHolds l.dirty (sectorMask 0 1 false)) = false ∧
    (match Ecc.read (Ecc.flip (Ecc.stored false (sectorData wOwned 0)) [(0, 1)]) with | .corrected _ => true | _ => false) = true ∧
    (match Ecc.read (Ecc.flip (Ecc.stored false (sectorData wOwned 0)) [(0, 1), (1, 1), (2, 1)]) with | .uncorrectable _ => true | _ => false) = true ∧
    gives (.patrolScrub 0 0 [(0, 1)] false) wOwned (fun t => decide (t.odGet 0x8050 1 = 1 ∧ t.poisonAt 0 = false)) = true ∧
    stops (.patrolScrub 12 0 [] false) wOwned (.noSuchStack 12) = true := by decide +kernel

/-! ## The training step -/

/-- A gradient map of one entry of two weights in SLM, and a STEP_OPEN of step 0 that commits at stitch 2; another
member holds the shard. -/
def wEntry : Nat := word [(0, slmBase + 4096), (64, slmBase + 8192), (144, 1), (160, 2), (192, 1)]
def wOpenEntry : Nat :=
  word [(0, 0x12), (8, 1), (128, 2), (192, slmBase + 0), (234, 1), (320, slmBase + 1024), (362, 1), (384, slmBase + 65536), (426, 9), (448, slmBase + 2048)]

/-- A state that holds a STEP_OPEN. -/
def wOpening : State :=
  { wOwned with cmds := [wCmd wOpenEntry], ctxs := [(1, wCtx [])], sync := [(9, { oCounter 0 with ctx := 1 })],
                mem := image [(slmBase + 0, 32, wEntry), (slmBase + 1024, 64, 0x22)] }

theorem witness_TrainingStepsOpen :
    (match openStep wOpening (wCmd wOpenEntry) (wCtx []) [[1, 0, 0, 2, 0, 0]] with | .ok _ => true | .error _ => false) = true ∧
    gives (.stepOpen 3 [[1, 0, 0, 2, 0, 0]] 0) wOpening (fun t =>
      decide ((t.cmd? 3).map (·.stage) = some .active ∧ ((t.ctx? 1).bind (·.step)).isSome)) = true := by decide +kernel

/-- A context with a step open, and the state that holds it; cell 5 holds a dirty window. -/
def wStepCtx (t : Step) : Ctx := { wCtx [] with step := some t, dirty := [5], record := word [(160, 16)] }
def wStepAt (t : Step) : State :=
  { wOwned with ctxs := [(1, wStepCtx t)], cmds := [wCmd wOpenEntry], welt := [(5 * 32768, { p := { v := 5, l := 0 }, poison := false })],
                job := { wOwned.job with mode := 1, members := [0x3FFFF, 1] }, stitch := { wOwned.stitch with count := 1 } }

/-- The step of wOpenEntry, its commands all done; gathered; and with one updated shard that has a buddy. -/
def wStep1 : Step := { wStep with entry := wOpenEntry, gmap := [wEntry], due := true, lastTaken := true }
def wShard : Nat := word [(29, 1), (96, 2), (192, 64), (256, 4096), (320, 8192)]
def wStep2 : Step := { wStep1 with gathered := true, shards := [wShard], opts := [0x22], placed := [0], undone := [(0, 0)] }

theorem witness_Gather : StepOf (wStepAt wStep1) 1 (wStepCtx wStep1) wStep1 ∧ gatherReady (wStepAt wStep1) 1 wStep1 = true ∧
    gives (.gather 1) (wStepAt wStep1) (fun t => decide (t.welt = [] ∧ ((t.ctx? 1).bind (·.step)).any (·.gathered) ∧ (t.ctx? 1).map (·.dirty) = some [])) = true := by
  decide +kernel

theorem witness_StepOperationsEnterTheFabric :
    StepOf (wStepAt wStep2) 1 (wStepCtx wStep2) wStep2 ∧ (wStepAt wStep2).notices = [] ∧ (wStepAt wStep2).fab = [] ∧
    ((wStep2.undone.find? fun e => e.1 == 0).any fun e => e.2 == 0) = true ∧ shBuddy wShard = true ∧
    gives (.exchange 1) (wStepAt wStep2) (fun t => decide (t.fab.map (fun o => (o.id, o.ranks)) = [(1, [0x3FFFF, 1])])) = true ∧
    gives (.mirror 1 0) (wStepAt wStep2) (fun t => decide (t.fab.length = 2 ∧ ((t.ctx? 1).bind (·.step)).map (·.mirrored) = some [0])) = true ∧
    gives (.mirrorAck 1 0) (wStepAt { wStep2 with mirrored := [0] }) (fun t => decide (((t.ctx? 1).bind (·.step)).map (·.acked) = some [0])) = true ∧
    gives (.stepGather 1) { wStepAt wStep2 with ctxs := [(1, { wCtx [] with gathering := [(1, wStep2)] })] } (fun t => t.fab.length == 1) = true := by
  decide +kernel

/-- The exchange has landed: the shard may be placed. -/
def wStep3 : Step := { wStep2 with exchanged := true, placed := [], undone := [] }
def wStep4 : Step := { wStep2 with exchanged := true, acked := [0] }

theorem witness_UpdatesAndVotes_placement : [1, 1].sum = shCount wShard ∧ shardLanded (wStepAt wStep3) 1 wStep3 wShard = true ∧
    gives (.updatePlacement 1 0 [1, 1]) (wStepAt wStep3) (fun t => decide ((t.ctx? 1).map (·.queue.length) = some 2)) = true := by decide +kernel

theorem witness_UpdatesAndVotes_votes :
    voteNow (wStepAt wStep4) 1 (wStepCtx wStep4) wStep4 = some { yes := true, reason := 0 } ∧ isRoot (wStepAt wStep4) = false ∧
    gives (.voteCast 1) (wStepAt wStep4) (fun t => decide (t.outbox = [.vote 1 (ballot (wStepAt wStep4) (wStepCtx wStep4) wStep4 { yes := true, reason := 0 })])) = true ∧
    isRoot { wStepAt wStep4 with stitch := { wOwned.stitch with root := 0x3FFFF } } = true ∧
    gives (.voteCast 1) { wStepAt wStep4 with stitch := { wOwned.stitch with root := 0x3FFFF } } (fun t =>
      decide (t.outbox = [] ∧ (t.ctx? 1).map (fun y => y.tally.map (·.member)) = some [0x3FFFF])) = true ∧
    gives (.voteReceive 1 1 0 2 true 0 none 0 []) { wStepAt wStep4 with stitch := { wOwned.stitch with root := 0x3FFFF } } (fun t =>
      decide ((t.ctx? 1).map (fun y => y.tally.map (·.member)) = some [1])) = true := by decide +kernel

theorem witness_OutcomesAreDecidedAndApplied_deadline : soTc wStep4.entry ≤ (wStepAt wStep4).stitch.count + 1 ∧
    gives (.voteDeadline 1) (wStepAt wStep4) (fun t => decide (((t.ctx? 1).bind (·.step)).any fun y => y.deadline && y.outcome == .unknown)) = true ∧
    gives (.voteDeadline 1) { wStepAt wStep4 with stitch := { wOwned.stitch with root := 0x3FFFF, count := 1 } } (fun t =>
      decide (((t.ctx? 1).bind (·.step)).any fun y => y.outcome == .aborted && y.fails == [(1, 5)])) = true := by decide +kernel

theorem witness_OutcomesAreDecidedAndApplied_outcome :
    gives (.outcomeReceive 1 2 true 4 [] []) (wStepAt wStep4) (fun t => decide (((t.ctx? 1).bind (·.step)).any fun y => y.outcome == .committed)) = true ∧
    soTc wStep4.entry ≤ ({ wOwned.stitch with count := 2 } : Stitch).count ∧
    gives (.stepOutcomeApply 1) { wStepAt wStep4 with stitch := { wOwned.stitch with count := 2 } } (fun t => decide (t.outbox = [.askOutcome 1 2])) = true := by
  decide +kernel

/-- A step of no entries whose outcome is known, and its state at the commit stitch. -/
def wStep5 (o : Outcome3) : Step := { wStep with entry := word [(0, 0x12), (8, 1), (128, 2)], gathered := true, outcome := o }

theorem witness_OutcomesAreDecidedAndApplied_apply :
    ∀ o ∈ [Outcome3.committed, .aborted], StepOf { wStepAt (wStep5 o) with stitch := { wOwned.stitch with count := 2 } } 1 (wStepCtx (wStep5 o)) (wStep5 o) ∧
      soTc (wStep5 o).entry ≤ ({ wOwned.stitch with count := 2 } : Stitch).count := by decide +kernel

/-- A SNAPSHOT of entry 0, its list at 64 of the SLM, to host memory. -/
def wSnapEntry : Nat := word [(0, 0x14), (8, 1), (128, slmBase + 64), (192, 1), (208, 20), (224, 0x100000), (288, 1), (384, 0), (448, 2 ^ 40)]
def wSnapping : State :=
  { wStepAt wStep2 with cmds := [wCmd wSnapEntry], mem := [] }

theorem witness_Snapshot : (wCmd wSnapEntry).opcode = 0x14 ∧ tableAt wSnapping (slmBase + 64) 1 4 true = some [0] ∧
    wSnapping.backed 0x100000 (2 ^ 20) = true ∧ containerBytes (snapLayout [wEntry] 0).2 20 1 ≤ 2 ^ 40 ∧
    gives (.snapshot 3 true) wSnapping (fun t => decide (t.snaps.map (fun p => (p.id, p.armed, p.stage)) = [(1, false, 0x100000)])) = true := by
  decide +kernel

/-- A snapshot of nothing whose step has landed. -/
def wSnap : Snap :=
  { cmd := 3, id := 1, ctx := 1, step := 0, tc := 2, gmap := [], entries := [], runs := [], bytes := 0, chunk := 2 ^ 20, stage := 0x100000, armed := true, copied := [], sent := none }

theorem witness_SnapshotSend : ({ wSnapping with snaps := [wSnap] }.snaps.find? fun p => p.cmd == 3) = some wSnap ∧
    (SnapD.ofWord (wCmd wSnapEntry).entry).latigo = false ∧ loadHeld wSnapping [] = false := by decide +kernel

/-! ## The fabric -/

/-- A member of a job of two modules with a FABRIC command of a kind: four FP32 elements, object 9 counts. -/
def wFabEntry (kind : Nat) : Nat :=
  word [(0, 0x13), (8, 1), (64, kind), (96, slmBase), (160, slmBase + 4096), (224, 4), (384, 1), (480, 9)]
def wFabCmd (kind : Nat) : State :=
  { wOwned with cmds := [wCmd (wFabEntry kind)], sync := [(9, { oCounter 0 with ctx := 1 })], job := { wOwned.job with mode := 1, members := [0x3FFFF, 1] } }

theorem witness_FabricCommandsBecomeOperations :
    ∀ e ∈ fabricRows, (wCmd (wFabEntry e.1)).opcode = 0x13 ∧ (FabD.ofWord (wFabEntry e.1)).kind = e.1 ∧
      fabRefuse (wFabCmd e.1) 1 (FabD.ofWord (wFabEntry e.1)) = none := by decide +kernel
theorem test_put_becomes_an_operation :
    gives (.put 3) (wFabCmd 4) (fun t => decide (t.fab.map (fun o => (o.id, o.cmd, o.kind, o.seq, o.ranks)) = [(1, some 3, .put, 0, [0x3FFFF, 1])])) = true := by
  decide +kernel

/-- An operation of rank 0 of two: 8 bytes or 2 elements of one owner. -/
def wFab (kind : FabKind) (owner : Nat) : FabOp :=
  { id := 6, cmd := some 3, ctx := 1, kind := kind, group := 0, seq := 0, count := 2, fmt := 0, ranks := [0x3FFFF, 1], me := 0, lined := false,
    wait := none, done := some 9, peer := 1, sender := true, dst := slmBase + 4096,
    segs := [{ owner := owner, count := 2, src := slmBase, dst := 0, sSize := 4, pSize := 4, dSize := 4 }], landing := [(slmBase + 4096, 8)],
    sending := [(slmBase, 8)], started := false, starts := [], stripes := [], parts := [], past := [], sent := [], held := [], suspects := [],
    faulty := none, ownFault := false, flags := 0, landed := 0, lost := 0, reset := false, poisoned := false }

/-- A state that holds it. -/
def wFabAt (o : FabOp) : State :=
  { wFabCmd 0 with fab := [o], ctxs := [(1, wStepCtx wStep1)], ports := [(0, { Port.init with state := .up })] }

theorem witness_fabricOpStart : (wFab .reduceScatter 1).ready (wFabAt (wFab .reduceScatter 1)) = true ∧
    touchesAbsent (wFabAt (wFab .reduceScatter 1)) [(slmBase + 4096, 8), (slmBase, 8)] = false ∧
    loadHeld (wFabAt (wFab .reduceScatter 1)) [(slmBase, 8)] = false ∧
    gives (.fabricOpStart 6) (wFabAt (wFab .reduceScatter 1)) (fun t => decide ((t.fabOp? 6).any (·.started) ∧
      .started { ctx := 1, group := 0, seq := 0, sender := 0x3FFFF, op := 6, dst := slmBase + 4096, kind := 0, count := 2, fmt := 0 } ∈ t.outbox)) = true := by
  decide +kernel

/-- A notice of member 1 for it. -/
def wNotice (seq : Nat) : Notice := { ctx := 1, group := 0, seq := seq, sender := 1, op := 8, dst := slmBase + 8192, kind := 0, count := 2, fmt := 0 }

theorem witness_fabricStartNotice : (wNotice 5).fits (wFab .reduceScatter 1) = false ∧ (wNotice 0).fits (wFab .reduceScatter 1) = true ∧
    gives (.fabricStartNotice 1 0 5 1 8 (slmBase + 8192) 0 2 0) (wFabAt (wFab .reduceScatter 1)) (fun t => decide (t.notices = [wNotice 5])) = true ∧
    gives (.fabricStartNotice 1 0 0 1 8 (slmBase + 8192) 0 2 0) (wFabAt (wFab .reduceScatter 1)) (fun t =>
      decide ((t.fabOp? 6).map (·.starts) = some [(1, 8, slmBase + 8192)])) = true := by decide +kernel

/-- The operation has started and its one stripe is over. -/
def wOver (kind : FabKind) : FabOp := { wFab kind 0 with started := true, starts := [(1, 8, 0)], stripes := [{ plane := 0, first := 0, count := 2, moved := false }], past := [(0, 0)] }

theorem witness_fabricOpComplete : (wOver .allGather).whole (wFabAt (wOver .allGather)) = true ∧ (wOver .exchange).whole (wFabAt (wOver .exchange)) = true ∧
    StepOf (wFabAt (wOver .exchange)) 1 (wStepCtx wStep1) wStep1 ∧
    gives (.fabricOpComplete 6 none) (wFabAt (wOver .allGather)) (fun t => decide (t.fab = [] ∧ t.cmds = [] ∧ (t.obj 9).value = 1)) = true ∧
    gives (.fabricOpComplete 6 none) (wFabAt (wOver .exchange)) (fun t => decide (t.fab = [] ∧ ((t.ctx? 1).bind (·.step)).any (·.exchanged))) = true ∧
    gives (.fabricTimeout 6) (wFabAt (wOver .allGather)) (fun t => decide (t.fab = [] ∧ t.cmds = [])) = true := by decide +kernel

/-- A flit of member 1 on port 0 for this module's operation 6, as member 1 numbers it 8. -/
def wHead (kind seq idx addr : Nat) (payload : List Byte) : Nat :=
  withCrc (flitHead 1 seq 4095 0 kind 0 0 { bareFlit with kind := kind, dst := 0x3FFFF, op := 8, idx := idx, addr := addr }) payload

/-- The operation with member 1 started. -/
def wGoes (kind : FabKind) (owner : Nat) : FabOp :=
  { wFab kind owner with started := true, stripes := [{ plane := 0, first := 0, count := 2, moved := false }], starts := [(1, 8, 0)], sender := false }

theorem witness_flitNull : FlitComes (wFabAt (wGoes .put 0)) 0 (wHead 0 0 0 0 []) 0 [] := by decide +kernel

theorem witness_flitData : FlitComes (wFabAt (wGoes .put 0)) 0 (wHead 1 0 0 (slmBase + 4096) [7, 0, 9]) 1 [7, 0, 9] ∧
    (wGoes .put 0).direct = true ∧ flitHeld (wFabAt (wGoes .put 0)) 0 (wHead 1 0 0 (slmBase + 4096) [7, 0, 9]) = false ∧
    (hopTaken (wFabAt (wGoes .put 0)) 0 (wHead 1 0 0 (slmBase + 4096) [7, 0, 9]) 0).downIn (slmBase + 4096) 3 = false ∧
    (hopTaken (wFabAt (wGoes .put 0)) 0 (wHead 1 0 0 (slmBase + 4096) [7, 0, 9]) 0).meetsJournal (slmBase + 4096) 3 = false ∧
    (∃ c, FlitFor (wFabAt (wGoes .put 0)) 0 (wHead 1 0 0 (slmBase + 4096) [7, 0, 9]) (wGoes .put 0) 1 c ∧ c.pSize = c.dSize) ∧
    gives (.flitData 0 (wHead 1 0 0 (slmBase + 4096) [7, 0, 9]) [7, 0, 9] 0 0 0) (wFabAt (wGoes .put 0)) (fun t =>
      decide ((t.port 0).rxSeq = 0 ∧ t.bytes (slmBase + 4096) 3 = [7, 0, 9])) = true := by
  refine ⟨by decide +kernel, by decide, by decide +kernel, by decide +kernel, by decide +kernel, ⟨{ owner := 0, count := 2, src := slmBase, dst := 0, sSize := 4, pSize := 4, dSize := 4, ring := false }, ?_⟩, ?_⟩ <;>
    decide +kernel

theorem witness_flitReduce : FlitComes (wFabAt (wGoes .reduceScatter 1)) 0 (wHead 2 0 0 0 []) 2 [] ∧
    flitHeld (wFabAt (wGoes .reduceScatter 1)) 0 (wHead 2 0 0 0 []) = false ∧
    (∃ c, FlitFor (wFabAt (wGoes .reduceScatter 1)) 0 (wHead 2 0 0 0 []) (wGoes .reduceScatter 1) 1 c ∧
      fromAbove (wFabAt (wGoes .reduceScatter 1)) (wGoes .reduceScatter 1) 1 0 c = false ∧
      (kidsOf (wFabAt (wGoes .reduceScatter 1)) (wGoes .reduceScatter 1) 0 c 0).contains 1 = true ∧
      ((parseReduce c.count []).any residueBad) = false ∧ ((parseReduce c.count [1]).any residueBad) = true) ∧
    gives (.flitReduce 0 (wHead 2 0 0 0 []) [] false 0 0) (wFabAt (wGoes .reduceScatter 1)) (fun t =>
      decide ((t.fabOp? 6).isSome ∧ t.odGet 0x4040 0 = 0)) = true ∧
    gives (.flitReduce 0 (wHead 2 0 0 0 [1]) [1] false 0 0) (wFabAt (wGoes .reduceScatter 1)) (fun t =>
      decide ((t.fabOp? 6).map (·.suspects) = some [(0, 1 * 2 ^ 32)] ∧ t.odGet 0x4040 0 = 1)) = true := by
  refine ⟨by decide +kernel, by decide +kernel, ⟨{ owner := 1, count := 2, src := slmBase, dst := 0, sSize := 4, pSize := 4, dSize := 4, ring := false }, ?_⟩, ?_, ?_⟩ <;>
    decide +kernel

/-- The same at rank 0 of three, and at rank 2 of four, where the flit comes from rank 3. -/
def wGoes3 : FabOp := { wGoes .reduceScatter 1 with ranks := [0x3FFFF, 1, 2] }
def wGoes4 : FabOp := { wGoes .reduceScatter 0 with ranks := [4, 5, 0x3FFFF, 1], me := 2 }

theorem witness_flitReduce_more :
    (∃ c, FlitFor (wFabAt wGoes3) 0 (wHead 2 0 0 0 []) wGoes3 1 c ∧ (kidsOf (wFabAt wGoes3) wGoes3 0 c 0).all ([1].contains ·) = false) ∧
    (∃ c, FlitFor (wFabAt wGoes4) 0 (wHead 2 0 0 0 []) wGoes4 3 c ∧ (kidsOf (wFabAt wGoes4) wGoes4 0 c 2).all ([3].contains ·) = true ∧
      upOf (wFabAt wGoes4) wGoes4 0 c 2 = some 0) ∧
    gives (.flitReduce 0 (wHead 2 0 0 0 []) [] false 0 0) (wFabAt wGoes3) (fun t => decide ((t.fabOp? 6).map (fun o => o.parts.map (·.got)) = some [[1]])) = true ∧
    gives (.flitReduce 0 (wHead 2 0 0 0 []) [] false 0 0) (wFabAt wGoes4) (fun t => decide ((t.fabOp? 6).map (fun o => o.sent.map (·.dest)) = some [0])) = true := by
  refine ⟨⟨{ owner := 1, count := 2, src := slmBase, dst := 0, sSize := 4, pSize := 4, dSize := 4, ring := false }, ?_⟩,
    ⟨{ owner := 0, count := 2, src := slmBase, dst := 0, sSize := 4, pSize := 4, dSize := 4, ring := false }, ?_⟩, ?_, ?_⟩ <;> decide +kernel

/-- At rank 2 of four, a scatter for rank 3 that comes down from rank 0. -/
def wGoesDown : FabOp := { wGoes .reduceScatter 3 with ranks := [1, 5, 0x3FFFF, 6], me := 2 }

theorem witness_flitReduce_down :
    (∃ c, FlitFor (wFabAt wGoesDown) 0 (wHead 2 0 0 0 []) wGoesDown 0 c ∧ fromAbove (wFabAt wGoesDown) wGoesDown 0 0 c = true ∧ 2 ≠ c.owner) ∧
    gives (.flitReduce 0 (wHead 2 0 0 0 []) [] false 0 0) (wFabAt wGoesDown) (fun t => decide ((t.fabOp? 6).map (fun o => o.sent.map (·.dest)) = some [3])) = true := by
  refine ⟨⟨{ owner := 3, count := 2, src := slmBase, dst := 0, sSize := 4, pSize := 4, dSize := 4, ring := false }, ?_⟩, ?_⟩ <;> decide +kernel

/-- A flit this module has sent to rank 1, on a port whose data wavelengths are down. -/
def wResent : State :=
  { wFabAt { wGoes .reduceScatter 1 with sent := [{ plane := 0, idx := 0, dest := 1, vals := [(0x3F800000#32, 128)] }] } with ports := [] }

theorem witness_residueResendRequest : (wResent.port 0).data = false ∧
    gives (.residueResendRequest 6 0 0 1) wResent (fun t =>
      decide (t.odGet 0x4041 0 = 1 ∧ (t.port 0).txq.map (fun f => (f.kind, f.dst, f.op)) = [(2, 1, 6)] ∧ t.outbox = [])) = true := by decide +kernel

/-- A port with two flits not acknowledged. -/
def wUnacked (replays : List Nat) : State :=
  { wOwned with ports := [(0, { Port.init with state := .up, unacked := [(5, { bareFlit with kind := 1 }), (6, { bareFlit with kind := 1 })], replays := replays, txSeq := 7 })] }

theorem witness_flitRetry : FlitComes (wUnacked [6, 5]) 0 (wHead 3 0 0 0 []) 3 [] ∧
    ((hopTaken (wUnacked [6, 5]) 0 (wHead 3 0 0 0 []) 0).port 0).unacked ≠ [] ∧
    ((hopTaken (wUnacked [6, 5]) 0 (wHead 3 0 0 0 []) 0).port 0).replays = [6, 5] ∧
    gives (.flitRetry 0 (wHead 3 0 0 0 []) [] 0 0) (wUnacked [6, 5]) (fun t =>
      decide (t.outbox.length = 2 ∧ (t.port 0).replays = [7, 6] ∧ t.odGet 0x4022 1 = 1)) = true := by decide +kernel

/-! ## Ports -/

/-- Port 12 in a state, in a job of two modules. -/
def wPort (st : PortState) : State :=
  { wFabCmd 0 with ports := [(12, { Port.init with state := st })] }

theorem witness_PortsTrainFailAndRecover_training :
    gives (.portTraining 12 12 40) (wPort .training) (fun t => decide (t.port 12 = { Port.init with state := .up, delay := 40 } ∧ t.odGet 0x4012 13 = 12)) = true ∧
    gives (.portTraining 12 3 40) (wPort .training) (fun t => decide ((t.port 12).state = .failed ∧ t.odGet 0x4012 13 = 3)) = true ∧
    gives (.portTrainingTimeout 12 2) (wPort .training) (fun t => decide ((t.port 12).state = .failed ∧ t.odGet 0x8090 0 = 1)) = true ∧
    stops (.portTraining 48 0 0) (wPort .training) (.noSuchPort 48) = true := by decide +kernel

theorem witness_PortsTrainFailAndRecover_light :
    gives (.laserLightLoss 1 false) (wPort .up) (fun t => decide ((t.port 12).state = .dark)) = true ∧
    gives (.laserLightLoss 1 false) (wPort .disabled) (fun t => decide ((t.port 12).state = .disabled)) = true ∧
    gives (.laserLightLoss 0 false) (wPort .up) (fun t => decide ((t.port 12).state = .up)) = true ∧
    gives (.laserLightLoss 1 true) (wPort .up) (fun t => decide ((t.port 12).state = .upNoHarness)) = true ∧
    gives (.laserLightLoss 1 true) (wPort (.calibrating true false)) (fun t => decide ((t.port 12).state = .calibrating true true)) = true ∧
    stops (.laserLightLoss 4 true) (wPort .up) (.noSuchReceptacle 4) = true := by decide +kernel

theorem witness_PortsTrainFailAndRecover_lock :
    gives (.portLockLoss 12 0x3FFFF false) (wPort .up) (fun t => decide ((t.port 12).state = .failed ∧ bit (t.odGet 0x4013 0) 12)) = true ∧
    gives (.portLockLoss 12 1 false) (wPort .up) (fun t => decide ((t.port 12).state = .up ∧ bit (t.odGet 0x4013 0) 12)) = true ∧
    gives (.harnessLockLoss 12) (wPort .up) (fun t => decide ((t.port 12).state = .upNoHarness)) = true ∧
    gives (.harnessLockRegained 12) (wPort .upNoHarness) (fun t => decide ((t.port 12).state = .up)) = true ∧
    gives (.calibrationDone false 12) (wPort (.calibrating false true)) (fun t => decide ((t.port 12).state = .upNoHarness)) = true ∧
    (wPort .failed).odGet 0x4011 13 = 1 ∧ gives (.portRetrain 12) (wPort .failed) (fun t => decide ((t.port 12).state = .training)) = true := by decide +kernel

/-! ## The Tannery -/

/-- A TEXT stream 1 of context 1: one sample a batch, four entries at 0x200000, one of them in reserve, rows of four
tokens, two queue slots, counters 9 and 10, event 11. -/
def wRecord : Nat :=
  word [(0, 1), (6, 3), (28, 2), (41, 1), (64, 9), (81, 10), (98, 11), (128, 0x200000), (192, slmBase + 4096), (256, slmBase + 0x20000),
    (320, 8192), (352, 4), (384, 1), (416, 1)]
def wParam : Nat := word [(32, 4)]

/-- A context with a free part, and a state that holds a STREAM_OPEN. -/
def wTanCtx : Ctx := { wCtx [] with record := word [(352, 65536)] }
def wTannery (entry : Nat) (t : Stream) : State :=
  { wOwned with cmds := [wCmd entry, { wCmd 0 with id := 4 }], ctxs := [(1, wTanCtx)], streams := [(1, t)],
                sync := [(9, { oCounter 0 with ctx := 1 }), (10, { oCounter 0 with ctx := 1 }), (11, { oEvent 0 with ctx := 1 })],
                mem := image [(slmBase + 0x20000, 64, wParam), (slmBase + 0x20100, 128, wRecord)] }
def wOpenS : Nat := word [(0, 0x15), (8, 1), (64, slmBase + 0x20100)]

theorem witness_StreamsOpenAndClose_opens :
    slmTable (wTannery wOpenS Stream.init) (fld wOpenS 105 64) 128 64 = some wRecord ∧
    slmTable (wTannery wOpenS Stream.init) (Stream.paramAddr wRecord) 64 64 = some wParam ∧
    mergeTable (wTannery wOpenS Stream.init) wParam = some [] ∧ streamOk (wTannery wOpenS Stream.init) 1 wTanCtx wRecord wParam = true ∧
    gives (.streamOpen 3) (wTannery wOpenS Stream.init) (fun t => decide ((t.stream 1).state = 1 ∧ (t.cmd? 3).map (·.stage) = some .active)) = true := by
  decide +kernel

/-- The stream runs, its open command being command 4. -/
def wRuns : Stream := { Stream.init with state := 1, cmd := 4, record := wRecord, param := wParam }

theorem witness_StreamsOpenAndClose_closes : Stream.ctx wRuns.record = 1 ∧
    gives (.streamClose 3) (wTannery (word [(0, 0x16), (8, 1), (64, 1)]) wRuns) (fun t => decide ((t.stream 1).state = 0 ∧ t.cmds = [])) = true := by
  decide +kernel

theorem witness_batchAssemble : hasBatch wRuns 0 = true ∧ 0 + 1 ≤ 0 + Stream.slots wRuns.record ∧
    gives (.batchAssemble 1) (wTannery 0 wRuns) (fun t => decide ((t.stream 1).batches = [{ k := 0, slots := [.need 0 false 0 0], events := [] }])) = true := by
  decide +kernel

/-- The stream with one batch in a state. -/
def wBatch (k : Nat) (v : SlotState) : Stream := { wRuns with batches := [{ k := k, slots := [v], events := [] }], next := k }

theorem witness_sampleStart : nextNeed (wBatch 0 (.need 0 false 0 0)) = some (0, 0, 0, false, 0, 0) ∧
    (∀ p ∈ (List.range 5).map fun i => (i, 1), poolBusy (wTannery 0 (wBatch 0 (.need 0 false 0 0))) p.1 < poolLive (wTannery 0 (wBatch 0 (.need 0 false 0 0))) p ∧
      servedBefore (wTannery 0 (wBatch 0 (.need 0 false 0 0))) 1 0 p.1 = false) ∧
    loadHeld (wTannery 0 (wBatch 0 (.need 0 false 0 0))) [(0x200000 + 32 * 0, 32)] = false ∧
    gives (.sampleStart 1) (wTannery 0 (wBatch 0 (.need 0 false 0 0))) (fun t => decide ((t.stream 1).running.map (·.id) = [1] ∧
      slotAt (t.stream 1) 0 0 = some (.busy 1 0 0))) = true := by decide +kernel

/-- An entry of a text of three bytes in stack memory, and a sample of it that an engine decodes. -/
def wText (n : Nat) : Nat := word [(0, 6), (96, n), (128, 0x300000)]
def wSample (n : Nat) (rv : Bool) : Decode :=
  { id := 7, batch := 0, slot := 0, index := 2, pos := 0, forPos := 0, epoch := 0, reserve := rv, entry := wText n, entryPoison := false, lost := false,
    deadline := 2, done := false, dims := [], data := [] }
def wDecoding (n policy : Nat) (rv : Bool) : Stream :=
  { wBatch 0 (.busy 7 0 0) with record := wRecord + policy * 2 ^ 8, running := [wSample n rv] }

theorem witness_sampleDecoded : Decodes (wTannery 0 (wDecoding 3 0 false)) 1 7 (wSample 3 false) 0 0 ∧
    corruptReason (wTannery 0 (wDecoding 3 0 false)) (wDecoding 3 0 false) (wSample 3 false) 0 false [] [] = 0 ∧
    loadHeld (wTannery 0 (wDecoding 3 0 false)) (deviceRun (wTannery 0 (wDecoding 3 0 false)) (wSample 3 false)) = false ∧
    corruptReason (wTannery 0 (wDecoding 0 1 false)) (wDecoding 0 1 false) (wSample 0 false) 0 false [] [] = 1 ∧
    gives (.sampleDecoded 1 7 5 0 false [] []) (wTannery 0 (wDecoding 3 0 false)) (fun t => decide ((t.stream 1).running = [] ∧
      (slotAt (t.stream 1) 0 0).any slotFull)) = true ∧
    gives (.sampleDecoded 1 7 5 0 false [] []) (wTannery 0 (wDecoding 0 1 false)) (fun t => decide (slotAt (t.stream 1) 0 0 = some (.empty 1) ∧
      t.odGet 0x8062 2 = 1)) = true ∧
    gives (.sampleDecoded 1 7 5 0 false [] []) (wTannery 0 (wDecoding 0 2 false)) (fun t => decide ((t.stream 1).state = 3 ∧ t.cmd? 4 = none)) = true := by
  decide +kernel

theorem witness_sampleOverBudget : Stream.slowPolicy (wDecoding 3 0 false).record ≠ 2 ∧
    decodeBudget (wTannery 0 (wDecoding 3 0 false)) (wDecoding 3 0 false) 6 ≤ 10000000 * 2 ^ 20 ∧
    gives (.sampleOverBudget 1 7 10000000) (wTannery 0 (wDecoding 3 0 false)) (fun t => decide ((t.stream 1).running = [] ∧
      (t.stream 1).parked = [wSample 3 false] ∧ slotAt (t.stream 1) 0 0 = some (.need 3 true 0 slowReason))) = true := by decide +kernel

theorem witness_batchSeal : batchReady { k := 0, slots := [.empty 1], events := [] } = true ∧ hasBatch wRuns 1 = true ∧ hasBatch wRuns 3 = false ∧
    (∀ e ∈ (wTannery 0 wRuns).streams, e.2.consumedCtr ≠ 9) ∧
    gives (.batchSeal 1 0) (wTannery 0 (wBatch 0 (.empty 1))) (fun t => decide ((t.stream 1).next = 1 ∧ (t.stream 1).state = 1 ∧ (t.obj 9).value = 1)) = true ∧
    gives (.batchSeal 1 0) (wTannery 0 (wBatch 2 (.empty 1))) (fun t => decide ((t.stream 1).state = 2 ∧ t.cmd? 4 = none)) = true := by decide +kernel

/-! ## Jobs, contexts and patterns -/

/-- A module with a JOB_OPEN taken: itself as the only member, one set of all cells, no regions, the default pattern. -/
def wJobEntry : Nat := word [(0, 1), (64, 77), (128, slmBase), (256, slmBase + 4096), (384, 1), (432, 1)]
def wJobOpening : State :=
  { State.reset with
    secure := { Secure.init with boot := 2 }, job := { Job.none with state := .opening, openCmd := some 3 }, cmds := [wCmd wJobEntry],
    od := [(Od.key 0x8030 0, 5)], mem := image [(slmBase, 4, 0x3FFFF), (slmBase + 4096, 1, 1)] }
def wPeers : Peers := { period := 0, mode := 0, far := 0, members := 0, pattern := 0, planes := 0 }

theorem witness_JobOpens : Taken wJobOpening 3 0x01 (wCmd wJobEntry) ∧ openDenied wJobOpening = false ∧
    (openChecks wJobOpening (JobD.ofWord wJobEntry) wPeers).isSome = true ∧
    gives (.jobOpen 3 0 0 0 0 0 0) wJobOpening (fun t => decide (t.job.state = .opening ∧ t.job.members = [0x3FFFF] ∧ t.odGet 0x8030 0 = 0 ∧
      t.job.zeroAtEdge ∧ t.job.budgetMHz = t.odGet 0x5007 0)) = true := by decide +kernel

/-- A module of a job with a JOB_CLOSE taken, a running piece, an open step and a running stream. -/
def wClosing : State :=
  { wOwned with
    cmds := [wCmd 2, { wCmd 0x15 with id := 4 }, { wCmd (word [(0, 0x12), (8, 1)]) with id := 6 }, { wCmd 0x30 with id := 8, ring := 1025 }],
    ctxs := [(1, { wCtx [] with step := some { wStep with cmd := 6 } })], streams := [(1, wRuns)], cells := [(5, { Cell.init with piece := some (wPiece []) })] }

theorem witness_JobCloses : Taken wClosing 3 0x02 (wCmd 2) ∧ wClosing.job.state = .owned ∧
    gives (.jobClose 3) wClosing (fun t => decide (t.job.state = .scrubbing ∧ t.cmds.map (·.id) = [8] ∧ (t.stream 1).state = 0 ∧
      t.pieceOf 5 = none ∧ ((t.ctx? 1).bind (·.step)).isNone)) = true := by decide +kernel

theorem witness_Scrub :
    gives (.scrubComplete [] [])
      { wClosing with job := { Job.none with state := .scrubbing }, rings := [(0, { Ring.init with enable := true, state := .running, cqTail := 3 })] } (fun t =>
      decide (t.job = Job.none ∧ t.ctxs = [] ∧ (t.ring 0).cqTail = 0 ∧ (t.ring 0).state = .disabled ∧ t.odGet 0x9030 0 = 1 ∧ t.pieceOf 5 = none)) = true := by
  decide +kernel

/-- A RUN of two pieces whose descriptors stand at 4096 of the SLM; a GRID whose descriptor stands there. -/
def wRunEntry : Nat := word [(0, 0x10), (8, 1), (64, slmBase + 4096), (128, 2)]
def wGridEntry : Nat := word [(0, 0x11), (8, 1), (64, slmBase + 4096)]
def wQueues (entry d : Nat) : State :=
  { wOwned with
    cmds := [wCmd entry], ctxs := [(1, wCtx [])], sync := [(9, { SyncObj.free with kind := .tileCounter, ctx := 1, param := 4, value := 4, doneCount := 4 })],
    mem := image [(slmBase + 4096, 64, d), (slmBase + 4160, 64, d)] }

theorem witness_RunAndGrid : Taken (wQueues wRunEntry (wDesc 1 0)) 3 0x10 (wCmd wRunEntry) ∧
    slmEntries (wQueues wRunEntry (wDesc 1 0)) (slmBase + 4096) 2 64 64 = some [wDesc 1 0, wDesc 1 0] ∧
    pdCtx (wDesc 1 0) = 1 ∧ pdTileEn (wDesc 1 0) = false ∧
    slmTable (wQueues wGridEntry (wDesc 4 1)) (slmBase + 4096) 64 64 = some (wDesc 4 1) ∧
    gives (.run 3) (wQueues wRunEntry (wDesc 1 0)) (fun t => decide ((t.ctx? 1).map (·.queue) =
      some [.piece 3 0 (wDesc 1 0) none false, .piece 3 1 (wDesc 1 0) none false] ∧ (t.cmd? 3).map (·.left) = some 2)) = true ∧
    gives (.grid 3) (wQueues wGridEntry (wDesc 4 1)) (fun t => decide ((t.ctx? 1).map (·.queue) = some [.grid 3 (wDesc 4 1) 9] ∧
      (t.obj 9).value = 0 ∧ (t.obj 9).doneCount = 0)) = true := by decide +kernel

/-- A class 2 context whose RUN was deferred three times, and a limit of three. -/
def wDeferred : State :=
  { wOwned with cmds := [{ wCmd wRunEntry with k := 3 }], ctxs := [(1, { wCtx [] with record := word [(16, 2)] })], od := [(Od.key 0x5012 0, 3)] }

theorem witness_class2Refuse : classOf wDeferred 1 = 2 ∧ wDeferred.odGet 0x5012 0 = 3 ∧
    gives (.class2Refuse 3) wDeferred (fun t => t.cmds.isEmpty) = true := by decide +kernel

/-- The record of context 1 (pinned or not) at 4096 of the SLM, with one counter of index 9. -/
def wCtxRecord (pin : Nat) : Nat :=
  word [(0, 1), (16, 1), (18, pin), (96, 1), (352, 65536), (256, 65536), (384, 0x40000000), (448, slmBase + 8192)]
def wCreating (pin : Nat) : State :=
  { wOwned with
    cmds := [wCmd (word [(0, 3), (8, 1), (64, slmBase + 4096)])],
    mem := image [(slmBase + 4096, 64, wCtxRecord pin), (slmBase + 8192, 16, word [(60, 1), (64, 9)])] }

theorem witness_ContextCreates :
    slmTable (wCreating 0) (slmBase + 4096) 64 64 = some (wCtxRecord 0) ∧ recordOk (wCreating 0) (Ctx.fresh (wCtxRecord 0) []) = true ∧
    ((slmEntries (wCreating 0) (slmBase + 8192) 1 16 16).bind (objectsOf (wCreating 0) 1)).isSome = true ∧
    pinRefused (wCreating 1) (Ctx.fresh (wCtxRecord 1) []) = false ∧
    gives (.contextCreate 3 0) (wCreating 0) (fun t => decide ((t.ctx? 1).map (·.objs) = some [9] ∧ (t.obj 9).kind = .counter ∧ t.cmds = [])) = true ∧
    gives (.contextCreate 3 0) (wCreating 1) (fun t => decide ((t.ctx? 1).map (·.createCmd) = some (some 3) ∧ t.cmds.length = 1)) = true := by decide +kernel

/-- The context of object 9, to be destroyed. -/
def wDestroying : State :=
  { wOwned with cmds := [wCmd (word [(0, 4), (8, 1)])], ctxs := [(1, wCtx [])], sync := [(9, { oCounter 4 with ctx := 1 })] }

theorem witness_ContextDestroys : mayDestroy wDestroying 1 3 (wCtx []) = true ∧
    gives (.contextDestroy 3) wDestroying (fun t => decide (t.ctxs = [] ∧ t.sync = [] ∧ t.cmds = [])) = true := by decide +kernel

/-- A pattern of 48 entries at 65536 of the SLM as the default pattern of a period of 40 µs has them, and a PATTERN_LOAD
that begins at stitch 2. -/
def wPattern : State :=
  { wOwned with
    od := [(Od.key 0x5002 0, 40)], cmds := [wCmd (word [(0, 5), (64, slmBase + 65536), (128, 48), (192, 2)])],
    mem := (List.range 48).flatMap fun i => image [(slmBase + 65536 + 64 * i, 4, (((defaultPattern 40).entries.getD i (0, [])).1))] }

theorem get_append_skip (m n : List Host.Cell) (a : Nat) (h : ∀ e ∈ m, e.1 ≠ a) : Sp.get (0 : Byte) (m ++ n) a = Sp.get 0 n a := by
  induction m with
  | nil => rfl
  | cons e r ih =>
    simp only [List.cons_append, Sp.get]
    rw [if_neg (fun k => h e (by simp) k.symm), ih (fun x hx => h x (by simp [hx]))]

theorem get_append_keep (m n : List Host.Cell) (a : Nat) (h : ∀ e ∈ n, e.1 ≠ a) : Sp.get (0 : Byte) (m ++ n) a = Sp.get 0 m a := by
  induction m with
  | nil =>
    induction n with
    | nil => rfl
    | cons e r ih =>
      simp only [List.nil_append, Sp.get] at ih ⊢
      rw [if_neg (fun k => h e (by simp) k.symm)]
      exact ih fun x hx => h x (by simp [hx])
  | cons e r ih => simp only [List.cons_append, Sp.get]; rw [ih]

/-- The bytes of entry i of that pattern. -/
def wSeg (i : Nat) : List Host.Cell := image [(slmBase + 65536 + 64 * i, 4, (((defaultPattern 40).entries.getD i (0, [])).1))]

/-- A state that holds entry i only. -/
def wSegState (i : Nat) : State := { wPattern with mem := wSeg i }

theorem wSeg_key (i : Nat) : ∀ e ∈ wSeg i, slmBase + 65536 + 64 * i ≤ e.1 ∧ e.1 < slmBase + 65536 + 64 * i + 64 := by
  intro e he
  simp only [wSeg, image, List.flatMap_cons, List.flatMap_nil, List.append_nil, List.mem_map, List.mem_filter] at he
  obtain ⟨b, ⟨hb, _⟩, rfl⟩ := he
  have : b.2 < 4 := by
    have := List.mem_zipIdx hb
    have h4 : ∀ v, (leBytes 4 v).length = 4 := fun v => rfl
    rw [h4] at this
    omega
  simp only
  omega

theorem get_flatMap_seg (i a : Nat) (ha : slmBase + 65536 + 64 * i ≤ a ∧ a < slmBase + 65536 + 64 * i + 64) :
    ∀ n, Sp.get (0 : Byte) ((List.range n).flatMap wSeg) a = if i < n then Sp.get 0 (wSeg i) a else 0
  | 0 => rfl
  | n + 1 => by
    rw [List.range_succ, List.flatMap_append]
    simp only [List.flatMap_cons, List.flatMap_nil, List.append_nil]
    by_cases h : i = n
    · subst h
      rw [get_append_skip, if_pos (by omega)]
      intro e he
      obtain ⟨k, hk, he⟩ := List.mem_flatMap.mp he
      have := wSeg_key k e he
      have := List.mem_range.mp hk
      omega
    · rw [get_append_keep, get_flatMap_seg i a ha n]
      · by_cases g : i < n
        · rw [if_pos g, if_pos (by omega)]
        · rw [if_neg g, if_neg (by omega)]
      · intro e he
        have := wSeg_key n e he
        omega

theorem undefAt_none (s : State) (a : Nat) (h : s.cells = []) : s.undefAt a = none := by
  unfold State.undefAt State.cell
  rw [h]
  cases cellOfAddr a <;> rfl

theorem wPattern_rd (i : Nat) (hi : i < 48) :
    wPattern.rd (slmBase + 65536 + 64 * i) 64 = (wSegState i).rd (slmBase + 65536 + 64 * i) 64 := by
  unfold State.rd State.bytes
  congr 1
  refine List.map_congr_left fun j hj => ?_
  have hj := List.mem_range.mp hj
  have h : ∀ a, wPattern.byte a = Sp.get 0 ((List.range 48).flatMap wSeg) a := fun a => by
    unfold State.byte
    rw [undefAt_none wPattern a rfl]
    rfl
  have g : ∀ a, (wSegState i).byte a = Sp.get 0 (wSeg i) a := fun a => by
    unfold State.byte
    rw [undefAt_none (wSegState i) a rfl]
    rfl
  rw [h, g, get_flatMap_seg i _ (by omega) 48, if_pos hi]

/-- The entries of that pattern. -/
def wEntries : List Nat := (defaultPattern 40).entries.map (·.1)

theorem wSegState_rd : ((List.range 48).map fun i => (wSegState i).rd (slmBase + 65536 + 64 * i) 64) = wEntries := by decide +kernel

theorem wPattern_read : readPattern wPattern (slmBase + 65536) 48 = some (wEntries.map fun e => (e, [])) := by
  unfold readPattern
  rw [if_pos (by decide +kernel), show (List.range 48).map (fun i => wPattern.rd (slmBase + 65536 + 64 * i) 64) = wEntries from
    (List.map_congr_left fun i hi => wPattern_rd i (List.mem_range.mp hi)).trans wSegState_rd]
  have h : ∀ es : List Nat, es.all (fun e => peCount e == 0) = true →
      es.mapM (fun e => if peCount e = 0 then some (e, []) else (tableAt wPattern (peAssign e) (peCount e) 4 true).map fun l => (e, l)) =
        some (es.map fun e => (e, [])) := by
    intro es
    induction es with
    | nil => intro _; rfl
    | cons e r ih =>
      intro h
      simp only [List.all_cons, Bool.and_eq_true, beq_iff_eq] at h
      rw [List.mapM_cons, if_pos h.1, ih h.2]
      rfl
  exact h _ (by decide +kernel)

theorem admitPattern_isSome (s : State) (mode a len start : Nat) (es : List (Nat × List Nat)) (h : readPattern s a len = some es)
    (k : (es.all fun e => entryOk s mode e.1 e.2) = true)
    (l : spansOk ((es.map (·.1)).map peLink) (linkSpan s.periodUs) = true) (r : ratesOk (es.map (·.1)) s.periodUs = true) :
    (admitPattern s mode a len start).isSome = true := by
  simp only [admitPattern, h, k, l, r, and_self, if_true, Option.isSome_some]

theorem witness_PatternLoads : (admitPattern wPattern 0 (slmBase + 65536) 48 2).isSome = true ∧ wPattern.job.pending = none ∧
    wPattern.odGet 0x5001 0 = 0 :=
  ⟨admitPattern_isSome wPattern 0 _ 48 2 _ wPattern_read (by decide +kernel) (by decide +kernel) (by decide +kernel), by decide +kernel, by decide +kernel⟩

/-- A pending pattern of no assignments; a RUN of a class 1 context that loses its share. -/
def wPending : State :=
  { wOwned with
    job := { wOwned.job with pending := some { pat := { start := 1, entries := [] }, cmd := 4 } }, ctxs := [(1, { wCtx [] with record := word [(16, 1)] })],
    cmds := [wCmd wRunEntry, { wCmd 5 with id := 4 }] }

theorem witness_PatternTakesEffect : (1 : Nat) ≤ wPending.stitch.count + 1 ∧
    gives .patternTakeEffect wPending (fun t => decide (t.job.pending = none ∧ t.cmds = [])) = true := by decide +kernel

/-- A context at the end of its load, its creation waiting. -/
def wSwap (loading : Bool) : State :=
  { wOwned with ctxs := [(1, { wCtx [] with swapEnd := some 1, loading := loading, createCmd := some 3, resident := !loading })], cmds := [wCmd (word [(0, 3), (8, 1)])] }

theorem witness_swapComplete :
    (∀ c, (wSwap true).cmd? 3 = some c → c.ctx = 1) ∧
    gives (.swapComplete 1) (wSwap true) (fun t => decide ((t.ctx? 1).map (·.resident) = some true ∧ t.cmds = [])) = true ∧
    gives (.swapComplete 1) (wSwap false) (fun t => decide ((t.ctx? 1).map (·.resident) = some false)) = true := by decide +kernel

/-! ## Host memory and rings -/

/-- A HOST_COPY of context 1 of 64 bytes of SLM. -/
def wCopy (toHost : Nat) : Nat := word [(0, 0x18), (8, 1), (64, toHost), (128, 0x1000), (192, slmBase + 0x20000), (256, 64)]
def wCopying (toHost : Nat) : State :=
  { wOwned with cmds := [wCmd (wCopy toHost)], hostReads := [{ id := 6, cmd := 3, addr := slmBase + 0x20000, bytes := 64, left := 64 }],
                mem := image [(slmBase + 0x20000, 4, 0x1234)], poison := [(slmBase + 0x20020) / 32] }

theorem witness_HostCopiesMoveData_out : Taken (wCopying 0) 3 0x18 (wCmd (wCopy 0)) ∧ copyRefuses (wCopying 0) (CopyD.ofWord (wCopy 0)) true = none ∧
    Taken (wCopying 1) 3 0x18 (wCmd (wCopy 1)) ∧ copyRefuses (wCopying 1) (CopyD.ofWord (wCopy 1)) true = none ∧ loadHeld (wCopying 1) [(slmBase + 0x20000, 64)] = false ∧
    gives (.hostCopyToDevice 3 true) (wCopying 0) (fun t => decide (t.hostReads.length = 2 ∧ t.cmds.map (·.stage) = [.active])) = true ∧
    gives (.hostCopyToHost 3 true) (wCopying 1) (fun t => decide (t.cmds = [] ∧
      t.outbox = [.hostWrite 0x1000 (leBytes 32 0x1234) false, .hostWrite 0x1020 (List.replicate 32 0) true])) = true := by decide +kernel

theorem witness_HostCopiesMoveData_in : (wCopying 0).snaps = [] ∧ storeHeld (wCopying 0) [(slmBase + 0x20000, 32)] = false ∧ targetDown (wCopying 0) (slmBase + 0x20000) = false ∧
    gives (.pcieReadCompletion 6 0 (leBytes 32 0x55) false) (wCopying 0) (fun t => decide (t.hostReads.map (·.left) = [32] ∧ t.byte (slmBase + 0x20000) = 0x55)) = true ∧
    gives (.pcieReadCompletion 6 0 (leBytes 32 0x55) true) (wCopying 0) (fun t => decide (t.poisonAt (slmBase + 0x20000) = true ∧ t.byte (slmBase + 0x20000) = 0)) = true ∧
    gives (.pcieReadCompletion 6 0 (leBytes 64 0x55) false) (wCopying 0) (fun t => decide (t.cmds = [] ∧ t.hostReads = [])) = true := by decide +kernel

/-- A ring of 16 entries at 1 MiB and 16 records behind it, with the entry taken next, and a pattern that names context 1. -/
def wRing : Ring := { Ring.init with state := .running, enable := true, sqBase := slmBase + 0x100000, cqBase := slmBase + 0x101000, sqTail := 1, cqTail := 2 }
def wServe (n e : Nat) (bad : Bool) : State :=
  { wOwned with rings := [(n, wRing)], mem := image [(slmBase + 0x100000, 64, e)], ctxs := [(1, wTanCtx)],
                poison := if bad then [(slmBase + 0x100000) / 32] else [],
                job := { wOwned.job with pattern := some { start := 0, entries := [(0, [word [(22, 1)]])] } } }
def wRunE : Nat := word [(0, 0x10), (8, 1), (64, slmBase + 0x40000), (128, 5)]

theorem witness_ringEntryTake_context : nextRing (markHeld (wServe 1 wRunE false)) = some 1 ∧ (wServe 1 wRunE false).cmd? 0 = none ∧
    (entryWord (markHeld (wServe 1 wRunE false)) (slmBase + 0x100000)) = (wRunE, false) ∧ ringEntryOk (wServe 1 wRunE false) 1 wRunE = true ∧
    placesTaken (wServe 1 wRunE false) 1 = 0 ∧ hasShare (wServe 1 wRunE false) 1 wTanCtx = true ∧
    gives .ringEntryTake (wServe 1 wRunE false) (fun t => decide (t.cmds.map (·.entry) = [wRunE] ∧ (t.ring 1).sqHead = 1 ∧ t.lastRing = 3)) = true := by
  decide +kernel
theorem witness_ringEntryTake_bad : nextRing (markHeld (wServe 1 wRunE true)) = some 1 ∧
    gives .ringEntryTake (wServe 1 wRunE true) (fun t => decide (t.cmds = [] ∧ (t.ring 1).sqHead = 1 ∧ t.rd (slmBase + 0x101080) 1 = St.badDescriptor)) = true := by
  decide +kernel
theorem witness_ringEntryTake_od : nextRing (markHeld (wServe 1025 0x30 false)) = some 1025 ∧
    gives .ringEntryTake (wServe 1025 0x30 false) (fun t => decide (t.cmds.length = 1 ∧ t.odQueue.map (·.tag) = [0])) = true := by decide +kernel

theorem witness_RingsTakeEntriesAndDoorbells_doorbells : bar0Live (wServe 1 0 false) = true ∧ ((wServe 1 0 false).ring 1).serves = true ∧
    ((wServe 1 0 false).ring 1).sqFree = 14 ∧
    gives (.sqTail 1 15) (wServe 1 0 false) (fun t => decide ((t.ring 1).sqTail = 15)) = true ∧
    gives (.sqTail 1 0) (wServe 1 0 false) (fun t => decide ((t.ring 1).state = .fault ∧ (t.ring 1).cause = 2)) = true ∧
    gives (.sqTail 1 16) (wServe 1 0 false) (fun t => decide ((t.ring 1).cause = 2)) = true ∧
    gives (.cqHead 1 2) (wServe 1 0 false) (fun t => decide ((t.ring 1).cqHead = 2)) = true ∧
    gives (.cqHead 1 3) (wServe 1 0 false) (fun t => decide ((t.ring 1).cause = 3)) = true := by decide +kernel

theorem witness_RingsTakeEntriesAndDoorbells_enables : bar0Live (wServe 1 0 false) = true ∧ ((wServe 1 0 false).ring 2).enable = false ∧
    gives (.ringEnable 1 false 0 0 0 0) (wServe 1 0 false) (fun t => decide ((t.ring 1).state = .disabled)) = true ∧
    gives (.ringEnable 2 true (slmBase + 0x200000) (slmBase + 0x201000) 4 4) (wServe 1 0 false) (fun t => decide ((t.ring 2).state = .running)) = true ∧
    gives (.ringEnable 2 true (slmBase + 0x200000) (slmBase + 0x200000) 4 4) (wServe 1 0 false) (fun t => decide ((t.ring 2).cause = 1)) = true ∧
    gives (.sqTail 1026 0) (wServe 1 0 false) (· == wServe 1 0 false) = true := by decide +kernel


theorem witness_Bar2ReadsAndWritesMemory : bar0Live (wCopying 0) = true ∧ viewAddr ((wCopying 0).bar2Base + 0xC000020000 + 1) = some (slmBase + 0x20000 + 1) ∧
    viewAddr 0xC500000000 = none ∧ bar2Reaches (wCopying 0) (slmBase + 0x20001) = true ∧ targetDown (wCopying 0) (slmBase + 0x20001) = false ∧
    bar0Live State.reset = false ∧ loadHeld (wCopying 0) (bar2Runs (wCopying 0) ((wCopying 0).bar2Base + 0xC000020000) 4) = false ∧
    storeHeld (wCopying 0) (bar2Runs (wCopying 0) ((wCopying 0).bar2Base + 0xC000020000) 2) = false ∧
    gives (.bar2WindowBase (2 ^ 31) 30) (wCopying 0) (fun t => decide (t.bar2Base = 2 ^ 31 ∧ t.bar2Log = 30)) = true ∧
    gives (.bar2WindowBase 5 40) (wCopying 0) (fun t => decide (t.bar2Base = (wCopying 0).bar2Base ∧ t.bar2Log = 40)) = true ∧
    gives (.bar2Read 0xC000020000 4) (wCopying 0) (fun t => decide (t.outbox = [.bar2Data [0x34, 0x12, 0, 0] false])) = true ∧
    gives (.bar2Read 0xC000020020 1) (wCopying 0) (fun t => decide (t.outbox = [.bar2Data [0] true])) = true ∧
    gives (.bar2Write 0xC000020000 [7, 8] false) (wCopying 0) (fun t => decide (t.rd (slmBase + 0x20000) 4 = 0x0807)) = true ∧
    gives (.bar2Write 0xC000020000 [7, 8] true) (wCopying 0) (fun t => decide (t.poisonAt (slmBase + 0x20001) = true ∧ t.byte (slmBase + 0x20000) = 0)) = true := by
  decide +kernel

/-! ## The object dictionary -/

/-- A request of the mailbox, and a booted module without a job whose server has it next. -/
def wReq (op index sub off len total : Nat) (data : List Byte) : OdReq :=
  { who := .mailbox, tag := 1, block := word [(0, op), (16, index), (32, sub), (160, len), (192, total), (224, off)], data := data, refused := none }
def wOd (q : OdReq) : State :=
  { State.reset with secure := { Secure.init with boot := 2, stage := 2, scope := 16 }, odQueue := [q], mailbox := { State.reset.mailbox with busy := true },
                     od := [(Od.key 0x8090 0, 9), (Od.key 0x7040 0, 1)] }
def wWr (index sub n v : Nat) : OdReq := wReq 0x31 index sub 0 n 0 (leBytes n v)

/-- Does the server take this request through a row, for an entry with this property? -/
def odTaken (s : State) (k : OdKind) (q : OdReq) (p : OdEntry → Bool) : Bool :=
  match Od.entry? (OdBlk.ofWord q.block).index (OdBlk.ofWord q.block).sub with
  | some e => decide (OdTakes s k q [] e) && p e
  | none => false
def odWritten (s : State) (k : OdKind) (q : OdReq) (index sub v : Nat) : Bool := odTaken s k q fun e => decide (OdWrites s k q [] e index sub v)
/-- The result in the mailbox. -/
def answers (c : Instr) (q : OdReq) (p : State → Bool) : Bool := gives c (wOd q) fun t => t.mailbox.tag == 1 && !t.mailbox.busy && t.odQueue.isEmpty && p t

theorem witness_EntriesAreReadAndWritten_read :
    odTaken (wOd (wReq 0x30 0x8090 0 0 16 0 [])) .read (wReq 0x30 0x8090 0 0 16 0 []) (fun e => decide (e.right ≠ .wo ∧ e.ty ≠ .domain ∧
      (odBytes (wOd (wReq 0x30 0x8090 0 0 16 0 [])) e 0x8090 0).length ≤ 16)) = true ∧
    answers .odRead (wReq 0x30 0x8090 0 0 16 0 []) (fun t => decide (t.mailbox.length = 8 ∧ leNat (t.mailbox.data.take 8) = 9)) = true ∧
    odTaken (wOd (wWr 0x8090 0 8 1)) .write (wWr 0x8090 0 8 1) (fun e => decide (e.right = .ro)) = true ∧
    answers .odWrite (wWr 0x8090 0 8 1) (fun t => decide (t.mailbox.result = OdRes.readOnly ∧ t.odGet 0x8090 0 = 9)) = true := by decide +kernel

theorem witness_EntriesAreReadAndWritten_write :
    odWritten (wOd (wWr 0x8090 1 8 9)) .write (wWr 0x8090 1 8 9) 0x8090 1 9 = true ∧ answers .odWrite (wWr 0x8090 1 8 9) (fun t => t.odGet 0x8090 1 == 9) = true ∧
    odWritten (wOd (wWr 0x3010 0 1 16)) .write (wWr 0x3010 0 1 16) 0x3010 0 16 = true ∧ ringsClear ((wOd (wWr 0x3010 0 1 16)).odSet 0x3010 0 16) = true ∧
    answers .odWrite (wWr 0x3010 0 1 16) (fun t => t.odGet 0x3010 0 == 16) = true ∧
    odWritten (wOd (wWr 0x4011 48 1 0)) .write (wWr 0x4011 48 1 0) 0x4011 48 0 = true ∧ answers .odWrite (wWr 0x4011 48 1 0) (fun t => (t.port 47).state == .disabled) = true ∧
    odWritten (wOd (wWr 0x4011 1 1 1)) .write (wWr 0x4011 1 1 1) 0x4011 1 1 = true ∧
    odWritten (wOd (wWr 0x7003 0 1 1)) .write (wWr 0x7003 0 1 1) 0x7003 0 1 = true ∧ answers .odWrite (wWr 0x7003 0 1 1) (fun t => t.flash.bootLevel == 1) = true ∧
    odWritten (wOd (wWr 0x3040 0 1 7)) .write (wWr 0x3040 0 1 7) 0x3040 0 7 = true ∧ 0x3040 ∉ ruledEntries := by decide +kernel

/-- An open transfer of the mailbox, and a state that holds it. -/
def wXfT (index moved total : Nat) (data : List Byte) : Transfer :=
  { who := .mailbox, write := true, index := index, sub := 0, total := total, moved := moved, data := data }
def wMoves (q : OdReq) (t : Transfer) : State := { wOd q with transfers := [t] }
def wSegW (index off n total : Nat) : OdReq := wReq 0x33 index 0 off n total (leBytes n 0x55)

theorem witness_SegmentsMoveDomainValues_read :
    odTaken (wOd (wReq 0x32 0x9010 0 0 4 0 [])) .segRead (wReq 0x32 0x9010 0 0 4 0 []) (fun e => decide (e.right ≠ .wo ∧ e.ty = .domain)) = true ∧
    odTaken (wOd (wReq 0x32 0x9012 0 0 4 0 [])) .report (wReq 0x32 0x9012 0 0 4 0 []) (fun e => decide (e.right ≠ .wo ∧ e.ty = .domain)) = true ∧
    odTaken (wMoves (wReq 0x32 0x9010 0 2 4 5 []) (wXfT 0x9010 2 5 [1, 2, 3, 4, 5])) .segRead (wReq 0x32 0x9010 0 2 4 5 []) (fun _ => true) = true ∧
    (wMoves (wReq 0x32 0x9010 0 2 4 5 []) (wXfT 0x9010 2 5 [1, 2, 3, 4, 5])).transfers.find? (fun t => t.is .mailbox (OdBlk.ofWord (wReq 0x32 0x9010 0 2 4 5 []).block)) =
      some (wXfT 0x9010 2 5 [1, 2, 3, 4, 5]) ∧
    gives .odSegRead (wMoves (wReq 0x32 0x9010 0 2 4 5 []) (wXfT 0x9010 2 5 [1, 2, 3, 4, 5])) (fun t => decide (t.transfers = [] ∧ t.mailbox.result = OdRes.ok ∧
      t.mailbox.data.take 3 = [3, 4, 5] ∧ fld t.mailbox.request 223 192 = 5)) = true ∧
    gives .odSegRead (wMoves (wReq 0x32 0x9010 0 2 2 5 []) (wXfT 0x9010 2 5 [1, 2, 3, 4, 5])) (fun t => decide (t.transfers.map (·.moved) = [4])) = true := by
  decide +kernel

theorem witness_SegmentsMoveDomainValues_write :
    odTaken (wMoves (wSegW 0x9002 2 2 5) (wXfT 0x9002 2 5 [1, 2])) .stageData (wSegW 0x9002 2 2 5) (fun e => decide (e.right ≠ .ro ∧ e.right ≠ .const ∧ e.ty = .domain)) = true ∧
    odTaken (wMoves (wSegW 0x9002 2 2 5) (wXfT 0x9002 2 5 [1, 2])) .segWrite (wSegW 0x9002 2 2 5) (fun _ => true) = true ∧
    SegmentFits (wMoves (wSegW 0x9002 2 2 5) (wXfT 0x9002 2 5 [1, 2])) (wSegW 0x9002 2 2 5) (wXfT 0x9002 2 5 [1, 2]) ∧
    gives .fwStageData (wMoves (wSegW 0x9002 2 2 5) (wXfT 0x9002 2 5 [1, 2])) (fun t => decide (t.transfers = [wXfT 0x9002 4 5 [1, 2, 0x55, 0]])) = true ∧
    SegmentFits (wMoves (wSegW 0x9002 2 3 5) (wXfT 0x9002 2 5 [1, 2])) (wSegW 0x9002 2 3 5) (wXfT 0x9002 2 5 [1, 2]) ∧
    gives .odSegWrite (wMoves (wSegW 0x9002 2 3 5) (wXfT 0x9002 2 5 [1, 2])) (fun t => decide (t.transfers = [] ∧ t.flash.slotB = [1, 2, 0x55, 0, 0])) = true ∧
    odTaken (wMoves (wSegW 0x9021 2 3 5) (wXfT 0x9021 2 5 [1, 2])) .token (wSegW 0x9021 2 3 5) (fun e => decide (e.right ≠ .ro ∧ e.right ≠ .const ∧ e.ty = .domain)) = true ∧
    SegmentFits (wMoves (wSegW 0x9021 2 3 5) (wXfT 0x9021 2 5 [1, 2])) (wSegW 0x9021 2 3 5) (wXfT 0x9021 2 5 [1, 2]) ∧
    gives .debugToken (wMoves (wSegW 0x9021 2 3 5) (wXfT 0x9021 2 5 [1, 2])) (fun t => decide (t.mailbox.result = OdRes.state ∧ t.secure.refusals = 1 ∧ t.secure.scope = 16)) = true := by
  decide +kernel

theorem witness_SegmentsMoveDomainValues_ends :
    odTaken (wOd (wSegW 0x9002 0 2 5)) .stageData (wSegW 0x9002 0 2 5) (fun e => decide (e.ty = .domain)) = true ∧ 5 ≤ bundleMax ∧
    gives .fwStageData (wOd (wSegW 0x9002 0 2 5)) (fun t => decide (t.secure.stage = 1 ∧ t.transfers = [wXfT 0x9002 2 5 [0x55, 0]])) = true ∧
    odTaken (wMoves (wReq 0x34 0x9002 0 0 0 0 []) (wXfT 0x9002 2 5 [1, 2])) .segAbort (wReq 0x34 0x9002 0 0 0 0 []) (fun e => decide (e.ty = .domain)) = true ∧
    gives .odSegAbort (wMoves (wReq 0x34 0x9002 0 0 0 0 []) (wXfT 0x9002 2 5 [1, 2])) (fun t => decide (t.transfers = [] ∧ t.secure.stage = 2)) = true ∧
    gives (.segTransferTimeout 0) { wMoves (wSegW 0x9002 0 2 5) (wXfT 0x9002 2 5 [1, 2]) with secure := { Secure.init with boot := 2, stage := 1 } }
      (fun t => decide (t.transfers = [] ∧ t.secure.stage = 0 ∧ t.odQueue.length = 1)) = true := by decide +kernel

theorem witness_fwActivate : odWritten (wOd (wWr 0x9004 0 1 1)) .activate (wWr 0x9004 0 1 1) 0x9004 0 1 = true ∧ (wOd (wWr 0x9004 0 1 1)).secure.stage = 2 ∧
    gives .fwActivate (wOd (wWr 0x9004 0 1 1)) (fun t => decide (t.secure.boot = 0 ∧ t.power.resetLow = true ∧ t.flash.selA.isSome = true)) = true := by decide +kernel

-- Where the active bundle has a security version above the fuses', SVN_COMMIT may act.
theorem witness_svnCommit (bs : List Byte) (h : 0 < Config.bundleSvn bs) :
    svnMay { wOd (wWr 0x9006 0 1 1) with flash := { State.reset.flash with slotA := bs } } = true ∧
    odWritten { wOd (wWr 0x9006 0 1 1) with flash := { State.reset.flash with slotA := bs } } .svnCommit (wWr 0x9006 0 1 1) 0x9006 0 1 = true := by
  constructor
  · have : 0 < min 128 (Config.bundleSvn bs) := by omega
    simpa [svnMay, wOd, activeSvn, State.reset, Secure.init, Flash.slot, Flash.init] using this
  · rfl

theorem witness_RuledEntriesAct_security :
    odWritten (wOd (wWr 0x9011 0 32 77)) .nonce (wWr 0x9011 0 32 77) 0x9011 0 77 = true ∧
    answers .attestNonce (wWr 0x9011 0 32 77) (fun t => decide (nonceOf t .mailbox = 77 ∧ nonceOf t .ring = 0)) = true ∧
    odWritten (wOd (wWr 0x9023 0 1 1)) .lock (wWr 0x9023 0 1 1) 0x9023 0 1 = true ∧
    answers .debugLock (wWr 0x9023 0 1 1) (fun t => decide (t.secure.scope = 0 ∧ t.odGet 0x7040 0 = 0 ∧ t.job.state = .scrubbing)) = true ∧
    gives .debugUnlockExpiry { wOd (wWr 0x9023 0 1 1) with secure := { Secure.init with scope := 1 } } (fun t => decide (t.secure.scope = 0 ∧ t.job.state = .idle)) = true := by
  decide +kernel

theorem witness_RuledEntriesAct_tests :
    odWritten (wOd (wWr 0x7020 0 1 2)) .bistRequest (wWr 0x7020 0 1 2) 0x7020 0 2 = true ∧
    answers .bistRequest (wWr 0x7020 0 1 2) (fun t => decide (t.testLevel = some 2 ∧ t.job.state = .scrubbing)) = true ∧
    odWritten (wOd (wWr 0x7021 0 1 1)) .bistForce (wWr 0x7021 0 1 1) 0x7021 0 1 = true ∧
    odWritten (wOd (wWr 0x7030 0 1 1)) .calRequest (wWr 0x7030 0 1 1) 0x7030 0 1 = true ∧
    answers .calRequest (wWr 0x7030 0 1 2) (fun t => t.pllCal.length == 128) = true ∧
    odWritten (wOd (wWr 0x7040 0 1 1)) .testMode (wWr 0x7040 0 1 1) 0x7040 0 1 = true ∧ bit (wOd (wWr 0x7040 0 1 1)).secure.scope 4 = true ∧
    gives .testMode { wOd (wWr 0x7040 0 1 1) with secure := { Secure.init with boot := 2 } } (fun t => t.mailbox.result == OdRes.state) = true ∧
    odWritten (wOd (wWr 0x7041 0 8 (11 * 2 ^ 43))) .stackPpr (wWr 0x7041 0 8 (11 * 2 ^ 43)) 0x7041 0 (11 * 2 ^ 43) = true ∧
    answers .stackPpr (wWr 0x7041 0 8 (11 * 2 ^ 43)) (fun t => decide (t.flash.ppr = [pprKey (11 * 2 ^ 43)])) = true ∧
    odWritten (wOd (wWr 0x7042 0 4 (2 ^ 24 + 5))) .bistUnit (wWr 0x7042 0 4 (2 ^ 24 + 5)) 0x7042 0 (2 ^ 24 + 5) = true ∧
    answers (.bistUnit [[1, 5, 0, 0, 0], [1, 6, 0, 0, 0]]) (wWr 0x7042 0 4 (2 ^ 24 + 5)) (fun t => t.flash.pendingRepairs.length == 1) = true := by decide +kernel

theorem witness_RequestsArriveAndAnswersGoOut :
    mailboxUp (wOd (wWr 0 0 0 0)) = true ∧ mailboxUp { wOwned with mailbox := State.reset.mailbox } = true ∧ wOwned.mailbox.busy = false ∧
    gives (.mbDoorbell 3 0x90110031 [7]) wOwned (fun t => decide (t.mailbox.busy = true ∧ t.odQueue.map (·.tag) = [3] ∧ t.odQueue.map (·.refused) = [none])) = true ∧
    gives (.mbDoorbell 3 0x0131 []) wOwned (fun t => decide (t.odQueue.map (·.refused) = [some OdRes.malformed])) = true ∧
    gives (.mbDoorbell 3 0 []) (wOd (wWr 0 0 0 0)) (fun t => t.odQueue.length == 1) = true ∧
    (let t := odAnswer { wWr 0 0 0 0 with who := .ring, tag := 3 } (OdBlk.ofWord 0) (OdAns.result { wOwned with cmds := [wCmd 0] } 0)
     (({ wOwned with cmds := [wCmd 0] } : State).cmd? 3).isSome = true ∧ t.cmd? 3 = none) := by decide +kernel

/-- A state with session 5 open. -/
def wSession (full : Bool) : State :=
  { wOwned with sessions := [{ id := 5, full := full, kmd := [1, 2], kdm := [3, 4], lastSeq := 8, last := [9] }] }

theorem witness_answerSession :
    ((wSession true).sessions.find? fun x => x.id == 5).isSome = true ∧
    (odAnswer { wWr 0 0 0 0 with who := .session 5, tag := 9 } (OdBlk.ofWord 0) (OdAns.result (wSession true) 0)).outbox.length = 1 := by decide +kernel

/-! ## The field network -/

/-- An OPEN of an IDENTITY session, and tagged frames of session 5. -/
def wOpenF : List Byte := frameHeader 7 0 1248 0 0x01 ++ List.replicate 1248 0
def wFrame (kind seq : Nat) (payload tag : List Byte) : List Byte := frameHeader seq 5 payload.length 0 kind ++ payload ++ tag
def wHeard (kind seq : Nat) (payload tag : List Byte) : Frame :=
  { header := frameHeader seq 5 payload.length 0 kind, seq := seq, sid := 5, kind := kind, payload := payload, tag := tag }
/-- A state with session 5 open, whose last number is n. -/
def wLast (n : Nat) : State := { wSession true with sessions := [{ id := 5, full := true, kmd := [1, 2], kdm := [3, 4], lastSeq := n, last := [9] }] }
theorem witness_SessionsOpenServeAndClose_open : fieldUp (wSession true) = true ∧
    (Frame.read wOpenF 0x01 0).any (fun f => f.sid == 0 && f.seq == 7 && openScope (wSession true) f == some false) = true ∧ (wSession true).sessions.length < 4 := by
  decide +kernel
-- A frame whose TAG is that of its session comes from it, whatever its last number: higher, equal or lower than 9.
theorem wFrame_comes (n kind seq : Nat) (payload tag : List Byte) (h : Frame.read (wFrame kind seq payload tag) kind 32 = some (wHeard kind seq payload tag))
    (k : Keccak.kmac256 [1, 2] ((wHeard kind seq payload tag).header ++ payload) 32 tagCustom = tag) :
    FrameComes (wLast n) (wFrame kind seq payload tag) kind (wHeard kind seq payload tag)
      { id := 5, full := true, kmd := [1, 2], kdm := [3, 4], lastSeq := n, last := [9] } := by
  refine ⟨by rfl, h, ?_⟩
  simp only [wHeard] at k
  simp [frameSession, wHeard, wLast]
  exact k.symm
def wReqTag : List Byte := leBytes 32 25854222783921744857561362757435479515518565549508415776349393288246746921428
def wCloseTag : List Byte := leBytes 32 72762288309619267349261314297568455282424388412799631482115714343259763699032
theorem wRequest_tag : Keccak.kmac256 [1, 2] ((wHeard 0x10 9 (leBytes 32 0x90110031) wReqTag).header ++ leBytes 32 0x90110031) 32 tagCustom = wReqTag := by
  decide +kernel
theorem wClose_tag : Keccak.kmac256 [1, 2] ((wHeard 0x03 9 [] wCloseTag).header ++ []) 32 tagCustom = wCloseTag := by decide +kernel
theorem witness_SessionsOpenServeAndClose_request (n : Nat) :
    FrameComes (wLast n) (wFrame 0x10 9 (leBytes 32 0x90110031) wReqTag) 0x10 (wHeard 0x10 9 (leBytes 32 0x90110031) wReqTag)
      { id := 5, full := true, kmd := [1, 2], kdm := [3, 4], lastSeq := n, last := [9] } :=
  wFrame_comes n _ _ _ _ (by decide +kernel) wRequest_tag
theorem witness_SessionsOpenServeAndClose_close :
    FrameComes (wLast 8) (wFrame 0x03 9 [] wCloseTag) 0x03 (wHeard 0x03 9 [] wCloseTag)
      { id := 5, full := true, kmd := [1, 2], kdm := [3, 4], lastSeq := 8, last := [9] } :=
  wFrame_comes 8 _ _ _ _ (by decide +kernel) wClose_tag
theorem witness_SessionsOpenServeAndClose_badTag :
    (Frame.read (wFrame 0x10 9 [] wReqTag) 0x10 32).any (fun f => (frameSession wOwned f).isNone) = true ∧
    gives (.jaolpenRequest (wFrame 0x10 9 [] wReqTag)) wOwned (fun t => decide (t.odGet 0x8082 2 = 1)) = true := by decide +kernel
theorem witness_SessionsOpenServeAndClose_rest :
    ((wSession true).sessions.any fun x => x.id == 5) = true ∧ gives (.sessionIdleTimeout 5) (wSession true) (fun t => t.sessions.isEmpty) = true ∧
    gives (.echoRequest [4]) (wSession true) (fun t => decide (t.outbox = [.echoReply [4]])) = true ∧ wOwned.power.rails = true ∧
    gives .plcaBeaconReceived wOwned (fun t => t.odGet 0x1008 0 == 1) = true := by decide +kernel

/-! ## Fences, processors, resets and boot -/

/-- Cell 5 with a store toward stack memory's slice, an SLM add to slice 2 and a lease, its fence under way or not; block 0x82 fenced. -/
def wXferOut : Xfer :=
  { id := 1, piece := 7, queue := 0, slot := 0, store := true, writes := [(slmBase + 2 * sliceBytes, [1], false)], server := none, gen := 0, own := wOwned.reqGen 5, dropped := false, loads := [], miss := false, target := none }
def wFenced (f : Option Fencing) (g : Option Fencing) : State :=
  { wOwned with cells := [(5, { Cell.init with xfers := [wXferOut], fencing := f, fenced := f.isSome, slmAdds := [{ addr := slmBase + 2 * sliceBytes, val := Lined.zero, poison := false, ctx := 1, own := wOwned.reqGen 5, group := 3, last := true }] })],
                blocks := [(0x80, { Block.init with fenced := true, fencing := g }), (0x82, { Block.init with fenced := true }), (0x83, { Block.init with fenced := true })], schedDown := true, powerDown := true }
def wFencing (told acked : List Nat) : Fencing := { cause := 3, units := [], told := told, acked := acked, cancelled := 1 }

theorem witness_FencesGoThroughTheirSteps_fence :
    (FenceUnit.ofNat true 5).exists? = true ∧ (FenceUnit.ofNat true 5).fenced (wFenced none none) = false ∧
    (FenceUnit.ofNat false 0x85).exists? = true ∧ (FenceUnit.ofNat false 0x85).fenced (wFenced none none) = false ∧
    (FenceUnit.ofNat false 3).fenced (wFenced none none) = false ∧
    gives (.fence true 5 2) (wFenced none none) (fun t => decide ((t.cell 5).fenced = true ∧ (t.cell 5).gen = 1 ∧ t.odGet 0x8122 0 = 1)) = true ∧
    gives (.fence false 0x85 2) (wSession true) (fun t => decide ((t.block 0x85).fenced = true ∧ t.sessions = [])) = true ∧
    stops (.fence true 8192 0) wOwned (.noSuchCell 8192) = true := by decide +kernel

theorem witness_FencesGoThroughTheirSteps_notice :
    (FenceUnit.ofNat true 5).fencing (wFenced (some (wFencing [] [])) none) = some (wFencing [] []) ∧ 2 ∈ (FenceUnit.ofNat true 5).targets ∧
    homeOf (wFenced none none) (slmBase + 2 * sliceBytes) = some 2 ∧
    gives (.fenceNotice true 5 2) (wFenced (some (wFencing [] [])) none) (fun t => decide ((t.cell 5).xfers = [] ∧ (t.cell 5).slmAdds = [] ∧
      (t.cell 5).fencing = some { wFencing [2] [] with cancelled := 3 } ∧ t.odGet 0x8121 0 = 2)) = true ∧
    gives (.fenceAck true 5 2) (wFenced (some (wFencing [2] [])) none) (fun t => decide ((t.cell 5).fencing = some (wFencing [2] [2]))) = true ∧
    gives (.fenceAck true 5 2) (wFenced (some (wFencing allBlocks (allBlocks.filter (· != 2)))) none) (fun t => decide ((t.cell 5).fencing = none ∧
      (t.cell 5).fenced = true ∧ t.odGet 0x8090 0 = 1)) = true := by decide +kernel

theorem witness_FencesGoThroughTheirSteps_return :
    mayUnfence (wFenced none none) 0x82 = true ∧ mayUnfence (wFenced none none) 0x83 = true ∧
    gives .schedulerResume (wFenced none none) (fun t => decide (t.schedDown = false ∧ (t.block 0x82).fenced = false)) = true ∧
    gives .powerCoreResume (wFenced none none) (fun t => decide (t.powerDown = false ∧ (t.block 0x83).fenced = false)) = true ∧
    gives (.unfence 0x80) (wFenced none none) (fun t => decide ((t.block 0x80).fenced = false ∧ t.odGet 0x8090 0 = 1)) = true ∧
    (wOwned.cell 5).fenced = false ∧ (wOwned.cell 5).served ≠ .unmapped ∧ gives (.cellFault 5) wOwned (fun t => decide ((t.cell 5).fencing.map (·.cause) = some 3)) = true ∧
    gives (.perstNAssert 151) wOwned (fun t => decide (t.power.perst = true ∧ (t.block 0x80).fenced = true)) = true ∧
    gives .perstNDeassert (wFenced none none) (fun t => decide ((t.block 0x80).fenced = false)) = true ∧
    gives .perstNDeassert (wFenced none (some (wFencing [] []))) (fun t => decide ((t.block 0x80).fenced = true)) = true := by decide +kernel

theorem witness_ProcessorsAndMembersAreLost_watchdogs :
    wOwned.secure.boot = 2 ∧ (wOwned.block 0x82).fenced = false ∧ (wOwned.block 0x83).fenced = false ∧
    gives .schedulerWatchdog wOwned (fun t => decide (t.schedDown = true ∧ t.odGet 0x8080 2 = 1 ∧ Sp.get 0 t.watchdogs 128 = 1)) = true ∧
    gives .powerWatchdog wOwned (fun t => decide (t.powerDown = true ∧ t.clock = 1000 ∧ t.odGet 0x8080 3 = 1)) = true := by decide +kernel
theorem witness_ProcessorsAndMembersAreLost_control :
    gives (.controlCoreWatchdog 0) wOwned (fun t => decide ((t.block 0).fenced = true ∧ (t.block 0).expiries = 1)) = true := by decide +kernel

/-- Member 9 has been missing for four stitches, and an operation of the fabric runs. -/
def wMissing : State :=
  { wOwned with job := { wOwned.job with members := [9, 0x3FFFF] }, od := [(Od.key 0x5015 0, 4)], missing := [(9, 4)],
                cmds := [wCmd (word [(0, 0x10), (8, 1)])], schedDown := true }
theorem witness_ProcessorsAndMembersAreLost_members :
    (9 : Nat) ≠ wMissing.moduleId ∧ excludable wMissing 9 = true ∧
    gives (.memberExclude 9) wMissing (fun t => decide (t.job.members = [0x3FFFF] ∧ t.outbox = [.excluded 9] ∧ t.odGet 0x8090 0 = 1)) = true ∧
    gives (.memberExclude wMissing.moduleId) wMissing (fun t => decide (t.job.state = .scrubbing)) = true ∧
    gives .schedulerLost wMissing (fun t => decide (t.job.state = .scrubbing ∧ t.cmds = [])) = true := by decide +kernel

theorem witness_TheModuleResetsAndBoots_resets :
    State.reset.power.rails = true ∧ State.reset.power.pg = true ∧ State.reset.power.shutdown = .no ∧
    gives .securityWatchdog wMissing (fun t => decide (t.job.state = .idle ∧ t.secure.boot = 0 ∧ t.power.resetLow = true)) = true ∧
    gives (.resetNAssert 151) wMissing (fun t => decide (t.cmds = [] ∧ t.free = 1)) = true ∧
    gives (.resetNAssert 49) wMissing (fun t => decide (t.cmds.length = 1 ∧ t.free = 1)) = true := by decide +kernel
theorem witness_TheModuleResetsAndBoots_recovery :
    State.reset.secure.boot = 0 ∧ State.reset.power.perst = false ∧ bootSlot State.reset.flash = none ∧
    gives (.boot 5 [] []) State.reset (fun t => decide (t.secure.boot = 3 ∧ t.odGet 0x1005 0 = 6)) = true ∧
    gives .processorReady { State.reset with secure := { Secure.init with boot := 1, trial := true } } (fun t => decide (t.secure.boot = 2 ∧ t.secure.trial = false)) = true ∧
    gives .bootReadyTimeout { State.reset with secure := { Secure.init with boot := 1, fallback := true } } (fun t => decide (t.secure.boot = 3)) = true ∧
    slotOk State.reset.flash true = false := by decide +kernel
-- A bundle that is authentic and not empty boots from slot A.
theorem witness_TheModuleResetsAndBoots_boots (b : Byte) (h : Config.bundleAuthentic [b] = true) :
    bootSlot { State.reset.flash with slotA := [b] } = some (false, false) ∧ slotOk { State.reset.flash with slotB := [b] } true = true := by
  constructor <;> simp [bootSlot, slotOk, Flash.slot, Flash.selector, State.reset, Flash.init, bundleMax, h]

/-! ## Power, trips, stacks and test slices -/

/-- A module whose rails are off. -/
def wDark (p : Power) : State := { State.reset with power := { p with rails := false, pg := false, resetLow := true } }

theorem witness_PowerComesAndGoes :
    mayPowerUp { (wDark State.reset.power).power with pwrEn := true, holdoff := false, inputOk := true } = true ∧
    gives (.pwrEnAssert 151) (wDark { State.reset.power with pwrEn := false }) (fun t => decide (t.power.rails = true ∧ t.power.pg = true)) = true ∧
    gives .pwrEnHoldoffExpiry (wDark { State.reset.power with holdoff := true }) (fun t => t.power.rails) = true ∧
    gives .inputVoltageValid (wDark { State.reset.power with shutdown := .thermal, inputOk := false }) (fun t => !t.power.rails && t.power.inputOk) = true ∧
    wOwned.power.pwrEn = true ∧ gives (.pwrEnDeassert 151) wOwned (fun t => decide (t.power.rails = false ∧ t.power.holdoff = true ∧ t.job.state = .idle)) = true ∧
    wOwned.power.rails = true ∧ gives (.inputVoltageTrip true) wOwned (fun t => decide (t.power.shutdown = .voltage ∧ t.power.rails = false)) = true ∧
    gives .thermalShutdown wOwned (fun t => decide (t.power.thermTrip = true ∧ t.power.shutdown = .thermal)) = true := by decide +kernel

/-- The clock at so many MHz, in SAFE or not. -/
def wClock (mhz : Nat) (safe : Bool) : State := { wOwned with clock := mhz, safeTrip := safe, od := [(Od.key 0x2201 0, 1200)] }

theorem witness_PowerLoopsAndTripsSetTheClock_safe :
    (wClock 1500 false).safeTrip = false ∧ (wClock 1000 true).safeTrip = true ∧
    gives (.safeTrip true false) (wClock 1500 false) (fun t => decide (t.clock = 1000 ∧ t.safeTrip = true ∧ t.odGet 0x8101 0 = 1)) = true ∧
    gives (.safeExit 7) (wClock 1000 true) (fun t => decide (t.clock = t.odGet 0x2201 0 ∧ t.odGet 0x8102 0 = 7)) = true := by decide +kernel
theorem witness_PowerLoopsAndTripsSetTheClock_loop :
    (wClock 1500 false).powerDown = false ∧ (wClock 1500 false).odGet 0x2104 2 < 9001 ∧ 100 * 10 ≤ 97 * (wClock 1500 false).odGet 0x2104 2 ∧
    1500 < opPoint (wClock 1500 false) 0 ∧ 97 * (wClock 1500 false).odGet 0x2104 2 < 100 * (wClock 1500 false).odGet 0x2104 2 ∧
    gives (.powerLoopTick 48000 5 9001 60) (wClock 1500 false) (fun t => decide (t.clock = 1475 ∧ t.odGet 0x2000 3 = 9001)) = true ∧
    gives (.powerLoopTick 48000 5 10 60) (wClock 1500 false) (fun t => decide (t.clock = 1525 ∧ t.odGet 0x2000 1 = 48000)) = true ∧
    gives (.powerLoopTick 48000 5 8999 94) (wClock 1500 false) (fun t => decide (t.clock = 1500)) = true ∧
    gives (.droopStretch 127 9) wOwned (fun t => t.odGet 0x8103 128 == 9) = true := by decide +kernel
theorem witness_PowerLoopsAndTripsSetTheClock_stacks :
    (let tl := min (95 : Int) (sfld (wOwned.odGet 0x3022 0) 31 0)
     gives (.stackTempReport 11 (tl + 6) 95) wOwned (fun t => decide ((Sp.get StackSt.init t.stackSts 11).level = 3 ∧ t.odGet 0x8054 12 = 1)) = true ∧
     gives (.stackTempReport 11 tl 95) wOwned (fun t => decide ((Sp.get StackSt.init t.stackSts 11).level = 1)) = true ∧
     gives (.stackTempReport 11 (tl - 1) 95) { wOwned with stackSts := [(11, { StackSt.init with level := 1 })] } (fun t =>
       decide ((Sp.get StackSt.init t.stackSts 11).level = 1 ∧ t.odGet 0x8054 12 = 0)) = true ∧
     gives (.stackTempReport 11 (tl - 2) 95) { wOwned with stackSts := [(11, { StackSt.init with level := 3 })] } (fun t =>
       decide ((Sp.get StackSt.init t.stackSts 11).level = 0)) = true) ∧
    stops (.stackTempReport 12 0 0) wOwned (.noSuchStack 12) = true := by decide +kernel

/-- Cluster 2 whose physical cell 3 runs or has run the slice at a place. -/
def wSlice (q : Phys) : State := { wOwned with job := Job.none, phys := [(2 * 66 + 3, q)] }

theorem witness_TestSlicesRunInService :
    sliceMay (wSlice Phys.init) 2 3 (2 ^ 30) = true ∧ cellServed (wSlice Phys.init) 2 3 = some 131 ∧
    gives (.bistSliceStart 2 3 (2 ^ 30)) (wSlice Phys.init) (fun t => decide ((t.physCell 2 3).test = some 0)) = true ∧
    ((wSlice { Phys.init with test := some 20 }).physCell 2 3).test = some 20 ∧
    gives (.bistSliceEnd 2 3 [] []) (wSlice { Phys.init with test := some 20 }) (fun t => decide ((t.physCell 2 3).test = none ∧
      (t.physCell 2 3).next = 21 ∧ (t.cell 131).fenced = false ∧ t.odGet 0x8110 0 = 1)) = true ∧
    gives (.bistSliceEnd 2 3 [] []) (wSlice { Phys.init with test := some 20, rerun := some 20 }) (fun t => decide ((t.physCell 2 3).rerun = none ∧
      (t.physCell 2 3).confirmed = false)) = true ∧
    gives (.bistSliceEnd 2 3 [] []) { wSlice { Phys.init with test := some 76 } with power := { wOwned.power with millis := 9 } } (fun t =>
      decide ((t.physCell 2 3).next = 0 ∧ (t.physCell 2 3).cycleAt = 9)) = true := by decide +kernel

/-- A failure in the first row of the segment of the side memory that place 76 tests. -/
def wSideFail : List Nat := [5, 0, 0, Config.rowOf 0, 1]

theorem witness_TestSlicesRunInService_fails :
    sliceFails (wSlice { Phys.init with test := some 76 }) 2 3 (slicePlaces (wSlice { Phys.init with test := some 76 }) 76) [] [Fail.ofList wSideFail] ≠ [] := by
  have hp : slicePlaces (wSlice { Phys.init with test := some 76 }) 76 = [76] := by decide +kernel
  have hs : inSegment 76 (Fail.ofList wSideFail) = true := by
    have hr : (List.range 1024).any (fun i => bankAt (Fail.ofList wSideFail).kind (segOffset 76 + 32 * i) == (Fail.ofList wSideFail).bank &&
        Config.rowOf (segOffset 76 + 32 * i) == (Fail.ofList wSideFail).row) = true :=
      List.any_eq_true.2 ⟨0, List.mem_range.2 (by decide), by simp [bankAt, Fail.ofList, wSideFail, segOffset]⟩
    unfold inSegment
    rw [hr]
    decide
  have hf : segFails [76] [Fail.ofList wSideFail] = [Fail.ofList wSideFail] := by
    have hk : (Fail.ofList wSideFail).real = true := by decide
    simp [segFails, hk, hs]
  rw [hp]
  simp [sliceFails, hf]

/-! ## The Stitch -/

/-- Module 0x3FFFF in a MESH job with members 7, 9 and itself; root and standby as given. -/
def wStitch (root standby quiet : Nat) (markers : List (Nat × Int)) : State :=
  { wOwned with job := { wOwned.job with mode := 1, members := [7, 9, 0x3FFFF] },
                stitch := { State.reset.stitch with root := root, standby := standby, quiet := quiet, markers := markers }, ports := [(0, { Port.init with state := .up })] }

theorem witness_StitchRootsAndMarkersAreFollowed_heartbeats :
    gives .rootHeartbeatSend (wStitch 0x3FFFF 7 0 []) (fun t => decide (t.outbox = [.heartbeat [0]])) = true ∧
    actsStandby (wStitch 7 9 3 []) 9 = true ∧ (wStitch 7 9 3 []).stitch.root ≠ (wStitch 7 9 3 []).moduleId ∧
    gives (.rootHeartbeat 7) (wStitch 7 9 3 []) (fun t => decide (t.stitch.quiet = 0 ∧ t.stitch.root = 7)) = true ∧
    gives (.rootHeartbeat 9) (wStitch 7 9 3 []) (fun t => decide (t.stitch.root = 9 ∧ t.stitch.standby = 0x3FFFF ∧ t.stitch.standbyIn = 4)) = true ∧
    gives (.rootHeartbeat 5) (wStitch 7 9 3 []) (fun t => t.stitch.quiet == 3) = true ∧ actsStandby (wStitch 7 9 3 []) 5 = false := by decide +kernel

theorem witness_StitchRootsAndMarkersAreFollowed_markers :
    ((wStitch 7 9 3 []).port 0).harness = true ∧ ((wStitch 7 9 3 []).port 1).harness = false ∧
    gives (.stitchMarker 0 7 1 10) (wStitch 7 9 3 [(1, 0), (2, 90)]) (fun t => decide (t.stitch.markers = [(1, 0), (2, 90), (1, 10)] ∧ t.stitch.quiet = 0)) = true ∧
    gives (.stitchMarker 1 7 1 10) (wStitch 7 9 3 [(1, 0)]) (fun t => decide (t.stitch.markers = [(1, 0)])) = true ∧
    actsStandby (wStitch 7 0x3FFFF 4 []) (wStitch 7 0x3FFFF 4 []).moduleId = true ∧
    gives (.standbyTakeover 0) (wStitch 7 0x3FFFF 4 []) (fun t => decide (t.stitch.root = 0x3FFFF ∧ t.outbox = [.marker [0] 1])) = true ∧
    gives (.standbyTakeover 999) (wStitch 7 0x3FFFF 3 []) (fun t => decide (t.stitch.root = 7)) = true := by decide +kernel

/-- Three markers of the coming edge, the one that came first 90 ns early, in a module that no job holds. -/
def wMarked : State :=
  { wStitch 7 9 0 [(1, -90), (1, 0), (1, 4), (2, 7)] with job := { wOwned.job with mode := 1, members := [7, 9, 0x3FFFF], state := .scrubbing } }
theorem witness_StitchRootsAndMarkersAreFollowed_outliers : wMarked.job.zeroAtEdge = false ∧ outliers wMarked 1 = [-90] ∧
    gives .stitchEdge wMarked (fun t => decide (t.odGet 0x8014 0 = 1 ∧ t.stitch.markers = [(2, 7)] ∧ t.stitch.holdover = false)) = true ∧
    gives .stitchEdge { wMarked with stitch := { wMarked.stitch with markers := [(2, 7)] } } (fun t => t.stitch.holdover) = true := by decide +kernel

/-- A STANDALONE module that follows STITCH_IN, lost or not. -/
def wPin (lost : Bool) : State :=
  { State.reset with secure := { Secure.init with boot := 2 }, od := [(Od.key 0x7010 0, 1)], stitch := { State.reset.stitch with lost := lost, count := 5 } }

theorem witness_StitchRootsAndMarkersAreFollowed_pin :
    (wPin false).odGet 0x5001 0 = 0 ∧ (wPin false).odGet 0x7010 0 = 1 ∧ (wPin false).periodUs = 250 ∧ (wPin false).job.zeroAtEdge = false ∧
    gives (.stitchInEdge 249) (wPin false) (fun t => decide (t.odGet 0x8013 0 = 1 ∧ t.stitch.count = 5)) = true ∧
    gives (.stitchInEdge 250) (wPin true) (fun t => decide (t.odGet 0x8015 0 = 0 ∧ t.stitch.count = 6 ∧ t.stitch.lost = false)) = true ∧
    gives (.stitchInEdge 251) (wPin false) (fun t => decide (t.odGet 0x8015 0 = 1)) = true ∧
    gives .stitchInTimeout (wPin false) (fun t => decide (t.stitch.lost = true ∧ t.odGet 0x8090 0 = 1)) = true ∧
    gives .stitchLost { wOwned with stitch := { State.reset.stitch with holdover := true } } (fun t => t.stitch.lost) = true ∧
    gives .stitchLostJobEnd { wClosing with stitch := { State.reset.stitch with lost := true } } (fun t => decide (t.job.state = .scrubbing ∧ t.pieceOf 5 = none)) = true := by
  decide +kernel

theorem witness_StitchNumberStartsAtZeroAndCountsEdges : Taken wJobOpening 3 0x01 (wCmd wJobEntry) ∧ wJobOpening.job.openCmd = some 3 ∧
    (openChecks wJobOpening (JobD.ofWord wJobEntry) wPeers).isSome = true ∧ adopted wJobOpening = true ∧ ¬ (wJobOpening.odGet 0x5001 0 = 0 ∧ wJobOpening.odGet 0x7010 0 = 1) ∧
    gives .stitchEdge { State.reset with job := { Job.none with zeroAtEdge := true }, stitch := { State.reset.stitch with count := 8 } } (fun t => t.stitch.count == 0) = true ∧
    gives .stitchEdge (wStitch 7 9 0 []) (fun t => t.stitch.count == 1) = true := by decide +kernel

theorem witness_PeriodAndLeaseTimeoutKeepTheirRange :
    odWritten (wOd (wWr 0x5002 0 4 20)) .write (wWr 0x5002 0 4 20) 0x5002 0 20 = true ∧ odWritten (wOd (wWr 0x5008 0 1 64)) .write (wWr 0x5008 0 1 64) 0x5008 0 64 = true ∧
    answers .odWrite (wWr 0x5002 0 4 20000) (fun t => decide (t.odGet 0x5002 0 = 20000 ∧ t.mailbox.result = OdRes.ok)) = true ∧
    answers .odWrite (wWr 0x5002 0 4 19) (fun t => decide (t.odGet 0x5002 0 = 250 ∧ t.mailbox.result = OdRes.outOfRange)) = true ∧
    answers .odWrite (wWr 0x5008 0 1 65) (fun t => decide (t.odGet 0x5008 0 = 8 ∧ t.mailbox.result = OdRes.outOfRange)) = true := by decide +kernel

/-! ## Ill-formed commands, units that do not exist, the queue, the whole machine -/

theorem test_wellformed : ([.stitchEdge, .matrix 8191, .stitchMarker 47 0x3FFFF 1 (-3), .fence false 133 1, .boot 63 [[13, 65535, 0, 0, 0]] [],
    .homeSliceAccess false 0 [0] [(35, 255)], .moveCopy 0 15, .mbDoorbell 255 (2 ^ 256 - 1) [],
    .flitData 47 (2 ^ 256 - 1) (List.replicate 480 0) (2 ^ 15 - 1) 0 0] : List Instr).all Instr.wf = true := by decide +kernel
theorem test_illformed_cell : (Instr.matrix 8192).wf = false := by decide
theorem test_illformed_cluster : (Instr.droopStretch 128 1).wf = false := by decide
theorem test_illformed_port : (Instr.portRetrain 48).wf = false := by decide
theorem test_illformed_member : (Instr.rootHeartbeat 262144).wf = false := by decide
theorem test_illformed_ctx : (Instr.gather 1024).wf = false := by decide
theorem test_illformed_obj : (Instr.tileClaim 0 131072).wf = false := by decide
theorem test_illformed_stack : (Instr.stackTempReport 12 0 0).wf = false := by decide
theorem test_illformed_stream : (Instr.batchAssemble 64).wf = false := by decide
theorem test_illformed_ring : (Instr.sqTail 1026 0).wf = false := by decide
theorem test_illformed_block : (Instr.unfence 134).wf = false := by decide
theorem test_illformed_unit : (Instr.fence true 8192 0).wf = false ∧ (Instr.fence false 134 0).wf = false := by decide
theorem test_illformed_errs : (Instr.patrolScrub 0 0 [(36, 1)] false).wf = false ∧ (Instr.patrolScrub 0 0 [(0, 0)] false).wf = false := by decide
theorem test_illformed_line : (Instr.homeSliceAccess false 0 [0] [(288, 1)]).wf = false := by decide
theorem test_illformed_fails : (Instr.scrubComplete [[14, 0, 0, 0, 0]] []).wf = false ∧ (Instr.bistUnit [[1]]).wf = false := by decide
theorem test_illformed_queue : (Instr.rearm 0 16).wf = false := by decide
theorem test_illformed_unitOfWait : (Instr.syncWaitRelease 0 17 0).wf = false := by decide
theorem test_illformed_far : (Instr.farUpdate 8192 0).wf = false := by decide
theorem test_illformed_tile : (Instr.tileDone 0 (2 ^ 32) 0).wf = false ∧ (Instr.tileRevert 0 0 65536).wf = false ∧ (Instr.leaseTimeout 131072 0).wf = false := by decide
theorem test_illformed_flit : (Instr.flitData 0 0 [] 0 0 0).wf = false ∧ (Instr.harnessFrame 0 8 0 true 0).wf = false := by decide
theorem test_illformed_receptacle : (Instr.laserLightLoss 4 true).wf = false := by decide
theorem test_illformed_reason : (Instr.sampleDecoded 0 0 0 4 false [] []).wf = false := by decide
theorem test_illformed_gen : (Instr.transferLand 0 0 256 []).wf = false := by decide
theorem test_illformed_frame : (Instr.jaolpenOpen (List.replicate 8193 0)).wf = false := by decide +kernel
theorem test_illformed_boot : (Instr.boot 64 [] []).wf = false := by decide
theorem test_illformed_testCell : (Instr.bistSliceStart 0 66 0).wf = false := by decide
theorem test_illformed_doorbell : (Instr.mbDoorbell 256 0 []).wf = false ∧ (Instr.mbDoorbell 0 (2 ^ 256) []).wf = false := by decide

-- Where a command names a unit that does not exist, the step stops under a name of its own.
theorem test_faults : stops (.matrix 8192) wOwned (.noSuchCell 8192) = true ∧ stops (.droopStretch 128 1) wOwned (.noSuchCluster 128) = true ∧
    stops (.laserLightLoss 4 true) wOwned (.noSuchReceptacle 4) = true ∧ stops (.batchAssemble 64) wOwned (.noSuchStream 64) = true ∧
    stops (.tileClaim 0 131072) wOwned (.noSuchObject 131072) = true ∧ stops (.gather 1024) wOwned (.noSuchContext 1024) = true := by decide +kernel

/-- What a step leaves where it goes on. -/
def stepGives (s : State) (p : State → Bool) : Bool :=
  match step s with
  | .next t => p t
  | _ => false
theorem witness_StepTakesTheFrontCommand : State.reset.pending = [] ∧ stepGives State.reset (fun t => t == State.reset) = true ∧
    stepGives { wOwned with pending := [.echoRequest [4], .stitchEdge] } (fun t => decide (t.pending = [.stitchEdge] ∧ t.outbox = [.echoReply [4]])) = true := by
  decide +kernel
theorem witness_StepKeepsMemoryForm : Memory.wf (wCopying 0).mem = true ∧
    stepGives { wCopying 0 with pending := [.pcieReadCompletion 6 0 (leBytes 32 0x55) false] } (fun t => decide (t.mem.length = 1 ∧ Memory.wf t.mem = true)) = true := by
  decide +kernel
theorem witness_CommandsLeaveTheQueue : gives .securityWatchdog { wOwned with pending := [.stitchEdge] } (fun t => t.pending == [.stitchEdge]) = true := by
  decide +kernel
theorem witness_FusedVersionNeverFalls :
    stepGives { wOwned with pending := [.securityWatchdog], flash := { State.reset.flash with fusedSvn := 3 } } (fun t => t.flash.fusedSvn == 3) = true := by decide +kernel
theorem witness_WeltAndStitchNumberChangeOnlyHere :
    gives (.safeTrip true true) { wOwned with welt := [(5, { WeltPair.zero with poison := true })] } (fun t => decide (t.welt = [(5, { WeltPair.zero with poison := true })] ∧
      t.stitch.count = 0)) = true := by decide +kernel
theorem witness_WellFormedCommandsComplete : (Instr.safeTrip true true).wf = true ∧
    ({ wOwned with pending := [.safeTrip true true, .matrix 5] } : State).pending.all Instr.wf = true := by decide +kernel

/-! ## Further conditions of the statements -/

theorem witness_updates_free : ∀ r ∈ updateRows, updHeld (wOne (wUpd r.1)) 5 = false := by decide +kernel

/-- A gradient tile of a piece that has committed, at the head of the drain queue. -/
def wGradTile : State :=
  { wOwned with cells := [(5, { Cell.init with piece := some (wPiece []), drainQ := [0],
                                               tiles := [{ wTile 0 with piece := 0, home := .slm, target := slmBase + 8 }] })] }

theorem witness_PreloadDrainAndSlmAddRun_more :
    (let w := wMat 0x10 + word [(34, 1), (320, sp5 64), (800, 4)]
     ((wArr w).cell 5).drainQ = [] ∧ gives (.preload 5) (wArr w) (fun t => decide ((t.cell 5).tiles.length = 1)) = true) ∧
    wDrain.cellDown 5 = false ∧ accHeld wDrain 5 0 1 = false ∧ wGradTile.cellDown 5 = false ∧ accHeld wGradTile 5 0 1 = false ∧
    gives (.tileDrain 5) wGradTile (fun t => decide ((t.cell 5).drainQ = [] ∧ (t.cell 5).slmAdds.map (·.addr) = [slmBase + 8])) = true ∧
    wDrain.reqServed 5 (wOwned.reqGen 5) (homeOf wDrain (slmBase + 8)) = true ∧
    wDrain.reqServed 5 { wOwned.reqGen 5 with gen := 9 } (homeOf wDrain (slmBase + 8)) = false ∧
    gives (.slmAdd 5) wDrain (fun t => decide ((t.cell 5).slmAdds = [])) = true := by decide +kernel

theorem witness_HarnessWaits_arriveWait_more : ((wHar 9 0 (oBarrier 1)).obj 9).kind = .barrier ∧ ((wHar 9 0 (oBarrier 1)).obj 9).far = false ∧
    ((wHar 9 0 (oBarrier 1)).obj 9).arrived.contains (pdCtx (wPiece []).desc, pdId (wPiece []).desc) = false := by decide +kernel

theorem witness_HostSyncOps_listed : ∀ e ∈ hostOps, (hostOp e.1).any (fun op => op.listed (oFor e.1).kind) = true := by decide +kernel

/-- A piece aborted after its COMMIT was sent, its answer out or come. -/
def wRecalled (phase : CommitPhase) : State :=
  { wSent .sent with cells := [(5, { Cell.init with recalls := [(wLease, phase)] })] }

theorem witness_TilesAreCommitted_recalled :
    commitOf (wSent .sent) 5 = some (wOwned.reqGen 5, wLease) ∧ commitOf (wRecalled .sent) 5 = some (wOwned.reqGen 5, wLease) ∧
    (wRecalled .sent).pieceOf 5 = none ∧
    ((wRecalled (.answered true)).cell 5).recalls.find? (fun r => r.2 != .sent) = some (wLease, .answered true) ∧
    gives (.tileCommit 5) (wRecalled .sent) (fun t => decide ((t.cell 5).recalls = [(wLease, .answered true)])) = true ∧
    gives (.tileCommitReply 5) (wRecalled (.answered true)) (fun t => decide ((t.cell 5).recalls = [] ∧ t.outbox.length = 4)) = true := by decide +kernel

theorem witness_LeasesEndAndReturn_release :
    (let s : State := { wOwned with sync := [(9, oLeased)], ctxs := [(1, wCtx [])] }
     findLease (s.obj 9) wLease ≠ none ∧ holdersOf s wLease = [] ∧ s.outbox = [] ∧ s.cells = [] ∧
     gives (.tileRelease 9 0 0) s (fun t => decide ((t.obj 9).leases = [] ∧ (t.obj 9).reissue = [(0, 1)])) = true) := by decide +kernel

/-- Stack 0 only refreshes. -/
def wHot (s : State) : State := { s with stackSts := [(0, { StackSt.init with level := 3 })] }
/-- A transfer to stack memory. -/
def wToStack : Xfer := { wXfer true with writes := [(0, [1, 2, 0], false)], target := none }
def wLandsStack : State := wHot { wLands true with cells := [(5, { (wLands true).cell 5 with xfers := [wToStack] })] }

theorem witness_transferLand_more : servedWrites (wLands false) 5 (wXfer false) = (wXfer false).writes ∧
    servedWrites (wLands true) 5 (wXfer true) = (wXfer true).writes ∧ (wLands true).downIn (0x20000000000 + 7 * 1572864) 3 = false ∧
    (wLands false).downIn (sp5 1024) 3 = false ∧ replyCurrent wLandsStack wToStack 3 = true ∧ xferHeld wLandsStack wToStack = true ∧
    gives (.transferLand 5 4 3 []) wLandsStack (fun t => t == wLandsStack) = true := by decide +kernel

/-- Cell 5 is fenced; or place 16 of its scratchpad is under test. -/
def wCellDown : State := { wOwned with cells := [(5, { Cell.init with fenced := true })] }
def wCellTest : State := { wOwned with phys := [(5, { Phys.init with test := some 16 })] }

theorem witness_HomeSliceStoresAndLoads_more :
    inSp (sp5 8) 2 = true ∧ ((cellOfAddr (sp5 8)).any fun c => wCellDown.cellDown c) = true ∧
    gives (.homeSliceAccess true (sp5 8) [1, 2] []) wCellDown (fun t => decide (t.mem = [] ∧ t.odGet 0x8035 1 = 1)) = true ∧
    ((cellOfAddr (sp5 8)).any fun c => wCellTest.cellDown c) = false ∧ segHeld wCellTest [(sp5 8, 2)] = true ∧
    gives (.homeSliceAccess true (sp5 8) [1, 2] []) wCellTest (fun t => t == wCellTest) = true ∧
    ((cellOfAddr (slmBase + 127 * sliceBytes + wOwned.slmArea - 2 ^ 20)).any fun c => wOwned.cellDown c) = false ∧
    segHeld wOwned [(slmBase + 127 * sliceBytes + wOwned.slmArea - 2 ^ 20, 2)] = false ∧
    wOwned.meetsJournal (slmBase + 127 * sliceBytes + wOwned.slmArea - 2 ^ 20) 2 = true ∧
    inSlm (slmBase + 127 * sliceBytes + wOwned.slmArea - 2 ^ 20) 2 = true ∧
    storeHeld (wHot wOwned) [(0, 3)] = true ∧ loadHeld (wHot wOwned) [(0, 3)] = true ∧
    cachePolicy wOwned 0 = 0 ∧ sectorErrs [(0, 1)] 0 = [(0, 1)] := by decide +kernel

/-- A line of the cache that holds the first sector of the stack memory beside a word of the channel that differs. -/
def wLineOver : State :=
  { wOwned with
    od := [(Od.key 0x3010 0, 16), (Od.key 0x3011 1, 3)]
    cache := [(0, [{ line := 0, valid := 255, dirty := 0, under := [{ sector := 0, data := List.replicate 32 1, poison := false }] }])] }

theorem witness_PatrolCorrectsAndCounts_more :
    eccPlace wOwned slmBase = some (.onChip 1) ∧ (Sp.get StackSt.init (wHot wOwned).stackSts 0).level = 3 ∧
    eccPlace wOwned 0 = some (.stack 0 0 0) ∧ cachedSector wOwned 0 = none ∧
    (match Ecc.read (Ecc.flip (Ecc.stored false (List.replicate 32 1)) [(0, 1)]) with | .corrected _ => true | _ => false) = true := by decide +kernel

theorem witness_Gather_held :
    ((wStepCtx wStep1).hot && (wStepCtx wStep1).dirty.any fun c => weltHeld (wStepAt wStep1) c (wStepCtx wStep1).weltOff (wStepCtx wStep1).weltSize) = false := by
  decide +kernel

/-- A module that has lost the Stitch, the step of wStep4, and one with poison. -/
def wLostVote : State := { wStepAt wStep4 with stitch := { wOwned.stitch with count := 1, lost := true } }
def wBadStep : Step := { wStep4 with poison := true }

theorem witness_UpdatesAndVotes_more :
    [1, 1].contains 0 = false ∧
    gives (.voteCast 1) wLostVote (fun t => decide (t.outbox = [] ∧ ((t.ctx? 1).bind (·.step)).any fun y => y.voted.isSome)) = true ∧
    voteNow (wStepAt wBadStep) 1 (wStepCtx wBadStep) wBadStep = some { yes := false, reason := 1 } ∧
    gives (.voteCast 1) (wStepAt { wBadStep with voted := some { yes := true, reason := 0 } }) (fun t => t.outbox.length == 1) = true ∧
    gives (.voteCast 1) (wStepAt { wStep4 with voted := some { yes := true, reason := 0 } }) (fun t => t.outbox.isEmpty) = true ∧
    stepPoison (wStepAt wStep4) 1 (wStepCtx wStep4) wStep4 = false ∧ allUpdated wStep4 = true ∧ allAcked wStep4 = true := by decide +kernel

theorem witness_UpdatesAndVotes_receive :
    (let s : State := { wStepAt { wStep4 with deadline := true } with stitch := { wOwned.stitch with root := 0x3FFFF } }
     let w : Tally := { member := 1, vote := { yes := true, reason := 0 }, step := 0, tc := 2, faulty := none, flags := 0, norms := [] }
     isRoot s = true ∧ s.job.members.contains 1 = true ∧ lateVote (wStepCtx { wStep4 with deadline := true }) w = true ∧
     lateVote (wStepCtx { wStep4 with deadline := true }) { w with tc := 3 } = false ∧ s.stitch.count < 3 ∧
     gives (.voteReceive 1 1 0 2 true 0 none 0 []) s (fun t => t == s) = true ∧
     gives (.voteReceive 1 1 0 3 true 0 none 0 []) s (fun t => decide ((t.ctx? 1).map (fun y => y.tally.map (·.tc)) = some [3])) = true) := by decide +kernel

theorem witness_OutcomesAreDecidedAndApplied_more :
    (let early : State := { wStepAt wStep4 with stitch := { wOwned.stitch with count := 0 } }
     early.stitch.count + 1 < soTc wStep4.entry ∧ gives (.voteDeadline 1) early (fun t => t == early) = true) ∧
    (let s : State := { wStepAt { wStep4 with deadline := true } with stitch := { wOwned.stitch with root := 0x3FFFF, count := 1 } }
     (wStepCtx { wStep4 with deadline := true }).step.all (·.deadline) = true ∧ gives (.voteDeadline 1) s (fun _ => true) = true) ∧
    (let at2 (t : Step) : State := { wStepAt t with stitch := { wOwned.stitch with count := 2 } }
     gives (.stepOutcomeApply 1) { at2 wStep4 with schedDown := true } (fun t => ((t.ctx? 1).bind (·.step)).any fun y => y.late == some 2) = true ∧
     ({ wStep5 .committed with late := some 2 } : Step).late.any (fun k => decide (2 ≤ k)) = true ∧
     gives (.stepOutcomeApply 1) (at2 { wStep5 .committed with late := some 2 }) (fun t => ((t.ctx? 1).bind (·.step)).isSome) = true) := by decide +kernel

theorem witness_Snapshot_more : (SnapD.ofWord wSnapEntry).entries = 1 ∧ wSnapping.snaps = [] ∧ (SnapD.ofWord wSnapEntry).step = soStep wStep2.entry ∧
    wSnapping.stitch.count < soTc wStep2.entry ∧ (SnapD.ofWord wSnapEntry).chunkLog = 20 ∧ (SnapD.ofWord wSnapEntry).stage % 65536 = 0 ∧
    (snapLayout [wEntry] 0).2 ≤ (SnapD.ofWord wSnapEntry).stageMib * 2 ^ 20 ∧ (SnapD.ofWord wSnapEntry).latigo = false ∧ wSnapping.pcieUp = true ∧
    touchesAbsent wSnapping ((0x100000, (snapLayout [wEntry] 0).2) :: (snapLayout [wEntry] 0).1.map fun r => (r.1, r.2.1)) = false := by decide +kernel

/-- A context that is not resident, whose hot range holds the first bytes of the SLM slices. -/
def wAway : State := { wFabAt (wFab .put 0) with ctxs := [(1, { wCtx [] with resident := false, record := word [(384, 65536)] })] }

theorem witness_FabricOperationsStartAndEnd_more :
    (wFab .put 0).ready wAway = true ∧
    (wNotice 0).kind = (wFab .reduceScatter 1).peerCode ∧ (wNotice 0).count = (wFab .reduceScatter 1).count ∧
    gives (.fabricStartNotice 1 0 0 1 8 (slmBase + 8192) 0 3 0) (wFabAt (wFab .reduceScatter 1)) (fun t => decide (t.fab = [] ∧ t.cmds = [])) = true ∧
    gives (.fabricStartNotice 1 0 3 1 8 0 18 2 4) (wFabAt (wFab .reduceScatter 1)) (fun t => t.fab.length == 2) = true ∧
    (wOver .stepGather).landedAll = true := by decide +kernel

theorem witness_PortsTrainFailAndRecover_more : (wPort .failed).power.rails = true ∧
    gives (.calibrationDone true 3) { wOwned with pllCal := [3, 4] } (fun t => decide (t.pllCal = [4] ∧ t.pllIdle = [3])) = true := by decide +kernel

theorem witness_StreamsOpenAndClose_more : ((wTannery wOpenS Stream.init).block 0x81).fenced = false ∧ Stream.kind wRecord = 3 ∧
    touchesAbsent (wTannery wOpenS Stream.init) [queueRange wRecord, (Stream.table wRecord, 32 * Stream.entries wRecord)] = false := by decide +kernel

/-- An entry of a text of four bytes in host memory. -/
def wHostText : Nat := word [(0, 0x16), (96, 4), (128, 0x4000)]
def wHostStart : State :=
  { wTannery 0 (wBatch 0 (.need 0 false 0 0)) with pcie := { State.reset.pcie with bme := true }, mem := image [(slmBase + 0x20000, 64, wParam), (0x200040, 32, wHostText)] }

theorem witness_sampleStart_host : wHostStart.pcieUp = true ∧ wHostStart.rd 0x200040 32 = wHostText ∧
    wHostStart.poisonIn 0x200040 32 = false ∧ entryReadable wHostStart wHostText = true ∧
    gives (.sampleStart 1) wHostStart (fun t => decide (t.outbox = [.hostRead 1 0x4000 4])) = true := by decide +kernel

theorem witness_sampleDecoded_corrupt : Decodes (wTannery 0 (wDecoding 0 1 false)) 1 7 (wSample 0 false) 0 0 ∧
    Stream.corruptPolicy (wDecoding 0 1 false).record = 1 ∧ Stream.corruptPolicy (wDecoding 0 2 false).record = 2 ∧
    (decodedMedia (wTannery 0 (wDecoding 3 0 false)) (wSample 3 false) false []).reason = 0 := by decide +kernel

theorem witness_Scrub_more : ({ wClosing with job := { Job.none with state := .scrubbing } } : State).snaps.all (!·.armed) = true := by decide +kernel

theorem witness_ContextCreates_more :
    digestOk (wCreating 0) (newFarDigest [(9, oCounter 0)]) 0 = true ∧ (Ctx.fresh (wCtxRecord 0) []).objCount = 1 ∧
    (Ctx.fresh (wCtxRecord 0) []).pinned = false ∧ (Ctx.fresh (wCtxRecord 1) []).pinned = true ∧ (wCreating 0).ctx? 1 = none := by decide +kernel

theorem witness_PatternLoads_more (p : Pattern) : digestOk wPattern (patternDigest p) 0 = true ∧ wPattern.stitch.count + 2 ≤ 2 ∧
    (1 : Nat) ≤ 48 ∧ wPattern.job.state = .owned := by
  refine ⟨?_, by decide +kernel, by decide, rfl⟩
  have h : wPattern.odGet 0x5001 0 = 0 := by decide +kernel
  simp [digestOk, h]

theorem witness_ringEntryTake_hosts : nextRing (markHeld (wServe 1024 2 false)) = some 1024 ∧ (wServe 1025 0x30 false).secure.boot = 2 ∧
    ringEntryOk (wServe 1024 2 false) 1024 2 = true ∧
    gives .ringEntryTake (wServe 1024 2 false) (fun t => decide (t.cmds.map (·.ring) = [1024])) = true ∧
    (({ wServe 1025 0x30 false with blocks := [(0x84, { Block.init with fenced := true })] } : State).block 0x84).fenced = true ∧
    gives .ringEntryTake { wServe 1025 0x30 false with blocks := [(0x84, { Block.init with fenced := true })] } (fun t => decide (t.cmds = [] ∧ t.odQueue = [])) = true := by
  decide +kernel

theorem witness_bistUnit_engine :
    odWritten (wOd (wWr 0x7042 0 4 (0x0C * 2 ^ 24 + 5))) .bistUnit (wWr 0x7042 0 4 (0x0C * 2 ^ 24 + 5)) 0x7042 0 (0x0C * 2 ^ 24 + 5) = true ∧
    answers (.bistUnit [[0x0C, 5, 0, 0, 0]]) (wWr 0x7042 0 4 (0x0C * 2 ^ 24 + 5)) (fun t => (t.port 5).state == .failed) = true ∧
    (wOd (wWr 0x7041 0 8 (11 * 2 ^ 43))).flash.ppr.contains (pprKey (11 * 2 ^ 43)) = false := by decide +kernel

theorem witness_TheModuleResetsAndBoots_retry :
    (let s : State := { State.reset with secure := { Secure.init with boot := 1, retry := true, active := true, fallback := true } }
     gives (.boot 0 [] []) s (fun t => decide (t.secure.boot = 1 ∧ t.secure.retry = false ∧ t.secure.active = true)) = true) := by decide +kernel

theorem witness_PowerLoops_stopped : wOwned.powerCoreRuns = true ∧ State.reset.powerCoreRuns = false ∧
    gives (.powerLoopTick 1 1 1 1) State.reset (fun t => t.power.millis == 1) = true := by decide +kernel

theorem witness_TestSlices_stays : sliceMay { wSlice Phys.init with secure := Secure.init } 2 3 (2 ^ 30) = false ∧
    gives (.bistSliceStart 2 3 (2 ^ 30)) { wSlice Phys.init with secure := Secure.init } (fun t => (t.physCell 2 3).test.isNone) = true := by decide +kernel

theorem witness_ProcessorsAndMembersAreLost_loading :
    gives .powerWatchdog { wOwned with secure := { Secure.init with boot := 1 } } (fun t => t.powerDown) = true := by decide +kernel

theorem witness_standbyTakeover : wOwned.job.state = .owned ∧ isRoot (wStitch 7 0x3FFFF 4 []) = false := by decide +kernel

theorem witness_stitchEdge_free : (wStitch 7 9 0 []).power.rails = true ∧ ((wStitch 7 9 0 []).job.zeroAtEdge && adopted (wStitch 7 9 0 [])) = false ∧
    (wStitch 7 9 0 []).stitch.lost = false := by decide +kernel

end Sys2Proof.Tests
end

section
/-! What one command can do, said once for all of them: the kinds of outcome, and what every next state keeps. -/
namespace Sys2Proof.Machine

/-- The outcome is a next state with the property, or a fault, which only a command that is not well formed (`ok`
false) meets; it is never a refusal. -/
def Answers (ok : Bool) (P : State → Prop) : Out → Prop
  | .next t => P t
  | .fault _ => ok = false
  | .refused _ => False

section
variable {ok : Bool} {P : State → Prop} {o : Out}

theorem Answers.next {t : State} (k : P t) : Answers ok P (.next t) := k

theorem Answers.of_next {t : State} (h : Answers ok P o) (e : o = .next t) : P t := by
  subst e
  exact h

theorem Answers.not_refused (h : Answers ok P o) (r : Refusal) : o ≠ .refused r := by
  rintro rfl
  exact h

theorem Answers.exists_next (h : Answers ok P o) (hok : ok = true) : ∃ t, o = .next t := by
  cases o with
  | next t => exact ⟨t, rfl⟩
  | fault r => exact absurd hok (Bool.eq_false_iff.mp h)
  | refused r => exact h.elim

/-- A guard that every well-formed command passes. -/
theorem Answers.guard {p : Prop} [Decidable p] {t : State} {r : Fault} (h : ok = true → p) (k : P t) :
    Answers ok P (if p then .next t else .fault r) := by
  split
  · exact k
  · exact Bool.eq_false_iff.mpr (mt h ‹_›)

/-! ### The guards of the model: each faults exactly where the unit does not exist. -/

variable {s : State} {f : State → State}

theorem onCell_answers {c : Nat} (h : ok = true → wfCell c = true) (k : P (f s)) : Answers ok P (onCell c s f) :=
  .guard (of_decide_eq_true <| h ·) k

theorem onPort_answers {p : Nat} (h : ok = true → wfPort p = true) (k : P (f s)) : Answers ok P (onPort p s f) :=
  .guard (of_decide_eq_true <| h ·) k

theorem onObj_answers {i : Nat} (h : ok = true → wfObj i = true) (k : P (f s)) : Answers ok P (onObj i s f) :=
  .guard (of_decide_eq_true <| h ·) k

theorem onCtx_answers {c : Nat} (h : ok = true → wfCtx c = true) (k : P (f s)) : Answers ok P (onCtx c s f) :=
  .guard (of_decide_eq_true <| h ·) k

theorem onStack_answers {n : Nat} (h : ok = true → wfStack n = true) (k : P (f s)) : Answers ok P (onStack n s f) :=
  .guard (of_decide_eq_true <| h ·) k

theorem onStream_answers {n : Nat} (h : ok = true → wfStream n = true) (k : P (f s)) :
    Answers ok P (onStream n s f) :=
  .guard (of_decide_eq_true <| h ·) k

theorem onCluster_answers {n : Nat} (h : ok = true → wfCluster n = true) (k : P (f s)) :
    Answers ok P (onCluster n s f) :=
  .guard (of_decide_eq_true <| h ·) k

theorem onRing_answers {n : Nat} (k : P (f s)) (k' : P s) : Answers ok P (onRing n s f) := by
  unfold onRing
  split
  · exact k
  · exact k'

theorem exists_ofNat (isCell : Bool) (n : Nat) : (FenceUnit.ofNat isCell n).exists? = wfUnit isCell n := by
  cases isCell <;> rfl

theorem onUnit_answers {isCell : Bool} {n : Nat} {g : FenceUnit → State} (h : ok = true → wfUnit isCell n = true)
    (k : ∀ u, P (g u)) : Answers ok P (onUnit isCell n g) := by
  unfold onUnit
  simp only [exists_ofNat]
  split
  · exact k _
  · have hok : ok = false := Bool.eq_false_iff.mpr (mt h ‹_›)
    split <;> exact hok

end

/-! ### What every command keeps -/

/-- All fields but the queue of waiting commands, as a mask of `State.hide`. -/
abbrev allButQueue : Nat := 0x7ffffffffffffe

/-- What every command keeps: the queue of waiting commands, and the canonical form of the memory. -/
structure Keeps (s t : State) : Prop where
  queue : t.pending = s.pending
  form : Memory.wf s.mem = true → Memory.wf t.mem = true

namespace Keeps
variable {s t u : State}

theorem refl (s : State) : Keeps s s := ⟨rfl, id⟩

theorem trans (h : Keeps s t) (k : Keeps t u) : Keeps s u := ⟨k.queue.trans h.queue, k.form ∘ h.form⟩

/-- From the two laws of an operation: its frame, and that it keeps the memory's form. -/
theorem of_laws (fr : s.hide allButQueue = s.hide allButQueue → t.hide allButQueue = s.hide allButQueue)
    (form : Memory.wf s.mem = true → Memory.wf t.mem = true) : Keeps s t :=
  ⟨(congrArg State.pending (fr rfl) :), form⟩

/-- With every field but the queue hidden, only the queue is compared. -/
theorem frame (h : Keeps s t) : t.hide allButQueue = s.hide allButQueue := by
  unfold State.hide
  rw [h.queue]
  rfl

theorem foldl_fst {β γ : Type} {f : State × γ → β → State × γ} (k : ∀ a b, Keeps a.1 (f a b).1) (l : List β)
    (a : State × γ) : Keeps a.1 (l.foldl f a).1 := by
  induction l generalizing a with
  | nil => exact refl a.1
  | cons b l ih => exact (k a b).trans (ih _)

theorem ite {p : Prop} [Decidable p] (h : Keeps s t) (k : Keeps s u) : Keeps s (if p then t else u) := by
  split
  · exact h
  · exact k

theorem whenPowered {f : State → State} (k : Keeps s (f s)) : Keeps s (whenPowered s f) := k.ite (refl s)

theorem whenRunning {f : State → State} (k : Keeps s (f s)) : Keeps s (whenRunning s f) := k.ite (refl s)

theorem draw (s : State) : Keeps s s.draw := ⟨rfl, id⟩

theorem filtered {ns : Nat} {f : State → State} (k : ∀ t, Keeps t (f t)) : Keeps s (filtered s ns f) :=
  ite ((draw s).trans (k _)) (draw s)

end Keeps

theorem setPower_keeps (s : State) (p : Power) : Keeps s { s with power := p } := ⟨rfl, id⟩

/-! ### The resets: the queue is among the few fields they leave (R465, R578, R520) -/

theorem moduleReset_keeps (s : State) : Keeps s (moduleReset s) := ⟨rfl, moduleReset_wf s⟩

theorem resetAssert_keeps (s : State) : Keeps s (resetAssert s) := .ite (moduleReset_keeps s) (.refl s)

theorem powerOff_keeps (s : State) : Keeps s (powerOff s) := ⟨rfl, powerOff_wf s⟩

theorem pwrEnDeassert_keeps (s : State) : Keeps s (pwrEnDeassert s) := by
  unfold pwrEnDeassert
  split
  · exact .refl s
  · exact (powerOff_keeps s).trans (setPower_keeps _ _)

theorem inputTrip_keeps (s : State) (removed : Bool) : Keeps s (inputTrip s removed) :=
  (Keeps.ite (powerOff_keeps s) (.refl s)).trans (setPower_keeps _ _)

theorem thermalShutdown_keeps (s : State) : Keeps s (thermalShutdown s) :=
  .ite ((powerOff_keeps s).trans (setPower_keeps _ _)) (.refl s)

/-- A write of FW_ACTIVATE resets the module once its answer is given. -/
theorem odServe_keeps (s : State) (k : OdKind) (fs : List Fail) : Keeps s (odServe s k fs) := by
  refine ⟨?_, odServe_wf s k fs⟩
  unfold odServe
  split
  · rfl
  · rename_i q rest _
    have answered (b : OdBlk) : Keeps s (odAnswer q b (odAccess { s with odQueue := rest } q b fs)) :=
      .of_laws
        (fun _ => odAnswer_fr rfl _ _ _ (odAccess_fr rfl _ _ _ _ (State.hide_odQueue rfl)))
        (fun h => odAnswer_wf _ _ _ (odAccess_wf _ _ _ _ h))
    exact Keeps.queue (.ite (.refl s) (.ite ((answered _).trans (moduleReset_keeps _)) (answered _)))

/-! ### Parts of a command's well-formedness -/

theorem left_of_and {a b : Bool} (h : (a && b) = true) : a = true := (Bool.and_eq_true_iff.mp h).1

theorem right_of_and {a b : Bool} (h : (a && b) = true) : b = true := (Bool.and_eq_true_iff.mp h).2

theorem left_of_and_and {a b c : Bool} (h : (a && b && c) = true) : a = true := left_of_and (left_of_and h)

/-! ### Operations that several commands share, or whose laws ask for more than the state before -/

theorem hearRoot_keeps (s : State) (sender : Nat) : Keeps s ((hearRoot s sender).getD s) := by
  cases e : hearRoot s sender with
  | none => exact .refl s
  | some t => exact .of_laws (hearRoot_fr rfl e) (hearRoot_wf e)

theorem pieceCommit_answers (s : State) (c : Nat) :
    Answers (Instr.pieceCommit c).wf (Keeps s) (execPieceCommit c s) := by
  refine onCell_answers id ?_
  split
  · exact .ite (.of_laws (commitPiece_fr rfl s c _) (commitPiece_wf s c _)) (.refl s)
  · exact .refl s

theorem runUnit_keeps {s : State} {c : Nat} {u : CellUnit} {is : Nat → Bool}
    {work : State → Piece → Item → State × Flags} (k : ∀ p i, Keeps s (work s p i).1) :
    Keeps s (runUnit s c u is work) :=
  .of_laws (fun h => runUnit_fr rfl s c u is work h fun p i => (k p i).frame)
    (fun h => runUnit_wf s c u is work h fun p i => (k p i).form h)

theorem packRow_keeps (d : StemD) (a : State × Flags) (i : Nat) : Keeps a.1 (packRow d a i).1 :=
  .of_laws (packRow_fr rfl d a i) (packRow_wf d a i)

theorem unpackRow_keeps (d : StemD) (a : State × Flags) (i : Nat) : Keeps a.1 (unpackRow d a i).1 :=
  .of_laws (unpackRow_fr rfl d a i) (unpackRow_wf d a i)

/-- A Skiver descriptor keeps what its work keeps wherever the work has a result; where it has none the piece fails. -/
theorem skCmd_keeps {s : State} {c op : Nat} {work : State → Piece → Nat → SkD → Option (State × Flags)}
    (k : ∀ p n d r, work s p n d = some r → Keeps s r.1) : Keeps s (skCmd s c op work) :=
  .of_laws (fun h => skCmd_fr rfl s c op work h fun p n d r e => (k p n d r e).frame)
    (fun h => skCmd_wf s c op work h fun p n d r e => (k p n d r e).form h)

/-- A Skiver descriptor whose work always has a result. -/
theorem skCmd_some_keeps {s : State} {c op : Nat} {work : State → Piece → SkD → State × Flags}
    (k : ∀ p d, Keeps s (work s p d).1) : Keeps s (skCmd s c op fun s p _ d => some (work s p d)) :=
  skCmd_keeps fun p _ d _ e => Option.some.inj e ▸ k p d

theorem fence_keeps (s : State) (u : FenceUnit) (cause : Nat) : Keeps s (fence s u cause) :=
  .of_laws (fence_fr rfl s u cause) (fence_wf s u cause)

theorem countExpiry_keeps (s : State) (sub processor : Nat) : Keeps s (countExpiry s sub processor) :=
  .of_laws (countExpiry_fr rfl s sub processor) (countExpiry_wf s sub processor)

theorem unfence_keeps (s : State) (b : Nat) : Keeps s (unfence s b) :=
  .of_laws (unfence_fr rfl s b) (unfence_wf s b)

theorem endJobFault_keeps (s : State) (rule : Nat) : Keeps s (endJobFault s rule) :=
  .of_laws (endJobFault_fr rfl s rule) (endJobFault_wf s rule)

theorem enterLost_keeps (s : State) : Keeps s (enterLost s) := .of_laws (enterLost_fr rfl s) (enterLost_wf s)

theorem tryPowerUp_keeps (s : State) : Keeps s (tryPowerUp s) := .of_laws (tryPowerUp_fr rfl s) (tryPowerUp_wf s)

theorem updPort_keeps (s : State) (p : Nat) (f : Port → Port) : Keeps s (s.updPort p f) :=
  .of_laws (State.updPort_fr rfl s p f) (State.updPort_wf s p f)

theorem send_keeps (s : State) (m : Msg) : Keeps s (s.send m) := .of_laws (State.send_fr rfl s m) (State.send_wf s m)

theorem calibrationDone_answers (s : State) (cluster : Bool) (unit : Nat) :
    Answers (Instr.calibrationDone cluster unit).wf (Keeps s) (execCalibrationDone cluster unit s) := by
  cases cluster with
  | true =>
    rw [execCalibrationDone, if_pos rfl]
    exact onCluster_answers id ⟨rfl, id⟩
  | false =>
    rw [execCalibrationDone, if_neg Bool.false_ne_true]
    exact onPort_answers id (.of_laws (calibrationDone_fr rfl s unit) (calibrationDone_wf s unit))

theorem tileClaim_answers (s : State) (cell obj : Nat) :
    Answers (Instr.tileClaim cell obj).wf (Keeps s) (execTileClaim cell obj s) := by
  unfold execTileClaim
  split
  · exact onObj_answers right_of_and (.of_laws (tileClaim_fr rfl s cell obj) (tileClaim_wf s cell obj))
  · exact Bool.eq_false_iff.mpr fun h => ‹¬ _› (of_decide_eq_true (left_of_and h))

/-! ### Every command -/

/-- What one command can do, in every state: it answers a next state with the same queue and a memory in the form it
had, or, only if it is not well formed, a fault; it is never refused. -/
theorem exec_answers (c : Instr) (s : State) : Answers c.wf (Keeps s) (exec c s) := by
  cases c with dsimp only [exec, Instr.wf]
  -- The Stitch and the Harness (spec 02)
  | stitchEdge => exact .next (.whenPowered (.of_laws (stitchEdge_fr rfl s) (stitchEdge_wf s)))
  | stitchInEdge _ => exact .next (.of_laws (stitchInEdge_fr rfl s _) (stitchInEdge_wf s _))
  | stitchInTimeout => exact .next (.ite (enterLost_keeps s) (.refl s))
  | stitchMarker _ _ _ _ =>
    exact onPort_answers left_of_and (.of_laws (stitchMarker_fr rfl s _ _ _ _) (stitchMarker_wf s _ _ _ _))
  | rootHeartbeatSend => exact .next (.ite (send_keeps s _) (.refl s))
  | rootHeartbeat sender => exact .next (hearRoot_keeps s sender)
  | standbyTakeover _ => exact .next (.of_laws (standbyTakeover_fr rfl s _) (standbyTakeover_wf s _))
  | stitchLost => exact .next (.ite (enterLost_keeps s) (.refl s))
  | stitchLostJobEnd => exact .next (.ite (endJobFault_keeps s _) (.refl s))
  | harnessFrame _ _ _ _ _ =>
    exact onPort_answers left_of_and (.of_laws (harnessFrame_fr rfl s _ _ _ _ _) (harnessFrame_wf s _ _ _ _ _))
  -- Pieces, the array and the stem (spec 04, 05, 07)
  | pieceStart _ _ => exact onCell_answers id (.whenPowered (.of_laws (pieceStart_fr rfl s _ _) (pieceStart_wf s _ _)))
  | descriptorHandOut _ => exact onCell_answers id (.of_laws (handOut_fr rfl s _) (handOut_wf s _))
  | gridDescriptor _ => exact onCell_answers id (.of_laws (gridDescriptor_fr rfl s _) (gridDescriptor_wf s _))
  | matrix _ | wgrad _ | conv _ | poolMax _ | poolAvgFull _ | poolAvgValid _ | convDx _ | convWgrad _ =>
    exact onCell_answers id (.of_laws (arrayCmd_fr rfl s _ _) (arrayCmd_wf s _ _))
  | stemPack _ => exact onCell_answers id (runUnit_keeps fun _ _ => .foldl_fst (packRow_keeps _) _ (s, 0))
  | stemUnpack _ => exact onCell_answers id (runUnit_keeps fun _ _ => .foldl_fst (unpackRow_keeps _) _ (s, 0))
  | preload _ => exact onCell_answers id (.of_laws (preload_fr rfl s _) (preload_wf s _))
  | tileDrain _ => exact onCell_answers id (.of_laws (tileDrain_fr rfl s _) (tileDrain_wf s _))
  | descriptorRetire _ _ _ => exact onCell_answers id (.of_laws (retire_fr rfl s _ _ _) (retire_wf s _ _ _))
  -- The vector engine and the Skivers (spec 06, 08)
  | vectorCopy _ | vectorAdd _ | vectorSub _ | vectorMul _ | vectorDiv _ | vectorMax _ | vectorMin _ | vectorFma _
  | vectorAbs _ | vectorNeg _ | vectorClamp _ | vectorSign _ | vectorSqrt _ | vectorRsqrt _ | vectorRecip _
  | vectorExp _ | vectorLog _ | vectorTanh _ | vectorSigmoid _ | vectorSilu _ | vectorGeluTanh _ | vectorRelu _
  | vectorSelect _ | vectorCmpGt _ =>
    exact onCell_answers id (.of_laws (mapCmd_fr rfl s _ _) (mapCmd_wf s _ _))
  | reductionSum _ | reductionSumsq _ | reductionSumabs _ | reductionMax _ | reductionMin _ | reductionAbsmax _
  | reductionDot _ =>
    exact onCell_answers id (.of_laws (redCmd_fr rfl s _ _) (redCmd_wf s _ _))
  | updateSgdMomentum _ | updateAdamw _ | updateLion _ =>
    exact onCell_answers id (.of_laws (updCmdRow_fr rfl s _ _) (updCmdRow_wf s _ _))
  | normFwd _ =>
    exact onCell_answers id (skCmd_some_keeps fun _ _ => .of_laws (normFwd_fr rfl s _ _ _) (normFwd_wf s _ _ _))
  | normBwd _ => exact onCell_answers id (skCmd_keeps fun _ _ _ _ e => .of_laws (normBwd_fr rfl e) (normBwd_wf e))
  | softmaxFwd _ =>
    exact onCell_answers id (skCmd_some_keeps fun _ _ => .of_laws (softFwd_fr rfl s _ _ _) (softFwd_wf s _ _ _))
  | softmaxBwd _ => exact onCell_answers id (skCmd_keeps fun _ _ _ _ e => .of_laws (softBwd_fr rfl e) (softBwd_wf e))
  | statSave _ =>
    exact onCell_answers id (skCmd_some_keeps fun _ _ => .of_laws (statSave_fr rfl s _ _ _) (statSave_wf s _ _ _))
  | statLoad _ =>
    exact onCell_answers id (skCmd_some_keeps fun _ _ => .of_laws (statLoad_fr rfl s _ _ _) (statLoad_wf s _ _ _))
  -- Streams and home slices (spec 10, 11)
  | moveCopy _ _ | moveEncode _ _ | moveDecode _ _ | moveRegroup _ _ | rearm _ _ =>
    exact onCell_answers left_of_and (.of_laws (streamStart_fr rfl s _ _ _) (streamStart_wf s _ _ _))
  | queueCtl _ => exact onCell_answers id (.of_laws (queueCtl_fr rfl s _) (queueCtl_wf s _))
  | transferIssue _ => exact onCell_answers id (.of_laws (transferIssue_fr rfl s _) (transferIssue_wf s _))
  | homeSliceAccess _ _ _ _ =>
    exact .next (.whenPowered (.of_laws (homeAccess_fr rfl s _ _ _ _) (homeAccess_wf s _ _ _ _)))
  | transferLand _ _ _ _ =>
    exact onCell_answers left_of_and (.of_laws (transferLand_fr rfl s _ _ _ _) (transferLand_wf s _ _ _ _))
  -- Sync objects (spec 02)
  | harnessOpRead _ | harnessOpAdd _ | harnessOpSet _ | harnessOpWaitGe _ | harnessOpEventSet _
  | harnessOpEventClear _ | harnessOpEventWait _ | harnessOpArrive _ | harnessOpBarrierWait _
  | harnessOpArriveWait _ | harnessOpPost _ | harnessOpTake _ | harnessOpTryTake _ =>
    exact onCell_answers id (.of_laws (harnessCmd_fr rfl s _ _) (harnessCmd_wf s _ _))
  | syncWaitRelease _ _ _ =>
    exact onCell_answers left_of_and (.of_laws (waitRelease_fr rfl s _ _ _) (waitRelease_wf s _ _ _))
  | farUpdate _ _ => exact .next (.of_laws (farUpdate_fr rfl s _ _) (farUpdate_wf s _ _))
  -- Commits and tiles (spec 05)
  | pieceCommit cell => exact pieceCommit_answers s cell
  | tileClaim cell obj => exact tileClaim_answers s cell obj
  | tileCommit _ => exact onCell_answers id (.of_laws (tileCommit_fr rfl s _) (tileCommit_wf s _))
  | tileCommitReply _ => exact onCell_answers id (.of_laws (tileCommitReply_fr rfl s _) (tileCommitReply_wf s _))
  | tileDone _ _ _ => exact onObj_answers left_of_and_and (.of_laws (tileDone_fr rfl s _) (tileDone_wf s _))
  | tileRevert _ _ _ => exact onObj_answers left_of_and_and (.of_laws (tileRevert_fr rfl s _) (tileRevert_wf s _))
  | tileRelease _ _ _ =>
    exact onObj_answers left_of_and_and (.of_laws (releaseLease_fr rfl s _) (releaseLease_wf s _))
  | leaseTimeout _ _ =>
    exact onObj_answers left_of_and (.of_laws (leaseTimeout_fr rfl s _ _) (leaseTimeout_wf s _ _))
  | cellFault _ => exact onCell_answers id (.ite (.of_laws (failCell_fr rfl s _ _) (failCell_wf s _ _)) (.refl s))
  | slmAdd _ => exact onCell_answers id (.of_laws (slmAdd_fr rfl s _) (slmAdd_wf s _))
  -- Training steps (spec 09)
  | gather _ => exact onCtx_answers id (.of_laws (gather_fr rfl s _) (gather_wf s _))
  | stepOpen _ _ _ => exact .next (.of_laws (stepOpen_fr rfl s _ _ _) (stepOpen_wf s _ _ _))
  | exchange _ => exact onCtx_answers id (.of_laws (exchange_fr rfl s _) (exchange_wf s _))
  | updatePlacement _ _ _ =>
    exact onCtx_answers id (.of_laws (updatePlacement_fr rfl s _ _ _) (updatePlacement_wf s _ _ _))
  | voteCast _ => exact onCtx_answers id (.of_laws (voteCast_fr rfl s _) (voteCast_wf s _))
  | voteReceive _ _ _ _ _ _ _ _ _ =>
    exact onCtx_answers left_of_and (.of_laws (voteReceive_fr rfl s _ _) (voteReceive_wf s _ _))
  | voteDeadline _ => exact onCtx_answers id (.of_laws (voteDeadline_fr rfl s _) (voteDeadline_wf s _))
  | outcomeReceive _ _ _ _ _ _ =>
    exact onCtx_answers id (.of_laws (outcomeReceive_fr rfl s _ _ _ _ _ _) (outcomeReceive_wf s _ _ _ _ _ _))
  | stepOutcomeApply _ => exact onCtx_answers id (.of_laws (outcomeApply_fr rfl s _) (outcomeApply_wf s _))
  | stepGather _ => exact onCtx_answers id (.of_laws (stepGather_fr rfl s _) (stepGather_wf s _))
  | mirror _ _ => exact onCtx_answers id (.of_laws (mirror_fr rfl s _ _) (mirror_wf s _ _))
  | mirrorAck _ _ => exact onCtx_answers id (.of_laws (mirrorAck_fr rfl s _ _) (mirrorAck_wf s _ _))
  -- Snapshots and the fabric (spec 09, 12)
  | snapshot _ _ => exact .next (.of_laws (snapshot_fr rfl s _ _) (snapshot_wf s _ _))
  | snapshotSend _ => exact .next (.of_laws (snapshotSend_fr rfl s _) (snapshotSend_wf s _))
  | reduceScatter _ | allReduce _ | allGather _ | broadcast _ | put _ =>
    exact .next (.of_laws (fabCommand_fr rfl s _ _) (fabCommand_wf s _ _))
  | fabricOpStart _ => exact .next (.of_laws (fabStart_fr rfl s _) (fabStart_wf s _))
  | fabricStartNotice _ _ _ _ _ _ _ _ _ =>
    exact .next (.whenPowered (.of_laws (startNotice_fr rfl s _) (startNotice_wf s _)))
  | fabricOpComplete _ _ => exact .next (.of_laws (fabOpComplete_fr rfl s _ _) (fabOpComplete_wf s _ _))
  | fabricTimeout _ => exact .next (.of_laws (fabTimeout_fr rfl s _) (fabTimeout_wf s _))
  | flitData _ _ _ _ _ _ =>
    exact onPort_answers (fun h => left_of_and_and (left_of_and h))
      (.of_laws (flitData_fr rfl s _ _ _ _ _ _) (flitData_wf s _ _ _ _ _ _))
  | flitReduce _ _ _ _ _ _ =>
    exact onPort_answers left_of_and_and (.of_laws (flitReduce_fr rfl s _ _ _ _ _ _) (flitReduce_wf s _ _ _ _ _ _))
  | residueResendRequest _ _ _ _ =>
    exact onPort_answers left_of_and_and (.of_laws (resendFlit_fr rfl s _ _ _ _) (resendFlit_wf s _ _ _ _))
  | flitRetry _ _ _ _ _ =>
    exact onPort_answers left_of_and_and (.of_laws (flitRetry_fr rfl s _ _ _ _ _) (flitRetry_wf s _ _ _ _ _))
  | flitNull _ _ _ _ _ =>
    exact onPort_answers left_of_and_and (.of_laws (receive_fr rfl s _ _ _ _ _ _) (receive_wf s _ _ _ _ _ _))
  | laserLightLoss _ _ => exact .guard of_decide_eq_true (.of_laws (lightLoss_fr rfl s _ _) (lightLoss_wf s _ _))
  | portTraining _ _ _ => exact onPort_answers id (.of_laws (portTraining_fr rfl s _ _ _) (portTraining_wf s _ _ _))
  | portTrainingTimeout _ _ =>
    exact onPort_answers id (.of_laws (portTrainingTimeout_fr rfl s _ _) (portTrainingTimeout_wf s _ _))
  | portLockLoss _ _ _ =>
    exact onPort_answers left_of_and (.of_laws (lockLoss_fr rfl s _ _ _) (lockLoss_wf s _ _ _))
  | harnessLockLoss _ | harnessLockRegained _ => exact onPort_answers id (updPort_keeps s _ _)
  | portRetrain _ => exact onPort_answers id (.whenPowered (updPort_keeps s _ _))
  | calibrationDone cluster unit => exact calibrationDone_answers s cluster unit
  -- The Tannery (spec 13)
  | streamOpen _ => exact .next (.of_laws (streamOpen_fr rfl s _) (streamOpen_wf s _))
  | streamClose _ => exact .next (.of_laws (streamClose_fr rfl s _) (streamClose_wf s _))
  | batchAssemble _ => exact onStream_answers id (.of_laws (batchAssemble_fr rfl s _) (batchAssemble_wf s _))
  | sampleStart _ => exact onStream_answers id (.of_laws (sampleStart_fr rfl s _) (sampleStart_wf s _))
  | sampleDecoded _ _ _ _ _ _ _ =>
    exact onStream_answers left_of_and
      (.of_laws (sampleDecoded_fr rfl s _ _ _ _ _) (sampleDecoded_wf s _ _ _ _ _))
  | sampleOverBudget _ _ _ => exact onStream_answers id (.of_laws (overBudget_fr rfl s _ _ _) (overBudget_wf s _ _ _))
  | batchSeal _ _ => exact onStream_answers id (.of_laws (batchSeal_fr rfl s _ _) (batchSeal_wf s _ _))
  -- Jobs, contexts and the pattern (spec 14)
  | jobOpen _ _ _ _ _ _ _ => exact .next (.of_laws (jobOpen_fr rfl s _ _) (jobOpen_wf s _ _))
  | jobClose _ => exact .next (.of_laws (jobClose_fr rfl s _) (jobClose_wf s _))
  | scrubComplete _ _ => exact .next (.of_laws (scrubComplete_fr rfl s _ _) (scrubComplete_wf s _ _))
  | contextCreate _ _ => exact .next (.of_laws (contextCreate_fr rfl s _ _) (contextCreate_wf s _ _))
  | contextDestroy _ => exact .next (.of_laws (contextDestroy_fr rfl s _) (contextDestroy_wf s _))
  | patternLoad _ _ => exact .next (.of_laws (patternLoad_fr rfl s _ _) (patternLoad_wf s _ _))
  | patternTakeEffect => exact .next (.of_laws (patternTakeEffect_fr rfl s) (patternTakeEffect_wf s))
  | swapComplete _ => exact onCtx_answers id (.of_laws (swapComplete_fr rfl s _) (swapComplete_wf s _))
  | class2Refuse _ => exact .next (.of_laws (class2Refuse_fr rfl s _) (class2Refuse_wf s _))
  | run _ => exact .next (.of_laws (runCommand_fr rfl s _) (runCommand_wf s _))
  | grid _ => exact .next (.of_laws (gridCommand_fr rfl s _) (gridCommand_wf s _))
  | syncOpRead _ | syncOpAdd _ | syncOpSet _ | syncOpEventSet _ | syncOpEventClear _ | syncOpPost _
  | syncOpArrive _ =>
    exact .next (.of_laws (syncOpCommand_fr rfl s _ _) (syncOpCommand_wf s _ _))
  -- The host (spec 15)
  | hostCopyToDevice _ _ => exact .next (.of_laws (hostCopyIn_fr rfl s _ _) (hostCopyIn_wf s _ _))
  | hostCopyToHost _ _ => exact .next (.of_laws (hostCopyOut_fr rfl s _ _) (hostCopyOut_wf s _ _))
  | pcieReadCompletion _ _ _ _ => exact .next (.of_laws (readCompletion_fr rfl s _ _ _ _) (readCompletion_wf s _ _ _ _))
  | ringEntryTake => exact .next (.of_laws (ringEntryTake_fr rfl s) (ringEntryTake_wf s))
  | sqTail _ _ => exact onRing_answers (.of_laws (sqTailWrite_fr rfl s _ _) (sqTailWrite_wf s _ _)) (.refl s)
  | cqHead _ _ => exact onRing_answers (.of_laws (cqHeadWrite_fr rfl s _ _) (cqHeadWrite_wf s _ _)) (.refl s)
  | ringEnable _ _ _ _ _ _ =>
    exact onRing_answers (.of_laws (ringEnable_fr rfl s _ _ _ _ _ _) (ringEnable_wf s _ _ _ _ _ _)) (.refl s)
  | bar2WindowBase _ _ => exact .next (.of_laws (bar2WindowBase_fr rfl s _ _) (bar2WindowBase_wf s _ _))
  | bar2Read _ _ => exact .next (.of_laws (bar2Read_fr rfl s _ _) (bar2Read_wf s _ _))
  | bar2Write _ _ _ => exact .next (.of_laws (bar2Write_fr rfl s _ _ _) (bar2Write_wf s _ _ _))
  | perstNAssert _ => exact .next (.filtered fun t => .of_laws (perstAssert_fr rfl t) (perstAssert_wf t))
  | perstNDeassert => exact .next (.of_laws (perstDeassert_fr rfl s) (perstDeassert_wf s))
  -- The object dictionary (spec 16, 17)
  | odRead | odWrite | odSegRead | odSegWrite | odSegAbort | fwStageData | fwActivate | svnCommit | attestNonce
  | attestReport | debugToken | debugLock | bistRequest | bistForce | calRequest | testMode | stackPpr | bistUnit _ =>
    exact .next (odServe_keeps s _ _)
  | segTransferTimeout _ => exact .next (.of_laws (segTimeout_fr rfl s _) (segTimeout_wf s _))
  | debugUnlockExpiry => exact .next (.ite (.refl s) (.of_laws (endUnlock_fr rfl s) (endUnlock_wf s)))
  | mbDoorbell _ _ _ => exact .next (.of_laws (mbDoorbell_fr rfl s _ _ _) (mbDoorbell_wf s _ _ _))
  -- The field bus (spec 17)
  | jaolpenOpen _ => exact .next (.of_laws (jaolpenOpen_fr rfl s _) (jaolpenOpen_wf s _))
  | jaolpenRequest _ => exact .next (.of_laws (jaolpenRequest_fr rfl s _) (jaolpenRequest_wf s _))
  | jaolpenClose _ => exact .next (.of_laws (jaolpenClose_fr rfl s _) (jaolpenClose_wf s _))
  | sessionIdleTimeout _ => exact .next (.ite (.of_laws (endSession_fr rfl s _) (endSession_wf s _)) (.refl s))
  | neighborSolicitation | echoRequest _ => exact .next (.ite (send_keeps s _) (.refl s))
  | plcaBeaconTimeout | plcaBeaconReceived => exact .next (.ite ⟨rfl, id⟩ (.refl s))
  -- Faults and fences (spec 20)
  | fence _ _ cause => exact onUnit_answers id fun u => .whenPowered (fence_keeps s u cause)
  | fenceNotice _ _ _ =>
    exact onUnit_answers left_of_and fun u => .of_laws (fenceNotice_fr rfl s u _) (fenceNotice_wf s u _)
  | fenceAck _ _ _ =>
    exact onUnit_answers left_of_and fun u => .of_laws (fenceAck_fr rfl s u _) (fenceAck_wf s u _)
  | unfence block => exact .guard id (unfence_keeps s block)
  | memberExclude _ => exact .next (.of_laws (memberExclude_fr rfl s _) (memberExclude_wf s _))
  | controlCoreWatchdog _ =>
    exact onCluster_answers id (.whenRunning (.of_laws (controlWatchdog_fr rfl s _) (controlWatchdog_wf s _)))
  | schedulerWatchdog => exact .next (.whenRunning ((countExpiry_keeps s _ _).trans (fence_keeps _ _ _)))
  | schedulerResume => exact .next (unfence_keeps s 0x82)
  | schedulerLost => exact .next (.ite (endJobFault_keeps s _) (.refl s))
  | powerWatchdog => exact .next (.ite ((countExpiry_keeps s _ _).trans (fence_keeps _ _ _)) (.refl s))
  | powerCoreResume => exact .next (unfence_keeps s 0x83)
  | securityWatchdog => exact .next (.ite ((moduleReset_keeps s).trans (countExpiry_keeps _ _ _)) (.refl s))
  | resetNAssert _ => exact .next (.filtered resetAssert_keeps)
  -- Boot and power (spec 16, 18)
  | boot _ _ _ => exact .next (.of_laws (boot_fr rfl s _ _ _) (boot_wf s _ _ _))
  | processorReady => exact .next (.of_laws (processorReady_fr rfl s) (processorReady_wf s))
  | bootReadyTimeout => exact .next (.of_laws (bootReadyTimeout_fr rfl s) (bootReadyTimeout_wf s))
  | pwrEnAssert _ => exact .next (.filtered fun t => .of_laws (pwrEnAssert_fr rfl t) (pwrEnAssert_wf t))
  | pwrEnDeassert _ => exact .next (.filtered pwrEnDeassert_keeps)
  | pwrEnHoldoffExpiry | inputVoltageValid => exact .next ((setPower_keeps s _).trans (tryPowerUp_keeps _))
  | inputVoltageTrip removed => exact .next (inputTrip_keeps s removed)
  | safeTrip _ _ => exact .next (.of_laws (safeTrip_fr rfl s _ _) (safeTrip_wf s _ _))
  | safeExit _ => exact .next (.of_laws (safeExit_fr rfl s _) (safeExit_wf s _))
  | thermalShutdown => exact .next (thermalShutdown_keeps s)
  | powerLoopTick _ _ _ _ => exact .next (.whenPowered (.of_laws (powerTick_fr rfl s _ _ _ _) (powerTick_wf s _ _ _ _)))
  | droopStretch _ _ => exact onCluster_answers id (.whenPowered ⟨rfl, id⟩)
  | stackTempReport _ _ _ =>
    exact onStack_answers id (.whenPowered (.of_laws (stackReport_fr rfl s _ _ _) (stackReport_wf s _ _ _)))
  -- Service (spec 11, 19)
  | patrolScrub _ _ _ _ =>
    exact onStack_answers left_of_and (.of_laws (patrol_fr rfl s _ _ _ _) (patrol_wf s _ _ _ _))
  | bistSliceStart _ _ _ =>
    exact onCluster_answers left_of_and (.of_laws (sliceStart_fr rfl s _ _ _) (sliceStart_wf s _ _ _))
  | bistSliceEnd _ _ _ _ =>
    exact onCluster_answers left_of_and_and (.of_laws (sliceEnd_fr rfl s _ _ _ _) (sliceEnd_wf s _ _ _ _))

end Sys2Proof.Machine
end

section
/-! The statements of the scope: what a step runs, and what it keeps. -/
namespace Sys2Proof.Machine

theorem step_cons {s : State} {c : Instr} {rest : List Instr} (h : s.pending = c :: rest) :
    step s = exec c { s with pending := rest } := by
  rw [step, h]

theorem step_nil {s : State} (h : s.pending = []) : step s = .next s := by
  rw [step, h]

/-- Settles O1: the two cases of the queue. -/
theorem stepTakesTheFrontCommand : Obligations.StepTakesTheFrontCommand :=
  ⟨fun _ => step_nil, fun _ _ _ => step_cons⟩

/-- Settles O4: every command keeps the queue. -/
theorem commandsLeaveTheQueue : Obligations.CommandsLeaveTheQueue :=
  fun c s _ e => ((exec_answers c s).of_next e).queue

/-- Settles O2: a step is the idle step or one command, and every command keeps the form. -/
theorem stepKeepsMemoryForm : Obligations.StepKeepsMemoryForm := by
  intro s t hs e
  cases hp : s.pending with
  | nil =>
    rw [step_nil hp] at e
    cases e
    exact hs
  | cons c rest =>
    rw [step_cons hp] at e
    exact ((exec_answers c _).of_next e).form hs

/-- A block whose waiting commands are all well formed takes a step, which uses up the front one. -/
theorem step_of_wf (s : State) (h : s.pending.all Instr.wf = true) :
    ∃ t, step s = .next t ∧ t.pending = s.pending.tail := by
  cases hp : s.pending with
  | nil => exact ⟨s, step_nil hp, hp⟩
  | cons c rest =>
    rw [hp, List.all_cons, Bool.and_eq_true] at h
    obtain ⟨hc, -⟩ := h
    have answers := exec_answers c { s with pending := rest }
    obtain ⟨t, e⟩ := answers.exists_next hc
    exact ⟨t, (step_cons hp).trans e, (answers.of_next e).queue⟩

/-- Settles O7: only commands that are not well formed fault, and none is refused. -/
theorem wellFormedCommandsComplete : Obligations.WellFormedCommandsComplete :=
  ⟨fun c s => (exec_answers c s).exists_next, fun c s => (exec_answers c s).not_refused, step_of_wf⟩

end Sys2Proof.Machine
end

section
/-! The home slice (R310, R312): a load that evicts a line writes where the line's own words of the channel point. -/
namespace Sys2Proof.Machine

theorem exec_homeSliceAccess {s : State} (h : s.power.rails = true) (store : Bool) (a : Nat) (data : List Byte)
    (errs : List (Nat × Nat)) :
    exec (.homeSliceAccess store a data errs) s = .next (homeAccess s store a data errs) :=
  congrArg Host.Outcome.next (if_pos h)

/-- A clean line of the cache set of address 0, with a word of the channel listed for sector 8. A line has sectors 0
to 7, so `evictLine` takes the word for one of the line after it. -/
def lineOfSectorEight : CacheLine :=
  { line := 122880, valid := 255, dirty := 0, under := [{ sector := 8, data := List.replicate 32 1, poison := false }] }

/-- A module owned by a job with one WRITE_BACK region of 1 GiB from address 0, cache partitions of one way, and that
line in the set of address 0. -/
def cachesSectorEight : State :=
  { State.reset with
    od := [(Od.key 0x3010 0, 1)]
    job := { Job.none with state := .owned, regions := [1 <<< 44 + 1 <<< 14] }
    cache := [(0, [lineOfSectorEight])] }

/-- The first byte of the line after `lineOfSectorEight`. -/
def sectorEightAddr : Nat := 122881 * 256

/-- The region is in order, and a load of the byte at address 0 is not held. -/
theorem cachesSectorEight_loads :
    Region.wordOk (1 <<< 44 + 1 <<< 14) = true ∧ cachesSectorEight.backed 0 1 = true ∧
      loadHeld cachesSectorEight [(0, 1)] = false := by
  decide +kernel

/-- Before the load the byte reads zero, no snapshot stages copies, and no cached line is the byte's. -/
theorem cachesSectorEight_before :
    cachesSectorEight.byte sectorEightAddr = 0 ∧ cachesSectorEight.snaps = [] ∧
      ∀ e ∈ cachesSectorEight.cache, ∀ l ∈ e.2, l.line ≠ sectorEightAddr / 256 := by
  decide +kernel

/-- The load misses and takes the only way of its set: the evicted line's word is stored, and the byte reads 1. -/
theorem cachesSectorEight_after :
    (homeAccess cachesSectorEight false 0 [0] []).byte sectorEightAddr = 1 ∧
      (homeAccess cachesSectorEight false 0 [0] []).poisonAt sectorEightAddr = false := by
  decide +kernel

/-- That load changes a byte that it does not name, and none of the three cases that `SameBytes` allows explains it. -/
theorem not_sameBytes_load_cachesSectorEight :
    ¬ SameBytes cachesSectorEight (homeAccess cachesSectorEight false 0 [0] []) [] := by
  intro same
  obtain ⟨zero, snaps, others⟩ := cachesSectorEight_before
  obtain ⟨one, clean⟩ := cachesSectorEight_after
  have uncovered : ¬ covered [] sectorEightAddr := by simp
  have unstaged : ¬ stagedAt cachesSectorEight sectorEightAddr := by simp [snaps]
  rcases same sectorEightAddr uncovered unstaged with kept | ⟨poisoned, -⟩ | ⟨e, he, l, hl, own, -⟩
  · rw [one, zero] at kept
    exact absurd kept (by decide)
  · exact Bool.false_ne_true (clean.symm.trans poisoned)
  · exact others e he l hl own

/-- Refutes O28: its load clause without symbol errors, at a state whose cache holds a channel's word listed for a ninth
sector of a line. The statement takes every state, and asks nothing of the cache's form; `keepUnder`, the one operation
that adds such a word, is only run for sectors 0 to 7. -/
theorem not_homeSliceStoresAndLoads : ¬ Obligations.HomeSliceStoresAndLoads := by
  rintro ⟨stack, -, -⟩
  obtain ⟨-, backed, free⟩ := cachesSectorEight_loads
  obtain ⟨-, load, -, -⟩ :=
    stack cachesSectorEight 0 [0] [] (List.cons_ne_nil 0 []) rfl rfl backed (Nat.two_pow_pos 40)
  obtain ⟨t, run, -, -, -, same⟩ := load free
  rw [exec_homeSliceAccess rfl] at run
  cases run
  exact not_sameBytes_load_cachesSectorEight (same rfl)

end Sys2Proof.Machine
end

section
/-! Cells: what the updates of a piece, an item and a tile change of a cell, and what they leave alone. -/
namespace Sys2Proof.Machine
namespace State

/-- A cell's piece changes, and nothing else of the cell. -/
@[simp] theorem cell_updPiece_same (s : State) (c : Nat) (f : Piece → Piece) :
    (s.updPiece c f).cell c = { s.cell c with piece := (s.cell c).piece.map f } :=
  cell_updCell_same s c _

theorem cell_updPiece_other (s : State) (c d : Nat) (f : Piece → Piece) (h : d ≠ c) :
    (s.updPiece c f).cell d = s.cell d :=
  cell_updCell_other s c d _ h

/-- From a frame of the cells and their counters: the rest of the state, in one equation. -/
theorem eq_of_hide_cells_cellCtr {s t : State} (h : t.hide 0xa00 = s.hide 0xa00) :
    t = { s with cells := t.cells, cellCtr := t.cellCtr } := by
  cases s
  cases t
  cases h
  rfl

/-- From a frame of the counters of the cells: the rest of the state, in one equation. -/
theorem eq_of_hide_cellCtr {s t : State} (h : t.hide 0x800 = s.hide 0x800) : t = { s with cellCtr := t.cellCtr } := by
  cases s
  cases t
  cases h
  rfl

end State

/-- The tiles of a cell stay whatever becomes of an item of its piece. -/
@[simp] theorem tiles_updItem (s : State) (c slot : Nat) (f : Item → Item) :
    ((updItem s c slot f).cell c).tiles = (s.cell c).tiles := by
  simp [updItem]

@[simp] theorem tiles_itemDone (s : State) (c slot : Nat) :
    ((itemDone s c slot).cell c).tiles = (s.cell c).tiles :=
  tiles_updItem s c slot _

/-- A tile that is put stands in the file of its cell. -/
theorem mem_tiles_putTile (s : State) (c : Nat) (x : Tile) : x ∈ ((putTile s c x).cell c).tiles := by
  simp [putTile]

/-- Operations that touch one cell leave every other as it was. -/
theorem cell_putTile_other (s : State) (c d : Nat) (x : Tile) (h : d ≠ c) : (putTile s c x).cell d = s.cell d :=
  State.cell_updCell_other s c d _ h

theorem cell_updItem_other (s : State) (c d slot : Nat) (f : Item → Item) (h : d ≠ c) :
    (updItem s c slot f).cell d = s.cell d :=
  State.cell_updPiece_other s c d _ h

theorem cell_stageFlags_other (s : State) (c d : Nat) (f : Flags) (h : d ≠ c) :
    (s.stageFlags c f).cell d = s.cell d :=
  State.cell_updPiece_other s c d _ h

end Sys2Proof.Machine
end

section
/-! The array (R98, R105 to R117): what running a descriptor leaves in its cell. -/
namespace Sys2Proof.Machine

/-- Counting work changes counters alone. -/
theorem cell_countWork (s : State) (c d : Nat) (x : TileD) : (countWork s c x).cell d = s.cell d := by
  have cells : (countWork s c x).cells = s.cells :=
    (congrArg State.cells (countWork_fr (M := 0x800) rfl s c x rfl) :)
  rw [State.cell, State.cell, cells]

/-- The tile of a descriptor once its passes have been accumulated and counted (R88, R98), its span as it was. -/
def accumulated (s : State) (i : Item) (d : TileD) (y : Tile) : Tile :=
  { y with entries := (runEntries s d y.chain y.entries).1, chain := y.chain + 32 * d.chunkCount * d.passesPer,
           slot := i.slot, word := i.word, bad := [] }

/-- The state once the work of a descriptor is counted and its flags are staged. -/
def arrayCounted (s : State) (c : Nat) (d : TileD) (e : Tile × Flags) : State :=
  (countWork s c d).stageFlags c (e.2 ||| (runEntries s d e.1.chain e.1.entries).2)

section
variable {s : State} {c : Nat} {p : Piece} {i : Item} {d : TileD} {e : Tile × Flags}

/-- R107: a tile that is not drained stays as its next descriptor will find it. -/
theorem runArray_of_open (h : d.drain = false) :
    runArray s c p i d e = itemDone (putTile (arrayCounted s c d e) c (accumulated s i d e.1)) c i.slot := by
  simp only [runArray, h, Bool.not_false, if_true]
  rfl

/-- R233: a gradient tile is held for its home. -/
theorem runArray_of_grad (h : d.drain = true) (hg : d.isGrad = true) :
    runArray s c p i d e = itemDone (putTile (arrayCounted s c d e) c
      { accumulated s i d e.1 with
        span := .draining, home := (gradHome (arrayCounted s c d e) (pdCtx p.desc) d).1
        target := (gradHome (arrayCounted s c d e) (pdCtx p.desc) d).2.1
        pitch := (gradHome (arrayCounted s c d e) (pdCtx p.desc) d).2.2 }) c i.slot := by
  simp only [runArray, h, hg, Bool.not_true, if_true, Bool.false_eq_true, if_false]
  rfl

/-- R113: any other tile joins the drain queue. -/
theorem runArray_of_drain (h : d.drain = true) (hg : d.isGrad = false) :
    runArray s c p i d e = updItem ((putTile (arrayCounted s c d e) c { accumulated s i d e.1 with span := .draining }).updCell c
      fun x => { x with drainQ := x.drainQ ++ [d.group] }) c i.slot fun i => { i with stage := .draining } := by
  simp only [runArray, h, hg, Bool.not_true, Bool.false_eq_true, if_false]
  rfl

/-- Running a descriptor leaves every other cell as it was. -/
theorem cell_runArray_other {b : Nat} (h : b ≠ c) : (runArray s c p i d e).cell b = s.cell b := by
  have counted : (arrayCounted s c d e).cell b = s.cell b :=
    (cell_stageFlags_other (countWork s c d) c b _ h).trans (cell_countWork s c b d)
  cases hd : d.drain with
  | false => rw [runArray_of_open hd, itemDone, cell_updItem_other _ _ _ _ _ h, cell_putTile_other _ _ _ _ h, counted]
  | true =>
    cases hg : d.isGrad with
    | true => rw [runArray_of_grad hd hg, itemDone, cell_updItem_other _ _ _ _ _ h, cell_putTile_other _ _ _ _ h, counted]
    | false =>
      rw [runArray_of_drain hd hg, cell_updItem_other _ _ _ _ _ h, State.cell_updCell_other _ _ _ _ h,
        cell_putTile_other _ _ _ _ h, counted]

/-- The array leaves in its cell the tile with its passes accumulated, DRAINING where the descriptor drains it. -/
theorem exists_mem_tiles_runArray :
    ∃ x ∈ ((runArray s c p i d e).cell c).tiles, x.group = e.1.group ∧ x.slot = i.slot ∧
      x.chain = e.1.chain + 32 * d.chunkCount * d.passesPer ∧
      x.entries = (runEntries s d e.1.chain e.1.entries).1 ∧ x.span = if d.drain then .draining else e.1.span := by
  cases hd : d.drain with
  | false =>
    rw [runArray_of_open hd, tiles_itemDone]
    exact ⟨_, mem_tiles_putTile _ c _, rfl, rfl, rfl, rfl, rfl⟩
  | true =>
    cases hg : d.isGrad with
    | true =>
      rw [runArray_of_grad hd hg, tiles_itemDone]
      exact ⟨_, mem_tiles_putTile _ c _, rfl, rfl, rfl, rfl, rfl⟩
    | false =>
      rw [runArray_of_drain hd hg, tiles_updItem, State.cell_updCell_same]
      exact ⟨_, mem_tiles_putTile _ c _, rfl, rfl, rfl, rfl, rfl⟩

/-- An array command whose form the unit's next descriptor has, whose reads are free and whose tile can start, runs it. -/
theorem arrayCmd_eq_runArray {is : TileD → Bool} (hp : s.pieceOf c = some p) (hi : unitNext p .array = some i)
    (his : is (TileD.ofWord i.word) = true) (ready : arrayReady s c p i (TileD.ofWord i.word) = true)
    (start : startTile s c p i (TileD.ofWord i.word) = some e) :
    arrayCmd s c is = runArray s c p i (TileD.ofWord i.word) e := by
  simp [arrayCmd, hp, hi, his, ready, start]

end

/-- Each array opcode is the array's command for the form that selects it. -/
theorem exec_arrayRow {r : (TileD → Bool) × (Nat → Instr)} (hr : r ∈ arrayRows) {s : State} {c : Nat}
    (hc : c < cellCount) : exec (r.2 c) s = .next (arrayCmd s c r.1) := by
  have next : onCell c s (fun s => arrayCmd s c r.1) = .next (arrayCmd s c r.1) := if_pos hc
  simp only [arrayRows, List.mem_cons, List.not_mem_nil, or_false] at hr
  rcases hr with rfl | rfl | rfl | rfl | rfl | rfl | rfl | rfl <;> exact next

/-- Settles O13: the command runs the array on the tile that starts. -/
theorem arrayDescriptorsRun : Obligations.ArrayDescriptorsRun := by
  intro r hr s c p i e hc hp hi his ready start
  refine ⟨runArray s c p i (TileD.ofWord i.word) e, ?_, State.eq_of_hide_cells_cellCtr (runArray_fr rfl s c p i _ e rfl),
    exists_mem_tiles_runArray, fun d => cell_runArray_other, ?_⟩
  · rw [exec_arrayRow hr hc, arrayCmd_eq_runArray hp hi his ready start]
  · exact (congrArg State.mem (runArray_fr (M := 0xa00) rfl s c p i (TileD.ofWord i.word) e rfl) :)

end Sys2Proof.Machine
end

section
/-! SLM adds (R239): one that a snapshot has copied before, so that the home slices of the copies evict a line. -/
namespace Sys2Proof.Machine

/-- A byte of memory that changes, unpoisoned, outside the runs, the stagings and the cached lines. -/
theorem not_sameBytes_of_byte_ne {s t : State} {rs : List Run} {a : Nat} (uncovered : ¬ covered rs a)
    (unstaged : ¬ stagedAt s a) (uncached : ∀ e ∈ s.cache, ∀ l ∈ e.2, l.line ≠ a / 256)
    (clean : t.poisonAt a = false) (changed : t.byte a ≠ s.byte a) : ¬ SameBytes s t rs := by
  intro same
  rcases same a uncovered unstaged with kept | ⟨poisoned, -⟩ | ⟨e, he, l, hl, own, -⟩
  · exact changed kept
  · exact Bool.false_ne_true (clean.symm.trans poisoned)
  · exact uncached e he l hl own

/-- An add to the first pair of the SLM, on its way from cell 0. -/
def firstPairAdd : SlmAdd :=
  { addr := slmBase, val := Lined.zero, poison := false, ctx := 1, own := cachesSectorEight.reqGen 0, group := 0,
    last := false }

/-- An armed snapshot of two runs, the byte at address 0 and the first pair of the SLM, staged 1 MiB into the SLM. -/
def snapOfByteAndPair : Snap :=
  { cmd := 1, id := 1, ctx := 1, step := 0, tc := 0, gmap := [], entries := [], runs := [(0, 1, 0), (slmBase, 8, 1)],
    bytes := 9, chunk := 65536, stage := slmBase + 2 ^ 20, armed := true, copied := [], sent := none }

/-- The module of `cachesSectorEight`, with that snapshot armed and that add on its way. -/
def addsUnderSnapshot : State :=
  { cachesSectorEight with snaps := [snapOfByteAndPair], cells := [(0, { Cell.init with slmAdds := [firstPairAdd] })] }

/-- The slice serves the add. -/
theorem addsUnderSnapshot_served :
    addsUnderSnapshot.reqServed 0 firstPairAdd.own (homeOf addsUnderSnapshot firstPairAdd.addr) = true := by
  decide +kernel

/-- Before the add the byte of `sectorEightAddr` reads zero; neither the add, nor a staging, nor a cached line holds it. -/
theorem addsUnderSnapshot_before :
    addsUnderSnapshot.byte sectorEightAddr = 0 ∧ ¬ covered [(firstPairAdd.addr, 8)] sectorEightAddr ∧
      ¬ stagedAt addsUnderSnapshot sectorEightAddr ∧
      ∀ e ∈ addsUnderSnapshot.cache, ∀ l ∈ e.2, l.line ≠ sectorEightAddr / 256 := by
  decide +kernel

/-- The snapshot's copy loads the byte at address 0, which evicts `lineOfSectorEight`: the byte reads 1. -/
theorem addsUnderSnapshot_after :
    (slmAdd addsUnderSnapshot 0).byte sectorEightAddr = 1 ∧
      (slmAdd addsUnderSnapshot 0).poisonAt sectorEightAddr = false := by
  decide +kernel

theorem exec_slmAdd {s : State} {c : Nat} (h : c < cellCount) : exec (.slmAdd c) s = .next (slmAdd s c) :=
  if_pos h

/-- Refutes O14: its last clause, that an SLM add changes no other byte, at a state whose cache holds a channel's word
listed for a ninth sector of a line (as for O28). The store copies what an armed snapshot protects, the copy loads stack
memory, and the load evicts that line. The statement takes every state, and asks nothing of the cache's form. -/
theorem not_preloadDrainAndSlmAddRun : ¬ Obligations.PreloadDrainAndSlmAddRun := by
  rintro ⟨-, -, slm⟩
  have exists_cell : 0 < cellCount := by decide
  obtain ⟨-, lands⟩ := slm addsUnderSnapshot 0 firstPairAdd [] exists_cell rfl
  obtain ⟨t, run, -, -, -, same⟩ := lands addsUnderSnapshot_served
  rw [exec_slmAdd exists_cell] at run
  cases run
  obtain ⟨zero, uncovered, unstaged, uncached⟩ := addsUnderSnapshot_before
  obtain ⟨one, clean⟩ := addsUnderSnapshot_after
  have changed : (slmAdd addsUnderSnapshot 0).byte sectorEightAddr ≠ addsUnderSnapshot.byte sectorEightAddr := by
    rw [one, zero]
    decide
  exact not_sameBytes_of_byte_ne uncovered unstaged uncached clean changed same

end Sys2Proof.Machine
end

section
/-! What the cells report (R109, R182, R230, R292, R293): what a report changes, and the counters of the stall causes. -/
namespace Sys2Proof.Machine

/-! ### The counters of a cell -/

namespace State

@[simp] theorem cellGet_cellAdd_same (s : State) (c k n : Nat) :
    (s.cellAdd c k n).cellGet c k = min (2 ^ 48 - 1) (s.cellGet c k + n) :=
  Sp.get_set_same _ _ _ _

theorem cellGet_cellAdd_other (s : State) (c j k n : Nat) (h : j ≠ k) :
    (s.cellAdd c k n).cellGet c j = s.cellGet c j :=
  Sp.get_set_other _ _ _ _ _ (by omega)

/-- Additions to distinct counters of a cell: each counter listed grows once. -/
theorem cellGet_foldl_cellAdd (s : State) (c n k : Nat) {ks : List Nat} (distinct : ks.Nodup) :
    (ks.foldl (fun s k => s.cellAdd c k n) s).cellGet c k =
      if ks.contains k then min (2 ^ 48 - 1) (s.cellGet c k + n) else s.cellGet c k := by
  induction ks generalizing s with
  | nil => rfl
  | cons j ks ih =>
    obtain ⟨hj, hks⟩ := List.nodup_cons.mp distinct
    rw [List.foldl_cons, ih _ hks]
    by_cases hk : k = j
    · subst hk
      simp [hj]
    · simp [hk, cellGet_cellAdd_other _ _ _ _ _ hk]

end State

/-- What is left once repeats are erased has none. -/
theorem nodup_eraseDups {α : Type} [BEq α] [LawfulBEq α] : ∀ l : List α, l.eraseDups.Nodup
  | [] => by simp
  | a :: l => by
    rw [List.eraseDups_cons, List.nodup_cons]
    exact ⟨by simp [List.mem_eraseDups], nodup_eraseDups _⟩
termination_by l => l.length
decreasing_by exact Nat.lt_succ_of_le (List.length_filter_le _ l)

/-- R293: each distinct first cause of the waiting units counts the cycles once. -/
theorem cellGet_countStalls {s : State} {c : Nat} {p : Piece} (hp : s.pieceOf c = some p) (n k : Nat) :
    (countStalls s c n).cellGet c k =
      if ((unitCauses s c p).filterMap firstCause).contains k then min (2 ^ 48 - 1) (s.cellGet c k + n)
      else s.cellGet c k := by
  simp only [countStalls, hp]
  rw [State.cellGet_foldl_cellAdd s c n k (nodup_eraseDups _)]
  simp [List.mem_eraseDups]

/-- A report of waiting cycles alone. -/
theorem takeReports_stalls (s : State) (c n : Nat) : takeReports s c [(0, n)] = countStalls s c n := by
  simp [takeReports, reportSectors]

/-! ### The tiles of the reporting cell -/

/-- Of all cells only cell c may differ, and of it only the tiles, each with its piece and span as before. -/
structure TilesRead (c : Nat) (s u : State) : Prop where
  others : ∀ e, e ≠ c → u.cell e = s.cell e
  own : u.cell c = { s.cell c with tiles := (u.cell c).tiles }
  marks : (u.cell c).tiles.map (fun t => (t.piece, t.span)) = (s.cell c).tiles.map fun t => (t.piece, t.span)

namespace TilesRead
variable {c : Nat} {s t u : State}

theorem of_cells (h : u.cells = s.cells) : TilesRead c s u := by
  have cell (e : Nat) : u.cell e = s.cell e := congrArg (Sp.get Cell.init · e) h
  exact ⟨fun e _ => cell e, by rw [cell], by rw [cell]⟩

theorem trans (h : TilesRead c s t) (k : TilesRead c t u) : TilesRead c s u where
  others e he := (k.others e he).trans (h.others e he)
  own := by rw [k.own, h.own]
  marks := k.marks.trans h.marks

theorem foldl {β : Type} {f : State → β → State} (k : ∀ s a, TilesRead c s (f s a)) (l : List β) (s : State) :
    TilesRead c s (l.foldl f s) := by
  induction l generalizing s with
  | nil => exact of_cells rfl
  | cons a l ih => exact (k s a).trans (ih _)

theorem length_tiles (h : TilesRead c s u) : (u.cell c).tiles.length = (s.cell c).tiles.length := by
  simpa using congrArg List.length h.marks

/-- What asks only for a tile's piece and span is found as before. -/
theorem any_tiles (h : TilesRead c s u) (f : Nat × Span → Bool) :
    ((u.cell c).tiles.any fun t => f (t.piece, t.span)) = (s.cell c).tiles.any fun t => f (t.piece, t.span) := by
  simpa [List.any_map, Function.comp_def] using congrArg (List.any · f) h.marks

end TilesRead

theorem putAccSector_tilesRead (s : State) (c : Nat) (x : Tile) (k : Nat) (d : List Nat) (bad form : Bool) :
    TilesRead c s (putAccSector s c x k d bad form) where
  others e he := State.cell_updCell_other _ _ _ _ he
  own := by simp only [putAccSector, State.cell_updCell_same]
  marks := by
    simp only [putAccSector, State.cell_updCell_same, List.map_map]
    refine List.map_congr_left fun y _ => ?_
    simp only [Function.comp_apply]
    split <;> rfl

theorem noteSector_tilesRead (s : State) (c a test : Nat) (bad : Bool) (p : EccPlace) :
    TilesRead c s (noteSector s a test bad p) :=
  .of_cells (congrArg State.cells (noteSector_fr (M := 0x2010000000040) rfl s a test bad p rfl) :)

theorem accRead_tilesRead (s : State) (c sec : Nat) (errs : List (Nat × Nat)) :
    TilesRead c s (accRead s c sec errs) := by
  unfold accRead
  split
  case h_1 => exact .of_cells rfl
  case h_2 x _ =>
    dsimp only
    split
    case h_1 | h_3 => exact putAccSector_tilesRead ..
    case h_2 | h_4 => exact (putAccSector_tilesRead ..).trans (noteSector_tilesRead ..)

theorem takeReports_tilesRead (s : State) (c : Nat) (rs : List (Nat × Nat)) : TilesRead c s (takeReports s c rs) := by
  have stalls (s : State) (n : Nat) : TilesRead c s (countStalls s c n) :=
    .of_cells (congrArg State.cells (countStalls_fr (M := 0x800) rfl s c n rfl) :)
  have welt (s : State) (sec : Nat) (errs : List (Nat × Nat)) : TilesRead c s (weltRead s c sec errs) :=
    .of_cells (congrArg State.cells (weltRead_fr (M := 0x2010000010040) rfl s c sec errs rfl) :)
  have side (s : State) (row : Nat) : TilesRead c s (upsetSide s c row) := .of_cells rfl
  exact (((stalls s _).trans (.foldl (fun _ _ => side ..) _ _)).trans
    (.foldl (fun _ _ => accRead_tilesRead ..) _ _)).trans (.foldl (fun _ _ => welt ..) _ _)

theorem takeReports_eq (s : State) (c : Nat) (rs : List (Nat × Nat)) :
    ∃ u, takeReports s c rs = u ∧
      u = { s with od := u.od, cells := u.cells, cellCtr := u.cellCtr, welt := u.welt, side := u.side,
                   rowCorrections := u.rowCorrections, flash := u.flash } := by
  have frame := takeReports_fr (M := 0x2010000030a40) rfl s c rs rfl
  generalize takeReports s c rs = u at frame
  refine ⟨u, rfl, ?_⟩
  cases s
  cases u
  cases frame
  rfl

end Sys2Proof.Machine
end

section
/-! Retirement (R117, R123, R141, R288): the item leaves, more slots are fetched, a finished grid piece sends COMMIT. -/
namespace Sys2Proof.Machine

/-! ### Reads of memory -/

/-- What reads of memory depend on is the same in two states: the bytes, the marks, the areas of the contexts, and what is
undefined (R405, R406). -/
structure ReadsAlike (s u : State) : Prop where
  mem : u.mem = s.mem
  poison : u.poison = s.poison
  job : u.job = s.job
  ctxs : u.ctxs = s.ctxs
  undef : ∀ c, (u.cell c).undef = (s.cell c).undef
  idle : ∀ c, (u.cell c).piece = none ↔ (s.cell c).piece = none

namespace ReadsAlike
variable {s t u : State}

theorem trans (h : ReadsAlike s t) (k : ReadsAlike t u) : ReadsAlike s u where
  mem := k.mem.trans h.mem
  poison := k.poison.trans h.poison
  job := k.job.trans h.job
  ctxs := k.ctxs.trans h.ctxs
  undef c := (k.undef c).trans (h.undef c)
  idle c := (k.idle c).trans (h.idle c)

theorem undefAt (h : ReadsAlike s u) (a : Nat) : u.undefAt a = s.undefAt a := by
  have kept (c : Nat) : u.keptAt c a = s.keptAt c a := by rw [State.keptAt, State.keptAt, h.ctxs, h.job]
  unfold State.undefAt
  cases cellOfAddr a with
  | none => rfl
  | some c => simp only [h.undef, kept, h.idle]

theorem byte (h : ReadsAlike s u) (a : Nat) : u.byte a = s.byte a := by
  have marked : u.poisonAt a = s.poisonAt a := by rw [State.poisonAt, State.poisonAt, h.poison]
  rw [State.byte, State.byte, marked, h.undefAt, h.mem]

theorem rd (h : ReadsAlike s u) (a n : Nat) : u.rd a n = s.rd a n := by
  simp only [State.rd, State.bytes, h.byte]

theorem of_updPiece (s : State) (c : Nat) (f : Piece → Piece) : ReadsAlike s (s.updPiece c f) := by
  refine ⟨rfl, rfl, rfl, rfl, fun d => ?_, fun d => ?_⟩ <;> by_cases hd : d = c
  · rw [hd, State.cell_updPiece_same]
  · rw [State.cell_updPiece_other _ _ _ _ hd]
  · rw [hd, State.cell_updPiece_same, Option.map_eq_none_iff]
  · rw [State.cell_updPiece_other _ _ _ _ hd]

theorem of_takeReports (s : State) (c : Nat) (rs : List (Nat × Nat)) : ReadsAlike s (takeReports s c rs) := by
  have tiles := takeReports_tilesRead s c rs
  obtain ⟨u, hu, frame⟩ := takeReports_eq s c rs
  rw [hu] at tiles ⊢
  have cell (d : Nat) : (u.cell d).undef = (s.cell d).undef ∧ (u.cell d).piece = (s.cell d).piece := by
    by_cases hd : d = c
    · rw [hd, tiles.own]
      exact ⟨rfl, rfl⟩
    · rw [tiles.others d hd]
      exact ⟨rfl, rfl⟩
  exact ⟨(congrArg State.mem frame :), (congrArg State.poison frame :), (congrArg State.job frame :),
    (congrArg State.ctxs frame :), fun d => (cell d).1, fun d => by rw [(cell d).2]⟩

end ReadsAlike

/-! ### The piece of a cell -/

/-- A change of the piece does not bring a cell down or up. -/
@[simp] theorem State.pieceOf_updPiece (s : State) (c : Nat) (f : Piece → Piece) :
    (s.updPiece c f).pieceOf c = (s.pieceOf c).map f := by
  have down : (s.updPiece c f).cellDown c = s.cellDown c := by
    unfold State.cellDown
    rw [State.cell_updPiece_same]
    rfl
  unfold State.pieceOf
  rw [down, State.cell_updPiece_same]
  split <;> rfl

/-- A report does not touch the piece. -/
theorem pieceOf_takeReports (s : State) (c : Nat) (rs : List (Nat × Nat)) :
    (takeReports s c rs).pieceOf c = s.pieceOf c := by
  have tiles := takeReports_tilesRead s c rs
  obtain ⟨u, hu, frame⟩ := takeReports_eq s c rs
  rw [hu] at tiles ⊢
  have blocks : u.blocks = s.blocks := (congrArg State.blocks frame :)
  simp only [State.pieceOf, State.cellDown, State.block, blocks]
  rw [tiles.own]
  rfl

/-! ### Fetching -/

/-- The piece once the cell has fetched on; an update piece has no list (R257). -/
def fetched (s : State) (p : Piece) : Piece := if p.upd.isSome then p else fetchSlots s p

/-- Fetching changes the slots of a piece alone. -/
theorem fetched_eq (s : State) (p : Piece) :
    fetched s p = { p with raw := (fetched s p).raw, badSlots := (fetched s p).badSlots, slots := (fetched s p).slots } := by
  unfold fetched
  split <;> rfl

/-- R123: each slot fetched is the 64 bytes of its place, and none lies too far ahead. -/
theorem fetches_fetched (s : State) (p : Piece) : Fetches s p (fetched s p) := by
  unfold fetched
  split
  case isTrue => exact ⟨List.take_length, fun j hj hj' => absurd hj (Nat.not_le.mpr hj')⟩
  case isFalse =>
    refine ⟨by simp [fetchSlots], fun j hj hj' => ?_⟩
    have oldest : oldestSlot (fetchSlots s p) = oldestSlot p := rfl
    simp only [fetchSlots, List.length_append, List.length_map, List.length_drop, List.length_range] at hj'
    rw [oldest]
    refine ⟨?_, by omega, by omega⟩
    simp only [fetchSlots]
    rw [List.getElem?_append_right hj, List.getElem?_map, List.getElem?_drop, Nat.add_sub_of_le hj,
      List.getElem?_range (by omega), Option.map_some]

/-- What is fetched is what stands in memory. -/
theorem fetches_of_readsAlike {s u : State} {p q : Piece} (alike : ReadsAlike s u) (h : Fetches u p q) : Fetches s p q := by
  obtain ⟨kept, new⟩ := h
  refine ⟨kept, fun j hj hj' => ?_⟩
  rw [← alike.rd]
  exact new j hj hj'

/-! ### Sending -/

/-- Where a message goes depends on what waits and on the objects the messages name (R53). -/
theorem State.send_outbox_congr {s u : State} (outbox : u.outbox = s.outbox) (sync : u.sync = s.sync) (m : Msg) :
    (u.send m).outbox = (s.send m).outbox := by
  have rank : u.harnessRank = s.harnessRank := by
    funext x
    cases x <;> simp only [State.harnessRank, State.obj, sync]
  simp only [State.send, State.givesWayTo, rank, outbox]
  split <;> rfl

/-- What a cell's requests carry depends on its generation and its block's (R549). -/
theorem State.reqGen_congr {s u : State} {c : Nat} (blocks : u.blocks = s.blocks)
    (gen : (u.cell c).gen = (s.cell c).gen) : u.reqGen c = s.reqGen c := by
  simp only [State.reqGen, State.block, blocks, gen]

/-- Sending changes what waits to leave, and nothing else. -/
theorem State.send_eq (s : State) (m : Msg) : s.send m = { s with outbox := (s.send m).outbox } := by
  unfold State.send
  split <;> rfl

/-! ### The end of a list -/

/-- A piece that is not finished goes on, and one without a lease waits for its own commit. -/
theorem finishCheck_of_stays {s : State} {c : Nat} {q : Piece} (hq : s.pieceOf c = some q)
    (closed : ((s.cell c).tiles.any fun t => decide (t.piece = q.seq ∧ t.span = .opened)) = false)
    (stays : q.finished = false ∨ q.lease = none) : finishCheck s c = s := by
  unfold finishCheck
  rw [hq]
  rcases stays with unfinished | free
  · simp [unfinished]
  · simp only [closed, free]
    simp

/-- R141: the finished piece of a grid sends COMMIT. -/
theorem finishCheck_of_lease {s : State} {c : Nat} {q : Piece} {l : LeaseRef} (hq : s.pieceOf c = some q)
    (closed : ((s.cell c).tiles.any fun t => decide (t.piece = q.seq ∧ t.span = .opened)) = false)
    (running : q.phase = .running) (finished : q.finished = true) (lease : q.lease = some l) :
    finishCheck s c = (s.send (.tileCommit c (s.reqGen c) l)).updPiece c fun p => { p with phase := .sent } := by
  unfold finishCheck
  rw [hq]
  simp only [closed, lease]
  simp [finished, running]

/-! ### The retirement -/

/-- The piece once the item of a slot has retired (R117): a persistent stream stays, armed (R288). -/
def retired (slot : Nat) (i : Item) (p : Piece) : Piece :=
  { p with
    items := if fld i.word 7 0 == 0x40 && (MoveD.ofWord i.word).persist then
        updFirst (fun j => j.slot == slot && j.finished) (fun j => { j with stage := .armed }) p.items
      else p.items.erase i
    staged := { p.staged with ops := p.staged.ops ++ signalOf i } }

theorem length_updFirst {α : Type} (f : α → Bool) (g : α → α) (l : List α) : (updFirst f g l).length = l.length := by
  induction l with
  | nil => rfl
  | cons a l ih =>
    unfold updFirst
    split
    · rfl
    · exact congrArg (· + 1) ih

/-- A persistent stream keeps its place in the piece. -/
theorem length_items_retired {slot : Nat} {i : Item} (p : Piece)
    (h : fld i.word 7 0 = 0x40 ∧ (MoveD.ofWord i.word).persist = true) :
    (retired slot i p).items.length = p.items.length := by
  simp [retired, h, length_updFirst]

/-- Any other item leaves. -/
theorem items_retired {slot : Nat} {i : Item} (p : Piece)
    (h : fld i.word 7 0 ≠ 0x40 ∨ (MoveD.ofWord i.word).persist = false) :
    (retired slot i p).items = p.items.erase i := by
  rcases h with h | h <;> simp [retired, h]

/-- Retiring the item of a slot, after the report, is: the item leaves, the cell fetches on, the list's end is looked at. -/
theorem retire_eq {s : State} {c slot : Nat} {reports : List (Nat × Nat)} {p : Piece} {i : Item}
    (hp : s.pieceOf c = some p) (hi : p.items.find? (fun i => i.slot == slot && i.finished) = some i) :
    retire s c slot reports =
      finishCheck (fetchMore ((takeReports s c reports).updPiece c (retired slot i)) c) c := by
  have found : ((takeReports s c reports).pieceOf c).bind
      (fun p => p.items.find? fun i => i.slot == slot && i.finished) = some i := by
    rw [pieceOf_takeReports, hp]
    exact hi
  simp only [retire, found]
  rfl

/-- The cell after the item has left and more slots are fetched: it holds the piece with its slots, and its tiles. -/
theorem cell_fetchMore_updPiece {u : State} {c : Nat} {p : Piece} (hp : (u.cell c).piece = some p) (f : Piece → Piece) :
    (fetchMore (u.updPiece c f) c).cell c = { u.cell c with piece := some (fetched (u.updPiece c f) (f p)) } := by
  simp [fetchMore, hp, fetched]

theorem State.piece_of_pieceOf {s : State} {c : Nat} {p : Piece} (h : s.pieceOf c = some p) : (s.cell c).piece = some p := by
  unfold State.pieceOf at h
  split at h
  · cases h
  · exact h

theorem exec_descriptorRetire {s : State} {c : Nat} (h : c < cellCount) (slot : Nat) (reports : List (Nat × Nat)) :
    exec (.descriptorRetire c slot reports) s = .next (retire s c slot reports) :=
  if_pos h

end Sys2Proof.Machine
end

section
/-! The statement of retirement (R117, R141): the report, then the item that leaves, then the end of the list. -/
namespace Sys2Proof.Machine

/-- From a state u after the report of cell c, the state t in which the item of a slot has left its piece p and the cell
has fetched on: it holds the piece q. -/
structure ItemLeft (s u : State) (c slot : Nat) (p : Piece) (i : Item) (t : State) (q : Piece) : Prop where
  frame : t = { u with cells := t.cells }
  others : ∀ e, e ≠ c → t.cell e = s.cell e
  own : t.cell c = { u.cell c with piece := some q }
  held : t.pieceOf c = some q
  form : q = { retired slot i p with raw := q.raw, badSlots := q.badSlots, slots := q.slots }
  fetches : Fetches s p q

section
variable {s u t : State} {c slot : Nat} {p q : Piece} {i : Item}

theorem itemLeft_fetchMore (tiles : TilesRead c s u) (alike : ReadsAlike s u) (hu : u.pieceOf c = some p) :
    ItemLeft s u c slot p i (fetchMore (u.updPiece c (retired slot i)) c)
      (fetched (u.updPiece c (retired slot i)) (retired slot i p)) where
  frame := rfl
  others e he := by
    rw [fetchMore, State.cell_updPiece_other _ _ _ _ he, State.cell_updPiece_other _ _ _ _ he, tiles.others e he]
  own := cell_fetchMore_updPiece (State.piece_of_pieceOf hu) _
  held := by
    rw [fetchMore, State.pieceOf_updPiece, State.pieceOf_updPiece, hu]
    rfl
  form := fetched_eq _ _
  fetches := fetches_of_readsAlike (alike.trans (.of_updPiece u c _)) (fetches_fetched _ (retired slot i p))

namespace ItemLeft

theorem items (h : ItemLeft s u c slot p i t q) : q.items = (retired slot i p).items := by rw [h.form]

theorem phase (h : ItemLeft s u c slot p i t q) : q.phase = p.phase := by rw [h.form]; rfl

theorem lease (h : ItemLeft s u c slot p i t q) : q.lease = p.lease := by rw [h.form]; rfl

/-- The piece is as it was but for its items, its staged signal and its slots. -/
theorem shape (h : ItemLeft s u c slot p i t q) :
    q = { p with items := q.items, phase := q.phase, staged := { p.staged with ops := p.staged.ops ++ signalOf i },
                 raw := q.raw, badSlots := q.badSlots, slots := q.slots } := by
  rw [h.form]
  rfl

/-- No tile of the piece is left OPEN where none was. -/
theorem closed (h : ItemLeft s u c slot p i t q) (tiles : TilesRead c s u)
    (closed : ((s.cell c).tiles.any fun t => decide (t.piece = p.seq ∧ t.span = .opened)) = false) :
    ((t.cell c).tiles.any fun x => decide (x.piece = q.seq ∧ x.span = .opened)) = false := by
  have seq : q.seq = p.seq := by rw [h.form]; rfl
  rw [h.own, seq]
  exact (tiles.any_tiles fun m => decide (m.1 = p.seq ∧ m.2 = .opened)).trans closed

end ItemLeft
end

/-- A finished descriptor retires: its item leaves or stays armed, and the last one of a grid tile asks for its commit. -/
theorem descriptorRetire_retires (s : State) (c slot : Nat) (reports : List (Nat × Nat)) (p : Piece) (i : Item)
    (hc : c < cellCount) (hp : s.pieceOf c = some p) (running : p.phase = .running)
    (hi : p.items.find? (fun i => i.slot == slot && i.finished) = some i)
    (closed : ((s.cell c).tiles.any fun t => decide (t.piece = p.seq ∧ t.span = .opened)) = false) :
    ∃ t q, exec (.descriptorRetire c slot reports) s = .next t ∧
      t = { takeReports s c reports with cells := t.cells, outbox := t.outbox } ∧ (∀ e, e ≠ c → t.cell e = s.cell e) ∧
      t.cell c = { (takeReports s c reports).cell c with piece := some q } ∧
      q = { p with items := q.items, phase := q.phase, staged := { p.staged with ops := p.staged.ops ++ signalOf i },
                   raw := q.raw, badSlots := q.badSlots, slots := q.slots } ∧ Fetches s p q ∧
      (fld i.word 7 0 = 0x40 ∧ (MoveD.ofWord i.word).persist → q.items.length = p.items.length) ∧
      (fld i.word 7 0 ≠ 0x40 ∨ (MoveD.ofWord i.word).persist = false → q.items = p.items.erase i) ∧
      (q.finished = true → ∀ l, p.lease = some l → q.phase = .sent ∧
        t.outbox = (s.send (.tileCommit c (s.reqGen c) l)).outbox) ∧
      (q.finished = false ∨ p.lease = none → q.phase = .running ∧ t.outbox = s.outbox) := by
  have tiles := takeReports_tilesRead s c reports
  have left := itemLeft_fetchMore (slot := slot) (i := i) tiles (.of_takeReports s c reports)
    ((pieceOf_takeReports s c reports).trans hp)
  rw [exec_descriptorRetire hc, retire_eq hp hi]
  obtain ⟨u, hu, reported⟩ := takeReports_eq s c reports
  rw [hu] at tiles left ⊢
  generalize fetchMore (u.updPiece c (retired slot i)) c = t at left ⊢
  generalize fetched (u.updPiece c (retired slot i)) (retired slot i p) = q at left
  have shut := left.closed tiles closed
  have going : q.phase = .running := left.phase.trans running
  have outbox : t.outbox = s.outbox := by rw [left.frame, reported]
  have stream (h : fld i.word 7 0 = 0x40 ∧ (MoveD.ofWord i.word).persist = true) : q.items.length = p.items.length :=
    (congrArg List.length left.items).trans (length_items_retired p h)
  have other (h : fld i.word 7 0 ≠ 0x40 ∨ (MoveD.ofWord i.word).persist = false) : q.items = p.items.erase i :=
    left.items.trans (items_retired p h)
  by_cases stays : q.finished = false ∨ q.lease = none
  case pos =>
    rw [finishCheck_of_stays left.held shut stays]
    refine ⟨t, q, rfl, by rw [left.frame], left.others, left.own, left.shape, left.fetches, stream, other,
      fun finished l hl => ?_, fun _ => ⟨going, outbox⟩⟩
    rw [finished, left.lease, hl] at stays
    simp at stays
  case neg =>
    obtain ⟨unfinished, leased⟩ := not_or.mp stays
    obtain ⟨l, hl⟩ := Option.ne_none_iff_exists'.mp leased
    rw [finishCheck_of_lease left.held shut going (Bool.of_not_eq_false unfinished) hl]
    have cell (e : Nat) : (t.send (.tileCommit c (t.reqGen c) l)).cell e = t.cell e := by
      rw [State.cell, State.send_cells, State.cell]
    have gen : t.reqGen c = s.reqGen c :=
      State.reqGen_congr (by rw [left.frame, reported]) (by rw [left.own, tiles.own])
    refine ⟨_, { q with phase := .sent }, rfl, ?_, fun e he => ?_, ?_,
      (congrArg (fun r : Piece => { r with phase := .sent }) left.shape :), left.fetches, stream, other,
      fun _ m hm => ⟨rfl, ?_⟩, fun h => absurd (h.imp id left.lease.trans) stays⟩
    · rw [State.send_eq, left.frame]
      rfl
    · rw [State.cell_updPiece_other _ _ _ _ he, cell, left.others e he]
    · rw [State.cell_updPiece_same, cell, left.own]
      rfl
    · obtain rfl : l = m := Option.some.inj (hl.symm.trans (left.lease.trans hm))
      rw [State.updPiece_outbox, gen, State.send_outbox_congr outbox (by rw [left.frame, reported])]

/-- Settles O22: a report, a retirement, and the end of the list, each as its own operation says. -/
theorem descriptorRetires : Obligations.DescriptorRetires := by
  refine ⟨descriptorRetire_retires, fun s c n p hp => ?_, fun s c reports => ?_⟩
  · rw [takeReports_stalls]
    exact ⟨State.eq_of_hide_cellCtr (countStalls_fr rfl s c n rfl), fun k _ => cellGet_countStalls hp n k⟩
  · obtain ⟨u, hu, frame⟩ := takeReports_eq s c reports
    have tiles := takeReports_tilesRead s c reports
    rw [hu] at tiles
    exact ⟨u, hu, frame, tiles.others, tiles.own, tiles.length_tiles⟩

end Sys2Proof.Machine
end

section
/-! Leases (R139): what the operations on a tile counter do to them, and that pieces that end change none. -/
namespace Sys2Proof.Machine

/-! ### Leases of one object -/

/-- The lease a reference names depends on the leases alone. -/
theorem findLease_congr {o o' : SyncObj} (h : o'.leases = o.leases) (l : LeaseRef) : findLease o' l = findLease o l := by
  rw [findLease, findLease, h]

/-- A dropped lease is not found again. -/
theorem findLease_dropLease (o : SyncObj) (l : LeaseRef) : findLease (dropLease o l) l = none := by
  refine List.find?_eq_none.mpr fun x hx => ?_
  obtain ⟨-, kept⟩ := List.mem_filter.mp hx
  exact ne_true_of_eq_false ((Bool.not_eq_true' _).mp kept)

/-- The first lease of an index is the one its own generation names. -/
theorem findLease_of_find?_idx {o : SyncObj} {i idx : Nat} {x : Lease}
    (h : (o.leases.find? fun x => x.idx == idx) = some x) :
    findLease o { obj := i, idx := idx, gen := x.gen } = some x := by
  obtain ⟨found, before, after, leases, others⟩ := List.find?_eq_some_iff_append.mp h
  refine List.find?_eq_some_iff_append.mpr ⟨by simpa using found, before, after, leases, fun y hy => ?_⟩
  have other : y.idx ≠ idx := by simpa using others y hy
  simp [other]

/-! ### Messages that wait -/

theorem State.cell_send (s : State) (m : Msg) (c : Nat) : (s.send m).cell c = s.cell c := by
  rw [State.cell, State.send_cells, State.cell]

theorem State.takeMsg_of_mem {s : State} {m : Msg} (h : m ∈ s.outbox) :
    s.takeMsg m = some { s with outbox := s.outbox.erase m } :=
  if_pos (List.contains_iff_mem.mpr h)

/-! ### Pieces that end -/

/-- From s to t no cell without a piece gets one, and the leases of every sync object stay. -/
structure OnlyEnds (s t : State) : Prop where
  idle : ∀ c, (s.cell c).piece = none → (t.cell c).piece = none
  leases : ∀ i, (t.obj i).leases = (s.obj i).leases

namespace OnlyEnds
variable {s t u : State}

theorem trans (h : OnlyEnds s t) (k : OnlyEnds t u) : OnlyEnds s u where
  idle c := k.idle c ∘ h.idle c
  leases i := (k.leases i).trans (h.leases i)

theorem of_fields (cells : t.cells = s.cells) (sync : t.sync = s.sync) : OnlyEnds s t where
  idle c := by
    rw [State.cell, State.cell, cells]
    exact id
  leases i := by rw [State.obj, State.obj, sync]

theorem refl (s : State) : OnlyEnds s s := of_fields rfl rfl

theorem foldl {β : Type} {f : State → β → State} (k : ∀ s a, OnlyEnds s (f s a)) (l : List β) (s : State) :
    OnlyEnds s (l.foldl f s) := by
  induction l generalizing s with
  | nil => exact refl s
  | cons a l ih => exact (k s a).trans (ih _)

theorem updCell (s : State) (c : Nat) {f : Cell → Cell}
    (h : (s.cell c).piece = none → (f (s.cell c)).piece = none) : OnlyEnds s (s.updCell c f) where
  idle d hd := by
    by_cases e : d = c
    · subst e
      rw [State.cell_updCell_same]
      exact h hd
    · rw [State.cell_updCell_other _ _ _ _ e]
      exact hd
  leases _ := rfl

theorem updPiece (s : State) (c : Nat) (f : Piece → Piece) : OnlyEnds s (s.updPiece c f) :=
  updCell s c fun h => by rw [h, Option.map_none]

theorem setObj (s : State) (i : Nat) {o : SyncObj} (h : o.leases = (s.obj i).leases) : OnlyEnds s (s.setObj i o) where
  idle _ := id
  leases j := by
    by_cases e : j = i
    · rw [e, State.obj_setObj_same, h]
    · rw [State.obj_setObj_other _ _ _ _ e]

theorem updCtx (s : State) (i : Nat) (f : Ctx → Ctx) : OnlyEnds s (s.updCtx i f) := by
  unfold State.updCtx
  split
  · exact of_fields rfl rfl
  · exact refl s

end OnlyEnds

/-- Releasing waiters does not touch the leases. -/
theorem leases_settle (o : SyncObj) (ws kept : List Waiter) (out : List (Waiter × Nat)) :
    (o.settle ws kept out).1.leases = o.leases := by
  induction ws generalizing o kept out with
  | nil => rfl
  | cons w ws ih =>
    unfold SyncObj.settle
    split
    · rw [ih]
      split <;> rfl
    · exact ih ..

/-- R57: an object whose leases are as before is written back, and its waiters are released. -/
theorem settleObj_onlyEnds (s : State) (i : Nat) {o : SyncObj} (h : o.leases = (s.obj i).leases) :
    OnlyEnds s (settleObj s i o) :=
  (OnlyEnds.setObj s i ((leases_settle o o.waiters [] []).trans h)).trans
    (.foldl (fun _ _ => .updPiece ..) _ _)

theorem tellFar_onlyEnds (s : State) (o : SyncObj) (op : SyncOp) (operand : Nat) :
    OnlyEnds s (tellFar s o op operand) := by
  unfold tellFar
  split
  · exact .of_fields (State.send_cells ..) (State.send_sync ..)
  · exact .refl s

/-- R57: a unit goes back by POST(1). -/
theorem returnUnits_onlyEnds (s : State) (units : List Nat) : OnlyEnds s (returnUnits s units) := by
  refine .foldl (f := fun s i => syncChange s i .post 1) (fun s i => ?_) units s
  unfold syncChange
  dsimp only
  split
  · exact .refl s
  · exact (settleObj_onlyEnds s i (o := (s.obj i).apply .post 1) rfl).trans (tellFar_onlyEnds ..)

/-- A change of every listed value that leaves the default as it is. -/
theorem Sp.get_map {α : Type} (d : α) (f : α → α) (h : f d = d) (m : Sparse α) (i : Nat) :
    Sp.get d (m.map fun e => (e.1, f e.2)) i = f (Sp.get d m i) := by
  induction m with
  | nil => exact h.symm
  | cons e m ih =>
    simp only [List.map_cons, Sp.get, ih]
    split <;> rfl

theorem dropWaiters_onlyEnds (s : State) (c : Nat) : OnlyEnds s (dropWaiters s c) where
  idle _ := id
  leases i := (congrArg SyncObj.leases
    (Sp.get_map SyncObj.free (fun o => { o with waiters := o.waiters.filter fun w => w.cell != c }) rfl s.sync i) :)

theorem leaveCell_onlyEnds (s : State) (c : Nat) (p : Piece) : OnlyEnds s (leaveCell s c p) :=
  (dropWaiters_onlyEnds s c).trans (.updCell _ c fun _ => rfl)

/-- A piece that leaves its cell leaves it without one. -/
theorem piece_leaveCell (s : State) (c : Nat) (p : Piece) : ((leaveCell s c p).cell c).piece = none :=
  congrArg Cell.piece (State.cell_updCell_same (dropWaiters s c) c _)

/-- After it has left its cell, a stale piece gives its units back and is counted (R144, R149). -/
theorem leaveCell_stalePiece (s : State) (c : Nat) (p : Piece) : OnlyEnds (leaveCell s c p) (stalePiece s c p) :=
  have settled : OnlyEnds (leaveCell s c p) (sideSettle (leaveCell s c p) c p.seq none) := .of_fields rfl rfl
  (settled.trans (returnUnits_onlyEnds _ p.units)).trans (.of_fields rfl rfl)

theorem stalePiece_onlyEnds (s : State) (c : Nat) (p : Piece) : OnlyEnds s (stalePiece s c p) :=
  (leaveCell_onlyEnds s c p).trans (leaveCell_stalePiece s c p)

/-- R144: a stale piece is off its cell. -/
theorem piece_stalePiece (s : State) (c : Nat) (p : Piece) : ((stalePiece s c p).cell c).piece = none :=
  (leaveCell_stalePiece s c p).idle c (piece_leaveCell s c p)

theorem staleCommits_onlyEnds (s : State) (l : LeaseRef) : OnlyEnds s (staleCommits s l) := by
  unfold staleCommits
  refine OnlyEnds.trans ?_ (.foldl (fun s c => .updCell s c id) _ _)
  exact .of_fields rfl rfl

theorem endHolders_onlyEnds (s : State) (l : LeaseRef) : OnlyEnds s (endHolders s l) := by
  refine ((staleCommits_onlyEnds s l).trans (.foldl (fun s c => ?_) _ _)).trans (.foldl (fun s e => ?_) _ _)
  · dsimp only
    split
    · split
      · exact (OnlyEnds.updCell s c id).trans (stalePiece_onlyEnds ..)
      · exact .updCell s c id
    · exact .updCell s c id
  · dsimp only
    split
    · exact .refl s
    · refine (OnlyEnds.updCtx ..).trans (.foldl (fun s q => ?_) _ _)
      split
      · exact .of_fields rfl rfl
      · exact .refl s

end Sys2Proof.Machine
end

section
/-! The statement of claims and COMMITs (R139 to R141, R145, R150). -/
namespace Sys2Proof.Machine

/-! ### The commands -/

section
variable {s : State} {c i : Nat}

theorem exec_tileClaim (hc : c < cellCount) (hi : i < 131072) : exec (.tileClaim c i) s = .next (tileClaim s c i) :=
  (if_pos hc).trans (if_pos hi)

theorem exec_tileCommit (hc : c < cellCount) : exec (.tileCommit c) s = .next (tileCommit s c) := if_pos hc

theorem exec_tileCommitReply (hc : c < cellCount) : exec (.tileCommitReply c) s = .next (tileCommitReply s c) := if_pos hc

end

/-! ### The claim -/

/-- R140, R150: a cell that may take the grid at the head of its context's queue claims the tile the counter gives it. -/
theorem tileClaim_of_tile {s : State} {c i ctx cmd d idx g : Nat} {k : Ctx} {o : SyncObj} (may : MayPlace s c ctx k)
    (free : (s.cell c).claim = none) (head : headFor (s.cell c) k = some (.grid cmd d i))
    (start : mayStart s s.offset (pdBudget d) = true) (first : firstFree s ctx k c (.grid cmd d i) = true)
    (tile : claimTile s i c = (o, .tile idx g)) :
    tileClaim s c i = (s.setObj i o).updCell c fun e =>
      { e with claim := some { cmd := cmd, desc := d, lease := { obj := i, idx := idx, gen := g } } } := by
  obtain ⟨-, -, take, given, ctxs, resident⟩ := may
  simp [tileClaim, take, free, given, ctxs, head, resident, start, first, tile]

/-! ### The COMMIT -/

theorem mem_outbox_of_commitOf {s : State} {c : Nat} {g : ReqGen} {l : LeaseRef} (h : commitOf s c = some (g, l)) :
    .tileCommit c g l ∈ s.outbox := by
  obtain ⟨m, hm, e⟩ := List.exists_of_findSome?_eq_some h
  split at e
  · split at e
    · cases e
      subst c
      exact hm
    · cases e
  · cases e

/-- R141, R549: does the home node accept a COMMIT of cell c that carries the generations g? -/
def commitOk (s : State) (c : Nat) (g : ReqGen) (l : LeaseRef) : Bool :=
  s.reqServed c g (some (homeNode l.obj)) && (findLease (s.obj l.obj) l).any fun x => !x.final

/-- The state once the home node has judged a COMMIT and the cell has not heard of it. -/
def judged (s : State) (c : Nat) (g : ReqGen) (l : LeaseRef) : State :=
  let u := { s with outbox := s.outbox.erase (.tileCommit c g l) }
  if commitOk s c g l then u.setObj l.obj (updLease (s.obj l.obj) l fun x => { x with final := true }) else u

section
variable {s : State} {c : Nat} {g : ReqGen} {l : LeaseRef}

theorem judged_eq : judged s c g l =
    { s with sync := (judged s c g l).sync, outbox := s.outbox.erase (.tileCommit c g l) } := by
  unfold judged
  split <;> rfl

theorem cell_judged (e : Nat) : (judged s c g l).cell e = s.cell e := by
  rw [judged_eq]
  rfl

theorem pieceOf_judged : (judged s c g l).pieceOf c = s.pieceOf c := by
  rw [judged_eq]
  rfl

theorem obj_judged_same : (judged s c g l).obj l.obj =
    if commitOk s c g l then updLease (s.obj l.obj) l fun x => { x with final := true } else s.obj l.obj := by
  unfold judged
  split
  · exact State.obj_setObj_same ..
  · rfl

theorem obj_judged_other {j : Nat} (h : j ≠ l.obj) : (judged s c g l).obj j = s.obj j := by
  unfold judged
  split
  · exact State.obj_setObj_other _ _ _ _ h
  · rfl

/-- The answer of the home node goes to the piece that waits for it, or else to the cell that has aborted it. -/
def answerCommit (s : State) (c : Nat) (l : LeaseRef) (ok : Bool) : State :=
  match s.pieceOf c with
  | some p =>
    if p.lease = some l ∧ p.phase = .sent then s.updPiece c fun p => { p with phase := .answered ok }
    else updRecall s c (fun r => r == (l, .sent)) fun r => (r.1, .answered ok)
  | none => updRecall s c (fun r => r == (l, .sent)) fun r => (r.1, .answered ok)

/-- A COMMIT at its home node is judged, and answered. -/
theorem tileCommit_eq (h : commitOf s c = some (g, l)) :
    tileCommit s c = answerCommit (judged s c g l) c l (commitOk s c g l) := by
  unfold tileCommit
  rw [h]
  dsimp only
  rw [State.takeMsg_of_mem (mem_outbox_of_commitOf h)]
  rfl

end

theorem answerCommit_of_waits {s : State} {c : Nat} {l : LeaseRef} {p : Piece} (hp : s.pieceOf c = some p)
    (lease : p.lease = some l) (sent : p.phase = .sent) (ok : Bool) :
    answerCommit s c l ok = s.updPiece c fun p => { p with phase := .answered ok } := by
  simp [answerCommit, hp, lease, sent]

theorem answerCommit_of_aborted {s : State} {c : Nat} {l : LeaseRef}
    (aborted : ∀ p, s.pieceOf c = some p → p.lease ≠ some l ∨ p.phase ≠ .sent) (ok : Bool) :
    answerCommit s c l ok = updRecall s c (fun r => r == (l, .sent)) fun r => (r.1, .answered ok) := by
  unfold answerCommit
  split
  case h_1 p hp =>
    rw [if_neg]
    rintro ⟨lease, sent⟩
    exact (aborted p hp).elim (· lease) (· sent)
  case h_2 => rfl

/-! ### The answer -/

/-- The state once a cell has taken the answer to a COMMIT that it has aborted. -/
def recallTaken (s : State) (c : Nat) (l : LeaseRef) (ok : Bool) : State :=
  s.updCell c fun e => { e with recalls := e.recalls.erase (l, .answered ok) }

theorem recallReply_of_accepted {s : State} {c : Nat} {l : LeaseRef}
    (h : (s.cell c).recalls.find? (fun r => r.2 != .sent) = some (l, .answered true)) :
    recallReply s c = (recallTaken s c l true).send (.tileRevert l) := by
  simp [recallReply, recallTaken, h]

theorem recallReply_of_refused {s : State} {c : Nat} {l : LeaseRef}
    (h : (s.cell c).recalls.find? (fun r => r.2 != .sent) = some (l, .answered false)) :
    recallReply s c = recallTaken s c l false := by
  simp [recallReply, recallTaken, h]

theorem tileCommitReply_of_no_answer {s : State} {c : Nat}
    (h : ∀ p b, s.pieceOf c = some p → p.phase ≠ .answered b) : tileCommitReply s c = recallReply s c := by
  unfold tileCommitReply
  split
  case h_1 => rfl
  case h_2 p hp =>
    split
    case h_1 e => exact absurd e (h p _ hp)
    case h_2 e => exact absurd e (h p _ hp)
    case h_3 => rfl

theorem tileCommitReply_of_accepted {s : State} {c : Nat} {p : Piece} (hp : s.pieceOf c = some p)
    (answer : p.phase = .answered true) :
    tileCommitReply s c = s.updPiece c fun p => { p with phase := .accepted } := by
  simp [tileCommitReply, hp, answer]

theorem tileCommitReply_of_refused {s : State} {c : Nat} {p : Piece} (hp : s.pieceOf c = some p)
    (answer : p.phase = .answered false) : tileCommitReply s c = stalePiece s c p := by
  simp [tileCommitReply, hp, answer]

/-! ### The statement -/

theorem tileClaim_claims (s : State) (c i ctx cmd d idx g : Nat) (k : Ctx) (o : SyncObj) (may : MayPlace s c ctx k)
    (hi : i < 131072) (free : (s.cell c).claim = none) (head : headFor (s.cell c) k = some (.grid cmd d i))
    (start : mayStart s s.offset (pdBudget d) = true) (first : firstFree s ctx k c (.grid cmd d i) = true)
    (tile : claimTile s i c = (o, .tile idx g)) :
    ∃ t, exec (.tileClaim c i) s = .next t ∧ t = { s with cells := t.cells, sync := t.sync } ∧ t.obj i = o ∧
      (∀ j, j ≠ i → t.obj j = s.obj j) ∧ (∀ e, e ≠ c → t.cell e = s.cell e) ∧
      t.cell c = { s.cell c with claim := some { cmd := cmd, desc := d, lease := { obj := i, idx := idx, gen := g } } } := by
  have ⟨_, hc, _⟩ := may
  rw [exec_tileClaim hc hi, tileClaim_of_tile may free head start first tile]
  exact ⟨_, rfl, rfl, State.obj_setObj_same s i o, fun j => State.obj_setObj_other s i j o,
    fun e => State.cell_updCell_other (s.setObj i o) c e _, State.cell_updCell_same (s.setObj i o) c _⟩

theorem tileCommit_answers_piece (s : State) (c : Nat) (p : Piece) (g : ReqGen) (l : LeaseRef) (hc : c < cellCount)
    (hp : s.pieceOf c = some p) (lease : p.lease = some l) (out : commitOf s c = some (g, l)) (sent : p.phase = .sent) :
    ∃ t, exec (.tileCommit c) s = .next t ∧
      t = { s with cells := t.cells, sync := t.sync, outbox := s.outbox.erase (.tileCommit c g l) } ∧
      t.cell c = { s.cell c with piece := some { p with phase := .answered (commitOk s c g l) } } ∧
      (∀ e, e ≠ c → t.cell e = s.cell e) ∧
      t.obj l.obj = (if commitOk s c g l then updLease (s.obj l.obj) l fun x => { x with final := true } else s.obj l.obj) ∧
      ∀ j, j ≠ l.obj → t.obj j = s.obj j := by
  rw [exec_tileCommit hc, tileCommit_eq out, answerCommit_of_waits (pieceOf_judged.trans hp) lease sent]
  refine ⟨_, rfl, ?_, ?_, fun e he => ?_, obj_judged_same, fun j => obj_judged_other⟩
  · rw [judged_eq]
    rfl
  · rw [State.cell_updPiece_same, cell_judged, State.piece_of_pieceOf hp]
    rfl
  · rw [State.cell_updPiece_other _ _ _ _ he, cell_judged]

theorem tileCommit_answers_recall (s : State) (c : Nat) (g : ReqGen) (l : LeaseRef) (hc : c < cellCount)
    (out : commitOf s c = some (g, l)) (aborted : ∀ p, s.pieceOf c = some p → p.lease ≠ some l ∨ p.phase ≠ .sent) :
    ∃ t, exec (.tileCommit c) s = .next t ∧
      t = { s with cells := t.cells, sync := t.sync, outbox := s.outbox.erase (.tileCommit c g l) } ∧
      t.cell c = { s.cell c with
        recalls := updFirst (fun r => r == (l, .sent)) (fun r => (r.1, .answered (commitOk s c g l))) (s.cell c).recalls } ∧
      t.obj l.obj = (if commitOk s c g l then updLease (s.obj l.obj) l fun x => { x with final := true } else s.obj l.obj) ∧
      ∀ e, e ≠ c → t.cell e = s.cell e := by
  rw [exec_tileCommit hc, tileCommit_eq out, answerCommit_of_aborted fun p hp => aborted p (pieceOf_judged.symm.trans hp)]
  refine ⟨_, rfl, ?_, ?_, obj_judged_same, fun e he => ?_⟩
  · rw [judged_eq]
    rfl
  · rw [updRecall, State.cell_updCell_same, cell_judged]
  · rw [updRecall, State.cell_updCell_other _ _ _ _ he, cell_judged]

theorem tileCommitReply_recalls (s : State) (c : Nat) (l : LeaseRef) (ok : Bool) (hc : c < cellCount)
    (unanswered : ∀ p b, s.pieceOf c = some p → p.phase ≠ .answered b)
    (answered : (s.cell c).recalls.find? (fun r => r.2 != .sent) = some (l, .answered ok)) :
    ∃ t, exec (.tileCommitReply c) s = .next t ∧ t = { s with cells := t.cells, outbox := t.outbox } ∧
      t.outbox = (if ok then (s.send (.tileRevert l)).outbox else s.outbox) ∧
      t.cell c = { s.cell c with recalls := (s.cell c).recalls.erase (l, .answered ok) } ∧
      ∀ e, e ≠ c → t.cell e = s.cell e := by
  rw [exec_tileCommitReply hc, tileCommitReply_of_no_answer unanswered]
  have own : (recallTaken s c l ok).cell c = _ := State.cell_updCell_same s c _
  have others (e : Nat) (he : e ≠ c) : (recallTaken s c l ok).cell e = s.cell e := State.cell_updCell_other s c e _ he
  cases ok with
  | false =>
    rw [recallReply_of_refused answered]
    exact ⟨_, rfl, rfl, rfl, own, others⟩
  | true =>
    rw [recallReply_of_accepted answered]
    refine ⟨_, rfl, ?_, State.send_outbox_congr rfl rfl _, (State.cell_send ..).trans own,
      fun e he => (State.cell_send ..).trans (others e he)⟩
    rw [State.send_eq]
    rfl

theorem tileCommitReply_ends_piece (s : State) (c : Nat) (p : Piece) (hc : c < cellCount) (hp : s.pieceOf c = some p) :
    (p.phase = .answered true → ∃ t, exec (.tileCommitReply c) s = .next t ∧ t = { s with cells := t.cells } ∧
      t.cell c = { s.cell c with piece := some { p with phase := .accepted } } ∧ ∀ e, e ≠ c → t.cell e = s.cell e) ∧
    (p.phase = .answered false → ∃ t, exec (.tileCommitReply c) s = .next t ∧ (t.cell c).piece = none ∧ t.mem = s.mem ∧
      t.welt = s.welt ∧ t.cellFlags = s.cellFlags) := by
  rw [exec_tileCommitReply hc]
  refine ⟨fun accepted => ?_, fun refused => ?_⟩
  · rw [tileCommitReply_of_accepted hp accepted]
    refine ⟨_, rfl, rfl, ?_, fun e => State.cell_updPiece_other s c e _⟩
    rw [State.cell_updPiece_same, State.piece_of_pieceOf hp]
    rfl
  · rw [tileCommitReply_of_refused hp refused]
    have frame := stalePiece_fr (M := 0x40000080260240) rfl s c p rfl
    exact ⟨_, rfl, piece_stalePiece s c p, (congrArg State.mem frame :), (congrArg State.welt frame :),
      (congrArg State.cellFlags frame :)⟩

/-- Settles O24: the claim, the COMMIT of a piece that waits and of one that was aborted, and the two places its answer goes. -/
theorem tilesAreClaimedAndCommitted : Obligations.TilesAreClaimedAndCommitted :=
  ⟨tileClaim_claims, tileCommit_answers_piece, tileCommit_answers_recall, tileCommitReply_recalls,
    tileCommitReply_ends_piece⟩

end Sys2Proof.Machine
end

section
/-! The statement of the ends of a lease (R139, R142 to R145). -/
namespace Sys2Proof.Machine

/-! ### The commands -/

section
variable {s : State} {i : Nat}

theorem exec_tileDone (h : i < 131072) (idx g : Nat) :
    exec (.tileDone i idx g) s = .next (tileDone s { obj := i, idx := idx, gen := g }) := if_pos h

theorem exec_tileRevert (h : i < 131072) (idx g : Nat) :
    exec (.tileRevert i idx g) s = .next (tileRevert s { obj := i, idx := idx, gen := g }) := if_pos h

theorem exec_tileRelease (h : i < 131072) (idx g : Nat) :
    exec (.tileRelease i idx g) s = .next (releaseLease s { obj := i, idx := idx, gen := g }) := if_pos h

theorem exec_leaseTimeout (h : i < 131072) (idx : Nat) : exec (.leaseTimeout i idx) s = .next (leaseTimeout s i idx) :=
  if_pos h

end

/-! ### DONE and REVERT -/

/-- R148: looking at the grids of a tile counter changes no sync object and sends nothing. -/
theorem gridsCheck_sync (s : State) (i : Nat) (f : Cmd → Cmd) : (gridsCheck s i f).sync = s.sync :=
  (congrArg State.sync (gridsCheck_fr (M := 0x4010380270) rfl s i f rfl) :)

theorem gridsCheck_outbox (s : State) (i : Nat) (f : Cmd → Cmd) : (gridsCheck s i f).outbox = s.outbox :=
  (congrArg State.outbox (gridsCheck_fr (M := 0x4010380270) rfl s i f rfl) :)

theorem obj_gridsCheck (s : State) (i j : Nat) (f : Cmd → Cmd) : (gridsCheck s i f).obj j = s.obj j := by
  rw [State.obj, gridsCheck_sync, State.obj]

theorem tileDone_of_mem {s : State} {l : LeaseRef} (h : .tileDone l ∈ s.outbox) :
    tileDone s l = gridsCheck
      (({ s with outbox := s.outbox.erase (.tileDone l) } : State).setObj l.obj
        { dropLease (s.obj l.obj) l with doneCount := (s.obj l.obj).doneCount + 1 }) l.obj id := by
  rw [tileDone, State.takeMsg_of_mem h]
  rfl

theorem tileRevert_of_mem {s : State} {l : LeaseRef} (h : .tileRevert l ∈ s.outbox) :
    tileRevert s l = ({ s with outbox := s.outbox.erase (.tileRevert l) } : State).setObj l.obj
      (updLease (s.obj l.obj) l fun x => { x with final := false }) := by
  rw [tileRevert, State.takeMsg_of_mem h]
  rfl

/-! ### RELEASE -/

/-- The state once a released lease is dropped, its holders have ended, and the release is counted (R144, R149). -/
def leaseDropped (s : State) (l : LeaseRef) : State :=
  (endHolders (s.setObj l.obj (dropLease (s.obj l.obj) l)) l).odAdd 0x8030 0 1

/-- R144: the object o once the index of its released lease x is issued again, or held back while stores of its runs are
out. -/
def indexBack (s : State) (o : SyncObj) (l : LeaseRef) (x : Lease) : SyncObj :=
  if x.runs.any (storesOut s) then { o with held := o.held ++ [{ idx := l.idx, gen := l.gen + 1, runs := x.runs }] }
  else { o with reissue := o.reissue ++ [(l.idx, l.gen + 1)] }

section
variable {s : State} {l : LeaseRef} {x : Lease}

theorem releaseLease_of_next (h : findLease (s.obj l.obj) l = some x) (current : x.final = false) (next : l.gen ≠ 0xFFFF) :
    releaseLease s l =
      (leaseDropped s l).setObj l.obj (indexBack (leaseDropped s l) ((leaseDropped s l).obj l.obj) l x) := by
  simp only [releaseLease, h, current, next, Bool.false_eq_true, if_false]
  exact (apply_ite ((leaseDropped s l).setObj l.obj) _ _ _).symm

/-- R144: the last generation has no next one, and the tile fails. -/
theorem releaseLease_of_last (h : findLease (s.obj l.obj) l = some x) (current : x.final = false) (last : l.gen = 0xFFFF) :
    releaseLease s l =
      gridsCheck ((leaseDropped s l).setObj l.obj
        { (leaseDropped s l).obj l.obj with
          failed := ((leaseDropped s l).obj l.obj).failed + 1, doneCount := ((leaseDropped s l).obj l.obj).doneCount + 1 })
        l.obj fun k => { k with worst := max k.worst St.poisoned } := by
  simp only [releaseLease, h, current, last, Bool.false_eq_true, if_false, if_true]
  rfl

/-- The ends of the holders change no lease. -/
theorem leases_leaseDropped : ((leaseDropped s l).obj l.obj).leases = (dropLease (s.obj l.obj) l).leases := by
  refine ((endHolders_onlyEnds _ l).leases l.obj).trans ?_
  rw [State.obj_setObj_same]

/-- A released lease is not found again. -/
theorem findLease_releaseLease (h : findLease (s.obj l.obj) l = some x) (current : x.final = false) :
    findLease ((releaseLease s l).obj l.obj) l = none := by
  have gone : findLease ((leaseDropped s l).obj l.obj) l = none :=
    (findLease_congr leases_leaseDropped l).trans (findLease_dropLease _ l)
  by_cases last : l.gen = 0xFFFF
  case pos =>
    rw [releaseLease_of_last h current last, obj_gridsCheck, State.obj_setObj_same]
    exact gone
  case neg =>
    rw [releaseLease_of_next h current last, State.obj_setObj_same]
    unfold indexBack
    split <;> exact gone

/-- R144: but for the last generation, which can end a grid with a record, no byte of memory changes. -/
theorem mem_releaseLease (h : findLease (s.obj l.obj) l = some x) (current : x.final = false) (next : l.gen ≠ 0xFFFF) :
    (releaseLease s l).mem = s.mem := by
  rw [releaseLease_of_next h current next]
  exact (congrArg State.mem
    (endHolders_fr (M := 0x400000802e0240) rfl (s.setObj l.obj (dropLease (s.obj l.obj) l)) l rfl) :)

end

/-! ### A lease that nobody holds -/

theorem foldl_eq_self {α β : Type} {f : α → β → α} {a : α} {l : List β} (h : ∀ b ∈ l, f a b = a) :
    l.foldl f a = a := by
  induction l with
  | nil => rfl
  | cons b l ih =>
    rw [List.foldl_cons, h b List.mem_cons_self]
    exact ih fun b hb => h b (List.mem_cons_of_mem _ hb)

section
variable {s : State} {l : LeaseRef}

theorem staleCommits_eq_self (outbox : ∀ c q, .tileCommit c q l ∉ s.outbox)
    (recalls : ∀ e ∈ s.cells, ∀ r ∈ e.2.recalls, r.1 ≠ l) : staleCommits s l = s := by
  have unrecalled : (s.cells.filter fun e => e.2.recalls.any fun r => r.1 == l) = [] :=
    List.filter_eq_nil_iff.mpr fun e he => by
      simpa using fun phase hr => recalls e he (l, phase) hr rfl
  simp only [staleCommits, unrecalled, List.map_nil, List.foldl_nil]
  refine congrArg (fun o => { s with outbox := o }) (List.filter_eq_self.mpr fun m hm => ?_)
  split
  case h_1 c g k =>
    have other : k ≠ l := fun e => outbox c g (e ▸ hm)
    simpa using other
  case h_2 => rfl

/-- No holder, COMMIT, recall or place in a queue: then there is nothing to end. -/
theorem endHolders_eq_self (holders : holdersOf s l = []) (outbox : ∀ c q, .tileCommit c q l ∉ s.outbox)
    (recalls : ∀ e ∈ s.cells, ∀ r ∈ e.2.recalls, r.1 ≠ l)
    (queues : ∀ e ∈ s.ctxs, ∀ cmd no d again, .piece cmd no d (some l) again ∉ e.2.queue) : endHolders s l = s := by
  simp only [endHolders, staleCommits_eq_self outbox recalls, holders, List.foldl_nil]
  refine foldl_eq_self fun e he => if_pos ?_
  refine List.filter_eq_nil_iff.mpr fun q hq => ?_
  split
  case h_1 cmd no d m again =>
    rw [beq_iff_eq]
    rintro rfl
    exact queues e he cmd no d again hq
  case h_2 => exact Bool.false_ne_true

/-- R144: the release of a lease that nobody holds: it is dropped and counted, and its index goes back. -/
theorem releaseLease_of_unheld {x : Lease} (h : findLease (s.obj l.obj) l = some x) (current : x.final = false)
    (next : l.gen ≠ 0xFFFF) (holders : holdersOf s l = []) (outbox : ∀ c q, .tileCommit c q l ∉ s.outbox)
    (recalls : ∀ e ∈ s.cells, ∀ r ∈ e.2.recalls, r.1 ≠ l)
    (queues : ∀ e ∈ s.ctxs, ∀ cmd no d again, .piece cmd no d (some l) again ∉ e.2.queue) :
    releaseLease s l = ((s.setObj l.obj (dropLease (s.obj l.obj) l)).odAdd 0x8030 0 1).setObj l.obj
      (indexBack s (dropLease (s.obj l.obj) l) l x) := by
  have dropped : leaseDropped s l = (s.setObj l.obj (dropLease (s.obj l.obj) l)).odAdd 0x8030 0 1 :=
    congrArg (State.odAdd · 0x8030 0 1)
      (endHolders_eq_self (s := s.setObj l.obj (dropLease (s.obj l.obj) l)) holders outbox recalls queues)
  have own : (leaseDropped s l).obj l.obj = dropLease (s.obj l.obj) l := by
    rw [dropped]
    exact State.obj_setObj_same s l.obj _
  rw [releaseLease_of_next h current next, own, dropped]
  rfl

end

/-! ### The statement -/

theorem tileDone_counts (s : State) (i idx g : Nat) (hi : i < 131072)
    (out : Msg.tileDone { obj := i, idx := idx, gen := g } ∈ s.outbox) :
    ∃ t, exec (.tileDone i idx g) s = .next t ∧ findLease (t.obj i) { obj := i, idx := idx, gen := g } = none ∧
      (t.obj i).doneCount = (s.obj i).doneCount + 1 ∧ (∀ j, j ≠ i → t.obj j = s.obj j) ∧
      t.outbox = s.outbox.erase (.tileDone { obj := i, idx := idx, gen := g }) := by
  rw [exec_tileDone hi, tileDone_of_mem out]
  refine ⟨_, rfl, ?_, ?_, fun j hj => ?_, gridsCheck_outbox ..⟩
  · rw [obj_gridsCheck, State.obj_setObj_same]
    exact findLease_dropLease (s.obj i) _
  · rw [obj_gridsCheck, State.obj_setObj_same]
  · rw [obj_gridsCheck, State.obj_setObj_other _ _ _ _ hj]
    rfl

theorem tileRevert_reverts (s : State) (i idx g : Nat) (hi : i < 131072)
    (out : Msg.tileRevert { obj := i, idx := idx, gen := g } ∈ s.outbox) :
    ∃ t, exec (.tileRevert i idx g) s = .next t ∧
      t = { s with sync := t.sync, outbox := s.outbox.erase (.tileRevert { obj := i, idx := idx, gen := g }) } ∧
      t.obj i = updLease (s.obj i) { obj := i, idx := idx, gen := g } (fun x => { x with final := false }) ∧
      ∀ j, j ≠ i → t.obj j = s.obj j := by
  rw [exec_tileRevert hi, tileRevert_of_mem out]
  exact ⟨_, rfl, rfl, State.obj_setObj_same .., fun j => State.obj_setObj_other _ _ j _⟩

theorem tileRelease_reissues (s : State) (i idx g : Nat) (x : Lease) (hi : i < 131072)
    (found : findLease (s.obj i) { obj := i, idx := idx, gen := g } = some x) (current : x.final = false) (next : g ≠ 0xFFFF)
    (holders : holdersOf s { obj := i, idx := idx, gen := g } = [])
    (outbox : ∀ c, ∀ q, Msg.tileCommit c q { obj := i, idx := idx, gen := g } ∉ s.outbox)
    (recalls : ∀ e ∈ s.cells, ∀ r ∈ e.2.recalls, r.1 ≠ { obj := i, idx := idx, gen := g })
    (queues : ∀ e ∈ s.ctxs, ∀ cmd no d again, .piece cmd no d (some { obj := i, idx := idx, gen := g }) again ∉ e.2.queue) :
    ∃ t, exec (.tileRelease i idx g) s = .next t ∧ t = { s with sync := t.sync, od := (s.odAdd 0x8030 0 1).od } ∧
      t.obj i = indexBack s (dropLease (s.obj i) { obj := i, idx := idx, gen := g }) { obj := i, idx := idx, gen := g } x ∧
      ∀ j, j ≠ i → t.obj j = s.obj j := by
  rw [exec_tileRelease hi, releaseLease_of_unheld found current next holders outbox recalls queues]
  exact ⟨_, rfl, rfl, State.obj_setObj_same ..,
    fun j hj => (State.obj_setObj_other _ _ _ _ hj).trans (State.obj_setObj_other s i j _ hj)⟩

theorem tileRelease_releases (s : State) (i idx g : Nat) (x : Lease) (hi : i < 131072)
    (found : findLease (s.obj i) { obj := i, idx := idx, gen := g } = some x) (current : x.final = false) :
    ∃ t, exec (.tileRelease i idx g) s = .next t ∧ findLease (t.obj i) { obj := i, idx := idx, gen := g } = none ∧
      (g ≠ 0xFFFF → t.mem = s.mem) ∧ t.welt = s.welt ∧ t.cellFlags = s.cellFlags := by
  have frame := releaseLease_fr (M := 0x400040903e0270) rfl s { obj := i, idx := idx, gen := g } rfl
  exact ⟨_, exec_tileRelease hi idx g, findLease_releaseLease found current, mem_releaseLease found current,
    (congrArg State.welt frame :), (congrArg State.cellFlags frame :)⟩

theorem leaseTimeout_releases (s : State) (i idx : Nat) (x : Lease) (hi : i < 131072)
    (first : (s.obj i).leases.find? (fun x => x.idx == idx) = some x) (old : s.odGet 0x5008 0 < x.age)
    (current : x.final = false) :
    ∃ t, exec (.leaseTimeout i idx) s = .next t ∧ exec (.tileRelease i idx x.gen) s = .next t ∧
      findLease (t.obj i) { obj := i, idx := idx, gen := x.gen } = none := by
  have released : leaseTimeout s i idx = releaseLease s { obj := i, idx := idx, gen := x.gen } := by
    simp [leaseTimeout, first, old]
  refine ⟨_, ?_, exec_tileRelease hi idx x.gen, findLease_releaseLease (findLease_of_find?_idx first) current⟩
  rw [exec_leaseTimeout hi, released]

/-- Settles O25: DONE, REVERT, RELEASE of a lease that nobody holds, RELEASE at large, and the release of an old lease. -/
theorem leasesEndAndReturn : Obligations.LeasesEndAndReturn :=
  ⟨tileDone_counts, tileRevert_reverts, tileRelease_reissues, tileRelease_releases, leaseTimeout_releases⟩

end Sys2Proof.Machine
end

section
/-! Rows of the units (R168, R170, R190) under an armed snapshot: the copies before a store load stack memory (R270), and a
load can evict a line. -/
namespace Sys2Proof.Machine

/-- A descriptor's word from the lowest bits and the values of its fields. -/
def ofFields (fs : List (Nat × Nat)) : Nat := fs.foldl (fun w f => w + f.2 <<< f.1) 0

/-- A handed-out descriptor in its unit's queue. -/
def queuedItem (word : Nat) : Item :=
  { slot := 0, word := word, rearm := false, stage := .queued, issued := 0, landed := 0, reply := none }

/-- A running piece of context 1 with that one descriptor handed out. -/
def pieceOfOne (word : Nat) : Piece :=
  { seq := 1, cmd := 1, no := 0, desc := ofFields [(8, 1)], lease := none, raw := [], slots := [], badSlots := [],
    gridDone := false, next := 2, items := [queuedItem word], lastQueue := 15, limits := List.replicate 16 16,
    staged := Staged.empty, pairs := 0, units := [], runOn := 0, phase := .running, targetReset := false,
    readPoison := false, upd := none }

/-- An armed snapshot of two runs, the byte at address 0 and the first 8 bytes of the scratchpad of cell 0. -/
def snapOfByteAndScratch : Snap := { snapOfByteAndPair with runs := [(0, 1, 0), (spOf 0, 8, 1)] }

/-- A module with that snapshot armed, and with that piece on cell 0. -/
def underSnapshot (s : State) (word : Nat) : State :=
  { s with snaps := [snapOfByteAndScratch], cells := [(0, { Cell.init with piece := some (pieceOfOne word) })] }

/-! ### Three descriptors that pass the checks at their hand-out, each storing in the first 8 bytes of the scratchpad -/

/-- COPY of one FP32 element. -/
def copyWord : Nat := ofFields [(0, 0x20), (384, 1), (416, 1), (576, spOf 0 + 64), (768, spOf 0)]

/-- MAX over one row of one FP32 element. -/
def maxWord : Nat := ofFields [(0, 0x21), (32, 3), (384, 1), (416, 1), (576, spOf 0 + 64), (768, spOf 0)]

/-- STAT_SAVE of the first record of the side memory, which matches no descriptor. -/
def saveWord : Nat := ofFields [(0, 0x34), (128, 1), (832, spOf 0)]

theorem copyWord_runs :
    UnitRuns (underSnapshot cachesSectorEight copyWord) 0 .vector (pieceOfOne copyWord) (queuedItem copyWord) ∧
      fld copyWord 7 0 = 0x20 ∧ fld copyWord 39 32 = 0 ∧
      checkDesc (underSnapshot cachesSectorEight copyWord) 0 (pieceOfOne copyWord) copyWord = none := by
  decide +kernel

theorem maxWord_runs :
    UnitRuns (underSnapshot cachesSectorEight maxWord) 0 .vector (pieceOfOne maxWord) (queuedItem maxWord) ∧
      fld maxWord 7 0 = 0x21 ∧ fld maxWord 39 32 = 3 ∧
      checkDesc (underSnapshot cachesSectorEight maxWord) 0 (pieceOfOne maxWord) maxWord = none := by
  decide +kernel

theorem saveWord_runs :
    UnitRuns (underSnapshot cachesSectorEight saveWord) 0 .skiver (pieceOfOne saveWord) (queuedItem saveWord) ∧
      fld saveWord 7 0 = 0x34 ∧ (fmtOf (SkD.ofWord saveWord).fmtOut).isMx = false ∧
      checkDesc (underSnapshot cachesSectorEight saveWord) 0 (pieceOfOne saveWord) saveWord = none := by
  decide +kernel

/-! ### The byte that the eviction changes -/

/-- Before the descriptor runs, the byte of `sectorEightAddr` reads zero. -/
theorem byte_underSnapshot_cachesSectorEight (word : Nat) :
    (underSnapshot cachesSectorEight word).byte sectorEightAddr = 0 :=
  rfl

/-- No staging holds it. -/
theorem not_stagedAt_underSnapshot (s : State) (word : Nat) : ¬ stagedAt (underSnapshot s word) sectorEightAddr := by
  simp only [stagedAt, underSnapshot]
  decide +kernel

theorem cachesSectorEight_lines : ∀ e ∈ cachesSectorEight.cache, ∀ l ∈ e.2, l.line ≠ sectorEightAddr / 256 := by
  decide +kernel

/-- A descriptor that does not store there, and after which the byte reads 1, has not left the other bytes as they were. -/
theorem not_sameBytes_underSnapshot {word : Nat} {t : State} (away : ¬ covered (itemWrites word) sectorEightAddr)
    (one : t.byte sectorEightAddr = 1) (clean : t.poisonAt sectorEightAddr = false) :
    ¬ SameBytes (underSnapshot cachesSectorEight word) t (itemWrites word) := by
  refine not_sameBytes_of_byte_ne away (not_stagedAt_underSnapshot _ word) cachesSectorEight_lines clean ?_
  rw [one, byte_underSnapshot_cachesSectorEight]
  decide

theorem copyWord_changes :
    let t := finishItem (runMap (underSnapshot cachesSectorEight copyWord) (VecD.ofWord copyWord)) 0 0
    ¬ covered (itemWrites copyWord) sectorEightAddr ∧ t.byte sectorEightAddr = 1 ∧
      t.poisonAt sectorEightAddr = false := by
  decide +kernel

theorem maxWord_changes :
    let t := finishItem (runReduction (underSnapshot cachesSectorEight maxWord) (VecD.ofWord maxWord)) 0 0
    ¬ covered (itemWrites maxWord) sectorEightAddr ∧ t.byte sectorEightAddr = 1 ∧
      t.poisonAt sectorEightAddr = false := by
  decide +kernel

theorem saveWord_changes :
    let t := finishItem
      (statSave (underSnapshot cachesSectorEight saveWord) 0 (pieceOfOne saveWord) (SkD.ofWord saveWord)) 0 0
    ¬ covered (itemWrites saveWord) sectorEightAddr ∧ t.byte sectorEightAddr = 1 ∧
      t.poisonAt sectorEightAddr = false := by
  decide +kernel

/-! ### The sector that the eviction poisons -/

/-- A clean line of the cache set of address 0, the last line before the scratchpads, with a poisoned word of the channel
listed for sector 8: that is the first sector of the scratchpad of cell 0. -/
def lineBeforeScratch : CacheLine :=
  { line := spBase / 256 - 1, valid := 255, dirty := 0
    under := [{ sector := 8, data := List.replicate 32 0, poison := true }] }

/-- The module of `cachesSectorEight`, with that line in place of the other. -/
def cachesPoisonedWord : State := { cachesSectorEight with cache := [(0, [lineBeforeScratch])] }

theorem copyWord_runs_cachesPoisonedWord :
    UnitRuns (underSnapshot cachesPoisonedWord copyWord) 0 .vector (pieceOfOne copyWord) (queuedItem copyWord) := by
  decide +kernel

theorem copyWord_stores_fp32 :
    let d := VecD.ofWord copyWord
    d.rows = 1 ∧ d.cols = 1 ∧ fmtOf d.fmtD = .fp32 ∧ d.dAddr = spOf 0 ∧ inOwnSp 0 d.dAddr 4 = true := by
  decide +kernel

/-- Neither the destination nor the source is poisoned before; no staging and no line in the cache holds the destination. -/
theorem cachesPoisonedWord_before :
    let s := underSnapshot cachesPoisonedWord copyWord
    s.poisonAt (spOf 0) = false ∧ (mapEl s (VecD.ofWord copyWord) 0 0).2.2 = false ∧
      ¬ sharesSector (stagings s) (spOf 0) ∧ ∀ e ∈ s.cache, ∀ l ∈ e.2, l.line ≠ spOf 0 / 256 := by
  decide +kernel

theorem cachesPoisonedWord_after :
    (mapCmd (underSnapshot cachesPoisonedWord copyWord) 0 0).poisonAt (spOf 0) = true := by
  decide +kernel

theorem exec_vectorCopy {s : State} {c : Nat} (h : c < cellCount) : exec (.vectorCopy c) s = .next (mapCmd s c 0) :=
  if_pos h

/-- What reads back unpoisoned where neither sector nor value was poisoned, away from stagings and cached lines. -/
theorem ReadsBack.poisonAt_eq_false {s t : State} {a n v : Nat} {bad : Bool} (h : ReadsBack s t a n v bad) (pos : 0 < n)
    (unstaged : ¬ sharesSector (stagings s) a) (uncached : ∀ e ∈ s.cache, ∀ l ∈ e.2, l.line ≠ a / 256)
    (clean : s.poisonAt a = false) (good : bad = false) : t.poisonAt a = false := by
  obtain ⟨-, poison⟩ := h 0 pos
  refine (poison unstaged uncached).trans ?_
  rw [Nat.add_zero, clean, good]
  rfl

/-! ### The statements -/

/-- Refutes O8: COPY, at a state whose cache holds a channel's word listed for a ninth sector of a line (as for O28). An
armed snapshot protects the destination, the copy of its block loads stack memory, and the load evicts that line: a byte
changes that the descriptor does not write. The statement takes every state, and asks nothing of the cache's form. -/
theorem not_elementwiseOperationsRun : ¬ Obligations.ElementwiseOperationsRun := by
  intro h
  obtain ⟨runs, op, code, -⟩ := copyWord_runs
  obtain ⟨t, -, rfl, -, -, same, -⟩ := h 0 .vectorCopy (by simp [mapRows]) _ _ _ _ runs op code
  obtain ⟨away, one, clean⟩ := copyWord_changes
  exact not_sameBytes_underSnapshot away one clean same

/-- Refutes O9: COPY, at a state whose cache holds a poisoned word of the channel listed for a ninth sector of a line, which
is the sector of the destination. The eviction (as for O8) poisons that sector before the element is stored in a part of it,
and neither the sector nor the element was poisoned. -/
theorem not_elementwiseResultIsStored : ¬ Obligations.ElementwiseResultIsStored := by
  intro h
  obtain ⟨-, op, code, -⟩ := copyWord_runs
  obtain ⟨rows, cols, fmt, dst, own⟩ := copyWord_stores_fp32
  obtain ⟨t, run, back⟩ :=
    h 0 .vectorCopy (by simp [mapRows]) _ _ _ _ copyWord_runs_cachesPoisonedWord op code rows cols fmt own
  have exists_cell : 0 < cellCount := by decide
  rw [exec_vectorCopy exists_cell] at run
  cases run
  obtain ⟨clean, good, unstaged, uncached⟩ := cachesPoisonedWord_before
  rw [queuedItem, dst] at back
  have unpoisoned := back.poisonAt_eq_false (by decide) unstaged uncached clean good
  exact Bool.false_ne_true (unpoisoned.symm.trans cachesPoisonedWord_after)

/-- Refutes O10: its first clause for MAX, as O8. -/
theorem not_reductionsAndUpdatesRun : ¬ Obligations.ReductionsAndUpdatesRun := by
  rintro ⟨reductions, -⟩
  obtain ⟨runs, op, code, -⟩ := maxWord_runs
  obtain ⟨t, -, rfl, -, -, same, -⟩ := reductions 3 .reductionMax (by simp [reductionRows]) _ _ _ _ runs op code
  obtain ⟨away, one, clean⟩ := maxWord_changes
  exact not_sameBytes_underSnapshot away one clean same

/-- Refutes O12: its clause for STAT_SAVE, as O8. -/
theorem not_skiverDescriptorsRun : ¬ Obligations.SkiverDescriptorsRun := by
  intro h
  obtain ⟨runs, op, plain, -⟩ := saveWord_runs
  obtain ⟨-, -, -, -, save, -⟩ := h _ _ _ _ runs plain
  obtain ⟨t, -, rfl, -, -, same⟩ := save op
  obtain ⟨away, one, clean⟩ := saveWord_changes
  exact not_sameBytes_underSnapshot away one clean same

end Sys2Proof.Machine
end

section
/-! Hand-out (R159, R287, R137): what the three commands do with the list of a running piece. -/
namespace Sys2Proof.Machine

/-! ### Fetching on after a change of the piece -/

/-- From a state s, a state t in which only the piece p of cell c has changed: it is q, the piece p' with more slots of its
list fetched (R123). -/
structure FetchedOn (s : State) (c : Nat) (p' : Piece) (t : State) (q : Piece) : Prop where
  frame : t = { s with cells := t.cells }
  others : ∀ e, e ≠ c → t.cell e = s.cell e
  own : t.cell c = { s.cell c with piece := some q }
  held : t.pieceOf c = some q
  form : q = { p' with raw := q.raw, badSlots := q.badSlots, slots := q.slots }
  fetches : Fetches s p' q
  patched : p'.upd = none → q.slots = patchSlots q

theorem fetched_slots {s : State} {p : Piece} (h : p.upd = none) : (fetched s p).slots = patchSlots (fetched s p) := by
  simp only [fetched, h]
  rfl

theorem fetchedOn_fetchMore {s : State} {c : Nat} {p : Piece} (hp : s.pieceOf c = some p) (f : Piece → Piece) :
    FetchedOn s c (f p) (fetchMore (s.updPiece c f) c) (fetched (s.updPiece c f) (f p)) where
  frame := rfl
  others e he := by rw [fetchMore, State.cell_updPiece_other _ _ _ _ he, State.cell_updPiece_other _ _ _ _ he]
  own := cell_fetchMore_updPiece (State.piece_of_pieceOf hp) f
  held := by
    rw [fetchMore, State.pieceOf_updPiece, State.pieceOf_updPiece, hp]
    rfl
  form := fetched_eq _ _
  fetches := fetches_of_readsAlike (.of_updPiece s c f) (fetches_fetched _ (f p))
  patched := fetched_slots

/-! ### The three commands -/

/-- The limits of the queues after a QUEUE_CTL: those of the mask are set (R277, R287), except in PLEDUN mode (R278). -/
def limitsSet (s : State) (w : Nat) (limits : List Nat) : List Nat :=
  limits.zipIdx.map fun (l, q) => if bit (fld w 23 8) q ∧ s.odGet 0x5010 0 = 0 then fld w 30 24 else l

/-- The piece after a QUEUE_CTL that leaves these limits. -/
def queueLimited (limits : List Nat) (p : Piece) : Piece := { p with limits := limits, next := p.next + 1 }

/-- The piece once its GRID descriptor is applied: the list goes on after its four slots (R137, R138). -/
def gridApplied (p : Piece) : Piece := { p with gridDone := true, next := 4 }

@[simp] theorem length_limitsSet (s : State) (w : Nat) (limits : List Nat) :
    (limitsSet s w limits).length = limits.length := by
  simp [limitsSet]

theorem getElem?_limitsSet (s : State) (w : Nat) {limits : List Nat} {j : Nat} (h : j < limits.length) :
    (limitsSet s w limits)[j]? =
      some (if bit (fld w 23 8) j ∧ s.odGet 0x5010 0 = 0 then fld w 30 24 else limits.getD j 0) := by
  simp [limitsSet, h]

section
variable {s : State} {c : Nat} {p : Piece}

theorem handOut_eq (hp : s.pieceOf c = some p) (may : mayHandOut p = true)
    (window : inWindow p (p.next + headSlots p - 1) = true) (passes : headStatus s c p = none)
    (other : fld (headWord p) 7 0 ≠ 0x41) : handOut s c = s.updPiece c fun _ => handedOut s p := by
  simp [handOut, hp, may, window, passes, other]

theorem queueCtl_eq (hp : s.pieceOf c = some p) (may : mayHandOut p = true) (window : inWindow p p.next = true)
    (isCtl : fld (headWord p) 7 0 = 0x41) (passes : headStatus s c p = none) :
    queueCtl s c = finishCheck (fetchMore (s.updPiece c (queueLimited (limitsSet s (headWord p) p.limits))) c) c := by
  simp only [queueCtl, hp, may, window, isCtl, passes, Bool.not_true, Bool.or_self, bne_self_eq_false]
  rfl

theorem gridDescriptor_eq (hp : s.pieceOf c = some p) (tile : pdTileEn p.desc = true) (fresh : p.gridDone = false)
    (running : p.phase = .running) (isGrid : fld (joinSlots (p.slots.take 4)) 7 0 = 0x50) (room : 4 ≤ pdLen p.desc)
    (clean : ∀ i ∈ p.badSlots, 4 ≤ i) (ok : gridOk s p (joinSlots (p.slots.take 4)) = true) :
    gridDescriptor s c = fetchMore (s.updPiece c gridApplied) c := by
  have unpoisoned : (p.badSlots.any fun i => decide (i < 4)) = false := by simpa using clean
  have goes : ¬ (!pdTileEn p.desc || p.gridDone || p.phase != .running) := by simp [tile, fresh, running]
  have passes : ¬ (fld (joinSlots (p.slots.take 4)) 7 0 ≠ 0x50 ∨ pdLen p.desc < 4 ∨
      (p.badSlots.any fun i => decide (i < 4)) ∨ !gridOk s p (joinSlots (p.slots.take 4))) := by
    simp [isGrid, room, unpoisoned, ok]
  simp only [gridDescriptor, hp]
  rw [if_neg goes, if_neg passes]
  rfl

/-- A list with descriptors to hand out is not finished. -/
theorem not_finished_of_next_lt (h : p.next < pdLen p.desc) : p.finished = false := by
  have more : decide (pdLen p.desc ≤ p.next) = false := decide_eq_false (Nat.not_le.mpr h)
  rw [Piece.finished, more, Bool.and_false, Bool.false_and]

theorem finishCheck_of_not_finished (hp : s.pieceOf c = some p) (h : p.finished = false) : finishCheck s c = s := by
  simp [finishCheck, hp, h]

end

theorem exec_descriptorHandOut {s : State} {c : Nat} (h : c < cellCount) :
    exec (.descriptorHandOut c) s = .next (handOut s c) :=
  if_pos h

theorem exec_queueCtl {s : State} {c : Nat} (h : c < cellCount) : exec (.queueCtl c) s = .next (queueCtl s c) :=
  if_pos h

theorem exec_gridDescriptor {s : State} {c : Nat} (h : c < cellCount) :
    exec (.gridDescriptor c) s = .next (gridDescriptor s c) :=
  if_pos h

/-! ### The statement -/

/-- Settles O21: a hand-out changes the piece; QUEUE_CTL and GRID change it and fetch on, and the list is not yet at its
end. -/
theorem descriptorsAreHandedOut : Obligations.DescriptorsAreHandedOut := by
  intro s c p hc hp
  refine ⟨fun may window passes other => ?_, fun may window isCtl passes more => ?_,
    fun tile fresh running isGrid room clean ok => ?_⟩
  case refine_1 =>
    rw [exec_descriptorHandOut hc, handOut_eq hp may window passes other]
    refine ⟨_, rfl, rfl, fun e he => State.cell_updPiece_other _ _ _ _ he, ?_⟩
    rw [State.cell_updPiece_same, State.piece_of_pieceOf hp]
    rfl
  case refine_2 =>
    have on := fetchedOn_fetchMore hp (queueLimited (limitsSet s (headWord p) p.limits))
    rw [exec_queueCtl hc, queueCtl_eq hp may window isCtl passes]
    generalize fetchMore (s.updPiece c (queueLimited (limitsSet s (headWord p) p.limits))) c = t at on ⊢
    generalize fetched (s.updPiece c (queueLimited (limitsSet s (headWord p) p.limits)))
      (queueLimited (limitsSet s (headWord p) p.limits) p) = q at on
    have limits : q.limits = limitsSet s (headWord p) p.limits := by rw [on.form]; rfl
    have unfinished : q.finished = false := not_finished_of_next_lt (by rw [on.form]; exact more)
    rw [finishCheck_of_not_finished on.held unfinished]
    refine ⟨t, rfl, on.frame, on.others, q, on.own, ?_, on.fetches, ?_, fun j hj => ?_⟩
    · rw [limits]
      exact on.form
    · rw [limits, length_limitsSet]
    · rw [limits, getElem?_limitsSet s _ hj]
  case refine_3 =>
    have on := fetchedOn_fetchMore hp gridApplied
    rw [exec_gridDescriptor hc, gridDescriptor_eq hp tile fresh running isGrid room clean ok]
    exact ⟨_, _, rfl, on.frame, on.others, on.own, on.form, on.fetches, on.patched⟩

end Sys2Proof.Machine
end

section
/-! The stem engine (R211, R212) under an armed snapshot: the copy before a store (R270) loads stack memory, and a load can
evict a line. -/
namespace Sys2Proof.Machine

/-- STEM_UNPACK of one row of one FP32 value to the image of one pixel at address 0, in stack memory. -/
def unpackWord : Nat :=
  ofFields [(0, 0x14), (96, 1), (112, 1), (128, 1), (144, 1), (160, 1), (176, 1), (256, spOf 0 + 64), (384, 4), (416, 4)]

/-- The descriptor meets the hypotheses of the statement, and passes the checks at its hand-out. -/
theorem unpackWord_runs :
    UnitRuns (underSnapshot cachesSectorEight unpackWord) 0 .stem (pieceOfOne unpackWord) (queuedItem unpackWord) ∧
      fld unpackWord 7 0 = 0x14 ∧ (fmtOf (StemD.ofWord unpackWord).fmtD).isMx = false ∧
      checkDesc (underSnapshot cachesSectorEight unpackWord) 0 (pieceOfOne unpackWord) unpackWord = none := by
  decide +kernel

/-- It writes the four bytes of its pixel. -/
theorem itemWrites_unpackWord : itemWrites unpackWord = [(0, 4)] := by
  decide +kernel

/-- Its one store is into the protected byte at address 0: the copy loads that byte, and the byte of the evicted line's
ninth sector reads 1. -/
theorem unpackWord_changes :
    let d := StemD.ofWord unpackWord
    let t := finishItem ((List.range d.m).foldl (unpackRow d) (underSnapshot cachesSectorEight unpackWord, 0)) 0 0
    t.byte sectorEightAddr = 1 ∧ t.poisonAt sectorEightAddr = false := by
  decide +kernel

/-- Refutes O11: its clause for STEM_UNPACK, at a state whose cache holds a channel's word listed for a ninth sector of a
line (as for O8). An armed snapshot protects the destination, the copy of its block loads stack memory, and the load evicts
that line: a byte changes that the descriptor does not write. The statement takes every state, and asks nothing of the
cache's form. -/
theorem not_stemPackAndUnpackRun : ¬ Obligations.StemPackAndUnpackRun := by
  intro h
  obtain ⟨runs, op, plain, -⟩ := unpackWord_runs
  obtain ⟨-, unpack⟩ := h _ _ _ _ runs plain
  obtain ⟨t, -, rfl, -, same⟩ := unpack op
  obtain ⟨one, clean⟩ := unpackWord_changes
  have away : ¬ covered (itemWrites unpackWord) sectorEightAddr := by
    rw [itemWrites_unpackWord]
    decide
  exact not_sameBytes_underSnapshot away one clean same

end Sys2Proof.Machine
end

section
/-! Sparse maps after a write and after a filter; contexts after one of them is replaced, of which reads of memory look
at the areas alone. -/
namespace Sys2Proof.Machine

namespace Sp
variable {α : Type}

theorem find_ins_same (m : Sparse α) (i : Nat) (v : α) : find (ins m i v) i = some v := by
  induction m with
  | nil => simp [ins, find]
  | cons e r ih =>
    simp only [ins]
    split
    · simp [find]
    · split
      · simp [find]
      · next other => simp [find, other, ih]

theorem find_ins_other (m : Sparse α) (i j : Nat) (v : α) (h : j ≠ i) : find (ins m i v) j = find m j := by
  induction m with
  | nil => simp [ins, find, h]
  | cons e r ih =>
    simp only [ins]
    split
    · simp [find, h]
    · split
      · next same => simp [find, ← same, h]
      · simp [find, ih]

theorem mem_of_find {m : Sparse α} {i : Nat} {v : α} (h : find m i = some v) : (i, v) ∈ m := by
  induction m with
  | nil => cases h
  | cons e r ih =>
    rw [find] at h
    split at h
    · next same =>
      cases h
      exact same ▸ List.mem_cons_self
    · exact List.mem_cons_of_mem e (ih h)

/-- What a test says of the value found counts among what it says of the list. -/
theorem or_any_of_find {m : Sparse α} {i : Nat} {w : α} (found : find m i = some w) (f : Nat × α → Bool) :
    (f (i, w) || m.any f) = m.any f := by
  cases hw : f (i, w) with
  | false => rfl
  | true => exact (List.any_eq_true.mpr ⟨_, mem_of_find found, hw⟩).symm

/-- A test that takes a new value of a key for the one found says the same of the list. -/
theorem any_ins {m : Sparse α} {i : Nat} {v w : α} {f : Nat × α → Bool} (found : find m i = some w)
    (alike : f (i, v) = f (i, w)) : (ins m i v).any f = m.any f := by
  induction m with
  | nil => cases found
  | cons e r ih =>
    rw [ins]
    split
    · rw [List.any_cons, alike]
      exact or_any_of_find found f
    · split
      · next same =>
        have own : w = e.2 := by simpa [find, same] using found.symm
        rw [List.any_cons, List.any_cons, alike, own, same]
      · next other =>
        have rest : find r i = some w := by simpa [find, other] using found
        rw [List.any_cons, List.any_cons, ih rest]

/-! A filter by keys: a key that the test takes reads as before, any other as the default. -/

theorem get_filter_of_true (d : α) (m : Sparse α) {f : Nat → Bool} {i : Nat} (h : f i = true) :
    get d (m.filter fun e => f e.1) i = get d m i := by
  induction m with
  | nil => rfl
  | cons e r ih =>
    by_cases same : i = e.1
    · rw [List.filter_cons_of_pos (same ▸ h), get, get, if_pos same, if_pos same]
    · rw [get, if_neg same, ← ih, List.filter_cons]
      split
      · rw [get, if_neg same]
      · rfl

theorem get_filter_of_false (d : α) (m : Sparse α) {f : Nat → Bool} {i : Nat} (h : f i = false) :
    get d (m.filter fun e => f e.1) i = d := by
  induction m with
  | nil => rfl
  | cons e r ih =>
    rw [List.filter_cons]
    split
    · next kept =>
      have other : i ≠ e.1 := by
        rintro rfl
        exact Bool.false_ne_true (h.symm.trans kept)
      rw [get, if_neg other, ih]
    · exact ih

end Sp

namespace State

@[simp] theorem ctx?_setCtx_same (s : State) (c : Nat) (x : Ctx) : (s.setCtx c x).ctx? c = some x :=
  Sp.find_ins_same s.ctxs c x

theorem ctx?_setCtx_other (s : State) (c d : Nat) (x : Ctx) (h : d ≠ c) : (s.setCtx c x).ctx? d = s.ctx? d :=
  Sp.find_ins_other s.ctxs c d x h

theorem ctx?_congr {s t : State} (h : t.ctxs = s.ctxs) (c : Nat) : t.ctx? c = s.ctx? c := by
  rw [ctx?, ctx?, h]

/-- An update of a context that exists replaces it. -/
theorem updCtx_eq_setCtx {s : State} {c : Nat} {x : Ctx} (h : s.ctx? c = some x) (f : Ctx → Ctx) :
    s.updCtx c f = s.setCtx c (f x) := by
  rw [updCtx, h]

end State

/-! ### Reads of memory while a context's areas stay -/

/-- Two contents of a context with the same areas: of its cells' scratchpads, while it is resident (R405). -/
structure SameAreas (x y : Ctx) : Prop where
  resident : y.resident = x.resident
  cellset : y.cellset = x.cellset
  spOff : y.spOff = x.spOff
  spSize : y.spSize = x.spSize

section
variable {s : State} {ctx : Nat} {x y : Ctx}

theorem keptAt_setCtx (found : s.ctx? ctx = some x) (same : SameAreas x y) (c a : Nat) :
    (s.setCtx ctx y).keptAt c a = s.keptAt c a :=
  Sp.any_ins found (by simp only [same.resident, same.cellset, same.spOff, same.spSize])

theorem byte_setCtx (found : s.ctx? ctx = some x) (same : SameAreas x y) (a : Nat) :
    (s.setCtx ctx y).byte a = s.byte a := by
  have undef : (s.setCtx ctx y).undefAt a = s.undefAt a := by
    unfold State.undefAt
    simp only [keptAt_setCtx found same]
    rfl
  rw [State.byte, undef]
  rfl

theorem bytes_setCtx (found : s.ctx? ctx = some x) (same : SameAreas x y) (a n : Nat) :
    (s.setCtx ctx y).bytes a n = s.bytes a n := by
  simp only [State.bytes, byte_setCtx found same]

end

end Sys2Proof.Machine
end

section
/-! What stands in a list after its first fit is changed; commands; and what ends one leaves of the snapshots. -/
namespace Sys2Proof.Machine

/-- The first that fits is the changed one, where the change leaves it fitting. -/
theorem find?_updFirst {α : Type} {f : α → Bool} {g : α → α} (fits : ∀ a, f a = true → f (g a) = true) (l : List α) :
    (updFirst f g l).find? f = (l.find? f).map g := by
  induction l with
  | nil => rfl
  | cons a l ih =>
    unfold updFirst
    split
    · next fit => simp [fit, fits a fit]
    · next other => simp [other, ih]

namespace State

theorem cmd?_congr {s t : State} (h : t.cmds = s.cmds) (id : Nat) : t.cmd? id = s.cmd? id := by
  rw [cmd?, cmd?, h]

theorem cmd?_updCmd_same (s : State) (id : Nat) {f : Cmd → Cmd} (keepsId : ∀ c, (f c).id = c.id) :
    (s.updCmd id f).cmd? id = (s.cmd? id).map f :=
  find?_updFirst (fun c h => by rwa [keepsId]) s.cmds

end State

/-- A command that has begun is active. -/
theorem stage_beginCmd {s : State} {id : Nat} {c : Cmd} (found : s.cmd? id = some c) :
    ((beginCmd s id).cmd? id).map (·.stage) = some .active := by
  rw [beginCmd, State.cmd?_updCmd_same, found]
  · rfl
  · exact fun c => rfl

/-- R450: a command that has ended is no longer held. -/
theorem cmd?_complete (s : State) (id status : Nat) (d : Details) : (complete s id status d).cmd? id = none := by
  unfold complete
  split
  case h_1 gone => exact gone
  case h_2 c found =>
    refine (State.cmd?_congr (congrArg State.cmds (State.updCtx_fr (M := 0x80000) rfl _ _ _ rfl) :) id).trans ?_
    refine List.find?_eq_none.mpr fun e he => ?_
    obtain ⟨-, other⟩ := List.mem_filter.mp he
    simpa using other

/-! ### Stores note in a snapshot what they have copied of it, and nothing else (R270) -/

/-- A snapshot but for what has been copied of it. -/
def Snap.uncopied (p : Snap) : Snap := { p with copied := [] }

/-- The snapshots of a state, but for what has been copied of them. -/
def uncopied (s : State) : List Snap := s.snaps.map Snap.uncopied

theorem uncopied_congr {s t : State} (h : t.snaps = s.snaps) : uncopied t = uncopied s := by
  rw [uncopied, uncopied, h]

theorem snaps_foldl_moveRange (s : State) (p : Snap) (bs : List Nat) :
    (bs.foldl (fun s b => (snapRuns p b).foldl (fun s r => s.moveRange r.1 (p.stage + r.2.2) r.2.1) s) s).snaps =
      s.snaps := by
  have runs (t : State) (b : Nat) (h : t.hide 0x4000000070 = s.hide 0x4000000070) :
      ((snapRuns p b).foldl (fun s r => s.moveRange r.1 (p.stage + r.2.2) r.2.1) t).hide 0x4000000070 =
        s.hide 0x4000000070 :=
    foldl_fr h fun u r hu => State.moveRange_fr rfl u _ _ _ hu
  exact (congrArg State.snaps (foldl_fr (l := bs) rfl runs) :)

theorem uncopied_copyOnWrite (s : State) (a n : Nat) : uncopied (s.copyOnWrite a n) = uncopied s := by
  unfold State.copyOnWrite
  refine List.foldlRecOn s.snaps _ (motive := fun t => uncopied t = uncopied s) rfl fun t ih p _ => ?_
  dsimp only
  split
  · exact ih
  · split
    · exact ih
    · refine Eq.trans ?_ ih
      simp only [uncopied, State.odAdd_snaps, snaps_foldl_moveRange, List.map_map]
      refine List.map_congr_left fun q _ => ?_
      simp only [Function.comp]
      split <;> rfl

theorem uncopied_store (s : State) (a : Nat) (bs : List Byte) (bad : List Nat) :
    uncopied (s.store a bs bad) = uncopied s := by
  refine (uncopied_congr ?_).trans (uncopied_copyOnWrite s a bs.length)
  have noted := State.noteWritten_fr (M := 0x230) rfl (s.copyOnWrite a bs.length) a bs.length rfl
  have written := State.wrBytes_fr (M := 0x230) rfl _ a bs noted
  exact (congrArg State.snaps (State.markPoison_fr (M := 0x230) rfl _ a bs.length bad written) :)

theorem uncopied_wr (s : State) (a n v : Nat) (p : Bool) : uncopied (s.wr a n v p) = uncopied s :=
  uncopied_store s a (leBytes n v) _

theorem uncopied_flushHeld (s : State) (n fuel : Nat) : uncopied (flushHeld s n fuel) = uncopied s := by
  induction fuel generalizing s with
  | zero => rfl
  | succ fuel ih =>
    unfold flushHeld
    dsimp only
    split
    · rfl
    · split
      · rfl
      · exact (ih _).trans ((uncopied_congr (State.setRing_snaps ..)).trans (uncopied_wr s _ _ _ _))

theorem uncopied_postRecord (s : State) (n serial word : Nat) : uncopied (postRecord s n serial word) = uncopied s := by
  unfold postRecord
  dsimp only
  split
  · exact uncopied_flushHeld _ n _
  · rfl

/-- The end of a command, whose record is stored in its ring. -/
theorem uncopied_complete (s : State) (id status : Nat) (d : Details) :
    uncopied (complete s id status d) = uncopied s := by
  unfold complete
  split
  · rfl
  · next c _ =>
    generalize recordOf c.entry c.k (c.disposition status) status d = record
    refine Eq.trans (uncopied_congr ?_) (uncopied_postRecord s c.ring c.serial record)
    have counted := countRefused_fr (M := 0x280040) rfl (postRecord s c.ring c.serial record) status rfl
    exact (congrArg State.snaps (State.updCtx_fr (M := 0x280040) rfl _ _ _ ((State.hide_cmds rfl).trans counted)) :)

end Sys2Proof.Machine
end

section
/-! Update pieces and votes (R257, R259 to R262). -/
namespace Sys2Proof.Machine

/-! ### The commands -/

section
variable {s : State} {ctx : Nat}

theorem exec_updatePlacement (h : ctx < 1024) (k : Nat) (lens : List Nat) :
    exec (.updatePlacement ctx k lens) s = .next (updatePlacement s ctx k lens) := if_pos h

theorem exec_voteCast (h : ctx < 1024) : exec (.voteCast ctx) s = .next (voteCast s ctx) := if_pos h

theorem exec_voteReceive (h : ctx < 1024) (w : Tally) :
    exec (.voteReceive ctx w.member w.step w.tc w.vote.yes w.vote.reason w.faulty w.flags w.norms) s =
      .next (voteReceive s ctx w) := if_pos h

end

/-! ### Placement -/

/-- The update pieces of shard k in the lengths given, each from where the one before it ends. -/
def shardPieces (t : Step) (k : Nat) (lens : List Nat) : List QEntry :=
  lens.zipIdx.map fun n =>
    .update t.cmd k (lens.take n.2).sum n.1 (updateCycles (optOf t (t.shards.getD k 0)) n.1) false

theorem updatePlacement_of_landed {s : State} {ctx k : Nat} {lens : List Nat} {x : Ctx} {t : Step}
    (found : s.ctx? ctx = some x) (opened : x.step = some t) (exists_shard : k < t.shards.length)
    (unplaced : t.placed.contains k = false) (whole : lens.sum = shCount (t.shards.getD k 0))
    (nonempty : lens.contains 0 = false) (landed : shardLanded s ctx t (t.shards.getD k 0) = true) :
    updatePlacement s ctx k lens = s.setCtx ctx
      { x with
        queue := x.queue ++ shardPieces t k lens
        step := some
          { t with placed := t.placed ++ [k], undone := t.undone ++ [(k, shCount (t.shards.getD k 0))] } } := by
  have goes : ¬ (t.shards.length ≤ k ∨ t.placed.contains k ∨ lens.sum ≠ shCount (t.shards.getD k 0) ∨ lens.contains 0 ∨
      !shardLanded s ctx t (t.shards.getD k 0)) := by
    rw [unplaced, nonempty, landed]
    simpa [whole] using exists_shard
  simp only [updatePlacement, found, opened]
  rw [if_neg goes]
  rfl

/-! ### What is voted -/

section
variable {s : State} {ctx : Nat} {x : Ctx} {t : Step}

theorem voteNow_of_poison (h : stepPoison s ctx x t = true) : voteNow s ctx x t = some { yes := false, reason := 1 } :=
  if_pos h

theorem voteNow_of_done (clean : stepPoison s ctx x t = false) (ownFault : t.ownFault = false)
    (faulty : t.faulty ≠ some s.moduleId) (updateBad : t.updateBad = false) (updated : allUpdated t = true)
    (acked : allAcked t = true) : voteNow s ctx x t = some { yes := true, reason := 0 } := by
  simp [voteNow, clean, ownFault, faulty, updateBad, updated, acked]

/-! ### The ballot reads nothing that keeping the vote changes -/

/-- The context once a vote is kept with its step. -/
def votedCtx (x : Ctx) (t : Step) (v : Vote) : Ctx := { x with step := some { t with voted := some v } }

theorem ownNorms_setCtx {y : Ctx} (found : s.ctx? ctx = some x) (same : SameAreas x y) :
    ownNorms (s.setCtx ctx y) x t = ownNorms s x t := by
  have sum (tag off : Nat) : normSum (s.setCtx ctx y) x tag off = normSum s x tag off := by
    simp only [normSum, bytes_setCtx found same]
  simp only [ownNorms, sum]
  rfl

theorem ballot_setCtx {y : Ctx} {v : Vote} (found : s.ctx? ctx = some x) (same : SameAreas x y) :
    ballot (s.setCtx ctx y) x t v = ballot s x t v := by
  unfold ballot
  rw [ownNorms_setCtx found same]
  rfl

end

/-! ### Casting -/

section
variable {s : State} {ctx : Nat} {x : Ctx} {t : Step} {v : Vote}

/-- R259 to R262: a vote is kept with the step; then it stays there in STITCH_LOST, enters the tally at the root, and
goes up the tree elsewhere. -/
theorem castVote_eq (found : s.ctx? ctx = some x) (opened : x.step = some t) :
    castVote s ctx x t v =
      if s.stitch.lost then s.setCtx ctx (votedCtx x t v)
      else if isRoot s then putTally (s.setCtx ctx (votedCtx x t v)) ctx (ballot s x t v)
      else (s.setCtx ctx (votedCtx x t v)).send (.vote ctx (ballot s x t v)) := by
  have kept : updStep' s ctx (fun t => { t with voted := some v }) = s.setCtx ctx (votedCtx x t v) := by
    rw [updStep', State.updCtx_eq_setCtx found, opened]
    rfl
  rw [castVote, kept, ballot_setCtx (y := votedCtx x t v) found ⟨rfl, rfl, rfl, rfl⟩]
  rfl

/-- R260: may a vote go out, after what the step has voted before? The first, or a no after a yes. -/
def MayCast (old : Option Vote) (v : Vote) : Prop := old = none ∨ ∃ o, old = some o ∧ o.yes = true ∧ v.yes = false

theorem voteCast_of_mayCast (found : s.ctx? ctx = some x) (opened : x.step = some t) (before : t.deadline = false)
    (up : s.schedDown = false) (now : voteNow s ctx x t = some v) (may : MayCast t.voted v) :
    voteCast s ctx = castVote s ctx x t v := by
  rcases may with first | ⟨o, old, yes, no⟩
  · simp [voteCast, found, opened, before, up, now, first]
  · simp [voteCast, found, opened, before, up, now, old, yes, no]

theorem voteCast_eq_self (found : s.ctx? ctx = some x) (opened : x.step = some t)
    (h : t.deadline = true ∨ s.schedDown = true ∨ voteNow s ctx x t = none ∨
      ∃ v o, voteNow s ctx x t = some v ∧ t.voted = some o ∧ (o.yes = false ∨ v.yes = true)) : voteCast s ctx = s := by
  simp only [voteCast, found, opened]
  split
  · rfl
  · next goes =>
    obtain ⟨before, up⟩ := not_or.mp goes
    rcases h with late | down | undecided | ⟨v, o, now, old, stands⟩
    · exact absurd late before
    · exact absurd down up
    · rw [undecided]
    · rw [now, old]
      rcases stands with no | yes
      · simp [no]
      · simp [yes]

end

/-! ### Receiving -/

section
variable {s : State} {ctx : Nat} {x : Ctx} {w : Tally}

theorem voteReceive_of_counts (found : s.ctx? ctx = some x) (root : isRoot s = true)
    (member : s.job.members.contains w.member = true) (inTime : lateVote x w = false) (toCome : s.stitch.count < w.tc) :
    voteReceive s ctx w =
      s.setCtx ctx { x with tally := (x.tally.filter fun u => u.member != w.member) ++ [w] } := by
  have ahead : decide (w.tc ≤ s.stitch.count) = false := decide_eq_false (Nat.not_le.mpr toCome)
  simp only [voteReceive, found, root, member, inTime, ahead]
  exact State.updCtx_eq_setCtx found _

theorem voteReceive_of_dropped (found : s.ctx? ctx = some x)
    (h : isRoot s = false ∨ s.job.members.contains w.member = false ∨ lateVote x w = true ∨ w.tc ≤ s.stitch.count) :
    voteReceive s ctx w = s := by
  simp only [voteReceive, found]
  rw [if_pos]
  rcases h with h | h | h | h <;> simp only [h, Bool.not_false, Bool.true_or, Bool.or_true, decide_true]

end

/-! ### The statement -/

/-- What a cast vote leaves: it is kept with the step, and goes where the module's place in the job says. -/
theorem castVote_casts {s : State} {ctx : Nat} {x : Ctx} {t : Step} {v : Vote} (found : s.ctx? ctx = some x)
    (opened : x.step = some t) :
    let u := castVote s ctx x t v
    u = { s with ctxs := u.ctxs, outbox := u.outbox } ∧ OnlyCtx s u ctx ∧
      ((u.ctx? ctx).bind (·.step)) = some { t with voted := some v } ∧
      (s.stitch.lost = true → u.outbox = s.outbox) ∧
      (s.stitch.lost = false → isRoot s = false → u.outbox = (s.send (.vote ctx (ballot s x t v))).outbox) ∧
      (s.stitch.lost = false → isRoot s = true → u.outbox = s.outbox ∧ ∃ y, u.ctx? ctx = some y ∧
        y.tally = (x.tally.filter fun w => w.member != s.moduleId) ++ [ballot s x t v]) := by
  have own := State.ctx?_setCtx_same s ctx (votedCtx x t v)
  have others (c : Nat) (hc : c ≠ ctx) := State.ctx?_setCtx_other s ctx c (votedCtx x t v) hc
  simp only [castVote_eq found opened]
  by_cases lost : s.stitch.lost = true
  · rw [if_pos lost]
    refine ⟨rfl, others, by rw [own]; rfl, fun _ => rfl, fun h => ?_, fun h => ?_⟩ <;> simp [lost] at h
  · rw [if_neg lost]
    by_cases root : isRoot s = true
    · rw [if_pos root, putTally, State.updCtx_eq_setCtx own]
      refine ⟨rfl, fun c hc => ?_, ?_, fun h => absurd h lost, fun _ h => ?_,
        fun _ _ => ⟨rfl, _, State.ctx?_setCtx_same .., rfl⟩⟩
      · rw [State.ctx?_setCtx_other _ _ _ _ hc, others c hc]
      · rw [State.ctx?_setCtx_same]
        rfl
      · simp [root] at h
    · rw [if_neg root]
      have ctxs := State.ctx?_congr (State.send_ctxs (s.setCtx ctx (votedCtx x t v)) (.vote ctx (ballot s x t v)))
      refine ⟨by rw [State.send_eq]; rfl, fun c hc => (ctxs c).trans (others c hc), by rw [ctxs, own]; rfl,
        fun h => absurd h lost, fun _ _ => State.send_outbox_congr rfl rfl _, fun _ h => absurd h root⟩

theorem voteReceive_tallies (s : State) (ctx : Nat) (w : Tally) (x : Ctx) (hctx : ctx < 1024)
    (found : s.ctx? ctx = some x) :
    (isRoot s = true → s.job.members.contains w.member = true → lateVote x w = false → s.stitch.count < w.tc →
      exec (.voteReceive ctx w.member w.step w.tc w.vote.yes w.vote.reason w.faulty w.flags w.norms) s =
        .next (s.setCtx ctx { x with tally := (x.tally.filter fun u => u.member != w.member) ++ [w] })) ∧
    (isRoot s = false ∨ s.job.members.contains w.member = false ∨ lateVote x w = true ∨ w.tc ≤ s.stitch.count →
      exec (.voteReceive ctx w.member w.step w.tc w.vote.yes w.vote.reason w.faulty w.flags w.norms) s = .next s) := by
  rw [exec_voteReceive hctx]
  exact ⟨fun root member inTime toCome => congrArg _ (voteReceive_of_counts found root member inTime toCome),
    fun h => congrArg _ (voteReceive_of_dropped found h)⟩

/-- Settles O32: placement, casting with what is voted, the ballot, and the tally at the root. -/
theorem updatesAndVotes : Obligations.UpdatesAndVotes := by
  refine ⟨fun s ctx k lens x t so exists_shard unplaced whole nonempty landed => ?_, fun s ctx x t so => ?_,
    fun s x t v => ⟨rfl, rfl, rfl, rfl, rfl, rfl, fun gathered => if_pos gathered⟩,
    fun s ctx m st tc rs fl yes fa ns x hctx found => ?_⟩
  · obtain ⟨hctx, found, opened⟩ := so
    rw [exec_updatePlacement hctx, updatePlacement_of_landed found opened exists_shard unplaced whole nonempty landed]
    exact ⟨_, rfl, rfl, fun c => State.ctx?_setCtx_other s ctx c _, State.ctx?_setCtx_same s ctx _⟩
  · obtain ⟨hctx, found, opened⟩ := so
    rw [exec_voteCast hctx]
    exact ⟨fun v before up now may =>
        ⟨_, congrArg _ (voteCast_of_mayCast found opened before up now may), castVote_casts found opened⟩,
      fun h => congrArg _ (voteCast_eq_self found opened h), voteNow_of_done, voteNow_of_poison⟩
  · exact voteReceive_tallies s ctx
      { member := m, vote := { yes := yes, reason := rs }, step := st, tc := tc, faulty := fa, flags := fl,
        norms := ns } x hctx found

end Sys2Proof.Machine
end

section
/-! Snapshots are registered and sent (R269 to R272, R352). -/
namespace Sys2Proof.Machine

theorem exec_snapshot (s : State) (id : Nat) (bm : Bool) : exec (.snapshot id bm) s = .next (snapshot s id bm) := rfl

theorem exec_snapshotSend (s : State) (id : Nat) : exec (.snapshotSend id) s = .next (snapshotSend s id) := rfl

/-! ### The checks find Bus Master Enable written, and read nothing of it -/

theorem backed_setBme (s : State) (on : Bool) (a n : Nat) : (s.setBme on).backed a n = s.backed a n := by
  have cover (k a e : Nat) : (s.setBme on).coverFrom k a e = s.coverFrom k a e := by
    induction k generalizing a with
    | zero => rfl
    | succ k ih =>
      have region : (s.setBme on).regionAt a = s.regionAt a := rfl
      simp only [State.coverFrom, region, ih]
  simp only [State.backed, cover]
  rfl

theorem tableAt_setBme (s : State) (on : Bool) (a n k : Nat) (slm : Bool) :
    tableAt (s.setBme on) a n k slm = tableAt s a n k slm := by
  simp only [tableAt, State.rangeOk, backed_setBme]
  rfl

/-! ### Registration -/

/-- The snapshot that a SNAPSHOT command registers, of a step whose gradient map gives the listed entries. -/
def registered (s : State) (id : Nat) (c : Cmd) (t : Step) (list : List Nat) : Snap :=
  let d := SnapD.ofWord c.entry
  let l := snapLayout (list.map fun e => t.gmap.getD e 0) 0
  { cmd := id, id := s.serial + 1, ctx := c.ctx, step := d.step, tc := soTc t.entry, gmap := t.gmap, entries := list,
    runs := l.1, bytes := l.2, chunk := 2 ^ d.chunkLog, stage := d.stage, armed := false, copied := [], sent := none }

/-- R269 to R271, R448: the checks of a SNAPSHOT command with the fields d and the layout l, all passed. -/
structure SnapPasses (s : State) (bm : Bool) (t : Step) (list : List Nat) (d : SnapD)
    (l : List (Nat × Nat × Nat) × Nat) : Prop where
  some_entries : d.entries ≠ 0
  few_entries : d.entries ≤ 16384
  table : tableAt s d.list d.entries 4 true = some list
  room : s.snaps.length < 2
  step : d.step = soStep t.entry
  inTime : s.stitch.count < soTc t.entry
  mapped : ∀ e ∈ list, e < t.gmap.length
  chunk_ge : 20 ≤ d.chunkLog
  chunk_le : d.chunkLog ≤ 28
  aligned : d.stage % 65536 = 0
  backed : s.backed d.stage (d.stageMib * 2 ^ 20) = true
  staged : l.2 ≤ d.stageMib * 2 ^ 20
  fits : containerBytes l.2 d.chunkLog d.entries ≤ d.destSize
  port : d.latigo = true → d.port < 48
  host : d.latigo = false → bm = true ∧ s.pcieUp = true
  present : touchesAbsent s ((d.stage, l.2) :: l.1.map fun r => (r.1, r.2.1)) = false

section
variable {s : State} {id : Nat} {bm : Bool} {c : Cmd} {t : Step} {list : List Nat}

theorem SnapPasses.setBme {d : SnapD} {l : List (Nat × Nat × Nat) × Nat} (h : SnapPasses s bm t list d l) :
    SnapPasses (s.setBme bm) bm t list d l :=
  { h with table := (tableAt_setBme ..).trans h.table, backed := (backed_setBme ..).trans h.backed }

theorem snapshot_of_passes (found : s.cmd? id = some c) (opcode : c.opcode = 0x14) (taken : c.stage = .taken)
    (opened : ((s.setBme bm).ctx? c.ctx).bind (·.step) = some t)
    (passes : SnapPasses (s.setBme bm) bm t list (SnapD.ofWord c.entry)
      (snapLayout (list.map fun e => t.gmap.getD e 0) 0)) :
    snapshot s id bm =
      { beginCmd (s.setBme bm).fresh id with
        snaps := s.snaps ++ [registered s id c t list] } := by
  have goes : ¬ (c.opcode ≠ 0x14 ∨ c.stage ≠ .taken) := by simp [opcode, taken]
  have table : (if (SnapD.ofWord c.entry).entries = 0 ∨ 16384 < (SnapD.ofWord c.entry).entries then none
      else tableAt (s.setBme bm) (SnapD.ofWord c.entry).list (SnapD.ofWord c.entry).entries 4 true) = some list :=
    (if_neg (not_or.mpr ⟨passes.some_entries, Nat.not_lt.mpr passes.few_entries⟩)).trans passes.table
  have reg : registered s id c t list = registered (s.setBme bm) id c t list := rfl
  have snaps : s.snaps = (s.setBme bm).snaps := rfl
  simp only [snapshot, found, opened, table, reg, snaps]
  rw [if_neg goes]
  generalize s.setBme bm = u at passes
  rw [if_neg (Nat.not_le.mpr passes.room), if_neg, if_neg, if_neg, if_neg]
  · rfl
  · rw [passes.present]
    exact Bool.false_ne_true
  · cases hl : (SnapD.ofWord c.entry).latigo with
    | true => simp
    | false => simp [(passes.host hl).2]
  · cases hl : (SnapD.ofWord c.entry).latigo with
    | true => simp
    | false => simp [(passes.host hl).1]
  · have port : (!(SnapD.ofWord c.entry).latigo || decide ((SnapD.ofWord c.entry).port < 48)) = true := by
      cases hl : (SnapD.ofWord c.entry).latigo with
      | true => simp [passes.port hl]
      | false => rfl
    have mapped : (list.all fun e => decide (e < t.gmap.length)) = true := by simpa using passes.mapped
    rw [port, mapped, passes.backed]
    simp only [passes.step, passes.inTime, passes.chunk_ge, passes.chunk_le, passes.aligned, passes.staged, passes.fits,
      and_self, decide_true, Bool.and_self, Bool.not_true, Bool.false_eq_true, not_false_iff]

end

/-! ### What of a command's snapshot is with its port -/

/-- R352: the first snapshot of a command, if any is registered: what of it is with a port. -/
def sendingOf (s : State) (id : Nat) : Option (Option (Nat × Nat × Nat × Nat)) :=
  (s.snaps.find? fun p => p.cmd == id).map (·.sent)

theorem sendingOf_uncopied (s : State) (id : Nat) :
    ((uncopied s).find? fun p => p.cmd == id).map (·.sent) = sendingOf s id := by
  rw [uncopied, List.find?_map, Option.map_map]
  rfl

theorem sendingOf_congr {s t : State} (h : uncopied t = uncopied s) (id : Nat) : sendingOf t id = sendingOf s id := by
  rw [← sendingOf_uncopied, ← sendingOf_uncopied, h]

theorem sendingOf_complete (s : State) (i status : Nat) (d : Details) (id : Nat) :
    sendingOf (complete s i status d) id = sendingOf s id :=
  sendingOf_congr (uncopied_complete s i status d) id

/-- Dropping a command's snapshots drops the one looked for, or leaves it. -/
theorem sendingOf_drop (s : State) (n id : Nat) :
    sendingOf { s with snaps := s.snaps.filter fun m => m.cmd != n } id = if n = id then none else sendingOf s id := by
  unfold sendingOf
  split
  · next same =>
    refine Option.map_eq_none_iff.mpr (List.find?_eq_none.mpr fun p hp => ?_)
    obtain ⟨-, other⟩ := List.mem_filter.mp hp
    simpa [← same] using other
  · next other =>
    rw [List.find?_filter]
    refine congrArg (fun f => (s.snaps.find? f).map (·.sent)) (funext fun p => ?_)
    by_cases own : p.cmd = id
    · simp [own, Ne.symm other]
    · simp [own]

theorem sendingOf_snapsSent (s : State) (port id : Nat) :
    sendingOf (snapsSent s port) id = none ∨ sendingOf (snapsSent s port) id = sendingOf s id := by
  unfold snapsSent
  refine List.foldlRecOn s.snaps _ (motive := fun t => sendingOf t id = none ∨ sendingOf t id = sendingOf s id)
    (.inr rfl) fun t ih n _ => ?_
  split
  · split
    · rw [sendingOf_complete, sendingOf_drop]
      split
      · exact .inl rfl
      · exact ih
    · exact ih
  · exact ih

theorem sendingOf_eq_none {s : State} {id : Nat} : sendingOf s id = none ↔ ∀ q ∈ s.snaps, q.cmd ≠ id := by
  simp [sendingOf]

theorem sendingOf_eq_some {s : State} {id : Nat} {x : Option (Nat × Nat × Nat × Nat)} :
    sendingOf s id = some x ↔ ∃ q, s.snaps.find? (fun p => p.cmd == id) = some q ∧ q.sent = x :=
  Option.map_eq_some_iff

/-! ### Sending -/

/-- The runs that a snapshot's container is read from. -/
def snapReads (p : Snap) : List (Nat × Nat) := p.runs.map fun r => (r.1, r.2.1)

/-- R310, R352: does what a container would go over carry no more: its port, or the link to the host? -/
def sendLost (s : State) (d : SnapD) : Bool :=
  if d.latigo then bit (s.odGet 0x4013 0) d.port || !(s.port d.port).serves else !s.pcieUp

/-- The state once the snapshots of a command are registered no more. -/
def snapsDropped (s : State) (id : Nat) : State := { s with snaps := s.snaps.filter fun q => q.cmd != id }

/-- R17, R448: the status of a container that goes out whole. -/
def sendStatus (s : State) (p : Snap) : Nat :=
  if snapDown s p then St.targetReset else if snapPoison s p then St.poisoned else St.ok

/-- A command's first snapshot has its container with a port. -/
def snapHandedOver (s : State) (id : Nat) (x : Nat × Nat × Nat × Nat) : State :=
  { s with snaps := updFirst (fun q => q.cmd == id) (fun q => { q with sent := some x }) s.snaps }

section
variable {s : State} {id : Nat} {c : Cmd} {p : Snap}

/-- An armed snapshot of a command, not yet sent, whose data can be read. -/
structure MaySend (s : State) (id : Nat) (c : Cmd) (p : Snap) : Prop where
  command : s.cmd? id = some c
  snap : s.snaps.find? (fun p => p.cmd == id) = some p
  armed : p.armed = true
  unsent : p.sent = none
  readable : loadHeld s (snapReads p) = false

theorem MaySend.goes (may : MaySend s id c p) : ¬ (!p.armed || p.sent.isSome || loadHeld s (snapReads p)) = true := by
  simp [may.armed, may.unsent, may.readable]

theorem snapshotSend_of_lost (may : MaySend s id c p) (lost : sendLost s (SnapD.ofWord c.entry) = true) :
    snapshotSend s id = complete (snapsDropped s id) id St.targetReset { Details.zero with d0 := p.id } := by
  simp only [snapshotSend, may.command, may.snap]
  refine (if_neg may.goes).trans ?_
  cases hl : (SnapD.ofWord c.entry).latigo with
  | true =>
    rw [sendLost, hl, if_pos rfl] at lost
    simp only [lost]
    rfl
  | false =>
    rw [sendLost, hl, if_neg Bool.false_ne_true] at lost
    simp only [lost]
    rfl

theorem snapshotSend_of_host (may : MaySend s id c p) (host : (SnapD.ofWord c.entry).latigo = false)
    (up : sendLost s (SnapD.ofWord c.entry) = false) :
    let d := SnapD.ofWord c.entry
    let bs := container s p (2 ^ d.chunkLog)
    snapshotSend s id =
      complete ((sliceLoads (snapsDropped s id) (snapReads p)).send (.hostWrite d.dest bs false)) id (sendStatus s p)
        { d0 := p.id, d1 := bs.length, d2 := ceilDiv p.bytes (2 ^ d.chunkLog), d3 := 0 } := by
  rw [sendLost, host, if_neg Bool.false_ne_true] at up
  simp only [snapshotSend, may.command, may.snap]
  refine (if_neg may.goes).trans ?_
  simp only [host, up]
  rfl

theorem snapshotSend_of_port (may : MaySend s id c p) (port : (SnapD.ofWord c.entry).latigo = true)
    (up : sendLost s (SnapD.ofWord c.entry) = false) :
    let d := SnapD.ofWord c.entry
    let bs := container s p (2 ^ d.chunkLog)
    let x := (d.port, bs.length, ceilDiv p.bytes (2 ^ d.chunkLog), sendStatus s p)
    snapshotSend s id = snapsSent (sendFlits (sliceLoads (snapHandedOver s id x) (snapReads p)) p d bs) d.port := by
  rw [sendLost, port, if_pos rfl] at up
  simp only [snapshotSend, may.command, may.snap]
  refine (if_neg may.goes).trans ?_
  simp only [port, up]
  rfl

end

/-! ### The statement -/

theorem snapshot_registers {s : State} {id : Nat} {bm : Bool} {c : Cmd} {x : Ctx} {t : Step} {list : List Nat}
    (found : s.cmd? id = some c) (opcode : c.opcode = 0x14) (taken : c.stage = .taken) (ctx : s.ctx? c.ctx = some x)
    (opened : x.step = some t)
    (passes : SnapPasses s bm t list (SnapD.ofWord c.entry) (snapLayout (list.map fun e => t.gmap.getD e 0) 0)) :
    ∃ u, exec (.snapshot id bm) s = .next u ∧
      u = { s with serial := s.serial + 1, cmds := u.cmds, snaps := s.snaps ++ [registered s id c t list],
                   pcie := u.pcie } ∧
      (u.cmd? id).map (·.stage) = some .active := by
  have own : ((s.setBme bm).ctx? c.ctx).bind (·.step) = some t :=
    (congrArg (·.bind (·.step)) ctx).trans opened
  rw [exec_snapshot, snapshot_of_passes found opcode taken own passes.setBme]
  exact ⟨_, rfl, rfl, stage_beginCmd (s := (s.setBme bm).fresh) found⟩

section
variable {s : State} {id : Nat} {c : Cmd} {p : Snap}

theorem snapshotSend_frame (s : State) (id : Nat) :
    let u := snapshotSend s id
    u = { s with mem := u.mem, poison := u.poison, od := u.od, cells := u.cells, ctxs := u.ctxs, rings := u.rings,
                 cmds := u.cmds, cache := u.cache, ports := u.ports, snaps := u.snaps, outbox := u.outbox } := by
  have frame := snapshotSend_fr (M := 0x40004011380270) rfl s id rfl
  generalize snapshotSend s id = u at frame
  cases s
  cases u
  cases frame
  rfl

/-- Of a snapshot that ends, no command and no snapshot stays, and the command's record changes neither ports nor what
waits to leave. -/
theorem snapshotSend_ends {u : State} {st : Nat} {d : Details} (none_left : sendingOf u id = none) :
    let t := complete u id st d
    t.cmd? id = none ∧ (∀ q ∈ t.snaps, q.cmd ≠ id) ∧ t.ports = u.ports ∧ t.outbox = u.outbox := by
  have frame := complete_fr (M := 0x4010380270) rfl u id st d rfl
  exact ⟨cmd?_complete u id st d, sendingOf_eq_none.mp ((sendingOf_complete u id st d id).trans none_left),
    (congrArg State.ports frame :), (congrArg State.outbox frame :)⟩

theorem sendingOf_snapsDropped (s : State) (id : Nat) : sendingOf (snapsDropped s id) id = none :=
  (sendingOf_drop s id id).trans (if_pos rfl)

theorem sendingOf_snapHandedOver (found : s.snaps.find? (fun p => p.cmd == id) = some p) (x : Nat × Nat × Nat × Nat) :
    sendingOf (snapHandedOver s id x) id = some (some x) := by
  refine (congrArg (Option.map _) (find?_updFirst ?_ s.snaps)).trans ?_
  · exact fun q h => h
  · rw [found]
    rfl

theorem snaps_sliceLoads (s : State) (rs : List (Nat × Nat)) : (sliceLoads s rs).snaps = s.snaps :=
  (congrArg State.snaps (sliceLoads_fr (M := 0x4000000070) rfl s rs rfl) :)

theorem snaps_sendFlits (s : State) (p : Snap) (d : SnapD) (bs : List Byte) : (sendFlits s p d bs).snaps = s.snaps :=
  (congrArg State.snaps (sendFlits_fr (M := 0x40000001000000) rfl s p d bs rfl) :)

theorem snapshotSend_to_host (may : MaySend s id c p) (host : (SnapD.ofWord c.entry).latigo = false)
    (up : sendLost s (SnapD.ofWord c.entry) = false) :
    let d := SnapD.ofWord c.entry
    let u := snapshotSend s id
    u.cmd? id = none ∧ (∀ q ∈ u.snaps, q.cmd ≠ id) ∧ u.ports = s.ports ∧
      .hostWrite d.dest (container s p (2 ^ d.chunkLog)) false ∈ u.outbox := by
  rw [snapshotSend_of_host may host up]
  have dropped (m : Msg) : sendingOf ((sliceLoads (snapsDropped s id) (snapReads p)).send m) id = none := by
    rw [sendingOf_congr (uncopied_congr (State.send_snaps ..)), sendingOf_congr (uncopied_congr (snaps_sliceLoads ..))]
    exact sendingOf_snapsDropped s id
  have loaded := sliceLoads_fr (M := 0x4000000070) rfl (snapsDropped s id) (snapReads p) rfl
  obtain ⟨gone, left, ports, outbox⟩ := snapshotSend_ends (dropped _)
  refine ⟨gone, left, (ports.trans (State.send_ports ..)).trans (congrArg State.ports loaded :), ?_⟩
  rw [outbox]
  exact (State.mem_send_outbox ..).mpr (.inl rfl)

theorem snapshotSend_to_port (may : MaySend s id c p) (port : (SnapD.ofWord c.entry).latigo = true)
    (up : sendLost s (SnapD.ofWord c.entry) = false) :
    let d := SnapD.ofWord c.entry
    let u := snapshotSend s id
    u.snaps.find? (fun q => q.cmd == id) = none ∨ ∃ q st, u.snaps.find? (fun q => q.cmd == id) = some q ∧
      q.sent = some (d.port, (container s p (2 ^ d.chunkLog)).length, ceilDiv p.bytes (2 ^ d.chunkLog), st) := by
  rw [snapshotSend_of_port may port up]
  have given (x : Nat × Nat × Nat × Nat) (d : SnapD) (bs : List Byte) :
      sendingOf (sendFlits (sliceLoads (snapHandedOver s id x) (snapReads p)) p d bs) id = some (some x) := by
    rw [sendingOf_congr (uncopied_congr (snaps_sendFlits ..)), sendingOf_congr (uncopied_congr (snaps_sliceLoads ..))]
    exact sendingOf_snapHandedOver may.snap x
  refine (sendingOf_snapsSent _ (SnapD.ofWord c.entry).port id).imp Option.map_eq_none_iff.mp fun still => ?_
  obtain ⟨q, found, sent⟩ := sendingOf_eq_some.mp (still.trans (given ..))
  exact ⟨q, _, found, sent⟩

theorem snapshotSend_to_nobody (may : MaySend s id c p) (lost : sendLost s (SnapD.ofWord c.entry) = true) :
    let u := snapshotSend s id
    u.cmd? id = none ∧ (∀ q ∈ u.snaps, q.cmd ≠ id) ∧ u.ports = s.ports ∧ u.outbox = s.outbox := by
  rw [snapshotSend_of_lost may lost]
  exact snapshotSend_ends (sendingOf_snapsDropped s id)

end

/-- Settles O34: the registration, and the three ways in which a snapshot may leave. -/
theorem snapshotsAreTakenAndSent : Obligations.SnapshotsAreTakenAndSent := by
  refine ⟨fun s id bm c x t list found opcode taken ctx opened => ?_,
    fun s id c p found snap armed unsent readable => ?_⟩
  · intro d l some_entries few_entries table room step inTime mapped chunk_ge chunk_le aligned backed staged fits port
      host present
    obtain ⟨u, run, frame, active⟩ := snapshot_registers found opcode taken ctx opened
      ⟨some_entries, few_entries, table, room, step, inTime, mapped, chunk_ge, chunk_le, aligned, backed, staged, fits,
        port, host, present⟩
    exact ⟨u, registered s id c t list, run, frame, active, rfl, rfl, rfl, rfl, rfl, rfl, rfl, rfl, rfl⟩
  · have may : MaySend s id c p := ⟨found, snap, armed, unsent, readable⟩
    exact ⟨_, exec_snapshotSend s id, snapshotSend_frame s id, snapshotSend_to_host may, snapshotSend_to_port may,
      snapshotSend_to_nobody may⟩

end Sys2Proof.Machine
end

section
/-! A step opens (R247, R248, R252, R256), and is gathered (R242 to R244). -/
namespace Sys2Proof.Machine

/-! ### Opening -/

theorem exec_stepOpen (s : State) (id planes : Nat) (others : List (List Nat)) :
    exec (.stepOpen id others planes) s = .next (stepOpen s id others planes) := rfl

/-- The state once the shards are told, the tables read, and what an earlier step left is cleared (R252, R256, R310). -/
def stepCleared (s : State) (c : Cmd) (x : Ctx) : State :=
  let w := c.entry
  let read := sliceLoads (tellShards s c) [(soShards w, 64 * fld w 312 298), (fld w 361 320, 64 * fld w 370 362)]
  unpoisonStage (clearNorms read x) c.ctx

/-- The state once a step is the open one of its context, and its command active. -/
def stepOpened (s : State) (id : Nat) (c : Cmd) (x : Ctx) (t : Step) : State :=
  (beginCmd (stepCleared s c x) id).updCtx c.ctx fun x => { x with step := some t }

section
variable {s : State} {id : Nat} {c : Cmd} {x : Ctx} {t : Step}

theorem stepOpen_of_ok {others : List (List Nat)} (found : s.cmd? id = some c) (ctx : s.ctx? c.ctx = some x)
    (opcode : c.opcode = 0x12) (taken : c.stage = .taken) (closed : x.step = none) (ok : openStep s c x others = .ok t)
    (planes : Nat) : stepOpen s id others planes = readmit (stepOpened s id c x t) planes := by
  have goes : ¬ (c.opcode ≠ 0x12 ∨ c.stage ≠ .taken ∨ x.step.isSome = true) := by simp [opcode, taken, closed]
  simp only [stepOpen, found, ctx, ok]
  exact if_neg goes

/-- After the shards are told, what is cleared and read is memory. -/
theorem stepCleared_hide (s : State) (c : Cmd) (x : Ctx) :
    (stepCleared s c x).hide 0x4010000270 = (tellShards s c).hide 0x4010000270 :=
  unpoisonStage_fr rfl _ _ (clearNorms_fr rfl _ x (sliceLoads_fr rfl _ _ rfl))

theorem stepCleared_frame (s : State) (c : Cmd) (x : Ctx) :
    (stepCleared s c x).hide 0x40004010000270 = s.hide 0x40004010000270 :=
  (State.hide_mono rfl (stepCleared_hide s c x)).trans (tellShards_fr rfl s c rfl)

theorem stepOpened_eq (ctx : s.ctx? c.ctx = some x) :
    stepOpened s id c x t = (beginCmd (stepCleared s c x) id).setCtx c.ctx { x with step := some t } := by
  have own : (beginCmd (stepCleared s c x) id).ctx? c.ctx = some x :=
    (State.ctx?_congr (congrArg State.ctxs (stepCleared_frame s c x) :) c.ctx).trans ctx
  exact State.updCtx_eq_setCtx own _

theorem readmit_of_mode {planes : Nat} (h : s.job.mode ≠ 2) : readmit s planes = s := if_pos h

/-- Planes that come back change no context and no command. -/
theorem readmit_leaves (s : State) (planes : Nat) :
    (readmit s planes).ctxs = s.ctxs ∧ (readmit s planes).cmds = s.cmds := by
  have frame := readmit_fr (M := 0x40004013000272) rfl s planes rfl
  exact ⟨(congrArg State.ctxs frame :), (congrArg State.cmds frame :)⟩

theorem readmit_stepOpened_frame (planes : Nat) :
    let u := readmit (stepOpened s id c x t) planes
    u = { s with free := u.free, mem := u.mem, poison := u.poison, od := u.od, cells := u.cells, ctxs := u.ctxs,
                 cmds := u.cmds, ports := u.ports, fab := u.fab, snaps := u.snaps, cache := u.cache,
                 outbox := u.outbox } := by
  have cleared : (stepCleared s c x).hide 0x40004013280272 = s.hide 0x40004013280272 :=
    State.hide_mono rfl (stepCleared_frame s c x)
  have opened : (stepOpened s id c x t).hide 0x40004013280272 = s.hide 0x40004013280272 :=
    State.updCtx_fr rfl _ _ _ (State.updCmd_fr rfl _ id _ cleared)
  have frame := readmit_fr rfl _ planes opened
  generalize readmit (stepOpened s id c x t) planes = u at frame
  cases s
  cases u
  cases frame
  rfl

/-- The step is open and its command active, no other context has changed, and outside FABRIC mode no port, no operation
and no message but that of the shards (R256, R346). -/
theorem readmit_stepOpened_opens (planes : Nat) (found : s.cmd? id = some c) (ctx : s.ctx? c.ctx = some x) :
    let u := readmit (stepOpened s id c x t) planes
    (s.job.mode ≠ 2 → u.outbox = (tellShards s c).outbox ∧ u.ports = s.ports ∧ u.fab = s.fab) ∧
    u.ctx? c.ctx = some { x with step := some t } ∧ (u.cmd? id).map (·.stage) = some .active ∧ OnlyCtx s u c.ctx := by
  have cleared := stepCleared_frame s c x
  have sent := stepCleared_hide s c x
  rw [stepOpened_eq ctx]
  generalize stepCleared s c x = a at cleared sent
  generalize tellShards s c = b at sent
  obtain ⟨ctxs, cmds⟩ := readmit_leaves ((beginCmd a id).setCtx c.ctx { x with step := some t }) planes
  refine ⟨fun mode => ?_, (State.ctx?_congr ctxs _).trans (State.ctx?_setCtx_same ..), ?_, fun k other => ?_⟩
  · have job : a.job = s.job := (congrArg State.job cleared :)
    rw [readmit_of_mode (s := (beginCmd a id).setCtx c.ctx { x with step := some t }) (job ▸ mode)]
    exact ⟨(congrArg State.outbox sent :), (congrArg State.ports cleared :), (congrArg State.fab cleared :)⟩
  · have held : a.cmds = s.cmds := (congrArg State.cmds cleared :)
    rw [State.cmd?_congr cmds]
    exact stage_beginCmd ((State.cmd?_congr held id).trans found)
  · have held : a.ctxs = s.ctxs := (congrArg State.ctxs cleared :)
    rw [State.ctx?_congr ctxs, State.ctx?_setCtx_other _ _ _ _ other]
    exact State.ctx?_congr held k

end

/-! ### The gather -/

theorem exec_gather {ctx : Nat} (h : ctx < 1024) (s : State) : exec (.gather ctx) s = .next (gather s ctx) := if_pos h

/-- R242: is a pair of the Welts in the window that a context has on a dirty cell? -/
def inDirtyWindow (x : Ctx) (k : Nat) : Bool :=
  x.hot && x.dirty.contains (k / 32768) &&
    decide (x.weltOff ≤ 8 * (k % 32768) ∧ 8 * (k % 32768) < x.weltOff + x.weltSize)

/-- The state once the image of each entry of a step is gathered. -/
def imageGathered (s : State) (ctx : Nat) (x : Ctx) (t : Step) : State :=
  t.gmap.zipIdx.foldl (fun a (e, i) => gatherEntry s ctx x t.gmap a i e) s

/-- The state once the homes of a step are zero: the dirty windows and the arrays in the SLM. -/
def homesZeroed (s : State) (x : Ctx) (gmap : List Nat) : State :=
  (gmap.filter fun e => gmKind e == 1).foldl (fun s e => s.storeP (gmLoc e) (List.replicate (8 * gmElems e) 0) false)
    { s with welt := s.welt.filter fun e => !inDirtyWindow x e.1 }

/-- The context once its step is gathered. -/
def gatheredCtx (x : Ctx) (t : Step) : Ctx :=
  { x with step := some { t with gathered := true }, dirty := [], weltLost := false }

section
variable {s : State} {ctx : Nat} {x : Ctx} {t : Step}

theorem imageGathered_frame : (imageGathered s ctx x t).hide 0x4010002270 = s.hide 0x4010002270 :=
  foldl_fr rfl fun a e h => gatherEntry_fr rfl s ctx x t.gmap a e.2 e.1 rfl h

theorem homesZeroed_hide (s : State) (x : Ctx) (gmap : List Nat) : (homesZeroed s x gmap).hide 0x4010000270 =
    ({ s with welt := s.welt.filter fun e => !inDirtyWindow x e.1 } : State).hide 0x4010000270 :=
  foldl_fr rfl fun a _ h => State.storeP_fr rfl a _ _ _ h

theorem gather_of_due (found : s.ctx? ctx = some x) (opened : x.step = some t) (due : t.due = true)
    (waits : t.gathered = false) (free : (x.hot && x.dirty.any fun c => weltHeld s c x.weltOff x.weltSize) = false) :
    gather s ctx =
      ((homesZeroed (imageGathered s ctx x t) x t.gmap).setCtx ctx { x with dirty := [], weltLost := false }).setCtx ctx
        (gatheredCtx x t) := by
  have own : (homesZeroed (imageGathered s ctx x t) x t.gmap).ctx? ctx = some x := by
    refine (State.ctx?_congr ?_ ctx).trans found
    exact (congrArg State.ctxs (homesZeroed_hide (imageGathered s ctx x t) x t.gmap) :).trans
      (congrArg State.ctxs (imageGathered_frame (s := s) (ctx := ctx) (x := x) (t := t)) :)
  have goes : ¬ (!t.due || t.gathered || (x.hot && x.dirty.any fun c => weltHeld s c x.weltOff x.weltSize)) = true := by
    simp [due, waits, free]
  have homes : clearHomes (imageGathered s ctx x t) ctx x t.gmap =
      (homesZeroed (imageGathered s ctx x t) x t.gmap).setCtx ctx { x with dirty := [], weltLost := false } :=
    State.updCtx_eq_setCtx own _
  simp only [gather, found, opened]
  refine (if_neg goes).trans ?_
  refine (congrArg (fun u : State => u.updCtx ctx _) homes).trans ?_
  rw [State.updCtx_eq_setCtx (State.ctx?_setCtx_same ..), opened]
  rfl

theorem gather_frame (s : State) (ctx : Nat) :
    let u := gather s ctx
    u = { s with mem := u.mem, poison := u.poison, od := u.od, cells := u.cells, clusterFlags := u.clusterFlags,
                 welt := u.welt, ctxs := u.ctxs, snaps := u.snaps, cache := u.cache } := by
  have frame := gather_fr (M := 0x4010092270) rfl s ctx rfl
  generalize gather s ctx = u at frame
  cases s
  cases u
  cases frame
  rfl

theorem gather_gathers (found : s.ctx? ctx = some x) (opened : x.step = some t) (due : t.due = true)
    (waits : t.gathered = false) (free : (x.hot && x.dirty.any fun c => weltHeld s c x.weltOff x.weltSize) = false) :
    let u := gather s ctx
    u.ctx? ctx = some (gatheredCtx x t) ∧ OnlyCtx s u ctx ∧ u.welt = s.welt.filter fun e => !inDirtyWindow x e.1 := by
  have zeroed := homesZeroed_hide (imageGathered s ctx x t) x t.gmap
  have image := imageGathered_frame (s := s) (ctx := ctx) (x := x) (t := t)
  rw [gather_of_due found opened due waits free]
  refine ⟨State.ctx?_setCtx_same .., fun k other => ?_, ?_⟩
  · rw [State.ctx?_setCtx_other _ _ _ _ other, State.ctx?_setCtx_other _ _ _ _ other]
    exact State.ctx?_congr ((congrArg State.ctxs zeroed :).trans (congrArg State.ctxs image :)) k
  · have welt : (imageGathered s ctx x t).welt = s.welt := (congrArg State.welt image :)
    rw [← welt]
    exact (congrArg State.welt zeroed :)

end

/-! ### The statement -/

/-- Settles O30: the opening of a step, and its gather, which drops from the Welts the pairs of the dirty windows. -/
theorem trainingStepsOpenAndGather : Obligations.TrainingStepsOpenAndGather := by
  refine ⟨fun s id planes others c x t found _ ctx opcode taken closed ok => ?_, fun s ctx x t so due waits free => ?_⟩
  · rw [exec_stepOpen, stepOpen_of_ok found ctx opcode taken closed ok]
    exact ⟨_, rfl, readmit_stepOpened_frame planes, readmit_stepOpened_opens planes found ctx⟩
  · obtain ⟨hctx, found, opened⟩ := so
    obtain ⟨own, others, welt⟩ := gather_gathers found opened due waits free
    refine ⟨_, exec_gather hctx s, gather_frame s ctx, own, others, fun k clean => ?_, fun k hot dirty low high => ?_⟩
    · have outside : inDirtyWindow x k = false := by rw [inDirtyWindow, clean, Bool.and_false, Bool.false_and]
      rw [welt]
      exact Sp.get_filter_of_true (f := fun k => !inDirtyWindow x k) _ _ (by rw [outside]; rfl)
    · have inside : inDirtyWindow x k = true := by
        rw [inDirtyWindow, hot, dirty, decide_eq_true ⟨low, high⟩]
        rfl
      rw [welt]
      exact Sp.get_filter_of_false (f := fun k => !inDirtyWindow x k) _ _ (by rw [inside]; rfl)

end Sys2Proof.Machine
end

section
/-! Stream descriptors (R160, R275, R285, R289): the next of a queue begins, or waits for its counter. -/
namespace Sys2Proof.Machine

/-- The first item of a slot that is not armed takes a stage other than armed: it is found there with that stage. -/
theorem itemStage_updItem_stage {s : State} {c slot : Nat} {p : Piece} (held : (s.cell c).piece = some p)
    {g : Item → Stage} (unarmed : ∀ j, (g j != .armed) = true) :
    itemStage (updItem s c slot fun j => { j with stage := g j }) c slot =
      (p.items.find? fun j => j.slot == slot && j.stage != .armed).map g := by
  have fits (j : Item) (fit : (j.slot == slot && j.stage != .armed) = true) : (j.slot == slot && g j != .armed) = true := by
    obtain ⟨same, -⟩ := Bool.and_eq_true_iff.mp fit
    rw [same, unarmed, Bool.and_self]
  simp only [itemStage, updItem, State.cell_updPiece_same, held, Option.map_some, Option.bind_some]
  rw [find?_updFirst fits, Option.map_map]
  rfl

/-- A descriptor of no transfers is done as it starts; any other runs. -/
theorem startStage_cases (w : Nat) : startStage w = .running ∨ startStage w = .done := by
  unfold startStage
  split
  · exact .inr rfl
  · exact .inl rfl

/-- A descriptor that starts is not armed. -/
theorem startStage_ne_armed (w : Nat) : (startStage w != .armed) = true := by
  rcases startStage_cases w with h | h <;> rw [h] <;> rfl

/-- A piece once the armed streams of a queue are disarmed (R289). -/
def disarmed (q : Nat) (p : Piece) : Piece :=
  { p with items := p.items.filter fun j => !decide (unitOf j.word = .stream q ∧ j.stage = .armed) }

/-- Does a stream descriptor wait for its counter (R285)? -/
def waitsForCounter (s : State) (d : MoveD) : Bool := d.waitEn && !(s.obj d.waitObj).holds (.ge d.waitValue)

theorem waitsForCounter_iff (s : State) (d : MoveD) :
    waitsForCounter s d = true ↔ d.waitEn = true ∧ (s.obj d.waitObj).holds (.ge d.waitValue) = false := by
  rw [waitsForCounter, Bool.and_eq_true_iff, Bool.not_eq_true']

/-- The counter of a stream descriptor that has joined those that wait for it (R285). -/
def joinedCounter (s : State) (c q : Nat) (p : Piece) (d : MoveD) : SyncObj :=
  { s.obj d.waitObj with
    waiters := (s.obj d.waitObj).waiters ++ [{ cell := c, unit := q, piece := p.seq, wait := .ge d.waitValue }] }

/-- The state in which the descriptor of a slot waits for its counter. -/
def startedWaiting (s : State) (c q slot : Nat) (p : Piece) (d : MoveD) : State :=
  updItem ((s.updPiece c (disarmed q)).setObj d.waitObj (joinedCounter s c q p d)) c slot
    fun j => { j with stage := .waiting }

/-- The state in which the descriptor of a slot has begun. -/
def startedRunning (s : State) (c q slot : Nat) : State :=
  updItem (s.updPiece c (disarmed q)) c slot fun j => { j with stage := startStage j.word }

section
variable {s : State} {c q : Nat} {p : Piece} {i : Item}

theorem streamStart_eq {is : Item → Bool} (hp : s.pieceOf c = some p) (next : queueNext p q = some i)
    (kind : is i = true) (idle : queueBusy p q = false)
    (reads : readsFree s p i.slot (MoveD.ofWord i.word).reads = true)
    (writes : writesFree s p i.slot (MoveD.ofWord i.word).writes = true) :
    streamStart s c q is =
      if waitsForCounter s (MoveD.ofWord i.word) then startedWaiting s c q i.slot p (MoveD.ofWord i.word)
      else startedRunning s c q i.slot := by
  simp only [streamStart, hp, next, kind, idle, reads, writes]
  rfl

/-- R275: the next descriptor of a queue is queued, and stays in the piece when the armed ones of the queue leave. -/
theorem find?_disarmed_isSome (next : queueNext p q = some i) :
    ((disarmed q p).items.find? fun j => j.slot == i.slot && j.stage != .armed).isSome = true := by
  have queued := List.find?_some next
  simp only [decide_eq_true_eq] at queued
  obtain ⟨-, queued⟩ := queued
  rw [List.find?_isSome]
  refine ⟨i, List.mem_filter.mpr ⟨List.mem_of_find?_eq_some next, ?_⟩, ?_⟩ <;> simp [queued]

theorem piece_disarmed (hp : s.pieceOf c = some p) : ((s.updPiece c (disarmed q)).cell c).piece = some (disarmed q p) := by
  rw [State.cell_updPiece_same, State.piece_of_pieceOf hp]
  rfl

theorem itemStage_startedWaiting (hp : s.pieceOf c = some p) (next : queueNext p q = some i) (d : MoveD) :
    itemStage (startedWaiting s c q i.slot p d) c i.slot = some .waiting := by
  have held : (((s.updPiece c (disarmed q)).setObj d.waitObj (joinedCounter s c q p d)).cell c).piece =
      some (disarmed q p) := piece_disarmed hp
  obtain ⟨j, found⟩ := Option.isSome_iff_exists.mp (find?_disarmed_isSome next)
  rw [startedWaiting, itemStage_updItem_stage held fun _ => rfl, found]
  rfl

theorem itemStage_startedRunning (hp : s.pieceOf c = some p) (next : queueNext p q = some i) :
    itemStage (startedRunning s c q i.slot) c i.slot = some .running ∨
      itemStage (startedRunning s c q i.slot) c i.slot = some .done := by
  obtain ⟨j, found⟩ := Option.isSome_iff_exists.mp (find?_disarmed_isSome next)
  rw [startedRunning, itemStage_updItem_stage (piece_disarmed hp) fun j => startStage_ne_armed j.word, found]
  exact (startStage_cases j.word).imp (congrArg some) (congrArg some)

theorem cell_startedWaiting_other {e : Nat} (h : e ≠ c) (slot : Nat) (d : MoveD) :
    (startedWaiting s c q slot p d).cell e = s.cell e :=
  (cell_updItem_other _ _ _ _ _ h).trans (State.cell_updPiece_other s _ _ _ h)

theorem cell_startedRunning_other {e : Nat} (h : e ≠ c) (slot : Nat) :
    (startedRunning s c q slot).cell e = s.cell e :=
  (cell_updItem_other _ _ _ _ _ h).trans (State.cell_updPiece_other _ _ _ _ h)

theorem obj_startedWaiting_same (slot : Nat) (d : MoveD) :
    (startedWaiting s c q slot p d).obj d.waitObj = joinedCounter s c q p d :=
  State.obj_setObj_same _ _ _

theorem obj_startedWaiting_other {k : Nat} (slot : Nat) {d : MoveD} (h : k ≠ d.waitObj) :
    (startedWaiting s c q slot p d).obj k = s.obj k :=
  State.obj_setObj_other (s.updPiece c (disarmed q)) _ _ _ h

end

/-- Each stream opcode starts the queue's next descriptor where it has the form that selects the opcode. -/
theorem exec_streamRow {row : (Item → Bool) × (Nat → Nat → Instr)} (hr : row ∈ streamRows) {s : State} {c : Nat}
    (hc : c < cellCount) (q : Nat) : exec (row.2 c q) s = .next (streamStart s c q row.1) := by
  have next : onCell c s (fun s => streamStart s c q row.1) = .next (streamStart s c q row.1) := if_pos hc
  simp only [streamRows, List.mem_cons, List.not_mem_nil, or_false] at hr
  rcases hr with rfl | rfl | rfl | rfl | rfl <;> exact next

/-- Settles O26: the descriptor waits or begins, as its counter says. -/
theorem streamDescriptorsStart : Obligations.StreamDescriptorsStart := by
  intro row hr s c q p i hc hp next kind idle reads writes d
  rw [exec_streamRow hr hc, streamStart_eq hp next kind idle reads writes]
  by_cases waits : d.waitEn = true ∧ (s.obj d.waitObj).holds (.ge d.waitValue) = false
  case pos =>
    rw [if_pos ((waitsForCounter_iff s d).mpr waits)]
    refine ⟨_, rfl, rfl, fun e he => cell_startedWaiting_other he _ _, ?_⟩
    rw [if_pos waits]
    exact ⟨itemStage_startedWaiting hp next d, congrArg SyncObj.waiters (obj_startedWaiting_same i.slot d),
      fun k => obj_startedWaiting_other i.slot⟩
  case neg =>
    rw [if_neg (waits ∘ (waitsForCounter_iff s d).mp)]
    refine ⟨_, rfl, rfl, fun e he => cell_startedRunning_other he _, ?_⟩
    rw [if_neg waits]
    exact ⟨rfl, itemStage_startedRunning hp next⟩

end Sys2Proof.Machine
end

section
/-! Transfers (R276, R310, R312): one that is issued loads stack memory, and the load can evict a line. -/
namespace Sys2Proof.Machine

theorem exec_transferIssue {s : State} {c : Nat} (h : c < cellCount) :
    exec (.transferIssue c) s = .next (transferIssue s c) :=
  if_pos h

/-- COPY of 32 bytes at address 0, in stack memory, to the scratchpad of cell 0, on queue 0. -/
def copyFromStackWord : Nat := ofFields [(0, 0x40), (32, 1), (64, 32), (96, 1), (192, spOf 0), (256, 32), (288, 32)]

/-- That descriptor once it has begun, with no transfer issued yet. -/
def begunCopy : Item := { queuedItem copyFromStackWord with stage := .running }

/-- A running piece with that descriptor. -/
def pieceOfBegunCopy : Piece := { pieceOfOne copyFromStackWord with items := [begunCopy] }

/-- The module of `cachesSectorEight`, with that piece on cell 0. -/
def issuesFromStack : State :=
  { cachesSectorEight with cells := [(0, { Cell.init with piece := some pieceOfBegunCopy })] }

/-- The descriptor passes the checks at its hand-out. -/
theorem copyFromStackWord_checked :
    checkDesc cachesSectorEight 0 (pieceOfOne copyFromStackWord) copyFromStackWord = none := by
  decide +kernel

/-- Queue 0 is served next, with the first transfer of the descriptor: the 32 bytes of row 0. -/
theorem issuesFromStack_ready :
    issuesFromStack.pieceOf 0 = some pieceOfBegunCopy ∧
      nextQueue issuesFromStack (issuesFromStack.cell 0) pieceOfBegunCopy = some (0, begunCopy) ∧
      xferAt (MoveD.ofWord begunCopy.word) (MoveD.ofWord begunCopy.word).rowCount 0 begunCopy.issued = some (0, (0, 32)) := by
  decide +kernel

/-- Before the issue the byte of `sectorEightAddr` reads zero, and no snapshot stages copies. -/
theorem issuesFromStack_before : issuesFromStack.byte sectorEightAddr = 0 ∧ issuesFromStack.snaps = [] :=
  ⟨rfl, rfl⟩

/-- The transfer's load misses and evicts `lineOfSectorEight`: the byte reads 1. -/
theorem issuesFromStack_after :
    (transferIssue issuesFromStack 0).byte sectorEightAddr = 1 ∧
      (transferIssue issuesFromStack 0).poisonAt sectorEightAddr = false := by
  decide +kernel

/-- The issue changes a byte, and none of the cases that `SameBytes` allows explains it. -/
theorem not_sameBytes_issuesFromStack : ¬ SameBytes issuesFromStack (transferIssue issuesFromStack 0) [] := by
  obtain ⟨zero, snaps⟩ := issuesFromStack_before
  obtain ⟨one, clean⟩ := issuesFromStack_after
  refine not_sameBytes_of_byte_ne (a := sectorEightAddr) (by simp) (by simp [snaps]) cachesSectorEight_lines clean ?_
  rw [one, zero]
  decide

/-- Refutes O27: its first clause, that an issue changes no memory, at a state whose cache holds a channel's word listed
for a ninth sector of a line (as for O28). The transfer loads stack memory, and the load evicts that line. The statement
takes every state, and asks nothing of the cache's form. -/
theorem not_transfersIssueAndLand : ¬ Obligations.TransfersIssueAndLand := by
  rintro ⟨issues, -⟩
  have exists_cell : 0 < cellCount := by decide
  obtain ⟨held, next, transfer⟩ := issuesFromStack_ready
  obtain ⟨t, n, run, -, -, -, -, -, -, -, -, -, same, -⟩ := issues _ _ _ _ _ _ _ exists_cell held next transfer
  rw [exec_transferIssue exists_cell] at run
  cases run
  exact not_sameBytes_issuesFromStack same

end Sys2Proof.Machine
end

section
/-! The dictionary after a counter grows and after the event log takes a record (R504). -/
namespace Sys2Proof.Machine

namespace State

theorem odGet_congr {s t : State} (h : t.od = s.od) (i j : Nat) : t.odGet i j = s.odGet i j := by
  rw [odGet, odGet, h]

theorem odGet_odAdd_other (s : State) (i j k l n : Nat) (h : Od.key k l ≠ Od.key i j) :
    (s.odAdd i j n).odGet k l = s.odGet k l :=
  odGet_odSet_other s i j k l _ h

/-- From a frame of the dictionary: the rest of the state, in one equation. -/
theorem eq_of_hide_od {s t : State} (h : t.hide 0x40 = s.hide 0x40) : t = { s with od := t.od } := by
  cases s
  cases t
  cases h
  rfl

end State

section
variable (s : State) (e : EventCode) (kind source d0 d1 : Nat)

/-- A record of the log changes the log's own entries alone: 0x8090, and 0xA000 to 0xAFFF. -/
theorem odGet_logEvent_other {i j : Nat} (count : i ≠ 0x8090) (below : i < 0xA000) (sub : j < 256) :
    (logEvent s e kind source d0 d1).odGet i j = s.odGet i j := by
  unfold logEvent
  dsimp only
  rw [State.odGet_odAdd_other, State.odGet_odSet_other]
  · split
    · exact State.odGet_odAdd_other _ _ _ _ _ _ (by unfold Od.key; omega)
    · rfl
  · unfold Od.key
    omega
  · unfold Od.key
    omega

/-- The records of the log are counted in 0x8090:00. -/
theorem odGet_logEvent_count :
    (logEvent s e kind source d0 d1).odGet 0x8090 0 = min (2 ^ 64 - 1) (s.odGet 0x8090 0 + 1) := by
  unfold logEvent
  dsimp only
  rw [State.odGet_odAdd_same, State.odGet_odSet_other]
  · split
    · rw [State.odGet_odAdd_other _ _ _ _ _ _ (by decide)]
    · rfl
  · unfold Od.key
    omega

end

end Sys2Proof.Machine
end

section
/-! A read of a sector with symbol errors (R318 to R322, R542): what it stores, and what it counts. -/
namespace Sys2Proof.Machine

/-! ### What the code delivers is a sector -/

namespace Ecc.Read

/-- The data that the memory holds after a read: zeros in the poison form (R320). -/
def kept : Read → List Nat
  | .clean d | .corrected d => d
  | .poisonForm | .uncorrectable _ => List.replicate 32 0

/-- Does the memory hold the poison form after a read (R320)? -/
def poisons : Read → Bool
  | .clean _ | .corrected _ => false
  | .poisonForm | .uncorrectable _ => true

theorem length_kept_read (w : List Nat) : (read w).kept.length ≤ 32 := by
  unfold read
  split
  case isTrue => simp [kept]
  case isFalse =>
    split
    case isTrue => exact List.length_take_le 32 w
    case isFalse =>
      split
      case h_1 es _ => exact List.length_take_le 32 (flip w es)
      case h_2 => simp [kept]

end Ecc.Read

/-- A read of a sector is counted, and its row seen to, where it was corrected or could not be (R322, R542). -/
def noteRead (s : State) (a test : Nat) (p : EccPlace) : Ecc.Read → State
  | .clean _ | .poisonForm => s
  | .corrected _ => noteSector s a test false p
  | .uncorrectable _ => noteSector s a test true p

/-- A read of a sector stores what the code makes of it, and notes it. -/
theorem sectorReadAt_eq (s : State) (a test : Nat) (errs : List (Nat × Nat)) (p : EccPlace) :
    let r := Ecc.read (Ecc.flip (Ecc.stored (s.poisonAt a) (sectorData s a)) errs)
    (sectorReadAt s a test errs p).s = noteRead (putSector s a r.kept r.poisons) a test p r := by
  dsimp only
  unfold sectorReadAt
  generalize Ecc.read _ = r
  cases r <;> rfl

theorem underAfter_eq (l : CacheLine) (u : Under) (r : Ecc.Read) :
    underAfter l u r = l.setUnder { u with data := r.kept, poison := r.poisons } := by
  cases r <;> rfl

/-! ### Notes change the dictionary, the rows counted and the flash alone -/

theorem noteRead_frame (s : State) (a test : Nat) (p : EccPlace) (r : Ecc.Read) :
    (noteRead s a test p r).hide 0x2010000000040 = s.hide 0x2010000000040 := by
  cases r with
  | clean | poisonForm => rfl
  | corrected => exact noteSector_fr rfl s a test false p rfl
  | uncorrectable => exact noteSector_fr rfl s a test true p rfl

theorem poisonAt_noteRead (s : State) (a test : Nat) (p : EccPlace) (r : Ecc.Read) (x : Nat) :
    (noteRead s a test p r).poisonAt x = s.poisonAt x := by
  have poison : (noteRead s a test p r).poison = s.poison := (congrArg State.poison (noteRead_frame s a test p r) :)
  rw [State.poisonAt, State.poisonAt, poison]

/-! ### Counters of the stacks -/

section
variable {i j : Nat}

/-- A failure record changes 0x7023, 0x7024 and the log's entries alone. -/
theorem odGet_keepRecord_other (s : State) (f : Fail) (word : Nat) (above : 0x7024 < i) (below : i < 0x8090)
    (sub : j < 256) : (keepRecord s f word).odGet i j = s.odGet i j := by
  unfold keepRecord
  dsimp only
  rw [odGet_logEvent_other _ _ _ _ _ _ (by omega) (by omega) sub]
  refine (State.odGet_congr (s := (s.odSet _ _ _).odAdd _ _ _) rfl i j).trans ?_
  rw [State.odGet_odAdd_other, State.odGet_odSet_other]
  · unfold Od.key
    omega
  · unfold Od.key
    omega

theorem listRepair_od (s : State) (f : Fail) (test : Nat) (confirmed : Bool) :
    (listRepair s f test confirmed).od = (keepRecord s f (failRecord s f test 6 0 confirmed)).od := by
  unfold listRepair
  dsimp only

theorem odGet_noteRow_other (s : State) (a test : Nat) (bad : Bool) (p : EccPlace) (above : 0x7024 < i)
    (below : i < 0x8090) (sub : j < 256) : (noteRow s a test bad p).odGet i j = s.odGet i j := by
  have listed (t : State) (f : Fail) (confirmed : Bool) : (listRepair t f test confirmed).odGet i j = t.odGet i j :=
    (State.odGet_congr (listRepair_od t f test confirmed) i j).trans (odGet_keepRecord_other t f _ above below sub)
  unfold noteRow
  dsimp only
  split
  · rfl
  · split
    · exact listed _ _ _
    · split
      · exact listed _ _ _
      · rfl

end

section
variable (s : State) (a test : Nat) {k : Nat} (ch cla : Nat)

/-- R322: a sector of a stack that is corrected is counted in 0x8050 of its stack. -/
theorem odGet_noteSector_corrected (hk : k < 12) :
    (noteSector s a test false (.stack k ch cla)).odGet 0x8050 (k + 1) =
      min (2 ^ 64 - 1) (s.odGet 0x8050 (k + 1) + 1) := by
  rw [noteSector, odGet_noteRow_other _ _ _ _ _ (by decide) (by decide) (by omega)]
  exact State.odGet_odAdd_same s 0x8050 (k + 1) 1

/-- R322: one that cannot be corrected is counted in 0x8051. -/
theorem odGet_noteSector_uncorrectable (hk : k < 12) :
    (noteSector s a test true (.stack k ch cla)).odGet 0x8051 (k + 1) =
      min (2 ^ 64 - 1) (s.odGet 0x8051 (k + 1) + 1) := by
  rw [noteSector, odGet_noteRow_other _ _ _ _ _ (by decide) (by decide) (by omega)]
  exact (odGet_logEvent_other _ _ _ _ _ _ (by decide) (by decide) (by omega)).trans
    (State.odGet_odAdd_same s 0x8051 (k + 1) 1)

end

/-! ### A sector written back -/

theorem mem_insSorted {m n : Nat} {l : List Nat} : m ∈ insSorted n l ↔ m = n ∨ m ∈ l := by
  induction l with
  | nil => simp [insSorted]
  | cons x l ih =>
    unfold insSorted
    split
    · exact List.mem_cons
    · split
      · next same => simp [same]
      · rw [List.mem_cons, ih, List.mem_cons]
        exact or_left_comm

theorem State.get_mem_wrBytes_other (s : State) (a x : Nat) (bs : List Byte) (h : x < a ∨ a + bs.length ≤ x) :
    Sp.get (0 : Byte) (s.wrBytes a bs).mem x = Sp.get (0 : Byte) s.mem x := by
  induction bs generalizing s a with
  | nil => rfl
  | cons b bs ih =>
    rw [List.length_cons] at h
    exact (ih (s.wrByte a b) (a + 1) (by omega)).trans (Sp.get_set_other _ _ _ _ _ (by omega))

theorem State.wrBytes_poison (s : State) (a : Nat) (bs : List Byte) : (s.wrBytes a bs).poison = s.poison :=
  (congrArg State.poison (State.wrBytes_fr (M := 0x10) rfl s a bs rfl) :)

section
variable (s : State) (a : Nat) (d : List Nat) (bad : Bool)

theorem putSector_poison :
    (putSector s a d bad).poison =
      if bad then insSorted (a / 32) s.poison else s.poison.filter (· != a / 32) := by
  have sector : a / 32 * 32 / 32 = a / 32 := Nat.mul_div_cancel _ (by decide)
  unfold putSector
  cases bad <;> simp [State.addPoison, State.wrBytes_poison, sector]

/-- R320: a sector holds the poison form after it is stored so, and only then. -/
theorem poisonAt_putSector_same : (putSector s a d bad).poisonAt a = bad := by
  rw [State.poisonAt, putSector_poison]
  cases bad <;> simp [mem_insSorted]

theorem poisonAt_putSector_other {x : Nat} (h : x / 32 ≠ a / 32) :
    (putSector s a d bad).poisonAt x = s.poisonAt x := by
  rw [State.poisonAt, State.poisonAt, putSector_poison, Bool.eq_iff_iff]
  cases bad <;> simp [mem_insSorted, h]

variable {s a d bad}

/-- From a frame that leaves cells, contexts and job: what is undefined stays so (R406). -/
theorem undefAt_of_frame {u : State} (h : u.hide 0x2010000000070 = s.hide 0x2010000000070) (x : Nat) :
    u.undefAt x = s.undefAt x := by
  cases s
  cases u
  cases h
  rfl

theorem byte_putSector_other (hd : d.length ≤ 32) {x : Nat} (h : x / 32 ≠ a / 32) :
    (putSector s a d bad).byte x = s.byte x := by
  have undef : (putSector s a d bad).undefAt x = s.undefAt x := undefAt_of_frame (putSector_fr rfl s a d bad rfl) x
  have bytes : Sp.get (0 : Byte) (putSector s a d bad).mem x = Sp.get (0 : Byte) s.mem x := by
    have written : (putSector s a d bad).mem = (s.wrBytes (a / 32 * 32) (d.map (BitVec.ofNat 8))).mem := by
      unfold putSector
      cases bad <;> rfl
    rw [written]
    exact State.get_mem_wrBytes_other _ _ _ _ (by rw [List.length_map]; omega)
  rw [State.byte, State.byte, poisonAt_putSector_other s a d bad h, undef, bytes]

end

end Sys2Proof.Machine
end

section
/-! The patrol (R323, R325): a read of the channel's own word, in the memory or beneath a line of the cache. -/
namespace Sys2Proof.Machine

/-! ### The word beneath a line -/

namespace CacheLine

theorem beneath_setUnder (l : CacheLine) (u : Under) : (l.setUnder u).beneath u.sector = some u := by
  simp [setUnder, beneath]

theorem sector_of_beneath {l : CacheLine} {k : Nat} {u : Under} (h : l.beneath k = some u) : u.sector = k := by
  simpa using List.find?_some h

theorem line_keepUnder (l : CacheLine) (s : State) (k : Nat) : (l.keepUnder s k).line = l.line := by
  unfold keepUnder
  split <;> rfl

end CacheLine

theorem cacheLine_of_cachedSector {s : State} {a : Nat} {l : CacheLine} (h : cachedSector s a = some l) :
    cacheLine s a = some l := by
  unfold cachedSector at h
  split at h
  · cases h
  · exact (Option.filter_eq_some_iff.mp h).1

/-- A line that is replaced is found in the place of the one found before. -/
theorem cacheLine_putLine {s : State} {a : Nat} {l x : CacheLine} (found : cacheLine s a = some x)
    (same : l.line = x.line) : cacheLine (putLine s a l) a = some l := by
  have set : cacheSet (putLine s a l) a = (cacheSet s a).map fun y => if y.line = l.line then l else y :=
    Sp.get_set_same _ _ _ _
  have lines (y : CacheLine) : (if y.line = l.line then l else y).line = y.line := by
    split
    · next h => exact h.symm
    · rfl
  rw [cacheLine, set, List.find?_map]
  simp only [Function.comp_def, lines]
  rw [cacheLine] at found
  rw [found, Option.map_some, if_pos same.symm]

/-! ### Reads of the channel's word -/

section
variable {s : State} {a : Nat} {errs : List (Nat × Nat)} {p : EccPlace}

theorem channelRead_of_uncached (test : Nat) (place : eccPlace s a = some p) (hit : errs ≠ [])
    (miss : cachedSector s a = none) : channelRead s a test errs = (sectorReadAt s a test errs p).s := by
  obtain ⟨e, es, rfl⟩ := List.exists_cons_of_ne_nil hit
  simp only [channelRead, place, miss]

/-- Beneath a line, what the code makes of the word stays with the line, and is noted (R312, R323). -/
theorem channelRead_of_cached (test : Nat) {l : CacheLine} {u : Under} (place : eccPlace s a = some p) (hit : errs ≠ [])
    (found : cachedSector s a = some l) (under : (l.keepUnder s (a / 32 % 8)).beneath (a / 32 % 8) = some u) :
    let r := Ecc.read (Ecc.flip (Ecc.stored u.poison u.data) errs)
    channelRead s a test errs = noteRead (putLine s a (underAfter (l.keepUnder s (a / 32 % 8)) u r)) a test p r := by
  obtain ⟨e, es, rfl⟩ := List.exists_cons_of_ne_nil hit
  simp only [channelRead, place, found, under]
  generalize Ecc.read _ = r
  cases r <;> rfl

end

/-- The address that a patrol read of a stack means: a channel-local one is one of that stack (log 117). -/
def patrolAddr (k a : Nat) : Nat :=
  if channelBase ≤ a then channelBase + k * 2 ^ 36 + (a - channelBase) % 2 ^ 36 else a

section
variable {s : State} {k a : Nat} {errs : List (Nat × Nat)}

theorem patrolRead_of_stack {ch cla : Nat} (place : eccPlace s (patrolAddr k a) = some (.stack k ch cla))
    (serves : (Sp.get StackSt.init s.stackSts k).level ≠ 3) :
    patrolRead s k a errs = channelRead s (patrolAddr k a) 2 errs := by
  rw [patrolAddr] at place ⊢
  simp only [patrolRead, place, ne_eq, not_true_eq_false, false_or, if_neg serves]

theorem channelRead_nil (s : State) (a test : Nat) : channelRead s a test [] = s := by
  unfold channelRead
  cases eccPlace s a <;> rfl

/-- R325: a sector of another memory is not read, nor is one of a stack at level 3; a word without errors stays. -/
theorem patrolRead_eq_self (h : (∀ ch cla, eccPlace s (patrolAddr k a) ≠ some (.stack k ch cla)) ∨
    (Sp.get StackSt.init s.stackSts k).level = 3 ∨ errs = []) : patrolRead s k a errs = s := by
  unfold patrolRead
  dsimp only
  split
  case h_1 k' ch cla place =>
    split
    case isTrue => rfl
    case isFalse reads =>
      obtain ⟨own, serves⟩ := not_or.mp reads
      obtain rfl := Decidable.of_not_not own
      rcases h with none | level | rfl
      · exact absurd place (none ch cla)
      · exact absurd level serves
      · exact channelRead_nil s _ 2
  case h_2 => rfl

end

/-! ### The end of a patrol interval (R323) -/

/-- The rows counted with a stack's patrol: those of its channels, and with stack 0 those of the chip (log 144). -/
abbrev patrolRow (k key : Nat) : Prop :=
  (key / 2 ^ 64 = 0x0A ∧ fld (key / 2 ^ 48) 15 12 = k) ∨ (key / 2 ^ 64 ≠ 0x0A ∧ k = 0)

/-- The state once the interval of a stack has ended, where it has. -/
def intervalEnded (k : Nat) (wrap : Bool) (s : State) : State :=
  if wrap then { s with rowCorrections := s.rowCorrections.filter fun e => !decide (patrolRow k e.1) } else s

theorem intervalEnded_eq (k : Nat) (wrap : Bool) (s : State) :
    intervalEnded k wrap s = { s with rowCorrections := (intervalEnded k wrap s).rowCorrections } := by
  cases wrap <;> rfl

theorem not_patrolRow_of_mem {k : Nat} {s : State} {e : Nat × Nat} (h : e ∈ (intervalEnded k true s).rowCorrections) :
    ¬ patrolRow k e.1 := by
  obtain ⟨-, kept⟩ := List.mem_filter.mp h
  exact of_decide_eq_false ((Bool.not_eq_true' _).mp kept)

theorem exec_patrolScrub {k : Nat} (h : k < 12) (a : Nat) (errs : List (Nat × Nat)) (wrap : Bool) (s : State) :
    exec (.patrolScrub k a errs wrap) s = .next (intervalEnded k wrap (patrolRead s k a errs)) :=
  if_pos h

namespace State

/-- From the frame of a sector read in place: the rest of the state, in one equation. -/
theorem eq_of_hide_sectorRead {s t : State} (h : t.hide 0x2010000000070 = s.hide 0x2010000000070) :
    t = { s with mem := t.mem, poison := t.poison, od := t.od, rowCorrections := t.rowCorrections, flash := t.flash } := by
  cases s
  cases t
  cases h
  rfl

/-- From the frame of a read beneath a line: the rest of the state, in one equation. -/
theorem eq_of_hide_lineRead {s t : State} (h : t.hide 0x2014000000040 = s.hide 0x2014000000040) :
    t = { s with od := t.od, cache := t.cache, rowCorrections := t.rowCorrections, flash := t.flash } := by
  cases s
  cases t
  cases h
  rfl

end State

/-! ### The word of the channel once it is stored: the read is noted, and the interval may end -/

/-- The state once the patrol of a stack has noted its read of a sector, whose word is stored in u. -/
def patrolled (u : State) (b k ch cla : Nat) (r : Ecc.Read) (wrap : Bool) : State :=
  intervalEnded k wrap (noteRead u b 2 (.stack k ch cla) r)

section
variable (u : State) (b k ch cla : Nat) (r : Ecc.Read) (wrap : Bool)

theorem patrolled_frame : (patrolled u b k ch cla r wrap).hide 0x2010000000040 = u.hide 0x2010000000040 := by
  rw [patrolled, intervalEnded_eq, State.hide_rowCorrections rfl]
  exact noteRead_frame u b 2 (.stack k ch cla) r

theorem poisonAt_patrolled (x : Nat) : (patrolled u b k ch cla r wrap).poisonAt x = u.poisonAt x := by
  rw [patrolled, intervalEnded_eq]
  exact poisonAt_noteRead u b 2 (.stack k ch cla) r x

theorem odGet_patrolled (i j : Nat) :
    (patrolled u b k ch cla r wrap).odGet i j = (noteRead u b 2 (.stack k ch cla) r).odGet i j := by
  rw [patrolled, intervalEnded_eq]
  exact State.odGet_congr rfl i j

theorem byte_patrolled (x : Nat) : (patrolled u b k ch cla r wrap).byte x = u.byte x := by
  have frame := patrolled_frame u b k ch cla r wrap
  have undef := undefAt_of_frame (State.hide_mono rfl frame) x
  have mem : (patrolled u b k ch cla r wrap).mem = u.mem := (congrArg State.mem frame :)
  rw [State.byte, State.byte, poisonAt_patrolled, undef, mem]

theorem cacheLine_patrolled (x : Nat) : cacheLine (patrolled u b k ch cla r wrap) x = cacheLine u x := by
  have frame := patrolled_frame u b k ch cla r wrap
  generalize patrolled u b k ch cla r wrap = t at frame
  cases u
  cases t
  cases frame
  rfl

variable {k r}

theorem odGet_patrolled_corrected (hk : k < 12) {d : List Nat} (h : r = .corrected d) :
    (patrolled u b k ch cla r wrap).odGet 0x8050 (k + 1) = min (2 ^ 64 - 1) (u.odGet 0x8050 (k + 1) + 1) := by
  rw [odGet_patrolled, h]
  exact odGet_noteSector_corrected u b 2 ch cla hk

theorem odGet_patrolled_uncorrectable (hk : k < 12) {d : List Nat} (h : r = .uncorrectable d) :
    (patrolled u b k ch cla r wrap).odGet 0x8051 (k + 1) = min (2 ^ 64 - 1) (u.odGet 0x8051 (k + 1) + 1) := by
  rw [odGet_patrolled, h]
  exact odGet_noteSector_uncorrectable u b 2 ch cla hk

end

/-! ### The two places of the word -/

theorem putSector_od (s : State) (a : Nat) (d : List Nat) (bad : Bool) : (putSector s a d bad).od = s.od :=
  (congrArg State.od (putSector_fr (M := 0x30) rfl s a d bad rfl) :)

section
variable {s : State} {k a ch cla : Nat} {errs : List (Nat × Nat)}

/-- Beneath no copy: the word is in the memory, and is stored there. -/
theorem patrolRead_of_uncached (place : eccPlace s (patrolAddr k a) = some (.stack k ch cla))
    (serves : (Sp.get StackSt.init s.stackSts k).level ≠ 3) (hit : errs ≠ [])
    (miss : cachedSector s (patrolAddr k a) = none) :
    let b := patrolAddr k a
    let r := Ecc.read (Ecc.flip (Ecc.stored (s.poisonAt b) (sectorData s b)) errs)
    patrolRead s k a errs = noteRead (putSector s b r.kept r.poisons) b 2 (.stack k ch cla) r := by
  rw [patrolRead_of_stack place serves, channelRead_of_uncached 2 place hit miss]
  exact sectorReadAt_eq s _ 2 errs _

/-- Beneath a copy of the cache: the word stays with the line. -/
theorem patrolRead_of_cached (place : eccPlace s (patrolAddr k a) = some (.stack k ch cla))
    (serves : (Sp.get StackSt.init s.stackSts k).level ≠ 3) (hit : errs ≠ []) {l : CacheLine} {u : Under}
    (found : cachedSector s (patrolAddr k a) = some l)
    (under : (l.keepUnder s (patrolAddr k a / 32 % 8)).beneath (patrolAddr k a / 32 % 8) = some u) :
    let b := patrolAddr k a
    let r := Ecc.read (Ecc.flip (Ecc.stored u.poison u.data) errs)
    patrolRead s k a errs =
      noteRead (putLine s b (underAfter (l.keepUnder s (b / 32 % 8)) u r)) b 2 (.stack k ch cla) r :=
  (patrolRead_of_stack place serves).trans (channelRead_of_cached 2 place hit found under)

end

section
variable (s : State) {b k : Nat} (ch cla : Nat) (wrap : Bool) {r : Ecc.Read}

/-- A sector in the memory: no byte outside it changes. -/
theorem sameBytes_patrolled_putSector (sector : r.kept.length ≤ 32) :
    SameBytes s (patrolled (putSector s b r.kept r.poisons) b k ch cla r wrap) [(b / 32 * 32, 32)] := by
  intro x uncovered _
  have outside : x / 32 ≠ b / 32 := by
    simp only [List.mem_singleton, exists_eq_left, covered] at uncovered
    omega
  exact .inl ((byte_patrolled _ b k ch cla r wrap x).trans (byte_putSector_other sector outside))

/-- The read of a sector in the memory, where the code has made r of it. -/
theorem patrolled_putSector (hk : k < 12) (sector : r.kept.length ≤ 32) :
    let t := patrolled (putSector s b r.kept r.poisons) b k ch cla r wrap
    t = { s with mem := t.mem, poison := t.poison, od := t.od, rowCorrections := t.rowCorrections, flash := t.flash } ∧
      SameBytes s t [(b / 32 * 32, 32)] ∧
      (∀ d, r = .corrected d →
        t.odGet 0x8050 (k + 1) = min (2 ^ 64 - 1) (s.odGet 0x8050 (k + 1) + 1) ∧ t.poisonAt b = false) ∧
      (∀ d, r = .uncorrectable d →
        t.odGet 0x8051 (k + 1) = min (2 ^ 64 - 1) (s.odGet 0x8051 (k + 1) + 1) ∧ t.poisonAt b = true) := by
  intro t
  have frame : t.hide 0x2010000000070 = s.hide 0x2010000000070 :=
    (State.hide_mono rfl (patrolled_frame _ b k ch cla r wrap)).trans (putSector_fr rfl s b _ _ rfl)
  have od (i j : Nat) : (putSector s b r.kept r.poisons).odGet i j = s.odGet i j :=
    State.odGet_congr (putSector_od s b _ _) i j
  have poison : t.poisonAt b = r.poisons :=
    (poisonAt_patrolled _ b k ch cla r wrap b).trans (poisonAt_putSector_same s b _ _)
  refine ⟨State.eq_of_hide_sectorRead frame, sameBytes_patrolled_putSector s ch cla wrap sector,
    fun d corrected => ⟨?_, ?_⟩, fun d lost => ⟨?_, ?_⟩⟩
  · rw [← od, odGet_patrolled_corrected _ b ch cla wrap hk corrected]
  · rw [poison, corrected]
    rfl
  · rw [← od, odGet_patrolled_uncorrectable _ b ch cla wrap hk lost]
  · rw [poison, lost]
    rfl

/-- A sector beneath a line: the line keeps its word in the form that the read leaves it. -/
theorem poison_beneath_patrolled_putLine {l : CacheLine} {u : Under} (found : cachedSector s b = some l)
    (under : (l.keepUnder s (b / 32 % 8)).beneath (b / 32 % 8) = some u) :
    ((cacheLine (patrolled (putLine s b (underAfter (l.keepUnder s (b / 32 % 8)) u r)) b k ch cla r wrap) b).bind
      (·.beneath (b / 32 % 8))).map (·.poison) = some r.poisons := by
  have line : (underAfter (l.keepUnder s (b / 32 % 8)) u r).line = l.line := by
    rw [underAfter_eq]
    exact CacheLine.line_keepUnder l s _
  have word : (underAfter (l.keepUnder s (b / 32 % 8)) u r).beneath (b / 32 % 8) =
      some { u with data := r.kept, poison := r.poisons } := by
    rw [underAfter_eq, ← CacheLine.sector_of_beneath under]
    exact CacheLine.beneath_setUnder _ { u with data := r.kept, poison := r.poisons }
  rw [cacheLine_patrolled, cacheLine_putLine (cacheLine_of_cachedSector found) line, Option.bind_some, word]
  rfl

/-- The read of a word that stays with a line, where the code has made r of it. -/
theorem patrolled_putLine (hk : k < 12) {l : CacheLine} {u : Under} (found : cachedSector s b = some l)
    (under : (l.keepUnder s (b / 32 % 8)).beneath (b / 32 % 8) = some u) :
    let t := patrolled (putLine s b (underAfter (l.keepUnder s (b / 32 % 8)) u r)) b k ch cla r wrap
    t = { s with od := t.od, cache := t.cache, rowCorrections := t.rowCorrections, flash := t.flash } ∧
      (∀ d, r = .corrected d → t.odGet 0x8050 (k + 1) = min (2 ^ 64 - 1) (s.odGet 0x8050 (k + 1) + 1)) ∧
      (∀ d, r = .uncorrectable d → t.odGet 0x8051 (k + 1) = min (2 ^ 64 - 1) (s.odGet 0x8051 (k + 1) + 1) ∧
        ((cacheLine t b).bind (·.beneath (b / 32 % 8))).map (·.poison) = some true) := by
  intro t
  have frame : t.hide 0x2014000000040 = s.hide 0x2014000000040 :=
    (State.hide_mono rfl (patrolled_frame _ b k ch cla r wrap)).trans (putLine_fr rfl s b _ rfl)
  refine ⟨State.eq_of_hide_lineRead frame, fun d => odGet_patrolled_corrected _ b ch cla wrap hk,
    fun d lost => ⟨odGet_patrolled_uncorrectable _ b ch cla wrap hk lost, ?_⟩⟩
  rw [poison_beneath_patrolled_putLine s ch cla wrap found under, lost]
  rfl

end

/-- Settles O29: the word is read where the channel holds it, in the memory or beneath a line, and the read is noted;
the end of the interval leaves none of the stack's rows counted. -/
theorem patrolCorrectsAndCounts : Obligations.PatrolCorrectsAndCounts := by
  intro s k a errs wrap hk b m wrapped counted
  rw [exec_patrolScrub hk]
  refine ⟨fun idle => ?idle, fun ch cla place serves hit => ⟨fun miss => ?inMemory, fun l u found under => ?beneath⟩,
    fun ended => ?ended⟩
  case idle =>
    rw [patrolRead_eq_self idle]
    rfl
  case inMemory =>
    rw [patrolRead_of_uncached place serves hit miss]
    exact ⟨_, rfl, patrolled_putSector s ch cla wrap hk (Ecc.Read.length_kept_read _)⟩
  case beneath =>
    rw [patrolRead_of_cached place serves hit found under]
    exact ⟨_, rfl, patrolled_putLine s ch cla wrap hk found under⟩
  case ended =>
    subst ended
    exact ⟨_, rfl, fun e => not_patrolRow_of_mem⟩

end Sys2Proof.Machine
end
section
/-! The clock (R37, R516 to R522): SAFE, the power loop, and the stretches of droop. -/
namespace Sys2Proof.Machine

/-! ### SAFE (R520 to R522) -/

theorem logEvent_eq (s : State) (e : EventCode) (kind source d0 d1 : Nat) :
    logEvent s e kind source d0 d1 = { s with od := (logEvent s e kind source d0 d1).od } :=
  State.eq_of_hide_od (logEvent_fr rfl s e kind source d0 d1 rfl)

theorem resumeClock_eq (s : State) :
    resumeClock s = { s with clock := if s.safeTrip = true ∨ s.powerDown = true ∨ s.patternClock = true then s.clock
                                      else s.odGet 0x2201 0 } := by
  unfold resumeClock
  split <;> rfl

/-- R520, R522: a trip takes the clock to 1.0 GHz, is counted in 0x8101 and logged. -/
theorem safeTrip_spec {s : State} (temp power : Bool) (off : s.safeTrip = false) (rails : s.power.rails = true) :
    let t := safeTrip s temp power
    t = { s with od := t.od, clock := 1000, safeTrip := true, power := { s.power with safeMs := 0 } } ∧
      t.odGet 0x8101 0 = min (2 ^ 64 - 1) (s.odGet 0x8101 0 + 1) ∧
      t.odGet 0x8090 0 = min (2 ^ 64 - 1) (s.odGet 0x8090 0 + 1) := by
  simp only [safeTrip, off, rails, Bool.not_true, Bool.false_eq_true, or_self, if_false]
  refine ⟨logEvent_eq _ _ _ _ _ _, ?_, ?_⟩
  · rw [odGet_logEvent_other _ _ _ _ _ _ (by decide) (by decide) (by decide), State.odGet_odAdd_same]
    rfl
  · rw [odGet_logEvent_count, State.odGet_odAdd_other _ _ _ _ _ _ (by decide)]
    rfl

/-- R521, R522: the end of a trip adds the time not counted yet, and gives the clock back where nothing else holds it. -/
theorem safeExit_spec {s : State} (ms : Nat) (on : s.safeTrip = true) :
    let t := safeExit s ms
    t = { s with od := t.od, clock := t.clock, safeTrip := false } ∧
      t.odGet 0x8102 0 = min (2 ^ 64 - 1) (s.odGet 0x8102 0 + (ms - s.power.safeMs)) ∧
      t.clock = if s.powerDown = true ∨ s.patternClock = true then s.clock else s.odGet 0x2201 0 := by
  rw [safeExit, if_pos on, resumeClock_eq]
  refine ⟨rfl, State.odGet_odAdd_same _ 0x8102 0 _, ?_⟩
  dsimp only
  rw [State.odGet_odAdd_other _ _ _ _ _ _ (by decide)]
  exact ite_congr (propext ⟨fun h => h.resolve_left Bool.false_ne_true, .inr⟩) (fun _ => rfl) (fun _ => rfl)

/-! ### The loop's inputs (R516) -/

/-- What the loop looks at besides its operands is the same in two states. -/
structure SameLoop (s u : State) : Prop where
  cap : u.odGet 0x2104 2 = s.odGet 0x2104 2
  target : u.odGet 0x2110 0 = s.odGet 0x2110 0
  floor : u.odGet 0x2201 0 = s.odGet 0x2201 0
  full : opPoint u 0 = opPoint s 0
  clock : u.clock = s.clock
  job : u.job = s.job
  safeTrip : u.safeTrip = s.safeTrip

namespace SameLoop
variable {s u : State}

theorem patternClock (h : SameLoop s u) : u.patternClock = s.patternClock := by
  rw [State.patternClock, State.patternClock, h.job]

theorem overCap (h : SameLoop s u) (watts : Nat) : overCap u watts = overCap s watts := by
  rw [Machine.overCap, Machine.overCap, h.cap, h.patternClock, h.clock, h.floor]

theorem loopClock (h : SameLoop s u) (watts : Nat) (tj : Int) : loopClock u watts tj = loopClock s watts tj := by
  unfold Machine.loopClock
  rw [h.cap, h.target, h.floor, h.full, h.clock]

end SameLoop

/-! ### The step of the clock (R37, R516) -/

section
variable {s : State} {watts : Nat} {tj : Int}

theorem loopClock_of_above (above : s.odGet 0x2104 2 < watts) :
    loopClock s watts tj = max (s.odGet 0x2201 0) (s.clock - 25) := by
  unfold loopClock
  dsimp only
  rw [if_pos (.inl above)]

theorem loopClock_of_room (power : 100 * watts ≤ 97 * s.odGet 0x2104 2)
    (temp : tj ≤ sfld (s.odGet 0x2110 0) 31 0 - 3) (slow : s.clock < opPoint s 0) :
    loopClock s watts tj = max (s.odGet 0x2201 0) (s.clock + 25) := by
  unfold loopClock
  dsimp only
  rw [if_neg (by omega), if_pos ⟨power, temp, slow⟩]

theorem loopClock_of_between (near : 97 * s.odGet 0x2104 2 < 100 * watts) (within : watts ≤ s.odGet 0x2104 2)
    (cool : tj ≤ sfld (s.odGet 0x2110 0) 31 0) : loopClock s watts tj = max (s.odGet 0x2201 0) s.clock := by
  unfold loopClock
  dsimp only
  rw [if_neg (by omega), if_neg (by omega)]

end

/-! ### A tick, part by part (R516 to R518, R522) -/

/-- The state once a tick has counted its millisecond, of SAFE too. -/
def ticked (s : State) : State := safeTick { s with power := { s.power with millis := s.power.millis + 1 } }

theorem ticked_eq (s : State) :
    ticked s = { s with od := (ticked s).od, power := { s.power with
      millis := s.power.millis + 1, safeMs := s.power.safeMs + (if s.safeTrip then 1 else 0) } } := by
  unfold ticked safeTick
  cases s.safeTrip <;> rfl

theorem odGet_ticked_other (s : State) {i j : Nat} (h : Od.key i j ≠ Od.key 0x8102 0) :
    (ticked s).odGet i j = s.odGet i j := by
  unfold ticked safeTick
  split
  · exact State.odGet_odAdd_other _ _ _ _ _ _ h
  · rfl

theorem odGet_ticked_safe (s : State) :
    (ticked s).odGet 0x8102 0 =
      if s.safeTrip then min (2 ^ 64 - 1) (s.odGet 0x8102 0 + 1) else s.odGet 0x8102 0 := by
  unfold ticked safeTick
  dsimp only
  split
  · exact State.odGet_odAdd_same _ 0x8102 0 1
  · rfl

/-- The state once a tick has kept its monitors. -/
def monitored (s : State) (mv ma watts : Nat) : State :=
  ((s.odSet 0x2000 1 mv).odSet 0x2000 2 ma).odSet 0x2000 3 watts

theorem odGet_monitored_other (s : State) (mv ma watts : Nat) {i j : Nat} (h : i ≠ 0x2000) (sub : j < 256) :
    (monitored s mv ma watts).odGet i j = s.odGet i j := by
  unfold monitored
  rw [State.odGet_odSet_other, State.odGet_odSet_other, State.odGet_odSet_other] <;> unfold Od.key <;> omega

theorem odGet_monitored (s : State) (mv ma watts : Nat) :
    (monitored s mv ma watts).odGet 0x2000 1 = mv ∧ (monitored s mv ma watts).odGet 0x2000 2 = ma ∧
      (monitored s mv ma watts).odGet 0x2000 3 = watts := by
  unfold monitored
  refine ⟨?_, ?_, State.odGet_odSet_same _ _ _ _⟩
  · rw [State.odGet_odSet_other _ _ _ _ _ _ (by decide), State.odGet_odSet_other _ _ _ _ _ _ (by decide),
      State.odGet_odSet_same]
  · rw [State.odGet_odSet_other _ _ _ _ _ _ (by decide), State.odGet_odSet_same]

/-- The loop looks at nothing that a tick has changed till it decides. -/
theorem sameLoop_monitored_ticked (s : State) (mv ma watts : Nat) : SameLoop s (monitored (ticked s) mv ma watts) := by
  have od {i j : Nat} (h : i ≠ 0x2000) (h' : i ≠ 0x8102) (sub : j < 256) :
      (monitored (ticked s) mv ma watts).odGet i j = s.odGet i j :=
    (odGet_monitored_other _ _ _ _ h sub).trans (odGet_ticked_other s (by unfold Od.key; omega))
  have frame := ticked_eq s
  exact ⟨od (by decide) (by decide) (by decide), od (by decide) (by decide) (by decide),
    od (by decide) (by decide) (by decide), od (by decide) (by decide) (by decide), (congrArg State.clock frame :),
    (congrArg State.job frame :), (congrArg State.safeTrip frame :)⟩

/-- The state once a millisecond above the cap is counted, and the first of them logged. -/
def capCounted (s : State) (watts : Nat) : State :=
  let u := if overCap s watts then s.odAdd 0x8100 0 1 else s
  if overCap s watts ∧ !s.power.overCap then logEvent u .powerOverCap srcModule 0 watts (s.odGet 0x2104 2) else u

theorem capCounted_eq (s : State) (watts : Nat) : capCounted s watts = { s with od := (capCounted s watts).od } := by
  refine State.eq_of_hide_od ?_
  have counted : (if overCap s watts then s.odAdd 0x8100 0 1 else s).hide 0x40 = s.hide 0x40 := by
    split
    · exact State.odAdd_fr rfl s _ _ _ rfl
    · rfl
  unfold capCounted
  dsimp only
  split
  · exact logEvent_fr rfl _ _ _ _ _ _ counted
  · exact counted

theorem odGet_capCounted (s : State) (watts : Nat) {i j : Nat} (count : i ≠ 0x8090) (below : i < 0xA000) (sub : j < 256) :
    (capCounted s watts).odGet i j = (if overCap s watts then s.odAdd 0x8100 0 1 else s).odGet i j := by
  unfold capCounted
  dsimp only
  split
  · exact odGet_logEvent_other _ _ _ _ _ _ count below sub
  · rfl

theorem odGet_capCounted_other (s : State) (watts : Nat) {i j : Nat} (count : i ≠ 0x8090) (cap : i ≠ 0x8100)
    (below : i < 0xA000) (sub : j < 256) : (capCounted s watts).odGet i j = s.odGet i j := by
  rw [odGet_capCounted s watts count below sub]
  split
  · exact State.odGet_odAdd_other _ _ _ _ _ _ (by unfold Od.key; omega)
  · rfl

theorem odGet_capCounted_count (s : State) (watts : Nat) :
    (capCounted s watts).odGet 0x8100 0 =
      if overCap s watts then min (2 ^ 64 - 1) (s.odGet 0x8100 0 + 1) else s.odGet 0x8100 0 := by
  rw [odGet_capCounted s watts (by decide) (by decide) (by decide)]
  split
  · exact State.odGet_odAdd_same s 0x8100 0 1
  · rfl

/-- The state once the loop has counted what is above the cap and moved the clock, where nothing else holds it. -/
def regulated (s : State) (watts : Nat) (tj : Int) : State :=
  let u := { capCounted s watts with power := { (capCounted s watts).power with overCap := overCap s watts } }
  if s.safeTrip ∨ s.patternClock then u else { u with clock := loopClock s watts tj }

theorem regulated_eq (s : State) (watts : Nat) (tj : Int) :
    regulated s watts tj = { s with
      od := (capCounted s watts).od
      clock := if s.safeTrip = true ∨ s.patternClock = true then s.clock else loopClock s watts tj
      power := { s.power with overCap := overCap s watts } } := by
  unfold regulated
  rw [capCounted_eq]
  split <;> rfl

/-- A tick does not change whether the loop is held: R464, and the boot. -/
theorem ticked_held_iff (s : State) :
    ((ticked s).powerDown = true ∨ (!(ticked s).powerCoreRuns) = true) ↔
      (s.powerDown = true ∨ s.powerCoreRuns = false) := by
  have down : (ticked s).powerDown = s.powerDown := (congrArg State.powerDown (ticked_eq s) :)
  have secure : (ticked s).secure = s.secure := (congrArg State.secure (ticked_eq s) :)
  rw [State.powerCoreRuns, State.powerCoreRuns, secure, down, Bool.not_eq_true']

/-- Without the power-management core a tick counts its millisecond alone. -/
theorem powerTick_of_held {s : State} (mv ma watts : Nat) (tj : Int)
    (held : s.powerDown = true ∨ s.powerCoreRuns = false) : powerTick s mv ma watts tj = ticked s :=
  if_pos ((ticked_held_iff s).mpr held)

section
variable {s : State} (mv ma watts : Nat) (tj : Int)

/-- A tick of the loop, in one equation: the parts of the dictionary, the counts, and the clock. -/
theorem powerTick_of_running (up : s.powerDown = false) (core : s.powerCoreRuns = true) :
    powerTick s mv ma watts tj =
      { s with
        od := (capCounted (monitored (ticked s) mv ma watts) watts).od
        clock := if s.safeTrip = true ∨ s.patternClock = true then s.clock else loopClock s watts tj
        power := { s.power with
          overCap := overCap s watts, millis := s.power.millis + 1
          safeMs := s.power.safeMs + (if s.safeTrip then 1 else 0) } } := by
  have loop := sameLoop_monitored_ticked s mv ma watts
  have frame : monitored (ticked s) mv ma watts = { s with
      od := (monitored (ticked s) mv ma watts).od
      power := { s.power with
        millis := s.power.millis + 1, safeMs := s.power.safeMs + (if s.safeTrip then 1 else 0) } } := by
    unfold monitored
    rw [ticked_eq]
    rfl
  have decided : powerTick s mv ma watts tj = regulated (monitored (ticked s) mv ma watts) watts tj := by
    have runs : ¬ (s.powerDown = true ∨ s.powerCoreRuns = false) := by simp [up, core]
    exact if_neg (runs ∘ (ticked_held_iff s).mp)
  rw [decided, regulated_eq, loop.safeTrip, loop.patternClock, loop.clock, loop.loopClock, loop.overCap]
  generalize (capCounted _ watts).od = od
  rw [frame]

/-- R516: what a tick leaves in the entries that the loop keeps. -/
theorem odGet_powerTick_of_running (up : s.powerDown = false) (core : s.powerCoreRuns = true) :
    let t := powerTick s mv ma watts tj
    t.odGet 0x8102 0 = (if s.safeTrip then min (2 ^ 64 - 1) (s.odGet 0x8102 0 + 1) else s.odGet 0x8102 0) ∧
      t.odGet 0x2000 1 = mv ∧ t.odGet 0x2000 2 = ma ∧ t.odGet 0x2000 3 = watts ∧
      t.odGet 0x8100 0 = (if overCap s watts then min (2 ^ 64 - 1) (s.odGet 0x8100 0 + 1) else s.odGet 0x8100 0) := by
  intro t
  have od : t.od = (capCounted (monitored (ticked s) mv ma watts) watts).od :=
    (congrArg State.od (powerTick_of_running mv ma watts tj up core) :)
  have kept {i j : Nat} (count : i ≠ 0x8090) (cap : i ≠ 0x8100) (below : i < 0xA000) (sub : j < 256) :
      t.odGet i j = (monitored (ticked s) mv ma watts).odGet i j :=
    (State.odGet_congr od i j).trans (odGet_capCounted_other _ _ count cap below sub)
  obtain ⟨volts, amps, power⟩ := odGet_monitored (ticked s) mv ma watts
  refine ⟨?_, ?_, ?_, ?_, ?_⟩
  · rw [kept (by decide) (by decide) (by decide) (by decide), odGet_monitored_other _ _ _ _ (by decide) (by decide)]
    exact odGet_ticked_safe s
  · rw [kept (by decide) (by decide) (by decide) (by decide), volts]
  · rw [kept (by decide) (by decide) (by decide) (by decide), amps]
  · rw [kept (by decide) (by decide) (by decide) (by decide), power]
  · rw [State.odGet_congr od, odGet_capCounted_count, (sameLoop_monitored_ticked s mv ma watts).overCap,
      odGet_monitored_other _ _ _ _ (by decide) (by decide), odGet_ticked_other s (by decide)]

end

end Sys2Proof.Machine
end

section
/-! The levels of a stack (R324 to R326): what a report of its temperature makes of them. -/
namespace Sys2Proof.Machine

/-! ### The level (R325) -/

theorem levelAt_mono (tl : Int) {l m : Nat} (h : l ≤ m) : levelAt tl l ≤ levelAt tl m := by
  unfold levelAt
  omega

section
variable {tl t : Int}

theorem levelReached_le (tl t : Int) : levelReached tl t ≤ 3 := by
  unfold levelReached
  split
  · exact Nat.le_refl 3
  · split
    · decide
    · split <;> decide

theorem levelReached_of_third (h : tl + 6 ≤ t) : levelReached tl t = 3 := if_pos (by unfold levelAt; omega)

theorem levelReached_of_below (h : t < tl) : levelReached tl t = 0 := by
  rw [levelReached, if_neg (by unfold levelAt; omega), if_neg (by unfold levelAt; omega), if_neg (by unfold levelAt; omega)]

theorem levelReached_pos (h : tl ≤ t) : 1 ≤ levelReached tl t := by
  unfold levelReached
  split
  · decide
  · split
    · decide
    · exact Nat.le_of_eq (if_pos (by unfold levelAt; omega)).symm

theorem levelLowered_le (tl t : Int) (l : Nat) : levelLowered tl t l ≤ l := by
  induction l with
  | zero => exact Nat.le_refl 0
  | succ l ih =>
    unfold levelLowered
    split
    · exact Nat.le_succ_of_le ih
    · exact Nat.le_refl _

theorem levelLowered_of_below (h : t + 2 ≤ tl) (l : Nat) : levelLowered tl t l = 0 := by
  induction l with
  | zero => rfl
  | succ l ih =>
    unfold levelLowered
    rw [if_pos (by unfold levelAt; omega), ih]

/-- A level is left only 2 degrees below its threshold. -/
theorem levelLowered_stays_or (tl t : Int) (l : Nat) :
    l ≤ levelLowered tl t l ∨ t + 2 ≤ levelAt tl (levelLowered tl t l + 1) := by
  induction l with
  | zero => exact .inl (Nat.le_refl 0)
  | succ l ih =>
    unfold levelLowered
    split
    case isTrue low =>
      rcases ih with stays | below
      · rw [Nat.le_antisymm (levelLowered_le tl t l) stays]
        exact .inr low
      · exact .inr below
    case isFalse => exact .inl (Nat.le_refl _)

theorem stackLevel_of_third (h : tl + 6 ≤ t) (l : Nat) : stackLevel tl t l = 3 ∨ 3 < l := by
  have := levelLowered_le tl t l
  rw [stackLevel, levelReached_of_third h]
  omega

theorem stackLevel_of_below (h : t + 2 ≤ tl) (l : Nat) : stackLevel tl t l = 0 := by
  rw [stackLevel, levelReached_of_below (by omega), levelLowered_of_below h, Nat.max_self]

theorem stackLevel_pos (h : tl ≤ t) (l : Nat) : 1 ≤ stackLevel tl t l :=
  Nat.le_trans (levelReached_pos h) (Nat.le_max_left _ _)

theorem stackLevel_stays_or (tl t : Int) (l : Nat) :
    l ≤ stackLevel tl t l ∨ t + 2 ≤ levelAt tl (stackLevel tl t l + 1) := by
  have lowered : levelLowered tl t l ≤ stackLevel tl t l := Nat.le_max_right _ _
  rcases levelLowered_stays_or tl t l with stays | below
  · exact .inl (Nat.le_trans stays lowered)
  · exact .inr (Int.le_trans below (levelAt_mono tl (Nat.succ_le_succ lowered)))

end

/-! ### The report (R324 to R326) -/

/-- Replace what is kept of a stack. -/
def setStack (s : State) (k : Nat) (v : StackSt) : State := { s with stackSts := Sp.set StackSt.init s.stackSts k v }

/-- A report shows the temperatures, and counts the milliseconds of throttling. -/
def stackShown (s : State) (k : Nat) (t limit : Int) (old : Nat) : State :=
  let u := (s.odSet 0x3020 (k + 1) (i32 t)).odSet 0x3021 (k + 1) (i32 limit)
  if 1 ≤ old then u.odAdd 0x8055 (k + 1) 32 else u

/-- Then it counts the start of throttling. -/
def throttleCounted (s : State) (k : Nat) (t limit : Int) (old new : Nat) : State :=
  if old = 0 ∧ 1 ≤ new then (stackShown s k t limit old).odAdd 0x8054 (k + 1) 1 else stackShown s k t limit old

/-- And it logs the rise to level 3: all that a report does to the dictionary. -/
def stackCounted (s : State) (k : Nat) (t limit : Int) (old new : Nat) : State :=
  if new = 3 ∧ old ≠ 3 then logEvent (throttleCounted s k t limit old new) .stackLevel3 srcChannel (k * 2 ^ 12) (i32 t) 0
  else throttleCounted s k t limit old new

section
variable (s : State) (k : Nat) (t limit : Int) (old new : Nat)

theorem stackShown_frame : (stackShown s k t limit old).hide 0x40 = s.hide 0x40 := by
  have shown := State.odSet_fr (M := 0x40) rfl _ 0x3021 (k + 1) (i32 limit) (State.odSet_fr rfl s 0x3020 (k + 1) (i32 t) rfl)
  unfold stackShown
  dsimp only
  split
  · exact State.odAdd_fr rfl _ _ _ _ shown
  · exact shown

theorem throttleCounted_frame : (throttleCounted s k t limit old new).hide 0x40 = s.hide 0x40 := by
  unfold throttleCounted
  split
  · exact State.odAdd_fr rfl _ _ _ _ (stackShown_frame s k t limit old)
  · exact stackShown_frame s k t limit old

theorem stackCounted_frame : (stackCounted s k t limit old new).hide 0x40 = s.hide 0x40 := by
  unfold stackCounted
  split
  · exact logEvent_fr rfl _ _ _ _ _ _ (throttleCounted_frame s k t limit old new)
  · exact throttleCounted_frame s k t limit old new

variable {k}

/-- R325: the start of throttling is counted in 0x8054 of the stack. -/
theorem odGet_stackCounted (hk : k < 12) :
    (stackCounted s k t limit old new).odGet 0x8054 (k + 1) =
      if old = 0 ∧ 1 ≤ new then min (2 ^ 64 - 1) (s.odGet 0x8054 (k + 1) + 1) else s.odGet 0x8054 (k + 1) := by
  have shown : (stackShown s k t limit old).odGet 0x8054 (k + 1) = s.odGet 0x8054 (k + 1) := by
    unfold stackShown
    dsimp only
    split
    · rw [State.odGet_odAdd_other, State.odGet_odSet_other, State.odGet_odSet_other] <;> unfold Od.key <;> omega
    · rw [State.odGet_odSet_other, State.odGet_odSet_other] <;> unfold Od.key <;> omega
  have unlogged : (stackCounted s k t limit old new).odGet 0x8054 (k + 1) =
      (throttleCounted s k t limit old new).odGet 0x8054 (k + 1) := by
    unfold stackCounted
    split
    · exact odGet_logEvent_other _ _ _ _ _ _ (by decide) (by decide) (by omega)
    · rfl
  rw [unlogged, throttleCounted]
  split
  · rw [State.odGet_odAdd_same, shown]
  · exact shown

/-- R325: the level of a stack after a report. -/
def reportedLevel (s : State) (k : Nat) (t limit : Int) : Nat :=
  stackLevel (stackLimit s limit) t (Sp.get StackSt.init s.stackSts k).level

/-- A report, in one equation: the dictionary's part, and the new level of the stack. -/
theorem stackReport_eq (k : Nat) :
    stackReport s k t limit = { s with
      od := (stackCounted s k t limit (Sp.get StackSt.init s.stackSts k).level (reportedLevel s k t limit)).od
      stackSts := Sp.set StackSt.init s.stackSts k
        { level := reportedLevel s k t limit, hot := stackHot t (Sp.get StackSt.init s.stackSts k).hot } } := by
  have counted := State.eq_of_hide_od
    (stackCounted_frame s k t limit (Sp.get StackSt.init s.stackSts k).level (reportedLevel s k t limit))
  have set : stackReport s k t limit =
      setStack (stackCounted s k t limit (Sp.get StackSt.init s.stackSts k).level (reportedLevel s k t limit)) k
        { level := reportedLevel s k t limit, hot := stackHot t (Sp.get StackSt.init s.stackSts k).hot } := rfl
  rw [set, counted]
  rfl

end

/-! ### The statement -/

theorem exec_powerLoopTick {s : State} (rails : s.power.rails = true) (mv ma watts : Nat) (tj : Int) :
    exec (.powerLoopTick mv ma watts tj) s = .next (powerTick s mv ma watts tj) :=
  congrArg Host.Outcome.next (if_pos rails)

theorem exec_droopStretch {s : State} {k : Nat} (hk : k < 128) (rails : s.power.rails = true) (n : Nat) :
    exec (.droopStretch k n) s = .next (s.odAdd 0x8103 (k + 1) n) :=
  (if_pos hk).trans (congrArg Host.Outcome.next (if_pos rails))

theorem exec_stackTempReport {s : State} {k : Nat} (hk : k < 12) (rails : s.power.rails = true) (t limit : Int) :
    exec (.stackTempReport k t limit) s = .next (stackReport s k t limit) :=
  (if_pos hk).trans (congrArg Host.Outcome.next (if_pos rails))

/-- Settles O56: each clause from what its operation makes of the state. -/
theorem powerLoopsAndTripsSetTheClock : Obligations.PowerLoopsAndTripsSetTheClock := by
  refine ⟨fun s temp power off rails => ⟨_, rfl, safeTrip_spec temp power off rails⟩,
    fun s ms on => ⟨_, rfl, safeExit_spec ms on⟩, fun s mv ma watts tj rails up core => ?loop,
    fun s mv ma watts tj rails held => ?held, fun s k n hk rails => ?droop, fun s k temp limit hk rails => ?report⟩
  case loop =>
    have tick := powerTick_of_running mv ma watts tj up core
    have clock : (powerTick s mv ma watts tj).clock =
        if s.safeTrip = true ∨ s.patternClock = true then s.clock else loopClock s watts tj :=
      (congrArg State.clock tick :)
    obtain ⟨safe, volts, amps, power, above⟩ := odGet_powerTick_of_running mv ma watts tj up core
    refine ⟨_, exec_powerLoopTick rails mv ma watts tj, ?_, safe, volts, amps, power, above,
      fun holds => clock.trans (if_pos holds), fun trip pattern => ?_⟩
    · rw [tick]
    · have free : (powerTick s mv ma watts tj).clock = loopClock s watts tj :=
        clock.trans (if_neg (by simp [trip, pattern]))
      rw [free]
      exact ⟨loopClock_of_above, loopClock_of_room, loopClock_of_between⟩
  case held => exact (exec_powerLoopTick rails mv ma watts tj).trans (congrArg _ (powerTick_of_held mv ma watts tj held))
  case droop => exact ⟨_, exec_droopStretch hk rails n, rfl, State.odGet_odAdd_same s 0x8103 (k + 1) n⟩
  case report =>
    have report := stackReport_eq s temp limit k
    have own : (Sp.get StackSt.init (stackReport s k temp limit).stackSts k).level = reportedLevel s k temp limit := by
      rw [report]
      exact congrArg StackSt.level (Sp.get_set_same _ _ _ _)
    have counted : (stackReport s k temp limit).odGet 0x8054 (k + 1) = _ :=
      (State.odGet_congr (congrArg State.od report :) _ _).trans (odGet_stackCounted s temp limit _ _ hk)
    refine ⟨_, exec_stackTempReport hk rails temp limit, ?_, ?_⟩
    · rw [report]
    · dsimp only
      rw [own, counted]
      refine ⟨fun j other => ?_, fun hot => stackLevel_of_third hot _, fun cool _ => stackLevel_of_below cool _,
        fun warm => stackLevel_pos warm _, stackLevel_stays_or _ _ _, rfl⟩
      rw [report]
      exact Sp.get_set_other _ _ _ _ _ other

end Sys2Proof.Machine
end

section
/-! Fabric operations enter the module (R348, R349): one that no waiting notice fits is added, and nothing else changes. -/
namespace Sys2Proof.Machine

theorem addFab_of_unfit {s : State} {o : FabOp} (unfit : ∀ n ∈ s.notices, n.fits o = false) :
    addFab s o = { s with fab := s.fab ++ [o] } := by
  have mine : (s.notices.filter fun n => n.fits o) = [] := by simpa [List.filter_eq_nil_iff] using unfit
  have others : (s.notices.filter fun n => !n.fits o) = s.notices := by simpa [List.filter_eq_self] using unfit
  simp only [addFab, mine, others, List.foldl_nil]

theorem addFab_fresh_of_unfit {s : State} {o : FabOp} (unfit : ∀ n ∈ s.notices, n.fits o = false) :
    addFab s.fresh o = { s with serial := s.serial + 1, fab := s.fab ++ [o] } :=
  addFab_of_unfit (s := s.fresh) unfit

/-- Operations that are added one after another where no notice waits. -/
theorem foldl_addFab {β : Type} (op : State → β → FabOp) (l : List β) {s : State} (quiet : s.notices = []) :
    let u := l.foldl (fun s b => addFab s.fresh (op s b)) s
    u = { s with serial := u.serial, fab := u.fab } ∧ u.fab.length = s.fab.length + l.length := by
  induction l generalizing s with
  | nil => exact ⟨rfl, rfl⟩
  | cons b l ih =>
    have first : addFab s.fresh (op s b) = { s with serial := s.serial + 1, fab := s.fab ++ [op s b] } :=
      addFab_fresh_of_unfit (by simp [quiet])
    obtain ⟨frame, length⟩ := ih (s := addFab s.fresh (op s b)) (by rw [first]; exact quiet)
    rw [List.foldl_cons]
    refine ⟨frame.trans (by rw [first]), length.trans ?_⟩
    rw [first]
    simp only [List.length_append, List.length_cons, List.length_nil]
    omega

end Sys2Proof.Machine
end

section
/-! The exchange, the all-gather and the mirrors of a step (R265, R267, R354). -/
namespace Sys2Proof.Machine

section
variable {s : State} {ctx : Nat}

theorem exec_exchange (h : ctx < 1024) : exec (.exchange ctx) s = .next (exchange s ctx) := if_pos h

theorem exec_stepGather (h : ctx < 1024) : exec (.stepGather ctx) s = .next (stepGather s ctx) := if_pos h

theorem exec_mirror (h : ctx < 1024) (k : Nat) : exec (.mirror ctx k) s = .next (mirror s ctx k) := if_pos h

theorem exec_mirrorAck (h : ctx < 1024) (k : Nat) : exec (.mirrorAck ctx k) s = .next (mirrorAck s ctx k) := if_pos h

/-- No operation of a kind and context is in the fabric. -/
theorem any_fab_eq_false {kind : FabKind} (absent : ∀ o ∈ s.fab, o.ctx ≠ ctx ∨ o.kind ≠ kind) :
    (s.fab.any fun o => o.ctx == ctx && o.kind == kind) = false := by
  refine List.any_eq_false.mpr fun o mem same => ?_
  obtain ⟨own, alike⟩ := (Bool.and_eq_true _ _).mp same
  exact (absent o mem).elim (· (beq_iff_eq.mp own)) (· (beq_iff_eq.mp alike))

end

/-- The elements that each member's shard of a step sends and receives in the exchange (R354). -/
def exchangeSegs (s : State) (ctx : Nat) (t : Step) : List Seg :=
  (allShards s t (myRank s)).map fun a =>
    let e := gmFirst t.gmap a.2.1 + a.2.2.1
    { owner := a.1, count := a.2.2.2, src := stageImage ctx e, dst := stageGrad ctx e, sSize := 8, pSize := 4, dSize := 4 }

/-- The operation of the exchange of a step. -/
def exchangeOp (s : State) (ctx : Nat) (t : Step) : FabOp :=
  coreOp s.fresh ctx .exchange (soStep t.entry) ((exchangeSegs s ctx t).map (·.count)).sum s.job.members
    (exchangeSegs s ctx t) [] [] true 0

/-- The operation of the all-gather of a step whose weights lie in a bank (R265). -/
def stepGatherOp (s : State) (ctx b : Nat) (t : Step) : FabOp :=
  let segs := gatherSegs s t b (myRank s)
  coreOp s.fresh ctx .stepGather (soStep t.entry) (segs.map (·.count)).sum s.job.members segs
    (segs.map fun g => (g.dst, g.count * g.dSize))
    ((segs.filter fun g => g.owner == myRank s).map fun g => (g.src, g.count * g.sSize)) false 0

/-- The operation that mirrors a range of shard k, the given one of n, with its place among them (R267). -/
def mirrorOp (s : State) (ctx n : Nat) (t : Step) (k : Nat) (r : (Nat × Nat) × Nat) : FabOp :=
  let count := shCount (t.shards.getD k 0)
  let off := r.1.1 - s.odGet 0x5009 1
  let e := r.1.2 / count
  { coreOp s.fresh ctx .mirror (4 * k + r.2) count [s.moduleId, s.odGet 0x5009 0]
      [{ owner := 0, count := count, src := r.1.1, dst := off, sSize := e, pSize := e, dSize := e }] [] [r.1] false 1 with
    dst := off
    fmt := 8 * n + e }

section
variable {s : State} {ctx : Nat} {x : Ctx} {t : Step}

theorem exchange_of_gathered (found : s.ctx? ctx = some x) (opened : x.step = some t) (gathered : t.gathered = true)
    (waits : t.exchanged = false) (absent : ∀ o ∈ s.fab, o.ctx ≠ ctx ∨ o.kind ≠ .exchange) :
    exchange s ctx = addFab s.fresh (exchangeOp s ctx t) := by
  have step : (s.ctx? ctx).bind (·.step) = some t := by rw [found, Option.bind_some, opened]
  simp only [exchange, step, gathered, waits, any_fab_eq_false absent]
  rfl

theorem counts_exchangeOp (s : State) (ctx : Nat) (t : Step) :
    (exchangeOp s ctx t).count = ((allShards s t (myRank s)).map (·.2.2.2)).sum := by
  simp only [exchangeOp, coreOp, exchangeSegs, List.map_map]
  rfl

theorem owners_exchangeOp (s : State) (ctx : Nat) (t : Step) :
    (exchangeOp s ctx t).segs.map (·.owner) = (allShards s t (myRank s)).map (·.1) := by
  simp only [exchangeOp, coreOp, exchangeSegs, List.map_map]
  rfl

theorem stepGather_of_gathering {b : Nat} {rest : List (Nat × Step)} (found : s.ctx? ctx = some x)
    (oldest : x.gathering = (b, t) :: rest) (absent : ∀ o ∈ s.fab, o.ctx ≠ ctx ∨ o.kind ≠ .stepGather) :
    stepGather s ctx = addFab s.fresh (stepGatherOp s ctx b t) := by
  simp only [stepGather, found, oldest, any_fab_eq_false absent]
  rfl

theorem mirror_of_updated {k : Nat} (found : s.ctx? ctx = some x) (opened : x.step = some t)
    (exists_shard : k < t.shards.length) (buddy : shBuddy (t.shards.getD k 0) = true)
    (unmirrored : t.mirrored.contains k = false)
    (updated : ((t.undone.find? fun e => e.1 == k).any fun e => e.2 == 0) = true) :
    mirror s ctx k = updStep' (mirrorOps s ctx x t k) ctx fun t => { t with mirrored := t.mirrored ++ [k] } := by
  simp only [mirror, found, opened]
  refine if_neg ?_
  rw [buddy, unmirrored, updated]
  simpa using exists_shard

/-- R267: the mirrors of a shard are added one after another. -/
theorem mirrorOps_eq_foldl (s : State) (ctx : Nat) (x : Ctx) (t : Step) (k : Nat) :
    mirrorOps s ctx x t k =
      let rs := bankRanges (optOf t (t.shards.getD k 0)) (t.shards.getD k 0) (1 - x.bank)
      rs.zipIdx.foldl (fun s r => addFab s.fresh (mirrorOp s ctx rs.length t k r)) s :=
  rfl

theorem mirrorOps_of_quiet (quiet : s.notices = []) (k : Nat) :
    let u := mirrorOps s ctx x t k
    u = { s with serial := u.serial, fab := u.fab } ∧
      u.fab.length = s.fab.length +
        (bankRanges (optOf t (t.shards.getD k 0)) (t.shards.getD k 0) (1 - x.bank)).length := by
  rw [mirrorOps_eq_foldl]
  have added := foldl_addFab (fun s r => mirrorOp s ctx
    (bankRanges (optOf t (t.shards.getD k 0)) (t.shards.getD k 0) (1 - x.bank)).length t k r)
    (bankRanges (optOf t (t.shards.getD k 0)) (t.shards.getD k 0) (1 - x.bank)).zipIdx quiet
  rwa [List.length_zipIdx] at added

/-- The state without the operations that mirror shard k of a context's step from here. -/
def mirrorDropped (s : State) (ctx k : Nat) : State :=
  { s with fab := s.fab.filter fun o => !(o.ctx == ctx && o.kind == .mirror && o.sender && o.seq / 4 == k) }

theorem mirrorAck_of_mirrored {k : Nat} (found : s.ctx? ctx = some x) (opened : x.step = some t)
    (mirrored : t.mirrored.contains k = true) :
    mirrorAck s ctx k =
      (mirrorDropped s ctx k).setCtx ctx { x with step := some { t with acked := k :: t.acked } } := by
  have step : (s.ctx? ctx).bind (·.step) = some t := by rw [found, Option.bind_some, opened]
  have kept : (mirrorDropped s ctx k).ctx? ctx = some x := found
  simp only [mirrorAck, step, mirrored]
  refine (State.updCtx_eq_setCtx kept _).trans ?_
  rw [opened]
  rfl

theorem mem_mirrorDropped {o : FabOp} {k : Nat} (h : o ∈ (mirrorDropped s ctx k).fab) :
    o ∈ s.fab ∧ ¬ (o.ctx = ctx ∧ o.kind = .mirror ∧ o.sender = true ∧ o.seq / 4 = k) := by
  obtain ⟨mem, other⟩ := List.mem_filter.mp h
  refine ⟨mem, fun ⟨hc, hk, hs, hq⟩ => ?_⟩
  simp [hc, hk, hs, hq] at other

end

/-- Settles O31: the three kinds of operations of a step, and the acknowledgement of a mirror. -/
theorem stepOperationsEnterTheFabric : Obligations.StepOperationsEnterTheFabric := by
  refine ⟨fun s ctx x t so gathered waits absent => ?_, fun s ctx x b t rest hctx found oldest absent => ?_,
    fun s ctx k x t so exists_shard buddy unmirrored updated => ?_, fun s ctx k x t so mirrored => ?_⟩
  · obtain ⟨hctx, found, opened⟩ := so
    exact ⟨exchangeOp s ctx t,
      (exec_exchange hctx).trans (congrArg _ (exchange_of_gathered found opened gathered waits absent)),
      rfl, rfl, rfl, rfl, rfl, rfl, rfl, rfl, counts_exchangeOp s ctx t, owners_exchangeOp s ctx t, addFab_fresh_of_unfit⟩
  · exact ⟨stepGatherOp s ctx b t,
      (exec_stepGather hctx).trans (congrArg _ (stepGather_of_gathering found oldest absent)),
      rfl, rfl, rfl, rfl, rfl, rfl, rfl, rfl, rfl, addFab_fresh_of_unfit⟩
  · obtain ⟨hctx, found, opened⟩ := so
    exact ⟨(exec_mirror hctx k).trans
      (congrArg _ (mirror_of_updated found opened exists_shard buddy unmirrored updated)),
      fun quiet => mirrorOps_of_quiet quiet k⟩
  · obtain ⟨hctx, found, opened⟩ := so
    refine ⟨_, (exec_mirrorAck hctx k).trans (congrArg _ (mirrorAck_of_mirrored found opened mirrored)), rfl, ?_,
      fun c other => ?_, fun o mem => mem_mirrorDropped mem⟩
    · exact State.ctx?_setCtx_same _ _ _
    · exact State.ctx?_setCtx_other _ _ _ _ other

end Sys2Proof.Machine
end

section
/-! The host fabric commands (R347, R348, R447). -/
namespace Sys2Proof.Machine

/-- What changes only elements that do not fit changes no search for one that fits. -/
theorem find?_updFirst_other {α : Type} {p f : α → Bool} {g : α → α}
    (other : ∀ a, f a = true → p a = false ∧ p (g a) = false) (l : List α) : (updFirst f g l).find? p = l.find? p := by
  induction l with
  | nil => rfl
  | cons a l ih =>
    unfold updFirst
    split
    · next changed =>
      obtain ⟨before, after⟩ := other a changed
      simp [before, after]
    · rw [List.find?_cons, List.find?_cons, ih]

theorem State.cmd?_updCmd_other (s : State) {id k : Nat} {f : Cmd → Cmd} (keepsId : ∀ c, (f c).id = c.id) (h : k ≠ id) :
    (s.updCmd id f).cmd? k = s.cmd? k := by
  refine find?_updFirst_other (fun c own => ?_) s.cmds
  have own : c.id = id := by simpa using own
  simp [keepsId, own, Ne.symm h]

/-- Each of the five opcodes makes an operation of its KIND. -/
theorem exec_fabricRow {row : Nat × (Nat → Instr)} (h : row ∈ fabricRows) (s : State) (id : Nat) :
    exec (row.2 id) s = .next (fabCommand s id row.1) := by
  simp only [fabricRows, List.mem_cons, List.not_mem_nil, or_false] at h
  rcases h with rfl | rfl | rfl | rfl | rfl <;> rfl

theorem code_kindOf_fabricRow {row : Nat × (Nat → Instr)} (h : row ∈ fabricRows) : (kindOf row.1).code = row.1 := by
  simp only [fabricRows, List.mem_cons, List.not_mem_nil, or_false] at h
  rcases h with rfl | rfl | rfl | rfl | rfl <;> rfl

/-- The state once a command is active, with a fresh serial number for its operation. -/
def fabCmdBegun (s : State) (id : Nat) : State :=
  s.fresh.updCmd id fun c => { c with stage := .active, started := true }

section
variable {s : State} {id : Nat} {c : Cmd}

theorem fabCommand_of_ok (found : s.cmd? id = some c) (opcode : c.opcode = 0x13) (taken : c.stage = .taken)
    (ok : fabRefuse s c.ctx (FabD.ofWord c.entry) = none) :
    let d := FabD.ofWord c.entry
    ∃ o, fabCommand s id d.kind = addFab (bumpSeq (fabCmdBegun s id) c.ctx (digest32 (groupRanks s d))) o ∧
      o.id = s.serial + 1 ∧ o.cmd = some id ∧ o.ctx = c.ctx ∧ o.kind = kindOf d.kind ∧ o.started = false ∧ o.landed = 0 ∧
      o.ranks = (groupRanks s d).map (fun r => s.job.members.getD r 0) ∧ o.group = digest32 (groupRanks s d) ∧
      o.seq = seqOf s c.ctx (digest32 (groupRanks s d)) ∧ o.count = d.count ∧ o.dst = d.dst ∧ o.done = some d.doneCtr := by
  have goes : ¬ (c.opcode ≠ 0x13 ∨ c.stage ≠ .taken ∨ (FabD.ofWord c.entry).kind ≠ (FabD.ofWord c.entry).kind) := by
    simp [opcode, taken]
  simp only [fabCommand, found, ok]
  rw [if_neg goes]
  exact ⟨_, rfl, rfl, rfl, rfl, rfl, rfl, rfl, rfl, rfl, rfl, rfl, rfl, rfl⟩

/-- R348: the next command of the context and group has the next number. -/
theorem seqOf_bumpSeq (s : State) (ctx group : Nat) : seqOf (bumpSeq s ctx group) ctx group = seqOf s ctx group + 1 := by
  simp [seqOf, bumpSeq]

theorem stage_fabCmdBegun (found : s.cmd? id = some c) : ((fabCmdBegun s id).cmd? id).map (·.stage) = some .active := by
  have begun : (fabCmdBegun s id).cmd? id = (s.fresh.cmd? id).map _ := State.cmd?_updCmd_same s.fresh id fun _ => rfl
  rw [begun, State.cmd?_congr (s := s) (t := s.fresh) rfl, found]
  rfl

theorem cmd?_fabCmdBegun_other {k : Nat} (h : k ≠ id) : (fabCmdBegun s id).cmd? k = s.cmd? k :=
  State.cmd?_updCmd_other s.fresh (fun _ => rfl) h

end

/-- Settles O35: the command's operation is added, and what that changes where no notice fits it. -/
theorem fabricCommandsBecomeOperations : Obligations.FabricCommandsBecomeOperations := by
  intro kind ctor row s id c found opcode taken same ok u
  subst same
  obtain ⟨o, added, serial, cmd, ctx, code, started, landed, ranks, group, seq, count, dst, done⟩ :=
    fabCommand_of_ok found opcode taken ok
  rw [← group] at added seq
  refine ⟨o, (exec_fabricRow row s id).trans (congrArg _ added), serial, cmd, ctx, ?_, started, landed, ranks, group, seq,
    count, dst, done, fun unfit => ?_⟩
  · rw [code]
    exact code_kindOf_fabricRow row
  · dsimp only
    rw [addFab_of_unfit (s := bumpSeq u c.ctx o.group) unfit]
    refine ⟨rfl, stage_fabCmdBegun found, fun k other => cmd?_fabCmdBegun_other other, ?_⟩
    rw [seq]
    exact seqOf_bumpSeq u c.ctx o.group

end Sys2Proof.Machine
end

section
/-! Fabric operations by their number, after one of them changes. -/
namespace Sys2Proof.Machine
namespace State

theorem fabOp?_congr {s t : State} (h : t.fab = s.fab) (id : Nat) : t.fabOp? id = s.fabOp? id := by
  rw [fabOp?, fabOp?, h]

theorem id_of_fabOp? {s : State} {id : Nat} {o : FabOp} (h : s.fabOp? id = some o) : o.id = id := by
  simpa using List.find?_some h

theorem fabOp?_updFab_same (s : State) (id : Nat) {f : FabOp → FabOp} (keepsId : ∀ o, (f o).id = o.id) :
    (s.updFab id f).fabOp? id = (s.fabOp? id).map f :=
  find?_updFirst (fun o h => by rwa [keepsId]) s.fab

theorem fabOp?_updFab_other (s : State) {id k : Nat} {f : FabOp → FabOp} (keepsId : ∀ o, (f o).id = o.id) (h : k ≠ id) :
    (s.updFab id f).fabOp? k = s.fabOp? k := by
  refine find?_updFirst_other (fun o own => ?_) s.fab
  have own : o.id = id := by simpa using own
  simp [keepsId, own, Ne.symm h]

end State

theorem fabOp?_dropFab_same (s : State) (id : Nat) : (dropFab s id).fabOp? id = none := by
  refine List.find?_eq_none.mpr fun o mem => ?_
  obtain ⟨-, other⟩ := List.mem_filter.mp mem
  simpa using other

theorem fabOp?_dropFab_other (s : State) {id k : Nat} (h : k ≠ id) : (dropFab s id).fabOp? k = s.fabOp? k := by
  rw [State.fabOp?, dropFab, List.find?_filter]
  refine congrArg (fun p => s.fab.find? p) (funext fun o => ?_)
  by_cases own : o.id = k
  · simp [own, h]
  · simp [own]

end Sys2Proof.Machine
end

section
/-! What the traffic of memory and the ends of commands count in the dictionary (R270, R312, R425), and that they change
no other entry of it. -/
namespace Sys2Proof.Machine

/-- The entries that count hits and misses in the cache, blocks copied for snapshots, and refused commands. -/
def trafficCounters : List Nat := [0x8053, 0x8040, 0x8074]

/-- From s to t no entry of the dictionary changes but those counters. -/
def OnlyCounts (s t : State) : Prop := ∀ i j, i ∉ trafficCounters → j < 256 → t.odGet i j = s.odGet i j

namespace OnlyCounts
variable {s t u : State}

theorem of_od (h : t.od = s.od) : OnlyCounts s t := fun i j _ _ => State.odGet_congr h i j

theorem refl (s : State) : OnlyCounts s s := of_od rfl

theorem trans (h : OnlyCounts s t) (k : OnlyCounts t u) : OnlyCounts s u :=
  fun i j other sub => (k i j other sub).trans (h i j other sub)

theorem foldl {β : Type} {f : State → β → State} (k : ∀ s b, OnlyCounts s (f s b)) (l : List β) (s : State) :
    OnlyCounts s (l.foldl f s) := by
  induction l generalizing s with
  | nil => exact refl s
  | cons b l ih => exact (k s b).trans (ih _)

theorem odAdd (s : State) {i j : Nat} (n : Nat) (counter : i ∈ trafficCounters) (sub : j < 256) :
    OnlyCounts s (s.odAdd i j n) := by
  intro k l other hl
  refine State.odGet_odAdd_other _ _ _ _ _ _ fun same => other ?_
  have index : k = i := by
    unfold Od.key at same
    omega
  exact index ▸ counter

end OnlyCounts

/-! ### Loads and stores -/

theorem loadLine_onlyCounts (s : State) (a n : Nat) : OnlyCounts s (loadLine s a n) := by
  have touched (s : State) (l : CacheLine) : OnlyCounts s (touchLine s a l) :=
    .of_od (congrArg State.od (touchLine_fr (M := 0x4000000030) rfl s a l rfl) :)
  unfold loadLine
  split
  · exact .refl s
  · dsimp only
    split
    · exact (OnlyCounts.odAdd s 1 (by decide) (by decide)).trans (touched _ _)
    · exact (OnlyCounts.odAdd s 1 (by decide) (by decide)).trans (touched _ _)

theorem sliceLoads_onlyCounts (s : State) (rs : List (Nat × Nat)) : OnlyCounts s (sliceLoads s rs) :=
  OnlyCounts.foldl (fun s (r : Nat × Nat) => loadLine_onlyCounts s r.1 r.2) (rs.flatMap lineParts) s

theorem moveRange_onlyCounts (s : State) (src dst n : Nat) : OnlyCounts s (s.moveRange src dst n) := by
  refine (sliceLoads_onlyCounts s [(src, n)]).trans (.of_od ?_)
  exact (congrArg State.od
    (State.copyRange_fr (M := 0x4000000030) rfl _ src dst n (sliceStore_fr rfl (sliceLoads s [(src, n)]) dst n _ rfl)) :)

theorem copyOnWrite_onlyCounts (s : State) (a n : Nat) : OnlyCounts s (s.copyOnWrite a n) := by
  have moved (p : Snap) (bs : List Nat) (s : State) :
      OnlyCounts s (bs.foldl (fun s b => (snapRuns p b).foldl (fun s r => s.moveRange r.1 (p.stage + r.2.2) r.2.1) s) s) :=
    .foldl (fun s b => .foldl (fun s (r : Nat × Nat × Nat) => moveRange_onlyCounts s r.1 (p.stage + r.2.2) r.2.1)
      (snapRuns p b) s) bs s
  have counted (s : State) (n : Nat) : OnlyCounts s (s.odAdd 0x8040 0 n) := .odAdd s n (by decide) (by decide)
  have noted (s : State) (l : List Snap) : OnlyCounts s { s with snaps := l } := .of_od rfl
  refine OnlyCounts.foldl (fun s p => ?_) s.snaps s
  dsimp only
  split
  · exact .refl s
  · split
    · exact .refl s
    · exact ((moved p _ s).trans (counted _ _)).trans (noted _ _)

theorem store_onlyCounts (s : State) (a : Nat) (bs : List Byte) (bad : List Nat) : OnlyCounts s (s.store a bs bad) := by
  refine (copyOnWrite_onlyCounts s a bs.length).trans (.of_od ?_)
  have noted := State.noteWritten_fr (M := 0x230) rfl (s.copyOnWrite a bs.length) a bs.length rfl
  have written := State.wrBytes_fr (M := 0x230) rfl _ a bs noted
  exact (congrArg State.od (State.markPoison_fr (M := 0x230) rfl _ a bs.length bad written) :)

theorem reachEls_onlyCounts (s : State) (els : List (Nat × List Byte × Bool)) : OnlyCounts s (reachEls s els) := by
  have passed : OnlyCounts s (sliceStores s (runBytes els)) :=
    .of_od (congrArg State.od (sliceStores_fr (M := 0x4000000030) rfl s (runBytes els) rfl) :)
  exact passed.trans (OnlyCounts.foldl (fun s r => store_onlyCounts s _ _ _) _ _)

/-! ### The end of a command -/

theorem setRing_onlyCounts (s : State) (n : Nat) (r : Ring) : OnlyCounts s (s.setRing n r) := .of_od rfl

theorem wr_onlyCounts (s : State) (a n v : Nat) (p : Bool) : OnlyCounts s (s.wr a n v p) :=
  store_onlyCounts s a (leBytes n v) _

theorem flushHeld_onlyCounts (s : State) (n fuel : Nat) : OnlyCounts s (flushHeld s n fuel) := by
  induction fuel generalizing s with
  | zero => exact .refl s
  | succ fuel ih =>
    unfold flushHeld
    dsimp only
    split
    · exact .refl s
    · split
      · exact .refl s
      · exact ((wr_onlyCounts s _ _ _ _).trans (setRing_onlyCounts _ _ _)).trans (ih _)

theorem postRecord_onlyCounts (s : State) (n serial word : Nat) : OnlyCounts s (postRecord s n serial word) := by
  unfold postRecord
  dsimp only
  split
  · exact (setRing_onlyCounts s n _).trans (flushHeld_onlyCounts _ n _)
  · exact setRing_onlyCounts s n _

theorem countRefused_onlyCounts (s : State) (status : Nat) : OnlyCounts s (countRefused s status) := by
  unfold countRefused
  split
  · exact OnlyCounts.odAdd s 1 (by decide) (by decide)
  · exact .refl s

theorem complete_onlyCounts (s : State) (id status : Nat) (d : Details) : OnlyCounts s (complete s id status d) := by
  unfold complete
  split
  · exact .refl s
  · next c _ =>
    generalize recordOf c.entry c.k (c.disposition status) status d = record
    refine ((postRecord_onlyCounts s c.ring c.serial record).trans (countRefused_onlyCounts _ status)).trans (.of_od ?_)
    exact (congrArg State.od (State.updCtx_fr (M := 0x280000) rfl _ _ _ (State.hide_cmds rfl)) :)

end Sys2Proof.Machine
end

section
/-! The work of a fabric operation (R349 to R358): flits that it hands over, bytes that it reads and that land. What it
changes of the other operations, of the ports, of the dictionary and of what waits to leave. -/
namespace Sys2Proof.Machine

/-- Every port stays in its state, and the dictionary keeps its entries. -/
structure PortsKept (s t : State) : Prop where
  states : ∀ q, (t.port q).state = (s.port q).state
  counts : OnlyCounts s t

namespace PortsKept
variable {s t u : State}

theorem of_ports (ports : t.ports = s.ports) (counts : OnlyCounts s t) : PortsKept s t where
  states q := by rw [State.port, State.port, ports]
  counts := counts

theorem refl (s : State) : PortsKept s s := of_ports rfl (.refl s)

theorem trans (h : PortsKept s t) (k : PortsKept t u) : PortsKept s u where
  states q := (k.states q).trans (h.states q)
  counts := h.counts.trans k.counts

theorem foldl {β : Type} {f : State → β → State} (k : ∀ s b, PortsKept s (f s b)) (l : List β) (s : State) :
    PortsKept s (l.foldl f s) := by
  induction l generalizing s with
  | nil => exact refl s
  | cons b l ih => exact (k s b).trans (ih _)

theorem setPort (s : State) (p : Nat) {v : Port} (state : v.state = (s.port p).state) : PortsKept s (s.setPort p v) where
  states q := by
    by_cases own : q = p
    · rw [own, State.port_setPort_same, state]
    · rw [State.port_setPort_other _ _ _ _ own]
  counts := .of_od rfl

theorem complete (s : State) (id status : Nat) (d : Details) : PortsKept s (complete s id status d) :=
  of_ports (congrArg State.ports (complete_fr (M := 0x4010380270) rfl s id status d rfl) :)
    (complete_onlyCounts s id status d)

end PortsKept

/-- What an operation keeps while it works: whether it has started, and over which planes it is split. -/
def FabOp.plan (o : FabOp) : Bool × List Stripe := (o.started, o.stripes)

/-- From s to t operation id may have worked: every other operation stays, its own plan stays, ports and dictionary are
kept, and what waits to leave still does. -/
structure OpWorks (id : Nat) (s t : State) : Prop extends PortsKept s t where
  others : ∀ k, k ≠ id → t.fabOp? k = s.fabOp? k
  plan : (t.fabOp? id).map FabOp.plan = (s.fabOp? id).map FabOp.plan
  sent : ∀ m ∈ s.outbox, m ∈ t.outbox

namespace OpWorks
variable {id : Nat} {s t u : State}

theorem of_fab (fab : t.fab = s.fab) (kept : PortsKept s t) (sent : ∀ m ∈ s.outbox, m ∈ t.outbox) : OpWorks id s t where
  toPortsKept := kept
  others k _ := State.fabOp?_congr fab k
  plan := by rw [State.fabOp?_congr fab]
  sent := sent

/-- Where fabric, ports and outbox stay as they are. -/
theorem of_memory (fab : t.fab = s.fab) (ports : t.ports = s.ports) (outbox : t.outbox = s.outbox)
    (counts : OnlyCounts s t) : OpWorks id s t :=
  of_fab fab (.of_ports ports counts) fun m h => by rwa [outbox]

theorem refl (s : State) : OpWorks id s s := of_memory rfl rfl rfl (.refl s)

theorem trans (h : OpWorks id s t) (k : OpWorks id t u) : OpWorks id s u where
  toPortsKept := h.toPortsKept.trans k.toPortsKept
  others j other := (k.others j other).trans (h.others j other)
  plan := k.plan.trans h.plan
  sent m := k.sent m ∘ h.sent m

theorem foldl {β : Type} {f : State → β → State} (k : ∀ s b, OpWorks id s (f s b)) (l : List β) (s : State) :
    OpWorks id s (l.foldl f s) := by
  induction l generalizing s with
  | nil => exact refl s
  | cons b l ih => exact (k s b).trans (ih _)

theorem updFab (s : State) {f : FabOp → FabOp} (keepsId : ∀ o, (f o).id = o.id := by exact fun _ => rfl)
    (keepsPlan : ∀ o, (f o).plan = o.plan := by exact fun _ => rfl) : OpWorks id s (s.updFab id f) where
  toPortsKept := .of_ports rfl (.of_od rfl)
  others _ other := State.fabOp?_updFab_other s keepsId other
  plan := by
    rw [State.fabOp?_updFab_same s id keepsId, Option.map_map]
    exact congrArg (fun g => (s.fabOp? id).map g) (funext keepsPlan)
  sent _ h := h

theorem setPort (s : State) (p : Nat) {v : Port} (state : v.state = (s.port p).state := by rfl) :
    OpWorks id s (s.setPort p v) :=
  of_fab rfl (.setPort s p state) fun _ h => h

theorem send (s : State) (m : Msg) : OpWorks id s (s.send m) := by
  have frame := State.send_eq s m
  exact of_fab (congrArg State.fab frame :) (.of_ports (State.send_ports s m) (.of_od (State.send_od s m)))
    fun _ h => (State.mem_send_outbox ..).mpr (.inr h)

end OpWorks

/-! ### Flits -/

section
variable {id : Nat} (s : State)

theorem emit_works (p seq crVl crRet : Nat) (f : Flit) : OpWorks id s (emit s p seq crVl crRet f) := by
  unfold emit
  exact .send s _

theorem pumpN_works (p n : Nat) : OpWorks id s (pumpN s p n) := by
  induction n generalizing s with
  | zero => exact .refl s
  | succ n ih =>
    unfold pumpN
    dsimp only
    split
    · exact .refl s
    · split
      · exact .refl s
      · exact .trans (.trans (.setPort s p) (emit_works _ p _ _ _ _)) (ih _)

theorem enqueue_works (p : Nat) (f : Flit) : OpWorks id s (enqueue s p f) :=
  .trans (.setPort s p) (pumpN_works _ p _)

theorem sendTo_works (plane rank : Nat) (f : Flit) : OpWorks id s (sendTo s id plane rank f) := by
  unfold sendTo
  split
  · exact .refl s
  · dsimp only
    split
    · exact enqueue_works s plane _
    · exact .updFab s

theorem sendReduce_works (o : FabOp) (plane idx rank : Nat) (c : Chunk) (vals : List (F32 × Nat)) :
    OpWorks o.id s (sendReduce s o plane idx rank c vals) :=
  .trans (.updFab s) (sendTo_works _ plane rank _)

theorem sendData_works (o : FabOp) (plane idx : Nat) (ranks : List Nat) (c : Chunk) (payload : List Byte) (poison : Nat) :
    OpWorks o.id s (sendData s o plane idx ranks c payload poison) :=
  OpWorks.foldl (fun s r => sendTo_works s plane r _) ranks s

theorem markOver_works (plane idx : Nat) : OpWorks id s (markOver s id plane idx) :=
  .updFab s

/-! ### Sources and destinations -/

theorem readSource_works (a n : Nat) : OpWorks id s (readSource s id a n) := by
  have loaded : OpWorks id s (sliceLoads s [(a, n)]) := by
    have frame := sliceLoads_fr (M := 0x4000000070) rfl s [(a, n)] rfl
    exact .of_memory (congrArg State.fab frame :) (congrArg State.ports frame :) (congrArg State.outbox frame :)
      (sliceLoads_onlyCounts s _)
  have drawn (s : State) : OpWorks id s s.draw := .of_memory rfl rfl rfl (.of_od rfl)
  unfold readSource
  dsimp only
  split
  · exact .trans (loaded.trans (drawn _)) (.updFab _)
  · exact loaded

theorem landEls_works (n : Nat) (els : List (Nat × List Byte × Bool)) : OpWorks id s (landEls s id n els) := by
  have stored (els : List (Nat × List Byte × Bool)) : OpWorks id s (reachEls s els) := by
    have frame := reachEls_fr (M := 0x4010000270) rfl s els rfl
    exact .of_memory (congrArg State.fab frame :) (congrArg State.ports frame :) (congrArg State.outbox frame :)
      (reachEls_onlyCounts s els)
  exact .trans (stored _) (.updFab _)

theorem landBytes_works (a : Nat) (payload : List Byte) (poison : Nat) : OpWorks id s (landBytes s id a payload poison) :=
  landEls_works s _ _

theorem landValues_works (o : FabOp) (c : Chunk) (a : Nat) (vals : List (F32 × Bool)) :
    OpWorks o.id s (landValues s o c a vals) :=
  landEls_works s _ _

/-! ### Parts of an operation -/

theorem finishReduce_works (o : FabOp) (plane idx : Nat) (c : Chunk) (vals : List (F32 × Nat)) :
    OpWorks o.id s (finishReduce s o plane idx c vals) := by
  have landed : OpWorks o.id s (if o.scatters && decide (o.me ≠ c.owner) then s
      else landValues s o c (o.dst + c.dst) (vals.map fun v => (v.1, v.2 == 0xFF))) := by
    split
    · exact .refl s
    · exact landValues_works s o c _ _
  have sent (s : State) (below : List Nat) (payload : List Byte) (poison : Nat) : OpWorks o.id s
      (if o.scatters then below.foldl (fun s r => sendReduce s o plane idx r c vals) s
        else sendData s o plane idx below c payload poison) := by
    split
    · exact .foldl (fun s r => sendReduce_works s o plane idx r c vals) below s
    · exact sendData_works s o plane idx below c payload poison
  exact (landed.trans (sent _ _ _ _)).trans (markOver_works _ plane idx)

theorem passSum_works (o : FabOp) (plane idx : Nat) (c : Chunk) (vals : List (F32 × Nat)) :
    OpWorks o.id s (passSum s o plane idx c vals) := by
  unfold passSum
  split
  · dsimp only
    split
    · exact (sendReduce_works s o plane idx _ c vals).trans (markOver_works _ plane idx)
    · exact sendReduce_works s o plane idx _ c vals
  · exact finishReduce_works s o plane idx c vals

theorem startChunk_works (o : FabOp) (plane idx : Nat) (c : Chunk) : OpWorks o.id s (startChunk s o plane idx c) := by
  unfold startChunk
  dsimp only
  split
  · split
    · exact (readSource_works s _ _).trans (passSum_works _ o plane idx c _)
    · exact .refl s
  · split
    · split
      · exact .refl s
      · split
        · exact ((readSource_works s _ _).trans (landBytes_works _ _ _ _)).trans (markOver_works _ plane idx)
        · exact ((readSource_works s _ _).trans (sendData_works _ o plane idx _ c _ _)).trans (markOver_works _ plane idx)
    · split
      · exact .refl s
      · have landed := (readSource_works (id := o.id) s c.src (c.count * c.pSize)).trans
          (landBytes_works _ (o.dst + c.dst) ((s.reachBytes c.src (c.count * c.pSize)).map (·.1))
            (poisonBits (s.reachBytes c.src (c.count * c.pSize))))
        refine landed.trans ?_
        split
        · exact (markOver_works _ plane idx).trans (sendData_works _ o plane idx _ c _ _)
        · refine OpWorks.trans ?_ (sendData_works _ o plane idx _ c _ _)
          split
          · exact markOver_works _ plane idx
          · exact .refl _

theorem startStripe_works (k : Nat) : OpWorks id s (startStripe s id k) := by
  unfold startStripe
  split
  · exact .refl s
  · split
    · exact .refl s
    · split
      · exact .refl s
      · refine OpWorks.foldl (fun s f => ?_) _ s
        dsimp only
        split
        · next p found =>
          have own := State.id_of_fabOp? found
          subst own
          exact startChunk_works s p _ _ _
        · exact .refl s

theorem startStripes_works (first : Nat) : OpWorks id s (startStripes s id first) := by
  unfold startStripes
  split
  · exact .refl s
  · exact OpWorks.foldl (fun s k => startStripe_works s (first + k)) _ s

end

end Sys2Proof.Machine
end

section
/-! Fabric operations start (R349, R352, R413). -/
namespace Sys2Proof.Machine

theorem exec_fabricOpStart (s : State) (id : Nat) : exec (.fabricOpStart id) s = .next (fabStart s id) := rfl

/-- From the frame of an operation's work: the rest of the state, in one equation. -/
theorem State.eq_of_hide_fabWork {s t : State} (h : t.hide 0x40004013000272 = s.hide 0x40004013000272) :
    t = { s with free := t.free, mem := t.mem, poison := t.poison, od := t.od, cells := t.cells, ports := t.ports,
                 fab := t.fab, snaps := t.snaps, cache := t.cache, outbox := t.outbox } := by
  cases s
  cases t
  cases h
  rfl

/-- R352: the planes that the elements of an operation are split over when it starts. -/
def opPlanes (s : State) (o : FabOp) : List Nat := if o.size ≤ 1 then [0] else splitPlanes s

/-- An operation once it has started, with a stripe for each plane. -/
def FabOp.begun (planes : List Nat) (o : FabOp) : FabOp :=
  { o with started := true, stripes := cutStripes 0 (o.segs.map (·.count)).sum planes }

/-- The state once an operation has started and every other member is told. -/
def fabTold (s : State) (id : Nat) (o : FabOp) : State :=
  let t := s.updFab id (FabOp.begun (opPlanes s o))
  if o.size ≤ 1 then t else t.send (.started (ownNotice s o))

section
variable {s : State} {id : Nat} {o : FabOp}

theorem fabStart_eq (found : s.fabOp? id = some o) (idle : o.started = false) (ready : o.ready s = true)
    (readable : loadHeld s o.sending = false) :
    fabStart s id =
      if touchesAbsent s (o.landing ++ o.sending) then endFab s o St.notResident
      else startStripes (fabTold s id o) id 0 := by
  simp only [fabStart, found, idle, ready, readable]
  rfl

theorem fabTold_frame : (fabTold s id o).hide 0x40004013000272 = s.hide 0x40004013000272 := by
  have begun : (s.updFab id (FabOp.begun (opPlanes s o))).hide 0x40004013000272 = s.hide 0x40004013000272 :=
    State.updFab_fr rfl s id _ rfl
  unfold fabTold
  dsimp only
  split
  · exact begun
  · exact State.send_fr rfl _ _ begun

theorem fab_fabTold (s : State) (id : Nat) (o : FabOp) :
    (fabTold s id o).fab = (s.updFab id (FabOp.begun (opPlanes s o))).fab := by
  unfold fabTold
  dsimp only
  split
  · rfl
  · exact (congrArg State.fab (State.send_eq _ _) :)

theorem mem_outbox_fabTold (several : 1 < o.size) : .started (ownNotice s o) ∈ (fabTold s id o).outbox := by
  rw [fabTold, if_neg (Nat.not_le.mpr several)]
  exact (State.mem_send_outbox ..).mpr (.inl rfl)

/-- An operation that starts has its stripes, the members are told, and no other operation changes. -/
theorem startStripes_fabTold (found : s.fabOp? id = some o) :
    let t := startStripes (fabTold s id o) id 0
    (∃ p, t.fabOp? id = some p ∧ p.started = true ∧
      p.stripes = cutStripes 0 (o.segs.map (·.count)).sum (opPlanes s o)) ∧
    (∀ k, k ≠ id → t.fabOp? k = s.fabOp? k) ∧ (1 < o.size → .started (ownNotice s o) ∈ t.outbox) := by
  have works := startStripes_works (id := id) (fabTold s id o) 0
  have fab := fab_fabTold s id o
  have keepsId (p : FabOp) : (p.begun (opPlanes s o)).id = p.id := rfl
  refine ⟨?_, fun k other => ?_, fun several => works.sent _ (mem_outbox_fabTold several)⟩
  · have plan := works.plan
    rw [State.fabOp?_congr fab, State.fabOp?_updFab_same s id keepsId, found] at plan
    obtain ⟨p, own, same⟩ := Option.map_eq_some_iff.mp plan
    obtain ⟨started, stripes⟩ := Prod.mk.inj same
    exact ⟨p, own, started, stripes⟩
  · rw [works.others k other, State.fabOp?_congr fab, State.fabOp?_updFab_other s keepsId other]

end

end Sys2Proof.Machine
end

section
/-! Fabric operations meet their notices (R348, R349). -/
namespace Sys2Proof.Machine

theorem exec_fabricStartNotice {s : State} (rails : s.power.rails = true) (n : Notice) :
    exec (.fabricStartNotice n.ctx n.group n.seq n.sender n.op n.dst n.kind n.count n.fmt) s = .next (startNotice s n) :=
  congrArg Host.Outcome.next (if_pos rails)

/-- From a frame of ports, operations and outbox: the rest of the state, in one equation. -/
theorem State.eq_of_hide_flitsSent {s t : State} (h : t.hide 0x40000003000000 = s.hide 0x40000003000000) :
    t = { s with ports := t.ports, fab := t.fab, outbox := t.outbox } := by
  cases s
  cases t
  cases h
  rfl

/-- An operation that has met a notice: its sender has started, and no flit waits for it any longer. -/
def FabOp.met (n : Notice) (o : FabOp) : FabOp :=
  { o with
    starts := o.starts ++ [(n.sender, n.op, n.dst)]
    held := o.held.filter fun h => o.ranks.getD h.2.1 0 != n.sender }

@[simp] theorem FabOp.id_met (n : Notice) (o : FabOp) : (o.met n).id = o.id := rfl

/-- The state once an operation has met a notice, and the flits held for its sender are handed to their ports. -/
def noticeMet (s : State) (o : FabOp) (n : Notice) : State :=
  (o.held.filter fun h => o.ranks.getD h.2.1 0 == n.sender).foldl (fun s h => sendTo s o.id h.1 h.2.1 h.2.2)
    (s.updFab o.id (FabOp.met n))

section
variable {s : State} {n : Notice} {o : FabOp}

theorem startNotice_of_unfit (plain : n.kind ≠ 18) (unfit : ∀ o ∈ s.fab, n.fits o = false) :
    startNotice s n = { s with notices := s.notices ++ [n] } := by
  have none_fits : (s.fab.find? fun o => n.fits o) = none := by simpa [List.find?_eq_none] using unfit
  rw [startNotice, if_neg plain, none_fits]

theorem startNotice_of_fits (plain : n.kind ≠ 18) (fits : (s.fab.find? fun o => n.fits o) = some o) :
    startNotice s n = takeNotice s o.id n := by
  rw [startNotice, if_neg plain, fits]

theorem takeNotice_of_mismatch (found : s.fabOp? o.id = some o)
    (mismatch : n.kind ≠ o.peerCode ∨ n.count ≠ o.count ∨ n.fmt ≠ o.fmt) :
    takeNotice s o.id n = endFab (if o.started then s else s.send (.started (ownNotice s o))) o St.badDescriptor := by
  simp only [takeNotice, found]
  exact if_pos mismatch

theorem takeNotice_of_match (found : s.fabOp? o.id = some o) (kind : n.kind = o.peerCode) (count : n.count = o.count)
    (fmt : n.fmt = o.fmt) : takeNotice s o.id n = noticeMet s o n := by
  simp only [takeNotice, found]
  exact if_neg (by simp [kind, count, fmt])

/-- R349: a flit for a member that has started goes to its port, and is not held with the operation. -/
theorem fab_sendTo_of_started {id rank : Nat} (found : s.fabOp? id = some o)
    (started : (o.starts.find? fun t => t.1 == o.ranks.getD rank 0).isSome = true) (plane : Nat) (f : Flit) :
    (sendTo s id plane rank f).fab = s.fab := by
  obtain ⟨t, ht⟩ := Option.isSome_iff_exists.mp started
  simp only [sendTo, found, ht]
  exact (congrArg State.fab (enqueue_fr (M := 0x40000001000000) rfl s plane _ rfl) :)

theorem fab_noticeMet (found : s.fabOp? o.id = some o) : (noticeMet s o n).fab = (s.updFab o.id (FabOp.met n)).fab := by
  have met : (s.updFab o.id (FabOp.met n)).fabOp? o.id = some (o.met n) := by
    rw [State.fabOp?_updFab_same s o.id (FabOp.id_met n), found]
    rfl
  refine List.foldlRecOn _ _ (motive := fun t => t.fab = (s.updFab o.id (FabOp.met n)).fab) rfl fun (t : State) ih h mem => ?_
  obtain ⟨-, receiver⟩ := List.mem_filter.mp mem
  refine (fab_sendTo_of_started ((State.fabOp?_congr ih o.id).trans met) ?_ h.1 h.2.2).trans ih
  rw [List.find?_isSome]
  exact ⟨(n.sender, n.op, n.dst), List.mem_append_right _ (List.mem_singleton.mpr rfl),
    beq_iff_eq.mpr (beq_iff_eq.mp receiver).symm⟩

theorem noticeMet_frame (s : State) (o : FabOp) (n : Notice) :
    (noticeMet s o n).hide 0x40000003000000 = s.hide 0x40000003000000 :=
  foldl_fr (State.updFab_fr rfl s o.id _ rfl) fun t h ht => sendTo_fr rfl t o.id h.1 h.2.1 h.2.2 ht

theorem fabOp?_noticeMet_same (found : s.fabOp? o.id = some o) : (noticeMet s o n).fabOp? o.id = some (o.met n) := by
  rw [State.fabOp?_congr (fab_noticeMet found), State.fabOp?_updFab_same s o.id (FabOp.id_met n), found]
  rfl

theorem fabOp?_noticeMet_other (found : s.fabOp? o.id = some o) {k : Nat} (h : k ≠ o.id) :
    (noticeMet s o n).fabOp? k = s.fabOp? k := by
  rw [State.fabOp?_congr (fab_noticeMet found), State.fabOp?_updFab_other s (FabOp.id_met n) h]

end

end Sys2Proof.Machine
end

section
/-! The end of a fabric operation, with its command (R351, R450). -/
namespace Sys2Proof.Machine

theorem exec_fabricTimeout (s : State) (id : Nat) : exec (.fabricTimeout id) s = .next (fabTimeout s id) := rfl

/-- From the frame of the end of an operation: the rest of the state, in one equation. -/
theorem State.eq_of_hide_fabEnded {s t : State} (h : t.hide 0x4012380270 = s.hide 0x4012380270) :
    t = { s with mem := t.mem, poison := t.poison, od := t.od, cells := t.cells, ctxs := t.ctxs, rings := t.rings,
                 cmds := t.cmds, fab := t.fab, snaps := t.snaps, cache := t.cache } := by
  cases s
  cases t
  cases h
  rfl

section
variable (s : State) (o : FabOp) (status : Nat)

theorem fab_endFab : (endFab s o status).fab = (dropFab s o.id).fab := by
  unfold endFab
  dsimp only
  split
  · exact (congrArg State.fab (complete_fr (M := 0x4010380270) rfl (dropFab s o.id) _ status (fabDetails o) rfl) :)
  · rfl

theorem fabOp?_endFab_same : (endFab s o status).fabOp? o.id = none :=
  (State.fabOp?_congr (fab_endFab s o status) o.id).trans (fabOp?_dropFab_same s o.id)

theorem fabOp?_endFab_other {k : Nat} (h : k ≠ o.id) : (endFab s o status).fabOp? k = s.fabOp? k :=
  (State.fabOp?_congr (fab_endFab s o status) k).trans (fabOp?_dropFab_other s h)

theorem cmd?_endFab {o : FabOp} {c : Nat} (h : o.cmd = some c) : (endFab s o status).cmd? c = none := by
  simp only [endFab, h]
  exact cmd?_complete _ _ _ _

end

theorem fabTimeout_of_found {s : State} {id : Nat} {o : FabOp} (found : s.fabOp? id = some o) :
    fabTimeout s id = endFab s o St.targetReset := by
  rw [fabTimeout, found]

end Sys2Proof.Machine
end

section
/-! A counter after an addition that releases nobody (R56, R351, R383). -/
namespace Sys2Proof.Machine

/-- What a listed key reads as is listed. -/
theorem Sp.exists_get_of_mem {α : Type} (d : α) {m : Sparse α} {e : Nat × α} (h : e ∈ m) :
    ∃ e' ∈ m, Sp.get d m e.1 = e'.2 := by
  induction m with
  | nil => cases h
  | cons f m ih =>
    rw [Sp.get]
    split
    · exact ⟨f, List.mem_cons_self, rfl⟩
    · next other =>
      rcases List.mem_cons.mp h with rfl | rest
      · exact absurd rfl other
      · obtain ⟨e', he', same⟩ := ih rest
        exact ⟨e', List.mem_cons_of_mem f he', same⟩

theorem State.obj_congr {s t : State} (h : t.sync = s.sync) (k : Nat) : t.obj k = s.obj k := by
  rw [obj, obj, h]

theorem sync_settleObj (s : State) (i : Nat) (o : SyncObj) :
    (settleObj s i o).sync = (s.setObj i (o.settle o.waiters [] []).1).sync :=
  (congrArg State.sync
    (foldl_fr (M := 0x200) rfl fun t (w : Waiter × Nat) h => giveReply_fr rfl t w.1 w.2 i h) :)

theorem obj_settleObj_other (s : State) {i k : Nat} (o : SyncObj) (h : k ≠ i) : (settleObj s i o).obj k = s.obj k :=
  (State.obj_congr (sync_settleObj s i o) k).trans (State.obj_setObj_other s i k _ h)

theorem obj_settleObj_of_no_waiters (s : State) (i : Nat) {o : SyncObj} (alone : o.waiters = []) :
    (settleObj s i o).obj i = o := by
  refine (State.obj_congr (sync_settleObj s i o) i).trans ((State.obj_setObj_same s i _).trans ?_)
  cases o
  cases alone
  rfl

theorem sync_tellFar (s : State) (o : SyncObj) (op : SyncOp) (operand : Nat) :
    (tellFar s o op operand).sync = s.sync := by
  unfold tellFar
  split
  · exact State.send_sync _ _
  · rfl

/-- From s to t object k stays, and no stream gets another low-water event. -/
structure LowKept (k : Nat) (s t : State) : Prop where
  obj : t.obj k = s.obj k
  low : ∀ m, (t.stream m).lowEvent = (s.stream m).lowEvent

/-- R383: the low-water mark of a stream whose event is another object leaves the object. -/
theorem lowWaterAt_lowKept {k : Nat} (s : State) (n before after : Nat) (h : (s.stream n).lowEvent ≠ k) :
    LowKept k s (lowWaterAt s n before after) := by
  unfold lowWaterAt
  dsimp only
  split
  · refine ⟨?_, fun m => ?_⟩
    · rw [State.obj_congr (sync_tellFar ..), obj_settleObj_other _ _ (Ne.symm h)]
      rfl
    · have streams (u : State) (e d : SyncObj) :
          (tellFar (settleObj u (s.stream n).lowEvent e) d .eventSet 0).streams = u.streams :=
        (congrArg State.streams (tellFar_fr (M := 0x40000000040200) rfl _ d .eventSet 0 (settleObj_fr rfl u _ e rfl)) :)
      rw [State.stream, streams]
      by_cases own : m = n
      · subst own
        exact (congrArg Stream.lowEvent (State.stream_updStream_same s m fun t => { t with low := true })).trans rfl
      · exact congrArg Stream.lowEvent (Sp.get_set_other _ _ _ _ _ own)
  · exact ⟨rfl, fun _ => rfl⟩

theorem obj_lowWater (s : State) (i before k : Nat) (h : ∀ e ∈ s.streams, e.2.lowEvent ≠ k) :
    (lowWater s i before).obj k = s.obj k := by
  have listed (n : Nat) (mem : n ∈ (s.streams.filter fun e => e.2.consumedCtr == i).map (·.1)) :
      (s.stream n).lowEvent ≠ k := by
    obtain ⟨e, he, rfl⟩ := List.mem_map.mp mem
    obtain ⟨e', he', same⟩ := Sp.exists_get_of_mem Stream.init (List.mem_filter.mp he).1
    rw [State.stream, same]
    exact h e' he'
  refine (List.foldlRecOn _ _ (motive := LowKept k s) ⟨rfl, fun _ => rfl⟩ fun (t : State) ih n mem => ?_).obj
  have kept : LowKept k t (lowWaterAt t n before (t.obj i).value) :=
    lowWaterAt_lowKept t n before _ (by rw [ih.low]; exact listed n mem)
  exact ⟨kept.obj.trans ih.obj, fun m => (kept.low m).trans (ih.low m)⟩

theorem obj_syncChange_add (s : State) (k v : Nat) (counter : (s.obj k).kind = .counter) (alone : (s.obj k).waiters = [])
    (unmarked : ∀ e ∈ s.streams, e.2.lowEvent ≠ k) : (syncChange s k .add v).obj k = (s.obj k).apply .add v := by
  have used : (s.obj k).kind ≠ .free := by
    rw [counter]
    decide
  have changed : syncChange s k .add v =
      lowWater (tellFar (settleObj s k ((s.obj k).apply .add v)) (s.obj k) .add v) k (s.obj k).value :=
    if_neg used
  have streams : (tellFar (settleObj s k ((s.obj k).apply .add v)) (s.obj k) .add v).streams = s.streams :=
    (congrArg State.streams (tellFar_fr (M := 0x40000000040200) rfl _ _ .add v (settleObj_fr rfl s k _ rfl)) :)
  rw [changed, obj_lowWater _ _ _ _ (by rwa [streams]), State.obj_congr (sync_tellFar ..)]
  exact obj_settleObj_of_no_waiters s k alone

end Sys2Proof.Machine
end

section
/-! Fabric operations complete (R265, R351). -/
namespace Sys2Proof.Machine

theorem exec_fabricOpComplete (s : State) (id : Nat) (faulty : Option Nat) :
    exec (.fabricOpComplete id faulty) s = .next (fabOpComplete s id faulty) := rfl

/-- From the frame of the end of a host operation: the rest of the state, in one equation. -/
theorem State.eq_of_hide_fabCompleted {s t : State} (h : t.hide 0x400040923c0270 = s.hide 0x400040923c0270) :
    t = { s with mem := t.mem, poison := t.poison, od := t.od, cells := t.cells, sync := t.sync, ctxs := t.ctxs,
                 rings := t.rings, cmds := t.cmds, fab := t.fab, snaps := t.snaps, streams := t.streams,
                 cache := t.cache, outbox := t.outbox } := by
  cases s
  cases t
  cases h
  rfl

section
variable {s : State} {id : Nat} {faulty : Option Nat} {o : FabOp}

/-- The operations of host commands, whose notice codes are those of R447. -/
theorem fabOpComplete_of_host (found : s.fabOp? id = some o) (started : o.started = true) (whole : o.whole s = true)
    (host : o.kind.code ≤ 4) : fabOpComplete s id faulty = fabComplete s { o with faulty := o.faulty.or faulty } := by
  have plain : (if o.kind = .stepGather ∧ o.landedAll then gatherLanded s o else s) = s := by
    refine if_neg fun ⟨gather, _⟩ => ?_
    rw [gather] at host
    exact absurd host (by decide)
  simp only [fabOpComplete, found, started, plain, whole]
  cases kind : o.kind with
  | exchange | stepGather | mirror =>
    rw [kind] at host
    exact absurd host (by decide)
  | reduceScatter | allReduce | allGather | broadcast | put => rfl

theorem fabOpComplete_of_exchange (found : s.fabOp? id = some o) (started : o.started = true) (whole : o.whole s = true)
    (kind : o.kind = .exchange) :
    fabOpComplete s id faulty = updStep' (dropFab s id) o.ctx fun t =>
      { t with exchanged := true, faulty := t.faulty.or (o.faulty.or faulty), poison := t.poison || o.poisoned } := by
  have plain : (if o.kind = .stepGather ∧ o.landedAll then gatherLanded s o else s) = s := if_neg (by simp [kind])
  simp only [fabOpComplete, found, started, plain, whole]
  rw [kind]
  rfl

theorem fabOpComplete_of_stepGather (found : s.fabOp? id = some o) (started : o.started = true)
    (kind : o.kind = .stepGather) (landed : o.landedAll = true) :
    fabOpComplete s id faulty =
      if o.whole (gatherLanded s o) then dropFab (gatherLanded s o) id else gatherLanded s o := by
  have gathered : (if o.kind = .stepGather ∧ o.landedAll then gatherLanded s o else s) = gatherLanded s o :=
    if_pos ⟨kind, landed⟩
  simp only [fabOpComplete, found, started, gathered]
  rw [kind]
  cases o.whole (gatherLanded s o) <;> rfl

/-- R351: what the end of a host operation leaves. -/
theorem fabComplete_completes {c k : Nat} (s : State) (cmd : o.cmd = some c) (done : o.done = some k) :
    let t := fabComplete s o
    t.fabOp? o.id = none ∧ (∀ j, j ≠ o.id → t.fabOp? j = s.fabOp? j) ∧ t.cmd? c = none ∧
      ((s.obj k).kind = .counter → (s.obj k).waiters = [] → (∀ e ∈ s.streams, e.2.lowEvent ≠ k) →
        t.obj k = (s.obj k).apply .add 1) := by
  have counted : fabComplete s o = endFab (syncChange s k .add 1) o (fabStatus o) := by
    simp only [fabComplete, done]
  have fab : (syncChange s k .add 1).fab = s.fab :=
    (congrArg State.fab (syncChange_fr (M := 0x40000080040240) rfl s k .add 1 rfl) :)
  have ended : (endFab (syncChange s k .add 1) o (fabStatus o)).sync = (syncChange s k .add 1).sync :=
    (congrArg State.sync (endFab_fr (M := 0x4012380270) rfl (syncChange s k .add 1) o (fabStatus o) rfl) :)
  rw [counted]
  exact ⟨fabOp?_endFab_same _ o _,
    fun j other => (fabOp?_endFab_other _ o _ other).trans (State.fabOp?_congr fab j), cmd?_endFab _ _ cmd,
    fun counter alone unmarked =>
      (State.obj_congr ended k).trans (obj_syncChange_add s k 1 counter alone unmarked)⟩

theorem exchange_completes {x : Ctx} {t : Step} (found : s.fabOp? id = some o) (started : o.started = true)
    (whole : o.whole s = true) (kind : o.kind = .exchange) (ctx : s.ctx? o.ctx = some x) (opened : x.step = some t) :
    let u := fabOpComplete s id faulty
    ∃ v, u = { s with ctxs := u.ctxs, fab := u.fab } ∧ u.ctx? o.ctx = some { x with step := some v } ∧
      v.exchanged = true ∧ v.poison = (t.poison || o.poisoned) ∧ v.faulty = t.faulty.or (o.faulty.or faulty) ∧
      OnlyCtx s u o.ctx ∧ u.fabOp? id = none := by
  have kept : (dropFab s id).ctx? o.ctx = some x := ctx
  dsimp only
  rw [fabOpComplete_of_exchange found started whole kind, updStep', State.updCtx_eq_setCtx kept, opened]
  exact ⟨_, rfl, State.ctx?_setCtx_same _ _ _, rfl, rfl, rfl, fun c other => State.ctx?_setCtx_other _ _ _ _ other,
    fabOp?_dropFab_same s id⟩

end

end Sys2Proof.Machine
end

section
/-! The statement of the start and the end of fabric operations (R344, R349 to R351, R361). -/
namespace Sys2Proof.Machine

theorem fabricOpStart_starts {s : State} {id : Nat} {o : FabOp} (found : s.fabOp? id = some o)
    (idle : o.started = false) (ready : o.ready s = true) (readable : loadHeld s o.sending = false)
    (present : touchesAbsent s (o.landing ++ o.sending) = false) :
    ∃ t p, exec (.fabricOpStart id) s = .next t ∧
      t = { s with free := t.free, mem := t.mem, poison := t.poison, od := t.od, cells := t.cells, ports := t.ports,
                   fab := t.fab, snaps := t.snaps, cache := t.cache, outbox := t.outbox } ∧
      t.fabOp? id = some p ∧ p.started = true ∧ (∀ k, k ≠ id → t.fabOp? k = s.fabOp? k) ∧
      p.stripes = cutStripes 0 (o.segs.map (·.count)).sum (if o.size ≤ 1 then [0] else splitPlanes s) ∧
      (1 < o.size → .started (ownNotice s o) ∈ t.outbox) := by
  obtain ⟨⟨p, own, started, stripes⟩, others, told⟩ := startStripes_fabTold found
  refine ⟨_, p, ?_, State.eq_of_hide_fabWork (startStripes_fr rfl _ id 0 fabTold_frame), own, started, others, stripes, told⟩
  rw [exec_fabricOpStart, fabStart_eq found idle ready readable, present]
  rfl

theorem fabricStartNotice_meets {s : State} {n : Notice} {o : FabOp} (rails : s.power.rails = true)
    (plain : n.kind ≠ 18) (fits : (s.fab.find? fun o => n.fits o) = some o) (found : s.fabOp? o.id = some o)
    (kind : n.kind = o.peerCode) (count : n.count = o.count) (fmt : n.fmt = o.fmt) :
    ∃ t p, exec (.fabricStartNotice n.ctx n.group n.seq n.sender n.op n.dst n.kind n.count n.fmt) s = .next t ∧
      t = { s with ports := t.ports, fab := t.fab, outbox := t.outbox } ∧ t.fabOp? o.id = some p ∧
      p = { o with starts := o.starts ++ [(n.sender, n.op, n.dst)], held := p.held } ∧
      p.held = (o.held.filter fun h => o.ranks.getD h.2.1 0 != n.sender) ∧ ∀ k, k ≠ o.id → t.fabOp? k = s.fabOp? k := by
  refine ⟨noticeMet s o n, o.met n, ?_, State.eq_of_hide_flitsSent (noticeMet_frame s o n), fabOp?_noticeMet_same found,
    rfl, rfl, fun k => fabOp?_noticeMet_other found⟩
  rw [exec_fabricStartNotice rails, startNotice_of_fits plain fits, takeNotice_of_match found kind count fmt]

/-- Settles O36: the start, the notices, the three ways to complete, and the time-out. -/
theorem fabricOperationsStartAndEnd : Obligations.FabricOperationsStartAndEnd := by
  refine ⟨fun s id o found idle ready readable => ⟨fun absent => ?_, fabricOpStart_starts found idle ready readable⟩,
    fun s n rails => ⟨fun mirror => ?_, fun plain unfit => ?_, fun o plain fits found => ⟨fun mismatch => ?_,
      fabricStartNotice_meets rails plain fits found⟩⟩,
    fun s id c k faulty o found own cmd done started whole host => ?_,
    fun s id faulty o x t found _ started whole kind so => ?_, fun s id faulty o found _ started kind landed => ?_,
    fun s id o found own => ?_⟩
  · rw [exec_fabricOpStart, fabStart_eq found idle ready readable, absent]
    rfl
  · rw [exec_fabricStartNotice rails, startNotice, if_pos mirror]
  · rw [exec_fabricStartNotice rails, startNotice_of_unfit plain unfit]
  · rw [exec_fabricStartNotice rails, startNotice_of_fits plain fits, takeNotice_of_mismatch found mismatch]
  · obtain ⟨gone, others, ended, counted⟩ :=
      fabComplete_completes (o := { o with faulty := o.faulty.or faulty }) s cmd done
    subst own
    exact ⟨_, (exec_fabricOpComplete s o.id faulty).trans (congrArg _ (fabOpComplete_of_host found started whole host)),
      State.eq_of_hide_fabCompleted (fabComplete_fr rfl s _ rfl), gone, others, ended, counted⟩
  · obtain ⟨-, ctx, opened⟩ := so
    obtain ⟨v, completed⟩ := exchange_completes (faulty := faulty) found started whole kind ctx opened
    exact ⟨_, v, exec_fabricOpComplete s id faulty, completed⟩
  · rw [exec_fabricOpComplete, fabOpComplete_of_stepGather found started kind landed]
  · subst own
    rw [exec_fabricTimeout, fabTimeout_of_found found]
    exact ⟨_, rfl, State.eq_of_hide_fabEnded (endFab_fr rfl s o _ rfl), fabOp?_endFab_same s o _,
      fun j => fabOp?_endFab_other s o _, fun c => cmd?_endFab s _⟩

end Sys2Proof.Machine
end

section
/-! A plane that is lost for data (R344, R346, R355): the ports stay in their states, and the dictionary notes the plane. -/
namespace Sys2Proof.Machine

theorem restripeOp_portsKept (s : State) (id plane : Nat) : PortsKept s (restripeOp s id plane) := by
  have restriped (f : FabOp → FabOp) : PortsKept s (s.updFab id f) := .of_ports rfl (.of_od rfl)
  unfold restripeOp
  split
  · exact .refl s
  · dsimp only
    split
    · exact .refl s
    · exact (restriped _).trans (startStripes_works _ _).toPortsKept

theorem Port.state_afterLoss (q : Port) : q.afterLoss.state = q.state := by
  unfold Port.afterLoss
  split <;> rfl

/-- The state once the dictionary notes a plane as lost for data. -/
def planeNoted (s : State) (plane : Nat) : State := s.odSet 0x4013 0 (s.odGet 0x4013 0 + 2 ^ plane)

/-- R346: does the module take part in a job that shares its planes? -/
abbrev SharesPlanes (s : State) : Prop := s.job.state = .owned ∨ s.job.state = .opening

section
variable {s : State} {plane : Nat}

theorem loseData_eq_self (h : ¬ SharesPlanes s ∨ bit (s.odGet 0x4013 0) plane = true) : loseData s plane = s :=
  if_pos (h.imp_left not_or.mp)

/-- R355: once the plane is noted, operations start over and snapshots on it end. -/
theorem loseData_portsKept (shares : SharesPlanes s) (usable : bit (s.odGet 0x4013 0) plane = false) :
    PortsKept (planeNoted s plane) (loseData s plane) := by
  have goes : ¬ ((s.job.state ≠ .owned ∧ s.job.state ≠ .opening) ∨ bit (s.odGet 0x4013 0) plane = true) := by
    rw [usable]
    exact fun lost => lost.elim (fun ⟨unowned, unopened⟩ => shares.elim unowned unopened) Bool.false_ne_true
  have snapEnds (s : State) (n : Snap) : PortsKept s
      (if n.sent.any fun t => t.1 == plane then
        complete { s with snaps := s.snaps.filter fun m => m.cmd != n.cmd } n.cmd St.targetReset { Details.zero with d0 := n.id }
      else s) := by
    split
    · have dropped (l : List Snap) : PortsKept s { s with snaps := l } := .of_ports rfl (.of_od rfl)
      exact (dropped _).trans (.complete _ _ _ _)
    · exact .refl s
  have lost : PortsKept (planeNoted s plane) ((planeNoted s plane).updPort plane Port.afterLoss) :=
    .setPort _ _ (Port.state_afterLoss _)
  rw [loseData, if_neg goes]
  exact (lost.trans (.foldl (fun s (o : FabOp) => restripeOp_portsKept s o.id plane) _ _)).trans (.foldl snapEnds _ _)

theorem state_loseData (s : State) (plane q : Nat) : ((loseData s plane).port q).state = (s.port q).state := by
  by_cases h : ¬ SharesPlanes s ∨ bit (s.odGet 0x4013 0) plane = true
  · rw [loseData_eq_self h]
  · obtain ⟨shares, usable⟩ := not_or.mp h
    exact (loseData_portsKept (Classical.not_not.mp shares) (Bool.eq_false_iff.mpr usable)).states q

theorem odGet_loseData_other (s : State) (plane : Nat) {i j : Nat} (uncounted : i ∉ trafficCounters) (other : i ≠ 0x4013)
    (sub : j < 256) : (loseData s plane).odGet i j = s.odGet i j := by
  by_cases h : ¬ SharesPlanes s ∨ bit (s.odGet 0x4013 0) plane = true
  · rw [loseData_eq_self h]
  · obtain ⟨shares, usable⟩ := not_or.mp h
    have kept := (loseData_portsKept (Classical.not_not.mp shares) (Bool.eq_false_iff.mpr usable)).counts i j uncounted sub
    refine kept.trans (State.odGet_odSet_other _ _ _ _ _ _ ?_)
    unfold Od.key
    omega

theorem bit_loseData (shares : SharesPlanes s) (plane : Nat) : bit ((loseData s plane).odGet 0x4013 0) plane = true := by
  cases usable : bit (s.odGet 0x4013 0) plane with
  | true => rwa [loseData_eq_self (.inr usable)]
  | false =>
    have kept := (loseData_portsKept shares usable).counts 0x4013 0 (by decide) (by decide)
    rw [kept, planeNoted, State.odGet_odSet_same, bit, Nat.add_comm, Nat.testBit_two_pow_add_eq]
    exact congrArg not usable

end

end Sys2Proof.Machine
end

section
/-! A port that leaves service (R330, R333, R335): its own state, the other ports, and the dictionary. -/
namespace Sys2Proof.Machine

/-- The state once a port is in another state, and the other members are told of its plane. -/
def portLeft (s : State) (p : Nat) (st : PortState) : State :=
  let t := s.updPort p fun q => { q with state := st, idle := none }
  if bit (t.odGet 0x4013 0) p ∨ t.job.mode = 0 ∨ (t.job.state ≠ .owned ∧ t.job.state ≠ .opening) then t
  else t.send (.planesLost (2 ^ p))

section
variable (s : State) (p : Nat) (st : PortState)

theorem portDown_eq : portDown s p st = loseData (portLeft s p st) p := rfl

theorem portLeft_eq : portLeft s p st =
    { s with ports := (s.updPort p fun q => { q with state := st, idle := none }).ports, outbox := (portLeft s p st).outbox } := by
  unfold portLeft
  dsimp only
  split
  · rfl
  · rw [State.send_eq]
    rfl

theorem state_portDown (q : Nat) : ((portDown s p st).port q).state = if q = p then st else (s.port q).state := by
  have ports : (portLeft s p st).port q = (s.updPort p fun q => { q with state := st, idle := none }).port q := by
    rw [portLeft_eq]
    rfl
  rw [portDown_eq, state_loseData, ports]
  split
  · next own => rw [own, State.port_updPort_same]
  · next other => rw [State.port_updPort_other _ _ _ _ other]

theorem odGet_portDown_other {i j : Nat} (uncounted : i ∉ trafficCounters) (other : i ≠ 0x4013) (sub : j < 256) :
    (portDown s p st).odGet i j = s.odGet i j := by
  rw [portDown_eq, odGet_loseData_other _ _ uncounted other sub]
  exact State.odGet_congr (congrArg State.od (portLeft_eq s p st) :) i j

variable {s} in
theorem bit_portDown (shares : SharesPlanes s) : bit ((portDown s p st).odGet 0x4013 0) p = true := by
  have job : (portLeft s p st).job = s.job := (congrArg State.job (portLeft_eq s p st) :)
  have shares' : SharesPlanes (portLeft s p st) := by
    unfold SharesPlanes
    rwa [job]
  rw [portDown_eq]
  exact bit_loseData shares' p

end

theorem port_logEvent (s : State) (e : EventCode) (kind source d0 d1 q : Nat) :
    (logEvent s e kind source d0 d1).port q = s.port q := by
  have ports : (logEvent s e kind source d0 d1).ports = s.ports :=
    (congrArg State.ports (logEvent_eq s e kind source d0 d1) :)
  rw [State.port, ports]
  rfl

section
variable (s : State) (p cause : Nat)

theorem state_portFail_same : ((portFail s p cause).port p).state = .failed := by
  rw [portFail, port_logEvent, state_portDown, if_pos rfl]

theorem state_portFail_other {q : Nat} (h : q ≠ p) : ((portFail s p cause).port q).state = (s.port q).state := by
  rw [portFail, port_logEvent, state_portDown, if_neg h]

theorem odGet_portFail_other {i j : Nat} (uncounted : i ∉ trafficCounters) (other : i ≠ 0x4013) (count : i ≠ 0x8090)
    (below : i < 0xA000) (sub : j < 256) : (portFail s p cause).odGet i j = s.odGet i j := by
  rw [portFail, odGet_logEvent_other _ _ _ _ _ _ count below sub, odGet_portDown_other s p _ uncounted other sub]

theorem odGet_portFail_count :
    (portFail s p cause).odGet 0x8090 0 = min (2 ^ 64 - 1) (s.odGet 0x8090 0 + 1) := by
  rw [portFail, odGet_logEvent_count, odGet_portDown_other s p _ (by decide) (by decide) (by decide)]

variable {s} in
theorem bit_portFail (shares : SharesPlanes s) : bit ((portFail s p cause).odGet 0x4013 0) p = true := by
  rw [portFail, odGet_logEvent_other _ _ _ _ _ _ (by decide) (by decide) (by decide)]
  exact bit_portDown p .failed shares

end

end Sys2Proof.Machine
end

section
/-! Light lost on a receptacle (R330, R547). -/
namespace Sys2Proof.Machine

/-- The ports of a receptacle. -/
def portsOf (r : Nat) : List Nat := (List.range 12).map (12 * r + ·)

theorem mem_portsOf {r p : Nat} : p ∈ portsOf r ↔ p / 12 = r := by
  simp only [portsOf, List.mem_map, List.mem_range]
  constructor
  · rintro ⟨k, hk, rfl⟩
    omega
  · intro h
    exact ⟨p - 12 * r, by omega, by omega⟩

/-! ### All light -/

/-- All light is lost on one port. -/
def darken (s : State) (p : Nat) : State :=
  if (s.port p).state = .disabled ∨ (s.port p).state = .dark then s
  else logEvent (portDown s p .dark) .portFailed srcPort p 1 0

theorem lightLoss_eq_foldl_darken (s : State) (r : Nat) : lightLoss s r false = (portsOf r).foldl darken s := by
  refine congrArg (fun f => (portsOf r).foldl f s) (funext fun s => funext fun p => ?_)
  unfold darken
  cases (s.port p).state <;> rfl

theorem state_darken (s : State) (p q : Nat) :
    ((darken s p).port q).state = if q = p ∧ (s.port q).state ≠ .disabled then .dark else (s.port q).state := by
  unfold darken
  split
  · next off =>
    split
    · next own =>
      obtain ⟨rfl, used⟩ := own
      exact off.resolve_left used
    · rfl
  · next on =>
    rw [port_logEvent, state_portDown]
    by_cases own : q = p
    · subst own
      rw [if_pos rfl, if_pos ⟨rfl, fun off => on (.inl off)⟩]
    · rw [if_neg own, if_neg fun h => own h.1]

theorem state_foldl_darken (ps : List Nat) (s : State) (q : Nat) :
    ((ps.foldl darken s).port q).state =
      if q ∈ ps ∧ (s.port q).state ≠ .disabled then .dark else (s.port q).state := by
  induction ps generalizing s with
  | nil => simp
  | cons p ps ih =>
    rw [List.foldl_cons, ih, state_darken]
    by_cases used : (s.port q).state = .disabled
    · simp [used]
    · by_cases own : q = p
      · subst own
        simp [used]
      · simp [own, used]

/-! ### The Harness wavelength -/

/-- A port that has lost its Harness wavelength. -/
def Port.dimmed (q : Port) : Port :=
  match q.state with
  | .up => { q with state := .upNoHarness }
  | .calibrating h _ => { q with state := .calibrating h true }
  | _ => q

/-- The Harness wavelength is lost on one port. -/
def dim (s : State) (p : Nat) : State :=
  match (s.port p).state with
  | .up | .calibrating _ _ => s.updPort p Port.dimmed
  | _ => s

theorem lightLoss_eq_foldl_dim (s : State) (r : Nat) : lightLoss s r true = (portsOf r).foldl dim s := by
  refine congrArg (fun f => (portsOf r).foldl f s) (funext fun s => funext fun p => ?_)
  unfold dim State.updPort Port.dimmed
  cases (s.port p).state <;> simp

theorem Port.dimmed_dimmed (q : Port) : q.dimmed.dimmed = q.dimmed := by
  unfold Port.dimmed
  cases h : q.state <;> simp [h]

theorem port_dim (s : State) (p q : Nat) : (dim s p).port q = if q = p then (s.port q).dimmed else s.port q := by
  by_cases own : q = p
  · subst own
    rw [if_pos rfl]
    unfold dim
    split
    · exact State.port_updPort_same s q _
    · exact State.port_updPort_same s q _
    · next st up calibrating =>
      unfold Port.dimmed
      split
      · next h => exact absurd h up
      · next h => exact absurd h (calibrating _ _)
      · rfl
  · rw [if_neg own]
    unfold dim
    split
    · exact State.port_updPort_other s p q _ own
    · exact State.port_updPort_other s p q _ own
    · rfl

theorem port_foldl_dim (ps : List Nat) (s : State) (q : Nat) :
    (ps.foldl dim s).port q = if q ∈ ps then (s.port q).dimmed else s.port q := by
  induction ps generalizing s with
  | nil => simp
  | cons p ps ih =>
    rw [List.foldl_cons, ih, port_dim]
    by_cases own : q = p
    · simp [own, Port.dimmed_dimmed]
    · simp [own]

theorem foldl_dim_frame (ps : List Nat) (s : State) : (ps.foldl dim s).hide 0x1000000 = s.hide 0x1000000 := by
  refine foldl_fr rfl fun t p h => ?_
  unfold dim
  split
  · exact State.updPort_fr rfl t p _ h
  · exact State.updPort_fr rfl t p _ h
  · exact h

/-- From a frame of the ports: the rest of the state, in one equation. -/
theorem State.eq_of_hide_ports {s t : State} (h : t.hide 0x1000000 = s.hide 0x1000000) : t = { s with ports := t.ports } := by
  cases s
  cases t
  cases h
  rfl

end Sys2Proof.Machine
end

section
/-! Training, lock, retraining and calibration of a port (R66, R332 to R335). -/
namespace Sys2Proof.Machine

section
variable {s : State} {p : Nat}

theorem exec_laserLightLoss {r : Nat} (h : r < 4) (harnessOnly : Bool) :
    exec (.laserLightLoss r harnessOnly) s = .next (lightLoss s r harnessOnly) := if_pos h

theorem exec_portTraining (h : p < 48) (plane delay : Nat) :
    exec (.portTraining p plane delay) s = .next (portTraining s p plane delay) := if_pos h

theorem exec_portTrainingTimeout (h : p < 48) (k : Nat) :
    exec (.portTrainingTimeout p k) s = .next (portTrainingTimeout s p k) := if_pos h

theorem exec_portLockLoss (h : p < 48) (m : Nat) (replays : Bool) :
    exec (.portLockLoss p m replays) s = .next (lockLoss s p m replays) := if_pos h

theorem exec_harnessLockLoss (h : p < 48) : exec (.harnessLockLoss p) s =
    .next (s.updPort p fun q => if q.state = .up then { q with state := .upNoHarness } else q) := if_pos h

theorem exec_harnessLockRegained (h : p < 48) : exec (.harnessLockRegained p) s =
    .next (s.updPort p fun q => if q.state = .upNoHarness then { q with state := .up } else q) := if_pos h

theorem exec_portRetrain (h : p < 48) (rails : s.power.rails = true) : exec (.portRetrain p) s =
    .next (s.updPort p fun q =>
      if (q.state = .failed ∨ q.state = .dark) ∧ s.odGet 0x4011 (p + 1) = 1 then { q with state := .training } else q) :=
  (if_pos h : exec (.portRetrain p) s = .next (whenPowered s _)).trans (congrArg Host.Outcome.next (if_pos rails))

theorem exec_calibrationDone_port (h : p < 48) : exec (.calibrationDone false p) s = .next (calibrationDone s p) := if_pos h

/-- An update of one port: the ports alone, that port alone, and what becomes of it. -/
theorem updPort_changes (s : State) (p : Nat) (f : Port → Port) :
    let t := s.updPort p f
    t = { s with ports := t.ports } ∧ (∀ q, q ≠ p → t.port q = s.port q) ∧ t.port p = f (s.port p) :=
  ⟨rfl, fun q => State.port_updPort_other s p q f, State.port_updPort_same s p f⟩

/-! ### Training -/

/-- The state once a port that trains has told the other end its number, and the dictionary holds the number that it
received. -/
def identified (s : State) (p plane : Nat) : State := (sendIdent s p).odSet 0x4012 (p + 1) (plane % 256)

theorem identified_eq (s : State) (p plane : Nat) :
    identified s p plane =
      { s with od := (identified s p plane).od, outbox := (s.send (.ident p s.moduleId)).outbox } := by
  unfold identified sendIdent
  rw [State.send_eq]
  rfl

theorem portTraining_of_own (training : (s.port p).state = .training) (delay : Nat) :
    portTraining s p p delay = (identified s p p).setPort p { Port.init with state := .up, delay := delay } := by
  rw [portTraining, if_neg (Classical.not_not.mpr training)]
  exact if_neg (Classical.not_not.mpr rfl)

theorem portTraining_of_other (training : (s.port p).state = .training) {plane : Nat} (other : plane ≠ p) (delay : Nat) :
    portTraining s p plane delay = portFail (identified s p plane) p 0x10 := by
  rw [portTraining, if_neg (Classical.not_not.mpr training)]
  exact if_pos other

theorem port_identified (s : State) (p plane q : Nat) : (identified s p plane).port q = s.port q := by
  rw [identified_eq]
  rfl

/-- From a frame of the dictionary, the ports and the outbox: the rest of the state, in one equation. -/
theorem State.eq_of_hide_training {s t : State} (h : t.hide 0x40000001000040 = s.hide 0x40000001000040) :
    t = { s with od := t.od, ports := t.ports, outbox := t.outbox } := by
  cases s
  cases t
  cases h
  rfl

theorem portTraining_up (training : (s.port p).state = .training) (delay : Nat) :
    let t := portTraining s p p delay
    t.odGet 0x4012 (p + 1) = p % 256 ∧ t = { s with od := t.od, ports := t.ports, outbox := t.outbox } ∧
      t.outbox = (s.send (.ident p s.moduleId)).outbox ∧ t.port p = { Port.init with state := .up, delay := delay } ∧
      ∀ q, q ≠ p → t.port q = s.port q := by
  have told : (identified s p p).outbox = (s.send (.ident p s.moduleId)).outbox := (congrArg State.outbox (identified_eq s p p) :)
  have frame : (identified s p p).hide 0x40000001000040 = s.hide 0x40000001000040 :=
    State.odSet_fr rfl _ _ _ _ (sendIdent_fr rfl s p rfl)
  rw [portTraining_of_own training]
  exact ⟨State.odGet_odSet_same (sendIdent s p) _ _ _, State.eq_of_hide_training (State.setPort_fr rfl _ _ _ frame), told,
    State.port_setPort_same _ _ _,
    fun q other => (State.port_setPort_other _ _ _ _ other).trans (port_identified s p p q)⟩

theorem portTraining_fails (training : (s.port p).state = .training) (exists_port : p < 48) {plane : Nat}
    (other : plane ≠ p) (delay : Nat) :
    let t := portTraining s p plane delay
    t.odGet 0x4012 (p + 1) = plane % 256 ∧ (t.port p).state = .failed ∧
      ∀ q, q ≠ p → (t.port q).state = (s.port q).state := by
  rw [portTraining_of_other training other]
  refine ⟨?_, state_portFail_same _ p _, fun q hq => ?_⟩
  · rw [odGet_portFail_other _ _ _ (by decide) (by decide) (by decide) (by decide) (by omega)]
    exact State.odGet_odSet_same (sendIdent s p) _ _ _
  · rw [state_portFail_other _ _ _ hq, port_identified]

/-- R333: the port has told the other end its number, if the training has come to step 4. -/
def toldByStep (s : State) (p k : Nat) : State := if 4 ≤ k then sendIdent s p else s

/-- The state at a time-out of the training: step 5 begins with the number of the port's own plane received. -/
def timedOut (s : State) (p k : Nat) : State :=
  if 5 ≤ k then (toldByStep s p k).odSet 0x4012 (p + 1) p else toldByStep s p k

theorem portTrainingTimeout_of_training (training : (s.port p).state = .training) (k : Nat) :
    portTrainingTimeout s p k = portFail (timedOut s p k) p k :=
  if_neg (Classical.not_not.mpr training)

theorem toldByStep_eq (s : State) (p k : Nat) : toldByStep s p k = { s with outbox := (toldByStep s p k).outbox } := by
  unfold toldByStep
  split
  · exact State.send_eq s _
  · rfl

theorem port_timedOut (s : State) (p k q : Nat) : (timedOut s p k).port q = s.port q := by
  have ports : (toldByStep s p k).ports = s.ports := (congrArg State.ports (toldByStep_eq s p k) :)
  unfold timedOut State.port
  split
  · rw [State.odSet_ports, ports]
  · rw [ports]

theorem odGet_timedOut_events (exists_port : p < 48) (k : Nat) : (timedOut s p k).odGet 0x8090 0 = s.odGet 0x8090 0 := by
  have od : (toldByStep s p k).od = s.od := (congrArg State.od (toldByStep_eq s p k) :)
  unfold timedOut
  split
  · refine (State.odGet_odSet_other _ _ _ _ _ _ ?_).trans (State.odGet_congr od _ _)
    unfold Od.key
    omega
  · exact State.odGet_congr od _ _

/-! ### Lock -/

theorem lockLoss_of_own (up : (s.port p).state = .up ∨ (s.port p).state = .upNoHarness) (replays : Bool) :
    lockLoss s p s.moduleId replays = portFail s p (if replays then 0x12 else 0x11) := by
  rw [lockLoss, if_neg (Classical.not_not.mpr rfl)]
  rcases up with h | h <;> rw [h]

theorem lockLoss_of_member {m : Nat} (other : m ≠ s.moduleId) (member : s.job.members.contains m = true) (replays : Bool) :
    lockLoss s p m replays = loseData s p := by
  rw [lockLoss, if_pos other, if_pos member]

theorem calibrationDone_of_calibrating {h no : Bool} (calibrates : (s.port p).state = .calibrating h no) :
    calibrationDone s p =
      s.updPort p fun q => { q with state := if no then .upNoHarness else .up, idle := some h, both := false } := by
  rw [calibrationDone, calibrates]

end

/-! ### The statement -/

theorem laserLightLoss_darkens (s : State) {r : Nat} (h : r < 4) :
    ∃ t, exec (.laserLightLoss r false) s = .next t ∧
      t = { s with free := t.free, mem := t.mem, poison := t.poison, od := t.od, cells := t.cells, ctxs := t.ctxs,
                   rings := t.rings, cmds := t.cmds, ports := t.ports, fab := t.fab, snaps := t.snaps, cache := t.cache,
                   outbox := t.outbox } ∧
      ∀ p, p < 48 → (t.port p).state =
        if p / 12 = r ∧ (s.port p).state ≠ .disabled then .dark else (s.port p).state := by
  refine ⟨_, exec_laserLightLoss h false, ?_, fun p _ => ?_⟩
  · have frame := lightLoss_fr (M := 0x40004013380272) rfl s r false rfl
    generalize lightLoss s r false = t at frame
    cases s
    cases t
    cases frame
    rfl
  · rw [lightLoss_eq_foldl_darken, state_foldl_darken]
    simp only [mem_portsOf]

theorem laserLightLoss_dims (s : State) {r : Nat} (h : r < 4) :
    ∃ t, exec (.laserLightLoss r true) s = .next t ∧ t = { s with ports := t.ports } ∧
      ∀ p, p < 48 → t.port p = if p / 12 = r then (s.port p).dimmed else s.port p := by
  refine ⟨_, exec_laserLightLoss h true, ?_, fun p _ => ?_⟩
  · rw [lightLoss_eq_foldl_dim]
    exact State.eq_of_hide_ports (foldl_dim_frame _ s)
  · rw [lightLoss_eq_foldl_dim, port_foldl_dim]
    simp only [mem_portsOf]

/-- Settles O38: light, training, lock, retraining and calibration, and the ports that do not exist. -/
theorem portsTrainFailAndRecover : Obligations.PortsTrainFailAndRecover := by
  refine ⟨fun s r hr => laserLightLoss_darkens s hr, fun s r hr => ?_, fun s p plane delay hp training => ?_,
    fun s p k hp training => ?_, fun s p replays hp up => ?_, fun s p m replays hp other member shares => ?_,
    fun s p hp => ⟨_, exec_harnessLockLoss hp, updPort_changes s p _⟩,
    fun s p hp => ⟨_, exec_harnessLockRegained hp, updPort_changes s p _⟩, fun s p hp rails out enabled => ?_,
    fun s k hk => if_pos hk, fun s p h no hp calibrates => ?_, fun s n => ⟨fun far a b => ?_, fun far h => ?_⟩⟩
  · obtain ⟨t, run, frame, ports⟩ := laserLightLoss_dims s hr
    refine ⟨t, run, frame, fun p hp => (ports p hp).trans ?_⟩
    unfold Port.dimmed
    by_cases own : p / 12 = r
    · cases (s.port p).state <;> simp [own]
    · simp [own]
  · refine ⟨_, exec_portTraining hp plane delay, ?_⟩
    by_cases own : plane = p
    · subst own
      obtain ⟨number, frame, told, up, others⟩ := portTraining_up training delay
      exact ⟨number, fun _ => ⟨frame, told, up, others⟩, fun other => absurd rfl other⟩
    · obtain ⟨number, failed, others⟩ := portTraining_fails training hp own delay
      exact ⟨number, fun same => absurd same own, fun _ => ⟨failed, others⟩⟩
  · refine ⟨_, (exec_portTrainingTimeout hp k).trans (congrArg _ (portTrainingTimeout_of_training training k)),
      state_portFail_same _ p k, fun q other => ?_, ?_⟩
    · rw [state_portFail_other _ _ _ other, port_timedOut]
    · rw [odGet_portFail_count, odGet_timedOut_events hp]
  · exact ⟨_, (exec_portLockLoss hp _ replays).trans (congrArg _ (lockLoss_of_own up replays)), state_portFail_same s p _,
      fun q => state_portFail_other s p _, bit_portFail p _⟩
  · exact ⟨_, (exec_portLockLoss hp m replays).trans (congrArg _ (lockLoss_of_member other member replays)),
      bit_loseData shares p, state_loseData s p⟩
  · obtain ⟨frame, others, changed⟩ := updPort_changes s p fun q =>
      if (q.state = .failed ∨ q.state = .dark) ∧ s.odGet 0x4011 (p + 1) = 1 then { q with state := .training } else q
    exact ⟨_, exec_portRetrain hp rails, frame, others, changed.trans (if_pos ⟨out, enabled⟩)⟩
  · exact ⟨_, (exec_calibrationDone_port hp).trans (congrArg _ (calibrationDone_of_calibrating calibrates)),
      updPort_changes s p _⟩
  · exact if_neg (Nat.not_lt.mpr far)
  · exact if_neg (Nat.not_lt.mpr far)

end Sys2Proof.Machine
end

section
/-! A DATA flit (R338): its store of stack memory misses in the cache and evicts a line. -/
namespace Sys2Proof.Machine

/-- A PUT of one byte from member 1 to address 0 of this module, started by both. -/
def putOfByte : FabOp :=
  { id := 6, cmd := none, ctx := 1, kind := .put, group := 0, seq := 0, count := 1, fmt := 0, ranks := [0x3FFFF, 1],
    me := 0, lined := false, wait := none, done := none, peer := 1, sender := false, dst := 0,
    segs := [{ owner := 0, count := 1, src := 0, dst := 0, sSize := 1, pSize := 1, dSize := 1 }], landing := [(0, 1)],
    sending := [], started := true, starts := [(1, 8, 0)],
    stripes := [{ plane := 0, first := 0, count := 1, moved := false }], parts := [], past := [], sent := [], held := [],
    suspects := [], faulty := none, ownFault := false, flags := 0, landed := 0, lost := 0, reset := false,
    poisoned := false }

/-- Its one piece. -/
def pieceOfByte : Chunk := { owner := 0, count := 1, src := 0, dst := 0, sSize := 1, pSize := 1, dSize := 1, ring := false }

/-- The header of the DATA flit of that byte, as member 1 sends it, which numbers the operation 8. -/
def headOfByte : Nat :=
  withCrc (flitHead 1 0 0 0 1 0 0 { bareFlit with kind := 1, dst := 0x3FFFF, op := 8 }) [7]

/-- The module of `cachesSectorEight`, with that operation and with port 0 up. -/
def putUnderway : State :=
  { cachesSectorEight with ports := [(0, { Port.init with state := .up })], fab := [putOfByte] }

/-- The flit arrives in order, and is not held. -/
theorem flit_comes_putUnderway :
    FlitComes putUnderway 0 headOfByte 1 [7] ∧ flitHeld putUnderway 0 headOfByte = false := by
  decide +kernel

/-- It belongs to the operation. -/
theorem flit_for_putOfByte : FlitFor putUnderway 0 headOfByte putOfByte 1 pieceOfByte := by
  decide +kernel

/-- The state in which the flit is taken in. -/
def putTaken : State := hopTaken putUnderway 0 headOfByte 0

/-- Where its payload lands: the byte at address 0. -/
def runOfByte : Run := (fld headOfByte 41 0, min (pieceOfByte.count * pieceOfByte.pSize) 1)

/-- The byte's stack is up, and no journal names it. -/
theorem putTaken_free :
    putTaken.downIn runOfByte.1 runOfByte.2 = false ∧ putTaken.meetsJournal runOfByte.1 runOfByte.2 = false := by
  decide +kernel

/-- Before the flit lands, the byte of `sectorEightAddr` reads zero; neither the flit, nor a staging, nor a cached line
holds it. -/
theorem putTaken_before :
    putTaken.byte sectorEightAddr = 0 ∧ ¬ covered [runOfByte] sectorEightAddr ∧ ¬ stagedAt putTaken sectorEightAddr ∧
      ∀ e ∈ putTaken.cache, ∀ l ∈ e.2, l.line ≠ sectorEightAddr / 256 := by
  decide +kernel

/-- The store of the byte at address 0 evicts `lineOfSectorEight`: the byte of `sectorEightAddr` reads 1. -/
theorem putUnderway_after :
    (flitData putUnderway 0 headOfByte [7] 0 0 0).byte sectorEightAddr = 1 ∧
      (flitData putUnderway 0 headOfByte [7] 0 0 0).poisonAt sectorEightAddr = false := by
  decide +kernel

theorem exec_flitData {p : Nat} (h : p < 48) (s : State) (header : Nat) (payload : List Byte) (poison fec unc : Nat) :
    exec (.flitData p header payload poison fec unc) s = .next (flitData s p header payload poison fec unc) := if_pos h

/-- Refutes O37: its clause for DATA, that a flit changes no byte but those it lands, at a state whose cache holds a
channel's word listed for a ninth sector of a line (as for O28). The flit's store misses and evicts that line. The
statement takes every state, and asks nothing of the cache's form. -/
theorem not_flitsAreTakenIn : ¬ Obligations.FlitsAreTakenIn := by
  rintro ⟨-, data, -⟩
  obtain ⟨comes, taken⟩ := flit_comes_putUnderway
  obtain ⟨up, unjournalled⟩ := putTaken_free
  obtain ⟨t, run, -, -, -, same, -⟩ := data putUnderway 0 headOfByte 0 0 1 [7] putOfByte pieceOfByte comes taken
    flit_for_putOfByte rfl rfl up unjournalled
  obtain rfl := Host.Outcome.next.inj ((exec_flitData comes.1 putUnderway headOfByte [7] 0 0 0).symm.trans run)
  obtain ⟨zero, uncovered, unstaged, uncached⟩ := putTaken_before
  obtain ⟨one, clean⟩ := putUnderway_after
  have changed : (flitData putUnderway 0 headOfByte [7] 0 0 0).byte sectorEightAddr ≠ putTaken.byte sectorEightAddr := by
    rw [one, zero]
    decide
  exact not_sameBytes_of_byte_ne uncovered unstaged uncached clean changed same

end Sys2Proof.Machine
end

section
/-! FUSED_SVN (R470): what each operation on the flash does to the fused version. The flash changes in repairs and failure
records, in stagings and selectors, and in the burning of the fuses; only the last touches the version. -/
namespace Sys2Proof.Machine

/-- The fused security version of a state is at least what it was in another. -/
structure SvnRises (s t : State) : Prop where
  le : s.flash.fusedSvn ≤ t.flash.fusedSvn

/-- All fields but the flash, as a mask of `State.hide`. -/
abbrev allButFlash : Nat := 0x7dffffffffffff

namespace SvnRises
variable {s t u : State}

theorem refl (s : State) : SvnRises s s := ⟨Nat.le_refl _⟩

theorem trans (h : SvnRises s t) (k : SvnRises t u) : SvnRises s u := ⟨Nat.le_trans h.le k.le⟩

/-- `trans` with the later operation first, which names the state between. -/
theorem after (k : SvnRises t u) (h : SvnRises s t) : SvnRises s u := h.trans k

theorem of_svn (h : t.flash.fusedSvn = s.flash.fusedSvn) : SvnRises s t := ⟨Nat.le_of_eq h.symm⟩

theorem of_flash (h : t.flash = s.flash) : SvnRises s t := of_svn (congrArg Flash.fusedSvn h)

/-- An operation whose frame leaves out the flash. -/
theorem of_frame (fr : s.hide allButFlash = s.hide allButFlash → t.hide allButFlash = s.hide allButFlash) : SvnRises s t :=
  of_flash (congrArg State.flash (fr rfl) :)

theorem ite {p : Prop} [Decidable p] (h : SvnRises s t) (k : SvnRises s u) : SvnRises s (if p then t else u) := by
  split
  · exact h
  · exact k

theorem foldl {β : Type} {f : State → β → State} (k : ∀ s b, SvnRises s (f s b)) (l : List β) (s : State) :
    SvnRises s (l.foldl f s) := by
  induction l generalizing s with
  | nil => exact refl s
  | cons b l ih => exact (k s b).trans (ih _)

theorem foldl_fst {β γ : Type} {f : State × γ → β → State × γ} (k : ∀ a b, SvnRises a.1 (f a b).1) (l : List β)
    (a : State × γ) : SvnRises a.1 (l.foldl f a).1 := by
  induction l generalizing a with
  | nil => exact refl a.1
  | cons b l ih => exact (k a b).trans (ih _)

theorem whenPowered {f : State → State} (k : SvnRises s (f s)) : SvnRises s (whenPowered s f) := k.ite (refl s)

theorem whenRunning {f : State → State} (k : SvnRises s (f s)) : SvnRises s (whenRunning s f) := k.ite (refl s)

theorem draw (s : State) : SvnRises s s.draw := of_flash rfl

theorem filtered {ns : Nat} {f : State → State} (k : ∀ t, SvnRises t (f t)) : SvnRises s (filtered s ns f) :=
  ite ((draw s).trans (k _)) (draw s)

end SvnRises

/-! ### Repairs and failure records (R526, R540 to R545) -/

theorem logEvent_svn (s : State) (e : EventCode) (kind source d0 d1 : Nat) : SvnRises s (logEvent s e kind source d0 d1) :=
  .of_frame (logEvent_fr rfl s e kind source d0 d1)

/-- A record more, which leaves the fused version. -/
theorem keepRecord_svn (s : State) (f : Fail) (word : Nat) : SvnRises s (keepRecord s f word) := by
  unfold keepRecord
  exact .after (logEvent_svn _ _ _ _ _ _) (.of_svn rfl)

theorem failUnit_svn (s : State) (kind unit : Nat) : SvnRises s (failUnit s kind unit) := .ite (.refl s) (.of_svn rfl)

theorem repairRow_svn (s : State) (f : Fail) : SvnRises s (repairRow s f).1 := by
  unfold repairRow
  split
  · exact .refl s
  split
  · exact .of_svn rfl
  split
  · exact .of_svn rfl
  · exact failUnit_svn s _ _

theorem repair_svn (s : State) (all : List Fail) (f : Fail) : SvnRises s (repair s all f).1 := by
  unfold repair
  dsimp only
  split
  · exact repairRow_svn s f
  split
  · exact .of_svn rfl
  split
  · exact .of_svn rfl
  split
  · exact .of_svn rfl
  · exact failUnit_svn s _ _

theorem repairNext_svn (all : List Fail) (a : State × List (Fail × Nat)) (f : Fail) : SvnRises a.1 (repairNext all a f).1 := by
  unfold repairNext
  split
  · exact .refl _
  · exact repair_svn _ _ _

theorem applyFails_svn (s : State) (fs : List Fail) : SvnRises s (applyFails s fs) :=
  .foldl_fst (fun _ _ => (repairNext_svn _ _ _).trans (keepRecord_svn _ _ _)) _ (s, [])

/-- Repairs more in the list of those to come. -/
theorem addPending_svn (s : State) (ws : List Nat) :
    SvnRises s { s with flash := { s.flash with pendingRepairs := s.flash.pendingRepairs ++ ws } } := .of_svn rfl

theorem listRepair_svn (s : State) (f : Fail) (test : Nat) (confirmed : Bool) : SvnRises s (listRepair s f test confirmed) := by
  unfold listRepair
  exact .after (addPending_svn _ _) (keepRecord_svn s f _)

theorem settleRecords_svn (s : State) (words : List Nat) (confirmed : Bool) : SvnRises s (settleRecords s words confirmed) :=
  .after (addPending_svn _ _) (.foldl (fun _ _ => keepRecord_svn _ _ _) words s)

theorem clearPending_svn (s : State) (m : List (Nat × Nat)) :
    SvnRises s { s with flash := { s.flash with pendingRepairs := [] }, rowCorrections := m } := .of_svn rfl

theorem applyPending_svn (s : State) : SvnRises s (applyPending s) :=
  .after (clearPending_svn _ _) (.foldl_fst (repairNext_svn (s.flash.pendingRepairs.map Fail.ofRecord)) _ (s, []))

/-! ### Errors of sectors (R318 to R322, R542) -/

theorem eccCount_svn (s : State) (a : Nat) (bad : Bool) (p : EccPlace) : SvnRises s (eccCount s a bad p) :=
  .of_frame (eccCount_fr rfl s a bad p)

/-- The corrections of the rows, which are not in the flash. -/
theorem countRow_svn (s : State) (m : List (Nat × Nat)) : SvnRises s { s with rowCorrections := m } := .of_svn rfl

theorem noteRow_svn (s : State) (a test : Nat) (bad : Bool) (p : EccPlace) : SvnRises s (noteRow s a test bad p) := by
  exact .ite (.refl s) (.ite (listRepair_svn s _ _ _)
    (.ite (.after (listRepair_svn _ _ _ _) (countRow_svn s _)) (countRow_svn s _)))

theorem noteSector_svn (s : State) (a test : Nat) (bad : Bool) (p : EccPlace) : SvnRises s (noteSector s a test bad p) :=
  (eccCount_svn s a bad p).trans (noteRow_svn _ _ _ _ _)

theorem putSector_svn (s : State) (a : Nat) (d : List Nat) (bad : Bool) : SvnRises s (putSector s a d bad) :=
  .of_frame (putSector_fr rfl s a d bad)

theorem sectorReadAt_svn (s : State) (a test : Nat) (errs : List (Nat × Nat)) (p : EccPlace) :
    SvnRises s (sectorReadAt s a test errs p).s := by
  unfold sectorReadAt
  split
  case h_1 => exact putSector_svn s a _ false
  case h_2 => exact .after (noteSector_svn _ _ _ _ _) (putSector_svn s a _ false)
  case h_3 => exact putSector_svn s a _ true
  case h_4 => exact .after (noteSector_svn _ _ _ _ _) (putSector_svn s a _ true)

theorem eccRead_svn (s : State) (a test : Nat) (errs : List (Nat × Nat)) : SvnRises s (eccRead s a test errs).s := by
  unfold eccRead
  split
  · exact .refl s
  · exact .refl s
  · exact .after (sectorReadAt_svn _ _ _ _ _) (.of_svn rfl)
  · exact sectorReadAt_svn s _ _ _ _

theorem channelRead_svn (s : State) (a test : Nat) (errs : List (Nat × Nat)) : SvnRises s (channelRead s a test errs) := by
  unfold channelRead
  split
  · exact .refl s
  · exact .refl s
  · exact sectorReadAt_svn s _ _ _ _
  · dsimp only
    split
    · exact .refl s
    · have put (l : CacheLine) : SvnRises s (putLine s a l) := .of_svn rfl
      split
      · exact put _
      · exact put _
      · exact (put _).trans (noteSector_svn _ _ _ _ _)
      · exact (put _).trans (noteSector_svn _ _ _ _ _)

theorem channelSectors_svn (s : State) (line mask test : Nat) (errs : List (Nat × Nat)) :
    SvnRises s (channelSectors s line mask test errs) :=
  .foldl (fun s _ => .ite (channelRead_svn s _ _ _) (.refl s)) _ s

theorem eccLine_svn (s : State) (line mask test : Nat) (errs : List (Nat × Nat)) :
    SvnRises s (eccLine s line mask test errs).1 := by
  refine .foldl_fst (fun a k => ?_) _ (s, [])
  split
  · exact eccRead_svn _ _ _ _
  · exact .refl _

theorem cacheLoad_svn (s : State) (a n test : Nat) (errs : List (Nat × Nat)) : SvnRises s (cacheLoad s a n test errs).1 :=
  (eccLine_svn s _ _ test errs).trans (.of_frame (loadLine_fr rfl _ a n))

theorem sliceStoreLine_svn (s : State) (a : Nat) (bs : List Byte) (test : Nat) (errs : List (Nat × Nat)) :
    SvnRises s (sliceStoreLine s a bs test errs) :=
  (channelSectors_svn s _ _ test errs).trans (.of_frame (storeLine_fr rfl _ _ _ _))

theorem storeP_svn (s : State) (a : Nat) (bs : List Byte) (p : Bool) : SvnRises s (s.storeP a bs p) :=
  .of_frame (State.storeP_fr rfl s a bs p)

theorem send_svn (s : State) (m : Msg) : SvnRises s (s.send m) := .of_flash (State.send_flash s m)

theorem sliceAnswer_svn {s : State} {r : State × List (List Nat × Bool)} (h : SvnRises s r.1) (a n : Nat) :
    SvnRises s (sliceAnswer r a n) := by
  unfold sliceAnswer
  exact h.trans (send_svn _ _)

theorem homeAccess_svn (s : State) (store : Bool) (a : Nat) (data : List Byte) (errs : List (Nat × Nat)) :
    SvnRises s (homeAccess s store a data errs) := by
  unfold homeAccess
  dsimp only
  split
  · exact .refl s
  split
  · split
    · exact .refl s
    split
    · exact .ite (.of_svn rfl) ((SvnRises.draw s).trans (send_svn _ _))
    split
    · exact .refl s
    split
    · exact .ite (.refl s) ((eccLine_svn s _ _ _ _).trans (storeP_svn _ _ _ _))
    · exact .ite (send_svn s _) (sliceAnswer_svn (eccLine_svn s _ _ _ _) _ _)
  split
  · exact .refl s
  split
  · exact .ite (.refl s) ((sliceStoreLine_svn s _ _ _ _).trans (storeP_svn _ _ _ _))
  · exact .ite (.refl s) (sliceAnswer_svn (cacheLoad_svn s _ _ _ _) _ _)

theorem patrolRead_svn (s : State) (k a : Nat) (errs : List (Nat × Nat)) : SvnRises s (patrolRead s k a errs) := by
  unfold patrolRead
  dsimp only
  split
  · exact .ite (.refl s) (channelRead_svn s _ _ _)
  · exact .refl s

theorem patrol_svn (s : State) (k a : Nat) (errs : List (Nat × Nat)) (wrap : Bool) : SvnRises s (patrol s k a errs wrap) :=
  .ite ((patrolRead_svn s k a errs).trans (.of_svn rfl)) (patrolRead_svn s k a errs)

/-! ### What the cells report (R109, R182, R230) -/

theorem putAccSector_svn (s : State) (c : Nat) (t : Tile) (k : Nat) (d : List Nat) (bad form : Bool) :
    SvnRises s (putAccSector s c t k d bad form) := .of_svn rfl

theorem accLose_svn (s : State) (c sec test : Nat) : SvnRises s (accLose s c sec test) := by
  unfold accLose
  split
  · exact .refl s
  · exact .ite (.refl s) ((putAccSector_svn s _ _ _ _ _ _).trans (noteSector_svn _ _ _ _ _))

theorem accRead_svn (s : State) (c sec : Nat) (errs : List (Nat × Nat)) : SvnRises s (accRead s c sec errs) := by
  unfold accRead
  split
  · exact .refl s
  dsimp only
  split
  · exact putAccSector_svn s _ _ _ _ _ _
  · exact (putAccSector_svn s _ _ _ _ _ _).trans (noteSector_svn _ _ _ _ _)
  · exact putAccSector_svn s _ _ _ _ _ _
  · exact (putAccSector_svn s _ _ _ _ _ _).trans (noteSector_svn _ _ _ _ _)

theorem setWeltSector_svn (s : State) (c sec : Nat) (d : List Nat) (bad : Bool) : SvnRises s (setWeltSector s c sec d bad) :=
  .of_svn rfl

theorem weltLose_svn (s : State) (c sec test : Nat) : SvnRises s (weltLose s c sec test) :=
  (setWeltSector_svn s c sec _ _).trans (noteSector_svn _ _ _ _ _)

theorem weltRead_svn (s : State) (c sec : Nat) (errs : List (Nat × Nat)) : SvnRises s (weltRead s c sec errs) := by
  unfold weltRead
  dsimp only
  split
  · exact setWeltSector_svn s _ _ _ _
  · exact (setWeltSector_svn s _ _ _ _).trans (noteSector_svn _ _ _ _ _)
  · exact setWeltSector_svn s _ _ _ _
  · exact weltLose_svn s _ _ _

theorem takeReports_svn (s : State) (c : Nat) (rs : List (Nat × Nat)) : SvnRises s (takeReports s c rs) :=
  .after (.foldl (fun _ _ => weltRead_svn _ _ _ _) _ _) <|
    .after (.foldl (fun _ _ => accRead_svn _ _ _ _) _ _) <|
      .after (.foldl (fun _ _ => .of_frame (upsetSide_fr rfl _ _ _)) _ _) (.of_frame (countStalls_fr rfl s c _))

theorem retire_svn (s : State) (c slot : Nat) (reports : List (Nat × Nat)) : SvnRises s (retire s c slot reports) := by
  refine (takeReports_svn s c reports).trans ?_
  unfold retire
  dsimp only
  split
  · exact .refl _
  · exact .of_frame fun h => finishCheck_fr rfl _ _ (fetchMore_fr rfl _ _ (State.updPiece_fr rfl _ _ _ h))

theorem transferLand_svn (s : State) (c id gen : Nat) (stalls : List (Nat × Nat)) :
    SvnRises s (transferLand s c id gen stalls) := by
  unfold transferLand
  split
  · exact .refl s
  split
  · exact .ite (takeReports_svn s c stalls) ((takeReports_svn s c stalls).trans (.of_frame (landXfer_fr rfl _ _ _)))
  · exact .ite (.of_svn rfl) (.of_svn rfl)

/-! ### The map and the scrub (R14, R399, R478) -/

theorem setBlocks_svn (s : State) (m : List (Nat × Block)) : SvnRises s { s with blocks := m } := .of_svn rfl
theorem setCells_svn (s : State) (m : List (Nat × Cell)) : SvnRises s { s with cells := m } := .of_svn rfl
theorem setPhys_svn (s : State) (m : List (Nat × Phys)) : SvnRises s { s with phys := m } := .of_svn rfl

theorem rebuildMap_svn (s : State) : SvnRises s (rebuildMap s) :=
  .after (.foldl (fun _ _ => .foldl (fun _ _ => .of_frame (mapCell_fr rfl _ _)) _ _) _ _) <|
    .after (setBlocks_svn _ _) <| .after (setCells_svn _ _) <| .after (setPhys_svn _ _) <| .after (.foldl (fun _ _ => failUnit_svn _ _ _) _ _) <|
      .after (applyPending_svn _) (.foldl (fun _ _ => settleRecords_svn _ _ false) _ s)

theorem bootMap_svn (s : State) : SvnRises s (bootMap s) := .after (rebuildMap_svn _) (.of_svn rfl)

theorem unwritable_svn (s : State) (a : Nat) : SvnRises s (unwritable s a) := by
  unfold unwritable
  dsimp only
  split
  · exact .after (failUnit_svn _ _ _) (logEvent_svn s _ _ _ _ _)
  · exact logEvent_svn s _ _ _ _ _

end Sys2Proof.Machine
end

section
/-! FUSED_SVN (R470) in faults, resets, the boot, the self-test, the object dictionary and power; only SVN_COMMIT burns
fuses, where the version rises. -/
namespace Sys2Proof.Machine

/-! ### Flash contents that are written whole: slots, selectors, the boot level -/

theorem setSlot_fusedSvn (f : Flash) (b : Bool) (bs : List Byte) : (f.setSlot b bs).fusedSvn = f.fusedSvn := by
  cases b <;> rfl

theorem writeSelector_fusedSvn (f : Flash) (slot trial : Bool) : (f.writeSelector slot trial).fusedSvn = f.fusedSvn := by
  unfold Flash.writeSelector
  split
  · rfl
  · exact (apply_ite Flash.fusedSvn _ _ _).trans (ite_self _)

/-- A state whose flash another takes over with slots or selectors changed, and whose other fields may change. -/
theorem SvnRises.of_flash_svn {s t : State} {f : Flash} (e : t.flash = f) (h : f.fusedSvn = s.flash.fusedSvn) :
    SvnRises s t := .of_svn (congrArg Flash.fusedSvn e |>.trans h)

theorem stagingLost_svn (s : State) : SvnRises s (stagingLost s) := by
  unfold stagingLost
  refine .ite (.of_svn ?_) (.refl s)
  exact (apply_ite Flash.fusedSvn _ _ _).trans (ite_self _)

/-! ### Losses, fences and resets (R462 to R466, R487, R501, R548) -/

theorem setTransfers_svn (s : State) (ts : List Transfer) : SvnRises s { s with transfers := ts } := .of_flash rfl

theorem endTransfers_svn (s : State) (p : Transfer → Bool) : SvnRises s (endTransfers s p) :=
  .ite (.after (stagingLost_svn _) (setTransfers_svn s _)) (setTransfers_svn s _)

theorem setSecure_svn (s : State) (x : Secure) : SvnRises s { s with secure := x } := .of_flash rfl

theorem endSessions_svn (s : State) : SvnRises s (endSessions s) :=
  (endTransfers_svn s fun t => t.who.isSession).trans (.of_flash rfl)

theorem loseOd_svn (s : State) : SvnRises s (loseOd s) :=
  .after (stagingLost_svn _) <| .trans (t := s.odQueue.foldl
    (fun s r => if r.who = .ring then complete s r.tag St.targetReset Details.zero else s) s)
    (.foldl (fun s _ => .ite (.of_frame (complete_fr rfl s _ _ _)) (.refl s)) _ s) (.of_flash rfl)

theorem loseHub_svn (s : State) (b : Nat) : SvnRises s (loseHub s b) := by
  unfold loseHub
  split
  · exact .of_frame (loseHostReads_fr rfl s)
  · exact .foldl (fun s _ => .of_frame (endStream_fr rfl s _ _ _)) _ s
  · exact .of_flash rfl
  · exact .of_flash rfl
  · exact loseOd_svn s
  · exact endSessions_svn s
  · exact .refl s

theorem stopFence_svn (s : State) (u : FenceUnit) (cause : Nat) (units : List Nat) :
    SvnRises s (loseRequests (u.advance (u.cells.foldl stopCell s) cause units) u) :=
  .after (.of_frame (loseRequests_fr rfl _ u)) <| .after (.of_frame (FenceUnit.advance_fr rfl _ cause units u))
    (.foldl (fun s _ => .of_frame (stopCell_fr rfl s _)) _ s)

theorem fence_svn (s : State) (u : FenceUnit) (cause : Nat) : SvnRises s (fence s u cause) := by
  refine .ite (.refl s) (.after (.of_frame (State.odAdd_fr rfl _ _ _ _)) ?_)
  have a := stopFence_svn s u cause (heldUnits s u.cells)
  cases u with
  | block b => exact a.trans (loseHub_svn _ b)
  | cell c => exact a

theorem failCell_svn (s : State) (c cause : Nat) : SvnRises s (failCell s c cause) :=
  .ite (.refl s) (.after (.foldl (fun s _ => .of_frame (releaseLease_fr rfl s _)) _ _) (fence_svn s _ cause))

theorem perstAssert_svn (s : State) : SvnRises s (perstAssert s) := by
  refine .ite (.refl s) ?_
  have a : SvnRises s { s with power := { s.power with perst := true }, bar2Log := 40, pcie := Pcie.init } := .of_flash rfl
  exact .ite a (a.trans (fence_svn _ _ _))

theorem blank_svn (s : State) : SvnRises s (blank s) := .trans (stagingLost_svn s) (.of_flash rfl)

theorem setPower_svn (s : State) (p : Power) : SvnRises s { s with power := p } := .of_flash rfl

theorem moduleReset_svn (s : State) : SvnRises s (moduleReset s) := .after (setPower_svn _ _) (blank_svn s)

theorem resetAssert_svn (s : State) : SvnRises s (resetAssert s) := .ite (moduleReset_svn s) (.refl s)

theorem controlWatchdog_svn (s : State) (k : Nat) : SvnRises s (controlWatchdog s k) := by
  refine .after (fence_svn _ _ _) ?_
  have a : SvnRises s (countExpiry s 1 k) := .of_frame (countExpiry_fr rfl s 1 k)
  exact .ite (.after (.of_frame (State.setBlock_fr rfl _ _ _)) a) a

/-! ### The scrub and the boot (R399, R458 to R460, R469) -/

theorem scrubMemories_svn (s : State) : SvnRises s (scrubMemories s) := .of_flash rfl

theorem flushRing_svn (s : State) (n : Nat) : SvnRises s (flushRing s n) := .of_frame (flushRing_fr rfl s n)

theorem odSet_svn (s : State) (i j v : Nat) : SvnRises s (s.odSet i j v) := .of_frame (State.odSet_fr rfl s i j v)

theorem odAdd_svn (s : State) (i j n : Nat) : SvnRises s (s.odAdd i j n) := .of_frame (State.odAdd_fr rfl s i j n)

theorem setJob_svn (s : State) (j : Job) : SvnRises s { s with job := j } := .of_flash rfl

theorem setRings_svn (s : State) (rs : List (Nat × Ring)) (level : Option Nat) :
    SvnRises s { s with rings := rs, cache := [], testLevel := level } := .of_flash rfl

theorem scrubComplete_svn (s : State) (fails : List (List Nat)) (bad : List Nat) : SvnRises s (scrubComplete s fails bad) := by
  unfold scrubComplete
  split
  · exact .refl s
  · refine .after (odAdd_svn _ _ _ _) <| .after (setJob_svn _ _) <| .after (rebuildMap_svn _) <|
      .after (flushRing_svn _ _) <| .after (flushRing_svn _ _) <| .after (setRings_svn _ _ _) <|
        .after (scrubMemories_svn _) <| .after (.foldl unwritable_svn bad _) ?_
    split
    · exact .after (odSet_svn _ _ _ _) (applyFails_svn s _)
    · exact .refl s

theorem trialFailed_svn (s : State) (former : Bool) : SvnRises s (trialFailed s former) :=
  .of_flash_svn rfl (writeSelector_fusedSvn _ _ _)

theorem enterRecovery_svn (s : State) : SvnRises s (enterRecovery s) := .of_flash rfl

theorem setClock_svn (s : State) (n : Nat) : SvnRises s { s with clock := n } := .of_flash rfl

theorem bootTest_svn (s : State) (fails : List (List Nat)) (bad : List Nat) : SvnRises s (bootTest s fails bad) := by
  unfold bootTest
  dsimp only
  have tested (fs : List Fail) (clock : Nat) : SvnRises s ((scrubMemories (bootMap
      { bad.foldl unwritable (applyFails s fs) with clock := clock })).odAdd 0x9030 0 1) :=
    .after (odAdd_svn _ _ _ _) <| .after (scrubMemories_svn _) <| .after (bootMap_svn _) <| .after (setClock_svn _ _) <|
      .after (.foldl unwritable_svn bad _) (applyFails_svn s fs)
  exact .ite (.after (enterRecovery_svn _) (tested _ _)) (tested _ _)

theorem bootFails_svn (s : State) (preferred trial : Bool) : SvnRises s (bootFails s preferred trial) :=
  .after (enterRecovery_svn _) (.trans (t := { s with secure := { s.secure with active := !preferred, fallback := true } })
    (.of_flash rfl) (.ite (trialFailed_svn _ _) (.refl _)))

theorem boot_svn (s : State) (straps : Nat) (fails : List (List Nat)) (bad : List Nat) :
    SvnRises s (boot s straps fails bad) := by
  unfold boot
  split
  · exact (setSecure_svn s _).trans (bootTest_svn _ _ _)
  split
  · exact .refl s
  · dsimp only
    split
    · exact .after (bootFails_svn _ _ _) (.of_flash rfl)
    · refine .after (bootTest_svn _ _ _) ?_
      split
      · exact .after (trialFailed_svn _ _) (.of_flash rfl)
      · exact .of_flash rfl

theorem processorReady_svn (s : State) : SvnRises s (processorReady s) := by
  refine .ite (.refl s) ?_
  have a : SvnRises s (bootEvent { s with secure := { s.secure with boot := 2 } }) :=
    .after (logEvent_svn _ _ _ _ _ _) (setSecure_svn s _)
  exact .ite (a.trans (.of_flash_svn rfl (writeSelector_fusedSvn _ _ _))) a

theorem bootReadyTimeout_svn (s : State) : SvnRises s (bootReadyTimeout s) := by
  unfold bootReadyTimeout
  split
  · exact .refl s
  split
  · exact enterRecovery_svn s
  split
  · exact bootFails_svn s _ _
  · exact .after (setSecure_svn _ _) (.ite (trialFailed_svn s _) (.refl s))

/-! ### What the object-dictionary server writes (R459, R467, R470, R487) -/

theorem listRepairs_svn (s : State) (fs : List Fail) :
    SvnRises s (fs.foldl (fun s f => listRepair s f (testOf f) true) s) := .foldl (fun s f => listRepair_svn s f _ _) fs s

theorem stackPpr_svn (s : State) (v : Nat) : SvnRises s (stackPpr s v).2 := by
  unfold stackPpr
  split
  · exact .refl s
  split
  · exact .refl s
  · exact .of_svn rfl

theorem bistUnit_svn (s : State) (v : Nat) (fs : List Fail) : SvnRises s (bistUnit s v fs).2 := by
  unfold bistUnit
  dsimp only
  split
  · exact .refl s
  split
  · exact .refl s
  · exact .ite (.after (.of_frame (portFail_fr rfl _ _ _)) (listRepairs_svn s _)) (listRepairs_svn s _)

/-- R470: SVN_COMMIT burns only where the version of the active bundle is above that of the fuses. -/
theorem svnCommit_svn {s : State} (h : s.flash.fusedSvn ≤ min 128 (activeSvn s)) : SvnRises s (svnCommit s) := by
  unfold svnCommit
  exact .ite ⟨h⟩ ⟨h⟩

theorem activate_svn (s : State) : SvnRises s (activate s) := .of_flash_svn rfl (writeSelector_fusedSvn _ _ _)

theorem odApply_svn (s : State) (w : Who) (index sub v : Nat) (fs : List Fail) :
    SvnRises s (odApply s w index sub v fs).2 := by
  have set := odSet_svn s index sub v
  unfold odApply
  dsimp only
  split
  · split
    · exact set
    · exact .refl s
  · exact .after (.of_frame (portEnable_fr rfl _ _ _)) set
  · exact .of_svn rfl
  · exact .after (.of_frame (startTest_fr rfl _ _)) set
  · exact .after (.of_frame (startTest_fr rfl _ _)) (.after (.of_frame (endJobFault_fr rfl _ _)) set)
  · exact .after (.of_frame (calRequest_fr rfl _ _)) set
  · split
    · exact .refl s
    · exact set
  · exact stackPpr_svn s v
  · exact bistUnit_svn s v fs
  · split
    · exact .refl s
    · exact set
  · split
    · exact set
    split
    · exact .after (activate_svn _) set
    · exact .refl s
  · split
    · exact set
    split
    · have may : s.secure.boot = 2 ∧ s.secure.trial = false ∧ s.flash.fusedSvn < min 128 (activeSvn s) :=
        of_decide_eq_true ‹_›
      exact set.trans (svnCommit_svn may.2.2.le)
    · exact .refl s
  · exact .of_frame (setNonce_fr rfl s w v)
  · exact .ite (.of_frame (endUnlock_fr rfl s)) (.refl s)
  · exact set

theorem odWrite_svn (s : State) (w : Who) (b : OdBlk) (e : OdEntry) (data : List Byte) (fs : List Fail) :
    SvnRises s (odWrite s w b e data fs).st := by
  unfold odWrite
  dsimp only
  repeat (split; exact .refl s)
  exact odApply_svn s w _ _ _ fs

theorem stageBegin_svn (s : State) : SvnRises s (stageBegin s) := .of_flash_svn rfl (setSlot_fusedSvn _ _ _)

theorem stageEnd_svn (s : State) (bs : List Byte) : SvnRises s (stageEnd s bs) :=
  .of_flash_svn rfl (setSlot_fusedSvn _ _ _)

theorem domainWritten_svn (s : State) (b : OdBlk) (bs : List Byte) : SvnRises s (domainWritten s b bs).st := by
  unfold domainWritten
  split
  · exact stageEnd_svn s bs
  · exact .of_frame (useToken_fr rfl s bs)

theorem takeSegment_svn (s : State) (t : Transfer) (w : Who) (b : OdBlk) (data : List Byte) :
    SvnRises s (takeSegment s t w b data).st := by
  unfold takeSegment
  dsimp only
  split
  · exact .refl s
  have a : SvnRises s (if b.index = 0x9002 ∧ t.moved = 0 then stageBegin s else s) := .ite (stageBegin_svn s) (.refl s)
  split
  · exact .after (domainWritten_svn _ _ _) (.after (.of_frame (dropTransfer_fr rfl _ _ _)) a)
  · exact .after (.of_frame (putTransfer_fr rfl _ _ _ _)) a

theorem odSegWrite_svn (s : State) (w : Who) (b : OdBlk) (e : OdEntry) (data : List Byte) :
    SvnRises s (odSegWrite s w b e data).st := by
  unfold odSegWrite
  repeat (split; exact .refl s)
  split
  · split
    · exact takeSegment_svn s _ w b data
    split
    · exact .refl s
    · exact .refl s
  · repeat (split; exact .refl s)
    exact takeSegment_svn s _ w b data

theorem transferEnds_svn (s : State) (t : Transfer) : SvnRises s (transferEnds s t) :=
  .ite (.after (stagingLost_svn _) (setTransfers_svn s _)) (setTransfers_svn s _)

theorem odSegAbort_svn (s : State) (w : Who) (b : OdBlk) (e : OdEntry) : SvnRises s (odSegAbort s w b e).st := by
  unfold odSegAbort
  split
  · exact .refl s
  split
  · exact transferEnds_svn s _
  · exact .refl s

theorem odRun_svn (s : State) (q : OdReq) (b : OdBlk) (e : OdEntry) (data : List Byte) (fs : List Fail) :
    SvnRises s (odRun s q b e data fs).st := by
  unfold odRun
  split
  · exact .of_frame (odRead_fr rfl s b e)
  · exact odWrite_svn s _ b e data fs
  · exact .of_frame (odSegRead_fr rfl s _ b e)
  · exact odSegWrite_svn s _ b e data
  · exact odSegAbort_svn s _ b e
  · exact .refl s

theorem odAccess_svn (s : State) (q : OdReq) (b : OdBlk) (fs : List Fail) : SvnRises s (odAccess s q b fs).st := by
  unfold odAccess
  dsimp only
  split
  · exact .refl s
  split
  · exact .refl s
  split
  · exact .refl s
  split
  · exact .refl s
  · exact odRun_svn s q b _ _ fs

theorem odServe_svn (s : State) (k : OdKind) (fs : List Fail) : SvnRises s (odServe s k fs) := by
  unfold odServe
  split
  · exact .refl s
  · rename_i q rest _
    have answered (b : OdBlk) : SvnRises s (odAnswer q b (odAccess { s with odQueue := rest } q b fs)) :=
      .after (.of_frame (odAnswer_fr rfl q b _)) <|
        .trans (t := { s with odQueue := rest }) (.of_flash rfl) (odAccess_svn _ q b fs)
    exact .ite (.refl s) (.ite (.after (moduleReset_svn _) (answered _)) (answered _))

theorem segTimeout_svn (s : State) (n : Nat) : SvnRises s (segTimeout s n) := by
  unfold segTimeout
  split
  · exact transferEnds_svn s _
  · exact .refl s

theorem endSession_svn (s : State) (id : Nat) : SvnRises s (endSession s id) :=
  .trans (.foldl transferEnds_svn (s.transfers.filter fun t => t.who == .session id) s) (.of_flash rfl)

theorem jaolpenClose_svn (s : State) (bs : List Byte) : SvnRises s (jaolpenClose s bs) := by
  unfold jaolpenClose
  split
  · exact .refl s
  split
  · exact .refl s
  split
  · exact odAdd_svn s _ _ _
  split
  · exact odAdd_svn s _ _ _
  · exact .after (send_svn _ _) (.after (endSession_svn _ _) (odAdd_svn s _ _ _))

/-! ### The self-test (R531 to R538) -/

theorem saveBad_svn (s : State) (c kind off : Nat) : SvnRises s (saveBad s c kind off) := by
  unfold saveBad
  split
  · exact .ite (.refl s) (.after (noteSector_svn _ _ _ _ _) (.of_frame (State.addPoison_fr rfl s _)))
  · exact .ite (.refl s) (weltLose_svn s _ _ _)
  · exact accLose_svn s _ _ _
  · exact .refl s

theorem savedBad_svn (s : State) (k p : Nat) (places : List Nat) (found : List Fail) :
    SvnRises s (savedBad s k p places found) := by
  unfold savedBad
  split
  · exact .refl s
  · exact .foldl (fun s _ => saveBad_svn s _ _ _) _ s

theorem updPhys_svn (s : State) (k p : Nat) (f : Phys → Phys) : SvnRises s (s.updPhys k p f) :=
  .of_frame (State.updPhys_fr rfl s k p f)

theorem rerunEnds_svn (s : State) (k p : Nat) (bad : Bool) : SvnRises s (rerunEnds s k p bad) := by
  unfold rerunEnds
  exact .after (updPhys_svn _ _ _ _) (settleRecords_svn s _ _)

theorem sliceFailed_svn (s : State) (k p n : Nat) (fs : List Fail) : SvnRises s (sliceFailed s k p n fs) := by
  unfold sliceFailed
  refine .after (updPhys_svn _ _ _ _) ?_
  split
  · exact failCell_svn s _ _
  · exact .refl s

theorem sliceEnd_svn (s : State) (k p : Nat) (sigs : List Nat) (found : List Fail) :
    SvnRises s (sliceEnd s k p sigs found) := by
  unfold sliceEnd
  split
  · exact .refl s
  · rename_i n _
    have moved (f : Phys → Phys) : SvnRises s ((savedBad (s.odAdd 0x8110 0 1) k p (slicePlaces s n) found).updPhys k p f) :=
      .after (updPhys_svn _ _ _ _) (.after (savedBad_svn _ _ _ _ _) (odAdd_svn s _ _ _))
    have passed (t : State) (ns : List Nat) (fs : List Fail) (m : SvnRises s t) :
        SvnRises s (if fs = [] then slicePasses t k p ns else t) :=
      .ite (m.trans (.of_frame (slicePasses_fr rfl t k p ns))) m
    exact .ite (.after (rerunEnds_svn _ _ _ _) (passed _ _ _ (moved _)))
      (.ite (passed _ _ _ (moved _)) (.after (sliceFailed_svn _ _ _ _ _) (passed _ _ _ (moved _))))

/-! ### Power (R520, R575 to R577) -/

theorem powerOff_svn (s : State) : SvnRises s (powerOff s) := .after (setPower_svn _ _) (blank_svn s)

theorem pwrEnDeassert_svn (s : State) : SvnRises s (pwrEnDeassert s) :=
  .ite (.refl s) (.after (setPower_svn _ _) (powerOff_svn s))

theorem inputTrip_svn (s : State) (removed : Bool) : SvnRises s (inputTrip s removed) :=
  .after (setPower_svn _ _) (.ite (powerOff_svn s) (.refl s))

theorem thermalShutdown_svn (s : State) : SvnRises s (thermalShutdown s) :=
  .ite (.after (setPower_svn _ _) (powerOff_svn s)) (.refl s)

end Sys2Proof.Machine
end

section
/-! FUSED_SVN (R470) over every command. -/
namespace Sys2Proof.Machine

/-! ### Operations whose frames ask for more than the state before -/

theorem hearRoot_svn (s : State) (sender : Nat) : SvnRises s ((hearRoot s sender).getD s) := by
  cases e : hearRoot s sender with
  | none => exact .refl s
  | some t => exact .of_frame (hearRoot_fr rfl e)

theorem pieceCommit_svn (s : State) (c : Nat) :
    SvnRises s (match s.pieceOf c with
      | some p => if p.committing then commitPiece s c p else s
      | none => s) := by
  split
  · exact .ite (.of_frame (commitPiece_fr rfl s c _)) (.refl s)
  · exact .refl s

theorem packRows_frame {M : Nat} (hM : Nat.land 0x4010000270 M = 0x4010000270) (d : StemD) (l : List Nat) (s z : State)
    (h : s.hide M = z.hide M) : (l.foldl (packRow d) (s, 0)).1.hide M = z.hide M :=
  foldl_fr_fst h fun a i k => packRow_fr hM d a i k

theorem unpackRows_frame {M : Nat} (hM : Nat.land 0x4010000270 M = 0x4010000270) (d : StemD) (l : List Nat) (s z : State)
    (h : s.hide M = z.hide M) : (l.foldl (unpackRow d) (s, 0)).1.hide M = z.hide M :=
  foldl_fr_fst h fun a i k => unpackRow_fr hM d a i k

theorem runUnit_svn {s : State} {c : Nat} {u : CellUnit} {is : Nat → Bool} {work : State → Piece → Item → State × Flags}
    (k : ∀ p i, s.hide allButFlash = s.hide allButFlash → (work s p i).1.hide allButFlash = s.hide allButFlash) :
    SvnRises s (runUnit s c u is work) := .of_frame fun h => runUnit_fr rfl s c u is work h fun p i => k p i h

theorem skCmd_svn {s : State} {c op : Nat} {work : State → Piece → Nat → SkD → Option (State × Flags)}
    (k : ∀ {p n d r}, work s p n d = some r → s.hide allButFlash = s.hide allButFlash →
      r.1.hide allButFlash = s.hide allButFlash) :
    SvnRises s (skCmd s c op work) := .of_frame fun h => skCmd_fr rfl s c op work h fun _ _ _ _ e => k e h

/-- A Skiver descriptor whose work always has a result. -/
theorem skCmd_some_svn {s : State} {c op : Nat} {work : State → Piece → SkD → State × Flags}
    (k : ∀ p d, s.hide allButFlash = s.hide allButFlash → (work s p d).1.hide allButFlash = s.hide allButFlash) :
    SvnRises s (skCmd s c op fun s p _ d => some (work s p d)) := skCmd_svn fun {p _ d _} e => Option.some.inj e ▸ k p d

theorem tileClaim_answers_svn (s : State) (cell obj : Nat) : Answers false (SvnRises s) (execTileClaim cell obj s) := by
  unfold execTileClaim
  split
  · exact onObj_answers nofun (.of_frame (tileClaim_fr rfl s cell obj))
  · rfl

theorem calibrationDone_answers_svn (s : State) (cluster : Bool) (unit : Nat) :
    Answers false (SvnRises s) (execCalibrationDone cluster unit s) := by
  cases cluster with
  | true =>
    rw [execCalibrationDone, if_pos rfl]
    exact onCluster_answers nofun (.of_flash rfl)
  | false =>
    rw [execCalibrationDone, if_neg Bool.false_ne_true]
    exact onPort_answers nofun (.of_frame (calibrationDone_fr rfl s unit))

/-- Every command that goes on leaves the fused version at least as it was. -/
theorem exec_svn (c : Instr) (s : State) : Answers false (SvnRises s) (exec c s) := by
  cases c with dsimp only [exec]
  -- The Stitch and the Harness (spec 02)
  | stitchEdge => exact .next (.whenPowered (.of_frame (stitchEdge_fr rfl s)))
  | stitchInEdge _ => exact .next (.of_frame (stitchInEdge_fr rfl s _))
  | stitchInTimeout => exact .next (.ite (.of_frame (enterLost_fr rfl s)) (.refl s))
  | stitchMarker _ _ _ _ => exact onPort_answers nofun (.of_frame (stitchMarker_fr rfl s _ _ _ _))
  | rootHeartbeatSend => exact .next (.ite (send_svn s _) (.refl s))
  | rootHeartbeat sender => exact .next (hearRoot_svn s sender)
  | standbyTakeover _ => exact .next (.of_frame (standbyTakeover_fr rfl s _))
  | stitchLost => exact .next (.ite (.of_frame (enterLost_fr rfl s)) (.refl s))
  | stitchLostJobEnd => exact .next (.ite (.of_frame (endJobFault_fr rfl s _)) (.refl s))
  | harnessFrame _ _ _ _ _ => exact onPort_answers nofun (.of_frame (harnessFrame_fr rfl s _ _ _ _ _))
  -- Pieces, the array and the stem (spec 04, 05, 07)
  | pieceStart _ _ => exact onCell_answers nofun (.whenPowered (.of_frame (pieceStart_fr rfl s _ _)))
  | descriptorHandOut _ => exact onCell_answers nofun (.of_frame (handOut_fr rfl s _))
  | gridDescriptor _ => exact onCell_answers nofun (.of_frame (gridDescriptor_fr rfl s _))
  | matrix _ | wgrad _ | conv _ | poolMax _ | poolAvgFull _ | poolAvgValid _ | convDx _ | convWgrad _ =>
    exact onCell_answers nofun (.of_frame (arrayCmd_fr rfl s _ _))
  | stemPack _ => exact onCell_answers nofun (runUnit_svn fun _ _ => packRows_frame rfl _ _ s s)
  | stemUnpack _ => exact onCell_answers nofun (runUnit_svn fun _ _ => unpackRows_frame rfl _ _ s s)
  | preload _ => exact onCell_answers nofun (.of_frame (preload_fr rfl s _))
  | tileDrain _ => exact onCell_answers nofun (.of_frame (tileDrain_fr rfl s _))
  | descriptorRetire _ _ _ => exact onCell_answers nofun (retire_svn s _ _ _)
  -- The vector engine and the Skivers (spec 06, 08)
  | vectorCopy _ | vectorAdd _ | vectorSub _ | vectorMul _ | vectorDiv _ | vectorMax _ | vectorMin _ | vectorFma _
  | vectorAbs _ | vectorNeg _ | vectorClamp _ | vectorSign _ | vectorSqrt _ | vectorRsqrt _ | vectorRecip _
  | vectorExp _ | vectorLog _ | vectorTanh _ | vectorSigmoid _ | vectorSilu _ | vectorGeluTanh _ | vectorRelu _
  | vectorSelect _ | vectorCmpGt _ => exact onCell_answers nofun (.of_frame (mapCmd_fr rfl s _ _))
  | reductionSum _ | reductionSumsq _ | reductionSumabs _ | reductionMax _ | reductionMin _ | reductionAbsmax _
  | reductionDot _ => exact onCell_answers nofun (.of_frame (redCmd_fr rfl s _ _))
  | updateSgdMomentum _ | updateAdamw _ | updateLion _ =>
    exact onCell_answers nofun (.of_frame (updCmdRow_fr rfl s _ _))
  | normFwd _ => exact onCell_answers nofun (skCmd_some_svn fun _ _ => normFwd_fr rfl s _ _ _)
  | normBwd _ => exact onCell_answers nofun (skCmd_svn fun e => normBwd_fr rfl e)
  | softmaxFwd _ => exact onCell_answers nofun (skCmd_some_svn fun _ _ => softFwd_fr rfl s _ _ _)
  | softmaxBwd _ => exact onCell_answers nofun (skCmd_svn fun e => softBwd_fr rfl e)
  | statSave _ => exact onCell_answers nofun (skCmd_some_svn fun _ _ => statSave_fr rfl s _ _ _)
  | statLoad _ => exact onCell_answers nofun (skCmd_some_svn fun _ _ => statLoad_fr rfl s _ _ _)
  -- Streams and home slices (spec 10, 11)
  | moveCopy _ _ | moveEncode _ _ | moveDecode _ _ | moveRegroup _ _ | rearm _ _ =>
    exact onCell_answers nofun (.of_frame (streamStart_fr rfl s _ _ _))
  | queueCtl _ => exact onCell_answers nofun (.of_frame (queueCtl_fr rfl s _))
  | transferIssue _ => exact onCell_answers nofun (.of_frame (transferIssue_fr rfl s _))
  | homeSliceAccess _ _ _ _ => exact .next (.whenPowered (homeAccess_svn s _ _ _ _))
  | transferLand _ _ _ _ => exact onCell_answers nofun (transferLand_svn s _ _ _ _)
  -- Sync objects (spec 02)
  | harnessOpRead _ | harnessOpAdd _ | harnessOpSet _ | harnessOpWaitGe _ | harnessOpEventSet _
  | harnessOpEventClear _ | harnessOpEventWait _ | harnessOpArrive _ | harnessOpBarrierWait _
  | harnessOpArriveWait _ | harnessOpPost _ | harnessOpTake _ | harnessOpTryTake _ =>
    exact onCell_answers nofun (.of_frame (harnessCmd_fr rfl s _ _))
  | syncWaitRelease _ _ _ => exact onCell_answers nofun (.of_frame (waitRelease_fr rfl s _ _ _))
  | farUpdate _ _ => exact .next (.of_frame (farUpdate_fr rfl s _ _))
  -- Commits and tiles (spec 05)
  | pieceCommit cell => exact onCell_answers nofun (pieceCommit_svn s cell)
  | tileClaim cell obj => exact tileClaim_answers_svn s cell obj
  | tileCommit _ => exact onCell_answers nofun (.of_frame (tileCommit_fr rfl s _))
  | tileCommitReply _ => exact onCell_answers nofun (.of_frame (tileCommitReply_fr rfl s _))
  | tileDone _ _ _ => exact onObj_answers nofun (.of_frame (tileDone_fr rfl s _))
  | tileRevert _ _ _ => exact onObj_answers nofun (.of_frame (tileRevert_fr rfl s _))
  | tileRelease _ _ _ => exact onObj_answers nofun (.of_frame (releaseLease_fr rfl s _))
  | leaseTimeout _ _ => exact onObj_answers nofun (.of_frame (leaseTimeout_fr rfl s _ _))
  | cellFault _ => exact onCell_answers nofun (.ite (failCell_svn s _ _) (.refl s))
  | slmAdd _ => exact onCell_answers nofun (.of_frame (slmAdd_fr rfl s _))
  -- Training steps (spec 09)
  | gather _ => exact onCtx_answers nofun (.of_frame (gather_fr rfl s _))
  | stepOpen _ _ _ => exact .next (.of_frame (stepOpen_fr rfl s _ _ _))
  | exchange _ => exact onCtx_answers nofun (.of_frame (exchange_fr rfl s _))
  | updatePlacement _ _ _ => exact onCtx_answers nofun (.of_frame (updatePlacement_fr rfl s _ _ _))
  | voteCast _ => exact onCtx_answers nofun (.of_frame (voteCast_fr rfl s _))
  | voteReceive _ _ _ _ _ _ _ _ _ => exact onCtx_answers nofun (.of_frame (voteReceive_fr rfl s _ _))
  | voteDeadline _ => exact onCtx_answers nofun (.of_frame (voteDeadline_fr rfl s _))
  | outcomeReceive _ _ _ _ _ _ => exact onCtx_answers nofun (.of_frame (outcomeReceive_fr rfl s _ _ _ _ _ _))
  | stepOutcomeApply _ => exact onCtx_answers nofun (.of_frame (outcomeApply_fr rfl s _))
  | stepGather _ => exact onCtx_answers nofun (.of_frame (stepGather_fr rfl s _))
  | mirror _ _ => exact onCtx_answers nofun (.of_frame (mirror_fr rfl s _ _))
  | mirrorAck _ _ => exact onCtx_answers nofun (.of_frame (mirrorAck_fr rfl s _ _))
  -- Snapshots and the fabric (spec 09, 12)
  | snapshot _ _ => exact .next (.of_frame (snapshot_fr rfl s _ _))
  | snapshotSend _ => exact .next (.of_frame (snapshotSend_fr rfl s _))
  | reduceScatter _ | allReduce _ | allGather _ | broadcast _ | put _ =>
    exact .next (.of_frame (fabCommand_fr rfl s _ _))
  | fabricOpStart _ => exact .next (.of_frame (fabStart_fr rfl s _))
  | fabricStartNotice _ _ _ _ _ _ _ _ _ => exact .next (.whenPowered (.of_frame (startNotice_fr rfl s _)))
  | fabricOpComplete _ _ => exact .next (.of_frame (fabOpComplete_fr rfl s _ _))
  | fabricTimeout _ => exact .next (.of_frame (fabTimeout_fr rfl s _))
  | flitData _ _ _ _ _ _ =>
    exact onPort_answers nofun (.of_frame (flitData_fr rfl s _ _ _ _ _ _))
  | flitReduce _ _ _ _ _ _ => exact onPort_answers nofun (.of_frame (flitReduce_fr rfl s _ _ _ _ _ _))
  | residueResendRequest _ _ _ _ => exact onPort_answers nofun (.of_frame (resendFlit_fr rfl s _ _ _ _))
  | flitRetry _ _ _ _ _ => exact onPort_answers nofun (.of_frame (flitRetry_fr rfl s _ _ _ _ _))
  | flitNull _ _ _ _ _ => exact onPort_answers nofun (.of_frame (receive_fr rfl s _ _ _ _ _ _))
  | laserLightLoss _ _ => exact .guard nofun (.of_frame (lightLoss_fr rfl s _ _))
  | portTraining _ _ _ => exact onPort_answers nofun (.of_frame (portTraining_fr rfl s _ _ _))
  | portTrainingTimeout _ _ => exact onPort_answers nofun (.of_frame (portTrainingTimeout_fr rfl s _ _))
  | portLockLoss _ _ _ => exact onPort_answers nofun (.of_frame (lockLoss_fr rfl s _ _ _))
  | harnessLockLoss _ | harnessLockRegained _ => exact onPort_answers nofun (.of_frame (State.updPort_fr rfl s _ _))
  | portRetrain _ => exact onPort_answers nofun (.whenPowered (.of_frame (State.updPort_fr rfl s _ _)))
  | calibrationDone cluster unit => exact calibrationDone_answers_svn s cluster unit
  -- The Tannery (spec 13)
  | streamOpen _ => exact .next (.of_frame (streamOpen_fr rfl s _))
  | streamClose _ => exact .next (.of_frame (streamClose_fr rfl s _))
  | batchAssemble _ => exact onStream_answers nofun (.of_frame (batchAssemble_fr rfl s _))
  | sampleStart _ => exact onStream_answers nofun (.of_frame (sampleStart_fr rfl s _))
  | sampleDecoded _ _ _ _ _ _ _ =>
    exact onStream_answers nofun (.of_frame (sampleDecoded_fr rfl s _ _ _ _ _))
  | sampleOverBudget _ _ _ => exact onStream_answers nofun (.of_frame (overBudget_fr rfl s _ _ _))
  | batchSeal _ _ => exact onStream_answers nofun (.of_frame (batchSeal_fr rfl s _ _))
  -- Jobs, contexts and the pattern (spec 14)
  | jobOpen _ _ _ _ _ _ _ => exact .next (.of_frame (jobOpen_fr rfl s _ _))
  | jobClose _ => exact .next (.of_frame (jobClose_fr rfl s _))
  | scrubComplete _ _ => exact .next (scrubComplete_svn s _ _)
  | contextCreate _ _ => exact .next (.of_frame (contextCreate_fr rfl s _ _))
  | contextDestroy _ => exact .next (.of_frame (contextDestroy_fr rfl s _))
  | patternLoad _ _ => exact .next (.of_frame (patternLoad_fr rfl s _ _))
  | patternTakeEffect => exact .next (.of_frame (patternTakeEffect_fr rfl s))
  | swapComplete _ => exact onCtx_answers nofun (.of_frame (swapComplete_fr rfl s _))
  | class2Refuse _ => exact .next (.of_frame (class2Refuse_fr rfl s _))
  | run _ => exact .next (.of_frame (runCommand_fr rfl s _))
  | grid _ => exact .next (.of_frame (gridCommand_fr rfl s _))
  | syncOpRead _ | syncOpAdd _ | syncOpSet _ | syncOpEventSet _ | syncOpEventClear _ | syncOpPost _
  | syncOpArrive _ => exact .next (.of_frame (syncOpCommand_fr rfl s _ _))
  -- The host (spec 15)
  | hostCopyToDevice _ _ => exact .next (.of_frame (hostCopyIn_fr rfl s _ _))
  | hostCopyToHost _ _ => exact .next (.of_frame (hostCopyOut_fr rfl s _ _))
  | pcieReadCompletion _ _ _ _ => exact .next (.of_frame (readCompletion_fr rfl s _ _ _ _))
  | ringEntryTake => exact .next (.of_frame (ringEntryTake_fr rfl s))
  | sqTail _ _ => exact onRing_answers (.of_frame (sqTailWrite_fr rfl s _ _)) (.refl s)
  | cqHead _ _ => exact onRing_answers (.of_frame (cqHeadWrite_fr rfl s _ _)) (.refl s)
  | ringEnable _ _ _ _ _ _ => exact onRing_answers (.of_frame (ringEnable_fr rfl s _ _ _ _ _ _)) (.refl s)
  | bar2WindowBase _ _ => exact .next (.of_frame (bar2WindowBase_fr rfl s _ _))
  | bar2Read _ _ => exact .next (.of_frame (bar2Read_fr rfl s _ _))
  | bar2Write _ _ _ => exact .next (.of_frame (bar2Write_fr rfl s _ _ _))
  | perstNAssert _ => exact .next (.filtered perstAssert_svn)
  | perstNDeassert => exact .next (.of_frame (perstDeassert_fr rfl s))
  -- The object dictionary (spec 16, 17)
  | odRead | odWrite | odSegRead | odSegWrite | odSegAbort | fwStageData | fwActivate | svnCommit | attestNonce
  | attestReport | debugToken | debugLock | bistRequest | bistForce | calRequest | testMode | stackPpr | bistUnit _ =>
    exact .next (odServe_svn s _ _)
  | segTransferTimeout _ => exact .next (segTimeout_svn s _)
  | debugUnlockExpiry => exact .next (.ite (.refl s) (.of_frame (endUnlock_fr rfl s)))
  | mbDoorbell _ _ _ => exact .next (.of_frame (mbDoorbell_fr rfl s _ _ _))
  -- The field bus (spec 17)
  | jaolpenOpen _ => exact .next (.of_frame (jaolpenOpen_fr rfl s _))
  | jaolpenRequest _ => exact .next (.of_frame (jaolpenRequest_fr rfl s _))
  | jaolpenClose _ => exact .next (jaolpenClose_svn s _)
  | sessionIdleTimeout _ => exact .next (.ite (endSession_svn s _) (.refl s))
  | neighborSolicitation | echoRequest _ => exact .next (.ite (send_svn s _) (.refl s))
  | plcaBeaconTimeout | plcaBeaconReceived => exact .next (.ite (.of_flash rfl) (.refl s))
  -- Faults and fences (spec 20)
  | fence _ _ cause => exact onUnit_answers nofun fun u => .whenPowered (fence_svn s u cause)
  | fenceNotice _ _ _ => exact onUnit_answers nofun fun u => .of_frame (fenceNotice_fr rfl s u _)
  | fenceAck _ _ _ => exact onUnit_answers nofun fun u => .of_frame (fenceAck_fr rfl s u _)
  | unfence block => exact .guard nofun (.of_frame (unfence_fr rfl s block))
  | memberExclude _ => exact .next (.of_frame (memberExclude_fr rfl s _))
  | controlCoreWatchdog _ => exact onCluster_answers nofun (.whenRunning (controlWatchdog_svn s _))
  | schedulerWatchdog => exact .next (.whenRunning (.after (fence_svn _ _ _) (.of_frame (countExpiry_fr rfl s _ _))))
  | schedulerResume => exact .next (.of_frame (unfence_fr rfl s 0x82))
  | schedulerLost => exact .next (.ite (.of_frame (endJobFault_fr rfl s _)) (.refl s))
  | powerWatchdog => exact .next (.ite (.after (fence_svn _ _ _) (.of_frame (countExpiry_fr rfl s _ _))) (.refl s))
  | powerCoreResume => exact .next (.of_frame (unfence_fr rfl s 0x83))
  | securityWatchdog => exact .next (.ite ((moduleReset_svn s).trans (.of_frame (countExpiry_fr rfl _ _ _))) (.refl s))
  | resetNAssert _ => exact .next (.filtered resetAssert_svn)
  -- Boot and power (spec 16, 18)
  | boot _ _ _ => exact .next (boot_svn s _ _ _)
  | processorReady => exact .next (processorReady_svn s)
  | bootReadyTimeout => exact .next (bootReadyTimeout_svn s)
  | pwrEnAssert _ => exact .next (.filtered fun t => .of_frame (pwrEnAssert_fr rfl t))
  | pwrEnDeassert _ => exact .next (.filtered pwrEnDeassert_svn)
  | pwrEnHoldoffExpiry | inputVoltageValid => exact .next ((setPower_svn s _).trans (.of_frame (tryPowerUp_fr rfl _)))
  | inputVoltageTrip removed => exact .next (inputTrip_svn s removed)
  | safeTrip _ _ => exact .next (.of_frame (safeTrip_fr rfl s _ _))
  | safeExit _ => exact .next (.of_frame (safeExit_fr rfl s _))
  | thermalShutdown => exact .next (thermalShutdown_svn s)
  | powerLoopTick _ _ _ _ => exact .next (.whenPowered (.of_frame (powerTick_fr rfl s _ _ _ _)))
  | droopStretch _ _ => exact onCluster_answers nofun (.whenPowered (.of_flash rfl))
  | stackTempReport _ _ _ => exact onStack_answers nofun (.whenPowered (.of_frame (stackReport_fr rfl s _ _ _)))
  -- Service (spec 11, 19)
  | patrolScrub _ _ _ _ => exact onStack_answers nofun (patrol_svn s _ _ _ _)
  | bistSliceStart _ _ _ => exact onCluster_answers nofun (.of_frame (sliceStart_fr rfl s _ _ _))
  | bistSliceEnd _ _ _ _ => exact onCluster_answers nofun (sliceEnd_svn s _ _ _ _)

/-- Settles O5: an idle step changes nothing, and no command lets the version fall. -/
theorem fusedVersionNeverFalls : Obligations.FusedVersionNeverFalls := by
  intro s t h
  cases hq : s.pending with
  | nil =>
    rw [step_nil hq] at h
    cases h
    exact Nat.le_refl _
  | cons c rest =>
    rw [step_cons hq] at h
    exact ((exec_svn c { s with pending := rest }).of_next h).le

end Sys2Proof.Machine
end

section
/-! Power that comes and goes (R507, R520, R575 to R577). -/
namespace Sys2Proof.Machine

/-- A level of more than 150 ns passes the glitch filter (R578). -/
theorem filtered_of_long {ns : Nat} (h : 150 < ns) (s : State) (f : State → State) : filtered s ns f = f s.draw := by
  have accepted : levelAccepted s ns = true := by
    unfold levelAccepted
    simp [h]
  rw [filtered, if_pos accepted]

/-- Power comes up exactly where the pins and the input allow it. -/
theorem tryPowerUp_eq (s : State) : tryPowerUp s = { s with power := poweredUp s.power } := by
  have same : mayPowerUp s.power = true ↔
      (s.power.pwrEn ∧ !s.power.holdoff ∧ s.power.inputOk ∧ !s.power.rails ∧ s.power.shutdown = .no) := by
    simp [mayPowerUp, and_assoc]
  unfold tryPowerUp poweredUp
  by_cases h : mayPowerUp s.power = true
  · rw [if_pos h]
    exact if_pos (same.mp h)
  · rw [if_neg h]
    exact if_neg (mt same.mpr h)

/-- A staging is lost only while one is under way. -/
theorem stagingLost_of_ne {s : State} (h : s.secure.stage ≠ 1) : stagingLost s = s := if_neg h

/-- The rails off, whatever is then noted on the pins besides. -/
theorem poweredOff_of_blank {s : State} {p : Power} (rails : p.rails = false) (pg : p.pg = false) (low : p.resetLow = true) :
    PoweredOff s { powerOff s with power := p } :=
  have kept (h : s.secure.stage ≠ 1) : (stagingLost s).flash = s.flash := congrArg State.flash (stagingLost_of_ne h)
  ⟨rfl, kept, rails, pg, low⟩

/-- Settles O55: power up is decided by the pins, and each way down is the loss of the rails with its pins. -/
theorem powerComesAndGoes : Obligations.PowerComesAndGoes := by
  refine ⟨fun s ns h => ?_, fun s => ⟨?_, ?_⟩, fun s ns h on => ?_, fun s removed on => ?_, fun s on => ?_⟩
  · exact congrArg Host.Outcome.next ((filtered_of_long h s pwrEnAssert).trans (tryPowerUp_eq _))
  · exact congrArg Host.Outcome.next (tryPowerUp_eq _)
  · exact congrArg Host.Outcome.next (tryPowerUp_eq _)
  · refine ⟨_, congrArg Host.Outcome.next (filtered_of_long h s pwrEnDeassert), ?_⟩
    have off : pwrEnDeassert s.draw = { powerOff s.draw with power := { (powerOff s.draw).power with
        pwrEn := false, holdoff := true, thermTrip := false, shutdown := .no } } := if_neg (by simp [State.draw, on])
    rw [off]
    exact ⟨⟨rfl, (poweredOff_of_blank (s := s.draw) rfl rfl rfl).2⟩, rfl, rfl, rfl, rfl, rfl, rfl⟩
  · refine ⟨_, rfl, ?_⟩
    unfold inputTrip
    rw [on]
    exact ⟨poweredOff_of_blank rfl rfl rfl, rfl, rfl, rfl, rfl, rfl⟩
  · refine ⟨_, rfl, ?_⟩
    rw [thermalShutdown, if_pos on]
    exact ⟨poweredOff_of_blank rfl rfl rfl, rfl, rfl, rfl, rfl⟩

end Sys2Proof.Machine
end

section
/-! The object-dictionary server: what serving the oldest request comes to, and its reads and writes (R482 to R490). -/
namespace Sys2Proof.Machine

variable {s : State} {k : OdKind} {q : OdReq} {rest : List OdReq} {e : OdEntry}

/-! ### Serving the oldest request -/

/-- A request whose entry exists and that nothing stops runs its operation on its entry. -/
theorem odAccess_of_takes (h : OdTakes s k q rest e) (fs : List Fail) :
    odAccess (served s rest) q (OdBlk.ofWord q.block) fs =
      odRun (served s rest) q (OdBlk.ofWord q.block) e (odData s q (OdBlk.ofWord q.block)).1 fs := by
  obtain ⟨_, _, _, stops, entry, recovery, denied⟩ := h
  have open_ : ¬((served s rest).secure.boot = 3 ∧ !inRecovery (OdBlk.ofWord q.block).index) := by
    rintro ⟨boot, out⟩
    rw [recovery boot] at out
    cases out
  have denied' : odDenied (served s rest) q.who (OdBlk.ofWord q.block) = false := denied
  have same : odData (served s rest) q (OdBlk.ofWord q.block) = odData s q (OdBlk.ofWord q.block) := rfl
  unfold odAccess
  dsimp only
  rw [same, stops, entry]
  dsimp only
  rw [denied', if_neg Bool.false_ne_true, if_neg open_]

/-- The row that serves the oldest request answers it; a reset follows the answer where the operation asks for one. -/
theorem odServe_of_takes (h : OdTakes s k q rest e) (fs : List Fail) :
    odServe s k fs =
      let a := odRun (served s rest) q (OdBlk.ofWord q.block) e (odData s q (OdBlk.ofWord q.block)).1 fs
      if a.reset then moduleReset (odAnswer q (OdBlk.ofWord q.block) a) else odAnswer q (OdBlk.ofWord q.block) a := by
  obtain ⟨queue, up, row, _⟩ := id h
  unfold odServe
  rw [queue]
  dsimp only
  rw [up, row, if_neg (by decide)]
  exact congrArg (fun a => if a.reset then moduleReset (odAnswer q (OdBlk.ofWord q.block) a)
    else odAnswer q (OdBlk.ofWord q.block) a) (odAccess_of_takes h fs)

/-- An operation that asks for no reset. -/
theorem odServe_of_run (h : OdTakes s k q rest e) (fs : List Fail) {a : OdAns}
    (run : odRun (served s rest) q (OdBlk.ofWord q.block) e (odData s q (OdBlk.ofWord q.block)).1 fs = a) (stays : a.reset = false) :
    odServe s k fs = odAnswer q (OdBlk.ofWord q.block) a := by
  rw [odServe_of_takes h, run]
  dsimp only
  rw [stays, if_neg Bool.false_ne_true]

/-! ### READ and WRITE (R482, R483) -/

theorem odRun_read {w : State} {b : OdBlk} (op : b.op = 0x30) (data : List Byte) (fs : List Fail) :
    odRun w q b e data fs = odRead w b e := by
  simp only [odRun, op]

theorem odRun_write {w : State} {b : OdBlk} (op : b.op = 0x31) (data : List Byte) (fs : List Fail) :
    odRun w q b e data fs = odWrite w q.who b e data fs := by
  simp only [odRun, op]

/-- A legal value of an entry does what its entry's rule says, and FW_ACTIVATE resets the module. -/
theorem odWrite_of_legal {w : State} {b : OdBlk} {data : List Byte} (h : OdLegal w e data) (who : Who) (fs : List Fail) :
    odWrite w who b e data fs =
      let r := odApply w who b.index b.sub (leNat data) fs
      { OdAns.result r.2 r.1 with reset := decide (b.index = 0x9004 ∧ leNat data = 1 ∧ r.1 = OdRes.ok) } := by
  obtain ⟨rw_, const, domain, size, short, idle, admits⟩ := h
  have fits : ¬(e.ty = .domain ∨ (e.ty ≠ .vstr ∧ data.length ≠ e.ty.size) ∨ 255 < data.length) := by
    rintro (c | ⟨c, d⟩ | c)
    · exact domain c
    · exact d (size c)
    · omega
  have free : ¬(e.right = .rwi ∧ w.job.state ≠ .idle) := fun c => c.2 (idle c.1)
  unfold odWrite
  dsimp only
  rw [if_neg (not_or.mpr ⟨rw_, const⟩), if_neg fits, if_neg free, admits, if_neg (by decide)]

/-- A write of a legal value but to FW_ACTIVATE answers what its rule answers. -/
theorem odServe_write {index sub v : Nat} (h : OdWrites s k q rest e index sub v) (other : index ≠ 0x9004) (fs : List Fail) :
    odServe s k fs = odAnswer q (OdBlk.ofWord q.block)
      (OdAns.result (odApply (served s rest) q.who index sub v fs).2 (odApply (served s rest) q.who index sub v fs).1) := by
  obtain ⟨takes, op, rfl, rfl, legal, rfl⟩ := h
  refine odServe_of_run takes fs (a := OdAns.result _ _) ?_ rfl
  rw [odRun_write op, odWrite_of_legal (w := served s rest) legal]
  dsimp only
  rw [decide_eq_false (fun c => other c.1)]
  rfl

/-- A write of a legal value whose rule answers OK leaves the state that the rule gives. -/
theorem odServe_write_ok {index sub v : Nat} {t : State} (h : OdWrites s k q rest e index sub v) (other : index ≠ 0x9004)
    (fs : List Fail) (apply : odApply (served s rest) q.who index sub v fs = (OdRes.ok, t)) :
    odServe s k fs = odAnswer q (OdBlk.ofWord q.block) (OdAns.result t OdRes.ok) := by
  rw [odServe_write h other, apply]

theorem odApply_unruled {w : State} {index : Nat} (h : index ∉ ruledEntries) (who : Who) (sub v : Nat) (fs : List Fail) :
    odApply w who index sub v fs = (OdRes.ok, w.odSet index sub v) := by
  simp only [ruledEntries, List.mem_cons, not_or] at h
  obtain ⟨h1, h2, h3, h4, h5, h6, h7, h8, h9, h10, h11, h12, h13, h14, _⟩ := h
  unfold odApply
  dsimp only
  split
  all_goals try contradiction
  rfl

theorem sub_ofWord_lt (w : Nat) : (OdBlk.ofWord w).sub < 256 := Nat.mod_lt _ (by decide)

theorem state_portEnable (w : State) (p v : Nat) :
    ((portEnable w p v).port p).state =
      if v = 0 then .disabled else if (w.port p).state = .disabled then .training else (w.port p).state := by
  unfold portEnable
  split
  · rw [state_portDown, if_pos rfl]
  · rw [State.port_updPort_same]
    exact apply_ite Port.state _ _ _

theorem odGet_portEnable (w : State) (p v : Nat) {sub : Nat} (h : sub < 256) :
    (portEnable w p v).odGet 0x4011 sub = w.odGet 0x4011 sub := by
  unfold portEnable
  split
  · exact odGet_portDown_other w p .disabled (by decide) (by decide) h
  · rfl

/-- Settles O47: a READ, the WRITEs by their entries' rules, and the WRITE of what may only be read. -/
theorem entriesAreReadAndWritten : Obligations.EntriesAreReadAndWritten := by
  refine ⟨fun s q rest e h op readable plain fits => ?_, fun s q rest e index sub v h => ?_, fun s q rest e h op ro => ?_⟩
  · refine congrArg Host.Outcome.next (odServe_of_run h [] ?_ rfl)
    rw [odRun_read op, odRead, if_neg readable, if_neg plain]
    exact if_neg (Nat.not_lt.mpr fits)
  · refine ⟨fun unruled => ?_, fun i clear => ?_, fun i => ?_, fun i => ?_, fun i le => ?_⟩
    · have other : index ≠ 0x9004 := fun c => unruled (c ▸ by decide)
      exact congrArg Host.Outcome.next (odServe_write_ok h other [] (odApply_unruled unruled _ _ _ _))
    · subst i
      exact congrArg Host.Outcome.next (odServe_write_ok h (by decide) [] (if_pos clear))
    · subst i
      have low : sub < 256 := h.2.2.2.1 ▸ sub_ofWord_lt q.block
      refine ⟨_, congrArg Host.Outcome.next (odServe_write_ok h (by decide) [] rfl), ?_, ?_⟩
      · rw [odGet_portEnable _ _ _ low, State.odGet_odSet_same]
      · exact state_portEnable _ _ _
    · subst i
      exact congrArg Host.Outcome.next (odServe_write_ok h (by decide) [] rfl)
    · subst i
      exact congrArg Host.Outcome.next (odServe_write_ok h (by decide) [] (if_neg (Nat.not_lt.mpr le)))
  · refine congrArg Host.Outcome.next (odServe_of_run h [] ?_ rfl)
    rw [odRun_write op, odWrite, if_pos ro]

end Sys2Proof.Machine
end

section
/-! Requests of the mailbox and answers over their carriers (R492 to R495, R498, R501). -/
namespace Sys2Proof.Machine

/-- RESULT of a request block that is written twice holds what was written last. -/
theorem setFld_setFld_result (w x y : Nat) : setFld (setFld w 47 40 x) 47 40 y = setFld w 47 40 y := by
  simp only [setFld, fld, Nat.shiftRight_eq_div_pow]
  omega

theorem fitBytes_of_length {bs : List Byte} {n : Nat} (h : bs.length = n) : fitBytes bs n = bs := by
  subst h
  simp [fitBytes]

/-! ### The doorbell -/

/-- The mailbox once MB_REQUEST is written. -/
def asked (m : Mailbox) (request : Nat) : Mailbox :=
  { m with request := setFld (request % 2 ^ 256) 47 40 (fld m.request 47 40) }

/-- The mailbox once MB_DATA is written from its start. -/
def filled (m : Mailbox) (data : List Byte) : Mailbox :=
  { m with data := (data ++ (fitBytes m.data 32768).drop data.length).take 32768 }

/-- The mailbox once its request has begun, with RESULT 0. -/
def begun (m : Mailbox) : Mailbox := { m with request := setFld m.request 47 40 0, busy := true }

/-- The mailbox once a doorbell has written and begun a request. -/
def rung (m : Mailbox) (request : Nat) (data : List Byte) : Mailbox := begun (filled (asked m request) data)

section
variable (m : Mailbox) (request : Nat) (data : List Byte)

/-! The fields that a request leaves or writes. (By cases of the mailbox: the kernel would compare whole records otherwise.) -/

theorem busy_asked : (asked m request).busy = m.busy := by
  cases m
  rfl

theorem busy_filled : (filled m data).busy = m.busy := by
  cases m
  rfl

theorem tag_rung : (rung m request data).tag = m.tag := by
  cases m
  rfl

theorem result_rung : (rung m request data).result = m.result := by
  cases m
  rfl

theorem length_rung : (rung m request data).length = m.length := by
  cases m
  rfl

theorem request_rung : (rung m request data).request = setFld (request % 2 ^ 256) 47 40 0 :=
  setFld_setFld_result _ _ _

end

/-- The request that the mailbox puts to the server. -/
def rungReq (m : Mailbox) (tag : Nat) : OdReq :=
  { who := .mailbox, tag := tag % 256, block := m.request,
    data := (fitBytes m.data 32768).take (OdBlk.ofWord m.request).len,
    refused := if blockRsvOk m.request then none else some OdRes.malformed }

theorem rungReq_begun (m : Mailbox) (tag : Nat) :
    rungReq (begun m) tag =
      { who := .mailbox, tag := tag % 256, block := setFld m.request 47 40 0,
        data := (fitBytes m.data 32768).take (OdBlk.ofWord (setFld m.request 47 40 0)).len,
        refused := if blockRsvOk (setFld m.request 47 40 0) then none else some OdRes.malformed } := by
  cases m
  rfl

variable {s : State}

/-- Whether the mailbox is reached does not hang on what it holds. -/
theorem mailboxUp_setMailbox (s : State) (m : Mailbox) : mailboxUp { s with mailbox := m } = mailboxUp s := rfl

section
variable (up : mailboxUp s = true) (free : s.mailbox.busy = false)
include up free

theorem mailbox_takes : ¬(!mailboxUp s ∨ s.mailbox.busy) := by
  rw [up, free]
  decide

theorem mbRequestWrite_of_free (request : Nat) :
    mbRequestWrite s request = { s with mailbox := asked s.mailbox request } := if_neg (mailbox_takes up free)

theorem mbDataWrite_of_free (data : List Byte) : mbDataWrite s 0 data = { s with mailbox := filled s.mailbox data } := by
  rw [mbDataWrite, if_neg (mailbox_takes up free)]
  simp only [Nat.zero_add, List.take_zero, List.nil_append, filled]

theorem mbStart_of_free (tag : Nat) :
    mbStart s tag = { s with mailbox := begun s.mailbox, odQueue := s.odQueue ++ [rungReq (begun s.mailbox) tag] } := by
  rw [mbStart, if_neg (mailbox_takes up free), rungReq_begun]
  rfl

/-- A doorbell with the mailbox free takes the request with what was written to MB_REQUEST and MB_DATA. -/
theorem mbDoorbell_of_free (tag request : Nat) (data : List Byte) :
    mbDoorbell s tag request data =
      { s with mailbox := rung s.mailbox request data, odQueue := s.odQueue ++ [rungReq (rung s.mailbox request data) tag] } := by
  have up₁ := (mailboxUp_setMailbox s (asked s.mailbox request)).trans up
  have free₁ := (busy_asked s.mailbox request).trans free
  have up₂ := (mailboxUp_setMailbox s (filled (asked s.mailbox request) data)).trans up
  have free₂ := (busy_filled (asked s.mailbox request) data).trans free₁
  rw [mbDoorbell, mbRequestWrite_of_free up free, mbDataWrite_of_free up₁ free₁]
  exact mbStart_of_free up₂ free₂ tag

end

theorem mbDoorbell_of_busy (busy : s.mailbox.busy = true) (tag request : Nat) (data : List Byte) :
    mbDoorbell s tag request data = s := by
  have stops : !mailboxUp s ∨ s.mailbox.busy := .inr busy
  rw [mbDoorbell, mbRequestWrite, if_pos stops, mbDataWrite, if_pos stops, mbStart, if_pos stops]

/-- The data of a doorbell that writes all of MB_DATA. -/
theorem data_rung_of_full (m : Mailbox) (request : Nat) {data : List Byte} (full : data.length = 32768) :
    (rung m request data).data = data := List.take_left' full

theorem refused_rungReq (m : Mailbox) (tag : Nat) : (rungReq m tag).refused = none ↔ blockRsvOk m.request = true := by
  unfold rungReq
  dsimp only
  split
  · next ok => exact ⟨fun _ => ok, fun _ => rfl⟩
  · next bad => exact ⟨nofun, fun ok => absurd ok bad⟩

theorem data_rungReq_of_full (m : Mailbox) (request tag : Nat) {data : List Byte} (full : data.length = 32768) :
    (rungReq (rung m request data) tag).data = data.take (OdBlk.ofWord (rung m request data).request).len := by
  unfold rungReq
  dsimp only
  rw [data_rung_of_full m request full, fitBytes_of_length full]

/-! ### Answers -/

/-- What the completion of a command, with a store before it, may change. -/
theorem State.eq_of_hide_completion {s t : State} (h : t.hide 0x4010380270 = s.hide 0x4010380270) :
    t = { s with mem := t.mem, poison := t.poison, od := t.od, cells := t.cells, ctxs := t.ctxs, rings := t.rings, cmds := t.cmds,
                 snaps := t.snaps, cache := t.cache } := by
  cases s
  cases t
  cases h
  rfl

/-- R492: an answer on the ring stores the bytes, if there are any, and completes the command. -/
theorem answerRing_of_held {id : Nat} {c : Cmd} (found : s.cmd? id = some c) (res total : Nat) (data : List Byte) :
    answerRing s id res total data =
      complete (if data = [] then s else s.storeP (fld c.entry 105 64) data false) id (odStatus res)
        { Details.zero with d0 := res, d1 := data.length, d2 := total } := by
  rw [answerRing, found]

theorem eq_answerRing {id : Nat} {c : Cmd} (found : s.cmd? id = some c) (res total : Nat) (data : List Byte) :
    let t := answerRing s id res total data
    t = { s with mem := t.mem, poison := t.poison, od := t.od, cells := t.cells, ctxs := t.ctxs, rings := t.rings, cmds := t.cmds,
                 snaps := t.snaps, cache := t.cache } := by
  refine State.eq_of_hide_completion ?_
  rw [answerRing_of_held found]
  refine complete_fr rfl _ _ _ _ ?_
  split
  · rfl
  · exact State.storeP_fr rfl s _ _ _ rfl

theorem cmd?_answerRing {id : Nat} {c : Cmd} (found : s.cmd? id = some c) (res total : Nat) (data : List Byte) :
    (answerRing s id res total data).cmd? id = none := by
  rw [answerRing_of_held found, cmd?_complete]

/-- R498: an answer to a session goes out as a datagram, which the session keeps. -/
theorem answerSession_of_open {id : Nat} {x : Session} (found : s.sessions.find? (fun x => x.id == id) = some x)
    (seq block : Nat) (data : List Byte) :
    let t := answerSession s id seq block data
    ∃ f, t = { s with sessions := t.sessions, outbox := s.outbox ++ [.datagram f] } ∧
      t.sessions.find? (fun x => x.id == id) = some { x with last := f } := by
  unfold answerSession
  rw [found]
  dsimp only
  generalize taggedFrame x.kdm _ _ = f
  refine ⟨f, rfl, ?_⟩
  have kept := find?_updFirst (f := fun y : Session => y.id == id) (g := fun y => { y with last := f }) (fun _ fits => fits) s.sessions
  rw [found] at kept
  exact kept

/-- Settles O50: the doorbell, free and busy, and the three carriers of an answer. -/
theorem requestsArriveAndAnswersGoOut : Obligations.RequestsArriveAndAnswersGoOut := by
  refine ⟨fun s tag request data up free => ?_, fun s tag request data busy => ?_, fun q b a who => ?_,
    fun q b a who c found => ?_, fun q b a id x who found => ?_⟩
  · refine ⟨_, rungReq (rung s.mailbox request data) tag,
      congrArg Host.Outcome.next (mbDoorbell_of_free up free tag request data), rfl, rfl, rfl, rfl, request_rung _ _ _, rfl, tag_rung _ _ _,
      result_rung _ _ _, length_rung _ _ _, refused_rungReq _ _, fun full => ⟨data_rung_of_full _ _ full, data_rungReq_of_full _ _ _ full⟩⟩
  · exact congrArg Host.Outcome.next (mbDoorbell_of_busy busy tag request data)
  · simp only [odAnswer, who]
    exact ⟨rfl, rfl, rfl, rfl, rfl, List.take_left⟩
  · simp only [odAnswer, who]
    exact ⟨eq_answerRing found _ _ _, cmd?_answerRing found _ _ _⟩
  · simp only [odAnswer, who]
    exact answerSession_of_open found _ _ _

end Sys2Proof.Machine
end

section
/-! Sessions of the field network (R496 to R501): their numbers, their frames, and how they end. -/
namespace Sys2Proof.Machine

/-! ### Bytes of frames -/

theorem length_leBytes (n v : Nat) : (leBytes n v).length = n := by
  induction n generalizing v with
  | zero => rfl
  | succ n ih => exact congrArg Nat.succ (ih _)

theorem length_fitBytes (bs : List Byte) (n : Nat) : (fitBytes bs n).length = n := by
  rw [fitBytes, List.length_take, List.length_append, List.length_replicate]
  omega

theorem length_frameHeader (seq sid len result kind : Nat) : (frameHeader seq sid len result kind).length = 32 :=
  length_leBytes _ _

theorem take_taggedFrame (key : List Byte) (seq sid len result kind : Nat) (payload : List Byte) :
    (taggedFrame key (frameHeader seq sid len result kind) payload).take 32 = frameHeader seq sid len result kind := by
  rw [taggedFrame, List.append_assoc]
  exact List.take_left' (length_frameHeader _ _ _ _ _)

/-! ### The number of a new session (R498) -/

/-- The numbers tried for a new session. -/
def sessionTries (a : Nat) : List Nat := (List.range 6).map fun k => (a + k) % 2 ^ 32

theorem nodup_sessionTries (a : Nat) : (sessionTries a).Nodup := by
  refine List.Nodup.map_on (fun i hi j hj e => ?_) List.nodup_range
  rw [List.mem_range] at hi hj
  omega

/-- Of six numbers four are taken at most, so one serves. -/
theorem sessionTries_serves (a : Nat) {ids : List Nat} (few : ids.length < 4) : ∃ x ∈ sessionTries a, x ≠ 0 ∧ x ∉ ids := by
  by_contra none
  have taken : sessionTries a ⊆ 0 :: ids := by
    intro x hx
    by_contra free
    rw [List.mem_cons, not_or] at free
    exact none ⟨x, hx, free⟩
  have long : (sessionTries a).length = 6 := by rw [sessionTries, List.length_map, List.length_range]
  have short := ((nodup_sessionTries a).subperm taken).length_le
  rw [long, List.length_cons] at short
  omega

/-- May a new session have this number? -/
def sessionFree (s : State) (x : Nat) : Bool := decide (x ≠ 0) && !s.sessions.any fun y => y.id == x

theorem sessionFree_iff (s : State) (x : Nat) : sessionFree s x = true ↔ x ≠ 0 ∧ ∀ y ∈ s.sessions, y.id ≠ x := by
  simp [sessionFree]

theorem freshSession_fresh {s : State} (few : s.sessions.length < 4) : ∀ y ∈ s.sessions, y.id ≠ freshSession s := by
  obtain ⟨x, tried, nonzero, free⟩ := sessionTries_serves (Config.sessionId s.free) (ids := s.sessions.map (·.id))
    ((List.length_map _).trans_lt few)
  have serves : sessionFree s x = true :=
    (sessionFree_iff s x).mpr ⟨nonzero, fun y hy e => free (List.mem_map.mpr ⟨y, hy, e⟩)⟩
  obtain ⟨n, found⟩ := Option.isSome_iff_exists.mp (List.find?_isSome.mpr ⟨x, tried, serves⟩)
  have chosen : freshSession s = n := congrArg (Option.getD · 1) found
  rw [chosen]
  exact ((sessionFree_iff s n).mp (List.find?_some found)).2

/-! ### The end of a session (R487, R501) -/

theorem transfers_stagingLost (s : State) : (stagingLost s).transfers = s.transfers := by
  unfold stagingLost
  exact (apply_ite State.transfers _ _ _).trans (ite_self _)

theorem transfers_transferEnds (s : State) (t : Transfer) : (transferEnds s t).transfers = s.transfers.erase t := by
  unfold transferEnds
  refine (apply_ite State.transfers _ _ _).trans ?_
  rw [transfers_stagingLost]
  exact ite_self _

theorem transfers_foldl_transferEnds (ts : List Transfer) (s : State) :
    (ts.foldl transferEnds s).transfers = s.transfers.diff ts := by
  induction ts generalizing s with
  | nil => rfl
  | cons t ts ih => rw [List.foldl_cons, ih, transfers_transferEnds, List.diff_cons]

/-- What is left of a list without the elements that fit does not fit. -/
theorem mem_diff_filter {α : Type} [DecidableEq α] {l : List α} {p : α → Bool} {a : α} (h : a ∈ l.diff (l.filter p)) :
    a ∈ l ∧ p a = false := by
  refine ⟨List.diff_subset _ _ h, ?_⟩
  by_contra fits
  have more := List.count_pos_iff.mpr h
  rw [List.count_diff, List.count_filter (eq_true_of_ne_false fits)] at more
  omega

theorem mem_transfers_endSession {s : State} {id : Nat} {r : Transfer} (h : r ∈ (endSession s id).transfers) :
    r ∈ s.transfers ∧ r.who ≠ .session id := by
  have left : r ∈ s.transfers.diff (s.transfers.filter fun t => t.who == .session id) := by
    rw [← transfers_foldl_transferEnds]
    exact h
  obtain ⟨held, other⟩ := mem_diff_filter left
  exact ⟨held, by simpa using other⟩

theorem odQueue_foldl_transferEnds (ts : List Transfer) (s : State) : (ts.foldl transferEnds s).odQueue = s.odQueue :=
  (congrArg State.odQueue (foldl_fr (M := 0x6400000000000) rfl fun s t k => transferEnds_fr rfl s t k) :)

theorem mem_odQueue_endSession {s : State} {id : Nat} {r : OdReq} (h : r ∈ (endSession s id).odQueue) :
    r ∈ s.odQueue ∧ r.who ≠ .session id := by
  obtain ⟨held, other⟩ := List.mem_filter.mp h
  rw [odQueue_foldl_transferEnds] at held
  exact ⟨held, by simpa using other⟩

theorem nonceOf_endSession (s : State) (id : Nat) : nonceOf (endSession s id) (.session id) = 0 := by
  have gone : (endSession s id).secure.nonces.find? (fun n => n.1 == .session id) = none := by
    refine List.find?_eq_none.mpr fun n hn => ?_
    obtain ⟨-, other⟩ := List.mem_filter.mp hn
    simpa using other
  rw [nonceOf, gone]
  rfl

theorem sessions_endSession (s : State) (id : Nat) : (endSession s id).sessions = s.sessions.filter (fun x => x.id != id) := by
  have kept (ts : List Transfer) : (ts.foldl transferEnds s).sessions = s.sessions :=
    (congrArg State.sessions (foldl_fr (M := 0x6400000000000) rfl fun s t k => transferEnds_fr rfl s t k) :)
  exact congrArg (List.filter _) (kept _)

theorem State.eq_of_hide_session {s t : State} (h : t.hide 0x7600000000000 = s.hide 0x7600000000000) :
    t = { s with odQueue := t.odQueue, transfers := t.transfers, sessions := t.sessions, flash := t.flash, secure := t.secure } := by
  cases s
  cases t
  cases h
  rfl

/-- The end of a session changes its sessions, accesses and transfers, and what hangs on them. -/
theorem eq_endSession (s : State) (id : Nat) :
    let t := endSession s id
    t = { s with odQueue := t.odQueue, transfers := t.transfers, sessions := s.sessions.filter (fun x => x.id != id),
                 flash := t.flash, secure := t.secure } := by
  intro t
  have frame : t = { s with odQueue := t.odQueue, transfers := t.transfers, sessions := t.sessions, flash := t.flash,
                            secure := t.secure } := State.eq_of_hide_session (endSession_fr rfl s id rfl)
  rw [sessions_endSession] at frame
  exact frame

/-! ### Frames that come in (R499 to R501) -/

section
variable {s : State} {bs : List Byte} {f : Frame}

theorem jaolpenOpen_of_scope (up : fieldUp s = true) (read : Frame.read bs 0x01 0 = some f) (sid : f.sid = 0) {full : Bool}
    (scope : openScope s f = some full) (few : s.sessions.length < 4) :
    jaolpenOpen s bs = acceptOpen (s.odAdd 0x8082 1 1) bs f full := by
  have kept : (Frame.read bs 0x01 0).filter (fun f => f.sid == 0) = some f := by
    rw [read]
    exact Option.filter_some_pos (beq_iff_eq.mpr sid)
  rw [jaolpenOpen, up, if_neg (by decide), kept]
  dsimp only
  rw [scope]
  exact if_neg (Nat.not_le.mpr few)

/-- An ACCEPT adds the session and answers with its number, 4,429 bytes after the header. -/
theorem acceptOpen_adds (s : State) (bs : List Byte) (f : Frame) (full : Bool) :
    ∃ x g, acceptOpen s bs f full =
        { s with free := s.free + 1, sessions := s.sessions ++ [x], outbox := s.outbox ++ [.datagram g] } ∧
      x.full = full ∧ x.lastSeq = 0 ∧ x.last = [] ∧ x.id = freshSession s ∧
      g.take 32 = frameHeader f.seq x.id 4429 0 0x02 ∧ g.length = 4461 := by
  refine ⟨_, _, rfl, rfl, rfl, rfl, rfl, ?_, ?_⟩
  · rw [List.append_assoc]
    exact List.take_left' (length_frameHeader _ _ _ _ _)
  · rw [identitySignature, List.length_append, List.length_append, List.length_append, length_frameHeader, length_leBytes,
      length_fitBytes, length_fitBytes]

/-- The session of a tagged frame is the first with the frame's number. -/
theorem frameSession_found {x : Session} (h : frameSession s f = some x) :
    s.sessions.find? (fun y => y.id == x.id) = some x := by
  have found : s.sessions.find? (fun y => y.id == f.sid) = some x := (Option.filter_eq_some_iff.mp h).1
  have id : x.id = f.sid := by simpa using List.find?_some found
  rwa [id]

section
variable {x : Session} (h : FrameComes s bs 0x10 f x)
include h

/-- What a tagged REQUEST of a session comes to, by its number. -/
theorem jaolpenRequest_of_comes :
    jaolpenRequest s bs =
      if f.seq < x.lastSeq then s.odAdd 0x8082 3 1
      else if x.lastSeq < f.seq then queueRequest (s.odAdd 0x8082 1 1) x f
      else if x.last = [] then s.odAdd 0x8082 1 1
      else (s.odAdd 0x8082 1 1).send (.datagram x.last) := by
  obtain ⟨up, read, session⟩ := h
  rw [jaolpenRequest, up, if_neg (by decide), read]
  dsimp only
  rw [session]

end

theorem jaolpenRequest_of_unknown (up : fieldUp s = true) (read : Frame.read bs 0x10 32 = some f)
    (unknown : frameSession s f = none) : jaolpenRequest s bs = s.odAdd 0x8082 2 1 := by
  rw [jaolpenRequest, up, if_neg (by decide), read]
  dsimp only
  rw [unknown]

theorem jaolpenClose_of_comes {x : Session} (h : FrameComes s bs 0x03 f x) (newer : x.lastSeq < f.seq) :
    jaolpenClose s bs = (endSession (s.odAdd 0x8082 1 1) x.id).send
      (.datagram (taggedFrame x.kdm (frameHeader f.seq x.id 0 0 0x04) [])) := by
  obtain ⟨up, read, session⟩ := h
  rw [jaolpenClose, up, if_neg (by decide), read]
  dsimp only
  rw [session]
  exact if_neg (Nat.not_le.mpr newer)

/-- A new REQUEST joins the queue, and its session remembers the number and has no response to it yet. -/
theorem queueRequest_joins {x : Session} (found : s.sessions.find? (fun y => y.id == x.id) = some x) :
    ∃ q, queueRequest s x f = { s with odQueue := s.odQueue ++ [q], sessions := (queueRequest s x f).sessions } ∧
      q.who = .session x.id ∧ q.tag = f.seq ∧ q.block = setFld (leNat (f.payload.take 32)) 47 40 0 ∧
      q.data = f.payload.drop 32 ∧
      (q.refused = none ↔ 32 ≤ f.payload.length ∧ blockRsvOk (leNat (f.payload.take 32)) = true) ∧
      (queueRequest s x f).sessions.find? (fun y => y.id == x.id) = some { x with lastSeq := f.seq, last := [] } := by
  refine ⟨_, rfl, rfl, rfl, rfl, rfl, ?_, ?_⟩
  · generalize blockRsvOk _ = ok
    cases ok <;> simp
  · have kept := find?_updFirst (f := fun y : Session => y.id == x.id)
      (g := fun y => { y with lastSeq := f.seq, last := [] }) (fun _ fits => fits) s.sessions
    rw [found] at kept
    exact kept

end

/-- Settles O51: an OPEN, the REQUESTs of a session by their numbers, one without a session, the two ways a session
ends, and what the rest of the network gets. -/
theorem sessionsOpenServeAndClose : Obligations.SessionsOpenServeAndClose := by
  refine ⟨fun s bs f full up read sid scope few => ?_, fun s bs f x h => ⟨fun newer => ?_, fun same last => ?_, fun older => ?_⟩,
    fun s bs f up read unknown => ?_, fun s bs f x h newer => ?_, fun s id open_ => ?_, fun s data up => ⟨?_, ?_⟩,
    fun s on => ⟨?_, ?_⟩⟩
  · obtain ⟨x, g, eq, isFull, seq, last, id, header, length⟩ := acceptOpen_adds (s.odAdd 0x8082 1 1) bs f full
    have fresh := freshSession_fresh (s := s.odAdd 0x8082 1 1) few
    rw [← id] at fresh
    refine ⟨_, x, g, congrArg Host.Outcome.next ((jaolpenOpen_of_scope up read sid scope few).trans eq), rfl, isFull, seq, last,
      fresh, State.odGet_odAdd_same _ _ _ _, header, length⟩
  · obtain ⟨q, eq, rest⟩ := queueRequest_joins (s := s.odAdd 0x8082 1 1) (f := f) (frameSession_found h.2.2)
    obtain ⟨who, tag, block, data, refused, kept⟩ := rest
    have new : jaolpenRequest s bs = queueRequest (s.odAdd 0x8082 1 1) x f := by
      rw [jaolpenRequest_of_comes h, if_neg (Nat.lt_asymm newer), if_pos newer]
    refine ⟨_, q, congrArg Host.Outcome.next new, ?_, who, tag, block, data, refused, kept, State.odGet_odAdd_same s _ _ _⟩
    rw [eq]
    rfl
  · refine congrArg Host.Outcome.next ?_
    rw [jaolpenRequest_of_comes h, if_neg (by omega), if_neg (by omega), if_neg last]
  · refine congrArg Host.Outcome.next ?_
    rw [jaolpenRequest_of_comes h, if_pos older]
  · exact congrArg Host.Outcome.next (jaolpenRequest_of_unknown up read unknown)
  · refine ⟨_, taggedFrame x.kdm (frameHeader f.seq x.id 0 0 0x04) [],
      congrArg Host.Outcome.next (jaolpenClose_of_comes h newer), ?_,
      fun r hr => mem_odQueue_endSession (s := s.odAdd 0x8082 1 1) hr,
      fun r hr => mem_transfers_endSession (s := s.odAdd 0x8082 1 1) hr, nonceOf_endSession (s.odAdd 0x8082 1 1) _, take_taggedFrame _ _ _ _ _ _ _⟩
    rw [eq_endSession (s.odAdd 0x8082 1 1) x.id]
    rfl
  · refine ⟨_, congrArg Host.Outcome.next (if_pos open_), eq_endSession s id, fun r hr => mem_odQueue_endSession hr,
      fun r hr => mem_transfers_endSession hr⟩
  · exact congrArg Host.Outcome.next (if_pos up)
  · exact congrArg Host.Outcome.next (if_pos up)
  · exact ⟨_, congrArg Host.Outcome.next (if_pos on), rfl, State.odGet_odSet_same _ _ _ _⟩
  · exact ⟨_, congrArg Host.Outcome.next (if_pos on), rfl, State.odGet_odSet_same _ _ _ _⟩

end Sys2Proof.Machine
end

section
/-! Segmented transfers (R467, R472, R474 to R477, R487, R488). -/
namespace Sys2Proof.Machine

/-! ### Slots of the flash -/

theorem slot_setSlot_same (f : Flash) (b : Bool) (bs : List Byte) : (f.setSlot b bs).slot b = bs := by
  cases b <;> rfl

theorem slot_setSlot_other (f : Flash) (b : Bool) (bs : List Byte) : (f.setSlot (!b) bs).slot b = f.slot b := by
  cases b <;> rfl

/-! ### Transfers -/

section
variable {s : State} {w : Who} {b : OdBlk}

theorem is_of_mem_drop {t : Transfer} (h : t ∈ (dropTransfer s w b).transfers) : t.is w b = false := by
  obtain ⟨-, other⟩ := List.mem_filter.mp h
  simpa using other

theorem mem_drop_of_other {t : Transfer} (h : t ∈ s.transfers) (other : t.is w b = false) :
    t ∈ (dropTransfer s w b).transfers := List.mem_filter.mpr ⟨h, by simp [other]⟩

/-- A segment that is read: the bytes that come next; the transfer moves on, or ends with its last byte. -/
theorem serveSegment_reads (t : Transfer) :
    ∃ u, serveSegment s t w b =
        { st := u, res := OdRes.ok, data := (t.data.drop t.moved).take b.len, total := t.data.length, reset := false } ∧
      u = { s with transfers := u.transfers } ∧
      (∀ x ∈ u.transfers, x.is w b = true →
        x.data = t.data ∧ x.moved = t.moved + ((t.data.drop t.moved).take b.len).length ∧ x.moved < t.data.length) ∧
      ∀ x ∈ s.transfers, x.is w b = false → x ∈ u.transfers := by
  refine ⟨_, rfl, ?_, ?_, ?_⟩ <;> dsimp only
  · split <;> rfl
  · intro x hx is
    split at hx
    · rw [is_of_mem_drop hx] at is
      cases is
    · next more =>
      rcases List.mem_append.mp hx with old | new
      · rw [is_of_mem_drop old] at is
        cases is
      · rw [List.mem_singleton.mp new]
        exact ⟨rfl, rfl, Nat.not_le.mp more⟩
  · intro x hx other
    split
    · exact mem_drop_of_other hx other
    · exact List.mem_append_left _ (mem_drop_of_other hx other)

end

/-! ### SEG_READ -/

/-- The transfer that the first segment of a requester on an entry starts. -/
def startedTransfer (w : Who) (b : OdBlk) (write : Bool) (data : List Byte) : Transfer :=
  { who := w, write := write, index := b.index, sub := b.sub, total := b.total, moved := 0, data := data }

theorem is_startedTransfer (w : Who) (b : OdBlk) (write : Bool) (data : List Byte) :
    (startedTransfer w b write data).is w b = true := by
  simp [Transfer.is, startedTransfer]

section
variable {s : State} {w : Who} {b : OdBlk} {e : OdEntry}

theorem odSegRead_first (readable : e.right ≠ .wo) (domain : e.ty = .domain) (first : b.off = 0) :
    odSegRead s w b e = serveSegment s (startedTransfer w b false (domainValue s w b.index)) w b := by
  rw [odSegRead, if_neg readable, if_neg (not_not.mpr domain), if_pos first]
  rfl

theorem odSegRead_next (readable : e.right ≠ .wo) (domain : e.ty = .domain) (later : b.off ≠ 0) {t : Transfer}
    (found : s.transfers.find? (fun t => t.is w b) = some t) (moved : t.moved = b.off) (total : t.total = b.total) :
    odSegRead s w b e = serveSegment s t w b := by
  rw [odSegRead, if_neg readable, if_neg (not_not.mpr domain), if_neg later, found]
  exact if_pos ⟨moved, .inl total.symm⟩

/-! ### SEG_WRITE -/

variable {t : Transfer} {data : List Byte}

theorem odSegWrite_next (ro : e.right ≠ .ro) (const : e.right ≠ .const) (domain : e.ty = .domain) (len : data.length = b.len)
    (found : s.transfers.find? (fun t => t.is w b) = some t) (moved : t.moved = b.off) (total : t.total = b.total) :
    odSegWrite s w b e data = takeSegment s t w b data := by
  rw [odSegWrite, if_neg (not_or.mpr ⟨ro, const⟩), if_neg (not_or.mpr ⟨not_not.mpr domain, not_not.mpr len⟩), found]
  exact if_pos ⟨moved, total⟩

theorem odSegWrite_first (ro : e.right ≠ .ro) (const : e.right ≠ .const) (domain : e.ty = .domain) (len : data.length = b.len)
    (first : b.off = 0) (alone : ∀ t ∈ s.transfers, t.index ≠ b.index) (short : b.total ≤ bundleMax) :
    odSegWrite s w b e data = takeSegment s (startedTransfer w b true []) w b data := by
  have none : s.transfers.find? (fun t => t.is w b) = none :=
    List.find?_eq_none.mpr fun t ht => by simp [Transfer.is, alone t ht]
  have unused : (s.transfers.any fun t => t.index == b.index && t.sub == b.sub) = false :=
    List.any_eq_false.mpr fun t ht => by simp [alone t ht]
  rw [odSegWrite, if_neg (not_or.mpr ⟨ro, const⟩), if_neg (not_or.mpr ⟨not_not.mpr domain, not_not.mpr len⟩), none]
  dsimp only
  rw [if_neg (not_not.mpr first), unused, if_neg Bool.false_ne_true, if_neg fun c => Nat.not_lt.mpr short c.2]
  rfl

theorem odSegAbort_found (domain : e.ty = .domain) (found : s.transfers.find? (fun t => t.is w b) = some t) :
    odSegAbort s w b e = .result (transferEnds s t) OdRes.ok := by
  rw [odSegAbort, if_neg (not_not.mpr domain), found]

/-- A segment of a transfer that is not its last, of anything but the first of a bundle. -/
theorem takeSegment_part (fits : t.moved + data.length < t.total) (begun : 0 < t.moved) :
    takeSegment s t w b data =
      .result (putTransfer s { t with moved := t.moved + data.length, data := t.data ++ data } w b) OdRes.ok := by
  rw [takeSegment, if_neg (Nat.not_lt.mpr fits.le)]
  dsimp only
  rw [if_neg fits.ne, if_neg fun c => begun.ne' c.2]

/-- The first segment of a bundle erases the inactive slot. -/
theorem takeSegment_bundle (fits : t.moved + data.length < t.total) (bundle : b.index = 0x9002) (first : t.moved = 0) :
    takeSegment s t w b data =
      .result (putTransfer (stageBegin s) { t with moved := t.moved + data.length, data := t.data ++ data } w b) OdRes.ok := by
  rw [takeSegment, if_neg (Nat.not_lt.mpr fits.le)]
  dsimp only
  rw [if_neg fits.ne, if_pos ⟨bundle, first⟩]

/-- The last segment of a transfer that has begun, or of anything but a bundle. -/
theorem takeSegment_last (whole : t.moved + data.length = t.total) (h : b.index ≠ 0x9002 ∨ 0 < t.moved) :
    takeSegment s t w b data = domainWritten (dropTransfer s w b) b (t.data ++ data) := by
  rw [takeSegment, if_neg (Nat.not_lt.mpr whole.le)]
  dsimp only
  rw [if_pos whole, if_neg fun c => h.elim (· c.1) fun pos => pos.ne' c.2]

end

/-- The last segment of a bundle: the inactive slot holds it, and the slot is verified. -/
theorem stageEnd_ends (s : State) (bs : List Byte) :
    let u := stageEnd s bs
    u = { s with flash := u.flash, secure := { s.secure with stage := u.secure.stage } } ∧
      u.flash.slot (!s.secure.active) = bs ∧ u.flash.slot s.secure.active = s.flash.slot s.secure.active ∧
      u.secure.stage = if slotOk u.flash (!s.secure.active) then 2 else 3 := by
  dsimp only [stageEnd]
  refine ⟨?_, slot_setSlot_same _ _ _, slot_setSlot_other _ _ _, rfl⟩
  generalize slotOk _ _ = ok
  rfl

/-- Both outcomes of a token change the challenge; one that is right unlocks its scopes, any other counts. -/
theorem useToken_uses (s : State) (bs : List Byte) :
    let r := useToken s bs
    r.1 = (if tokenOk s bs then OdRes.ok else OdRes.state) ∧ r.2.secure.challenge = s.free ∧ r.2.free = s.free + 1 ∧
      r.2.secure.scope = (if tokenOk s bs then s.secure.scope ||| fld (leNat (bs.take 128)) 703 672 else s.secure.scope) ∧
      r.2.secure.refusals = (if tokenOk s bs then s.secure.refusals else s.secure.refusals + 1) := by
  unfold useToken
  cases tokenOk s bs with
  | true =>
    dsimp only
    rw [if_pos rfl, if_pos rfl, if_pos rfl, if_pos rfl]
    rw [logEvent_eq]
    exact ⟨rfl, rfl, rfl, rfl, rfl⟩
  | false => exact ⟨rfl, rfl, rfl, rfl, rfl⟩

theorem tokenOk_congr {s t : State} (job : t.job = s.job) (secure : t.secure = s.secure) (bs : List Byte) :
    tokenOk t bs = tokenOk s bs := by
  unfold tokenOk debugChallenge
  rw [job, secure]

/-- A staging that is lost leaves the inactive slot empty. -/
theorem stagingLost_of_staging {s : State} (h : s.secure.stage = 1) :
    (stagingLost s).secure.stage = 0 ∧ (stagingLost s).flash.slot (!s.secure.active) = [] := by
  rw [stagingLost, if_pos h]
  dsimp only
  cases s.secure.active <;> exact ⟨rfl, rfl⟩

theorem transferEnds_eq (s : State) (t : Transfer) :
    transferEnds s t = { s with transfers := s.transfers.erase t, flash := (transferEnds s t).flash, secure := (transferEnds s t).secure } := by
  unfold transferEnds stagingLost
  dsimp only
  split
  · split <;> rfl
  · rfl

/-! ### The segments of a request -/

section
variable {s : State} {k : OdKind} {q : OdReq} {rest : List OdReq} {e : OdEntry}

theorem odRun_segRead {w : State} {b : OdBlk} (op : b.op = 0x32) (data : List Byte) (fs : List Fail) :
    odRun w q b e data fs = odSegRead w q.who b e := by
  simp only [odRun, op]

theorem odRun_segWrite {w : State} {b : OdBlk} (op : b.op = 0x33) (data : List Byte) (fs : List Fail) :
    odRun w q b e data fs = odSegWrite w q.who b e data := by
  simp only [odRun, op]

theorem odRun_segAbort {w : State} {b : OdBlk} (op : b.op = 0x34) (data : List Byte) (fs : List Fail) :
    odRun w q b e data fs = odSegAbort w q.who b e := by
  simp only [odRun, op]

/-- A write that nothing stops carries as many bytes as its request says (R489). -/
theorem length_odData_of_writes (h : OdTakes s k q rest e) (op : (OdBlk.ofWord q.block).op = 0x33) :
    (odData s q (OdBlk.ofWord q.block)).1.length = (OdBlk.ofWord q.block).len := by
  obtain ⟨_, _, _, stops, _⟩ := h
  by_contra other
  have writes : (OdBlk.ofWord q.block).writes = true := by simp [OdBlk.writes, op]
  unfold odStops at stops
  split at stops
  · cases stops
  · split at stops
    · cases stops
    · rw [if_pos ⟨writes, other⟩] at stops
      cases stops

/-- What a DOMAIN entry reads does not hang on the requests that wait. -/
theorem domainValue_served (s : State) (rest : List OdReq) (w : Who) (index : Nat) :
    domainValue (served s rest) w index = domainValue s w index := rfl

/-- A SEG_READ that starts or goes on with a transfer. -/
theorem segRead_serves (h : OdTakes s k q rest e) (op : (OdBlk.ofWord q.block).op = 0x32) (readable : e.right ≠ .wo)
    (domain : e.ty = .domain) {d : List Byte} {moved : Nat}
    (place : (OdBlk.ofWord q.block).off = 0 ∧ moved = 0 ∧ d = domainValue s q.who (OdBlk.ofWord q.block).index ∨
      (OdBlk.ofWord q.block).off ≠ 0 ∧ ∃ t, s.transfers.find? (fun t => t.is q.who (OdBlk.ofWord q.block)) = some t ∧
        t.moved = (OdBlk.ofWord q.block).off ∧ t.total = (OdBlk.ofWord q.block).total ∧ d = t.data ∧ moved = t.moved) :
    ∃ t : Transfer, t.is q.who (OdBlk.ofWord q.block) = true ∧ t.data = d ∧ t.moved = moved ∧
      odServe s k [] = odAnswer q (OdBlk.ofWord q.block) (serveSegment (served s rest) t q.who (OdBlk.ofWord q.block)) := by
  rcases place with ⟨first, rfl, rfl⟩ | ⟨later, t, found, at_, total, rfl, rfl⟩
  · refine ⟨startedTransfer q.who (OdBlk.ofWord q.block) false (domainValue (served s rest) q.who (OdBlk.ofWord q.block).index),
      is_startedTransfer _ _ _ _, domainValue_served s rest _ _, rfl, odServe_of_run h [] ?_ rfl⟩
    rw [odRun_segRead op, odSegRead_first readable domain first]
  · refine ⟨t, by simpa using List.find?_some found, rfl, rfl, odServe_of_run h [] ?_ rfl⟩
    rw [odRun_segRead op, odSegRead_next (s := served s rest) readable domain later found at_ total]

/-- A SEG_WRITE of a segment that fits its transfer. -/
theorem odRun_segment (h : OdTakes s k q rest e) (op : (OdBlk.ofWord q.block).op = 0x33) (ro : e.right ≠ .ro)
    (const : e.right ≠ .const) (domain : e.ty = .domain) {t : Transfer} (fits : SegmentFits s q t) :
    odRun (served s rest) q (OdBlk.ofWord q.block) e (odData s q (OdBlk.ofWord q.block)).1 [] =
      takeSegment (served s rest) t q.who (OdBlk.ofWord q.block) (odData s q (OdBlk.ofWord q.block)).1 := by
  obtain ⟨found, moved, total, _⟩ := fits
  rw [odRun_segWrite op, odSegWrite_next (s := served s rest) ro const domain (length_odData_of_writes h op) found moved total]

end

/-- The row of a SEG_WRITE serves the request. -/
theorem exec_segWriteRow {k : OdKind} {i : Instr} (h : (k, i) ∈ segWriteRows) (s : State) :
    exec i s = .next (odServe s k []) := by
  simp only [segWriteRows, List.mem_cons, Prod.mk.injEq, List.not_mem_nil, or_false] at h
  rcases h with ⟨rfl, rfl⟩ | ⟨rfl, rfl⟩ | ⟨rfl, rfl⟩ <;> rfl

theorem exec_segReadRow {k : OdKind} {i : Instr} (h : (k, i) ∈ [(OdKind.segRead, Instr.odSegRead), (.report, .attestReport)])
    (s : State) : exec i s = .next (odServe s k []) := by
  simp only [List.mem_cons, Prod.mk.injEq, List.not_mem_nil, or_false] at h
  rcases h with ⟨rfl, rfl⟩ | ⟨rfl, rfl⟩ <;> rfl

/-- Settles O48: what a SEG_READ serves, the segments of a write and its last one, the first of a bundle, and the ends of
a transfer. -/
theorem segmentsMoveDomainValues : Obligations.SegmentsMoveDomainValues := by
  refine ⟨fun k i row s q rest e h op readable domain d moved place => ?_,
    fun k i row s q rest e t h op ro const domain fits => ⟨fun part begun => ?_, fun whole begun bundle => ?_, fun whole token => ?_⟩,
    fun s q rest e h op bundle ro const domain first alone short more => ?_, fun s q rest e t h domain op found => ?_,
    fun s n t found => ?_⟩
  · obtain ⟨t, own, rfl, rfl, serves⟩ := segRead_serves h op readable domain place
    obtain ⟨u, answer, eq, served, kept⟩ := serveSegment_reads (s := served s rest) t
    exact ⟨u, (exec_segReadRow row s).trans (congrArg Host.Outcome.next (serves.trans (congrArg (odAnswer q _) answer))), eq,
      served, kept⟩
  · refine (exec_segWriteRow row s).trans (congrArg Host.Outcome.next (odServe_of_run h [] ?_ rfl))
    rw [odRun_segment h op ro const domain fits, takeSegment_part part begun]
    rfl
  · obtain ⟨eq, inactive, active, stage⟩ := stageEnd_ends (dropTransfer (served s rest) q.who (OdBlk.ofWord q.block))
      (t.data ++ (odData s q (OdBlk.ofWord q.block)).1)
    refine ⟨_, (exec_segWriteRow row s).trans (congrArg Host.Outcome.next (odServe_of_run h [] ?_ rfl)),
      eq.trans ?_, inactive, active, stage⟩
    case refine_2 => rw [eq]; rfl
    rw [odRun_segment h op ro const domain fits, takeSegment_last whole (.inr begun), domainWritten, if_pos bundle]
    rfl
  · have other : (OdBlk.ofWord q.block).index ≠ 0x9002 := by
      rw [token]
      decide
    obtain ⟨res, challenge, free, scope, refusals⟩ := useToken_uses (dropTransfer (served s rest) q.who (OdBlk.ofWord q.block))
      (t.data ++ (odData s q (OdBlk.ofWord q.block)).1)
    have ok : tokenOk (dropTransfer (served s rest) q.who (OdBlk.ofWord q.block)) (t.data ++ (odData s q (OdBlk.ofWord q.block)).1) =
        tokenOk s (t.data ++ (odData s q (OdBlk.ofWord q.block)).1) := tokenOk_congr rfl rfl _
    rw [ok] at res scope refusals
    refine ⟨_, (exec_segWriteRow row s).trans (congrArg Host.Outcome.next (odServe_of_run h [] ?_ rfl)), challenge, free, scope, refusals⟩
    rw [odRun_segment h op ro const domain fits, takeSegment_last whole (.inl other), domainWritten, if_neg other]
    exact congrArg (OdAns.result _) res
  · have alone' : ∀ t ∈ (served s rest).transfers, t.index ≠ (OdBlk.ofWord q.block).index := by
      rw [bundle]
      exact alone
    have others : s.transfers.filter (fun x => !x.is q.who (OdBlk.ofWord q.block)) = s.transfers :=
      List.filter_eq_self.mpr fun x hx => by simp [Transfer.is, alone' x hx]
    refine ⟨putTransfer (stageBegin (served s rest)) { startedTransfer q.who (OdBlk.ofWord q.block) true [] with
          moved := 0 + (odData s q (OdBlk.ofWord q.block)).1.length, data := [] ++ (odData s q (OdBlk.ofWord q.block)).1 }
        q.who (OdBlk.ofWord q.block),
      congrArg Host.Outcome.next (odServe_of_run h [] ?_ rfl), slot_setSlot_same _ _ _, rfl, ?_⟩
    · rw [odRun_segWrite op, odSegWrite_first ro const domain (length_odData_of_writes h op) first alone' short]
      exact takeSegment_bundle ((Nat.zero_add _).trans_lt more) bundle rfl
    · rw [← bundle]
      refine (congrArg (· ++ [_]) others).trans ?_
      simp only [startedTransfer, Nat.zero_add, List.nil_append]
  · refine ⟨transferEnds (served s rest) t, congrArg Host.Outcome.next (odServe_of_run h [] ?_ rfl), transfers_transferEnds _ _,
      ?_, fun other => ?_, fun bundle staging => ?_⟩
    · rw [odRun_segAbort op, odSegAbort_found (s := served s rest) domain found]
      rfl
    · rw [transferEnds_eq]
      rfl
    · rw [transferEnds, if_neg other]
      exact ⟨rfl, rfl⟩
    · rw [transferEnds, if_pos bundle]
      exact stagingLost_of_staging staging
  · have eq : exec (.segTransferTimeout n) s = .next (transferEnds s t) := by
      refine congrArg Host.Outcome.next ?_
      rw [segTimeout, found]
    refine ⟨_, eq, transfers_transferEnds s t, ?_, fun bundle staging => ?_⟩
    · rw [transferEnds_eq]
    · rw [transferEnds, if_pos bundle]
      exact (stagingLost_of_staging (s := { s with transfers := s.transfers.erase t }) staging).1

end Sys2Proof.Machine
end

section
/-! Entries with rules of their own (R468, R470, R473, R477, R526, R533 to R535, R541, R546). -/
namespace Sys2Proof.Machine

/-! ### The flash and the security state through a frame that leaves them -/

theorem flash_of_hide {s t : State} (h : t.hide allButFlash = s.hide allButFlash) : t.flash = s.flash :=
  (congrArg State.flash h :)

theorem secure_of_hide {s t : State} (h : t.hide 0x7bffffffffffff = s.hide 0x7bffffffffffff) : t.secure = s.secure :=
  (congrArg State.secure h :)

/-! ### The unlock and the tests (R477, R533, R534) -/

theorem state_startScrub (s : State) : (startScrub s).job.state = .scrubbing := by
  unfold startScrub
  split
  · next already => exact already
  · rfl

theorem startScrub_onlyCounts (s : State) : OnlyCounts s (startScrub s) := by
  unfold startScrub
  split
  · exact .refl s
  · refine OnlyCounts.trans ?_ (.of_od rfl)
    split
    · exact complete_onlyCounts s _ _ _
    · exact .refl s

theorem secure_startScrub (s : State) : (startScrub s).secure = s.secure :=
  secure_of_hide (startScrub_fr rfl s rfl)

/-- The end of an unlock: no scope is left, test mode ends, and a scrub follows one beyond BOUNDARY. -/
theorem endUnlock_ends (s : State) :
    let t := endUnlock s
    t.secure.scope = 0 ∧ t.odGet 0x7040 0 = 0 ∧ (2 ≤ s.secure.scope → t.job.state = .scrubbing) ∧
      (s.secure.scope < 2 → t = { s with od := t.od, secure := t.secure }) := by
  unfold endUnlock
  dsimp only
  split
  · next beyond =>
    refine ⟨congrArg Secure.scope (secure_startScrub _), ?_, fun _ => state_startScrub _, fun small => absurd beyond (Nat.not_le.mpr small)⟩
    rw [startScrub_onlyCounts _ 0x7040 0 (by decide) (by decide), State.odGet_odSet_same]
  · next small => exact ⟨rfl, State.odGet_odSet_same _ _ _ _, fun beyond => absurd beyond small, fun _ => rfl⟩

theorem startTest_starts (s : State) (level : Nat) :
    (startTest s level).testLevel = some level ∧ (startTest s level).job.state = .scrubbing ∧ (startTest s level).odGet 0x7022 0 = 1 :=
  ⟨rfl, state_startScrub s, State.odGet_odSet_same _ _ _ _⟩

/-! ### Nonces (R473) -/

theorem nonceOf_setNonce_same (s : State) (w : Who) (v : Nat) : nonceOf (setNonce s w v) w = v := by
  simp [nonceOf, setNonce]

theorem nonceOf_setNonce_other (s : State) {w w' : Who} (v : Nat) (h : w' ≠ w) :
    nonceOf (setNonce s w v) w' = nonceOf s w' := by
  have kept (l : List (Who × Nat)) : (l.filter fun n => n.1 != w).find? (fun n => n.1 == w') = l.find? fun n => n.1 == w' := by
    rw [List.find?_filter]
    refine congrArg (fun p => l.find? p) (funext fun n => ?_)
    by_cases own : n.1 = w'
    · simp [own, h]
    · simp [own]
  simp only [nonceOf, setNonce]
  rw [List.find?_cons_of_neg (by simpa using Ne.symm h), kept]

/-! ### Calibration on request (R535) -/

/-- A port whose requested slot starts: of its data and its Harness wavelength. -/
def Port.requested (q : Port) : Port :=
  match q.state with
  | .up => { q with state := .calibrating false false, both := true }
  | .upNoHarness => { q with state := .calibrating false true, both := true }
  | .calibrating _ _ => { q with both := true }
  | _ => q

theorem Port.requested_requested (q : Port) : q.requested.requested = q.requested := by
  unfold Port.requested
  cases h : q.state <;> simp [h]

theorem Port.state_requested (q : Port) : q.requested.state =
    (match q.state with | .up => .calibrating false false | .upNoHarness => .calibrating false true | x => x) := by
  unfold Port.requested
  cases h : q.state <;> simp [h]

theorem Port.both_requested {q : Port} (h : q.state = .up ∨ q.state = .upNoHarness) : q.requested.both = true := by
  unfold Port.requested
  rcases h with h | h <;> rw [h]

/-- One port of a requested calibration. -/
def requestSlot (s : State) (p : Nat) : State :=
  (calibratePort s p false).updPort p fun q =>
    match q.state with
    | .calibrating _ _ => { q with both := true }
    | _ => q

theorem port_requestSlot (s : State) (p q : Nat) :
    (requestSlot s p).port q = if q = p then (s.port q).requested else s.port q := by
  unfold requestSlot calibratePort
  split
  · next own =>
    rw [own, State.port_updPort_same, State.port_updPort_same]
    unfold Port.requested
    cases h : (s.port p).state <;> simp [h]
  · next other => rw [State.port_updPort_other _ _ _ _ other, State.port_updPort_other _ _ _ _ other]

theorem port_foldl_requestSlot (ps : List Nat) (s : State) (q : Nat) :
    (ps.foldl requestSlot s).port q = if q ∈ ps then (s.port q).requested else s.port q := by
  induction ps generalizing s with
  | nil => simp
  | cons p ps ih =>
    rw [List.foldl_cons, ih, port_requestSlot]
    by_cases own : q = p
    · simp [own, Port.requested_requested]
    · simp [own]

theorem port_calibrateAll {p : Nat} (h : p < 48) (s : State) : (calibrateAll s).port p = (s.port p).requested :=
  (port_foldl_requestSlot (List.range 48) s p).trans (if_pos (List.mem_range.mpr h))

theorem calibrateAll_eq (s : State) : calibrateAll s = { s with ports := (calibrateAll s).ports } :=
  State.eq_of_hide_ports (calibrateAll_fr rfl s rfl)

theorem calRequest_eq (s : State) (v : Nat) :
    calRequest s v = { s with ports := (calRequest s v).ports, pllCal := (calRequest s v).pllCal } := by
  unfold calRequest
  split
  · rw [calibrateAll_eq]
  · rfl

/-! ### What a unit's test lists (R526, R543, R546) -/

theorem State.eq_of_hide_od_flash {s t : State} (h : t.hide 0x2000000000040 = s.hide 0x2000000000040) :
    t = { s with od := t.od, flash := t.flash } := by
  cases s
  cases t
  cases h
  rfl

/-- The failures that a unit's test lists for the next map rebuild. -/
def listAll (s : State) (fs : List Fail) : State := fs.foldl (fun s f => listRepair s f (testOf f) true) s

theorem listAll_eq (s : State) (fs : List Fail) : listAll s fs = { s with od := (listAll s fs).od, flash := (listAll s fs).flash } :=
  State.eq_of_hide_od_flash (foldl_fr rfl fun s f h => listRepair_fr rfl s f _ _ h)

theorem flash_logEvent (s : State) (e : EventCode) (kind source d0 d1 : Nat) :
    (logEvent s e kind source d0 d1).flash = s.flash := flash_of_hide (logEvent_fr rfl s e kind source d0 d1 rfl)

theorem pendingRepairs_listRepair (s : State) (f : Fail) (test : Nat) (confirmed : Bool) :
    (listRepair s f test confirmed).flash.pendingRepairs.length = s.flash.pendingRepairs.length + 1 := by
  have kept (word : Nat) : (keepRecord s f word).flash.pendingRepairs = s.flash.pendingRepairs := by
    unfold keepRecord
    dsimp only
    rw [flash_logEvent]
    rfl
  unfold listRepair
  dsimp only
  rw [kept, List.length_append, List.length_singleton]

theorem pendingRepairs_listAll (fs : List Fail) (s : State) :
    (listAll s fs).flash.pendingRepairs.length = s.flash.pendingRepairs.length + fs.length := by
  induction fs generalizing s with
  | nil => rfl
  | cons f fs ih =>
    have step : listAll s (f :: fs) = listAll (listRepair s f (testOf f) true) fs := rfl
    rw [step, ih, pendingRepairs_listRepair, List.length_cons]
    omega

theorem flash_portFail (s : State) (p cause : Nat) : (portFail s p cause).flash = s.flash :=
  flash_of_hide (portFail_fr rfl s p cause rfl)

/-- The failures of a report that are of the unit that BIST_UNIT names. -/
def failsOfUnit (v : Nat) (fs : List Fail) : List Fail :=
  fs.filter fun f => f.real && f.kind == fld v 31 24 && f.unit == fld v 15 0

theorem bistUnit_of_kind {s : State} {v : Nat} (mode : s.odGet 0x7040 0 = 1) (low : 1 ≤ fld v 31 24) (high : fld v 31 24 ≤ 0x0D)
    (fs : List Fail) :
    bistUnit s v fs =
      let mine := failsOfUnit v fs
      (OdRes.ok, if fld v 31 24 = 0x0C ∧ mine ≠ [] ∧ fld v 15 0 < 48
        then portFail (listAll s mine) (fld v 15 0) ((mine.head?.map (·.bank)).getD 0) else listAll s mine) := by
  rw [bistUnit, if_neg (not_not.mpr mode), if_neg (by omega)]
  rfl

/-! ### FW_ACTIVATE (R468) -/

section
variable {s : State} {q : OdReq}

theorem flash_odAnswer (b : OdBlk) (a : OdAns) : (odAnswer q b a).flash = a.st.flash :=
  flash_of_hide (odAnswer_fr rfl q b a rfl)

theorem secure_odAnswer (b : OdBlk) (a : OdAns) : (odAnswer q b a).secure = a.st.secure :=
  secure_of_hide (odAnswer_fr rfl q b a rfl)

variable {rest : List OdReq} {e : OdEntry}

/-- A write of FW_ACTIVATE with a verified bundle: the selector is written, and the module resets once the answer is out. -/
theorem odServe_activate (h : OdWrites s .activate q rest e 0x9004 0 1) (verified : s.secure.stage = 2) :
    odServe s .activate [] = moduleReset (odAnswer q (OdBlk.ofWord q.block)
      { OdAns.result (activate ((served s rest).odSet 0x9004 0 1)) OdRes.ok with reset := true }) := by
  obtain ⟨takes, op, index, sub, legal, value⟩ := h
  have apply : odApply (served s rest) q.who 0x9004 0 1 [] = (OdRes.ok, activate ((served s rest).odSet 0x9004 0 1)) :=
    if_pos verified
  have run : odRun (served s rest) q (OdBlk.ofWord q.block) e (odData s q (OdBlk.ofWord q.block)).1 [] =
      { OdAns.result (activate ((served s rest).odSet 0x9004 0 1)) OdRes.ok with reset := true } := by
    rw [odRun_write op, odWrite_of_legal (w := served s rest) legal, index, sub, value]
    dsimp only
    rw [apply]
    rfl
  rw [odServe_of_takes takes, run]
  rfl

/-- What is left of the flash by a reset that loses no staging. -/
theorem flash_moduleReset {s : State} (h : s.secure.stage ≠ 1) : (moduleReset s).flash = s.flash :=
  have kept : (stagingLost s).flash = s.flash := congrArg State.flash (stagingLost_of_ne h)
  kept

end

/-! ### SVN_COMMIT (R470) -/

/-- The fuses are burnt to the version of the active bundle; an older staged one is rejected. -/
theorem svnCommit_burns (s : State) :
    let t := svnCommit s
    t = { s with flash := t.flash, secure := t.secure } ∧ t.flash.fusedSvn = min 128 (activeSvn s) ∧
      (s.flash.slot (!s.secure.active) ≠ [] → Config.bundleSvn (s.flash.slot (!s.secure.active)) < t.flash.fusedSvn →
        t.secure.stage = 3) := by
  unfold svnCommit
  dsimp only
  generalize min 128 (activeSvn s) = n
  generalize s.flash.slot (!s.secure.active) = other
  split
  · exact ⟨rfl, rfl, fun _ _ => rfl⟩
  · next newer => exact ⟨rfl, rfl, fun some older => absurd ⟨some, older⟩ newer⟩

/-! ### STACK_PPR, and the rows of these entries -/

theorem stackPpr_of_free {s : State} {v : Nat} (mode : s.odGet 0x7040 0 = 1) (free : s.flash.ppr.contains (pprKey v) = false)
    (stack : fld v 47 43 < 12) : stackPpr s v = (OdRes.ok, usePpr s (pprKey v) (fld v 31 0)) := by
  rw [stackPpr, if_neg (by simp [mode]; simpa using free), if_neg (Nat.not_le.mpr stack)]

/-- Settles O49: each entry's own row, as its rule says. -/
theorem ruledEntriesAct : Obligations.RuledEntriesAct := by
  refine ⟨fun s q rest e h verified => ?_, fun s q rest e h may => ?_, fun s q rest e v h => ?_, fun s q rest e h => ?_,
    fun s unlocked => ?_, fun s q rest e v => ⟨fun h => ?_, fun h => ?_, fun h => ?_, fun h legal => ?_, fun h on refused => ?_,
      fun h mode free stack => ?_, fun fails h mode low high => ?_⟩⟩
  · refine ⟨_, congrArg Host.Outcome.next (odServe_activate h verified), ?_, rfl, rfl, rfl, rfl, rfl⟩
    rw [flash_moduleReset, flash_odAnswer]
    · rfl
    · rw [secure_odAnswer]
      intro staging
      exact absurd (verified.symm.trans staging) (by decide)
  · obtain ⟨eq, version, stage⟩ := svnCommit_burns ((served s rest).odSet 0x9006 0 1)
    have svn : activeSvn ((served s rest).odSet 0x9006 0 1) = activeSvn s := rfl
    have more : s.secure.boot = 2 ∧ s.secure.trial = false ∧ s.flash.fusedSvn < min 128 (activeSvn s) := of_decide_eq_true may
    refine ⟨_, congrArg Host.Outcome.next (odServe_write_ok h (by decide) [] (if_pos may)), ?_, version, version ▸ svn ▸ more.2.2, stage⟩
    rw [eq]
    rfl
  · exact ⟨_, congrArg Host.Outcome.next (odServe_write_ok h (by decide) [] rfl), rfl, nonceOf_setNonce_same _ _ _,
      fun w other => nonceOf_setNonce_other _ _ other⟩
  · obtain ⟨scope, mode, scrub, eq⟩ := endUnlock_ends (served s rest)
    refine ⟨_, congrArg Host.Outcome.next (odServe_write_ok h (by decide) [] rfl), scope, mode, scrub, eq⟩
  · exact ⟨_, congrArg Host.Outcome.next (if_neg unlocked), endUnlock_ends s⟩
  · exact ⟨_, congrArg Host.Outcome.next (odServe_write_ok h (by decide) [] rfl), startTest_starts _ _⟩
  · exact ⟨_, congrArg Host.Outcome.next (odServe_write_ok h (by decide) [] rfl), startTest_starts _ _⟩
  · refine ⟨_, congrArg Host.Outcome.next (odServe_write_ok h (by decide) [] rfl), ?_, fun on => ?_, fun off => ?_⟩
    · have eq := calRequest_eq ((served s rest).odSet 0x7030 0 v) v
      generalize calRequest ((served s rest).odSet 0x7030 0 v) v = t at eq
      rw [eq]
      rfl
    · rw [calRequest, if_pos on]
      refine ⟨?_, fun p hp => ?_⟩
      · rw [calibrateAll_eq]
        rfl
      · rw [port_calibrateAll hp]
        exact ⟨Port.state_requested _, fun up => Port.both_requested up⟩
    · rw [calRequest, if_neg off]
      exact ⟨rfl, rfl⟩
  · refine congrArg Host.Outcome.next (odServe_write_ok h (by decide) [] (if_neg ?_))
    rintro ⟨on, busy | closed⟩
    · exact busy (legal on).1
    · rw [show bit (served s rest).secure.scope 4 = true from (legal on).2] at closed
      cases closed
  · refine congrArg Host.Outcome.next ((odServe_write h (by decide) []).trans ?_)
    have stops : odApply (served s rest) q.who 0x7040 0 v [] = (OdRes.state, served s rest) :=
      if_pos ⟨on, refused.imp_right fun closed => by rw [show bit (served s rest).secure.scope 4 = false from closed]; rfl⟩
    rw [stops]
  · refine ⟨_, congrArg Host.Outcome.next (odServe_write_ok h (by decide) [] (stackPpr_of_free (s := served s rest) mode free stack)),
      rfl, fun k => mem_insSorted⟩
  · have unit := bistUnit_of_kind (s := served s rest) mode low high (fails.map Fail.ofList)
    refine ⟨_, congrArg Host.Outcome.next (odServe_write_ok h (by decide) _ unit), ?_, fun none => ?_, fun optical some port => ?_⟩
    · refine Eq.trans ?_ (pendingRepairs_listAll (failsOfUnit v (fails.map Fail.ofList)) (served s rest))
      refine congrArg (fun f : Flash => f.pendingRepairs.length) ?_
      refine (apply_ite State.flash _ _ _).trans ?_
      rw [flash_portFail]
      exact ite_self _
    · rw [if_neg fun c => none.elim (· c.1) c.2.1, listAll_eq]
      rfl
    · rw [if_pos ⟨optical, some, port⟩]
      exact state_portFail_same _ _ _

end Sys2Proof.Machine
end

section
/-! RUN, GRID and the refusal of a deferred command (R60, R148, R424, R444). -/
namespace Sys2Proof.Machine

section
variable {s : State} {ctx : Nat} {x : Ctx}

/-- An update of a context that exists: the context itself, and the others. -/
theorem ctx?_updCtx_same (h : s.ctx? ctx = some x) (f : Ctx → Ctx) : (s.updCtx ctx f).ctx? ctx = some (f x) := by
  rw [State.updCtx_eq_setCtx h, State.ctx?_setCtx_same]

theorem ctx?_updCtx_other (s : State) {ctx c : Nat} (f : Ctx → Ctx) (h : c ≠ ctx) : (s.updCtx ctx f).ctx? c = s.ctx? c := by
  unfold State.updCtx
  split
  · exact State.ctx?_setCtx_other s ctx c _ h
  · rfl

theorem updCtx_eq (s : State) (ctx : Nat) (f : Ctx → Ctx) : s.updCtx ctx f = { s with ctxs := (s.updCtx ctx f).ctxs } := by
  unfold State.updCtx
  split <;> rfl

end

theorem cmd?_updCtx (s : State) (ctx : Nat) (f : Ctx → Ctx) (id : Nat) : (s.updCtx ctx f).cmd? id = s.cmd? id :=
  State.cmd?_congr (by rw [updCtx_eq]) id

theorem obj_updCtx (s : State) (ctx : Nat) (f : Ctx → Ctx) (j : Nat) : (s.updCtx ctx f).obj j = s.obj j :=
  State.obj_congr (by rw [updCtx_eq]) j

theorem cmd?_updCmd_found {s : State} {id : Nat} {c : Cmd} {f : Cmd → Cmd} (keepsId : ∀ c, (f c).id = c.id)
    (found : s.cmd? id = some c) : (s.updCmd id f).cmd? id = some (f c) := by
  rw [State.cmd?_updCmd_same s id keepsId, found]
  rfl

/-- A command that begins its work is active. -/
theorem stage_activated {s : State} {id : Nat} {c : Cmd} (found : s.cmd? id = some c) :
    ((s.updCmd id fun c => { c with stage := .active }).cmd? id).map (·.stage) = some .active := by
  rw [cmd?_updCmd_found (f := fun c => { c with stage := .active }) (fun _ => rfl) found]
  rfl

/-! ### RUN -/

/-- R148, R444: does a descriptor end at once in a RUN: of another context, or with a tile counter? -/
def runBad (ctx d : Nat) : Bool := pdCtx d != ctx || pdTileEn d

theorem filter_runBad {ctx : Nat} {ds : List Nat} (h : ∀ d ∈ ds, pdCtx d = ctx ∧ pdTileEn d = false) :
    ds.filter (runBad ctx) = [] := by
  refine List.filter_eq_nil_iff.mpr fun d hd => ?_
  simp [runBad, h d hd]

/-- Where none ends at once, each piece joins the queue. -/
theorem filterMap_runBad {ctx : Nat} {ds : List Nat} (h : ∀ d ∈ ds, pdCtx d = ctx ∧ pdTileEn d = false) (f : Nat × Nat → QEntry) :
    (ds.zipIdx).filterMap (fun d => if runBad ctx d.1 then none else some (f d)) = (ds.zipIdx).map f := by
  rw [← List.filterMap_eq_map]
  refine List.filterMap_congr fun d hd => if_neg ?_
  simp [runBad, h d.1 (List.fst_mem_of_mem_zipIdx hd)]

/-- A RUN, whose pieces all may wait in the queue of its context. -/
theorem runCommand_queues {s : State} {id : Nat} {c : Cmd} {ds : List Nat} (taken : Taken s id 0x10 c)
    (some_ : fld c.entry 143 128 ≠ 0) (table : slmEntries s (fld c.entry 105 64) (fld c.entry 143 128) 64 64 = some ds)
    (fit : ∀ d ∈ ds, pdCtx d = c.ctx ∧ pdTileEn d = false) :
    runCommand s id = (s.updCmd id fun c' => { c' with stage := .active, left := fld c.entry 143 128 }).updCtx c.ctx fun x =>
      { x with queue := x.queue ++ (ds.zipIdx).map fun d => QEntry.piece id d.2 d.1 none false } := by
  obtain ⟨found, opcode, stage⟩ := taken
  rw [runCommand, found]
  dsimp only
  rw [if_neg (by simp [opcode, stage]), if_neg some_, table]
  dsimp only
  have queued := filterMap_runBad fit fun d => QEntry.piece id d.2 d.1 none false
  have none := filter_runBad fit
  unfold runBad at queued none
  rw [none, List.foldl_nil]
  exact congrArg (fun qs => State.updCtx _ c.ctx fun x => { x with queue := x.queue ++ qs }) queued

/-! ### GRID -/

/-- A GRID with a tile counter of its own context that is at rest. -/
theorem gridCommand_queues {s : State} {id d : Nat} {c : Cmd} (taken : Taken s id 0x11 c)
    (table : slmTable s (fld c.entry 105 64) 64 64 = some d) (tiles : pdTileEn d = true) (own : pdCtx d = c.ctx)
    (kind : (s.obj (fld d 176 160)).kind = .tileCounter) (ctx : (s.obj (fld d 176 160)).ctx = c.ctx)
    (leases : (s.obj (fld d 176 160)).leases = []) (reissue : (s.obj (fld d 176 160)).reissue = [])
    (held : (s.obj (fld d 176 160)).held = []) :
    gridCommand s id = ((s.setObj (fld d 176 160) (gridReset (s.obj (fld d 176 160)))).updCmd id
      fun c => { c with stage := .active }).updCtx c.ctx fun x => { x with queue := x.queue ++ [.grid id d (fld d 176 160)] } := by
  obtain ⟨found, opcode, stage⟩ := taken
  rw [gridCommand, found]
  dsimp only
  rw [if_neg (by simp [opcode, stage]), table]
  dsimp only
  rw [if_neg (by simp [tiles, own]), if_neg (by simp [kind, ctx]), if_neg (by simp [kind, leases, reissue, held])]

/-- Settles O42: the pieces of a RUN, the grid of a GRID, and the refusal at the limit of deferrals. -/
theorem piecesAndGridsEnterTheQueue : Obligations.PiecesAndGridsEnterTheQueue := by
  refine ⟨fun s id c x ds taken own ctx some_ table fit => ?_,
    fun s id d c x taken ctx table tiles own kind objCtx leases reissue held => ?_, fun s id c found on class2 fresh limit late => ?_⟩
  · refine ⟨_, _, congrArg Host.Outcome.next (runCommand_queues taken some_ table fit), ?_,
      (cmd?_updCtx _ _ _ _).trans (cmd?_updCmd_found (fun _ => rfl) taken.1), rfl, rfl,
      ctx?_updCtx_same (s := s.updCmd id _) ctx _, fun k other => ctx?_updCtx_other _ _ other⟩
    rw [updCtx_eq]
    rfl
  · refine ⟨_, congrArg Host.Outcome.next (gridCommand_queues taken table tiles own kind objCtx leases reissue held), ?_,
      ctx?_updCtx_same (s := (s.setObj _ _).updCmd id _) ctx _, fun k other => ctx?_updCtx_other _ _ other, ?_, ?_, fun k other => ?_⟩
    · rw [updCtx_eq]
      rfl
    · rw [cmd?_updCtx]
      exact stage_activated (s := s.setObj _ _) taken.1
    · exact (obj_updCtx _ _ _ _).trans (State.obj_setObj_same s _ _)
    · exact (obj_updCtx _ _ _ _).trans (State.obj_setObj_other s _ _ _ other)
  · have refused : class2Refuse s id = complete s id St.refusedCapacity (refusedDetails c.entry) := by
      rw [class2Refuse, found]
      exact if_pos ⟨on, class2, by simp [fresh], limit, late⟩
    refine ⟨_, congrArg Host.Outcome.next refused, cmd?_complete s id _ _, ?_⟩
    exact State.eq_of_hide_completion (complete_fr rfl s id _ _ rfl)

end Sys2Proof.Machine
end

section
/-! What the end of a command does to contexts and commands (R449 to R451). -/
namespace Sys2Proof.Machine

/-- A context once a command has ended: no piece of it waits, and a step no longer waits for it. -/
def Ctx.endCmd (id : Nat) (x : Ctx) : Ctx :=
  { x with
    queue := x.queue.filter fun q =>
      match q with
      | .piece cmd _ _ _ _ => cmd != id
      | .grid cmd _ _ => cmd != id
      | .update cmd _ _ _ _ _ => cmd != id
    step := x.step.map fun t => { t with cmdsLeft := t.cmdsLeft.filter (· != id) } }

/-- The state once the record of a command is posted and the command is no longer held. -/
def cmdPosted (s : State) (c : Cmd) (id status : Nat) (d : Details) : State :=
  let t := countRefused (postRecord s c.ring c.serial (recordOf c.entry c.k (c.disposition status) status d)) status
  { t with cmds := t.cmds.filter fun e => e.id != id }

section
variable {s : State} {id : Nat} {c : Cmd} (status : Nat) (d : Details)

theorem complete_of_found (found : s.cmd? id = some c) :
    complete s id status d = (cmdPosted s c id status d).updCtx c.ctx (Ctx.endCmd id) := by
  rw [complete, found]
  rfl

theorem complete_of_none (gone : s.cmd? id = none) : complete s id status d = s := by
  rw [complete, gone]

variable (s id) in
theorem cmdPosted_frame (c : Cmd) : (cmdPosted s c id status d).hide 0x4010300270 = s.hide 0x4010300270 := by
  unfold cmdPosted
  dsimp only
  rw [State.hide_cmds rfl]
  exact countRefused_fr rfl _ _ (postRecord_fr rfl s _ _ _ rfl)

end

/-- The fields that neither a completion nor anything like it touches. -/
theorem ctxs_of_posted {s t : State} (h : t.hide 0x4010300270 = s.hide 0x4010300270) : t.ctxs = s.ctxs := (congrArg State.ctxs h :)

theorem cmds_of_hide {s t : State} (h : t.hide 0x4010100270 = s.hide 0x4010100270) : t.cmds = s.cmds := (congrArg State.cmds h :)

theorem sync_of_completion {s t : State} (h : t.hide 0x4010380270 = s.hide 0x4010380270) : t.sync = s.sync := (congrArg State.sync h :)

theorem job_of_completion {s t : State} (h : t.hide 0x4010380270 = s.hide 0x4010380270) : t.job = s.job := (congrArg State.job h :)

section
variable (s : State) (id status : Nat) (d : Details)

theorem complete_frame : (complete s id status d).hide 0x4010380270 = s.hide 0x4010380270 := complete_fr rfl s id status d rfl

theorem obj_complete (k : Nat) : (complete s id status d).obj k = s.obj k :=
  State.obj_congr (sync_of_completion (complete_frame s id status d)) k

/-- A completion lets go of the commands of its number, and of no other. -/
theorem cmds_complete : (complete s id status d).cmds = s.cmds.filter fun e => e.id != id := by
  cases found : s.cmd? id with
  | none =>
    rw [complete_of_none status d found]
    refine (List.filter_eq_self.mpr fun e he => ?_).symm
    have other := List.find?_eq_none.mp found e he
    simpa using other
  | some c =>
    have kept := cmds_of_hide (countRefused_fr rfl _ status (postRecord_fr rfl s c.ring c.serial
      (recordOf c.entry c.k (c.disposition status) status d) rfl))
    rw [complete_of_found status d found, updCtx_eq]
    exact congrArg (List.filter _) kept

theorem cmd?_complete_other {k : Nat} (h : k ≠ id) : (complete s id status d).cmd? k = s.cmd? k := by
  rw [State.cmd?, cmds_complete, List.find?_filter]
  refine congrArg (fun p => s.cmds.find? p) (funext fun e => ?_)
  by_cases own : e.id = k
  · simp [own, h]
  · simp [own]

end

section
variable {s : State} {id : Nat} {c : Cmd} (found : s.cmd? id = some c) (status : Nat) (d : Details)
include found

theorem ctx?_complete_same : (complete s id status d).ctx? c.ctx = (s.ctx? c.ctx).map (Ctx.endCmd id) := by
  have kept : (cmdPosted s c id status d).ctx? c.ctx = s.ctx? c.ctx :=
    State.ctx?_congr (ctxs_of_posted (cmdPosted_frame s id status d c)) _
  rw [complete_of_found status d found, ← kept]
  cases h : (cmdPosted s c id status d).ctx? c.ctx with
  | none =>
    rw [State.updCtx, h]
    exact h
  | some x => exact ctx?_updCtx_same h _

theorem ctx?_complete_other {k : Nat} (h : k ≠ c.ctx) : (complete s id status d).ctx? k = s.ctx? k := by
  rw [complete_of_found status d found, ctx?_updCtx_other _ _ h]
  exact State.ctx?_congr (ctxs_of_posted (cmdPosted_frame s id status d c)) _

end

/-- A completion leaves the record of every context. -/
theorem record_complete (s : State) (id status : Nat) (d : Details) (k : Nat) :
    ((complete s id status d).ctx? k).map Ctx.record = (s.ctx? k).map Ctx.record := by
  cases found : s.cmd? id with
  | none => rw [complete_of_none status d found]
  | some c =>
    by_cases own : k = c.ctx
    · rw [own, ctx?_complete_same found, Option.map_map]
      rfl
    · rw [ctx?_complete_other found status d own]

end Sys2Proof.Machine
end

section
/-! Contexts and patterns (R402 to R404, R409, R412, R414, R422). -/
namespace Sys2Proof.Machine

namespace Sp
variable {α : Type}

theorem find_del_same (m : Sparse α) (i : Nat) : find (del m i) i = none := by
  induction m with
  | nil => rfl
  | cons e r ih =>
    unfold del
    split
    · exact ih
    · next other => exact (if_neg other).trans ih

theorem find_del_other (m : Sparse α) {i j : Nat} (h : j ≠ i) : find (del m i) j = find m j := by
  induction m with
  | nil => rfl
  | cons e r ih =>
    unfold del
    split
    · next own => exact ih.trans (if_neg fun e => h (e.trans own.symm)).symm
    · rw [find, find, ih]

end Sp

/-! ### Objects of a context -/

theorem obj_foldl_free (l : List Nat) (s : State) (k : Nat) :
    (l.foldl (fun s o => s.setObj o SyncObj.free) s).obj k = if k ∈ l then SyncObj.free else s.obj k := by
  induction l generalizing s with
  | nil => simp
  | cons o l ih =>
    rw [List.foldl_cons, ih]
    by_cases own : k = o
    · simp [own]
    · simp [own, State.obj_setObj_other s o k SyncObj.free own]

theorem obj_foldl_setObj_other {os : List (Nat × SyncObj)} (s : State) {k : Nat} (h : k ∉ os.map (·.1)) :
    (os.foldl (fun s o => s.setObj o.1 o.2) s).obj k = s.obj k := by
  induction os generalizing s with
  | nil => rfl
  | cons o os ih =>
    rw [List.map_cons, List.mem_cons, not_or] at h
    rw [List.foldl_cons, ih _ h.2, State.obj_setObj_other s o.1 k o.2 h.1]

theorem obj_foldl_setObj_mem {os : List (Nat × SyncObj)} (s : State) (once : (os.map (·.1)).Nodup) {o : Nat × SyncObj}
    (h : o ∈ os) : (os.foldl (fun s o => s.setObj o.1 o.2) s).obj o.1 = o.2 := by
  induction os generalizing s with
  | nil => cases h
  | cons e os ih =>
    rw [List.map_cons, List.nodup_cons] at once
    rw [List.foldl_cons]
    rcases List.mem_cons.mp h with rfl | rest
    · rw [obj_foldl_setObj_other _ once.1, State.obj_setObj_same]
    · exact ih _ once.2 rest

theorem foldl_setObj_frame (os : List (Nat × SyncObj)) (s : State) :
    (os.foldl (fun s o => s.setObj o.1 o.2) s).hide 0x40000 = s.hide 0x40000 :=
  foldl_fr rfl fun s o h => State.setObj_fr rfl s o.1 o.2 h

theorem State.eq_of_hide_sync {s t : State} (h : t.hide 0x40000 = s.hide 0x40000) : t = { s with sync := t.sync } := by
  cases s
  cases t
  cases h
  rfl

theorem nodup_of_objectsOf {s : State} {ctx : Nat} {ws : List Nat} {os : List (Nat × SyncObj)} (h : objectsOf s ctx ws = some os) :
    (os.map (·.1)).Nodup := by
  unfold objectsOf at h
  split at h
  · cases h
  · dsimp only at h
    split at h
    · next ok =>
      cases h
      exact ok.1
    · cases h

/-! ### Creation (R403, R409) -/

theorem tellDigest_eq (s : State) (d : Nat) : tellDigest s d = { s with outbox := (tellDigest s d).outbox } := by
  unfold tellDigest
  split
  · rfl
  · exact State.send_eq s _

/-- The checks of a creation and of a pattern do not look at what waits to leave. -/
theorem pinRefused_tellDigest (s : State) (d : Nat) (x : Ctx) : pinRefused (tellDigest s d) x = pinRefused s x := by
  rw [tellDigest_eq]
  rfl

theorem digestOk_tellDigest (s : State) (d own given : Nat) : digestOk (tellDigest s d) own given = digestOk s own given := by
  rw [tellDigest_eq]
  rfl

/-- The context that a record and its objects make (R403, R409). -/
def createdCtx (r : Nat) (os : List (Nat × SyncObj)) (id : Nat) : Ctx :=
  { Ctx.fresh r [] with objs := os.map (·.1), createCmd := if (Ctx.fresh r []).pinned then some id else none }

/-- The state once a context is created, before its command ends or waits for the load. -/
def ctxCreated (s : State) (ctx r : Nat) (os : List (Nat × SyncObj)) (id : Nat) : State :=
  (os.foldl (fun s o => s.setObj o.1 o.2) (tellDigest s (newFarDigest os))).setCtx ctx (createdCtx r os id)

theorem ctxCreated_eq (s : State) (ctx r : Nat) (os : List (Nat × SyncObj)) (id : Nat) :
    let t := ctxCreated s ctx r os id
    t = { s with sync := t.sync, ctxs := t.ctxs, outbox := (tellDigest s (newFarDigest os)).outbox } := by
  have objs := State.eq_of_hide_sync (foldl_setObj_frame os (tellDigest s (newFarDigest os)))
  have told := tellDigest_eq s (newFarDigest os)
  unfold ctxCreated State.setCtx
  generalize os.foldl (fun s o => s.setObj o.1 o.2) (tellDigest s (newFarDigest os)) = u at objs ⊢
  generalize tellDigest s (newFarDigest os) = v at objs told ⊢
  rw [objs, told]

theorem contextCreate_of_checks {s : State} {id root r : Nat} {c : Cmd} {os : List (Nat × SyncObj)} (taken : Taken s id 0x03 c)
    (owned : s.job.state = .owned) (table : slmTable s (fld c.entry 105 64) 64 64 = some r) (number : fld r 9 0 = c.ctx)
    (new : s.ctx? c.ctx = none) (record : recordOk s (Ctx.fresh r []) = true)
    (objs : (if (Ctx.fresh r []).objCount = 0 then some [] else slmEntries s (Ctx.fresh r []).objAddr (Ctx.fresh r []).objCount 16 16).bind
      (objectsOf s c.ctx) = some os)
    (digest : digestOk s (newFarDigest os) root = true) (place : pinRefused s (Ctx.fresh r []) = false) :
    contextCreate s id root =
      if (Ctx.fresh r []).pinned then (ctxCreated s c.ctx r os id).updCmd id fun c => { c with stage := .active }
      else complete (ctxCreated s c.ctx r os id) id St.ok Details.zero := by
  obtain ⟨found, opcode, stage⟩ := taken
  rw [contextCreate, found]
  dsimp only
  rw [if_neg (by simp [opcode, stage]), if_neg (not_not.mpr owned), table]
  dsimp only
  rw [if_neg (by simp [number, new, record]), objs]
  dsimp only
  rw [digestOk_tellDigest, digest, if_neg (by decide), pinRefused_tellDigest, place, if_neg (by decide)]
  rfl

section
variable {s : State} (ctx r : Nat) {os : List (Nat × SyncObj)} (id : Nat)

theorem obj_ctxCreated_mem (once : (os.map (·.1)).Nodup) {o : Nat × SyncObj} (h : o ∈ os) :
    (ctxCreated s ctx r os id).obj o.1 = o.2 := obj_foldl_setObj_mem _ once h

theorem obj_ctxCreated_other {k : Nat} (h : k ∉ os.map (·.1)) : (ctxCreated s ctx r os id).obj k = s.obj k := by
  refine (obj_foldl_setObj_other (tellDigest s (newFarDigest os)) h).trans ?_
  rw [tellDigest_eq]
  rfl

theorem ctx?_ctxCreated_same : (ctxCreated s ctx r os id).ctx? ctx = some (createdCtx r os id) :=
  State.ctx?_setCtx_same _ _ _

theorem ctx?_ctxCreated_other {k : Nat} (h : k ≠ ctx) : (ctxCreated s ctx r os id).ctx? k = s.ctx? k := by
  refine (State.ctx?_setCtx_other _ _ _ _ h).trans (State.ctx?_congr ?_ k)
  rw [State.eq_of_hide_sync (foldl_setObj_frame os _), tellDigest_eq]

theorem cmd?_ctxCreated (k : Nat) : (ctxCreated s ctx r os id).cmd? k = s.cmd? k :=
  State.cmd?_congr (by rw [ctxCreated_eq]) k

end

/-- A context just created waits for no command. -/
theorem endCmd_createdCtx (r : Nat) (os : List (Nat × SyncObj)) (id k : Nat) :
    (createdCtx r os id).endCmd k = createdCtx r os id := rfl

/-! ### Destruction (R404) -/

/-- The state once a context is gone, before its command ends. -/
def ctxGone (s : State) (ctx : Nat) (x : Ctx) : State :=
  let t := x.objs.foldl (fun s o => s.setObj o SyncObj.free) s
  { t with ctxs := Sp.del t.ctxs ctx }

theorem ctxGone_eq (s : State) (ctx : Nat) (x : Ctx) :
    ctxGone s ctx x = { s with sync := (ctxGone s ctx x).sync, ctxs := Sp.del s.ctxs ctx } := by
  have objs : x.objs.foldl (fun s o => s.setObj o SyncObj.free) s =
      { s with sync := (x.objs.foldl (fun s o => s.setObj o SyncObj.free) s).sync } :=
    State.eq_of_hide_sync (foldl_fr rfl fun t o h => State.setObj_fr rfl t o SyncObj.free h)
  unfold ctxGone
  generalize x.objs.foldl (fun s o => s.setObj o SyncObj.free) s = t at objs ⊢
  rw [objs]

theorem contextDestroy_of_allowed {s : State} {id : Nat} {c : Cmd} {x : Ctx} (taken : Taken s id 0x04 c)
    (owned : s.job.state = .owned) (found : s.ctx? c.ctx = some x) (may : mayDestroy s c.ctx id x = true) :
    contextDestroy s id = complete (ctxGone s c.ctx x) id St.ok Details.zero := by
  obtain ⟨held, opcode, stage⟩ := taken
  rw [contextDestroy, held]
  dsimp only
  rw [if_neg (by simp [opcode, stage]), found]
  exact if_pos ⟨owned, may⟩

/-! ### Patterns (R414, R420, R422) -/

/-- A PATTERN_LOAD that passes its checks. -/
theorem patternLoad_of_checks {s : State} {id root : Nat} {c : Cmd} {p : Pattern} (taken : Taken s id 0x05 c)
    (checks : s.job.state = .owned ∧ 1 ≤ fld c.entry 140 128 ∧ fld c.entry 140 128 ≤ 4096 ∧
      s.stitch.count + 2 ≤ fld c.entry 255 192 ∧ s.job.pending.isNone)
    (admitted : admitPattern s s.job.mode (fld c.entry 105 64) (fld c.entry 140 128) (fld c.entry 255 192) = some p)
    (digest : digestOk s (patternDigest p) root = true) :
    patternLoad s id root =
      let t := (tellDigest s (patternDigest p)).updCmd id fun c => { c with stage := .active }
      { t with job := { t.job with pending := some { pat := p, cmd := id } } } := by
  obtain ⟨found, opcode, stage⟩ := taken
  rw [patternLoad, found]
  dsimp only
  rw [if_neg (by simp [opcode, stage]), if_pos checks, admitted]
  dsimp only
  rw [digestOk_tellDigest, if_pos digest]

/-- The share of a context hangs on the records of the contexts and on the job. -/
theorem hasShare_congr {s t : State} (job : t.job = s.job) (records : ∀ k, (t.ctx? k).map Ctx.record = (s.ctx? k).map Ctx.record)
    {x y : Ctx} (record : y.record = x.record) (c : Nat) : hasShare t c y = hasShare s c x := by
  have cls (k : Nat) : classOf t k = classOf s k := by
    have same := congrArg (fun o : Option Nat => (o.map fun w => fld w 17 16).getD 0) (records k)
    simp only [Option.map_map] at same
    exact same
  have fill (e : Nat × List Nat) : mayFill t e = mayFill s e := by
    simp only [mayFill, namedMask, cellsetMask, job, cls]
  have cls' : y.cls = x.cls := congrArg (fun w => fld w 17 16) record
  have set : y.cellset = x.cellset := congrArg (fun w => fld w 33 24) record
  simp only [hasShare, job, fill, cellsetMask, cls', set]

/-- R422: commands that have not started, of contexts without a share. -/
def lostShare (s : State) : List Cmd :=
  s.cmds.filter fun c =>
    !c.started && (match s.ctx? c.ctx with
      | some x => c.onContext && !hasShare s c.ctx x
      | none => false)

/-- What a command that is not among those has. -/
theorem keeps_of_not_lostShare {s : State} {k : Cmd} (held : k ∈ s.cmds) (kept : k ∉ lostShare s) {x : Ctx}
    (found : s.ctx? k.ctx = some x) : k.started = true ∨ k.onContext = false ∨ hasShare s k.ctx x = true := by
  by_contra none
  push Not at none
  obtain ⟨fresh, on, share⟩ := none
  refine kept (List.mem_filter.mpr ⟨held, ?_⟩)
  rw [found]
  simp [fresh, on, share]

/-- The refusal of commands, one after the other. -/
def refuseAll (s : State) (l : List Cmd) : State :=
  l.foldl (fun s c => complete s c.id St.refusedClass (refusedDetails c.entry)) s

theorem refuseAll_frame (s : State) (l : List Cmd) : (refuseAll s l).hide 0x4010380270 = s.hide 0x4010380270 :=
  foldl_fr rfl fun t c h => complete_fr rfl t c.id _ _ h

theorem mem_cmds_refuseAll {s : State} {l : List Cmd} {k : Cmd} :
    k ∈ (refuseAll s l).cmds ↔ k ∈ s.cmds ∧ ∀ c ∈ l, k.id ≠ c.id := by
  induction l generalizing s with
  | nil => simp [refuseAll]
  | cons c l ih =>
    have step : refuseAll s (c :: l) = refuseAll (complete s c.id St.refusedClass (refusedDetails c.entry)) l := rfl
    rw [step, ih, cmds_complete]
    simp [and_assoc]

theorem record_refuseAll (s : State) (l : List Cmd) (k : Nat) :
    ((refuseAll s l).ctx? k).map Ctx.record = (s.ctx? k).map Ctx.record := by
  induction l generalizing s with
  | nil => rfl
  | cons c l ih => exact (ih _).trans (record_complete s _ _ _ k)

/-- What the effect of a pattern may change. -/
theorem State.eq_of_hide_taken {s t : State} (h : t.hide 0x4010380370 = s.hide 0x4010380370) :
    t = { s with mem := t.mem, poison := t.poison, od := t.od, job := t.job, cells := t.cells, ctxs := t.ctxs, rings := t.rings,
                 cmds := t.cmds, snaps := t.snaps, cache := t.cache } := by
  cases s
  cases t
  cases h
  rfl

/-- A pattern that takes effect: its command completes, and then those that have lost their share are refused. -/
theorem takePattern_of_pending {s : State} {p : Pending} (h : s.job.pending = some p) :
    takePattern s =
      let u := complete { s with job := { s.job with pattern := some p.pat, pending := none } } p.cmd St.ok Details.zero
      refuseAll u (lostShare u) := by
  rw [takePattern, h]
  rfl

/-- After the refusals no command that has not started is left whose context has no share. -/
theorem shares_refuseAll (s : State) {k : Cmd} (h : k ∈ (refuseAll s (lostShare s)).cmds) :
    k.started = true ∨ k.onContext = false ∨
      ∀ x, (refuseAll s (lostShare s)).ctx? k.ctx = some x → hasShare (refuseAll s (lostShare s)) k.ctx x = true := by
  obtain ⟨held, kept⟩ := mem_cmds_refuseAll.mp h
  by_cases started : k.started = true
  · exact .inl started
  by_cases off : k.onContext = false
  · exact .inr (.inl off)
  refine .inr (.inr fun x found => ?_)
  have records := record_refuseAll s (lostShare s)
  have same := records k.ctx
  rw [found] at same
  cases found' : s.ctx? k.ctx with
  | none =>
    rw [found'] at same
    cases same
  | some y =>
    rw [found'] at same
    have share := keeps_of_not_lostShare held (fun lost => kept k lost rfl) found'
    rw [hasShare_congr (job_of_completion (refuseAll_frame s _)) records (Option.some.inj same)]
    exact (share.resolve_left started).resolve_left off

/-! ### Swaps (R409, R412) -/

/-- A context at the end of its swap, before its creation completes. -/
def Ctx.swapped (x : Ctx) : Ctx := { x with swapEnd := none, loading := false, resident := x.loading, createCmd := none }

section
variable {s : State} {ctx n : Nat} {x : Ctx} (found : s.ctx? ctx = some x) (swap : x.swapEnd = some n)
  (due : n ≤ s.stitch.count + 1)
include found swap due

theorem swapComplete_of_due :
    swapComplete s ctx =
      match x.createCmd with
      | some id => if x.loading then complete (s.setCtx ctx x.swapped) id St.ok Details.zero
          else (s.setCtx ctx x.swapped).updCtx ctx fun x => { x with createCmd := some id }
      | none => s.setCtx ctx x.swapped := by
  have ends : (s.ctx? ctx).bind (·.swapEnd) = some n := by
    rw [found]
    exact swap
  rw [swapComplete, ends]
  refine (if_pos due).trans ?_
  rw [swapDone, found]
  rfl

/-- The context at the end of its swap: in no swap any more, and resident where it was loaded. -/
theorem ctx?_swapComplete (creates : ∀ id c, x.createCmd = some id → s.cmd? id = some c → c.ctx = ctx) :
    ∃ y, (swapComplete s ctx).ctx? ctx = some y ∧ y.swapEnd = none ∧ y.loading = false ∧ y.resident = x.loading := by
  have placed : (s.setCtx ctx x.swapped).ctx? ctx = some x.swapped := State.ctx?_setCtx_same _ _ _
  rw [swapComplete_of_due found swap due]
  cases create : x.createCmd with
  | none => exact ⟨x.swapped, placed, rfl, rfl, rfl⟩
  | some id =>
    dsimp only
    split
    · cases held : (s.setCtx ctx x.swapped).cmd? id with
      | none =>
        rw [complete_of_none _ _ held]
        exact ⟨x.swapped, placed, rfl, rfl, rfl⟩
      | some c =>
        have own : c.ctx = ctx := creates id c create held
        refine ⟨x.swapped.endCmd id, ?_, rfl, rfl, rfl⟩
        have ended := ctx?_complete_same held St.ok Details.zero
        rw [own, placed] at ended
        exact ended
    · exact ⟨_, ctx?_updCtx_same placed _, rfl, rfl, rfl⟩

theorem ctx?_swapComplete_other (creates : ∀ id c, x.createCmd = some id → s.cmd? id = some c → c.ctx = ctx) {k : Nat}
    (h : k ≠ ctx) : (swapComplete s ctx).ctx? k = s.ctx? k := by
  have placed : (s.setCtx ctx x.swapped).ctx? k = s.ctx? k := State.ctx?_setCtx_other _ _ _ _ h
  rw [swapComplete_of_due found swap due]
  cases create : x.createCmd with
  | none => exact placed
  | some id =>
    dsimp only
    split
    · cases held : (s.setCtx ctx x.swapped).cmd? id with
      | none => rw [complete_of_none _ _ held, placed]
      | some c => rw [ctx?_complete_other held _ _ (creates id c create held ▸ h), placed]
    · rw [ctx?_updCtx_other _ _ h, placed]

theorem cmd?_swapComplete {id : Nat} (create : x.createCmd = some id) (loading : x.loading = true) :
    (swapComplete s ctx).cmd? id = none := by
  rw [swapComplete_of_due found swap due, create]
  dsimp only
  rw [if_pos loading, cmd?_complete]

end

theorem swapComplete_frame (s : State) (ctx : Nat) : (swapComplete s ctx).hide 0x4010380270 = s.hide 0x4010380270 :=
  swapComplete_fr rfl s ctx rfl

/-- Settles O43: a creation, a destruction, a load of a pattern, its effect, and the end of a swap. -/
theorem contextsAndPatternsComeAndGo : Obligations.ContextsAndPatternsComeAndGo := by
  refine ⟨fun s id root r c os taken owned table number new record objs digest place => ?_,
    fun s id c x taken owned found may => ?_, fun s id root c p taken owned low high start free admitted digest => ?_,
    fun s p pending due => ?_, fun s ctx n x below found swap due creates => ?_⟩
  · have created := contextCreate_of_checks taken owned table number new record objs digest place
    have once : (os.map (·.1)).Nodup := by
      obtain ⟨ws, _, made⟩ := Option.bind_eq_some_iff.mp objs
      exact nodup_of_objectsOf made
    have held : (ctxCreated s c.ctx r os id).cmd? id = some c := (cmd?_ctxCreated c.ctx r id id).trans taken.1
    by_cases pin : (Ctx.fresh r []).pinned = true
    · rw [if_pos pin] at created
      refine ⟨_, congrArg Host.Outcome.next created, ?_, ctx?_ctxCreated_same c.ctx r id, fun k => ctx?_ctxCreated_other c.ctx r id,
        fun o => obj_ctxCreated_mem c.ctx r id once, fun k => obj_ctxCreated_other c.ctx r id, fun off => absurd pin (by rw [off]; decide),
        fun _ => stage_activated held⟩
      rw [ctxCreated_eq]
      rfl
    · rw [if_neg pin] at created
      refine ⟨_, congrArg Host.Outcome.next created, ?_, ?_, fun k other => ?_, fun o ho => ?_, fun k other => ?_,
        fun _ => cmd?_complete _ _ _ _, fun on => absurd on pin⟩
      · have made := ctxCreated_eq s c.ctx r os id
        have ended := State.eq_of_hide_completion (complete_frame (ctxCreated s c.ctx r os id) id St.ok Details.zero)
        generalize complete (ctxCreated s c.ctx r os id) id St.ok Details.zero = t at ended ⊢
        generalize ctxCreated s c.ctx r os id = u at made ended
        rw [ended, made]
      · rw [ctx?_complete_same held, ctx?_ctxCreated_same]
        exact congrArg some (endCmd_createdCtx r os id id)
      · rw [ctx?_complete_other held _ _ other, ctx?_ctxCreated_other c.ctx r id other]
      · rw [obj_complete, obj_ctxCreated_mem c.ctx r id once ho]
      · rw [obj_complete, obj_ctxCreated_other c.ctx r id other]
  · have held : (ctxGone s c.ctx x).cmd? id = some c := by
      rw [State.cmd?_congr (s := s) (by rw [ctxGone_eq]), taken.1]
    have ctxs (k : Nat) : (ctxGone s c.ctx x).ctx? k = Sp.find (Sp.del s.ctxs c.ctx) k := by
      rw [ctxGone_eq]
      rfl
    refine ⟨_, congrArg Host.Outcome.next (contextDestroy_of_allowed taken owned found may), ?_, ?_, fun k other => ?_, fun o ho => ?_,
      fun k other => ?_, cmd?_complete _ _ _ _⟩
    · have gone := ctxGone_eq s c.ctx x
      have ended := State.eq_of_hide_completion (complete_frame (ctxGone s c.ctx x) id St.ok Details.zero)
      generalize complete (ctxGone s c.ctx x) id St.ok Details.zero = t at ended ⊢
      generalize ctxGone s c.ctx x = u at gone ended
      rw [ended, gone]
    · rw [ctx?_complete_same held, ctxs, Sp.find_del_same]
      rfl
    · rw [ctx?_complete_other held _ _ other, ctxs, Sp.find_del_other _ other]
      rfl
    · rw [obj_complete]
      exact (obj_foldl_free x.objs s o).trans (if_pos ho)
    · rw [obj_complete]
      exact (obj_foldl_free x.objs s k).trans (if_neg other)
  · have loaded := patternLoad_of_checks taken ⟨owned, low, high, start, by rw [free]; rfl⟩ admitted digest
    refine ⟨_, congrArg Host.Outcome.next loaded, ?_, ?_, fun k other => ?_⟩
    · rw [tellDigest_eq]
      rfl
    · have told : (tellDigest s (patternDigest p)).cmd? id = some c := by
        rw [tellDigest_eq]
        exact taken.1
      exact stage_activated told
    · refine (State.cmd?_updCmd_other (tellDigest s (patternDigest p)) (f := fun c => { c with stage := .active })
        (fun _ => rfl) other).trans ?_
      rw [tellDigest_eq]
      rfl
  · have effect : patternTakeEffect s = takePattern s := by
      rw [patternTakeEffect, pending]
      exact if_pos due
    have job : (takePattern s).job = { s.job with pattern := some p.pat, pending := none } := by
      rw [takePattern_of_pending pending]
      exact (job_of_completion (refuseAll_frame _ _)).trans (job_of_completion (complete_frame _ _ _ _))
    refine ⟨_, congrArg Host.Outcome.next effect, job, ?_, ?_, fun k hk => ?_⟩
    · rw [takePattern_of_pending pending]
      refine List.find?_eq_none.mpr fun k hk => ?_
      exact List.find?_eq_none.mp (cmd?_complete _ _ _ _) k (mem_cmds_refuseAll.mp hk).1
    · exact State.eq_of_hide_taken (takePattern_fr rfl s rfl)
    · rw [takePattern_of_pending pending] at hk ⊢
      exact shares_refuseAll _ hk
  · obtain ⟨y, placed, ended, still, resident⟩ := ctx?_swapComplete found swap due creates
    exact ⟨_, y, if_pos below, placed, ended, still, resident, fun k other => ctx?_swapComplete_other found swap due creates other,
      fun id create loading => cmd?_swapComplete found swap due create loading, State.eq_of_hide_completion (swapComplete_frame s ctx)⟩

end Sys2Proof.Machine
end

section
/-! Ring entries (R422, R440): the places of a queue that `markHeld` brings to light. -/
namespace Sys2Proof.Machine

/-- A RUN of context 1, as a ring entry. -/
def runOfContextOne : Nat := 0x10 + 1 * 2 ^ 8

/-- Ring 1 with that entry at the base of the scratch SLM, and 256 records that have no slot yet. -/
def crowdedRing : Ring :=
  { Ring.init with
    state := .running
    enable := true
    sqBase := slmBase
    sqTail := 1
    held := List.replicate 256 0 }

/-- A module whose ring list names ring 1 twice: first as a ring out of service, which is what counts, and behind it as
`crowdedRing`. -/
def namesRingTwice : State :=
  { State.reset with
    secure := { Secure.init with boot := 2 }
    job := { Job.none with state := .owned, pattern := some { start := 0, entries := [(0, [2 ^ 22])] } }
    ctxs := [(1, Ctx.fresh 0 [])]
    mem := [(slmBase, 0x10), (slmBase + 1, 0x01)]
    rings := [(1, Ring.init), (1, crowdedRing)] }

theorem namesRingTwice_serves :
    nextRing (markHeld namesRingTwice) = some 1 ∧
      entryWord (markHeld namesRingTwice) (nextEntryAddr ((markHeld namesRingTwice).ring 1)) = (runOfContextOne, false) ∧
      ringEntryOk namesRingTwice 1 runOfContextOne = true := by
  decide +kernel

theorem namesRingTwice_admits :
    placesTaken namesRingTwice 1 = 0 ∧ (namesRingTwice.ctx? 1).any (hasShare namesRingTwice 1) = true := by
  decide +kernel

/-- Marking the rings drops the first of the two, and the entry meets a full queue. -/
theorem namesRingTwice_refuses : (ringEntryTake namesRingTwice).cmds = [] := by
  decide +kernel

/-- Refutes O45: the clause of a context ring whose queue has places free, at a ring list that names ring 1 twice. The held
records of the ring are those of the first, none; `markHeld` drops that one, since a ring of reset values is not listed, so the
256 records of the second count when the entry is admitted, and it is refused. The statement takes every state, and asks
nothing of the form of its lists. -/
theorem not_ringsTakeEntriesAndDoorbells : ¬ Obligations.RingsTakeEntriesAndDoorbells := by
  rintro ⟨takes, -⟩
  obtain ⟨serves, entry, legal⟩ := namesRingTwice_serves
  obtain ⟨places, share⟩ := namesRingTwice_admits
  obtain ⟨t, run, -, -, -, -, -, -, admitted, -⟩ := takes namesRingTwice 1 rfl rfl (by decide) serves rfl
  rw [entry] at admitted
  have free : placesTaken namesRingTwice 1 < 256 := by omega
  obtain ⟨held, -⟩ := admitted (by decide) rfl legal free ⟨Ctx.fresh 0 [], rfl, share⟩
  have refused : t.cmds = [] := (congrArg State.cmds (Host.Outcome.next.inj run)).symm.trans namesRingTwice_refuses
  rw [refused] at held
  exact absurd held (by simp)

end Sys2Proof.Machine
end

section
/-! Host traffic and samples (R310, R384, R429, R434): an access of stack memory that misses in the cache evicts a line. -/
namespace Sys2Proof.Machine

/-- With the cache of `cachesSectorEight` and no staging, an operation that makes the byte of `sectorEightAddr` read 1 has not
left the bytes outside its runs as they were. -/
theorem not_sameBytes_of_evicts {s t : State} {rs : List Run} (cache : s.cache = cachesSectorEight.cache) (snaps : s.snaps = [])
    (uncovered : ¬ covered rs sectorEightAddr) (zero : s.byte sectorEightAddr = 0)
    (evicts : t.byte sectorEightAddr = 1 ∧ t.poisonAt sectorEightAddr = false) : ¬ SameBytes s t rs := by
  obtain ⟨one, clean⟩ := evicts
  refine not_sameBytes_of_byte_ne uncovered (by simp [snaps]) ?_ clean ?_
  · rw [cache]
    exact cachesSectorEight_lines
  · rw [one, zero]
    decide

/-! ### BAR2 -/

/-- The module of `cachesSectorEight`, booted, whose BAR2 is live. -/
def readThroughBar2 : State := { cachesSectorEight with secure := { Secure.init with boot := 2 } }

/-- A read of the byte at address 0 through BAR2 is not held. -/
theorem readThroughBar2_live :
    bar0Live readThroughBar2 = true ∧ loadHeld readThroughBar2 (bar2Runs readThroughBar2 (readThroughBar2.bar2Base + 0) 1) = false := by
  decide +kernel

theorem bar2Read_evicts :
    (bar2Read readThroughBar2 0 1).byte sectorEightAddr = 1 ∧ (bar2Read readThroughBar2 0 1).poisonAt sectorEightAddr = false := by
  decide +kernel

/-- Refutes O46: its clause of a read, that it changes no memory, at a state whose cache holds a channel's word listed for a
ninth sector of a line (as for O28). The load of the read misses and evicts that line. The statement takes every state, and
asks nothing of the cache's form. -/
theorem not_bar2ReadsAndWritesMemory : ¬ Obligations.Bar2ReadsAndWritesMemory := by
  rintro ⟨-, reads, -⟩
  obtain ⟨live, free⟩ := readThroughBar2_live
  obtain ⟨t, bs, ep, run, -, same, -⟩ := reads _ _ _ live free
  obtain rfl : bar2Read readThroughBar2 0 1 = t := Host.Outcome.next.inj run
  exact not_sameBytes_of_evicts rfl rfl (by simp) rfl bar2Read_evicts same

/-! ### Completions of host reads -/

/-- A read of two bytes of host memory, for addresses 0 and 1. -/
def readOfTwoBytes : HostRead := { id := 0, cmd := 0, addr := 0, bytes := 2, left := 2 }

/-- The module of `cachesSectorEight`, which waits for that read. -/
def awaitsTwoBytes : State := { cachesSectorEight with hostReads := [readOfTwoBytes] }

theorem awaitsTwoBytes_free : storeHeld awaitsTwoBytes [(0, 1)] = false := by
  decide +kernel

/-- The completion of its first byte stores at address 0. -/
theorem readCompletion_evicts :
    (readCompletion awaitsTwoBytes 0 0 [7] false).byte sectorEightAddr = 1 ∧
      (readCompletion awaitsTwoBytes 0 0 [7] false).poisonAt sectorEightAddr = false := by
  decide +kernel

/-- Refutes O44: its clause of a completion that leaves bytes to come, that no other byte changes, at a state whose cache holds
a channel's word listed for a ninth sector of a line (as for O28). The store of the completion misses and evicts that line. -/
theorem not_hostCopiesMoveData : ¬ Obligations.HostCopiesMoveData := by
  rintro ⟨-, completions⟩
  obtain ⟨t, run, -, more⟩ := completions awaitsTwoBytes 0 0 [7] false readOfTwoBytes rfl rfl awaitsTwoBytes_free
  obtain ⟨-, -, same, -⟩ := more (by decide)
  obtain rfl : readCompletion awaitsTwoBytes 0 0 [7] false = t := Host.Outcome.next.inj run
  exact not_sameBytes_of_evicts rfl rfl (by simp [sectorEightAddr, readOfTwoBytes]) rfl readCompletion_evicts same

/-! ### Samples -/

/-- A stream whose table begins at address 0, with a batch of one slot that needs its sample. -/
def needsSample : Stream :=
  { Stream.init with state := 1, batches := [{ k := 0, slots := [.need 0 false 0 0], events := [] }] }

/-- The module of `cachesSectorEight`, with that stream. -/
def startsSample : State := { cachesSectorEight with streams := [(0, needsSample)] }

/-- The sample needed next is the one of that slot. Its table entry lies in the line of address 0, the engine is free, and
the load of the entry is not held. -/
theorem startsSample_ready :
    let q := startsSample.stream 0
    let a := Stream.table q.record + 32 * indexAt q (Stream.epochOf q.record 0) 0
    nextNeed q = some (0, 0, 0, false, 0, 0) ∧ slotAt q 0 0 = some (.need 0 false 0 0) ∧ poolOf (startsSample.rd a 32 % 16) = some (0, 24) ∧
      (poolBusy startsSample 0 < poolLive startsSample (0, 24) ∧ servedBefore startsSample 0 0 0 = false) ∧
      loadHeld startsSample [(a, 32)] = false := by
  decide +kernel

theorem sampleStart_evicts :
    (sampleStart startsSample 0).byte sectorEightAddr = 1 ∧ (sampleStart startsSample 0).poisonAt sectorEightAddr = false := by
  decide +kernel

/-- Refutes O40: its clause of the start of a sample, that no byte changes, at a state whose cache holds a channel's word listed
for a ninth sector of a line (as for O28). The read of the table entry misses and evicts that line. -/
theorem not_samplesPassThroughTheTannery : ¬ Obligations.SamplesPassThroughTheTannery := by
  rintro ⟨-, starts, -⟩
  obtain ⟨needed, slot, pool, free, unheld⟩ := startsSample_ready
  have started := starts startsSample 0 0 0 0 0 0 false (by decide) rfl needed slot
  dsimp only at started pool unheld
  simp only [pool, Option.some.injEq, forall_eq'] at started
  obtain ⟨t, d, run, -, same, -⟩ := started free unheld
  obtain rfl : sampleStart startsSample 0 = t := Host.Outcome.next.inj run
  exact not_sameBytes_of_evicts rfl rfl (by simp) rfl sampleStart_evicts same

end Sys2Proof.Machine
end

section
/-! Tannery streams open and close (R362 to R364, R392). -/
namespace Sys2Proof.Machine

/-! ### Objects set to zero -/

/-- An object of value 0 has no unit to give to a TAKE as its waiters are released. -/
theorem value_settle_zero {o : SyncObj} (zero : o.value = 0) (ws kept : List Waiter) (out : List (Waiter × Nat)) :
    (o.settle ws kept out).1.value = 0 := by
  induction ws generalizing o kept out with
  | nil => exact zero
  | cons w ws ih =>
    unfold SyncObj.settle
    split
    · refine ih ?_ _ _
      split
      · exact congrArg (· - 1) zero
      · exact zero
    · exact ih zero _ _

section
variable (s : State) {i : Nat} {op : SyncOp} (clears : ∀ o : SyncObj, (o.apply op 0).value = 0)

theorem obj_clearObj_other {k : Nat} (h : k ≠ i) : (clearObj s i op).obj k = s.obj k := obj_settleObj_other s _ h

theorem cmds_clearObj : (clearObj s i op).cmds = s.cmds := (congrArg State.cmds (clearObj_fr (M := 0x40200) rfl s i op rfl) :)

include clears

theorem value_clearObj_same : ((clearObj s i op).obj i).value = 0 := by
  rw [clearObj, State.obj_congr (sync_settleObj s i _) i, State.obj_setObj_same]
  exact value_settle_zero (clears _) _ _ _

theorem value_clearObj_of_zero {k : Nat} (zero : (s.obj k).value = 0) : ((clearObj s i op).obj k).value = 0 := by
  by_cases own : k = i
  · rw [own]
    exact value_clearObj_same s clears
  · rw [obj_clearObj_other s own, zero]

end

theorem set_clears (o : SyncObj) : (o.apply .set 0).value = 0 := rfl

theorem eventClear_clears (o : SyncObj) : (o.apply .eventClear 0).value = 0 := rfl

/-! ### Opening -/

theorem stream_updStream_other (s : State) {n k : Nat} (f : Stream → Stream) (h : k ≠ n) :
    (s.updStream n f).stream k = s.stream k :=
  Sp.get_set_other _ _ _ _ _ h

/-- The objects of a stream at rest: its counters at zero and its event clear (R364). -/
def objectsCleared (s : State) (t : Stream) : State :=
  clearObj (clearObj (clearObj s t.readyCtr .set) t.consumedCtr .set) t.lowEvent .eventClear

theorem objectsCleared_values (s : State) (t : Stream) :
    ((objectsCleared s t).obj t.readyCtr).value = 0 ∧ ((objectsCleared s t).obj t.consumedCtr).value = 0 ∧
      ((objectsCleared s t).obj t.lowEvent).value = 0 :=
  ⟨value_clearObj_of_zero _ eventClear_clears (value_clearObj_of_zero _ set_clears (value_clearObj_same s set_clears)),
    value_clearObj_of_zero _ eventClear_clears (value_clearObj_same _ set_clears), value_clearObj_same _ eventClear_clears⟩

theorem obj_objectsCleared_other (s : State) (t : Stream) {k : Nat} (ready : k ≠ t.readyCtr) (consumed : k ≠ t.consumedCtr)
    (low : k ≠ t.lowEvent) : (objectsCleared s t).obj k = s.obj k := by
  rw [objectsCleared, obj_clearObj_other _ low, obj_clearObj_other _ consumed, obj_clearObj_other _ ready]

theorem cmds_objectsCleared (s : State) (t : Stream) : (objectsCleared s t).cmds = s.cmds := by
  rw [objectsCleared, cmds_clearObj, cmds_clearObj, cmds_clearObj]

theorem objectsCleared_frame (s : State) (t : Stream) : (objectsCleared s t).hide 0x40200 = s.hide 0x40200 :=
  clearObj_fr rfl _ _ _ (clearObj_fr rfl _ _ _ (clearObj_fr rfl _ _ _ rfl))

/-- A state in which a stream runs that a command has opened. -/
def streamOpened (s : State) (id : Nat) (t : Stream) : State :=
  (objectsCleared (s.updCmd id fun c => { c with stage := .active, started := true }) t).updStream (Stream.no t.record) fun _ => t

theorem streams_of_hide {s t : State} (h : t.hide 0x40200 = s.hide 0x40200) : t.streams = s.streams := (congrArg State.streams h :)

theorem State.eq_of_hide_opened {s t : State} (h : t.hide 0x80240200 = s.hide 0x80240200) :
    t = { s with mem := t.mem, poison := t.poison, od := t.od, cells := t.cells, sync := t.sync, cmds := t.cmds, snaps := t.snaps,
                 streams := t.streams } := by
  cases s
  cases t
  cases h
  rfl

theorem streamOpened_frame (s : State) (id : Nat) (t : Stream) : (streamOpened s id t).hide 0x80240200 = s.hide 0x80240200 :=
  State.updStream_fr rfl _ _ _ (clearObj_fr rfl _ _ _ (clearObj_fr rfl _ _ _ (clearObj_fr rfl _ _ _ (State.updCmd_fr rfl s _ _ rfl))))

theorem stream_streamOpened (s : State) (id : Nat) (t : Stream) : (streamOpened s id t).stream (Stream.no t.record) = t := by
  rw [streamOpened, State.stream_updStream_same]

theorem obj_updStream (s : State) (n : Nat) (f : Stream → Stream) (k : Nat) : (s.updStream n f).obj k = s.obj k :=
  State.obj_congr (State.updStream_sync s n f) k

theorem obj_updCmd (s : State) (id : Nat) (f : Cmd → Cmd) (k : Nat) : (s.updCmd id f).obj k = s.obj k :=
  State.obj_congr (State.updCmd_sync s id f) k

/-- What an open leaves: the objects of the stream, and every other one. -/
theorem streamOpened_values (s : State) (id : Nat) (t : Stream) :
    let u := streamOpened s id t
    (u.obj t.readyCtr).value = 0 ∧ (u.obj t.consumedCtr).value = 0 ∧ (u.obj t.lowEvent).value = 0 ∧
      ∀ k, k ≠ t.readyCtr → k ≠ t.consumedCtr → k ≠ t.lowEvent → u.obj k = s.obj k := by
  simp only [streamOpened, obj_updStream]
  obtain ⟨ready, consumed, low⟩ := objectsCleared_values (s.updCmd id fun c => { c with stage := .active, started := true }) t
  refine ⟨ready, consumed, low, fun k notReady notConsumed notLow => ?_⟩
  rw [obj_objectsCleared_other _ t notReady notConsumed notLow, obj_updCmd]

theorem onlyStream_streamOpened (s : State) (id : Nat) (t : Stream) : OnlyStream s (streamOpened s id t) (Stream.no t.record) :=
  fun k other => by
    have kept : (objectsCleared (s.updCmd id fun c => { c with stage := .active, started := true }) t).stream k = s.stream k := by
      unfold State.stream
      rw [streams_of_hide (objectsCleared_frame _ t)]
      rfl
    rw [streamOpened, stream_updStream_other _ _ other, kept]

theorem stage_streamOpened {s : State} {id : Nat} {c : Cmd} (found : s.cmd? id = some c) (t : Stream) :
    ((streamOpened s id t).cmd? id).map (·.stage) = some .active := by
  have kept : (streamOpened s id t).cmd? id = (s.updCmd id fun c => { c with stage := .active, started := true }).cmd? id :=
    State.cmd?_congr (by rw [streamOpened, State.updStream_cmds, cmds_objectsCleared]) id
  rw [kept, cmd?_updCmd_found (f := fun c => { c with stage := .active, started := true }) (fun _ => rfl) found]
  rfl

section
variable {s : State} {id r p : Nat} {ms : List (Nat × Nat)} {c : Cmd} {x : Ctx}

theorem streamOpen_of_checks (found : s.cmd? id = some c) (opcode : c.opcode = 0x15) (stage : c.stage = .taken)
    (up : (s.block 0x81).fenced = false) (ctx : s.ctx? c.ctx = some x) (record : slmTable s (fld c.entry 105 64) 128 64 = some r)
    (param : slmTable s (Stream.paramAddr r) 64 64 = some p)
    (merges : (if Stream.kind r = 3 then mergeTable s p else some []) = some ms) (ok : streamOk s c.ctx x r p = true)
    (resident : touchesAbsent s [queueRange r, (Stream.table r, 32 * Stream.entries r)] = false) :
    streamOpen s id = streamOpened s id { Stream.init with state := 1, cmd := id, record := r, param := p, merges := ms } := by
  rw [streamOpen, found]
  dsimp only
  rw [if_neg (by simp [opcode, stage]), if_neg (by simp [up]), ctx, record]
  dsimp only
  rw [param]
  dsimp only
  rw [merges]
  dsimp only
  rw [if_neg (by simp [ok]), if_neg (by simp [resident])]
  rfl

end

/-! ### Closing -/

/-- A stream that has ended (R392). -/
def Stream.closed (t : Stream) : Stream := { t with state := 0, batches := [], running := [], parked := [], reserves := [] }

section
variable {s : State} {id : Nat} {c : Cmd} (found : s.cmd? id = some c) (opcode : c.opcode = 0x16) (stage : c.stage = .taken)
  (runs : (s.stream (fld c.entry 69 64)).state = 1) (own : Stream.ctx (s.stream (fld c.entry 69 64)).record = c.ctx)
include found opcode stage runs own

theorem streamClose_of_running :
    let n := fld c.entry 69 64
    streamClose s id =
      complete (complete (s.updStream n Stream.closed) (s.stream n).cmd St.ok { Details.zero with d0 := (s.stream n).next }) id St.ok
        Details.zero := by
  rw [streamClose, found]
  dsimp only
  rw [if_neg (by simp [opcode, stage]), if_neg (not_not_intro runs), if_neg (not_not_intro own), endStream]
  dsimp only
  rw [if_neg (not_not_intro runs)]
  rfl

end

/-- A command that is gone stays so when another ends. -/
theorem cmd?_complete_gone {s : State} {k : Nat} (gone : s.cmd? k = none) (id status : Nat) (d : Details) :
    (complete s id status d).cmd? k = none := by
  by_cases own : k = id
  · rw [own]
    exact cmd?_complete s id status d
  · rw [cmd?_complete_other s id status d own, gone]

theorem streams_of_completion {s t : State} (h : t.hide 0x4010380270 = s.hide 0x4010380270) : t.streams = s.streams :=
  (congrArg State.streams h :)

theorem State.eq_of_hide_closed {s t : State} (h : t.hide 0x4090380270 = s.hide 0x4090380270) :
    t = { s with mem := t.mem, poison := t.poison, od := t.od, cells := t.cells, ctxs := t.ctxs, rings := t.rings, cmds := t.cmds,
                 snaps := t.snaps, streams := t.streams, cache := t.cache } := by
  cases s
  cases t
  cases h
  rfl

theorem stream_complete (s : State) (id status : Nat) (d : Details) (n : Nat) : (complete s id status d).stream n = s.stream n :=
  congrArg (Sp.get Stream.init · n) (streams_of_completion (complete_frame s id status d))

/-- Settles O39: the stream that an open begins, and what a close leaves of one. -/
theorem streamsOpenAndClose : Obligations.StreamsOpenAndClose := by
  refine ⟨fun s id r p ms c x found opcode stage up ctx record param merges ok resident => ?_, fun s id c found opcode stage => ?_⟩
  · have run := streamOpen_of_checks found opcode stage up ctx record param merges ok resident
    generalize opened : ({ Stream.init with state := 1, cmd := id, record := r, param := p, merges := ms } : Stream) = t at run ⊢
    have no : Stream.no r = Stream.no t.record := by rw [← opened]
    rw [no]
    exact ⟨streamOpened s id t, congrArg Host.Outcome.next run, State.eq_of_hide_opened (streamOpened_frame s id t),
      stream_streamOpened s id t, onlyStream_streamOpened s id t, stage_streamOpened found t, streamOpened_values s id t⟩
  · intro n runs own
    refine ⟨_, congrArg Host.Outcome.next (streamClose_of_running found opcode stage runs own), State.eq_of_hide_closed ?_, ?_,
      fun k other => ?_, cmd?_complete _ _ _ _, cmd?_complete_gone (cmd?_complete _ _ _ _) _ _ _⟩
    · exact complete_fr rfl _ _ _ _ (complete_fr rfl _ _ _ _ (State.updStream_fr rfl s _ _ rfl))
    · rw [stream_complete, stream_complete, State.stream_updStream_same]
      rfl
    · rw [stream_complete, stream_complete, stream_updStream_other _ _ other]

end Sys2Proof.Machine
end

section
/-! A fence lets a commit that has started complete (R146, R553): the addition that the piece has staged can bring the ready
count of a stream below its low-water mark, which is counted in the stream's own entry of the dictionary (R383). -/
namespace Sys2Proof.Machine

/-- A piece that has finished and is about to commit, with one addition of 1 to object 0 staged. -/
def pieceThatAdds : Piece :=
  { pieceOfOne 0 with items := [], staged := { Staged.empty with ops := [{ obj := 0, op := 1, operand := 1 }] } }

/-- A running stream with LOW_WATER 1, whose ready count and consumed count are both in object 0. -/
def streamOfOneCounter : Stream := { Stream.init with state := 1, record := 2 ^ 35 }

/-- A booted module with that piece on cell 0 and with that stream, which is number n. -/
def addsForStream (n : Nat) : State :=
  { State.reset with
    secure := { Secure.init with boot := 2 }
    power := { State.reset.power with rails := true }
    sync := [(0, { SyncObj.free with kind := .counter })]
    cells := [(0, { Cell.init with piece := some pieceThatAdds })]
    streams := [(n, streamOfOneCounter)] }

/-! ### Stream 0x2000, whose low-water count is entry 0x8080:1 -/

/-- The expiry and the low-water mark are counted in one entry: 0x8060 with the stream's number and 1 for its part. -/
theorem controlWatchdog_countsTwo :
    (addsForStream 0x2000).odGet 0x8080 1 = 0 ∧ (controlWatchdog (addsForStream 0x2000) 0).odGet 0x8080 1 = 2 := by
  decide +kernel

/-- Refutes O53: its clause of a control core, that WATCHDOG_COUNT grows by one, at a state with a stream numbered 0x2000,
whose entry of the low-water counts is that of the expiries. The fence lets a commit complete that adds to the counter of
that stream. The statement takes every state, and asks nothing of the numbers of its streams, of which R362 has 64. -/
theorem not_processorsAndMembersAreLost : ¬ Obligations.ProcessorsAndMembersAreLost := by
  rintro ⟨control, -⟩
  obtain ⟨t, run, -, -, -, counted, -⟩ := control (addsForStream 0x2000) 0 (by decide) rfl
  obtain rfl : controlWatchdog (addsForStream 0x2000) 0 = t := Host.Outcome.next.inj run
  obtain ⟨zero, two⟩ := controlWatchdog_countsTwo
  rw [zero, two] at counted
  exact absurd counted (by decide)

/-! ### Stream 0xC1FF, whose low-water count is entry 0x8122:0 -/

/-- The fence and the low-water mark are counted in one entry. -/
theorem fence_countsTwo :
    (addsForStream 0xC1FF).odGet 0x8122 0 = 0 ∧ (fence (addsForStream 0xC1FF) (.cell 0) 3).odGet 0x8122 0 = 2 := by
  decide +kernel

/-- Refutes O52: its first clause for a cell, that the fence is counted once, at a state with a stream numbered 0xC1FF, whose
entry of the low-water counts is that of the fences (as for O53). -/
theorem not_fencesGoThroughTheirSteps : ¬ Obligations.FencesGoThroughTheirSteps := by
  rintro ⟨fences, -⟩
  obtain ⟨t, f, run, -, -, -, -, -, -, -, -, -, -, -, counted⟩ := fences (addsForStream 0xC1FF) true 0 3 rfl rfl rfl
  obtain rfl : fence (addsForStream 0xC1FF) (.cell 0) 3 = t := Host.Outcome.next.inj run
  obtain ⟨zero, two⟩ := fence_countsTwo
  rw [zero, two] at counted
  exact absurd counted (by decide)

end Sys2Proof.Machine
end

section
/-! The Welts and the stitch number (R29, R43, R230): which commands may change either, said once for every command. -/
namespace Sys2Proof.Machine

/-- The commands that may change a pair of a Welt (O6). -/
def mayChangeWelt : Instr → Bool
  | .pieceCommit _ | .gather _ | .stepOutcomeApply _ | .fence _ _ _ | .cellFault _ | .controlCoreWatchdog _
  | .schedulerWatchdog | .powerWatchdog | .bistSliceEnd _ _ _ _ | .perstNAssert _ | .jobClose _ | .schedulerLost
  | .stitchLostJobEnd | .descriptorRetire _ _ _ | .transferLand _ _ _ _ | .memberExclude _ | .scrubComplete _ _
  | .stitchEdge | .stitchInEdge _ | .securityWatchdog | .resetNAssert _ | .thermalShutdown | .inputVoltageTrip _
  | .pwrEnDeassert _ | .fwActivate | .bistForce | .odWrite | .boot _ _ _ => true
  | _ => false

/-- The commands that may change the stitch number (O6). -/
def mayChangeNumber : Instr → Bool
  | .stitchEdge | .stitchInEdge _ | .securityWatchdog | .resetNAssert _ | .thermalShutdown | .inputVoltageTrip _
  | .pwrEnDeassert _ | .fwActivate | .odWrite => true
  | _ => false

/-- From s to t the Welts stay unless they may change, and the stitch number stays unless it may. -/
structure Leaves (mayWelt mayNumber : Bool) (s t : State) : Prop where
  welt : bif mayWelt then True else t.welt = s.welt
  number : bif mayNumber then True else t.stitch.count = s.stitch.count

/-- All fields but the Welts and the Stitch, as a mask of `State.hide`. -/
abbrev allButWeltAndStitch : Nat := 0x7ffffffffeff7f

/-- All fields but the Welts. -/
abbrev allButWelt : Nat := 0x7ffffffffeffff

/-- All fields but the Stitch. -/
abbrev allButStitch : Nat := 0x7fffffffffff7f

namespace Leaves
variable {a b : Bool} {s t u : State}

theorem free (s t : State) : Leaves true true s t := ⟨trivial, trivial⟩

theorem of_kept (welt : t.welt = s.welt) (number : t.stitch.count = s.stitch.count) : Leaves a b s t where
  welt := by
    cases a
    · exact welt
    · trivial
  number := by
    cases b
    · exact number
    · trivial

theorem refl (s : State) : Leaves a b s s := of_kept rfl rfl

theorem of_number (number : t.stitch.count = s.stitch.count) : Leaves true b s t where
  welt := trivial
  number := by
    cases b
    · exact number
    · trivial

theorem trans (h : Leaves a b s t) (k : Leaves a b t u) : Leaves a b s u where
  welt := by
    cases a
    · exact Eq.trans k.welt h.welt
    · trivial
  number := by
    cases b
    · exact Eq.trans k.number h.number
    · trivial

/-- `trans` with the later operation first, which names the state between. -/
theorem after (k : Leaves a b t u) (h : Leaves a b s t) : Leaves a b s u := h.trans k

/-- An operation whose frame leaves out the Welts and the Stitch. -/
theorem of_frame (fr : s.hide allButWeltAndStitch = s.hide allButWeltAndStitch →
    t.hide allButWeltAndStitch = s.hide allButWeltAndStitch) : Leaves a b s t :=
  of_kept (congrArg State.welt (fr rfl) :) (congrArg (fun s => s.stitch.count) (fr rfl) :)

/-- An operation whose frame leaves out the Welts, and that keeps the stitch number. -/
theorem of_welt_frame (fr : s.hide allButWelt = s.hide allButWelt → t.hide allButWelt = s.hide allButWelt)
    (number : t.stitch.count = s.stitch.count) : Leaves a b s t :=
  of_kept (congrArg State.welt (fr rfl) :) number

/-- An operation of a command that may change the Welts, whose frame leaves out the Stitch. -/
theorem of_stitch_frame (fr : s.hide allButStitch = s.hide allButStitch → t.hide allButStitch = s.hide allButStitch) :
    Leaves true b s t :=
  of_number (congrArg (fun s => s.stitch.count) (fr rfl) :)

theorem ite {p : Prop} [Decidable p] (h : Leaves a b s t) (k : Leaves a b s u) : Leaves a b s (if p then t else u) := by
  split
  · exact h
  · exact k

theorem whenPowered {f : State → State} (k : Leaves a b s (f s)) : Leaves a b s (whenPowered s f) := k.ite (refl s)

theorem whenRunning {f : State → State} (k : Leaves a b s (f s)) : Leaves a b s (whenRunning s f) := k.ite (refl s)

theorem draw (s : State) : Leaves a b s s.draw := of_kept rfl rfl

theorem filtered {ns : Nat} {f : State → State} (k : ∀ t, Leaves a b t (f t)) : Leaves a b s (filtered s ns f) :=
  ite ((draw s).trans (k _)) (draw s)

end Leaves

/-! ### The Stitch: what changes it beside its number -/

theorem stitch_logEvent (s : State) (e : EventCode) (kind source d0 d1 : Nat) :
    (logEvent s e kind source d0 d1).stitch = s.stitch := by
  rw [logEvent_eq]

theorem number_enterLost (s : State) : (enterLost s).stitch.count = s.stitch.count := by
  unfold enterLost
  split
  · rfl
  · rw [stitch_logEvent]

theorem enterLost_leaves {a b : Bool} (s : State) : Leaves a b s (enterLost s) :=
  .of_welt_frame (enterLost_fr rfl s) (number_enterLost s)

theorem number_hearRoot {s t : State} {sender : Nat} (h : hearRoot s sender = some t) :
    t.stitch.count = s.stitch.count := by
  unfold hearRoot at h
  split at h
  · cases h
  split at h
  · cases h
    rfl
  split at h
  · cases h
    rfl
  · cases h

theorem hearRoot_leaves {a b : Bool} (s : State) (sender : Nat) : Leaves a b s ((hearRoot s sender).getD s) := by
  cases e : hearRoot s sender with
  | none => exact .refl s
  | some t => exact .of_welt_frame (hearRoot_fr rfl e) (number_hearRoot e)

theorem number_stitchMarker (s : State) (plane sender n : Nat) (t : Int) :
    (stitchMarker s plane sender n t).stitch.count = s.stitch.count := by
  unfold stitchMarker
  split
  · rfl
  split
  · rfl
  · next heard =>
    split
    · exact number_hearRoot heard
    · exact (number_hearRoot heard :)

theorem number_standbyTakeover (s : State) (us : Nat) : (standbyTakeover s us).stitch.count = s.stitch.count := by
  unfold standbyTakeover sendMarker
  split
  · rw [State.send_stitch]
    rfl
  · rfl

/-- R397: a job open leaves the number; the first edge sets it. -/
theorem number_adopt (s : State) (d : JobD) (p : Peers) (ms rs cs : List Nat) (pat : Pattern) (id : Nat) :
    (adopt s d p ms rs cs pat id).stitch.count = s.stitch.count := by
  unfold adopt
  dsimp only
  split
  · rfl
  · rw [State.send_stitch]
    rfl

theorem stitch_complete (s : State) (id status : Nat) (d : Details) : (complete s id status d).stitch = s.stitch :=
  (congrArg State.stitch (complete_frame s id status d) :)

theorem stitch_tellOpen (s : State) (d : JobD) : (tellOpen s d).stitch = s.stitch :=
  (congrArg State.stitch (tellOpen_fr (M := 0x40000000000100) rfl s d rfl) :)

theorem number_jobOpen (s : State) (id : Nat) (p : Peers) : (jobOpen s id p).stitch.count = s.stitch.count := by
  unfold jobOpen
  split
  · rfl
  split
  · rfl
  split
  · rw [stitch_complete]
  split
  · rw [stitch_complete]
  dsimp only
  split
  · rw [number_adopt, stitch_tellOpen]
  · rw [stitch_complete, stitch_tellOpen]

/-! ### The object-dictionary server (R468, R533): only two entries reach the Welts or reset the module -/

section
variable {a b : Bool}

theorem odApply_leaves {index : Nat} (unforced : index ≠ 0x7021) (s : State) (w : Who) (sub v : Nat) (fs : List Fail) :
    Leaves a b s (odApply s w index sub v fs).2 := by
  have set : Leaves a b s (s.odSet index sub v) := .of_kept rfl rfl
  unfold odApply
  dsimp only
  split
  · split
    · exact set
    · exact .refl s
  · exact .after (.of_frame (portEnable_fr rfl _ _ _)) set
  · exact .of_kept rfl rfl
  · exact .after (.of_frame (startTest_fr rfl _ _)) set
  · exact absurd rfl unforced
  · exact .after (.of_frame (calRequest_fr rfl _ _)) set
  · split
    · exact .refl s
    · exact set
  · exact .of_frame (stackPpr_fr rfl s v)
  · exact .of_frame (bistUnit_fr rfl s v fs)
  · split
    · exact .refl s
    · exact set
  · split
    · exact set
    split
    · exact .after (.of_frame (activate_fr rfl _)) set
    · exact .refl s
  · split
    · exact set
    split
    · exact .after (.of_frame (svnCommit_fr rfl _)) set
    · exact .refl s
  · exact .of_frame (setNonce_fr rfl s w v)
  · exact .ite (.of_frame (endUnlock_fr rfl s)) (.refl s)
  · exact set

theorem odWrite_leaves {c : OdBlk} (unforced : c.index ≠ 0x7021) (s : State) (w : Who) (e : OdEntry) (data : List Byte)
    (fs : List Fail) : Leaves a b s (odWrite s w c e data fs).st := by
  unfold odWrite
  dsimp only
  repeat (split; exact .refl s)
  exact odApply_leaves unforced s w _ _ fs

/-- A request that writes no forced self-test. -/
theorem odRun_leaves {c : OdBlk} (unforced : c.op = 0x31 → c.index ≠ 0x7021) (s : State) (q : OdReq) (e : OdEntry)
    (data : List Byte) (fs : List Fail) : Leaves a b s (odRun s q c e data fs).st := by
  unfold odRun
  split
  · exact .of_frame (odRead_fr rfl s c e)
  · exact odWrite_leaves (unforced ‹_›) s _ e data fs
  · exact .of_frame (odSegRead_fr rfl s _ c e)
  · exact .of_frame (odSegWrite_fr rfl s _ c e data)
  · exact .of_frame (odSegAbort_fr rfl s _ c e)
  · exact .refl s

theorem odAccess_leaves {c : OdBlk} (unforced : c.op = 0x31 → c.index ≠ 0x7021) (s : State) (q : OdReq)
    (fs : List Fail) : Leaves a b s (odAccess s q c fs).st := by
  unfold odAccess
  dsimp only
  split
  · exact .refl s
  split
  · exact .refl s
  split
  · exact .refl s
  split
  · exact .refl s
  · exact odRun_leaves unforced s q _ _ fs

end

theorem reset_takeSegment (s : State) (t : Transfer) (w : Who) (b : OdBlk) (data : List Byte) :
    (takeSegment s t w b data).reset = false := by
  unfold takeSegment domainWritten
  dsimp only
  split
  · rfl
  split
  · split <;> rfl
  · rfl

theorem reset_odSegRead (s : State) (w : Who) (b : OdBlk) (e : OdEntry) : (odSegRead s w b e).reset = false := by
  unfold odSegRead
  repeat (split; rfl)
  split
  · split <;> rfl
  · rfl

theorem reset_odSegWrite (s : State) (w : Who) (b : OdBlk) (e : OdEntry) (data : List Byte) :
    (odSegWrite s w b e data).reset = false := by
  unfold odSegWrite
  repeat (split; rfl)
  split
  · split
    · exact reset_takeSegment ..
    · split <;> rfl
  · repeat (split; rfl)
    exact reset_takeSegment ..

theorem reset_odSegAbort (s : State) (w : Who) (b : OdBlk) (e : OdEntry) : (odSegAbort s w b e).reset = false := by
  unfold odSegAbort
  split
  · rfl
  · split <;> rfl

theorem reset_odRead (s : State) (b : OdBlk) (e : OdEntry) : (odRead s b e).reset = false := by
  unfold odRead
  repeat (split; rfl)
  dsimp only
  split <;> rfl

theorem reset_odWrite {b : OdBlk} (other : b.index ≠ 0x9004) (s : State) (w : Who) (e : OdEntry) (data : List Byte)
    (fs : List Fail) : (odWrite s w b e data fs).reset = false := by
  unfold odWrite
  dsimp only
  repeat (split; rfl)
  exact decide_eq_false fun h => other h.1

/-- R468: only a write of FW_ACTIVATE resets the module. -/
theorem reset_odAccess {b : OdBlk} (other : b.op = 0x31 → b.index ≠ 0x9004) (s : State) (q : OdReq) (fs : List Fail) :
    (odAccess s q b fs).reset = false := by
  unfold odAccess
  dsimp only
  split
  · rfl
  split
  · rfl
  split
  · rfl
  split
  · rfl
  · unfold odRun
    split
    · exact reset_odRead ..
    · exact reset_odWrite (other ‹_›) ..
    · exact reset_odSegRead ..
    · exact reset_odSegWrite ..
    · exact reset_odSegAbort ..
    · rfl

/-- A request that a row serves names FW_ACTIVATE for a write, or BIST_FORCE, only if the row is that of the entry or of
all writes. -/
theorem index_of_servedBy {b : OdBlk} {k row : OdKind} {index : Nat} (served : b.servedBy k = true) (write : b.op = 0x31)
    (other : k ≠ .write) (own : writeKind index 0 = row) (others : k ≠ row) : b.index ≠ index := by
  rintro rfl
  have kind : b.kind = writeKind b.index b.sub := by
    unfold OdBlk.kind
    rw [write]
    rfl
  have base : b.base = .write := by
    unfold OdBlk.base
    rw [write]
    rfl
  have served : writeKind b.index b.sub = k := by
    unfold OdBlk.servedBy at served
    rw [kind, base] at served
    simpa [Ne.symm other] using served
  by_cases sub : b.sub = 0
  · rw [sub, own] at served
    exact others served.symm
  · unfold writeKind at served
    rw [if_pos sub] at served
    exact other served.symm

theorem odServe_of_no_reset {s : State} {k : OdKind} {q : OdReq} {rest : List OdReq} {fs : List Fail}
    (queue : s.odQueue = q :: rest)
    (stays : (odAccess { s with odQueue := rest } q (OdBlk.ofWord q.block) fs).reset = false) :
    odServe s k fs = if !serverUp s || !(OdBlk.ofWord q.block).servedBy k then s
      else odAnswer q (OdBlk.ofWord q.block) (odAccess { s with odQueue := rest } q (OdBlk.ofWord q.block) fs) := by
  unfold odServe
  rw [queue]
  dsimp only
  rw [stays, if_neg Bool.false_ne_true]

section
variable {a b : Bool} {k : OdKind} {fs : List Fail}

/-- What a row does whose requests ask for no reset, from what their accesses do. -/
theorem odServe_leaves_of_access (unreset : ∀ c : OdBlk, c.servedBy k = true → c.op = 0x31 → c.index ≠ 0x9004)
    (access : ∀ (s : State) q c, c.servedBy k = true → Leaves a b s (odAccess s q c fs).st) (s : State) :
    Leaves a b s (odServe s k fs) := by
  cases queue : s.odQueue with
  | nil =>
    rw [odServe, queue]
    exact .refl s
  | cons q rest =>
    by_cases served : (OdBlk.ofWord q.block).servedBy k = true
    · rw [odServe_of_no_reset queue (reset_odAccess (unreset _ served) _ _ _)]
      have taken : Leaves a b s { s with odQueue := rest } := .of_kept rfl rfl
      exact .ite (.refl s) (.after (.of_frame (odAnswer_fr rfl q _ _)) (taken.trans (access _ q _ served)))
    · unfold odServe
      rw [queue]
      simp only [served, Bool.not_false, Bool.or_true, if_true]
      exact .refl s

/-- The rows but those of writes, FW_ACTIVATE and BIST_FORCE. -/
theorem odServe_leaves (write : k ≠ .write) (activate : k ≠ .activate) (force : k ≠ .bistForce) (s : State) :
    Leaves a b s (odServe s k fs) :=
  odServe_leaves_of_access (fun _ served op => index_of_servedBy served op write rfl activate)
    (fun _ _ _ served => odAccess_leaves (fun op => index_of_servedBy served op write rfl force) _ _ _) s

/-- R533: a forced self-test closes the job, but the number stays. -/
theorem odServe_bistForce_leaves (s : State) : Leaves true b s (odServe s .bistForce fs) :=
  odServe_leaves_of_access (fun _ served op => index_of_servedBy served op (by decide) rfl (by decide))
    (fun s q c _ => .of_stitch_frame (odAccess_fr rfl s q c fs)) s

end

end Sys2Proof.Machine
end

section
/-! The Welts and the stitch number (R29, R43, R230) over every command. -/
namespace Sys2Proof.Machine

section
variable {a b : Bool}

theorem pieceCommit_leaves (s : State) (c : Nat) :
    Leaves true b s (match s.pieceOf c with
      | some p => if p.committing then commitPiece s c p else s
      | none => s) := by
  split
  · exact .ite (.of_stitch_frame (commitPiece_fr rfl s c _)) (.refl s)
  · exact .refl s

/-- A Skiver descriptor whose work, where it has a result, leaves the Welts and the Stitch. -/
theorem skCmd_leaves {s : State} {c op : Nat} {work : State → Piece → Nat → SkD → Option (State × Flags)}
    (k : ∀ {p n d r}, work s p n d = some r → s.hide allButWeltAndStitch = s.hide allButWeltAndStitch →
      r.1.hide allButWeltAndStitch = s.hide allButWeltAndStitch) :
    Leaves a b s (skCmd s c op work) := .of_frame fun h => skCmd_fr rfl s c op work h fun _ _ _ _ e => k e h

/-- A Skiver descriptor whose work always has a result. -/
theorem skCmd_some_leaves {s : State} {c op : Nat} {work : State → Piece → SkD → State × Flags}
    (k : ∀ p d, s.hide allButWeltAndStitch = s.hide allButWeltAndStitch →
      (work s p d).1.hide allButWeltAndStitch = s.hide allButWeltAndStitch) :
    Leaves a b s (skCmd s c op fun s p _ d => some (work s p d)) :=
  skCmd_leaves fun {p _ d _} e => Option.some.inj e ▸ k p d

theorem tileClaim_leaves (s : State) (cell obj : Nat) : Answers false (Leaves a b s) (execTileClaim cell obj s) := by
  unfold execTileClaim
  split
  · exact onObj_answers nofun (.of_frame (tileClaim_fr rfl s cell obj))
  · rfl

theorem calibrationDone_leaves (s : State) (cluster : Bool) (unit : Nat) :
    Answers false (Leaves a b s) (execCalibrationDone cluster unit s) := by
  cases cluster with
  | true =>
    rw [execCalibrationDone, if_pos rfl]
    exact onCluster_answers nofun (.of_kept rfl rfl)
  | false =>
    rw [execCalibrationDone, if_neg Bool.false_ne_true]
    exact onPort_answers nofun (.of_frame (calibrationDone_fr rfl s unit))

end

/-- Every command that goes on leaves the Welts unless it is one that may change them, and the stitch number unless it
is one that may change that. -/
theorem exec_leaves (c : Instr) (s : State) :
    Answers false (Leaves (mayChangeWelt c) (mayChangeNumber c) s) (exec c s) := by
  cases c with dsimp only [exec, mayChangeWelt, mayChangeNumber]
  -- The Stitch and the Harness (spec 02)
  | stitchEdge => exact .next (.free ..)
  | stitchInEdge _ => exact .next (.free ..)
  | stitchInTimeout => exact .next (.ite (enterLost_leaves s) (.refl s))
  | stitchMarker _ _ _ _ => exact onPort_answers nofun (.of_welt_frame (stitchMarker_fr rfl s _ _ _ _) (number_stitchMarker ..))
  | rootHeartbeatSend => exact .next (.ite (.of_frame (State.send_fr rfl s _)) (.refl s))
  | rootHeartbeat sender => exact .next (hearRoot_leaves s sender)
  | standbyTakeover _ => exact .next (.of_welt_frame (standbyTakeover_fr rfl s _) (number_standbyTakeover ..))
  | stitchLost => exact .next (.ite (enterLost_leaves s) (.refl s))
  | stitchLostJobEnd => exact .next (.ite (.of_stitch_frame (endJobFault_fr rfl s _)) (.refl s))
  | harnessFrame _ _ _ _ _ => exact onPort_answers nofun (.of_frame (harnessFrame_fr rfl s _ _ _ _ _))
  -- Pieces, the array and the stem (spec 04, 05, 07)
  | pieceStart _ _ => exact onCell_answers nofun (.whenPowered (.of_frame (pieceStart_fr rfl s _ _)))
  | descriptorHandOut _ => exact onCell_answers nofun (.of_frame (handOut_fr rfl s _))
  | gridDescriptor _ => exact onCell_answers nofun (.of_frame (gridDescriptor_fr rfl s _))
  | matrix _ | wgrad _ | conv _ | poolMax _ | poolAvgFull _ | poolAvgValid _ | convDx _ | convWgrad _ =>
    exact onCell_answers nofun (.of_frame (arrayCmd_fr rfl s _ _))
  | stemPack _ => exact onCell_answers nofun (.of_frame fun h => runUnit_fr rfl s _ _ _ _ h fun _ _ => packRows_frame rfl _ _ s s h)
  | stemUnpack _ => exact onCell_answers nofun (.of_frame fun h => runUnit_fr rfl s _ _ _ _ h fun _ _ => unpackRows_frame rfl _ _ s s h)
  | preload _ => exact onCell_answers nofun (.of_frame (preload_fr rfl s _))
  | tileDrain _ => exact onCell_answers nofun (.of_frame (tileDrain_fr rfl s _))
  | descriptorRetire _ _ _ => exact onCell_answers nofun (.of_stitch_frame (retire_fr rfl s _ _ _))
  -- The vector engine and the Skivers (spec 06, 08)
  | vectorCopy _ | vectorAdd _ | vectorSub _ | vectorMul _ | vectorDiv _ | vectorMax _ | vectorMin _ | vectorFma _
  | vectorAbs _ | vectorNeg _ | vectorClamp _ | vectorSign _ | vectorSqrt _ | vectorRsqrt _ | vectorRecip _
  | vectorExp _ | vectorLog _ | vectorTanh _ | vectorSigmoid _ | vectorSilu _ | vectorGeluTanh _ | vectorRelu _
  | vectorSelect _ | vectorCmpGt _ => exact onCell_answers nofun (.of_frame (mapCmd_fr rfl s _ _))
  | reductionSum _ | reductionSumsq _ | reductionSumabs _ | reductionMax _ | reductionMin _ | reductionAbsmax _
  | reductionDot _ => exact onCell_answers nofun (.of_frame (redCmd_fr rfl s _ _))
  | updateSgdMomentum _ | updateAdamw _ | updateLion _ =>
    exact onCell_answers nofun (.of_frame (updCmdRow_fr rfl s _ _))
  | normFwd _ => exact onCell_answers nofun (skCmd_some_leaves fun _ _ => normFwd_fr rfl s _ _ _)
  | normBwd _ => exact onCell_answers nofun (skCmd_leaves fun e => normBwd_fr rfl e)
  | softmaxFwd _ => exact onCell_answers nofun (skCmd_some_leaves fun _ _ => softFwd_fr rfl s _ _ _)
  | softmaxBwd _ => exact onCell_answers nofun (skCmd_leaves fun e => softBwd_fr rfl e)
  | statSave _ => exact onCell_answers nofun (skCmd_some_leaves fun _ _ => statSave_fr rfl s _ _ _)
  | statLoad _ => exact onCell_answers nofun (skCmd_some_leaves fun _ _ => statLoad_fr rfl s _ _ _)
  -- Streams and home slices (spec 10, 11)
  | moveCopy _ _ | moveEncode _ _ | moveDecode _ _ | moveRegroup _ _ | rearm _ _ =>
    exact onCell_answers nofun (.of_frame (streamStart_fr rfl s _ _ _))
  | queueCtl _ => exact onCell_answers nofun (.of_frame (queueCtl_fr rfl s _))
  | transferIssue _ => exact onCell_answers nofun (.of_frame (transferIssue_fr rfl s _))
  | homeSliceAccess _ _ _ _ => exact .next (.whenPowered (.of_frame (homeAccess_fr rfl s _ _ _ _)))
  | transferLand _ _ _ _ => exact onCell_answers nofun (.of_stitch_frame (transferLand_fr rfl s _ _ _ _))
  -- Sync objects (spec 02)
  | harnessOpRead _ | harnessOpAdd _ | harnessOpSet _ | harnessOpWaitGe _ | harnessOpEventSet _
  | harnessOpEventClear _ | harnessOpEventWait _ | harnessOpArrive _ | harnessOpBarrierWait _
  | harnessOpArriveWait _ | harnessOpPost _ | harnessOpTake _ | harnessOpTryTake _ =>
    exact onCell_answers nofun (.of_frame (harnessCmd_fr rfl s _ _))
  | syncWaitRelease _ _ _ => exact onCell_answers nofun (.of_frame (waitRelease_fr rfl s _ _ _))
  | farUpdate _ _ => exact .next (.of_frame (farUpdate_fr rfl s _ _))
  -- Commits and tiles (spec 05)
  | pieceCommit cell => exact onCell_answers nofun (pieceCommit_leaves s cell)
  | tileClaim cell obj => exact tileClaim_leaves s cell obj
  | tileCommit _ => exact onCell_answers nofun (.of_frame (tileCommit_fr rfl s _))
  | tileCommitReply _ => exact onCell_answers nofun (.of_frame (tileCommitReply_fr rfl s _))
  | tileDone _ _ _ => exact onObj_answers nofun (.of_frame (tileDone_fr rfl s _))
  | tileRevert _ _ _ => exact onObj_answers nofun (.of_frame (tileRevert_fr rfl s _))
  | tileRelease _ _ _ => exact onObj_answers nofun (.of_frame (releaseLease_fr rfl s _))
  | leaseTimeout _ _ => exact onObj_answers nofun (.of_frame (leaseTimeout_fr rfl s _ _))
  | cellFault _ => exact onCell_answers nofun (.ite (.of_stitch_frame (failCell_fr rfl s _ _)) (.refl s))
  | slmAdd _ => exact onCell_answers nofun (.of_frame (slmAdd_fr rfl s _))
  -- Training steps (spec 09)
  | gather _ => exact onCtx_answers nofun (.of_stitch_frame (gather_fr rfl s _))
  | stepOpen _ _ _ => exact .next (.of_frame (stepOpen_fr rfl s _ _ _))
  | exchange _ => exact onCtx_answers nofun (.of_frame (exchange_fr rfl s _))
  | updatePlacement _ _ _ => exact onCtx_answers nofun (.of_frame (updatePlacement_fr rfl s _ _ _))
  | voteCast _ => exact onCtx_answers nofun (.of_frame (voteCast_fr rfl s _))
  | voteReceive _ _ _ _ _ _ _ _ _ => exact onCtx_answers nofun (.of_frame (voteReceive_fr rfl s _ _))
  | voteDeadline _ => exact onCtx_answers nofun (.of_frame (voteDeadline_fr rfl s _))
  | outcomeReceive _ _ _ _ _ _ => exact onCtx_answers nofun (.of_frame (outcomeReceive_fr rfl s _ _ _ _ _ _))
  | stepOutcomeApply _ => exact onCtx_answers nofun (.of_stitch_frame (outcomeApply_fr rfl s _))
  | stepGather _ => exact onCtx_answers nofun (.of_frame (stepGather_fr rfl s _))
  | mirror _ _ => exact onCtx_answers nofun (.of_frame (mirror_fr rfl s _ _))
  | mirrorAck _ _ => exact onCtx_answers nofun (.of_frame (mirrorAck_fr rfl s _ _))
  -- Snapshots and the fabric (spec 09, 12)
  | snapshot _ _ => exact .next (.of_frame (snapshot_fr rfl s _ _))
  | snapshotSend _ => exact .next (.of_frame (snapshotSend_fr rfl s _))
  | reduceScatter _ | allReduce _ | allGather _ | broadcast _ | put _ =>
    exact .next (.of_frame (fabCommand_fr rfl s _ _))
  | fabricOpStart _ => exact .next (.of_frame (fabStart_fr rfl s _))
  | fabricStartNotice _ _ _ _ _ _ _ _ _ => exact .next (.whenPowered (.of_frame (startNotice_fr rfl s _)))
  | fabricOpComplete _ _ => exact .next (.of_frame (fabOpComplete_fr rfl s _ _))
  | fabricTimeout _ => exact .next (.of_frame (fabTimeout_fr rfl s _))
  | flitData _ _ _ _ _ _ =>
    exact onPort_answers nofun (.of_frame (flitData_fr rfl s _ _ _ _ _ _))
  | flitReduce _ _ _ _ _ _ => exact onPort_answers nofun (.of_frame (flitReduce_fr rfl s _ _ _ _ _ _))
  | residueResendRequest _ _ _ _ => exact onPort_answers nofun (.of_frame (resendFlit_fr rfl s _ _ _ _))
  | flitRetry _ _ _ _ _ => exact onPort_answers nofun (.of_frame (flitRetry_fr rfl s _ _ _ _ _))
  | flitNull _ _ _ _ _ => exact onPort_answers nofun (.of_frame (receive_fr rfl s _ _ _ _ _ _))
  | laserLightLoss _ _ => exact .guard nofun (.of_frame (lightLoss_fr rfl s _ _))
  | portTraining _ _ _ => exact onPort_answers nofun (.of_frame (portTraining_fr rfl s _ _ _))
  | portTrainingTimeout _ _ => exact onPort_answers nofun (.of_frame (portTrainingTimeout_fr rfl s _ _))
  | portLockLoss _ _ _ => exact onPort_answers nofun (.of_frame (lockLoss_fr rfl s _ _ _))
  | harnessLockLoss _ | harnessLockRegained _ => exact onPort_answers nofun (.of_frame (State.updPort_fr rfl s _ _))
  | portRetrain _ => exact onPort_answers nofun (.whenPowered (.of_frame (State.updPort_fr rfl s _ _)))
  | calibrationDone cluster unit => exact calibrationDone_leaves s cluster unit
  -- The Tannery (spec 13)
  | streamOpen _ => exact .next (.of_frame (streamOpen_fr rfl s _))
  | streamClose _ => exact .next (.of_frame (streamClose_fr rfl s _))
  | batchAssemble _ => exact onStream_answers nofun (.of_frame (batchAssemble_fr rfl s _))
  | sampleStart _ => exact onStream_answers nofun (.of_frame (sampleStart_fr rfl s _))
  | sampleDecoded _ _ _ _ _ _ _ =>
    exact onStream_answers nofun (.of_frame (sampleDecoded_fr rfl s _ _ _ _ _))
  | sampleOverBudget _ _ _ => exact onStream_answers nofun (.of_frame (overBudget_fr rfl s _ _ _))
  | batchSeal _ _ => exact onStream_answers nofun (.of_frame (batchSeal_fr rfl s _ _))
  -- Jobs, contexts and the pattern (spec 14)
  | jobOpen _ _ _ _ _ _ _ => exact .next (.of_welt_frame (jobOpen_fr rfl s _ _) (number_jobOpen ..))
  | jobClose _ => exact .next (.of_stitch_frame (jobClose_fr rfl s _))
  | scrubComplete _ _ => exact .next (.of_stitch_frame (scrubComplete_fr rfl s _ _))
  | contextCreate _ _ => exact .next (.of_frame (contextCreate_fr rfl s _ _))
  | contextDestroy _ => exact .next (.of_frame (contextDestroy_fr rfl s _))
  | patternLoad _ _ => exact .next (.of_frame (patternLoad_fr rfl s _ _))
  | patternTakeEffect => exact .next (.of_frame (patternTakeEffect_fr rfl s))
  | swapComplete _ => exact onCtx_answers nofun (.of_frame (swapComplete_fr rfl s _))
  | class2Refuse _ => exact .next (.of_frame (class2Refuse_fr rfl s _))
  | run _ => exact .next (.of_frame (runCommand_fr rfl s _))
  | grid _ => exact .next (.of_frame (gridCommand_fr rfl s _))
  | syncOpRead _ | syncOpAdd _ | syncOpSet _ | syncOpEventSet _ | syncOpEventClear _ | syncOpPost _
  | syncOpArrive _ => exact .next (.of_frame (syncOpCommand_fr rfl s _ _))
  -- The host (spec 15)
  | hostCopyToDevice _ _ => exact .next (.of_frame (hostCopyIn_fr rfl s _ _))
  | hostCopyToHost _ _ => exact .next (.of_frame (hostCopyOut_fr rfl s _ _))
  | pcieReadCompletion _ _ _ _ => exact .next (.of_frame (readCompletion_fr rfl s _ _ _ _))
  | ringEntryTake => exact .next (.of_frame (ringEntryTake_fr rfl s))
  | sqTail _ _ => exact onRing_answers (.of_frame (sqTailWrite_fr rfl s _ _)) (.refl s)
  | cqHead _ _ => exact onRing_answers (.of_frame (cqHeadWrite_fr rfl s _ _)) (.refl s)
  | ringEnable _ _ _ _ _ _ => exact onRing_answers (.of_frame (ringEnable_fr rfl s _ _ _ _ _ _)) (.refl s)
  | bar2WindowBase _ _ => exact .next (.of_frame (bar2WindowBase_fr rfl s _ _))
  | bar2Read _ _ => exact .next (.of_frame (bar2Read_fr rfl s _ _))
  | bar2Write _ _ _ => exact .next (.of_frame (bar2Write_fr rfl s _ _ _))
  | perstNAssert _ => exact .next (.filtered fun t => .of_stitch_frame (perstAssert_fr rfl t))
  | perstNDeassert => exact .next (.of_frame (perstDeassert_fr rfl s))
  -- The object dictionary (spec 16, 17)
  | odWrite | fwActivate => exact .next (.free ..)
  | bistForce => exact .next (odServe_bistForce_leaves s)
  | odRead | odSegRead | odSegWrite | odSegAbort | fwStageData | svnCommit | attestNonce | attestReport | debugToken
  | debugLock | bistRequest | calRequest | testMode | stackPpr | bistUnit _ =>
    exact .next (odServe_leaves (by decide) (by decide) (by decide) s)
  | segTransferTimeout _ => exact .next (.of_frame (segTimeout_fr rfl s _))
  | debugUnlockExpiry => exact .next (.ite (.refl s) (.of_frame (endUnlock_fr rfl s)))
  | mbDoorbell _ _ _ => exact .next (.of_frame (mbDoorbell_fr rfl s _ _ _))
  -- The field bus (spec 17)
  | jaolpenOpen _ => exact .next (.of_frame (jaolpenOpen_fr rfl s _))
  | jaolpenRequest _ => exact .next (.of_frame (jaolpenRequest_fr rfl s _))
  | jaolpenClose _ => exact .next (.of_frame (jaolpenClose_fr rfl s _))
  | sessionIdleTimeout _ => exact .next (.ite (.of_frame (endSession_fr rfl s _)) (.refl s))
  | neighborSolicitation | echoRequest _ => exact .next (.ite (.of_frame (State.send_fr rfl s _)) (.refl s))
  | plcaBeaconTimeout | plcaBeaconReceived => exact .next (.ite (.of_kept rfl rfl) (.refl s))
  -- Faults and fences (spec 20)
  | fence _ _ cause => exact onUnit_answers nofun fun u => .whenPowered (.of_stitch_frame (fence_fr rfl s u cause))
  | fenceNotice _ _ _ => exact onUnit_answers nofun fun u => .of_frame (fenceNotice_fr rfl s u _)
  | fenceAck _ _ _ => exact onUnit_answers nofun fun u => .of_frame (fenceAck_fr rfl s u _)
  | unfence block => exact .guard nofun (.of_frame (unfence_fr rfl s block))
  | memberExclude _ => exact .next (.of_stitch_frame (memberExclude_fr rfl s _))
  | controlCoreWatchdog _ => exact onCluster_answers nofun (.whenRunning (.of_stitch_frame (controlWatchdog_fr rfl s _)))
  | schedulerWatchdog => exact .next (.whenRunning (.after (.of_stitch_frame (fence_fr rfl _ _ _)) (.of_frame (countExpiry_fr rfl s _ _))))
  | schedulerResume => exact .next (.of_frame (unfence_fr rfl s 0x82))
  | schedulerLost => exact .next (.ite (.of_stitch_frame (endJobFault_fr rfl s _)) (.refl s))
  | powerWatchdog => exact .next (.ite (.after (.of_stitch_frame (fence_fr rfl _ _ _)) (.of_frame (countExpiry_fr rfl s _ _))) (.refl s))
  | powerCoreResume => exact .next (.of_frame (unfence_fr rfl s 0x83))
  | securityWatchdog => exact .next (.free ..)
  | resetNAssert _ => exact .next (.free ..)
  -- Boot and power (spec 16, 18)
  | boot _ _ _ => exact .next (.of_stitch_frame (boot_fr rfl s _ _ _))
  | processorReady => exact .next (.of_frame (processorReady_fr rfl s))
  | bootReadyTimeout => exact .next (.of_frame (bootReadyTimeout_fr rfl s))
  | pwrEnAssert _ => exact .next (.filtered fun t => .of_frame (pwrEnAssert_fr rfl t))
  | pwrEnDeassert _ => exact .next (.free ..)
  | pwrEnHoldoffExpiry | inputVoltageValid => exact .next (.after (.of_frame (tryPowerUp_fr rfl _)) (.of_kept rfl rfl))
  | inputVoltageTrip removed => exact .next (.free ..)
  | safeTrip _ _ => exact .next (.of_frame (safeTrip_fr rfl s _ _))
  | safeExit _ => exact .next (.of_frame (safeExit_fr rfl s _))
  | thermalShutdown => exact .next (.free ..)
  | powerLoopTick _ _ _ _ => exact .next (.whenPowered (.of_frame (powerTick_fr rfl s _ _ _ _)))
  | droopStretch _ _ => exact onCluster_answers nofun (.whenPowered (.of_kept rfl rfl))
  | stackTempReport _ _ _ => exact onStack_answers nofun (.whenPowered (.of_frame (stackReport_fr rfl s _ _ _)))
  -- Service (spec 11, 19)
  | patrolScrub _ _ _ _ => exact onStack_answers nofun (.of_frame (patrol_fr rfl s _ _ _ _))
  | bistSliceStart _ _ _ => exact onCluster_answers nofun (.of_frame (sliceStart_fr rfl s _ _ _))
  | bistSliceEnd _ _ _ _ => exact onCluster_answers nofun (.of_stitch_frame (sliceEnd_fr rfl s _ _ _ _))

/-- Settles O6: the commands outside each list leave the Welts, and the number. -/
theorem weltAndStitchNumberChangeOnlyHere : Obligations.WeltAndStitchNumberChangeOnlyHere := by
  constructor
  · intro c s t run
    have kept := ((exec_leaves c s).of_next run).welt
    cases c <;> exact kept
  · intro c s t run
    have kept := ((exec_leaves c s).of_next run).number
    cases c <;> exact kept

end Sys2Proof.Machine
end

section
/-! The state after reset (R12, R58, R393, R436, R458, R475). -/
namespace Sys2Proof.Machine

/-- Settles O3: nothing is listed, so every object, cell and ring has its reset value. -/
theorem resetState : Obligations.ResetState :=
  ⟨rfl, rfl, rfl, fun _ => rfl, fun _ => rfl, fun _ => ⟨rfl, rfl, rfl, rfl⟩, rfl, rfl, rfl⟩

end Sys2Proof.Machine
end

section
/-! HARNESS_OPs (R43, R57): what is staged until the commit, and answers under an armed snapshot, whose copies evict a line. -/
namespace Sys2Proof.Machine

/-! ### The port -/

section
variable {s : State} {c : Nat} {p : Piece} {i : Item} {op : SyncOp}

/-- R57: the port's next descriptor does its work. -/
theorem harnessCmd_of_runs (h : HarnessRuns s c p i op) : harnessCmd s c op = harnessWork s c p i op := by
  obtain ⟨-, running, next, idle, code, free⟩ := h
  simp [harnessCmd, running, next, idle, code, free]

/-- A piece with one more staged operation. -/
def Piece.withStaged (o : SyncChange) (p : Piece) : Piece :=
  { p with staged := { p.staged with ops := p.staged.ops ++ [o] } }

/-- A piece whose item of a slot is done. -/
def Piece.withDone (slot : Nat) (p : Piece) : Piece :=
  { p with items := updFirst (fun j => j.slot == slot && j.stage != .armed) (fun j => { j with stage := .done }) p.items }

/-- R43, R57: an operation that takes effect at the commit joins the piece's staged ones. -/
theorem harnessWork_of_staged (staged : op.staged = true) (s : State) (c : Nat) (p : Piece) (i : Item) :
    harnessWork s c p i op = itemDone (s.updPiece c
      (.withStaged { obj := fld i.word 24 8, op := op.code, operand := fld i.word 191 128 })) c i.slot := by
  cases op with
  | add | set | eventSet | eventClear | arrive | post => rfl
  | read | waitGe | eventWait | barrierWait | arriveWait | take | tryTake => cases staged

/-- The next descriptor of a unit is found again by its slot. -/
theorem find?_slot_isSome {u : CellUnit} (next : unitNext p u = some i) :
    (p.items.find? fun j => j.slot == i.slot && j.stage != .armed).isSome = true := by
  have queued := List.find?_some next
  simp only [Bool.and_eq_true, decide_eq_true_eq] at queued
  obtain ⟨-, queued⟩ := queued
  rw [List.find?_isSome]
  refine ⟨i, List.mem_of_find?_eq_some next, ?_⟩
  rcases queued with h | h <;> simp [h]

end

/-- Each staged operation has a row of its own. -/
theorem exec_stagedOp {op : SyncOp} {ctor : Nat → Instr} (row : (op, ctor) ∈ stagedOps) {c : Nat} (hc : c < cellCount)
    (s : State) : op.staged = true ∧ exec (ctor c) s = .next (harnessCmd s c op) := by
  have next (op : SyncOp) : onCell c s (fun s => harnessCmd s c op) = .next (harnessCmd s c op) := if_pos hc
  simp only [stagedOps, List.mem_cons, Prod.mk.injEq, List.not_mem_nil, or_false] at row
  rcases row with ⟨rfl, rfl⟩ | ⟨rfl, rfl⟩ | ⟨rfl, rfl⟩ | ⟨rfl, rfl⟩ | ⟨rfl, rfl⟩ | ⟨rfl, rfl⟩ <;> exact ⟨rfl, next _⟩

/-- Settles O15: the operation joins the staged ones of the piece, and its item is done. -/
theorem stagedHarnessOpsWaitForTheCommit : Obligations.StagedHarnessOpsWaitForTheCommit := by
  intro op ctor row s c p i runs
  obtain ⟨hc, running, next, -⟩ := id runs
  obtain ⟨staged, run⟩ := exec_stagedOp row hc s
  rw [run, harnessCmd_of_runs runs, harnessWork_of_staged staged]
  generalize SyncChange.mk (fld i.word 24 8) op.code (fld i.word 191 128) = o
  have held : (s.cell c).piece = some p := State.piece_of_pieceOf running
  have joined : ((s.updPiece c (.withStaged o)).cell c).piece = some (p.withStaged o) := by
    rw [State.cell_updPiece_same, held]
    rfl
  obtain ⟨j, found⟩ := Option.isSome_iff_exists.mp (find?_slot_isSome next)
  refine ⟨_, (p.withStaged o).withDone i.slot, rfl, rfl, fun d other => ?_, ?_, ?_, rfl⟩
  · exact (cell_updItem_other _ _ _ _ _ other).trans (State.cell_updPiece_other s _ _ _ other)
  · rw [itemDone, updItem, State.cell_updPiece_same, State.cell_updPiece_same, held]
    rfl
  · exact (itemStage_updItem_stage joined fun _ => rfl).trans (congrArg _ found)

end Sys2Proof.Machine
end

section
/-! HARNESS_OPs that answer (R57) under an armed snapshot: the copy before the result is stored (R270) loads stack memory,
and a load can evict a line. -/
namespace Sys2Proof.Machine

/-- A HARNESS_OP of an operation on object 0, its result in the first 8 bytes of the scratchpad of cell 0. -/
def answerWord (op : SyncOp) : Nat := ofFields [(0, 0x51), (25, op.code), (30, 1), (32, spOf 0)]

/-- The module of `cachesPoisonedWord`, its object 0 a counter of context 1 at zero. -/
def cachesBesideCounter : State :=
  { cachesPoisonedWord with sync := [(0, { SyncObj.free with kind := .counter, ctx := 1 })] }

/-- A HARNESS_OP that its piece has handed out, and that is queued or waits with a reply. -/
def answeringItem (op : SyncOp) (stage : Stage) (reply : Option Nat) : Item :=
  { queuedItem (answerWord op) with stage := stage, reply := reply }

/-- A running piece of context 1 with that one descriptor. -/
def answeringPiece (op : SyncOp) (stage : Stage) (reply : Option Nat) : Piece :=
  { pieceOfOne (answerWord op) with items := [answeringItem op stage reply] }

/-- That module with that piece on cell 0, and a snapshot armed that protects where the result goes. -/
def answersUnderSnapshot (op : SyncOp) (stage : Stage) (reply : Option Nat) : State :=
  { underSnapshot cachesBesideCounter 0 with
    cells := [(0, { Cell.init with piece := some (answeringPiece op stage reply) })] }

section
variable {op : SyncOp} {stage : Stage} {reply : Option Nat}

/-- The result goes to the scratchpad of the running cell. -/
theorem answerWord_result (answers : op ∈ [.read, .waitGe]) :
    bit (answerWord op) 30 = true ∧ fld (answerWord op) 73 32 = spOf 0 := by
  simp only [List.mem_cons, List.not_mem_nil, or_false] at answers
  rcases answers with rfl | rfl <;> decide +kernel

/-- The sector of the result is not poisoned before; no staging and no line in the cache holds it. -/
theorem answersUnderSnapshot_before (op : SyncOp) (stage : Stage) (reply : Option Nat) :
    let s := answersUnderSnapshot op stage reply
    s.poisonAt (spOf 0) = false ∧ ¬ sharesSector (stagings s) (spOf 0) ∧
      ∀ e ∈ s.cache, ∀ l ∈ e.2, l.line ≠ spOf 0 / 256 := by
  simp only [answersUnderSnapshot, stagings, underSnapshot, cachesBesideCounter, State.poisonAt]
  decide +kernel

/-- An answer does not leave the sector of its result poisoned. -/
theorem not_harnessAnswers {t : State} {v : Nat} (answers : op ∈ [.read, .waitGe]) (poisoned : t.poisonAt (spOf 0) = true) :
    ¬ HarnessAnswers (answersUnderSnapshot op stage reply) t 0 (answeringItem op stage reply) v := by
  rintro ⟨-, back⟩
  obtain ⟨enabled, place⟩ := answerWord_result answers
  obtain ⟨clean, unstaged, uncached⟩ := answersUnderSnapshot_before op stage reply
  have back := back enabled (by rw [answeringItem, queuedItem, place]; decide +kernel)
  rw [answeringItem, queuedItem, place] at back
  have unpoisoned := back.poisonAt_eq_false (by decide) unstaged uncached clean rfl
  exact Bool.false_ne_true (unpoisoned.symm.trans poisoned)

end

/-- The READ and the WAIT_GE pass the check at their hand-out, and run. -/
theorem answersUnderSnapshot_runs :
    (∀ op ∈ [SyncOp.read, .waitGe],
      HarnessRuns (answersUnderSnapshot op .queued none) 0 (answeringPiece op .queued none) (answeringItem op .queued none) op ∧
        checkDesc (answersUnderSnapshot op .queued none) 0 (answeringPiece op .queued none) (answerWord op) = none) ∧
      ((answersUnderSnapshot .waitGe .queued none).obj (fld (answerWord .waitGe) 24 8)).holds
        (.ge (fld (answerWord .waitGe) 191 128 % 2 ^ 48)) = true := by
  decide +kernel

/-- Each answer poisons the sector of its result. -/
theorem answersUnderSnapshot_after :
    (∀ op ∈ [SyncOp.read, .waitGe],
      (harnessCmd (answersUnderSnapshot op .queued none) 0 op).poisonAt (spOf 0) = true) ∧
      (waitRelease (answersUnderSnapshot .waitGe .waiting (some 0)) 0 16 1).poisonAt (spOf 0) = true := by
  decide +kernel

theorem exec_harnessOp {c : Nat} (hc : c < cellCount) (s : State) :
    exec (.harnessOpRead c) s = .next (harnessCmd s c .read) ∧
      exec (.harnessOpWaitGe c) s = .next (harnessCmd s c .waitGe) := ⟨if_pos hc, if_pos hc⟩

theorem exec_syncWaitRelease {c : Nat} (hc : c < cellCount) (u n : Nat) (s : State) :
    exec (.syncWaitRelease c u n) s = .next (waitRelease s c u n) := if_pos hc

/-- Refutes O16: READ, at a state whose cache holds a poisoned word of the channel listed for a ninth sector of a line, which
is the sector of the result. An armed snapshot protects the result's place, the copy of its block loads stack memory, and the
load evicts that line and poisons the sector before the 8 bytes are stored in a part of it. The statement takes every state,
and asks nothing of the cache's form. -/
theorem not_harnessReadsAndTakes : ¬ Obligations.HarnessReadsAndTakes := by
  intro h
  obtain ⟨runs, -⟩ := answersUnderSnapshot_runs
  obtain ⟨poisons, -⟩ := answersUnderSnapshot_after
  obtain ⟨read, -⟩ := h (answersUnderSnapshot .read .queued none) 0 _ _
  obtain ⟨t, run, -, answers, -⟩ := read (runs .read (by simp)).1
  rw [(exec_harnessOp (by decide) _).1] at run
  cases run
  exact not_harnessAnswers (by simp) (poisons .read (by simp)) answers

/-- Refutes O17: a WAIT_GE of zero, which answers at once, as O16. -/
theorem not_harnessWaitsJoinOrAnswer : ¬ Obligations.HarnessWaitsJoinOrAnswer := by
  rintro ⟨waits, -⟩
  obtain ⟨runs, holds⟩ := answersUnderSnapshot_runs
  obtain ⟨poisons, -⟩ := answersUnderSnapshot_after
  obtain ⟨t, run, -, outcome⟩ := waits .waitGe .harnessOpWaitGe (fun v => .ge (v % 2 ^ 48)) (by simp [waitOps])
    (answersUnderSnapshot .waitGe .queued none) 0 _ _ (runs .waitGe (by simp)).1
  rw [(exec_harnessOp (by decide) _).2] at run
  obtain rfl := Host.Outcome.next.inj run
  rw [answeringItem, queuedItem, if_pos holds] at outcome
  obtain ⟨-, answers⟩ := outcome
  exact not_harnessAnswers (by simp) (poisons .waitGe (by simp)) answers

/-- Refutes O18: the release of a wait whose reply has come, as O16. -/
theorem not_waitReleaseFarUpdateAndFrames : ¬ Obligations.WaitReleaseFarUpdateAndFrames := by
  rintro ⟨release, -⟩
  obtain ⟨-, poisons⟩ := answersUnderSnapshot_after
  obtain ⟨t, run, -, -, -, answers, -⟩ := release (answersUnderSnapshot .waitGe .waiting (some 0)) 0 16 1
    (answeringPiece .waitGe .waiting (some 0)) (answeringItem .waitGe .waiting (some 0)) (by decide) (by decide +kernel) (by decide +kernel)
  rw [exec_syncWaitRelease (by decide)] at run
  cases run
  exact not_harnessAnswers (by simp) poisons (answers rfl)

end Sys2Proof.Machine
end

section
/-! STITCH_PERIOD_US and LEASE_TIMEOUT (R27, R143, R483): entries without a rule of their own, whose values have a range. -/
namespace Sys2Proof.Machine

/-- R483: a value that its entry does not admit is refused. -/
theorem odWrite_of_not_admits {s : State} {b : OdBlk} {e : OdEntry} {data : List Byte} (right : e.right = .rwi)
    (domain : e.ty ≠ .domain) (size : data.length = e.ty.size) (short : data.length ≤ 255) (idle : s.job.state = .idle)
    (illegal : e.admits (leNat data) = false) (w : Who) (fs : List Fail) :
    odWrite s w b e data fs = .result s OdRes.outOfRange := by
  have fits : ¬(e.ty = .domain ∨ (e.ty ≠ .vstr ∧ data.length ≠ e.ty.size) ∨ 255 < data.length) := by
    rintro (c | ⟨-, c⟩ | c)
    · exact domain c
    · exact c size
    · omega
  have writable : ¬(e.right = .ro ∨ e.right = .const) := by simp [right]
  have free : ¬(e.right = .rwi ∧ s.job.state ≠ .idle) := fun c => c.2 idle
  unfold odWrite
  dsimp only
  rw [if_neg writable, if_neg fits, if_neg free, illegal]
  rfl

/-- A WRITE, while the module is idle, of an unruled entry of type U and right RWI that admits the values of a range: a value
in the range is kept, and one outside it is refused. -/
theorem odWrite_keepsRange {e : OdEntry} {index size lo hi : Nat} (unruled : index ∉ ruledEntries) (ty : e.ty = .u size)
    (right : e.right = .rwi) (small : size ≤ 255) (range : ∀ v, e.admits v = true ↔ lo ≤ v ∧ v ≤ hi) {s : State} {q : OdReq}
    {rest : List OdReq} (takes : OdTakes s .write q rest e) (op : (OdBlk.ofWord q.block).op = 0x31)
    (hindex : (OdBlk.ofWord q.block).index = index) (hsub : (OdBlk.ofWord q.block).sub = 0)
    (length : (odData s q (OdBlk.ofWord q.block)).1.length = size) (idle : s.job.state = .idle) :
    let v := leNat (odData s q (OdBlk.ofWord q.block)).1
    (lo ≤ v ∧ v ≤ hi → OdDone .odWrite s q ((served s rest).odSet index 0 v) [] 0) ∧
      (v < lo ∨ hi < v → exec .odWrite s =
        .next (odAnswer q (OdBlk.ofWord q.block) (OdAns.result (served s rest) OdRes.outOfRange))) := by
  intro v
  have domain : e.ty ≠ .domain := by simp [ty]
  have fits : (odData s q (OdBlk.ofWord q.block)).1.length = e.ty.size := by rw [length, ty, OdType.size]
  constructor
  · intro legal
    have writes : OdWrites s .write q rest e index 0 v :=
      ⟨takes, op, hindex, hsub, ⟨by simp [right], by simp [right], domain, fun _ => fits, by omega, fun _ => idle,
        (range v).mpr legal⟩, rfl⟩
    have other : index ≠ 0x9004 := fun c => unruled (c ▸ by decide)
    exact congrArg Host.Outcome.next (odServe_write_ok writes other [] (odApply_unruled unruled _ _ _ _))
  · intro outside
    have illegal : e.admits v = false := Bool.eq_false_iff.mpr fun c => by have := (range v).mp c; omega
    refine congrArg Host.Outcome.next (odServe_of_run takes [] ?_ rfl)
    rw [odRun_write op]
    exact odWrite_of_not_admits (s := served s rest) right domain fits (by omega) idle illegal q.who []

/-- An entry of one range of consecutive legal values admits those. -/
theorem admits_row_range (index lo hi n : Nat) (v : Nat) :
    (OdEntry.row index 0 0 (.u n) .rwi [(lo, hi, 1)]).admits v = true ↔ lo ≤ v ∧ v ≤ hi := by
  simp [OdEntry.admits, OdEntry.row, Nat.mod_one]

/-- Settles O60: both are unruled entries of one range. -/
theorem periodAndLeaseTimeoutKeepTheirRange : Obligations.PeriodAndLeaseTimeoutKeepTheirRange := by
  intro index size dflt lo hi row
  simp only [List.mem_cons, Prod.mk.injEq, List.not_mem_nil, or_false] at row
  rcases row with ⟨rfl, rfl, rfl, rfl, rfl⟩ | ⟨rfl, rfl, rfl, rfl, rfl⟩
  · refine ⟨.row 0x5002 0 0 (.u 4) .rwi [(20, 20000, 1)], by decide, rfl, rfl, by decide, by decide,
      admits_row_range 0x5002 20 20000 4, fun s q rest takes op hindex hsub length idle => ?_, fun _ s => rfl⟩
    exact odWrite_keepsRange (by decide) rfl rfl (by decide) (admits_row_range 0x5002 20 20000 4) takes op hindex hsub length idle
  · refine ⟨.row 0x5008 0 0 (.u 1) .rwi [(6, 64, 1)], by decide, rfl, rfl, by decide, by decide,
      admits_row_range 0x5008 6 64 1, fun s q rest takes op hindex hsub length idle => ?_, nofun⟩
    exact odWrite_keepsRange (by decide) rfl rfl (by decide) (admits_row_range 0x5008 6 64 1) takes op hindex hsub length idle

end Sys2Proof.Machine
end

section
/-! The Stitch edge (R29, R34, R397): which number it takes, and what the rest of an edge leaves of the number and of the wish to
begin again at 0. -/
namespace Sys2Proof.Machine

/-! ### What a frame says of the Stitch and of the job -/

theorem stitch_of_frame {s t : State} {M : Nat} (shown : M.testBit 7 = false) (frame : t.hide M = s.hide M) : t.stitch = s.stitch := by
  have same := congrArg State.stitch frame
  simpa only [State.hide, shown, cond_false] using same

theorem job_of_frame {s t : State} {M : Nat} (shown : M.testBit 8 = false) (frame : t.hide M = s.hide M) : t.job = s.job := by
  have same := congrArg State.job frame
  simpa only [State.hide, shown, cond_false] using same

/-! ### The number is set by the watch on markers alone -/

/-- An edge up to what it does for a job: the watch on markers with the number of the edge, and the upkeep that every edge brings. -/
def edgeBegun (s : State) : State := dropSlices (endIdle { rejoinBlocks (watchMarkers s (nextCount s)) with offset := 0 })

/-- An edge with what it does for a job: the module becomes owned, and an owned one hands out cells. -/
def edgeOfJob (s : State) : State :=
  let u := if s.job.zeroAtEdge && adopted s then jobOwned (edgeBegun s) else edgeBegun s
  if u.job.state = .owned then jobEdge u else u

theorem edge_eq (s : State) :
    edge s = rootMarker (resumePorts (edgeOfJob s) ((List.range 48).filter fun p => (s.port p).idle.isSome)) := rfl

theorem stitch_jobOwned (s : State) : (jobOwned s).stitch = s.stitch :=
  stitch_of_frame rfl (jobOwned_fr (M := 0x4010380370) rfl s rfl)

theorem stitch_jobEdge (s : State) : (jobEdge s).stitch = s.stitch :=
  stitch_of_frame rfl (jobEdge_fr (M := 0x400042b13f0b70) rfl s rfl)

theorem stitch_endIdle (s : State) : (endIdle s).stitch = s.stitch :=
  stitch_of_frame rfl (endIdle_fr (M := 0x41000000) rfl s rfl)

theorem job_endIdle (s : State) : (endIdle s).job = s.job :=
  job_of_frame rfl (endIdle_fr (M := 0x41000000) rfl s rfl)

theorem dropSlices_frame (s : State) : dropSlices s = { s with phys := (dropSlices s).phys } := rfl

theorem stitch_edgeBegun (s : State) : (edgeBegun s).stitch = (watchMarkers s (nextCount s)).stitch := by
  unfold edgeBegun
  rw [dropSlices_frame]
  dsimp only
  rw [stitch_endIdle]
  rfl

theorem stitch_edgeOfJob (s : State) : (edgeOfJob s).stitch = (watchMarkers s (nextCount s)).stitch := by
  have works (u : State) : (if u.job.state = .owned then jobEdge u else u).stitch = u.stitch := by
    split
    · exact stitch_jobEdge u
    · rfl
  unfold edgeOfJob
  dsimp only
  rw [works]
  split
  · rw [stitch_jobOwned, stitch_edgeBegun]
  · exact stitch_edgeBegun s

theorem stitch_edge (s : State) : (edge s).stitch = (watchMarkers s (nextCount s)).stitch := by
  have sends : (edge s).stitch = (edgeOfJob s).stitch :=
    stitch_of_frame rfl (rootMarker_fr (M := 0x40000001000000) rfl _ (resumePorts_fr rfl (edgeOfJob s) _ rfl))
  rw [sends, stitch_edgeOfJob]

/-- R34, R35: what the watch on markers leaves of the Stitch. -/
theorem stitch_watchMarkers (s : State) (n : Nat) :
    (watchMarkers s n).stitch =
      { s.stitch with
        count := n
        lost := s.stitch.lost && !(s.stitch.lost && s.stitch.markers.any fun m => m.1 == n)
        holdover := (decide (s.job.mode ≠ 0) && s.stitch.root != s.moduleId) && !s.stitch.markers.any fun m => m.1 == n
        markers := s.stitch.markers.filter fun m => decide (n < m.1)
        quiet := if decide (s.job.mode ≠ 0) && s.stitch.root != s.moduleId then s.stitch.quiet + 1 else 0
        standbyIn := s.stitch.standbyIn - 1 } := by
  have same (k : Nat) : (s.odAdd 0x8014 0 k).moduleId = s.moduleId := State.odGet_odAdd_other s _ _ _ _ _ (by decide)
  unfold watchMarkers
  dsimp only
  rw [same]
  split
  · rw [stitch_logEvent]
    rfl
  · rfl

theorem number_edge (s : State) : (edge s).stitch.count = nextCount s := by
  rw [stitch_edge, stitch_watchMarkers]

theorem nextCount_of_opens {s : State} (opens : s.job.zeroAtEdge = true) (adopts : adopted s = true) : nextCount s = 0 := by
  simp [nextCount, opens, adopts]

theorem nextCount_of_runs {s : State} (runs : (s.job.zeroAtEdge && adopted s) = false)
    (heard : s.stitch.lost = false ∨ s.stitch.markers = []) : nextCount s = s.stitch.count + 1 := by
  unfold nextCount
  rw [runs]
  obtain found | silent := heard
  · simp [found]
  · simp [silent]

/-! ### Once a job is owned, no part of an edge wishes for number 0 again -/

theorem job_foldl {α : Type} {f : State → α → State} (keeps : ∀ s a, (f s a).job = s.job) (l : List α) (s : State) :
    (l.foldl f s).job = s.job := by
  induction l generalizing s with
  | nil => rfl
  | cons a l ih => rw [List.foldl_cons, ih, keeps]

theorem job_complete (s : State) (id status : Nat) (d : Details) : (complete s id status d).job = s.job :=
  job_of_frame rfl (complete_frame s id status d)

theorem zeroAtEdge_takePattern (s : State) : (takePattern s).job.zeroAtEdge = s.job.zeroAtEdge := by
  unfold takePattern
  split
  · rfl
  · rw [job_foldl fun _ _ => job_complete .., job_complete]

theorem zeroAtEdge_hotSetEdge (s : State) : (hotSetEdge s).job.zeroAtEdge = s.job.zeroAtEdge := by
  unfold hotSetEdge
  extract_lets ws p blocked d counted job noted
  have loads : p.s.job = s.job := job_of_frame rfl (tryLoads_fr (M := 0x4010290270) rfl ws
    { s := s, loads := [], bytes := 0, moved := [], blocked := false } rfl)
  have blocks : blocked.job = p.s.job := by
    show (if p.blocked then p.s.odAdd 0x8073 0 1 else p.s).job = _
    split
    · rfl
    · rfl
  split
  · rw [blocks, loads]
  · rw [job_foldl fun t c => job_of_frame rfl (State.updCtx_fr (M := 0x80000) rfl t c _ rfl)]
    show blocked.job.zeroAtEdge = _
    rw [blocks, loads]

theorem zeroAtEdge_jobEdge (s : State) : (jobEdge s).job.zeroAtEdge = s.job.zeroAtEdge := by
  have ages (t : State) : (ageLeases t).job = t.job := rfl
  have swaps (t : State) : (swapsDue t).job = t.job := job_of_frame rfl (swapsDue_fr (M := 0x4010380270) rfl t rfl)
  have takes (t : State) : (if t.job.pending.any fun p => decide (p.pat.start ≤ t.stitch.count) then takePattern t else t).job.zeroAtEdge =
      t.job.zeroAtEdge := by
    split
    · exact zeroAtEdge_takePattern t
    · rfl
  have unclaims (t : State) (c : Nat) : (unclaim t c).job = t.job :=
    job_of_frame rfl (unclaim_fr (M := 0x80200) rfl t c rfl)
  have decides (e : Nat × List Nat) (t : State) (c : Nat) : (overrunDecide t e c).job = t.job :=
    job_of_frame rfl (overrunDecide_fr (M := 0x400000802e0a40) rfl t e c rfl)
  have notes (t : State) : (noteGathers t).job = t.job := job_of_frame rfl (noteGathers_fr (M := 0x80000) rfl t rfl)
  have loads (t : State) : (if t.schedDown then t else hotSetEdge t).job.zeroAtEdge = t.job.zeroAtEdge := by
    split
    · rfl
    · exact zeroAtEdge_hotSetEdge t
  have hands (t : State) (e : Nat × List Nat) : (handOutCells t e).job.zeroAtEdge = t.job.zeroAtEdge := rfl
  have defers (t : State) : (countDeferral t).job = t.job := rfl
  have refuses (t : State) : (refuseLate t).job = t.job := job_of_frame rfl (refuseLate_fr (M := 0x4010380270) rfl t rfl)
  have starts (t : State) (p : Pattern) : (startCalibrations t p).job = t.job :=
    job_of_frame rfl (startCalibrations_fr (M := 0x21000000) rfl t p rfl)
  have points (t : State) (e : Nat) : (applyPoint t e).job = t.job :=
    job_of_frame rfl (applyPoint_fr (M := 0x200000000) rfl t e rfl)
  unfold jobEdge
  dsimp only
  split
  · rw [points, starts, refuses, defers, hands, swaps, loads, notes, job_foldl (decides _), job_foldl unclaims, takes, swaps, ages]
  · rw [takes, swaps, ages]

theorem job_edgeBegun (s : State) : (edgeBegun s).job = s.job := by
  have watches : (watchMarkers s (nextCount s)).job = s.job := job_of_frame rfl (watchMarkers_fr (M := 0xc0) rfl s _ rfl)
  unfold edgeBegun
  rw [dropSlices_frame]
  dsimp only
  rw [job_endIdle]
  exact watches

theorem zeroAtEdge_jobOwned {s : State} {id : Nat} (opening : s.job.openCmd = some id) : (jobOwned s).job.zeroAtEdge = false := by
  unfold jobOwned
  rw [opening]
  dsimp only
  rw [job_complete]

/-- R397: the first edge at which all have adopted the job begins no other at 0. -/
theorem zeroAtEdge_edge_of_opens {s : State} {id : Nat} (opens : s.job.zeroAtEdge = true) (adopts : adopted s = true)
    (opening : s.job.openCmd = some id) : (edge s).job.zeroAtEdge = false := by
  have sends : (edge s).job = (edgeOfJob s).job :=
    job_of_frame rfl (rootMarker_fr (M := 0x40000001000000) rfl _ (resumePorts_fr rfl (edgeOfJob s) _ rfl))
  have owned : (jobOwned (edgeBegun s)).job.zeroAtEdge = false :=
    zeroAtEdge_jobOwned (show (edgeBegun s).job.openCmd = some id by rw [job_edgeBegun, opening])
  rw [sends]
  unfold edgeOfJob
  dsimp only
  rw [opens, adopts, Bool.and_self, if_pos rfl]
  split
  · rw [zeroAtEdge_jobEdge, owned]
  · exact owned

/-! ### Which rows make an edge -/

theorem exec_stitchEdge (s : State) : exec .stitchEdge s = .next (whenPowered s stitchEdge) := rfl

theorem exec_stitchInEdge (s : State) (us : Nat) : exec (.stitchInEdge us) s = .next (stitchInEdge s us) := rfl

/-- R29: a module with power whose STITCH_IN is not in use makes the edge itself. -/
theorem exec_stitchEdge_of_own {s : State} (rails : s.power.rails = true)
    (own : ¬(s.odGet 0x5001 0 = 0 ∧ s.odGet 0x7010 0 = 1)) : exec .stitchEdge s = .next (edge s) := by
  rw [exec_stitchEdge, whenPowered, if_pos rails, stitchEdge, if_neg own]

/-- A state in which an edge on STITCH_IN, so long after the one before, finds the module: the late one is counted, and the
module no longer lost. -/
def heardIn (s : State) (us : Nat) : State :=
  let s := if s.periodUs < us then s.odAdd 0x8015 0 1 else s
  { s with stitch := { s.stitch with lost := false } }

theorem heardIn_frame (s : State) (us : Nat) :
    heardIn s us = { s with od := (heardIn s us).od, stitch := { s.stitch with lost := false } } := by
  unfold heardIn
  dsimp only
  split
  · rfl
  · rfl

/-- R31: an edge on STITCH_IN that is not early makes an edge; where the module was lost, it is told that it no longer is. -/
theorem stitchInEdge_of_due {s : State} {us : Nat} (alone : s.odGet 0x5001 0 = 0) (pin : s.odGet 0x7010 0 = 1) (due : s.periodUs ≤ us) :
    stitchInEdge s us = if s.stitch.lost then
      logEvent (edge (heardIn s us)) .stitchRegained srcModule 0 (edge (heardIn s us)).stitch.count 0 else edge (heardIn s us) := by
  have was : (if s.periodUs < us then s.odAdd 0x8015 0 1 else s).stitch = s.stitch := by
    split
    · rfl
    · rfl
  unfold stitchInEdge
  rw [if_neg (by simp [alone, pin]), if_neg (Nat.not_lt.mpr due)]
  dsimp only
  rw [was]
  unfold heardIn
  dsimp only
  rw [was]

theorem stitch_stitchInEdge_of_due {s : State} {us : Nat} (alone : s.odGet 0x5001 0 = 0) (pin : s.odGet 0x7010 0 = 1)
    (due : s.periodUs ≤ us) : (stitchInEdge s us).stitch = (edge (heardIn s us)).stitch := by
  rw [stitchInEdge_of_due alone pin due]
  split
  · rw [stitch_logEvent]
  · rfl

theorem job_stitchInEdge_of_due {s : State} {us : Nat} (alone : s.odGet 0x5001 0 = 0) (pin : s.odGet 0x7010 0 = 1)
    (due : s.periodUs ≤ us) : (stitchInEdge s us).job = (edge (heardIn s us)).job := by
  rw [stitchInEdge_of_due alone pin due]
  split
  · rw [logEvent_eq]
  · rfl

theorem job_heardIn (s : State) (us : Nat) : (heardIn s us).job = s.job := by rw [heardIn_frame]

theorem stitch_heardIn (s : State) (us : Nat) : (heardIn s us).stitch = { s.stitch with lost := false } := by rw [heardIn_frame]

theorem adopted_heardIn (s : State) (us : Nat) : adopted (heardIn s us) = adopted s := by
  rw [heardIn_frame]
  rfl

/-! ### A job open whose checks pass -/

theorem tellDigest_frame (s : State) (d : Nat) : tellDigest s d = { s with outbox := (tellDigest s d).outbox } := by
  unfold tellDigest
  split
  · rfl
  · rfl

theorem tellOpen_frame (s : State) (d : JobD) : tellOpen s d = { s with outbox := (tellOpen s d).outbox } := by
  have twice (t : State) (a b : Nat) :
      tellDigest (tellDigest t a) b = { t with outbox := (tellDigest (tellDigest t a) b).outbox } := by
    rw [tellDigest_frame (tellDigest t a), tellDigest_frame t]
  unfold tellOpen
  split
  · exact tellDigest_frame ..
  · dsimp only
    split
    · rw [tellDigest_frame, twice]
    · exact twice ..

/-- R397: the checks of a job open do not read what has been sent. -/
theorem openChecks_tellOpen (s : State) (d : JobD) (p : Peers) : openChecks (tellOpen s d) d p = openChecks s d p := by
  rw [tellOpen_frame]
  rfl

theorem jobOpen_of_checked {s : State} {id : Nat} {c : Cmd} {p : Peers} {ms rs cs : List Nat} {pat : Pattern}
    (taken : Taken s id 0x01 c) (opening : s.job.openCmd = some id) (allowed : openDenied s = false)
    (checked : openChecks s (JobD.ofWord c.entry) p = some (ms, rs, cs, pat)) :
    jobOpen s id p = adopt (tellOpen s (JobD.ofWord c.entry)) (JobD.ofWord c.entry) p ms rs cs pat id := by
  obtain ⟨found, opcode, stage⟩ := taken
  unfold jobOpen
  rw [found]
  dsimp only
  rw [if_neg (by simp [opcode, stage]), if_neg (by simp [opening]), if_neg (by simp [allowed]), openChecks_tellOpen, checked]

section
variable (s : State) (d : JobD) (p : Peers) (ms rs cs : List Nat) (pat : Pattern) (id : Nat)

theorem zeroAtEdge_adopt : (adopt s d p ms rs cs pat id).job.zeroAtEdge = true := rfl

theorem openCmd_adopt : (adopt s d p ms rs cs pat id).job.openCmd = some id := rfl

theorem power_adopt : (adopt s d p ms rs cs pat id).power = s.power :=
  (congrArg State.power (adopt_fr (M := 0x4000229e22f9c0) rfl s d p ms rs cs pat id rfl) :)

/-- Opening a job takes no firmware processor down and lets none rejoin. -/
theorem adopted_jobOpen (q : Peers) : adopted (jobOpen s id q) = adopted s := by
  have frame := jobOpen_fr (M := 0x4000629e3afbf0) rfl s id q rfl
  have sched : (jobOpen s id q).schedDown = s.schedDown := (congrArg State.schedDown frame :)
  have power : (jobOpen s id q).powerDown = s.powerDown := (congrArg State.powerDown frame :)
  have blocks : (jobOpen s id q).blocks = s.blocks := (congrArg State.blocks frame :)
  unfold adopted State.block
  rw [sched, power, blocks]
end

/-- R29: the first edge at which all have adopted a job, of the module's own generator or on STITCH_IN, sets the number to 0. -/
theorem firstEdge_of_opens {t : State} {id : Nat} (opens : t.job.zeroAtEdge = true) (opening : t.job.openCmd = some id)
    (adopts : adopted t = true) : (edge t).stitch.count = 0 ∧ (edge t).job.zeroAtEdge = false :=
  ⟨by rw [number_edge, nextCount_of_opens opens adopts], zeroAtEdge_edge_of_opens opens adopts opening⟩

/-- Settles O59: the number of an edge is the one the watch on markers takes, and only a job that opens wishes for 0. -/
theorem stitchNumberStartsAtZeroAndCountsEdges : Obligations.StitchNumberStartsAtZeroAndCountsEdges := by
  refine ⟨fun s id c p ms rs cs pat taken opening allowed checked => ?_, fun s runs heard => ⟨fun rails own => ?_,
    fun alone pin us due => ?_⟩, ⟨.row 0x5006 0 0 (.u 8) .ro, by decide, rfl, rfl, fun s => rfl⟩⟩
  · have opened := jobOpen_of_checked taken opening allowed checked
    refine ⟨jobOpen s id p, rfl, by rw [opened, zeroAtEdge_adopt], adopted_jobOpen s id p, fun adopts rails own => ?_,
      fun adopts alone pin us due => ?_⟩
    all_goals
      have zero : (jobOpen s id p).job.zeroAtEdge = true := by rw [opened, zeroAtEdge_adopt]
      have cmd : (jobOpen s id p).job.openCmd = some id := by rw [opened, openCmd_adopt]
      rw [← adopted_jobOpen s id p] at adopts
    · have powered : (jobOpen s id p).power.rails = true := by
        rw [opened, power_adopt, tellOpen_frame]
        exact rails
      exact ⟨_, exec_stitchEdge_of_own powered own, firstEdge_of_opens zero cmd adopts⟩
    · refine ⟨_, exec_stitchInEdge _ us, ?_⟩
      rw [stitch_stitchInEdge_of_due alone pin due, job_stitchInEdge_of_due alone pin due]
      exact firstEdge_of_opens (by rw [job_heardIn, zero]) (by rw [job_heardIn, cmd]) (by rw [adopted_heardIn, adopts])
  · exact ⟨_, exec_stitchEdge_of_own rails own, by rw [number_edge, nextCount_of_runs runs heard]⟩
  · refine ⟨_, exec_stitchInEdge _ us, ?_⟩
    rw [stitch_stitchInEdge_of_due alone pin due, number_edge,
      nextCount_of_runs (by rw [job_heardIn, adopted_heardIn, runs]) (.inl (by rw [stitch_heardIn])), stitch_heardIn]

end Sys2Proof.Machine
end

section
/-! The end of a job (R398): no cell keeps a piece, and every command of the job ends. -/
namespace Sys2Proof.Machine

/-! ### What the end of a job only brings nearer -/

/-- The number and the ring of every command. -/
def State.tags (s : State) : List (Nat × Nat) := s.cmds.map fun c => (c.id, c.ring)

/-- Commands of a number have ended, or one of them came by another ring than the dictionary's: the end of a job ends them all. -/
def Ends (s : State) (id : Nat) : Prop := (∀ r, (id, r) ∉ s.tags) ∨ ∃ r, r ≠ 1025 ∧ (id, r) ∈ s.tags

/-- From s to t no cell without a piece gets one, and what the end of a job ends stays so. -/
structure Winds (s t : State) : Prop where
  idle : ∀ c, s.pieceOf c = none → t.pieceOf c = none
  ends : ∀ id, Ends s id → Ends t id

theorem ends_congr {s t : State} (tags : t.tags = s.tags) (id : Nat) (h : Ends s id) : Ends t id := by
  unfold Ends
  rw [tags]
  exact h

theorem pieceOf_congr {s t : State} (cells : t.cells = s.cells) (blocks : t.blocks = s.blocks) (c : Nat) :
    t.pieceOf c = s.pieceOf c := by
  unfold State.pieceOf State.cellDown State.cell State.block
  rw [cells, blocks]

/-- A cell without a piece runs none. -/
theorem pieceOf_of_piece_none {s : State} {c : Nat} (blank : (s.cell c).piece = none) : s.pieceOf c = none := by
  rw [State.pieceOf, blank, ite_self]

namespace Winds
variable {s t u : State}

theorem of_fields (cells : t.cells = s.cells) (blocks : t.blocks = s.blocks) (cmds : t.cmds = s.cmds) : Winds s t where
  idle c h := (pieceOf_congr cells blocks c).trans h
  ends := ends_congr (congrArg (List.map _) cmds)

theorem refl (s : State) : Winds s s := of_fields rfl rfl rfl

theorem trans (h : Winds s t) (k : Winds t u) : Winds s u where
  idle c := k.idle c ∘ h.idle c
  ends id := k.ends id ∘ h.ends id

/-- A change that hides neither cells nor blocks nor commands. -/
theorem of_frame {M : Nat} (cells : M.testBit 9 = false) (blocks : M.testBit 10 = false) (cmds : M.testBit 21 = false)
    (frame : t.hide M = s.hide M) : Winds s t := by
  simp only [State.hide, State.mk.injEq, cells, blocks, cmds, cond_false] at frame
  obtain ⟨-, -, -, -, -, -, -, -, -, cells, blocks, -, -, -, -, -, -, -, -, -, -, cmds, -⟩ := frame
  exact of_fields cells blocks cmds

theorem foldl {β : Type} {f : State → β → State} (k : ∀ s a, Winds s (f s a)) (l : List β) (s : State) :
    Winds s (l.foldl f s) :=
  List.foldlRecOn l f (motive := Winds s) (refl s) fun t h a _ => h.trans (k t a)

theorem updCell (s : State) (c : Nat) {f : Cell → Cell} (fenced : ∀ e, (f e).fenced = e.fenced) (served : ∀ e, (f e).served = e.served)
    (piece : ∀ e, e.piece = none → (f e).piece = none) : Winds s (s.updCell c f) where
  idle d h := by
    by_cases own : d = c
    · subst own
      have down : (s.updCell d f).cellDown d = s.cellDown d := by
        unfold State.cellDown
        rw [State.cell_updCell_same, fenced, served]
        rfl
      unfold State.pieceOf at h ⊢
      rw [State.cell_updCell_same, down]
      split
      · rfl
      · next up =>
        rw [if_neg up] at h
        exact piece _ h
    · unfold State.pieceOf State.cellDown at h ⊢
      rw [State.cell_updCell_other _ _ _ _ own]
      exact h
  ends _ := id

theorem updPiece (s : State) (c : Nat) (f : Piece → Piece) : Winds s (s.updPiece c f) :=
  updCell s c (fun _ => rfl) (fun _ => rfl) fun e h => by rw [h, Option.map_none]

theorem tags_updCmd (s : State) (id : Nat) {f : Cmd → Cmd} (number : ∀ c, (f c).id = c.id) (ring : ∀ c, (f c).ring = c.ring) :
    (s.updCmd id f).tags = s.tags := by
  unfold State.tags State.updCmd
  dsimp only
  induction s.cmds with
  | nil => rfl
  | cons c cs ih =>
    unfold updFirst
    split
    · simp only [List.map_cons, number, ring]
    · rw [List.map_cons, ih, List.map_cons]

theorem updCmd (s : State) (id : Nat) {f : Cmd → Cmd} (number : ∀ c, (f c).id = c.id) (ring : ∀ c, (f c).ring = c.ring) :
    Winds s (s.updCmd id f) where
  idle c h := (pieceOf_congr rfl rfl c).trans h
  ends := ends_congr (tags_updCmd s id number ring)

theorem updCtx (s : State) (c : Nat) (f : Ctx → Ctx) : Winds s (s.updCtx c f) :=
  of_frame rfl rfl rfl (State.updCtx_fr (M := 0x80000) rfl s c f rfl)

theorem setObj (s : State) (i : Nat) (o : SyncObj) : Winds s (s.setObj i o) := of_fields rfl rfl rfl

theorem setRing (s : State) (n : Nat) (r : Ring) : Winds s (s.setRing n r) := of_fields rfl rfl rfl

theorem updStream (s : State) (n : Nat) (f : Stream → Stream) : Winds s (s.updStream n f) := of_fields rfl rfl rfl

theorem odAdd (s : State) (i j n : Nat) : Winds s (s.odAdd i j n) := of_fields rfl rfl rfl

theorem send (s : State) (m : Msg) : Winds s (s.send m) :=
  of_frame rfl rfl rfl (State.send_fr (M := 0x40000000000000) rfl s m rfl)

/-! ### Stores and completion records -/

theorem noteWritten (s : State) (a n : Nat) : Winds s (s.noteWritten a n) := by
  unfold State.noteWritten
  refine foldl (fun s c => ?_) _ s
  split
  · exact refl s
  · exact updCell s c (fun _ => rfl) (fun _ => rfl) fun _ => id

theorem store (s : State) (a : Nat) (bs : List Byte) (bad : List Nat) : Winds s (s.store a bs bad) := by
  have copied : Winds s (s.copyOnWrite a bs.length) := of_frame rfl rfl rfl (State.copyOnWrite_fr (M := 0x4010000070) rfl s _ _ rfl)
  have written (t : State) : Winds t ((t.wrBytes a bs).markPoison a bs.length bad) :=
    of_frame rfl rfl rfl (State.markPoison_fr (M := 0x30) rfl _ a _ bad (State.wrBytes_fr rfl t a bs rfl))
  exact (copied.trans (noteWritten _ a bs.length)).trans (written _)

theorem wr (s : State) (a n v : Nat) (p : Bool) : Winds s (s.wr a n v p) := store ..

theorem flushHeld (s : State) (n fuel : Nat) : Winds s (flushHeld s n fuel) := by
  induction fuel generalizing s with
  | zero => exact refl s
  | succ fuel ih =>
    unfold Machine.flushHeld
    dsimp only
    split
    · exact refl s
    split
    · exact refl s
    · exact ((wr ..).trans (setRing ..)).trans (ih _)

theorem postRecord (s : State) (n serial word : Nat) : Winds s (postRecord s n serial word) := by
  unfold Machine.postRecord
  dsimp only
  split
  · exact (setRing ..).trans (flushHeld ..)
  · exact setRing ..

theorem tags_complete (s : State) (id status : Nat) (d : Details) :
    (complete s id status d).tags = s.tags.filter fun e => e.1 != id := by
  unfold State.tags
  rw [cmds_complete, List.filter_map]
  rfl

theorem complete (s : State) (id status : Nat) (d : Details) : Winds s (complete s id status d) where
  idle := by
    cases found : s.cmd? id with
    | none =>
      rw [complete_of_none status d found]
      exact fun _ h => h
    | some c =>
      rw [complete_of_found status d found]
      have posted : Winds s (countRefused (Machine.postRecord s c.ring c.serial _) status) :=
        (postRecord s c.ring c.serial (recordOf c.entry c.k (c.disposition status) status d)).trans
          (of_frame rfl rfl rfl (countRefused_fr (M := 0x40) rfl _ status rfl))
      exact fun k h => (updCtx _ _ _).idle k ((pieceOf_congr rfl rfl k).trans (posted.idle k h))
  ends k h := by
    unfold Ends
    rw [tags_complete]
    by_cases own : k = id
    · exact .inl fun r => by simp [own]
    · obtain gone | ⟨r, other, here⟩ := h
      · exact .inl fun r => by simp [gone r]
      · exact .inr ⟨r, other, by simp [here, own]⟩

/-! ### Sync objects -/

theorem settleObj (s : State) (i : Nat) (o : SyncObj) : Winds s (settleObj s i o) :=
  (setObj ..).trans (foldl (fun _ _ => updPiece ..) _ _)

theorem tellFar (s : State) (o : SyncObj) (op : SyncOp) (operand : Nat) : Winds s (tellFar s o op operand) :=
  of_frame rfl rfl rfl (tellFar_fr (M := 0x40000000000000) rfl s o op operand rfl)

theorem lowWaterAt (s : State) (n before after : Nat) : Winds s (lowWaterAt s n before after) := by
  unfold Machine.lowWaterAt
  dsimp only
  split
  · exact (((updStream ..).trans (odAdd ..)).trans (settleObj ..)).trans (tellFar ..)
  · exact refl s

theorem syncChange (s : State) (i : Nat) (op : SyncOp) (operand : Nat) : Winds s (syncChange s i op operand) := by
  have settled : Winds s (Machine.tellFar (Machine.settleObj s i ((s.obj i).apply op operand)) (s.obj i) op operand) :=
    (settleObj s i _).trans (tellFar ..)
  unfold Machine.syncChange
  dsimp only
  split
  · exact refl s
  split
  · exact settled.trans (foldl (fun s n => lowWaterAt s n _ _) _ _)
  · exact settled

/-! ### Pieces -/

theorem orCellFlags (s : State) (c : Nat) (f : Flags) : Winds s (s.orCellFlags c f) := of_fields rfl rfl rfl

theorem sideSettle (s : State) (c seq : Nat) (commit : Option Nat) : Winds s (sideSettle s c seq commit) := of_fields rfl rfl rfl

theorem dropWaiters (s : State) (c : Nat) : Winds s (dropWaiters s c) := of_fields rfl rfl rfl

theorem leaveCell (s : State) (c : Nat) (p : Piece) : Winds s (leaveCell s c p) :=
  (dropWaiters s c).trans (updCell _ c (fun _ => rfl) (fun _ => rfl) fun _ _ => rfl)

/-- After a piece has left its cell, it settles its records and gives its units back. -/
theorem leaveCell_abandon (s : State) (c : Nat) (p : Piece) : Winds (Machine.leaveCell s c p) (abandon s c p) :=
  (sideSettle ..).trans (foldl (fun s i => syncChange s i .post 1) p.units _)

theorem addStored (s : State) (a : Nat) (v : Lined) (bad : Bool) : Winds s (addStored s a v bad).1 := store ..

theorem addNorm (s : State) (x : Ctx) (cluster : Nat) (n : NormAdd) : Winds s (addNorm s x cluster n).1 :=
  ((addStored s _ _ _).trans (addStored _ _ _ _)).trans (addStored _ _ _ _)

theorem foldl_fst {β γ : Type} {f : State × γ → β → State × γ} (k : ∀ a b, Winds a.1 (f a b).1) (l : List β) (a : State × γ) :
    Winds a.1 (l.foldl f a).1 :=
  List.foldlRecOn l f (motive := fun b => Winds a.1 b.1) (refl a.1) fun t h b _ => h.trans (k t b)

theorem release (s : State) (c : Nat) (p : Piece) : Winds s (release s c p) := by
  unfold Machine.release
  extract_lets ctx adds r dirtied n flagged settled
  have added : Winds s r.1 := 
    foldl_fst (f := fun a w => ((weltAdd a.1 c w).1, a.2 ||| (weltAdd a.1 c w).2))
      (fun a w => of_frame rfl rfl rfl (weltAdd_fr (M := 0x10000) rfl a.1 c w rfl)) adds (s, 0)
  have marked : Winds s dirtied := by
    show Winds s (if adds = [] then r.1 else r.1.updCtx ctx _)
    split
    · exact added
    · exact added.trans (updCtx ..)
  have normed : Winds dirtied n.1 := by
    show Winds dirtied (Prod.fst (match dirtied.ctx? ctx with
      | some x => _
      | none => _))
    split
    · next x _ =>
      exact foldl_fst (f := fun a m => ((Machine.addNorm a.1 x (clusterOf c) m).1, a.2 ||| (Machine.addNorm a.1 x (clusterOf c) m).2))
        (fun a m => addNorm a.1 x _ m) _ (dirtied, 0)
    · exact refl _
  have noted : Winds n.1 settled := (orCellFlags ..).trans (sideSettle ..)
  refine ((marked.trans normed).trans noted).trans (foldl (fun s o => ?_) _ _)
  split
  · exact syncChange ..
  · exact refl s

theorem runPieceEnded (s : State) (id pieceId status : Nat) : Winds s (runPieceEnded s id pieceId status) := by
  have counted : Winds s (s.updCmd id fun c => countEnd c pieceId status) := updCmd s id (fun _ => rfl) fun _ => rfl
  unfold Machine.runPieceEnded
  dsimp only
  split
  · split
    · exact counted.trans (complete ..)
    · exact counted
  · exact counted

theorem freeSpans (s : State) (c seq : Nat) : Winds s (freeSpans s c seq) := updCell s c (fun _ => rfl) (fun _ => rfl) fun _ => id

end Winds

/-- The state once a piece that commits has left its cell. -/
def committed (s : State) (c : Nat) (p : Piece) : State :=
  (dropWaiters (freeSpans (release s c p) c p.seq) c).updCell c fun e => { e with piece := none, skips := [], slack := pdSlack p.desc }

theorem winds_committed (s : State) (c : Nat) (p : Piece) : Winds s (committed s c p) :=
  (((Winds.release s c p).trans (.freeSpans _ c p.seq)).trans (.dropWaiters _ c)).trans
    (.updCell _ c (fun _ => rfl) (fun _ => rfl) fun _ _ => rfl)

theorem committed_commitPiece (s : State) (c : Nat) (p : Piece) : Winds (committed s c p) (commitPiece s c p) := by
  have retired : Winds (committed s c p) ((committed s c p).updCtx (pdCtx p.desc) fun x => { x with retired := true }) := .updCtx ..
  unfold commitPiece
  dsimp only
  split
  · split
    · exact retired.trans (.updCtx ..)
    · exact retired.trans (.runPieceEnded ..)
  · have counted (t : State) : Winds t (t.updCmd p.cmd fun k => countEnd k (pdId p.desc) (finalStatus p)) :=
      .updCmd t p.cmd (fun _ => rfl) fun _ => rfl
    exact (retired.trans (counted _)).trans (.send ..)

/-! ### The parts of the end of a job -/

theorem Winds.dropClaim (s : State) (c : Nat) :
    Winds s (s.updCell c fun e => { e with claim := none, skips := [], slack := 0 }) :=
  .updCell s c (fun _ => rfl) (fun _ => rfl) fun _ => id

theorem endCell_winds (s : State) (c : Nat) : Winds s (endCell s c) := by
  unfold endCell
  dsimp only
  refine Winds.trans ?_ (.dropClaim ..)
  split
  · split
    · exact (winds_committed ..).trans (committed_commitPiece ..)
    · exact (Winds.leaveCell ..).trans (.leaveCell_abandon ..)
  · exact .refl s

/-- R398: a cell is left without a piece. -/
theorem pieceOf_endCell (s : State) (c : Nat) : (endCell s c).pieceOf c = none := by
  unfold endCell
  dsimp only
  refine (Winds.dropClaim ..).idle c ?_
  split
  · split
    · exact (committed_commitPiece ..).idle c (pieceOf_of_piece_none (congrArg Cell.piece (State.cell_updCell_same ..)))
    · exact (Winds.leaveCell_abandon ..).idle c (pieceOf_of_piece_none (piece_leaveCell ..))
  · next idle => exact idle

theorem endStream_winds (s : State) (n state status : Nat) : Winds s (endStream s n state status) := by
  unfold endStream
  dsimp only
  split
  · exact .refl s
  · exact (Winds.updStream ..).trans (.complete ..)

theorem endStep_winds (s : State) (ctx : Nat) : Winds s (endStep s ctx) := by
  unfold endStep
  split
  · exact .refl s
  · exact (Winds.updCtx ..).trans (.complete ..)

theorem endFab_winds (s : State) (o : FabOp) (status : Nat) : Winds s (endFab s o status) := by
  have dropped : Winds s (dropFab s o.id) := .of_fields rfl rfl rfl
  unfold endFab
  dsimp only
  split
  · exact dropped.trans (.complete ..)
  · exact dropped

/-- What a run over a list keeps, and one of its members brings about, holds at its end. -/
theorem foldl_of_mem {α : Type} {f : State → α → State} {P : State → Prop} {l : List α} {a : α} (mem : a ∈ l)
    (keeps : ∀ s b, P s → P (f s b)) (brings : ∀ s, P (f s a)) (s : State) : P (l.foldl f s) := by
  obtain ⟨before, after, rfl⟩ := List.append_of_mem mem
  rw [List.foldl_append, List.foldl_cons]
  exact List.foldlRecOn after f (motive := P) (brings _) fun t h b _ => keeps t b h

/-- A cell that no list names is as after reset: without a piece. -/
theorem Sp.get_of_unlisted {α : Type} (d : α) {m : Sparse α} {i : Nat} (h : i ∉ m.map (·.1)) : Sp.get d m i = d := by
  induction m with
  | nil => rfl
  | cons e m ih =>
    rw [List.map_cons, List.mem_cons, not_or] at h
    obtain ⟨here, there⟩ := h
    rw [Sp.get, if_neg here, ih there]

theorem pieceOf_endCells (s : State) (c : Nat) : ((s.cells.map (·.1)).foldl endCell s).pieceOf c = none := by
  by_cases listed : c ∈ s.cells.map (·.1)
  · exact foldl_of_mem (P := fun t => t.pieceOf c = none) listed (fun t b => (endCell_winds t b).idle c)
      (fun t => pieceOf_endCell t c) s
  · have blank : (s.cell c).piece = none := congrArg Cell.piece (Sp.get_of_unlisted Cell.init listed)
    exact (Winds.foldl endCell_winds _ s).idle c (pieceOf_of_piece_none blank)

/-! ### The end of a job that no command closes -/

/-- What the end of a job, without a command, does to one of the commands it finds. -/
def endCmd (s : State) (c : Cmd) : State :=
  if some c.id = none ∨ c.ring = 1025 then s
  else if c.opcode = 0x12 then complete s c.id St.stepAborted { Details.zero with d0 := soStep c.entry }
  else complete s c.id St.targetReset (endDetails s c)

theorem endCmd_winds (s : State) (c : Cmd) : Winds s (endCmd s c) := by
  unfold endCmd
  split
  · exact .refl s
  split
  · exact .complete ..
  · exact .complete ..

theorem cmd?_endCmd_gone {s : State} {k : Nat} (gone : s.cmd? k = none) (c : Cmd) : (endCmd s c).cmd? k = none := by
  unfold endCmd
  split
  · exact gone
  split
  · exact cmd?_complete_gone gone ..
  · exact cmd?_complete_gone gone ..

theorem cmd?_endCmd {c : Cmd} (ring : c.ring ≠ 1025) (s : State) : (endCmd s c).cmd? c.id = none := by
  unfold endCmd
  rw [if_neg (by simp [ring])]
  split
  · exact cmd?_complete ..
  · exact cmd?_complete ..

/-- The state of a job that ends once its cells are free, and its streams, steps and fabric operations have ended. -/
def workEnded (s : State) : State :=
  let s := { s with job := { s.job with state := .closing, given := [] } }
  let s := (s.cells.map (·.1)).foldl endCell s
  let s := (s.streams.map (·.1)).foldl (fun s n => endStream s n 0 St.ok) s
  let s := (s.ctxs.map (·.1)).foldl endStep s
  s.fab.foldl (fun s o => if o.cmd.isSome then endFab s o St.targetReset else s) s

/-- The state of a job that ends, its commands among what has ended. -/
def cmdsEnded (s : State) : State := (workEnded s).cmds.foldl endCmd (workEnded s)

theorem jobEnd_none (s : State) : jobEnd s none =
    { cmdsEnded s with job := { (cmdsEnded s).job with pending := none, openCmd := none, zeroAtEdge := false }, fab := [], notices := [],
                       snaps := [], pllCal := [], pllIdle := [], hostReads := [],
                       outbox := (cmdsEnded s).outbox.filter fun m => !m.ofLease } := rfl

theorem pieceOf_closeJob_none (s : State) (c : Nat) : (closeJob s none).pieceOf c = (cmdsEnded s).pieceOf c := by
  rw [closeJob, jobEnd_none]
  exact pieceOf_congr rfl rfl c

theorem cmd?_closeJob_none (s : State) (id : Nat) : (closeJob s none).cmd? id = (cmdsEnded s).cmd? id := by
  rw [closeJob, jobEnd_none]
  rfl

theorem fab_closeJob_none (s : State) : (closeJob s none).fab = [] := by
  rw [closeJob, jobEnd_none]

/-- After the cells, the rest of the work winds up. -/
theorem endCells_workEnded (s : State) :
    Winds ((s.cells.map (·.1)).foldl endCell { s with job := { s.job with state := .closing, given := [] } }) (workEnded s) := by
  refine ((Winds.foldl (fun t n => endStream_winds t n 0 St.ok) _ _).trans (.foldl endStep_winds _ _)).trans (.foldl (fun t o => ?_) _ _)
  split
  · exact endFab_winds ..
  · exact .refl t

theorem winds_workEnded (s : State) : Winds s (workEnded s) := by
  have closing : Winds s { s with job := { s.job with state := .closing, given := [] } } := .of_fields rfl rfl rfl
  exact (closing.trans (.foldl endCell_winds _ _)).trans (endCells_workEnded s)

theorem pieceOf_cmdsEnded (s : State) (c : Nat) : (cmdsEnded s).pieceOf c = none :=
  (Winds.foldl endCmd_winds _ (workEnded s)).idle c ((endCells_workEnded s).idle c (pieceOf_endCells _ c))

theorem cmd?_of_no_tag {s : State} {id : Nat} (gone : ∀ r, (id, r) ∉ s.tags) : s.cmd? id = none := by
  refine List.find?_eq_none.mpr fun e he own => ?_
  have listed : (e.id, e.ring) ∈ s.tags := List.mem_map_of_mem he
  rw [show e.id = id by simpa using own] at listed
  exact gone e.ring listed

theorem cmd?_cmdsEnded {s : State} {k : Cmd} (held : k ∈ s.cmds) (ring : k.ring ≠ 1025) : (cmdsEnded s).cmd? k.id = none := by
  have tag : (k.id, k.ring) ∈ s.tags := List.mem_map_of_mem held
  unfold cmdsEnded
  obtain gone | ⟨r, other, here⟩ := (winds_workEnded s).ends k.id (.inr ⟨k.ring, ring, tag⟩)
  · exact List.foldlRecOn _ endCmd (motive := fun t => t.cmd? k.id = none) (cmd?_of_no_tag gone)
      fun t h c _ => cmd?_endCmd_gone h c
  · obtain ⟨c, mem, same⟩ := List.mem_map.mp here
    obtain ⟨number, way⟩ := Prod.mk.inj same
    rw [← number]
    exact foldl_of_mem (P := fun t => t.cmd? c.id = none) mem (fun t b h => cmd?_endCmd_gone h b)
      (cmd?_endCmd (way ▸ other)) _

/-- R398, R556: a job that a fault ends leaves no piece, no command but the dictionary's and no fabric operation, and the module
scrubs. -/
theorem endJobFault_spec {s : State} (job : s.job.state = .owned ∨ s.job.state = .opening) (rule : Nat) :
    (endJobFault s rule).job.state = .scrubbing ∧
      (∀ k ∈ s.cmds, k.ring ≠ 1025 → (endJobFault s rule).cmd? k.id = none) ∧
      (∀ c, (endJobFault s rule).pieceOf c = none) ∧ (endJobFault s rule).fab = [] := by
  have cmds : (logEvent s .jobEndFault srcModule 0 rule 0).cmds = s.cmds := by rw [logEvent_eq]
  rw [endJobFault, if_pos job]
  generalize logEvent s .jobEndFault srcModule 0 rule 0 = u at cmds
  refine ⟨rfl, fun k held ring => ?_, fun c => ?_, fab_closeJob_none u⟩
  · rw [cmd?_closeJob_none]
    exact cmd?_cmdsEnded (cmds ▸ held) ring
  · rw [pieceOf_closeJob_none, pieceOf_cmdsEnded]

end Sys2Proof.Machine
end

section
/-! Heartbeats, markers, takeover, STITCH_IN and STITCH_LOST (R31 to R35, R556). -/
namespace Sys2Proof.Machine

/-! ### Heartbeats and markers (R32 to R34) -/

theorem exec_rootHeartbeatSend (s : State) :
    exec .rootHeartbeatSend s = .next (if actsRoot s then s.send (.heartbeat (harnessPorts s)) else s) := rfl

theorem exec_rootHeartbeat (s : State) (m : Nat) : exec (.rootHeartbeat m) s = .next ((hearRoot s m).getD s) := rfl

theorem exec_stitchMarker {plane : Nat} (there : plane < 48) (s : State) (sender n : Nat) (t : Int) :
    exec (.stitchMarker plane sender n t) s = .next (stitchMarker s plane sender n t) := if_pos there

theorem exec_standbyTakeover (s : State) (us : Nat) : exec (.standbyTakeover us) s = .next (standbyTakeover s us) := rfl

section
variable {s : State} {m : Nat}

/-- R32: one that is heard: the root ends the silence. -/
theorem hearRoot_root (mode : s.job.mode ≠ 0) (far : s.stitch.root ≠ s.moduleId) :
    hearRoot s s.stitch.root = some { s with stitch := { s.stitch with quiet := 0 } } := by
  rw [hearRoot, if_neg (by simp [mode, far]), if_pos rfl]

/-- R33: the standby that may act is the root from now on. -/
theorem hearRoot_standby (mode : s.job.mode ≠ 0) (far : m ≠ s.moduleId) (other : m ≠ s.stitch.root) (acts : actsStandby s m = true) :
    hearRoot s m = some (takeOver s) := by
  rw [hearRoot, if_neg (by simp [mode, far]), if_neg other, if_pos acts]

/-- R32: any other is discarded. -/
theorem hearRoot_other (other : m ≠ s.stitch.root) (acts : actsStandby s m = false) : hearRoot s m = none := by
  rw [hearRoot, if_neg other, acts, if_neg Bool.false_ne_true, ite_self]

theorem standby_of_acts (acts : actsStandby s m = true) : s.stitch.standby = m := by
  simp only [actsStandby, Bool.and_eq_true, beq_iff_eq] at acts
  obtain ⟨⟨⟨-, standby⟩, -⟩, -⟩ := acts
  exact standby.symm

/-- R34: a marker of the root that comes by a port in service, ahead of its edge, is kept with its hop's delay taken off. -/
theorem stitchMarker_of_root {plane n : Nat} {t : Int} (mode : s.job.mode ≠ 0) (far : s.stitch.root ≠ s.moduleId)
    (ahead : s.stitch.count < n) (service : (s.port plane).harness = true) :
    stitchMarker s plane s.stitch.root n t =
      { s with stitch := { s.stitch with quiet := 0, markers := s.stitch.markers ++ [(n, t - (s.port plane).delay)] } } := by
  rw [stitchMarker, service, hearRoot_root mode far]
  exact if_neg (Nat.not_le.mpr ahead)

theorem stitchMarker_of_dark {plane sender n : Nat} {t : Int} (dark : (s.port plane).harness = false) :
    stitchMarker s plane sender n t = s := by
  rw [stitchMarker, dark]
  rfl

/-- The state of a standby that has taken over, its marker not yet sent. -/
def tookOver (s : State) : State := { takeOver s with stitch := { (takeOver s).stitch with holdover := false, lost := false } }

theorem standbyTakeover_of_silence {us : Nat} (owned : s.job.state = .owned) (acts : actsStandby s s.moduleId = true)
    (follows : s.stitch.root ≠ s.moduleId) (silence : 4 ≤ s.stitch.quiet ∨ 1000 ≤ us) :
    standbyTakeover s us = sendMarker (tookOver s) := if_pos ⟨owned, acts, follows, silence⟩

/-- Who is root does not tell who goes ahead of a marker, nor which ports carry it. -/
theorem sendMarker_tookOver (s : State) : sendMarker (tookOver s) =
    { s with stitch := (tookOver s).stitch, outbox := (s.send (.marker (harnessPorts s) (s.stitch.count + 1))).outbox } := rfl

end

/-! ### An edge of a module that runs no job (R29, R34, R66) -/

/-- The fields an edge may change while no job owns the module, as a mask of `State.hide`. -/
abbrev jobless : Nat := 0x500000410004c8

theorem State.eq_of_hide_jobless {s t : State} (frame : t.hide jobless = s.hide jobless) (offset : t.offset = 0) (idle : t.pllIdle = []) :
    t = { s with offset := 0, od := t.od, stitch := t.stitch, blocks := t.blocks, ports := t.ports, pllIdle := [], phys := t.phys,
                 outbox := t.outbox } := by
  cases s
  cases t
  cases offset
  cases idle
  cases frame
  rfl

/-- The ports on which an edge ends an idle time. -/
def idlePorts (s : State) : List Nat := (List.range 48).filter fun p => (s.port p).idle.isSome

section
variable {s : State}

/-- An edge of a module that no job owns and that opens none: the watch on markers, the upkeep, and what waited for a port. -/
theorem edge_of_jobless (unowned : s.job.state ≠ .owned) (opens : (s.job.zeroAtEdge && adopted s) = false) :
    edge s = resumePorts (edgeBegun s) (idlePorts s) := by
  have before : (edgeBegun s).job.state ≠ .owned := by rwa [job_edgeBegun]
  have job : edgeOfJob s = edgeBegun s := by
    unfold edgeOfJob
    dsimp only
    rw [opens, if_neg Bool.false_ne_true, if_neg before]
  have after : (resumePorts (edgeBegun s) (idlePorts s)).job.state ≠ .owned := by
    rwa [job_of_frame rfl (resumePorts_fr (M := 0x40000001000000) rfl (edgeBegun s) (idlePorts s) rfl)]
  have follows : actsRoot (resumePorts (edgeBegun s) (idlePorts s)) = false := by simp [actsRoot, after]
  rw [edge_eq, job]
  exact if_neg (by rw [← idlePorts, follows]; exact Bool.false_ne_true)

theorem edgeBegun_frame (s : State) : (edgeBegun s).hide jobless = s.hide jobless := by
  have watched : (watchMarkers s (nextCount s)).hide jobless = s.hide jobless := watchMarkers_fr rfl s _ rfl
  have rejoined := (State.hide_offset (v0 := 0) (M := jobless) rfl).trans (rejoinBlocks_fr rfl _ watched)
  exact dropSlices_fr rfl _ (endIdle_fr rfl _ rejoined)

theorem endIdle_ports (s : State) : (endIdle s).hide 0x1000000 = State.hide { s with pllIdle := [] } 0x1000000 := by
  unfold endIdle
  refine foldl_fr rfl fun t p same => ?_
  split
  · exact State.updPort_fr rfl t p _ same
  · exact same

theorem edge_frame_of_jobless (unowned : s.job.state ≠ .owned) (opens : (s.job.zeroAtEdge && adopted s) = false) :
    (edge s).hide jobless = s.hide jobless := by
  rw [edge_of_jobless unowned opens]
  exact resumePorts_fr rfl _ _ (edgeBegun_frame s)

/-- What waited for a port leaves what an edge has begun, but for ports and messages. -/
theorem edge_ports_of_jobless (unowned : s.job.state ≠ .owned) (opens : (s.job.zeroAtEdge && adopted s) = false) :
    (edge s).hide 0x50000001000000 =
      State.hide { rejoinBlocks (watchMarkers s (nextCount s)) with offset := 0, pllIdle := [] } 0x50000001000000 := by
  rw [edge_of_jobless unowned opens]
  exact resumePorts_fr rfl _ _ (dropSlices_fr rfl _ (State.hide_mono rfl (endIdle_ports _)))

theorem offset_edge_of_jobless (unowned : s.job.state ≠ .owned) (opens : (s.job.zeroAtEdge && adopted s) = false) :
    (edge s).offset = 0 := (congrArg State.offset (edge_ports_of_jobless unowned opens) :)

theorem pllIdle_edge_of_jobless (unowned : s.job.state ≠ .owned) (opens : (s.job.zeroAtEdge && adopted s) = false) :
    (edge s).pllIdle = [] := (congrArg State.pllIdle (edge_ports_of_jobless unowned opens) :)

theorem od_watchMarkers_of_found (found : s.stitch.lost = false) (n : Nat) :
    (watchMarkers s n).od = (s.odAdd 0x8014 0 (outliers s n).length).od := by
  have kept : (s.odAdd 0x8014 0 (outliers s n).length).stitch.lost = false := found
  unfold watchMarkers
  dsimp only
  rw [kept]
  rfl

/-- R34: of the dictionary, an edge changes the count of outliers. -/
theorem od_edge_of_jobless (unowned : s.job.state ≠ .owned) (opens : (s.job.zeroAtEdge && adopted s) = false)
    (found : s.stitch.lost = false) : (edge s).od = (s.odAdd 0x8014 0 (outliers s (nextCount s)).length).od :=
  ((congrArg State.od (edge_ports_of_jobless unowned opens) :)).trans (od_watchMarkers_of_found found _)

end

/-! ### STITCH_IN (R31) -/

section
variable {s : State} {us : Nat}

theorem heardIn_hide (s : State) (us : Nat) : (heardIn s us).hide jobless = s.hide jobless := by
  rw [heardIn_frame]
  rfl

theorem stitchInEdge_of_early (alone : s.odGet 0x5001 0 = 0) (pin : s.odGet 0x7010 0 = 1) (early : us < s.periodUs) :
    stitchInEdge s us = s.odAdd 0x8013 0 1 := by
  rw [stitchInEdge, if_neg (by simp [alone, pin]), if_pos early]

/-- R31: late edges are counted. -/
theorem odGet_heardIn_late (s : State) (us : Nat) : (heardIn s us).odGet 0x8015 0 =
    if s.periodUs < us then min (2 ^ 64 - 1) (s.odGet 0x8015 0 + 1) else s.odGet 0x8015 0 := by
  unfold heardIn
  split
  · exact State.odGet_odAdd_same s 0x8015 0 1
  · rfl

/-- An edge on STITCH_IN changes of the dictionary, beside the log, the counts of outliers and of late edges. -/
theorem odGet_stitchInEdge_late (alone : s.odGet 0x5001 0 = 0) (pin : s.odGet 0x7010 0 = 1) (due : s.periodUs ≤ us)
    (unowned : s.job.state ≠ .owned) (opens : (s.job.zeroAtEdge && adopted s) = false) :
    (stitchInEdge s us).odGet 0x8015 0 = (heardIn s us).odGet 0x8015 0 := by
  have found : (heardIn s us).stitch.lost = false := by rw [stitch_heardIn]
  have od := od_edge_of_jobless (s := heardIn s us) (by rwa [job_heardIn]) (by rwa [job_heardIn, adopted_heardIn]) found
  have edge : (edge (heardIn s us)).odGet 0x8015 0 = (heardIn s us).odGet 0x8015 0 :=
    (State.odGet_congr od 0x8015 0).trans (State.odGet_odAdd_other _ _ _ _ _ _ (by decide))
  rw [stitchInEdge_of_due alone pin due]
  split
  · rw [odGet_logEvent_other _ _ _ _ _ _ (by decide) (by decide) (by decide), edge]
  · exact edge

/-- R31: what an edge on STITCH_IN leaves of a module that no job owns. -/
theorem stitchInEdge_frame (alone : s.odGet 0x5001 0 = 0) (pin : s.odGet 0x7010 0 = 1) (due : s.periodUs ≤ us)
    (unowned : s.job.state ≠ .owned) (opens : (s.job.zeroAtEdge && adopted s) = false) :
    (stitchInEdge s us).hide jobless = s.hide jobless ∧ (stitchInEdge s us).offset = 0 ∧ (stitchInEdge s us).pllIdle = [] ∧
      (stitchInEdge s us).stitch.lost = false := by
  have unowned' : (heardIn s us).job.state ≠ .owned := by rwa [job_heardIn]
  have opens' : ((heardIn s us).job.zeroAtEdge && adopted (heardIn s us)) = false := by rwa [job_heardIn, adopted_heardIn]
  have frame := (edge_frame_of_jobless unowned' opens').trans (heardIn_hide s us)
  have offset := offset_edge_of_jobless unowned' opens'
  have idle := pllIdle_edge_of_jobless unowned' opens'
  refine ⟨?_, ?_, ?_, ?_⟩
  · rw [stitchInEdge_of_due alone pin due]
    split
    · exact logEvent_fr rfl _ _ _ _ _ _ frame
    · exact frame
  · rw [stitchInEdge_of_due alone pin due]
    split
    · rw [logEvent_eq]
      exact offset
    · exact offset
  · rw [stitchInEdge_of_due alone pin due]
    split
    · rw [logEvent_eq]
      exact idle
    · exact idle
  · rw [stitch_stitchInEdge_of_due alone pin due, stitch_edge, stitch_watchMarkers, stitch_heardIn]
    rfl

end

/-! ### STITCH_LOST (R35, R556) -/

theorem exec_stitchLost (s : State) : exec .stitchLost s = .next (if s.stitch.holdover then enterLost s else s) := rfl

theorem exec_stitchInTimeout (s : State) :
    exec .stitchInTimeout s = .next (if s.odGet 0x5001 0 = 0 ∧ s.odGet 0x7010 0 = 1 then enterLost s else s) := rfl

theorem exec_stitchLostJobEnd (s : State) : exec .stitchLostJobEnd s = .next (if s.stitch.lost then endJobFault s 2 else s) := rfl

/-- R35: the module is lost, and the log holds one record more. -/
theorem enterLost_spec {s : State} (found : s.stitch.lost = false) :
    enterLost s = { s with od := (enterLost s).od, stitch := { s.stitch with lost := true } } ∧
      (enterLost s).odGet 0x8090 0 = min (2 ^ 64 - 1) (s.odGet 0x8090 0 + 1) := by
  rw [enterLost, if_neg (by rw [found]; exact Bool.false_ne_true)]
  exact ⟨logEvent_eq _ _ _ _ _ _, odGet_logEvent_count _ _ _ _ _ _⟩

/-- Settles O58: each command through the lemma that says what it does in the case asked for; an edge outside a job does no more
than watch the markers and look after units. -/
theorem stitchRootsAndMarkersAreFollowed : Obligations.StitchRootsAndMarkersAreFollowed := by
  refine ⟨fun s mode owned root => ?_, fun s m mode far => ⟨fun root => ?_, fun other acts => ?_, fun other acts => ?_⟩,
    fun s plane n t there mode far ahead => ⟨fun service => ?_, fun dark => ?_⟩, fun s rails own unowned opens found => ?_,
    fun s us owned acts follows silence => ?_, fun s found => ⟨fun holdover => ?_, fun alone pin => ?_⟩, fun s lost job => ?_,
    fun s us alone pin => ⟨fun early => ?_, fun due unowned opens => ?_⟩⟩
  · have acts : actsRoot s = true := by simp [actsRoot, mode, owned, root]
    rw [exec_rootHeartbeatSend, if_pos acts]
  · subst root
    rw [exec_rootHeartbeat, hearRoot_root mode far, Option.getD_some]
  · refine ⟨_, exec_rootHeartbeat s m, ?_⟩
    rw [hearRoot_standby mode far other acts, Option.getD_some]
    have standby := standby_of_acts acts
    exact ⟨rfl, standby, congrArg (newStandby s · s.stitch.root) standby, rfl, rfl⟩
  · rw [exec_rootHeartbeat, hearRoot_other other acts, Option.getD_none]
  · rw [exec_stitchMarker there, stitchMarker_of_root mode far ahead service]
  · rw [exec_stitchMarker there, stitchMarker_of_dark dark]
  · have next := nextCount_of_runs opens (.inl found)
    refine ⟨edge s, exec_stitchEdge_of_own rails own, State.eq_of_hide_jobless (edge_frame_of_jobless unowned opens)
      (offset_edge_of_jobless unowned opens) (pllIdle_edge_of_jobless unowned opens), ?_, ?_, ?_⟩
    · rw [State.odGet_congr (od_edge_of_jobless unowned opens found), State.odGet_odAdd_same, next]
    · rw [stitch_edge, stitch_watchMarkers, next]
    · rw [stitch_edge, stitch_watchMarkers, next]
      simp [and_assoc]
  · refine ⟨_, exec_standbyTakeover s us, ?_⟩
    rw [standbyTakeover_of_silence owned acts follows silence, sendMarker_tookOver]
    have standby := standby_of_acts acts
    exact ⟨rfl, rfl, standby, congrArg (newStandby s · s.stitch.root) standby, rfl, rfl, rfl⟩
  · exact ⟨enterLost s, by rw [exec_stitchLost, if_pos holdover], enterLost_spec found⟩
  · exact ⟨enterLost s, by rw [exec_stitchInTimeout, if_pos ⟨alone, pin⟩], enterLost_spec found⟩
  · exact ⟨endJobFault s 2, by rw [exec_stitchLostJobEnd, if_pos lost], endJobFault_spec job 2⟩
  · refine ⟨_, exec_stitchInEdge s us, ?_⟩
    rw [stitchInEdge_of_early alone pin early]
    exact ⟨rfl, State.odGet_odAdd_same s 0x8013 0 1⟩
  · obtain ⟨frame, offset, idle, found⟩ := stitchInEdge_frame alone pin due unowned opens
    exact ⟨_, exec_stitchInEdge s us, State.eq_of_hide_jobless frame offset idle, found,
      (odGet_stitchInEdge_late alone pin due unowned opens).trans (odGet_heardIn_late s us)⟩

end Sys2Proof.Machine
end
